-- ==== Sys2Proof/Word.lean ====
section
/-! DEFINITION. The word types of the model and their plainest helpers. -/

namespace Sys2Proof

/-- A register of the map (00_scope R6). -/
abbrev Word := BitVec 32

/-- A byte of a block, frame, telegram, image or DRAM line. -/
abbrev Byte := BitVec 8

end Sys2Proof
end

