-- ==== Sys2Proof/Syntax.lean ====
section
/-! DEFINITION. The commands of the block: one constructor per row of spec/opcode_table.json, in the table's order.
A command carries what the outside supplies with it: which die, page, channel or waystation it concerns, the value
written, the levels sampled, the block or frame received. Indices are natural numbers; WellFormed says which exist. -/

namespace Sys2Proof

/-- Where a register port frame broke off (02 R45). -/
inductive FramePhase where
  | beforeTurnaround   -- a read frame cut before its turn-around clock, or a write before its last data nibble
  | afterTurnaround    -- a frame cut after that: a read during its wait, marker or data clocks, a write after its last data nibble
  deriving DecidableEq, Repr

/-- The two counter-rotating rings of a pair (09 R237). -/
inductive Ring where
  | a | b
  deriving DecidableEq, Repr

/-- The end delimiter found on a received block (09 R241, R247). -/
inductive Delim where
  | normal | stomped | bad
  deriving DecidableEq, Repr

/-- A ring block as received: header fields of R242, the 64 payload bytes, the CRC field and the delimiters.
DESIGN CHOICE, log entry 44. DESIGN CHOICE, log entry 76. -/
structure RingBlock where
  sa : Bool
  hm : Bool
  cls : BitVec 2
  kind : BitVec 4
  src : Byte
  dst : Byte
  seq : Byte
  alert : BitVec 16
  ack : BitVec 16
  payload : List Byte
  crc : Word
  delim : Delim
  deriving DecidableEq, Repr

/-- What a ring receiver found in one slot (09 R244): a good block, a stomped one, a bad delimiter, a CRC that does not match, no K28.5 at
the slot boundary, no signal. DESIGN CHOICE, log entry 38. -/
inductive Sight where
  | good
  | stomped (crcOk : Bool)
  | badDelimiter
  | badCrc
  | noLock
  | noSignal
  deriving DecidableEq, Repr

/-- Which transfer arrives at a die: the one its tollgate of the local ports grants, or the mirror record of a domain (03 R82). -/
inductive FabWhich where
  | queued
  | mirror (domain : Nat)
  deriving DecidableEq, Repr

/-- The three links of a die's square (02 R56, R69). -/
inductive FabLink where
  | minus | plus | row
  deriving DecidableEq, Repr

/-- The state in which a transfer arrived (02 R66, R67). -/
inductive FabArrival where
  | good (resends : List Nat)  -- good, after these re-sends over the hops of its route in order (class B, C: at most three over each)
  | badA                       -- class A, bad CRC
  | badBC (resends : List Nat) -- class B or C: after these re-sends over the hops it passed, still bad after the third over the next
  deriving DecidableEq, Repr

/-- The levels of a measurement ball in the three ticks in which a channel samples it for one bit (05 R133). -/
abbrev Samples := Bool × Bool × Bool

/-- The domain register a DOMAIN_CHANGE writes (03 R79). -/
inductive AdReg where
  | cfg | nomLo | nomHi | anchorLo | anchorHi | anchorFrac | anchorCyc
  deriving DecidableEq, Repr

/-- Loss of a PLL: its cause as LOSS_REC codes it (13 R359, R365). -/
inductive LossCause where
  | lockLost | stopped | refAbsent
  deriving DecidableEq, Repr

/-- The two PLLs of a die (13 R342). -/
inductive Pll where
  | tpll | fpll
  deriving DecidableEq, Repr

/-- A received Ethernet frame after the MAC's checks (14 R369): what decides its handling. DESIGN CHOICE, log entry 76. -/
structure EthFrame where
  fcsOk : Bool
  length : Nat
  tags : Nat                    -- 802.1Q tags carried
  dst : BitVec 48               -- destination address
  etype : BitVec 16
  ipOptions : Bool              -- IPv4 with options or fragmentation
  udp : Option (Word × BitVec 16 × BitVec 16)  -- of UDP over IPv4: source address, source port, destination port
  source : BitVec 48
  sequence : Option (BitVec 16) -- of its PRP trailer or HSR tag
  payload : List Byte           -- from the first byte after the EtherType or the UDP header
  deriving DecidableEq, Repr

/-- What an Announce says of a clock: the sender's port identity, then what IEEE 1588's best master selection compares (14 R381-R383). -/
structure PtpClock where
  prio1 : Byte
  cls : Byte
  accuracy : Byte
  variance : BitVec 16
  prio2 : Byte
  gm : BitVec 64
  steps : Byte
  sender : BitVec 80
  deriving DecidableEq, Repr

/-- A PTP message as received (14 R375, R379, R381-R383): sender, sequence number, times in ns, correctionField in 2^-16 ns. -/
inductive PtpMsg where
  | sync (sender : BitVec 80) (seq : BitVec 16) (twoStep : Bool) (origin : Nat) (corr : Int)
  | followUp (sender : BitVec 80) (seq : BitVec 16) (origin : Nat) (corr : Int)
  | announce (clock : PtpClock) (utc : BitVec 16)
  | pdelayReq (turn : Nat)                          -- to be answered; fine units from its delimiter to that of the answer
  | pdelayResp (seq : BitVec 16) (twoStep : Bool) (receipt : Nat) (corr : Int)
  | pdelayFollowUp (seq : BitVec 16) (response : Nat) (corr : Int)
  | delayReq
  | delayResp (seq : BitVec 16) (receive : Nat) (corr : Int)
  | unsupported                                      -- management, unicast negotiation: discarded
  deriving DecidableEq, Repr

/-- Which periodic PTP message is due (14 R381). -/
inductive PtpSend where
  | sync | announce | pdelayReq | delayReq
  deriving DecidableEq, Repr

/-- One failing cell met by March C- (18 R476): its word and bit, the expected value, the element and its tick. -/
structure FailCell where
  word : Nat
  bit : Nat
  exp : Bool
  element : Nat
  tick : Nat
  deriving DecidableEq, Repr

/-- The commands of the block. -/
inductive Instr where
  -- 01, 21: supplies, reset, boot, device state
  | suppliesRise (mv : List Nat)
  | supplyLoss (mv : List Nat)
  | resetNLow (ns : Nat)
  | resetHoldEnd (mv : List Nat) (role : BitVec 2) (refsel boot0 : Bool)
  | tpllLocked (d : Nat)
  | bootComplete (d : Nat) (links : BitVec 3)
  | bootGo
  | nodeSelfReset (cycles : Nat)
  | stateCmdConfig
  | stateCmdStandstill
  | stateCmdStartup
  | stateCmdRun
  | stateCmdTest
  | stateCmdRecovery
  | stateCmdOther (target : BitVec 4)
  | collectorArmApply
  -- 02: register port, pages, fabric
  | readWord (addr : Word)
  | writeWord (addr data : Word)
  | frameAbort (cmd : Byte) (addr data : Word) (phase : FramePhase)
  | regTimeout (write : Bool) (addr data : Word)
  | registerWrite (addr data : Word)
  | stickyClear (d page : Nat) (mask : Word)
  | softReset (d page : Nat) (value : Word)
  | pageLock (d page : Nat)
  | blockEn (d page : Nat) (on : Bool)
  | summaryUpdate
  | fabricSubmission (d port source : Nat) (dst cls : Nat)
  | fabricTransfer (d : Nat) (what : FabWhich) (how : FabArrival)
  | linkDown (d : Nat) (link : FabLink)
  | resEntryWrite (d i : Nat) (value : Word)
  -- 03: angle base
  | milestoneReached (d : Nat)
  | load (d i : Nat)
  | disarm (d i : Nat)
  | arm (d i : Nat)
  | snapSel (d domain : Nat)
  | domainChange (d domain : Nat) (reg : AdReg) (value : Word)
  | mirrorRecord (domain : Nat)
  | slewEnd (d domain : Nat)
  -- 04: angle tracker
  | trackerSample (d c : Nat)
  | coastLoss (d c : Nat)
  | locked (d c : Nat)
  | trackerStandstill (d c : Nat)
  | quadTransition (d c : Nat) (qa qb : Bool) (stable : Nat)
  | pulseEdge (d c : Nat) (ball : Bool) (stable : Nat)
  | restart (d c : Nat)
  -- 05: measurement front end
  | sdcCfgWrite (d k : Nat) (value : Word)
  | chEnWrite (d : Nat) (value : Word)
  | channelSettled (d c edge : Nat) (bits : List Samples)
  | fastResult (d c edge : Nat) (bits : List Samples)
  | stuck (d c edge : Nat) (bits : List Samples)
  -- 06, 07: loop engines
  | instanceGrant (d e : Nat)
  | slotEnWrite (d : Nat) (hi : Bool) (value : Word)
  | slotCascWrite (d slot : Nat) (value : Word)
  | spsWrite (d slot : Nat) (hi : Bool) (value : Word)
  | nop (d e i : Nat)
  | ld (d e i : Nat)
  | ldw (d e i : Nat)
  | st (d e i : Nat)
  | sts (d e i : Nat)
  | movw (d e i : Nat)
  | mac (d e i : Nat)
  | msu (d e i : Nat)
  | mul (d e i : Nat)
  | add (d e i : Nat)
  | sub (d e i : Nat)
  | shl (d e i : Nat)
  | shr (d e i : Nat)
  | neg (d e i : Nat)
  | abs (d e i : Nat)
  | lim (d e i : Nat)
  | intg (d e i : Nat)
  | dly (d e i : Nat)
  | sel (d e i : Nat)
  | tab (d e i : Nat)
  | div (d e i : Nat)
  | sincos (d e i : Nat)
  | inp (d e i : Nat)
  | out (d e i : Nat)
  | spt (d e i : Nat)
  | flag (d e i : Nat)
  | cmp (d e i : Nat)
  | brf (d e i : Nat)
  | endRun (d e i : Nat)
  | invalidInstruction (d e i : Nat)
  -- 08: edge planner
  | planStart (d : Nat) (fails : List (Nat × Bool))
  | planEnd (d : Nat)
  | manifestTransfer (d ringSlot : Nat)
  -- 09, 10: Xanyon ring
  | ringLinkUp (d : Nat) (r : Ring) (seen : List Sight)
  | ringLinkDown (d : Nat) (r : Ring) (seen : List Sight)
  | ringBreak (d : Nat) (r : Ring) (link : Nat)
  | ringBreakClear (d : Nat) (r : Ring) (link : Nat)
  | blockForward (r : Ring) (blk : RingBlock)
  | silent
  | ringBlockClear
  | alert (d : Nat) (blk : RingBlock)
  | ackReceived (d : Nat) (ack : BitVec 16)
  | resendTimeout (d n : Nat) (cls : BitVec 2)
  | syncSend (d : Nat)
  | sync (r : Ring) (blk : RingBlock) (arr : Nat)
  | delaySend (d : Nat)
  | delay (r : Ring) (blk : RingBlock) (arr : Nat)
  | delayReturn (d : Nat) (la lb : Option Nat)
  | enumGo (d : Nat)
  | enumReturn (d : Nat) (ca cb : Option (Nat × Nat))
  | caravan (r : Ring) (blk : RingBlock)
  | caravanFinalise (d : Nat) (cid : Byte) (returned : Nat) (results : List Word)
  | setpt (blk : RingBlock)
  | stateSend (d : Nat)
  | state (blk : RingBlock)
  | blockSend (d : Nat)
  | block (blk : RingBlock)
  | contextFieldWrite (d n field : Nat) (value : BitVec 16)
  | ctxWrite (r : Ring) (blk : RingBlock)
  | ctxDataSend
  | ctxData (d : Nat) (r : Ring) (blk : RingBlock)
  | remoteRead (d n : Nat)
  | remoteWrite (d n : Nat)
  | regReq (r : Ring) (blk : RingBlock)
  | regRsp (d : Nat) (r : Ring) (blk : RingBlock)
  | remoteTimeout (d : Nat)
  | ringModeWrite (d : Nat) (value : Word)
  | rresWrite (d i : Nat) (value : Word)
  -- 11: cell and port roles
  | edgeExecute (b : Nat)
  | manifestExpiry (b : Nat)
  | deadTimeEnd (leg : Nat)
  | dabB1Edge
  | dabB2Edge
  | legCrossing (leg : Nat)
  | carrierPeak (leg : Nat)
  | pinCommand (b : Nat) (p n z : Bool × Nat)
  | bgSrcWrite (value : Word)
  -- 12: bridge guard
  | trip (leg : Nat) (senses : List Nat)
  | endBlank (leg : Nat) (senses : List Nat)
  | driverTrip (leg : Nat) (low : List Bool)
  | slowHigh (b : Nat)
  | gatesLow (leg : Nat)
  | slowHoldEnd (b : Nat)
  | unlock (legs : BitVec 6) (senses : List Nat) (gflt : BitVec 6)
  -- 13: clocks
  | referenceLost (d : Nat) (second : Bool) (cycles : Nat)
  | referencePresent (d : Nat) (second : Bool) (cycles : Nat) (cdr : Bool)
  | holdoverEnd (d : Nat) (pll : Pll)
  | refReturn (d : Nat)
  | pllRelock (d : Nat) (pll : Pll)
  | clkGated (d : Nat) (errs : List Int) (still ago : Nat)
  | fpllLoss (d : Nat) (errs : List Int) (still : Nat)
  | dllLoss (d : Nat)
  | dllRelock (d : Nat)
  | update (d : Nat)
  | guardFail (d : Nat) (khz : Nat)
  | vtEdge (d : Nat) (tvt fvt : Byte) (tFor fFor : Nat)
  -- 14: station port
  | netLinkChange (d : Nat) (pcs an : Bool) (speed : Nat) (full : Bool)
  | mdioRead (phy reg : BitVec 5)
  | mdioWrite (phy reg : BitVec 5) (data : BitVec 16)
  | mdioDone (data : BitVec 16)
  | frameReceive (d : Nat) (f : EthFrame)
  | ptpMessage (d : Nat) (domain : Byte) (fine : Nat) (m : PtpMsg)
  | arpRequest (d : Nat)
  | safetyTelegram (d : Nat)
  | managementFrame (d : Nat)
  | supervisionSend
  | hsrForward (d : Nat) (f : EthFrame) (residence : Nat)
  | duplicateExpiry (d : Nat)
  | tdStep (n : Nat) (value : Word)
  | syncLoss (n : Nat)
  | announceTimeout (d : Nat)
  | ppsInEdge (stable : Nat)
  | ppsOutRise
  | ppsOutFall
  -- 15, 16: safety block
  | inputAccept (ch : Nat) (fb : Bool) (i : Nat) (levels : List (Bool × Nat))
  | resetLong (ch f : Nat)
  | safetyCycle (ch : Nat)
  | discrepancy (ch f : Nat) (hand2 : Bool)
  | testPulse (n : Nat)
  | inputTest (ch i : Nat) (raw : Bool)
  | outputTestPulse (ch j : Nat) (readback : Bool)
  | readback (ch j : Nat) (level : Bool)
  | feedback (ch j : Nat)
  | crossImage (ch : Nat)
  | crossImageAbsent (ch : Nat)
  | safRstCmd (ch : Nat) (auth : Bool) (value : Word)
  | safConfigWrite (ch : Nat) (offset : Nat) (auth : Bool) (value : Word)
  | telegramTake (ch : Nat)
  | watchdogExpiry (ch c : Nat)
  | degradedEnd (ch c : Nat)
  -- 17: faults and temperature
  | localLatch (d : Nat)
  | packageRecord
  | clear (d : Nat)
  | ffReactWrite (d : Nat) (value : Word)
  | tempSample (d : Nat) (raws : List Int)
  | neighbourWrite (d n : Nat)
  -- 18: self-test
  | sliceStart (d : Nat)
  | sliceEnd (d : Nat) (fails : List FailCell)
  | fuseBurn (d macro_ : Nat)
  | fuseDone (d : Nat)
  | engineTestStart (d : Nat)
  | engineTestYield (d : Nat)
  | engineTestEnd (d : Nat) (issues : Nat) (sig : Word)
  | patrolRead (d : Nat) (first second : Bool)
  -- 19: security
  | imageStart (d : Nat) (type : BitVec 3)
  | imageAbort (d : Nat)
  | imageWord (d : Nat) (word : Word)
  | imageVerified (d : Nat)
  | attest (d : Nat)
  | establishKey (d : Nat) (slot : BitVec 2)
  | secOpDone (d : Nat)
  | authGo (d : Nat)
  | fuseProgram (d : Nat) (slot : BitVec 2) (auth : Bool)
  | fuseRevoke (d : Nat) (slot : BitVec 2) (auth : Bool)
  | fuseOpDone (d : Nat)
  -- 20: recorder
  | streamRecord (d : Nat)
  | captureSend
  | capture (d : Nat) (r : Ring) (blk : RingBlock)
  | ledgerEnable (d : Nat) (on : Bool)
  | trig (c : BitVec 4)
  | ledgerTrigger
  | ledgerSeal (d : Nat)
  | rearm
  | partWrite (d i : Nat) (value : Word)
  | windowRead (d i : Nat) (first second : Bool)
  | windowWrite (d i : Nat) (value : Word) (first second : Bool)
  -- 21: node images
  | nimgGo (d : Nat)
  | nimgAbort (d : Nat)
  | image (r : Ring) (blk : RingBlock)
  | nimgPoll (d n : Nat) (fails : List (Nat × Bool))
  -- rows the table adds at its end
  | stuckClear (d c edge : Nat) (bit : Samples)
  | ptpSend (d : Nat) (m : PtpSend) (fine : Nat)
  | caravanBlockSend (d : Nat)
  | bcBlockSend (d n : Nat)
  | pagePowerUpdate (d : Nat)
  deriving DecidableEq, Repr

end Sys2Proof
end

