-- ==== Sys2Proof/Decode.lean ====
section
/-! DEFINITION. The command a word spells. No row of spec/opcode_table.json gives bits: a command of this block is an
access or an event, not an encoding, so no word spells one. -/

namespace Sys2Proof

/-- The command spelled by a word of `nbits` bits under the table: none, for the table gives no row any bits.
DESIGN CHOICE, log entry 1. -/
def decodeTableWord (_nbits _w : Nat) : Option Instr := none

end Sys2Proof
end

