-- ==== Sys2Proof/Config.lean ====
section
/-! DEFINITION. What the spec leaves open, as constants with no body: nothing can be proved of their values.
`free…` are applied to the counter `State.free`, which every use advances; the others to the operands they depend on. -/

namespace Sys2Proof.Config

/-- The n-th open word (R15, R360, R474, R479, R512, R525: contents not defined). -/
opaque freeWord : Nat → Word

/-- The n-th open natural number: an estimate or choice the spec does not state (R15, R52, R524, R547). -/
opaque freeNat : Nat → Nat

/-- The n-th open integer. -/
opaque freeInt : Nat → Int

/-- Words that a misuse leaves in a block's memories, with their keys in the die window (00 R14). -/
opaque leftWords : Nat → List (Nat × Word)

/-- Rounding error of SINCOS at an operand, for the sine (false) and the cosine (true) (07 R183: within 2 LSB). -/
opaque sincosErr : Bool → BitVec 16 → Int

/-- What the sampled form of a GRID channel's loop adds to the advance of its angle (2^-48 turn) and to its frequency (2^-48 turn per
tick), from error, BW and ticks since the last sample (04 R116 gives the loop's natural frequency and damping, not its sampled form). -/
opaque gridForm : (err bw dt : Int) → Int × Int

/-- SHA-384, HMAC-SHA-384 under a key, an ECDSA signature r, s and its verification, the ECDH agreement, the uncompressed public point
of a private key, all most significant byte first (19 R490-R506 name these by outside standards). -/
opaque sha384 : List Byte → BitVec 384
opaque hmac384 : (key msg : List Byte) → BitVec 384
opaque ecdsaSign : (key : BitVec 384) → (msg : List Byte) → (nonce : Nat) → BitVec 768
opaque ecdsaVerify : (pub msg sig : List Byte) → Bool
opaque ecdh : (key : BitVec 384) → (pub : List Byte) → BitVec 384
opaque publicKey : BitVec 384 → BitVec 776
opaque onCurve : List Byte → Bool

/-- RESULT of the owner check of a key establishment: a slot's fuse value, the message and the signature (19 R502 gives no place
for the owner's public key). -/
opaque ownerCheck : (slot : Nat) → (msg sig : List Byte) → Nat

/-- MISR of a complete engine signature test (18 R487: per layout). -/
opaque sigExp : Word

end Sys2Proof.Config
end

