-- ==== Sys2Proof/Machine/Fields.lean ====
section
/-! DEFINITION. Named fields and sticky bits of the register tables of the spec, under the names the tables give them.
`Fd.REG.FIELD` is a field, `Sk.PAGE.BIT` a sticky bit (the first, for a group of bits). -/

namespace Sys2Proof.Machine

/-- A field: bits `hi` to `lo` of the words at `page * 0x1000 + base + stride * i`. -/
structure Fld where
  page : Nat
  base : Nat
  stride : Nat
  hi : Nat
  lo : Nat
  deriving DecidableEq, Repr

/-- A sticky bit: its page and its bit in PAGE_STICKY. -/
structure Sticky where
  page : Nat
  bit : Nat
  deriving DecidableEq, Repr

namespace Fd
abbrev STATE.CHANGES : Fld := ⟨0x0, 0x20, 0x1, 31, 16⟩
abbrev STATE.LAST : Fld := ⟨0x0, 0x20, 0x1, 11, 8⟩
abbrev STATE.NOW : Fld := ⟨0x0, 0x20, 0x1, 3, 0⟩
abbrev STATE.W : Fld := ⟨0x0, 0x20, 0x1, 31, 0⟩
abbrev STATE_CMD.TARGET : Fld := ⟨0x0, 0x24, 0x1, 3, 0⟩
abbrev STATE_CMD.W : Fld := ⟨0x0, 0x24, 0x1, 31, 0⟩
abbrev PART_INFO.DIES : Fld := ⟨0xFF, 0x20, 0x1, 7, 4⟩
abbrev PART_INFO.ROLE : Fld := ⟨0xFF, 0x20, 0x1, 3, 0⟩
abbrev PART_INFO.W : Fld := ⟨0xFF, 0x20, 0x1, 31, 0⟩
abbrev SUMMARY_SEQ.W : Fld := ⟨0xFF, 0x24, 0x1, 31, 0⟩
abbrev STATE_MIRROR.W : Fld := ⟨0xFF, 0x28, 0x1, 31, 0⟩
abbrev PAGES_STICKY.PAGES : Fld := ⟨0xFF, 0x40, 0x4, 16, 0⟩
abbrev PAGES_STICKY.W : Fld := ⟨0xFF, 0x40, 0x4, 31, 0⟩
abbrev CTX_STICKY.W : Fld := ⟨0xFF, 0x60, 0x4, 31, 0⟩
abbrev FAB_LINKS.ROW_UP : Fld := ⟨0x10, 0x20, 0x1, 2, 2⟩
abbrev FAB_LINKS.PLUS_UP : Fld := ⟨0x10, 0x20, 0x1, 1, 1⟩
abbrev FAB_LINKS.MINUS_UP : Fld := ⟨0x10, 0x20, 0x1, 0, 0⟩
abbrev FAB_LINKS.W : Fld := ⟨0x10, 0x20, 0x1, 31, 0⟩
abbrev FAB_COUNTS.RESENT : Fld := ⟨0x10, 0x24, 0x1, 31, 16⟩
abbrev FAB_COUNTS.REFUSED : Fld := ⟨0x10, 0x24, 0x1, 15, 0⟩
abbrev FAB_COUNTS.W : Fld := ⟨0x10, 0x24, 0x1, 31, 0⟩
abbrev FAB_LAST_REFUSED.NO_ENTRY : Fld := ⟨0x10, 0x28, 0x1, 5, 5⟩
abbrev FAB_LAST_REFUSED.ENTRY : Fld := ⟨0x10, 0x28, 0x1, 4, 0⟩
abbrev FAB_LAST_REFUSED.W : Fld := ⟨0x10, 0x28, 0x1, 31, 0⟩
abbrev RES_ENTRY.VALID : Fld := ⟨0x10, 0x100, 0x4, 31, 31⟩
abbrev RES_ENTRY.DEST : Fld := ⟨0x10, 0x100, 0x4, 26, 24⟩
abbrev RES_ENTRY.SHARE : Fld := ⟨0x10, 0x100, 0x4, 17, 16⟩
abbrev RES_ENTRY.PORT : Fld := ⟨0x10, 0x100, 0x4, 15, 12⟩
abbrev RES_ENTRY.SOURCE : Fld := ⟨0x10, 0x100, 0x4, 11, 0⟩
abbrev RES_ENTRY.W : Fld := ⟨0x10, 0x100, 0x4, 31, 0⟩
abbrev MS_CTRL.ARMED : Fld := ⟨0xF0, 0x0, 0x20, 31, 31⟩
abbrev MS_CTRL.STRICT : Fld := ⟨0xF0, 0x0, 0x20, 30, 30⟩
abbrev MS_CTRL.FORM : Fld := ⟨0xF0, 0x0, 0x20, 29, 29⟩
abbrev MS_CTRL.DOMAIN : Fld := ⟨0xF0, 0x0, 0x20, 27, 24⟩
abbrev MS_CTRL.RECUR : Fld := ⟨0xF0, 0x0, 0x20, 23, 22⟩
abbrev MS_CTRL.ACTION : Fld := ⟨0xF0, 0x0, 0x20, 19, 16⟩
abbrev MS_CTRL.W : Fld := ⟨0xF0, 0x0, 0x20, 31, 0⟩
abbrev MS_RECUR.PERIOD : Fld := ⟨0xF0, 0x4, 0x20, 31, 0⟩
abbrev MS_RECUR.N_M1 : Fld := ⟨0xF0, 0x4, 0x20, 27, 16⟩
abbrev MS_RECUR.K_M1 : Fld := ⟨0xF0, 0x4, 0x20, 7, 0⟩
abbrev MS_RECUR.W : Fld := ⟨0xF0, 0x4, 0x20, 31, 0⟩
abbrev MS_CMP_FRAC.W : Fld := ⟨0xF0, 0x8, 0x20, 31, 0⟩
abbrev MS_CMP_LO.W : Fld := ⟨0xF0, 0xC, 0x20, 31, 0⟩
abbrev MS_CMP_HI.W : Fld := ⟨0xF0, 0x10, 0x20, 31, 0⟩
abbrev MS_TOL.W : Fld := ⟨0xF0, 0x14, 0x20, 31, 0⟩
abbrev MS_ARG.W : Fld := ⟨0xF0, 0x18, 0x20, 31, 0⟩
abbrev MS_LAST.W : Fld := ⟨0xF0, 0x1C, 0x20, 31, 0⟩
abbrev ANG_STATUS.AD_RUN : Fld := ⟨0x2, 0x8, 0x1, 23, 16⟩
abbrev ANG_STATUS.ARMED : Fld := ⟨0x2, 0x8, 0x1, 10, 0⟩
abbrev ANG_STATUS.W : Fld := ⟨0x2, 0x8, 0x1, 31, 0⟩
abbrev SNAP_SEL.DOMAIN : Fld := ⟨0x2, 0x20, 0x1, 3, 0⟩
abbrev SNAP_SEL.W : Fld := ⟨0x2, 0x20, 0x1, 31, 0⟩
abbrev SNAP_T_LO.W : Fld := ⟨0x2, 0x24, 0x1, 31, 0⟩
abbrev SNAP_T_HI.W : Fld := ⟨0x2, 0x28, 0x1, 31, 0⟩
abbrev SNAP_POS_FRAC.W : Fld := ⟨0x2, 0x2C, 0x1, 31, 0⟩
abbrev SNAP_POS_LO.W : Fld := ⟨0x2, 0x30, 0x1, 31, 0⟩
abbrev SNAP_POS_HI.W : Fld := ⟨0x2, 0x34, 0x1, 31, 0⟩
abbrev SNAP_INC_LO.W : Fld := ⟨0x2, 0x38, 0x1, 31, 0⟩
abbrev SNAP_INC_HI.W : Fld := ⟨0x2, 0x3C, 0x1, 31, 0⟩
abbrev MS_SHADOW.W : Fld := ⟨0x2, 0x40, 0x4, 31, 0⟩
abbrev MS_ARM.OP : Fld := ⟨0x2, 0x60, 0x1, 31, 30⟩
abbrev MS_ARM.ENTRY : Fld := ⟨0x2, 0x60, 0x1, 9, 0⟩
abbrev MS_ARM.W : Fld := ⟨0x2, 0x60, 0x1, 31, 0⟩
abbrev MS_INFO.LAST_LATE : Fld := ⟨0x2, 0x64, 0x1, 25, 16⟩
abbrev MS_INFO.LAST_SKIP : Fld := ⟨0x2, 0x64, 0x1, 9, 0⟩
abbrev MS_INFO.W : Fld := ⟨0x2, 0x64, 0x1, 31, 0⟩
abbrev MS_COUNTS.LATE_COUNT : Fld := ⟨0x2, 0x68, 0x1, 31, 16⟩
abbrev MS_COUNTS.SKIP_COUNT : Fld := ⟨0x2, 0x68, 0x1, 15, 0⟩
abbrev MS_COUNTS.W : Fld := ⟨0x2, 0x68, 0x1, 31, 0⟩
abbrev ANG_PINS.PPS_MS : Fld := ⟨0x2, 0x6C, 0x1, 0, 0⟩
abbrev ANG_PINS.W : Fld := ⟨0x2, 0x6C, 0x1, 31, 0⟩
abbrev AD_CFG.SLEW_EXP : Fld := ⟨0x2, 0x100, 0x20, 20, 16⟩
abbrev AD_CFG.TRACK_CH : Fld := ⟨0x2, 0x100, 0x20, 9, 8⟩
abbrev AD_CFG.SRC : Fld := ⟨0x2, 0x100, 0x20, 3, 0⟩
abbrev AD_CFG.W : Fld := ⟨0x2, 0x100, 0x20, 31, 0⟩
abbrev AD_NOM_LO.W : Fld := ⟨0x2, 0x104, 0x20, 31, 0⟩
abbrev AD_NOM_HI.W : Fld := ⟨0x2, 0x108, 0x20, 31, 0⟩
abbrev AD_ANCHOR_LO.W : Fld := ⟨0x2, 0x10C, 0x20, 31, 0⟩
abbrev AD_ANCHOR_HI.W : Fld := ⟨0x2, 0x110, 0x20, 31, 0⟩
abbrev AD_ANCHOR_FRAC.W : Fld := ⟨0x2, 0x114, 0x20, 31, 0⟩
abbrev AD_ANCHOR_CYC.W : Fld := ⟨0x2, 0x118, 0x20, 31, 0⟩
abbrev AD_STATUS.SRC_APPLIED : Fld := ⟨0x2, 0x11C, 0x20, 7, 4⟩
abbrev AD_STATUS.REVERSE : Fld := ⟨0x2, 0x11C, 0x20, 2, 2⟩
abbrev AD_STATUS.COASTING : Fld := ⟨0x2, 0x11C, 0x20, 1, 1⟩
abbrev AD_STATUS.SLEWING : Fld := ⟨0x2, 0x11C, 0x20, 0, 0⟩
abbrev AD_STATUS.W : Fld := ⟨0x2, 0x11C, 0x20, 31, 0⟩
abbrev ATR_STATUS.LOCKED : Fld := ⟨0x3, 0x8, 0x1, 15, 12⟩
abbrev ATR_STATUS.STANDSTILL : Fld := ⟨0x3, 0x8, 0x1, 11, 8⟩
abbrev ATR_STATUS.COASTING : Fld := ⟨0x3, 0x8, 0x1, 7, 4⟩
abbrev ATR_STATUS.LOSS : Fld := ⟨0x3, 0x8, 0x1, 3, 0⟩
abbrev ATR_STATUS.W : Fld := ⟨0x3, 0x8, 0x1, 31, 0⟩
abbrev TRK_CFG.CH_C : Fld := ⟨0x3, 0x100, 0x40, 27, 24⟩
abbrev TRK_CFG.CH_B : Fld := ⟨0x3, 0x100, 0x40, 23, 20⟩
abbrev TRK_CFG.CH_A : Fld := ⟨0x3, 0x100, 0x40, 19, 16⟩
abbrev TRK_CFG.W_M1 : Fld := ⟨0x3, 0x100, 0x40, 13, 8⟩
abbrev TRK_CFG.LOSS_SRC : Fld := ⟨0x3, 0x100, 0x40, 6, 6⟩
abbrev TRK_CFG.INTERP : Fld := ⟨0x3, 0x100, 0x40, 5, 5⟩
abbrev TRK_CFG.LL : Fld := ⟨0x3, 0x100, 0x40, 4, 4⟩
abbrev TRK_CFG.INV : Fld := ⟨0x3, 0x100, 0x40, 3, 3⟩
abbrev TRK_CFG.SRC : Fld := ⟨0x3, 0x100, 0x40, 2, 0⟩
abbrev TRK_CFG.W : Fld := ⟨0x3, 0x100, 0x40, 31, 0⟩
abbrev TRK_PER.UPD_M1 : Fld := ⟨0x3, 0x104, 0x40, 23, 16⟩
abbrev TRK_PER.SP : Fld := ⟨0x3, 0x104, 0x40, 15, 0⟩
abbrev TRK_PER.W : Fld := ⟨0x3, 0x104, 0x40, 31, 0⟩
abbrev TRK_LINES.QF : Fld := ⟨0x3, 0x108, 0x40, 31, 24⟩
abbrev TRK_LINES.L_M1 : Fld := ⟨0x3, 0x108, 0x40, 15, 0⟩
abbrev TRK_LINES.W : Fld := ⟨0x3, 0x108, 0x40, 31, 0⟩
abbrev TRK_AMP.FILT_DELAY : Fld := ⟨0x3, 0x10C, 0x40, 31, 16⟩
abbrev TRK_AMP.AMP_NOM : Fld := ⟨0x3, 0x10C, 0x40, 15, 0⟩
abbrev TRK_AMP.W : Fld := ⟨0x3, 0x10C, 0x40, 31, 0⟩
abbrev TRK_TIME.COAST : Fld := ⟨0x3, 0x110, 0x40, 31, 16⟩
abbrev TRK_TIME.STILL : Fld := ⟨0x3, 0x110, 0x40, 15, 0⟩
abbrev TRK_TIME.W : Fld := ⟨0x3, 0x110, 0x40, 31, 0⟩
abbrev TRK_GRID.NOM_HZ : Fld := ⟨0x3, 0x114, 0x40, 22, 16⟩
abbrev TRK_GRID.BW : Fld := ⟨0x3, 0x114, 0x40, 7, 0⟩
abbrev TRK_GRID.W : Fld := ⟨0x3, 0x114, 0x40, 31, 0⟩
abbrev TRK_CTRL.RESTART : Fld := ⟨0x3, 0x118, 0x40, 0, 0⟩
abbrev TRK_CTRL.W : Fld := ⟨0x3, 0x118, 0x40, 31, 0⟩
abbrev TRK_POS_FRAC.W : Fld := ⟨0x3, 0x120, 0x40, 31, 0⟩
abbrev TRK_POS_CYC.W : Fld := ⟨0x3, 0x124, 0x40, 31, 0⟩
abbrev TRK_SPEED_LO.W : Fld := ⟨0x3, 0x128, 0x40, 31, 0⟩
abbrev TRK_SPEED_HI.W : Fld := ⟨0x3, 0x12C, 0x40, 31, 0⟩
abbrev TRK_STAT.LINE : Fld := ⟨0x3, 0x130, 0x40, 31, 16⟩
abbrev TRK_STAT.K : Fld := ⟨0x3, 0x130, 0x40, 13, 8⟩
abbrev TRK_STAT.REVERSE : Fld := ⟨0x3, 0x130, 0x40, 4, 4⟩
abbrev TRK_STAT.LOSS : Fld := ⟨0x3, 0x130, 0x40, 3, 3⟩
abbrev TRK_STAT.STANDSTILL : Fld := ⟨0x3, 0x130, 0x40, 2, 2⟩
abbrev TRK_STAT.COASTING : Fld := ⟨0x3, 0x130, 0x40, 1, 1⟩
abbrev TRK_STAT.LOCKED : Fld := ⟨0x3, 0x130, 0x40, 0, 0⟩
abbrev TRK_STAT.W : Fld := ⟨0x3, 0x130, 0x40, 31, 0⟩
abbrev TRK_T.W : Fld := ⟨0x3, 0x134, 0x40, 31, 0⟩
abbrev TRK_MAG.ILL_COUNT : Fld := ⟨0x3, 0x138, 0x40, 31, 16⟩
abbrev TRK_MAG.MAG : Fld := ⟨0x3, 0x138, 0x40, 15, 0⟩
abbrev TRK_MAG.W : Fld := ⟨0x3, 0x138, 0x40, 31, 0⟩
abbrev MFE_STATUS.SETTLED : Fld := ⟨0x4, 0x8, 0x1, 31, 16⟩
abbrev MFE_STATUS.ABNORMAL : Fld := ⟨0x4, 0x8, 0x1, 15, 0⟩
abbrev MFE_STATUS.W : Fld := ⟨0x4, 0x8, 0x1, 31, 0⟩
abbrev SDC_CFG.EN : Fld := ⟨0x4, 0x20, 0x4, 31, 31⟩
abbrev SDC_CFG.DIV : Fld := ⟨0x4, 0x20, 0x4, 15, 8⟩
abbrev SDC_CFG.PHASE : Fld := ⟨0x4, 0x20, 0x4, 7, 0⟩
abbrev SDC_CFG.W : Fld := ⟨0x4, 0x20, 0x4, 31, 0⟩
abbrev CH_EN.EN : Fld := ⟨0x4, 0x30, 0x1, 15, 0⟩
abbrev CH_EN.W : Fld := ⟨0x4, 0x30, 0x1, 31, 0⟩
abbrev GRP_MASK.MASK : Fld := ⟨0x4, 0x40, 0x4, 15, 0⟩
abbrev GRP_MASK.W : Fld := ⟨0x4, 0x40, 0x4, 31, 0⟩
abbrev CH_CFG.FROZEN_N : Fld := ⟨0x4, 0x100, 0x20, 31, 24⟩
abbrev CH_CFG.FLT_EN : Fld := ⟨0x4, 0x100, 0x20, 23, 20⟩
abbrev CH_CFG.FQ_M1 : Fld := ⟨0x4, 0x100, 0x20, 18, 16⟩
abbrev CH_CFG.SAMP_DLY : Fld := ⟨0x4, 0x100, 0x20, 12, 8⟩
abbrev CH_CFG.INV : Fld := ⟨0x4, 0x100, 0x20, 6, 6⟩
abbrev CH_CFG.FOSR : Fld := ⟨0x4, 0x100, 0x20, 5, 4⟩
abbrev CH_CFG.OSR : Fld := ⟨0x4, 0x100, 0x20, 3, 2⟩
abbrev CH_CFG.CLK_SEL : Fld := ⟨0x4, 0x100, 0x20, 1, 0⟩
abbrev CH_CFG.W : Fld := ⟨0x4, 0x100, 0x20, 31, 0⟩
abbrev CH_SCALE.GAIN : Fld := ⟨0x4, 0x104, 0x20, 31, 16⟩
abbrev CH_SCALE.OFFSET : Fld := ⟨0x4, 0x104, 0x20, 15, 0⟩
abbrev CH_SCALE.W : Fld := ⟨0x4, 0x104, 0x20, 31, 0⟩
abbrev CH_THR.HI : Fld := ⟨0x4, 0x108, 0x20, 31, 16⟩
abbrev CH_THR.LO : Fld := ⟨0x4, 0x108, 0x20, 15, 0⟩
abbrev CH_THR.W : Fld := ⟨0x4, 0x108, 0x20, 31, 0⟩
abbrev CH_LATCH.VALUE : Fld := ⟨0x4, 0x10C, 0x20, 15, 0⟩
abbrev CH_LATCH.W : Fld := ⟨0x4, 0x10C, 0x20, 31, 0⟩
abbrev CH_LSTAMP.W : Fld := ⟨0x4, 0x110, 0x20, 31, 0⟩
abbrev CH_FAST.VALUE : Fld := ⟨0x4, 0x114, 0x20, 15, 0⟩
abbrev CH_FAST.W : Fld := ⟨0x4, 0x114, 0x20, 31, 0⟩
abbrev CH_STAT.FCOUNT : Fld := ⟨0x4, 0x118, 0x20, 23, 16⟩
abbrev CH_STAT.SETTLED : Fld := ⟨0x4, 0x118, 0x20, 12, 12⟩
abbrev CH_STAT.CAUSE : Fld := ⟨0x4, 0x118, 0x20, 7, 4⟩
abbrev CH_STAT.LIVE : Fld := ⟨0x4, 0x118, 0x20, 3, 0⟩
abbrev CH_STAT.W : Fld := ⟨0x4, 0x118, 0x20, 31, 0⟩
abbrev LE_STATUS.THROTTLED : Fld := ⟨0x5, 0x8, 0x1, 23, 23⟩
abbrev LE_STATUS.WAITING : Fld := ⟨0x5, 0x8, 0x1, 22, 16⟩
abbrev LE_STATUS.ENG_BUSY : Fld := ⟨0x5, 0x8, 0x1, 13, 8⟩
abbrev LE_STATUS.RUNNING : Fld := ⟨0x5, 0x8, 0x1, 6, 0⟩
abbrev LE_STATUS.W : Fld := ⟨0x5, 0x8, 0x1, 31, 0⟩
abbrev ENG_CFG.CRIT_RES : Fld := ⟨0x5, 0x20, 0x1, 23, 0⟩
abbrev ENG_CFG.W : Fld := ⟨0x5, 0x20, 0x1, 31, 0⟩
abbrev SLOT_EN_LO.W : Fld := ⟨0x5, 0x24, 0x1, 31, 0⟩
abbrev SLOT_EN_HI.W : Fld := ⟨0x5, 0x28, 0x1, 31, 0⟩
abbrev LE_INFO.LAST_OVR : Fld := ⟨0x5, 0x2C, 0x1, 13, 8⟩
abbrev LE_INFO.LAST_MISS : Fld := ⟨0x5, 0x2C, 0x1, 5, 0⟩
abbrev LE_INFO.W : Fld := ⟨0x5, 0x2C, 0x1, 31, 0⟩
abbrev LE_MISSED.W : Fld := ⟨0x5, 0x30, 0x1, 31, 0⟩
abbrev SLOT_CTRL.OVR_LIMIT : Fld := ⟨0x5, 0x100, 0x20, 23, 20⟩
abbrev SLOT_CTRL.STRICT : Fld := ⟨0x5, 0x100, 0x20, 19, 19⟩
abbrev SLOT_CTRL.DEFER : Fld := ⟨0x5, 0x100, 0x20, 18, 18⟩
abbrev SLOT_CTRL.COEF_SEL : Fld := ⟨0x5, 0x100, 0x20, 17, 17⟩
abbrev SLOT_CTRL.ENGINE : Fld := ⟨0x5, 0x100, 0x20, 2, 0⟩
abbrev SLOT_CTRL.W : Fld := ⟨0x5, 0x100, 0x20, 31, 0⟩
abbrev SLOT_PROG.PROG_BASE : Fld := ⟨0x5, 0x104, 0x20, 12, 0⟩
abbrev SLOT_PROG.W : Fld := ⟨0x5, 0x104, 0x20, 31, 0⟩
abbrev SLOT_STATE.STATE_BASE : Fld := ⟨0x5, 0x108, 0x20, 14, 0⟩
abbrev SLOT_STATE.W : Fld := ⟨0x5, 0x108, 0x20, 31, 0⟩
abbrev SLOT_COEF.BASE_B : Fld := ⟨0x5, 0x10C, 0x20, 30, 16⟩
abbrev SLOT_COEF.BASE_A : Fld := ⟨0x5, 0x10C, 0x20, 14, 0⟩
abbrev SLOT_COEF.W : Fld := ⟨0x5, 0x10C, 0x20, 31, 0⟩
abbrev SLOT_CASC.CASC_EN : Fld := ⟨0x5, 0x110, 0x20, 31, 31⟩
abbrev SLOT_CASC.INNER : Fld := ⟨0x5, 0x110, 0x20, 21, 16⟩
abbrev SLOT_CASC.D_M1 : Fld := ⟨0x5, 0x110, 0x20, 7, 0⟩
abbrev SLOT_CASC.W : Fld := ⟨0x5, 0x110, 0x20, 31, 0⟩
abbrev SLOT_SPMODE.W : Fld := ⟨0x5, 0x114, 0x20, 31, 0⟩
abbrev SLOT_STAT.CONSEC : Fld := ⟨0x5, 0x118, 0x20, 31, 28⟩
abbrev SLOT_STAT.COND : Fld := ⟨0x5, 0x118, 0x20, 27, 26⟩
abbrev SLOT_STAT.INSTANCE : Fld := ⟨0x5, 0x118, 0x20, 18, 16⟩
abbrev SLOT_STAT.DEFERRED : Fld := ⟨0x5, 0x118, 0x20, 15, 8⟩
abbrev SLOT_STAT.MISSED : Fld := ⟨0x5, 0x118, 0x20, 7, 0⟩
abbrev SLOT_STAT.W : Fld := ⟨0x5, 0x118, 0x20, 31, 0⟩
abbrev SLOT_TIME.MAX_ISSUES : Fld := ⟨0x5, 0x11C, 0x20, 31, 16⟩
abbrev SLOT_TIME.LAST_ISSUES : Fld := ⟨0x5, 0x11C, 0x20, 15, 0⟩
abbrev SLOT_TIME.W : Fld := ⟨0x5, 0x11C, 0x20, 31, 0⟩
abbrev SPS_LO.HIGH : Fld := ⟨0x5, 0x900, 0x8, 31, 16⟩
abbrev SPS_LO.LOW : Fld := ⟨0x5, 0x900, 0x8, 15, 0⟩
abbrev SPS_LO.W : Fld := ⟨0x5, 0x900, 0x8, 31, 0⟩
abbrev SPS_HI.HIGH : Fld := ⟨0x5, 0x904, 0x8, 31, 16⟩
abbrev SPS_HI.LOW : Fld := ⟨0x5, 0x904, 0x8, 15, 0⟩
abbrev SPS_HI.W : Fld := ⟨0x5, 0x904, 0x8, 31, 0⟩
abbrev SPA_LO.HIGH : Fld := ⟨0x5, 0xB00, 0x8, 31, 16⟩
abbrev SPA_LO.LOW : Fld := ⟨0x5, 0xB00, 0x8, 15, 0⟩
abbrev SPA_LO.W : Fld := ⟨0x5, 0xB00, 0x8, 31, 0⟩
abbrev SPA_HI.HIGH : Fld := ⟨0x5, 0xB04, 0x8, 31, 16⟩
abbrev SPA_HI.LOW : Fld := ⟨0x5, 0xB04, 0x8, 15, 0⟩
abbrev SPA_HI.W : Fld := ⟨0x5, 0xB04, 0x8, 31, 0⟩
abbrev EP_STATUS.N_ACT : Fld := ⟨0x6, 0x8, 0x1, 23, 16⟩
abbrev EP_STATUS.OPP_ENTRY : Fld := ⟨0x6, 0x8, 0x1, 9, 4⟩
abbrev EP_STATUS.OPP_VALID : Fld := ⟨0x6, 0x8, 0x1, 3, 3⟩
abbrev EP_STATUS.WAITING : Fld := ⟨0x6, 0x8, 0x1, 2, 2⟩
abbrev EP_STATUS.READY : Fld := ⟨0x6, 0x8, 0x1, 1, 1⟩
abbrev EP_STATUS.BUSY : Fld := ⟨0x6, 0x8, 0x1, 0, 0⟩
abbrev EP_STATUS.W : Fld := ⟨0x6, 0x8, 0x1, 31, 0⟩
abbrev EP_CFG.ROLE : Fld := ⟨0x6, 0x20, 0x1, 31, 30⟩
abbrev EP_CFG.MODE : Fld := ⟨0x6, 0x20, 0x1, 29, 28⟩
abbrev EP_CFG.MISS_FLT : Fld := ⟨0x6, 0x20, 0x1, 27, 27⟩
abbrev EP_CFG.OVF_FLT : Fld := ⟨0x6, 0x20, 0x1, 26, 26⟩
abbrev EP_CFG.DOMAIN : Fld := ⟨0x6, 0x20, 0x1, 18, 16⟩
abbrev EP_CFG.NE_EXP : Fld := ⟨0x6, 0x20, 0x1, 2, 0⟩
abbrev EP_CFG.W : Fld := ⟨0x6, 0x20, 0x1, 31, 0⟩
abbrev EP_GROUP.W : Fld := ⟨0x6, 0x24, 0x1, 31, 0⟩
abbrev EP_PHASE.W : Fld := ⟨0x6, 0x28, 0x1, 31, 0⟩
abbrev EP_WIN.W : Fld := ⟨0x6, 0x2C, 0x1, 31, 0⟩
abbrev EP_TIMING.MIN_DWELL : Fld := ⟨0x6, 0x30, 0x1, 31, 16⟩
abbrev EP_TIMING.LEAD : Fld := ⟨0x6, 0x30, 0x1, 15, 0⟩
abbrev EP_TIMING.W : Fld := ⟨0x6, 0x30, 0x1, 31, 0⟩
abbrev EP_PSC.CPH : Fld := ⟨0x6, 0x34, 0x1, 31, 16⟩
abbrev EP_PSC.NC_M1 : Fld := ⟨0x6, 0x34, 0x1, 9, 0⟩
abbrev EP_PSC.W : Fld := ⟨0x6, 0x34, 0x1, 31, 0⟩
abbrev EP_BAL.BAL_THR : Fld := ⟨0x6, 0x38, 0x1, 15, 0⟩
abbrev EP_BAL.W : Fld := ⟨0x6, 0x38, 0x1, 31, 0⟩
abbrev EP_OPP_BASE.W : Fld := ⟨0x6, 0x3C, 0x1, 31, 0⟩
abbrev EP_OPP_CTRL.HYS : Fld := ⟨0x6, 0x40, 0x1, 31, 16⟩
abbrev EP_OPP_CTRL.J_M1 : Fld := ⟨0x6, 0x40, 0x1, 5, 0⟩
abbrev EP_OPP_CTRL.W : Fld := ⟨0x6, 0x40, 0x1, 31, 0⟩
abbrev EP_TIME.MAX_CYC : Fld := ⟨0x6, 0x44, 0x1, 31, 16⟩
abbrev EP_TIME.LAST_CYC : Fld := ⟨0x6, 0x44, 0x1, 15, 0⟩
abbrev EP_TIME.W : Fld := ⟨0x6, 0x44, 0x1, 31, 0⟩
abbrev EP_COUNT.MISS_COUNT : Fld := ⟨0x6, 0x48, 0x1, 31, 16⟩
abbrev EP_COUNT.PLANS : Fld := ⟨0x6, 0x48, 0x1, 15, 0⟩
abbrev EP_COUNT.W : Fld := ⟨0x6, 0x48, 0x1, 31, 0⟩
abbrev EP_INFO.OVF_CELL : Fld := ⟨0x6, 0x4C, 0x1, 6, 0⟩
abbrev EP_INFO.W : Fld := ⟨0x6, 0x4C, 0x1, 31, 0⟩
abbrev REF_PEND.VALUE : Fld := ⟨0x6, 0x100, 0x4, 15, 0⟩
abbrev REF_PEND.W : Fld := ⟨0x6, 0x100, 0x4, 31, 0⟩
abbrev REF_ACT.VALUE : Fld := ⟨0x6, 0x400, 0x4, 15, 0⟩
abbrev REF_ACT.W : Fld := ⟨0x6, 0x400, 0x4, 31, 0⟩
abbrev CELL_CFG.EDGES : Fld := ⟨0x6, 0x800, 0x4, 31, 28⟩
abbrev CELL_CFG.STATE : Fld := ⟨0x6, 0x800, 0x4, 25, 24⟩
abbrev CELL_CFG.MODE : Fld := ⟨0x6, 0x800, 0x4, 1, 0⟩
abbrev CELL_CFG.W : Fld := ⟨0x6, 0x800, 0x4, 31, 0⟩
abbrev CELL_V.KEY : Fld := ⟨0x6, 0xA00, 0x4, 31, 16⟩
abbrev CELL_V.VC : Fld := ⟨0x6, 0xA00, 0x4, 15, 0⟩
abbrev CELL_V.W : Fld := ⟨0x6, 0xA00, 0x4, 31, 0⟩
abbrev RING_STATUS.TRUSTED : Fld := ⟨0x7, 0x8, 0x1, 23, 23⟩
abbrev RING_STATUS.SILENT : Fld := ⟨0x7, 0x8, 0x1, 22, 22⟩
abbrev RING_STATUS.NODES : Fld := ⟨0x7, 0x8, 0x1, 21, 16⟩
abbrev RING_STATUS.MODE : Fld := ⟨0x7, 0x8, 0x1, 9, 8⟩
abbrev RING_STATUS.B_WHOLE : Fld := ⟨0x7, 0x8, 0x1, 1, 1⟩
abbrev RING_STATUS.A_WHOLE : Fld := ⟨0x7, 0x8, 0x1, 0, 0⟩
abbrev RING_STATUS.W : Fld := ⟨0x7, 0x8, 0x1, 31, 0⟩
abbrev RING_CTRL.ENUM_GO : Fld := ⟨0x7, 0x20, 0x1, 31, 31⟩
abbrev RING_CTRL.MODE : Fld := ⟨0x7, 0x20, 0x1, 1, 0⟩
abbrev RING_CTRL.W : Fld := ⟨0x7, 0x20, 0x1, 31, 0⟩
abbrev RING_CFG.EXPECT : Fld := ⟨0x7, 0x24, 0x1, 5, 0⟩
abbrev RING_CFG.W : Fld := ⟨0x7, 0x24, 0x1, 31, 0⟩
abbrev LINKS_A.W : Fld := ⟨0x7, 0x28, 0x1, 31, 0⟩
abbrev LINKS_B.W : Fld := ⟨0x7, 0x2C, 0x1, 31, 0⟩
abbrev LINKS_X.UP33 : Fld := ⟨0x7, 0x30, 0x1, 1, 0⟩
abbrev LINKS_X.W : Fld := ⟨0x7, 0x30, 0x1, 31, 0⟩
abbrev RING_L.DSEQ : Fld := ⟨0x7, 0x34, 0x1, 23, 16⟩
abbrev RING_L.L : Fld := ⟨0x7, 0x34, 0x1, 15, 0⟩
abbrev RING_L.W : Fld := ⟨0x7, 0x34, 0x1, 31, 0⟩
abbrev RING_COUNTS.A_LOST_COUNT : Fld := ⟨0x7, 0x38, 0x1, 31, 16⟩
abbrev RING_COUNTS.REFUSED : Fld := ⟨0x7, 0x38, 0x1, 15, 0⟩
abbrev RING_COUNTS.W : Fld := ⟨0x7, 0x38, 0x1, 31, 0⟩
abbrev RING_BC.BC_DROPS : Fld := ⟨0x7, 0x3C, 0x1, 15, 0⟩
abbrev RING_BC.W : Fld := ⟨0x7, 0x3C, 0x1, 31, 0⟩
abbrev CAR_INFO.BLOCKS : Fld := ⟨0x7, 0x40, 0x1, 11, 8⟩
abbrev CAR_INFO.CID : Fld := ⟨0x7, 0x40, 0x1, 7, 0⟩
abbrev CAR_INFO.W : Fld := ⟨0x7, 0x40, 0x1, 31, 0⟩
abbrev CAR_ADDR.W : Fld := ⟨0x7, 0x44, 0x1, 31, 0⟩
abbrev CAR_OK.W : Fld := ⟨0x7, 0x48, 0x1, 31, 0⟩
abbrev HCB_CTRL.W : Fld := ⟨0x7, 0x4C, 0x1, 31, 0⟩
abbrev RMT_ADDR.W : Fld := ⟨0x7, 0x50, 0x1, 31, 0⟩
abbrev RMT_DATA.W : Fld := ⟨0x7, 0x54, 0x1, 31, 0⟩
abbrev RMT_CMD.GO : Fld := ⟨0x7, 0x58, 0x1, 31, 31⟩
abbrev RMT_CMD.WRITE : Fld := ⟨0x7, 0x58, 0x1, 16, 16⟩
abbrev RMT_CMD.WS : Fld := ⟨0x7, 0x58, 0x1, 4, 0⟩
abbrev RMT_CMD.W : Fld := ⟨0x7, 0x58, 0x1, 31, 0⟩
abbrev RMT_STAT.STAT : Fld := ⟨0x7, 0x5C, 0x1, 1, 0⟩
abbrev RMT_STAT.W : Fld := ⟨0x7, 0x5C, 0x1, 31, 0⟩
abbrev NODE_TIME.AGREE : Fld := ⟨0x7, 0x60, 0x1, 17, 16⟩
abbrev NODE_TIME.SYNC_ERR : Fld := ⟨0x7, 0x60, 0x1, 15, 0⟩
abbrev NODE_TIME.W : Fld := ⟨0x7, 0x60, 0x1, 31, 0⟩
abbrev NODE_ROUTE.R_B : Fld := ⟨0x7, 0x64, 0x1, 31, 16⟩
abbrev NODE_ROUTE.R_A : Fld := ⟨0x7, 0x64, 0x1, 15, 0⟩
abbrev NODE_ROUTE.W : Fld := ⟨0x7, 0x64, 0x1, 31, 0⟩
abbrev NODE_D.DSEQ : Fld := ⟨0x7, 0x68, 0x1, 31, 24⟩
abbrev NODE_D.D : Fld := ⟨0x7, 0x68, 0x1, 15, 0⟩
abbrev NODE_D.W : Fld := ⟨0x7, 0x68, 0x1, 31, 0⟩
abbrev RRES.VALID : Fld := ⟨0x7, 0x100, 0x4, 31, 31⟩
abbrev RRES.PORT : Fld := ⟨0x7, 0x100, 0x4, 29, 28⟩
abbrev RRES.BLOCKS : Fld := ⟨0x7, 0x100, 0x4, 19, 16⟩
abbrev RRES.SOURCE : Fld := ⟨0x7, 0x100, 0x4, 11, 0⟩
abbrev RRES.W : Fld := ⟨0x7, 0x100, 0x4, 31, 0⟩
abbrev HCB.W : Fld := ⟨0x7, 0x400, 0x4, 31, 0⟩
abbrev BG_SRC.PIN_FLT : Fld := ⟨0x8, 0x60, 0x1, 26, 24⟩
abbrev BG_SRC.W : Fld := ⟨0x8, 0x60, 0x1, 31, 0⟩
abbrev BG_DT01.DT_TICKS_ODD : Fld := ⟨0x8, 0x64, 0x1, 27, 19⟩
abbrev BG_DT01.DT_FINE_ODD : Fld := ⟨0x8, 0x64, 0x1, 18, 16⟩
abbrev BG_DT01.DT_TICKS_EVEN : Fld := ⟨0x8, 0x64, 0x1, 11, 3⟩
abbrev BG_DT01.DT_FINE_EVEN : Fld := ⟨0x8, 0x64, 0x1, 2, 0⟩
abbrev BG_DT01.W : Fld := ⟨0x8, 0x64, 0x1, 31, 0⟩
abbrev BG_DT23.DT_TICKS_ODD : Fld := ⟨0x8, 0x68, 0x1, 27, 19⟩
abbrev BG_DT23.DT_FINE_ODD : Fld := ⟨0x8, 0x68, 0x1, 18, 16⟩
abbrev BG_DT23.DT_TICKS_EVEN : Fld := ⟨0x8, 0x68, 0x1, 11, 3⟩
abbrev BG_DT23.DT_FINE_EVEN : Fld := ⟨0x8, 0x68, 0x1, 2, 0⟩
abbrev BG_DT23.W : Fld := ⟨0x8, 0x68, 0x1, 31, 0⟩
abbrev BG_DT45.DT_TICKS_ODD : Fld := ⟨0x8, 0x6C, 0x1, 27, 19⟩
abbrev BG_DT45.DT_FINE_ODD : Fld := ⟨0x8, 0x6C, 0x1, 18, 16⟩
abbrev BG_DT45.DT_TICKS_EVEN : Fld := ⟨0x8, 0x6C, 0x1, 11, 3⟩
abbrev BG_DT45.DT_FINE_EVEN : Fld := ⟨0x8, 0x6C, 0x1, 2, 0⟩
abbrev BG_DT45.W : Fld := ⟨0x8, 0x6C, 0x1, 31, 0⟩
abbrev BG_CARR.DAB_DOM : Fld := ⟨0x8, 0x70, 0x1, 18, 16⟩
abbrev BG_CARR.LMOD_DOM : Fld := ⟨0x8, 0x70, 0x1, 2, 0⟩
abbrev BG_CARR.W : Fld := ⟨0x8, 0x70, 0x1, 31, 0⟩
abbrev BG_LPH01.LPH_ODD : Fld := ⟨0x8, 0x74, 0x1, 31, 16⟩
abbrev BG_LPH01.LPH_EVEN : Fld := ⟨0x8, 0x74, 0x1, 15, 0⟩
abbrev BG_LPH01.W : Fld := ⟨0x8, 0x74, 0x1, 31, 0⟩
abbrev BG_LPH23.LPH_ODD : Fld := ⟨0x8, 0x78, 0x1, 31, 16⟩
abbrev BG_LPH23.LPH_EVEN : Fld := ⟨0x8, 0x78, 0x1, 15, 0⟩
abbrev BG_LPH23.W : Fld := ⟨0x8, 0x78, 0x1, 31, 0⟩
abbrev BG_LPH45.LPH_ODD : Fld := ⟨0x8, 0x7C, 0x1, 31, 16⟩
abbrev BG_LPH45.LPH_EVEN : Fld := ⟨0x8, 0x7C, 0x1, 15, 0⟩
abbrev BG_LPH45.W : Fld := ⟨0x8, 0x7C, 0x1, 31, 0⟩
abbrev BG_EDGE.EDGE_TOL : Fld := ⟨0x8, 0x80, 0x1, 15, 0⟩
abbrev BG_EDGE.W : Fld := ⟨0x8, 0x80, 0x1, 31, 0⟩
abbrev BG_CMD.TIME_BLOCK : Fld := ⟨0x8, 0x84, 0x1, 26, 26⟩
abbrev BG_CMD.RING_BLOCK : Fld := ⟨0x8, 0x84, 0x1, 25, 25⟩
abbrev BG_CMD.BYPASS : Fld := ⟨0x8, 0x84, 0x1, 24, 24⟩
abbrev BG_CMD.STATE : Fld := ⟨0x8, 0x84, 0x1, 21, 16⟩
abbrev BG_CMD.GL : Fld := ⟨0x8, 0x84, 0x1, 13, 8⟩
abbrev BG_CMD.GH : Fld := ⟨0x8, 0x84, 0x1, 5, 0⟩
abbrev BG_CMD.W : Fld := ⟨0x8, 0x84, 0x1, 31, 0⟩
abbrev BG_MAN.CUR_CID : Fld := ⟨0x8, 0x88, 0x4, 31, 24⟩
abbrev BG_MAN.NEXT_CID : Fld := ⟨0x8, 0x88, 0x4, 23, 16⟩
abbrev BG_MAN.NEXT_VALID : Fld := ⟨0x8, 0x88, 0x4, 1, 1⟩
abbrev BG_MAN.CUR_VALID : Fld := ⟨0x8, 0x88, 0x4, 0, 0⟩
abbrev BG_MAN.W : Fld := ⟨0x8, 0x88, 0x4, 31, 0⟩
abbrev BG_STATUS.SLOW : Fld := ⟨0x8, 0x8, 0x1, 18, 16⟩
abbrev BG_STATUS.LOCKED : Fld := ⟨0x8, 0x8, 0x1, 13, 8⟩
abbrev BG_STATUS.HELD : Fld := ⟨0x8, 0x8, 0x1, 5, 0⟩
abbrev BG_STATUS.W : Fld := ⟨0x8, 0x8, 0x1, 31, 0⟩
abbrev BG_GCFG.GFLT_EN : Fld := ⟨0x8, 0x20, 0x1, 13, 8⟩
abbrev BG_GCFG.ST_FLT : Fld := ⟨0x8, 0x20, 0x1, 2, 2⟩
abbrev BG_GCFG.CONF_FLT : Fld := ⟨0x8, 0x20, 0x1, 1, 1⟩
abbrev BG_GCFG.SCOPE : Fld := ⟨0x8, 0x20, 0x1, 0, 0⟩
abbrev BG_GCFG.W : Fld := ⟨0x8, 0x20, 0x1, 31, 0⟩
abbrev BG_TIMING.MIN_OFF : Fld := ⟨0x8, 0x24, 0x1, 31, 16⟩
abbrev BG_TIMING.SLOW_HOLD : Fld := ⟨0x8, 0x24, 0x1, 15, 0⟩
abbrev BG_TIMING.W : Fld := ⟨0x8, 0x24, 0x1, 31, 0⟩
abbrev BG_LOCKCFG.TRIP_WIN : Fld := ⟨0x8, 0x28, 0x1, 25, 16⟩
abbrev BG_LOCKCFG.TRIP_N : Fld := ⟨0x8, 0x28, 0x1, 3, 0⟩
abbrev BG_LOCKCFG.W : Fld := ⟨0x8, 0x28, 0x1, 31, 0⟩
abbrev BG_UNLOCK.LEGS : Fld := ⟨0x8, 0x2C, 0x1, 5, 0⟩
abbrev BG_UNLOCK.W : Fld := ⟨0x8, 0x2C, 0x1, 31, 0⟩
abbrev BG_LEG.OVR_THR : Fld := ⟨0x8, 0x30, 0x4, 31, 24⟩
abbrev BG_LEG.THR : Fld := ⟨0x8, 0x30, 0x4, 23, 16⟩
abbrev BG_LEG.CLASS : Fld := ⟨0x8, 0x30, 0x4, 15, 14⟩
abbrev BG_LEG.BLANK : Fld := ⟨0x8, 0x30, 0x4, 8, 0⟩
abbrev BG_LEG.W : Fld := ⟨0x8, 0x30, 0x4, 31, 0⟩
abbrev BG_TRIP.TRIPPED : Fld := ⟨0x8, 0x48, 0x1, 13, 8⟩
abbrev BG_TRIP.FIRST_CAUSE : Fld := ⟨0x8, 0x48, 0x1, 6, 4⟩
abbrev BG_TRIP.FIRST_LEG : Fld := ⟨0x8, 0x48, 0x1, 2, 0⟩
abbrev BG_TRIP.W : Fld := ⟨0x8, 0x48, 0x1, 31, 0⟩
abbrev BG_TRIP_T.W : Fld := ⟨0x8, 0x4C, 0x1, 31, 0⟩
abbrev BG_COUNTS.TRIPS : Fld := ⟨0x8, 0x50, 0x1, 31, 16⟩
abbrev BG_COUNTS.CONFLICTS : Fld := ⟨0x8, 0x50, 0x1, 15, 0⟩
abbrev BG_COUNTS.W : Fld := ⟨0x8, 0x50, 0x1, 31, 0⟩
abbrev BG_SENSE.GFLT : Fld := ⟨0x8, 0x54, 0x1, 21, 16⟩
abbrev BG_SENSE.OVR : Fld := ⟨0x8, 0x54, 0x1, 13, 8⟩
abbrev BG_SENSE.NORM : Fld := ⟨0x8, 0x54, 0x1, 5, 0⟩
abbrev BG_SENSE.W : Fld := ⟨0x8, 0x54, 0x1, 31, 0⟩
abbrev CLK_STATUS.REF : Fld := ⟨0x1, 0x8, 0x1, 19, 18⟩
abbrev CLK_STATUS.REF1_OK : Fld := ⟨0x1, 0x8, 0x1, 17, 17⟩
abbrev CLK_STATUS.REF0_OK : Fld := ⟨0x1, 0x8, 0x1, 16, 16⟩
abbrev CLK_STATUS.GUARD_OK : Fld := ⟨0x1, 0x8, 0x1, 8, 8⟩
abbrev CLK_STATUS.DLL_LOCK : Fld := ⟨0x1, 0x8, 0x1, 7, 7⟩
abbrev CLK_STATUS.FPLL_HOLD : Fld := ⟨0x1, 0x8, 0x1, 6, 6⟩
abbrev CLK_STATUS.FPLL_LOCK : Fld := ⟨0x1, 0x8, 0x1, 5, 5⟩
abbrev CLK_STATUS.SPREADING : Fld := ⟨0x1, 0x8, 0x1, 4, 4⟩
abbrev CLK_STATUS.TPLL_HOLD : Fld := ⟨0x1, 0x8, 0x1, 2, 2⟩
abbrev CLK_STATUS.TPLL_LOCK : Fld := ⟨0x1, 0x8, 0x1, 1, 1⟩
abbrev CLK_STATUS.UPD_PEND : Fld := ⟨0x1, 0x8, 0x1, 0, 0⟩
abbrev CLK_STATUS.W : Fld := ⟨0x1, 0x8, 0x1, 31, 0⟩
abbrev CLK_CTRL.UPDATE : Fld := ⟨0x1, 0x20, 0x1, 31, 31⟩
abbrev CLK_CTRL.REF_RETURN : Fld := ⟨0x1, 0x20, 0x1, 30, 30⟩
abbrev CLK_CTRL.CLK_OUT_SEL : Fld := ⟨0x1, 0x20, 0x1, 2, 0⟩
abbrev CLK_CTRL.W : Fld := ⟨0x1, 0x20, 0x1, 31, 0⟩
abbrev TPLL_SH.CP : Fld := ⟨0x1, 0x24, 0x1, 28, 25⟩
abbrev TPLL_SH.N : Fld := ⟨0x1, 0x24, 0x1, 24, 16⟩
abbrev TPLL_SH.R_M1 : Fld := ⟨0x1, 0x24, 0x1, 2, 0⟩
abbrev TPLL_SH.W : Fld := ⟨0x1, 0x24, 0x1, 31, 0⟩
abbrev FPLL_SH.DITHER_EN : Fld := ⟨0x1, 0x28, 0x1, 31, 31⟩
abbrev FPLL_SH.CP : Fld := ⟨0x1, 0x28, 0x1, 28, 25⟩
abbrev FPLL_SH.N : Fld := ⟨0x1, 0x28, 0x1, 24, 16⟩
abbrev FPLL_SH.R_M1 : Fld := ⟨0x1, 0x28, 0x1, 2, 0⟩
abbrev FPLL_SH.W : Fld := ⟨0x1, 0x28, 0x1, 31, 0⟩
abbrev FPLL_OUT_SH.DIV_REG : Fld := ⟨0x1, 0x2C, 0x1, 15, 8⟩
abbrev FPLL_OUT_SH.DIV_DRAM : Fld := ⟨0x1, 0x2C, 0x1, 7, 0⟩
abbrev FPLL_OUT_SH.W : Fld := ⟨0x1, 0x2C, 0x1, 31, 0⟩
abbrev SPREAD_SH.EN : Fld := ⟨0x1, 0x30, 0x1, 31, 31⟩
abbrev SPREAD_SH.FMOD : Fld := ⟨0x1, 0x30, 0x1, 9, 8⟩
abbrev SPREAD_SH.DEPTH : Fld := ⟨0x1, 0x30, 0x1, 4, 0⟩
abbrev SPREAD_SH.W : Fld := ⟨0x1, 0x30, 0x1, 31, 0⟩
abbrev DITHER_SEED_SH.W : Fld := ⟨0x1, 0x34, 0x1, 31, 0⟩
abbrev REF_CFG.HOLD_US : Fld := ⟨0x1, 0x38, 0x1, 22, 16⟩
abbrev REF_CFG.MARGIN : Fld := ⟨0x1, 0x38, 0x1, 7, 0⟩
abbrev REF_CFG.W : Fld := ⟨0x1, 0x38, 0x1, 31, 0⟩
abbrev LOSS_REC.VALID : Fld := ⟨0x1, 0x3C, 0x1, 31, 31⟩
abbrev LOSS_REC.SOURCE : Fld := ⟨0x1, 0x3C, 0x1, 3, 0⟩
abbrev LOSS_REC.W : Fld := ⟨0x1, 0x3C, 0x1, 31, 0⟩
abbrev LOSS_T_LO.W : Fld := ⟨0x1, 0x40, 0x1, 31, 0⟩
abbrev LOSS_T_HI.W : Fld := ⟨0x1, 0x44, 0x1, 31, 0⟩
abbrev VTUNE.FPLL_VT : Fld := ⟨0x1, 0x48, 0x1, 15, 8⟩
abbrev VTUNE.TPLL_VT : Fld := ⟨0x1, 0x48, 0x1, 7, 0⟩
abbrev VTUNE.W : Fld := ⟨0x1, 0x48, 0x1, 31, 0⟩
abbrev BAND_USE.FPLL_CAP : Fld := ⟨0x1, 0x4C, 0x1, 13, 8⟩
abbrev BAND_USE.TPLL_CAP : Fld := ⟨0x1, 0x4C, 0x1, 5, 0⟩
abbrev BAND_USE.W : Fld := ⟨0x1, 0x4C, 0x1, 31, 0⟩
abbrev GUARD_FREQ.KHZ : Fld := ⟨0x1, 0x50, 0x1, 15, 0⟩
abbrev GUARD_FREQ.W : Fld := ⟨0x1, 0x50, 0x1, 31, 0⟩
abbrev TPLL_BAND.VALID : Fld := ⟨0x1, 0x100, 0x4, 31, 31⟩
abbrev TPLL_BAND.CAP : Fld := ⟨0x1, 0x100, 0x4, 29, 24⟩
abbrev TPLL_BAND.FHI : Fld := ⟨0x1, 0x100, 0x4, 23, 12⟩
abbrev TPLL_BAND.FLO : Fld := ⟨0x1, 0x100, 0x4, 11, 0⟩
abbrev TPLL_BAND.W : Fld := ⟨0x1, 0x100, 0x4, 31, 0⟩
abbrev FPLL_BAND.VALID : Fld := ⟨0x1, 0x180, 0x4, 31, 31⟩
abbrev FPLL_BAND.CAP : Fld := ⟨0x1, 0x180, 0x4, 29, 24⟩
abbrev FPLL_BAND.FHI : Fld := ⟨0x1, 0x180, 0x4, 23, 12⟩
abbrev FPLL_BAND.FLO : Fld := ⟨0x1, 0x180, 0x4, 11, 0⟩
abbrev FPLL_BAND.W : Fld := ⟨0x1, 0x180, 0x4, 31, 0⟩
abbrev NET_STATUS.PTP_STATE : Fld := ⟨0x9, 0x8, 0x1, 15, 12⟩
abbrev NET_STATUS.HOLD : Fld := ⟨0x9, 0x8, 0x1, 6, 4⟩
abbrev NET_STATUS.DISC_ON : Fld := ⟨0x9, 0x8, 0x1, 3, 3⟩
abbrev NET_STATUS.MDIO_BUSY : Fld := ⟨0x9, 0x8, 0x1, 2, 2⟩
abbrev NET_STATUS.PCS_SYNC : Fld := ⟨0x9, 0x8, 0x1, 1, 1⟩
abbrev NET_STATUS.LINK_UP : Fld := ⟨0x9, 0x8, 0x1, 0, 0⟩
abbrev NET_STATUS.W : Fld := ⟨0x9, 0x8, 0x1, 31, 0⟩
abbrev NET_CFG.MODE : Fld := ⟨0x9, 0x20, 0x1, 5, 4⟩
abbrev NET_CFG.AN : Fld := ⟨0x9, 0x20, 0x1, 2, 2⟩
abbrev NET_CFG.IF : Fld := ⟨0x9, 0x20, 0x1, 1, 0⟩
abbrev NET_CFG.W : Fld := ⟨0x9, 0x20, 0x1, 31, 0⟩
abbrev PHY_LAT.PHY_TX : Fld := ⟨0x9, 0x24, 0x1, 31, 16⟩
abbrev PHY_LAT.PHY_RX : Fld := ⟨0x9, 0x24, 0x1, 15, 0⟩
abbrev PHY_LAT.W : Fld := ⟨0x9, 0x24, 0x1, 31, 0⟩
abbrev ETYPES.SAF_ETYPE : Fld := ⟨0x9, 0x28, 0x1, 31, 16⟩
abbrev ETYPES.MGMT_ETYPE : Fld := ⟨0x9, 0x28, 0x1, 15, 0⟩
abbrev ETYPES.W : Fld := ⟨0x9, 0x28, 0x1, 31, 0⟩
abbrev UDP_PORTS.SAF_UDP : Fld := ⟨0x9, 0x2C, 0x1, 31, 16⟩
abbrev UDP_PORTS.MGMT_UDP : Fld := ⟨0x9, 0x2C, 0x1, 15, 0⟩
abbrev UDP_PORTS.W : Fld := ⟨0x9, 0x2C, 0x1, 31, 0⟩
abbrev MAC_HI.MAC : Fld := ⟨0x9, 0x30, 0x1, 15, 0⟩
abbrev MAC_HI.W : Fld := ⟨0x9, 0x30, 0x1, 31, 0⟩
abbrev MAC_LO.W : Fld := ⟨0x9, 0x34, 0x1, 31, 0⟩
abbrev IP_ADDR.W : Fld := ⟨0x9, 0x38, 0x1, 31, 0⟩
abbrev PORT_COUNTS.RX_OTHER : Fld := ⟨0x9, 0x3C, 0x1, 31, 16⟩
abbrev PORT_COUNTS.DUP_DROP : Fld := ⟨0x9, 0x3C, 0x1, 15, 0⟩
abbrev PORT_COUNTS.W : Fld := ⟨0x9, 0x3C, 0x1, 31, 0⟩
abbrev MDIO_CMD.GO : Fld := ⟨0x9, 0x40, 0x1, 31, 31⟩
abbrev MDIO_CMD.WRITE : Fld := ⟨0x9, 0x40, 0x1, 30, 30⟩
abbrev MDIO_CMD.PHYAD : Fld := ⟨0x9, 0x40, 0x1, 25, 21⟩
abbrev MDIO_CMD.REGAD : Fld := ⟨0x9, 0x40, 0x1, 20, 16⟩
abbrev MDIO_CMD.DATA : Fld := ⟨0x9, 0x40, 0x1, 15, 0⟩
abbrev MDIO_CMD.W : Fld := ⟨0x9, 0x40, 0x1, 31, 0⟩
abbrev MDIO_DATA.DATA : Fld := ⟨0x9, 0x44, 0x1, 15, 0⟩
abbrev MDIO_DATA.W : Fld := ⟨0x9, 0x44, 0x1, 31, 0⟩
abbrev TX_TAG.EN : Fld := ⟨0x9, 0x48, 0x1, 16, 16⟩
abbrev TX_TAG.PCP : Fld := ⟨0x9, 0x48, 0x1, 15, 13⟩
abbrev TX_TAG.VID : Fld := ⟨0x9, 0x48, 0x1, 11, 0⟩
abbrev TX_TAG.W : Fld := ⟨0x9, 0x48, 0x1, 31, 0⟩
abbrev RED_CFG.LIFE_MS : Fld := ⟨0x9, 0x4C, 0x1, 15, 0⟩
abbrev RED_CFG.W : Fld := ⟨0x9, 0x4C, 0x1, 31, 0⟩
abbrev PTP_CFG.DOMAIN : Fld := ⟨0x9, 0x60, 0x1, 31, 24⟩
abbrev PTP_CFG.CLASS : Fld := ⟨0x9, 0x60, 0x1, 23, 16⟩
abbrev PTP_CFG.PRIO1 : Fld := ⟨0x9, 0x60, 0x1, 15, 8⟩
abbrev PTP_CFG.PORTS : Fld := ⟨0x9, 0x60, 0x1, 7, 6⟩
abbrev PTP_CFG.P2P : Fld := ⟨0x9, 0x60, 0x1, 5, 5⟩
abbrev PTP_CFG.ONE_STEP : Fld := ⟨0x9, 0x60, 0x1, 4, 4⟩
abbrev PTP_CFG.SLAVE_ONLY : Fld := ⟨0x9, 0x60, 0x1, 3, 3⟩
abbrev PTP_CFG.W : Fld := ⟨0x9, 0x60, 0x1, 31, 0⟩
abbrev PTP_INT.PRIO2 : Fld := ⟨0x9, 0x64, 0x1, 31, 24⟩
abbrev PTP_INT.TIMEOUT : Fld := ⟨0x9, 0x64, 0x1, 19, 16⟩
abbrev PTP_INT.LOG_PDELAY : Fld := ⟨0x9, 0x64, 0x1, 11, 8⟩
abbrev PTP_INT.LOG_ANN : Fld := ⟨0x9, 0x64, 0x1, 7, 4⟩
abbrev PTP_INT.LOG_SYNC : Fld := ⟨0x9, 0x64, 0x1, 3, 0⟩
abbrev PTP_INT.W : Fld := ⟨0x9, 0x64, 0x1, 31, 0⟩
abbrev SERVO.KP : Fld := ⟨0x9, 0x68, 0x1, 31, 16⟩
abbrev SERVO.KI : Fld := ⟨0x9, 0x68, 0x1, 15, 0⟩
abbrev SERVO.W : Fld := ⟨0x9, 0x68, 0x1, 31, 0⟩
abbrev SERVO2.LOSS_FLT : Fld := ⟨0x9, 0x6C, 0x1, 31, 31⟩
abbrev SERVO2.SYNC_TO : Fld := ⟨0x9, 0x6C, 0x1, 23, 16⟩
abbrev SERVO2.STEP_THR : Fld := ⟨0x9, 0x6C, 0x1, 15, 0⟩
abbrev SERVO2.W : Fld := ⟨0x9, 0x6C, 0x1, 31, 0⟩
abbrev PTP_STAT.STEPS : Fld := ⟨0x9, 0x70, 0x1, 15, 8⟩
abbrev PTP_STAT.STATE_B : Fld := ⟨0x9, 0x70, 0x1, 7, 4⟩
abbrev PTP_STAT.STATE_A : Fld := ⟨0x9, 0x70, 0x1, 3, 0⟩
abbrev PTP_STAT.W : Fld := ⟨0x9, 0x70, 0x1, 31, 0⟩
abbrev GM_ID_HI.W : Fld := ⟨0x9, 0x74, 0x1, 31, 0⟩
abbrev GM_ID_LO.W : Fld := ⟨0x9, 0x78, 0x1, 31, 0⟩
abbrev UTC.OFFSET : Fld := ⟨0x9, 0x7C, 0x1, 15, 0⟩
abbrev UTC.W : Fld := ⟨0x9, 0x7C, 0x1, 31, 0⟩
abbrev OFM.W : Fld := ⟨0x9, 0x80, 0x1, 31, 0⟩
abbrev MPD.W : Fld := ⟨0x9, 0x84, 0x1, 31, 0⟩
abbrev DISC.SRC : Fld := ⟨0x9, 0x88, 0x1, 1, 0⟩
abbrev DISC.W : Fld := ⟨0x9, 0x88, 0x1, 31, 0⟩
abbrev ADJ.W : Fld := ⟨0x9, 0x8C, 0x1, 31, 0⟩
abbrev PPS_CFG.PPS_FLT : Fld := ⟨0x9, 0x90, 0x1, 31, 24⟩
abbrev PPS_CFG.WIDTH : Fld := ⟨0x9, 0x90, 0x1, 15, 8⟩
abbrev PPS_CFG.OUT_SEL : Fld := ⟨0x9, 0x90, 0x1, 1, 0⟩
abbrev PPS_CFG.W : Fld := ⟨0x9, 0x90, 0x1, 31, 0⟩
abbrev PPS_IN_T.W : Fld := ⟨0x9, 0x94, 0x1, 31, 0⟩
abbrev PPS_IN_NS.W : Fld := ⟨0x9, 0x98, 0x1, 31, 0⟩
abbrev TD_CTRL.STEP : Fld := ⟨0x9, 0x100, 0x20, 31, 31⟩
abbrev TD_CTRL.REL : Fld := ⟨0x9, 0x100, 0x20, 30, 30⟩
abbrev TD_CTRL.SRC : Fld := ⟨0x9, 0x100, 0x20, 1, 0⟩
abbrev TD_CTRL.W : Fld := ⟨0x9, 0x100, 0x20, 31, 0⟩
abbrev TD_SET_SEC_LO.W : Fld := ⟨0x9, 0x104, 0x20, 31, 0⟩
abbrev TD_SET_SEC_HI.W : Fld := ⟨0x9, 0x108, 0x20, 31, 0⟩
abbrev TD_SET_NS.W : Fld := ⟨0x9, 0x10C, 0x20, 31, 0⟩
abbrev TD_TRIM.W : Fld := ⟨0x9, 0x110, 0x20, 31, 0⟩
abbrev SAF_STATUS.LOCKOUT : Fld := ⟨0xA, 0x8, 0x1, 31, 31⟩
abbrev SAF_STATUS.SIG_EQUAL : Fld := ⟨0xA, 0x8, 0x1, 30, 30⟩
abbrev SAF_STATUS.OUT_ON : Fld := ⟨0xA, 0x8, 0x1, 23, 16⟩
abbrev SAF_STATUS.CLEAR : Fld := ⟨0xA, 0x8, 0x1, 15, 0⟩
abbrev SAF_STATUS.W : Fld := ⟨0xA, 0x8, 0x1, 31, 0⟩
abbrev SAF_TRIPFN.TRIP_FN : Fld := ⟨0xA, 0x20, 0x1, 15, 0⟩
abbrev SAF_TRIPFN.W : Fld := ⟨0xA, 0x20, 0x1, 31, 0⟩
abbrev SAF_TEST.TP_PER : Fld := ⟨0xA, 0x24, 0x1, 31, 22⟩
abbrev SAF_TEST.TP_W : Fld := ⟨0xA, 0x24, 0x1, 21, 18⟩
abbrev SAF_TEST.TP_EN : Fld := ⟨0xA, 0x24, 0x1, 17, 14⟩
abbrev SAF_TEST.OT_W : Fld := ⟨0xA, 0x24, 0x1, 3, 0⟩
abbrev SAF_TEST.W : Fld := ⟨0xA, 0x24, 0x1, 31, 0⟩
abbrev SAF_SIG.W : Fld := ⟨0xA, 0x28, 0x1, 31, 0⟩
abbrev SAF_PEER_SIG.W : Fld := ⟨0xA, 0x2C, 0x1, 31, 0⟩
abbrev SAF_INFO.LO_CAUSE : Fld := ⟨0xA, 0x30, 0x1, 27, 24⟩
abbrev SAF_INFO.LO_WHERE : Fld := ⟨0xA, 0x30, 0x1, 20, 16⟩
abbrev SAF_INFO.W : Fld := ⟨0xA, 0x30, 0x1, 31, 0⟩
abbrev SAF_CYCLE.W : Fld := ⟨0xA, 0x34, 0x1, 31, 0⟩
abbrev SAF_RAW.RB : Fld := ⟨0xA, 0x38, 0x1, 31, 24⟩
abbrev SAF_RAW.FB : Fld := ⟨0xA, 0x38, 0x1, 23, 16⟩
abbrev SAF_RAW.SI : Fld := ⟨0xA, 0x38, 0x1, 15, 0⟩
abbrev SAF_RAW.W : Fld := ⟨0xA, 0x38, 0x1, 31, 0⟩
abbrev SAF_ACC.FB : Fld := ⟨0xA, 0x3C, 0x1, 23, 16⟩
abbrev SAF_ACC.SI : Fld := ⟨0xA, 0x3C, 0x1, 15, 0⟩
abbrev SAF_ACC.W : Fld := ⟨0xA, 0x3C, 0x1, 31, 0⟩
abbrev SAF_PEER.PEER_OK : Fld := ⟨0xA, 0x40, 0x1, 31, 31⟩
abbrev SAF_PEER.PEER_LO : Fld := ⟨0xA, 0x40, 0x1, 30, 30⟩
abbrev SAF_PEER.OUT_ON : Fld := ⟨0xA, 0x40, 0x1, 23, 16⟩
abbrev SAF_PEER.CLEAR : Fld := ⟨0xA, 0x40, 0x1, 15, 0⟩
abbrev SAF_PEER.W : Fld := ⟨0xA, 0x40, 0x1, 31, 0⟩
abbrev SAF_OUT_REQ.REQ : Fld := ⟨0xA, 0x44, 0x1, 7, 0⟩
abbrev SAF_OUT_REQ.W : Fld := ⟨0xA, 0x44, 0x1, 31, 0⟩
abbrev SAF_FNSTATE.W : Fld := ⟨0xA, 0x48, 0x1, 31, 0⟩
abbrev IN_CFG.FILT_N : Fld := ⟨0xA, 0x100, 0x4, 24, 16⟩
abbrev IN_CFG.TSRC : Fld := ⟨0xA, 0x100, 0x4, 10, 8⟩
abbrev IN_CFG.GF : Fld := ⟨0xA, 0x100, 0x4, 7, 0⟩
abbrev IN_CFG.W : Fld := ⟨0xA, 0x100, 0x4, 31, 0⟩
abbrev FB_CFG.FB_EN : Fld := ⟨0xA, 0x140, 0x4, 31, 31⟩
abbrev FB_CFG.FILT_N : Fld := ⟨0xA, 0x140, 0x4, 24, 16⟩
abbrev FB_CFG.EDM_MS : Fld := ⟨0xA, 0x140, 0x4, 8, 0⟩
abbrev FB_CFG.W : Fld := ⟨0xA, 0x140, 0x4, 31, 0⟩
abbrev FN_CFG.MODE : Fld := ⟨0xA, 0x180, 0x8, 31, 28⟩
abbrev FN_CFG.PAIR : Fld := ⟨0xA, 0x180, 0x8, 27, 27⟩
abbrev FN_CFG.RESTART : Fld := ⟨0xA, 0x180, 0x8, 26, 26⟩
abbrev FN_CFG.RST_FN : Fld := ⟨0xA, 0x180, 0x8, 19, 16⟩
abbrev FN_CFG.IN3 : Fld := ⟨0xA, 0x180, 0x8, 15, 12⟩
abbrev FN_CFG.IN2 : Fld := ⟨0xA, 0x180, 0x8, 11, 8⟩
abbrev FN_CFG.IN1 : Fld := ⟨0xA, 0x180, 0x8, 7, 4⟩
abbrev FN_CFG.IN0 : Fld := ⟨0xA, 0x180, 0x8, 3, 0⟩
abbrev FN_CFG.W : Fld := ⟨0xA, 0x180, 0x8, 31, 0⟩
abbrev FN_TIME.CONN : Fld := ⟨0xA, 0x184, 0x8, 28, 24⟩
abbrev FN_TIME.BIT : Fld := ⟨0xA, 0x184, 0x8, 23, 16⟩
abbrev FN_TIME.DISC_N : Fld := ⟨0xA, 0x184, 0x8, 15, 0⟩
abbrev FN_TIME.W : Fld := ⟨0xA, 0x184, 0x8, 31, 0⟩
abbrev OUT_MAP.EN : Fld := ⟨0xA, 0x200, 0x4, 31, 31⟩
abbrev OUT_MAP.TEST_EN : Fld := ⟨0xA, 0x200, 0x4, 30, 30⟩
abbrev OUT_MAP.RB_SRC : Fld := ⟨0xA, 0x200, 0x4, 29, 29⟩
abbrev OUT_MAP.RB_IN_A : Fld := ⟨0xA, 0x200, 0x4, 27, 24⟩
abbrev OUT_MAP.RB_IN_B : Fld := ⟨0xA, 0x200, 0x4, 23, 20⟩
abbrev OUT_MAP.FN_MASK : Fld := ⟨0xA, 0x200, 0x4, 15, 0⟩
abbrev OUT_MAP.W : Fld := ⟨0xA, 0x200, 0x4, 31, 0⟩
abbrev SAF_LORST.CMD_EN : Fld := ⟨0xA, 0xC0, 0x1, 31, 31⟩
abbrev SAF_LORST.LO_RST_FN : Fld := ⟨0xA, 0xC0, 0x1, 3, 0⟩
abbrev SAF_LORST.W : Fld := ⟨0xA, 0xC0, 0x1, 31, 0⟩
abbrev SAF_RST_CMD.CODE : Fld := ⟨0xA, 0xC4, 0x1, 15, 0⟩
abbrev SAF_RST_CMD.W : Fld := ⟨0xA, 0xC4, 0x1, 31, 0⟩
abbrev SAF_CONN_EN.W : Fld := ⟨0xA, 0xC8, 0x1, 31, 0⟩
abbrev CONN_CFG.DIR : Fld := ⟨0xA, 0x800, 0x20, 31, 31⟩
abbrev CONN_CFG.FRAME : Fld := ⟨0xA, 0x800, 0x20, 30, 30⟩
abbrev CONN_CFG.PORT : Fld := ⟨0xA, 0x800, 0x20, 29, 29⟩
abbrev CONN_CFG.DEG_MODE : Fld := ⟨0xA, 0x800, 0x20, 28, 28⟩
abbrev CONN_CFG.DEG_T : Fld := ⟨0xA, 0x800, 0x20, 23, 16⟩
abbrev CONN_CFG.TEXP : Fld := ⟨0xA, 0x800, 0x20, 15, 0⟩
abbrev CONN_CFG.W : Fld := ⟨0xA, 0x800, 0x20, 31, 0⟩
abbrev CONN_ID.W : Fld := ⟨0xA, 0x804, 0x20, 31, 0⟩
abbrev CONN_PER.W : Fld := ⟨0xA, 0x808, 0x20, 31, 0⟩
abbrev CONN_MAC_HI.W : Fld := ⟨0xA, 0x80C, 0x20, 31, 0⟩
abbrev CONN_MAC_LO.W : Fld := ⟨0xA, 0x810, 0x20, 31, 0⟩
abbrev CONN_IP.W : Fld := ⟨0xA, 0x814, 0x20, 31, 0⟩
abbrev CONN_STAT.W : Fld := ⟨0xA, 0xC00, 0x10, 31, 0⟩
abbrev CONN_SEQ.W : Fld := ⟨0xA, 0xC04, 0x10, 31, 0⟩
abbrev CONN_COUNT.W : Fld := ⟨0xA, 0xC08, 0x10, 31, 0⟩
abbrev FLT_STATUS.LATCHED : Fld := ⟨0xB, 0x8, 0x1, 31, 31⟩
abbrev FLT_STATUS.OVERFLOW : Fld := ⟨0xB, 0x8, 0x1, 30, 30⟩
abbrev FLT_STATUS.NO_CLEAR : Fld := ⟨0xB, 0x8, 0x1, 29, 29⟩
abbrev FLT_STATUS.LOCAL : Fld := ⟨0xB, 0x8, 0x1, 28, 28⟩
abbrev FLT_STATUS.ACTIVE : Fld := ⟨0xB, 0x8, 0x1, 16, 0⟩
abbrev FLT_STATUS.W : Fld := ⟨0xB, 0x8, 0x1, 31, 0⟩
abbrev FF_CTRL.CLEAR : Fld := ⟨0xB, 0x20, 0x1, 0, 0⟩
abbrev FF_CTRL.W : Fld := ⟨0xB, 0x20, 0x1, 31, 0⟩
abbrev FF_REACT.CAPTURE : Fld := ⟨0xB, 0x24, 0x1, 19, 16⟩
abbrev FF_REACT.REC_TRIG : Fld := ⟨0xB, 0x24, 0x1, 2, 2⟩
abbrev FF_REACT.PERMIT : Fld := ⟨0xB, 0x24, 0x1, 1, 1⟩
abbrev FF_REACT.BLOCK : Fld := ⟨0xB, 0x24, 0x1, 0, 0⟩
abbrev FF_REACT.W : Fld := ⟨0xB, 0x24, 0x1, 31, 0⟩
abbrev FF_SRC.VALID : Fld := ⟨0xB, 0x28, 0x1, 31, 31⟩
abbrev FF_SRC.WS : Fld := ⟨0xB, 0x28, 0x1, 21, 16⟩
abbrev FF_SRC.CODE : Fld := ⟨0xB, 0x28, 0x1, 11, 0⟩
abbrev FF_SRC.W : Fld := ⟨0xB, 0x28, 0x1, 31, 0⟩
abbrev LOC_SRC.VALID : Fld := ⟨0xB, 0x34, 0x1, 31, 31⟩
abbrev LOC_SRC.WS : Fld := ⟨0xB, 0x34, 0x1, 21, 16⟩
abbrev LOC_SRC.CODE : Fld := ⟨0xB, 0x34, 0x1, 11, 0⟩
abbrev LOC_SRC.W : Fld := ⟨0xB, 0x34, 0x1, 31, 0⟩
abbrev FF_T_LO.W : Fld := ⟨0xB, 0x2C, 0x1, 31, 0⟩
abbrev FF_T_HI.W : Fld := ⟨0xB, 0x30, 0x1, 31, 0⟩
abbrev LOC_T_LO.W : Fld := ⟨0xB, 0x38, 0x1, 31, 0⟩
abbrev LOC_T_HI.W : Fld := ⟨0xB, 0x3C, 0x1, 31, 0⟩
abbrev FF_COUNT.LATCHES : Fld := ⟨0xB, 0x40, 0x1, 31, 16⟩
abbrev FF_COUNT.OVF_COUNT : Fld := ⟨0xB, 0x40, 0x1, 15, 0⟩
abbrev FF_COUNT.W : Fld := ⟨0xB, 0x40, 0x1, 31, 0⟩
abbrev HEAD_FF.VALID : Fld := ⟨0xB, 0x44, 0x1, 31, 31⟩
abbrev HEAD_FF.CODE : Fld := ⟨0xB, 0x44, 0x1, 11, 0⟩
abbrev HEAD_FF.W : Fld := ⟨0xB, 0x44, 0x1, 31, 0⟩
abbrev HEAD_T_LO.W : Fld := ⟨0xB, 0x48, 0x1, 31, 0⟩
abbrev HEAD_T_HI.W : Fld := ⟨0xB, 0x4C, 0x1, 31, 0⟩
abbrev ACTIVE.INDEX : Fld := ⟨0xB, 0x100, 0x4, 15, 0⟩
abbrev ACTIVE.W : Fld := ⟨0xB, 0x100, 0x4, 31, 0⟩
abbrev THM_STATUS.SUSPECT : Fld := ⟨0xC, 0x8, 0x1, 31, 31⟩
abbrev THM_STATUS.SHUTDOWN : Fld := ⟨0xC, 0x8, 0x1, 30, 30⟩
abbrev THM_STATUS.THROTTLE : Fld := ⟨0xC, 0x8, 0x1, 29, 29⟩
abbrev THM_STATUS.WARNING : Fld := ⟨0xC, 0x8, 0x1, 28, 28⟩
abbrev THM_STATUS.EFF : Fld := ⟨0xC, 0x8, 0x1, 15, 0⟩
abbrev THM_STATUS.W : Fld := ⟨0xC, 0x8, 0x1, 31, 0⟩
abbrev THM_WARN.DWELL : Fld := ⟨0xC, 0x20, 0x1, 23, 16⟩
abbrev THM_WARN.HYS : Fld := ⟨0xC, 0x20, 0x1, 15, 8⟩
abbrev THM_WARN.SET : Fld := ⟨0xC, 0x20, 0x1, 7, 0⟩
abbrev THM_WARN.W : Fld := ⟨0xC, 0x20, 0x1, 31, 0⟩
abbrev THM_THR.DWELL : Fld := ⟨0xC, 0x24, 0x1, 23, 16⟩
abbrev THM_THR.HYS : Fld := ⟨0xC, 0x24, 0x1, 15, 8⟩
abbrev THM_THR.SET : Fld := ⟨0xC, 0x24, 0x1, 7, 0⟩
abbrev THM_THR.W : Fld := ⟨0xC, 0x24, 0x1, 31, 0⟩
abbrev THM_SHUT.DWELL : Fld := ⟨0xC, 0x28, 0x1, 23, 16⟩
abbrev THM_SHUT.HYS : Fld := ⟨0xC, 0x28, 0x1, 15, 8⟩
abbrev THM_SHUT.SET : Fld := ⟨0xC, 0x28, 0x1, 7, 0⟩
abbrev THM_SHUT.W : Fld := ⟨0xC, 0x28, 0x1, 31, 0⟩
abbrev THM_XCHK.SENS_FLT : Fld := ⟨0xC, 0x2C, 0x1, 31, 31⟩
abbrev THM_XCHK.AGREE : Fld := ⟨0xC, 0x2C, 0x1, 23, 16⟩
abbrev THM_XCHK.RATE : Fld := ⟨0xC, 0x2C, 0x1, 15, 12⟩
abbrev THM_XCHK.SUBST : Fld := ⟨0xC, 0x2C, 0x1, 11, 6⟩
abbrev THM_XCHK.DIFF : Fld := ⟨0xC, 0x2C, 0x1, 5, 0⟩
abbrev THM_XCHK.W : Fld := ⟨0xC, 0x2C, 0x1, 31, 0⟩
abbrev THM_READ.EFF : Fld := ⟨0xC, 0x30, 0x1, 31, 16⟩
abbrev THM_READ.RAW : Fld := ⟨0xC, 0x30, 0x1, 15, 0⟩
abbrev THM_READ.W : Fld := ⟨0xC, 0x30, 0x1, 31, 0⟩
abbrev THM_NBR.MAX : Fld := ⟨0xC, 0x34, 0x1, 31, 16⟩
abbrev THM_NBR.MED : Fld := ⟨0xC, 0x34, 0x1, 15, 0⟩
abbrev THM_NBR.W : Fld := ⟨0xC, 0x34, 0x1, 31, 0⟩
abbrev THM_PEAK.PEAK : Fld := ⟨0xC, 0x38, 0x1, 15, 0⟩
abbrev THM_PEAK.W : Fld := ⟨0xC, 0x38, 0x1, 31, 0⟩
abbrev THM_COUNT.THROTTLES : Fld := ⟨0xC, 0x3C, 0x1, 31, 16⟩
abbrev THM_COUNT.SUSPECTS : Fld := ⟨0xC, 0x3C, 0x1, 15, 0⟩
abbrev THM_COUNT.W : Fld := ⟨0xC, 0x3C, 0x1, 31, 0⟩
abbrev BIST_STATUS.SLICE_BUSY : Fld := ⟨0xD, 0x8, 0x1, 31, 31⟩
abbrev BIST_STATUS.ENG_TEST : Fld := ⟨0xD, 0x8, 0x1, 30, 30⟩
abbrev BIST_STATUS.FUSE_BUSY : Fld := ⟨0xD, 0x8, 0x1, 29, 29⟩
abbrev BIST_STATUS.MACRO : Fld := ⟨0xD, 0x8, 0x1, 15, 8⟩
abbrev BIST_STATUS.SLICE : Fld := ⟨0xD, 0x8, 0x1, 7, 4⟩
abbrev BIST_STATUS.W : Fld := ⟨0xD, 0x8, 0x1, 31, 0⟩
abbrev BIST_CTRL.ENG_FLT : Fld := ⟨0xD, 0x20, 0x1, 9, 9⟩
abbrev BIST_CTRL.MEM_FLT : Fld := ⟨0xD, 0x20, 0x1, 8, 8⟩
abbrev BIST_CTRL.REP_MODE : Fld := ⟨0xD, 0x20, 0x1, 4, 4⟩
abbrev BIST_CTRL.PATROL_EN : Fld := ⟨0xD, 0x20, 0x1, 2, 2⟩
abbrev BIST_CTRL.ENG_EN : Fld := ⟨0xD, 0x20, 0x1, 1, 1⟩
abbrev BIST_CTRL.SLICE_EN : Fld := ⟨0xD, 0x20, 0x1, 0, 0⟩
abbrev BIST_CTRL.W : Fld := ⟨0xD, 0x20, 0x1, 31, 0⟩
abbrev BIST_PACE.ENG_PER : Fld := ⟨0xD, 0x24, 0x1, 31, 16⟩
abbrev BIST_PACE.SLICE_PER : Fld := ⟨0xD, 0x24, 0x1, 15, 0⟩
abbrev BIST_PACE.W : Fld := ⟨0xD, 0x24, 0x1, 31, 0⟩
abbrev BIST_PASS.PASSES : Fld := ⟨0xD, 0x28, 0x1, 31, 16⟩
abbrev BIST_PASS.LAST_PASS_MS : Fld := ⟨0xD, 0x28, 0x1, 15, 0⟩
abbrev BIST_PASS.W : Fld := ⟨0xD, 0x28, 0x1, 31, 0⟩
abbrev FAIL_LOC.MACRO : Fld := ⟨0xD, 0x2C, 0x1, 31, 24⟩
abbrev FAIL_LOC.WORD : Fld := ⟨0xD, 0x2C, 0x1, 23, 14⟩
abbrev FAIL_LOC.BIT : Fld := ⟨0xD, 0x2C, 0x1, 13, 8⟩
abbrev FAIL_LOC.EXP : Fld := ⟨0xD, 0x2C, 0x1, 7, 7⟩
abbrev FAIL_LOC.ELEMENT : Fld := ⟨0xD, 0x2C, 0x1, 6, 4⟩
abbrev FAIL_LOC.W : Fld := ⟨0xD, 0x2C, 0x1, 31, 0⟩
abbrev FAIL_T.W : Fld := ⟨0xD, 0x30, 0x1, 31, 0⟩
abbrev FAIL_COUNT.FAILED_SLICES : Fld := ⟨0xD, 0x34, 0x1, 31, 16⟩
abbrev FAIL_COUNT.FAIL_BITS : Fld := ⟨0xD, 0x34, 0x1, 15, 0⟩
abbrev FAIL_COUNT.W : Fld := ⟨0xD, 0x34, 0x1, 31, 0⟩
abbrev SLICE_TIME.LAST_TICKS : Fld := ⟨0xD, 0x38, 0x1, 15, 0⟩
abbrev SLICE_TIME.W : Fld := ⟨0xD, 0x38, 0x1, 31, 0⟩
abbrev ENG_STAT.PASSED : Fld := ⟨0xD, 0x40, 0x1, 29, 24⟩
abbrev ENG_STAT.FAILED : Fld := ⟨0xD, 0x40, 0x1, 21, 16⟩
abbrev ENG_STAT.INCOMPL : Fld := ⟨0xD, 0x40, 0x1, 13, 8⟩
abbrev ENG_STAT.LAST_ENG : Fld := ⟨0xD, 0x40, 0x1, 6, 4⟩
abbrev ENG_STAT.LAST_INST : Fld := ⟨0xD, 0x40, 0x1, 2, 0⟩
abbrev ENG_STAT.W : Fld := ⟨0xD, 0x40, 0x1, 31, 0⟩
abbrev ENG_SIG.W : Fld := ⟨0xD, 0x44, 0x1, 31, 0⟩
abbrev ENG_SIG_EXP.W : Fld := ⟨0xD, 0x48, 0x1, 31, 0⟩
abbrev ENG_ISSUES.EXPECTED : Fld := ⟨0xD, 0x4C, 0x1, 31, 16⟩
abbrev ENG_ISSUES.ISSUES : Fld := ⟨0xD, 0x4C, 0x1, 15, 0⟩
abbrev ENG_ISSUES.W : Fld := ⟨0xD, 0x4C, 0x1, 31, 0⟩
abbrev BIST_FUSE.GO : Fld := ⟨0xD, 0x50, 0x1, 31, 31⟩
abbrev BIST_FUSE.MACRO : Fld := ⟨0xD, 0x50, 0x1, 7, 0⟩
abbrev BIST_FUSE.W : Fld := ⟨0xD, 0x50, 0x1, 31, 0⟩
abbrev BIST_FUSE_STAT.FREE : Fld := ⟨0xD, 0x54, 0x1, 5, 0⟩
abbrev BIST_FUSE_STAT.W : Fld := ⟨0xD, 0x54, 0x1, 31, 0⟩
abbrev PATROL_LO.PATROL_US : Fld := ⟨0xD, 0x58, 0x1, 31, 24⟩
abbrev PATROL_LO.LINE : Fld := ⟨0xD, 0x58, 0x1, 23, 0⟩
abbrev PATROL_LO.W : Fld := ⟨0xD, 0x58, 0x1, 31, 0⟩
abbrev PATROL_HI.LINE : Fld := ⟨0xD, 0x5C, 0x1, 23, 0⟩
abbrev PATROL_HI.W : Fld := ⟨0xD, 0x5C, 0x1, 31, 0⟩
abbrev PATROL_ERR.ERR_LINE : Fld := ⟨0xD, 0x60, 0x1, 23, 0⟩
abbrev PATROL_ERR.W : Fld := ⟨0xD, 0x60, 0x1, 31, 0⟩
abbrev PATROL_COUNT.HARD : Fld := ⟨0xD, 0x64, 0x1, 31, 16⟩
abbrev PATROL_COUNT.SOFT : Fld := ⟨0xD, 0x64, 0x1, 15, 0⟩
abbrev PATROL_COUNT.W : Fld := ⟨0xD, 0x64, 0x1, 31, 0⟩
abbrev PATROL_POS.LINE : Fld := ⟨0xD, 0x68, 0x1, 23, 0⟩
abbrev PATROL_POS.W : Fld := ⟨0xD, 0x68, 0x1, 31, 0⟩
abbrev MACRO_STAT.FAILED : Fld := ⟨0xD, 0x100, 0x4, 31, 31⟩
abbrev MACRO_STAT.FUSED : Fld := ⟨0xD, 0x100, 0x4, 30, 30⟩
abbrev MACRO_STAT.ROWS_USED : Fld := ⟨0xD, 0x100, 0x4, 29, 28⟩
abbrev MACRO_STAT.COL_USED : Fld := ⟨0xD, 0x100, 0x4, 27, 27⟩
abbrev MACRO_STAT.ROW1 : Fld := ⟨0xD, 0x100, 0x4, 25, 16⟩
abbrev MACRO_STAT.ROW0 : Fld := ⟨0xD, 0x100, 0x4, 15, 6⟩
abbrev MACRO_STAT.COL : Fld := ⟨0xD, 0x100, 0x4, 5, 0⟩
abbrev MACRO_STAT.W : Fld := ⟨0xD, 0x100, 0x4, 31, 0⟩
abbrev IMG_CTRL.START : Fld := ⟨0xE, 0x20, 0x1, 31, 31⟩
abbrev IMG_CTRL.ABORT : Fld := ⟨0xE, 0x20, 0x1, 30, 30⟩
abbrev IMG_CTRL.TYPE : Fld := ⟨0xE, 0x20, 0x1, 2, 0⟩
abbrev IMG_CTRL.W : Fld := ⟨0xE, 0x20, 0x1, 31, 0⟩
abbrev IMG_DATA.W : Fld := ⟨0xE, 0x24, 0x1, 31, 0⟩
abbrev IMG_STAT.WORDS : Fld := ⟨0xE, 0x28, 0x1, 31, 8⟩
abbrev IMG_STAT.RESULT : Fld := ⟨0xE, 0x28, 0x1, 7, 4⟩
abbrev IMG_STAT.STAT : Fld := ⟨0xE, 0x28, 0x1, 1, 0⟩
abbrev IMG_STAT.W : Fld := ⟨0xE, 0x28, 0x1, 31, 0⟩
abbrev EPOCH.W : Fld := ⟨0xE, 0x30, 0x1, 31, 0⟩
abbrev CTR_LO.W : Fld := ⟨0xE, 0x34, 0x1, 31, 0⟩
abbrev CTR_HI.W : Fld := ⟨0xE, 0x38, 0x1, 31, 0⟩
abbrev AUTH_ADDR.W : Fld := ⟨0xE, 0x40, 0x1, 31, 0⟩
abbrev AUTH_DATA.W : Fld := ⟨0xE, 0x44, 0x1, 31, 0⟩
abbrev AUTH_CTR_HI.W : Fld := ⟨0xE, 0x48, 0x1, 31, 0⟩
abbrev AUTH_CTR_LO.W : Fld := ⟨0xE, 0x4C, 0x1, 31, 0⟩
abbrev AUTH_TAG.W : Fld := ⟨0xE, 0x50, 0x4, 31, 0⟩
abbrev AUTH_GO.GO : Fld := ⟨0xE, 0x60, 0x1, 31, 31⟩
abbrev AUTH_GO.W : Fld := ⟨0xE, 0x60, 0x1, 31, 0⟩
abbrev AUTH_STAT.STAT : Fld := ⟨0xE, 0x64, 0x1, 1, 0⟩
abbrev AUTH_STAT.W : Fld := ⟨0xE, 0x64, 0x1, 31, 0⟩
abbrev OP_CTRL.GO : Fld := ⟨0xE, 0x68, 0x1, 31, 31⟩
abbrev OP_CTRL.SLOT : Fld := ⟨0xE, 0x68, 0x1, 9, 8⟩
abbrev OP_CTRL.OP : Fld := ⟨0xE, 0x68, 0x1, 3, 0⟩
abbrev OP_CTRL.W : Fld := ⟨0xE, 0x68, 0x1, 31, 0⟩
abbrev OP_STAT.RESULT : Fld := ⟨0xE, 0x6C, 0x1, 7, 4⟩
abbrev OP_STAT.STAT : Fld := ⟨0xE, 0x6C, 0x1, 1, 0⟩
abbrev OP_STAT.W : Fld := ⟨0xE, 0x6C, 0x1, 31, 0⟩
abbrev FUSE_OP.GO : Fld := ⟨0xE, 0x70, 0x1, 31, 31⟩
abbrev FUSE_OP.SLOT : Fld := ⟨0xE, 0x70, 0x1, 9, 8⟩
abbrev FUSE_OP.OP : Fld := ⟨0xE, 0x70, 0x1, 1, 0⟩
abbrev FUSE_OP.W : Fld := ⟨0xE, 0x70, 0x1, 31, 0⟩
abbrev SEC_FUSE_STAT.REVOKED : Fld := ⟨0xE, 0x74, 0x1, 7, 4⟩
abbrev SEC_FUSE_STAT.USED : Fld := ⟨0xE, 0x74, 0x1, 3, 0⟩
abbrev SEC_FUSE_STAT.W : Fld := ⟨0xE, 0x74, 0x1, 31, 0⟩
abbrev ID_LO.W : Fld := ⟨0xE, 0x78, 0x1, 31, 0⟩
abbrev ID_HI.W : Fld := ⟨0xE, 0x7C, 0x1, 31, 0⟩
abbrev REC_STATUS.LSTATE : Fld := ⟨0xF, 0x8, 0x1, 31, 30⟩
abbrev REC_STATUS.CAP : Fld := ⟨0xF, 0x8, 0x1, 29, 26⟩
abbrev REC_STATUS.THROTTLED : Fld := ⟨0xF, 0x8, 0x1, 25, 25⟩
abbrev REC_STATUS.DRAM_OK : Fld := ⟨0xF, 0x8, 0x1, 24, 24⟩
abbrev REC_STATUS.W : Fld := ⟨0xF, 0x8, 0x1, 31, 0⟩
abbrev REC_CTRL.TRIG : Fld := ⟨0xF, 0x20, 0x1, 31, 31⟩
abbrev REC_CTRL.REARM : Fld := ⟨0xF, 0x20, 0x1, 30, 30⟩
abbrev REC_CTRL.TRIG_CAP : Fld := ⟨0xF, 0x20, 0x1, 19, 16⟩
abbrev REC_CTRL.AUTO : Fld := ⟨0xF, 0x20, 0x1, 1, 1⟩
abbrev REC_CTRL.LEDGER_EN : Fld := ⟨0xF, 0x20, 0x1, 0, 0⟩
abbrev REC_CTRL.W : Fld := ⟨0xF, 0x20, 0x1, 31, 0⟩
abbrev STREAM.EN : Fld := ⟨0xF, 0x24, 0x1, 31, 31⟩
abbrev STREAM.PERIOD : Fld := ⟨0xF, 0x24, 0x1, 9, 0⟩
abbrev STREAM.W : Fld := ⟨0xF, 0x24, 0x1, 31, 0⟩
abbrev WIN_PTR.ADDR : Fld := ⟨0xF, 0x28, 0x1, 29, 0⟩
abbrev WIN_PTR.W : Fld := ⟨0xF, 0x28, 0x1, 31, 0⟩
abbrev PART.BASE : Fld := ⟨0xF, 0x2C, 0x4, 29, 16⟩
abbrev PART.SIZE : Fld := ⟨0xF, 0x2C, 0x4, 13, 0⟩
abbrev PART.W : Fld := ⟨0xF, 0x2C, 0x4, 31, 0⟩
abbrev TRIG_T_LO.W : Fld := ⟨0xF, 0x38, 0x1, 31, 0⟩
abbrev TRIG_T_HI.W : Fld := ⟨0xF, 0x3C, 0x1, 31, 0⟩
abbrev CAP_FIRST.PAGE : Fld := ⟨0xF, 0x40, 0x1, 17, 0⟩
abbrev CAP_FIRST.W : Fld := ⟨0xF, 0x40, 0x1, 31, 0⟩
abbrev CAP_LAST.PAGE : Fld := ⟨0xF, 0x44, 0x1, 17, 0⟩
abbrev CAP_LAST.W : Fld := ⟨0xF, 0x44, 0x1, 31, 0⟩
abbrev ERR_LINE.LINE : Fld := ⟨0xF, 0x48, 0x1, 23, 0⟩
abbrev ERR_LINE.W : Fld := ⟨0xF, 0x48, 0x1, 31, 0⟩
abbrev LINE_COUNTS.HARD : Fld := ⟨0xF, 0x4C, 0x1, 31, 16⟩
abbrev LINE_COUNTS.REREAD : Fld := ⟨0xF, 0x4C, 0x1, 15, 0⟩
abbrev LINE_COUNTS.W : Fld := ⟨0xF, 0x4C, 0x1, 31, 0⟩
abbrev STREAM_COUNTS.LOST : Fld := ⟨0xF, 0x50, 0x1, 31, 16⟩
abbrev STREAM_COUNTS.THR_DROPS : Fld := ⟨0xF, 0x50, 0x1, 15, 0⟩
abbrev STREAM_COUNTS.W : Fld := ⟨0xF, 0x50, 0x1, 31, 0⟩
abbrev REC_SEL.KIND : Fld := ⟨0xF, 0x60, 0x4, 17, 16⟩
abbrev REC_SEL.INDEX : Fld := ⟨0xF, 0x60, 0x4, 14, 0⟩
abbrev REC_SEL.W : Fld := ⟨0xF, 0x60, 0x4, 31, 0⟩
abbrev CAP_CFG.PRE : Fld := ⟨0xF, 0x100, 0x4, 31, 16⟩
abbrev CAP_CFG.POST : Fld := ⟨0xF, 0x100, 0x4, 15, 0⟩
abbrev CAP_CFG.W : Fld := ⟨0xF, 0x100, 0x4, 31, 0⟩
abbrev WIN_DATA.W : Fld := ⟨0xF, 0x400, 0x4, 31, 0⟩
abbrev DIE_STATUS.NIMG_BUSY : Fld := ⟨0x0, 0x8, 0x1, 2, 2⟩
abbrev DIE_STATUS.BOOT_HOLD : Fld := ⟨0x0, 0x8, 0x1, 1, 1⟩
abbrev DIE_STATUS.BOOTED : Fld := ⟨0x0, 0x8, 0x1, 0, 0⟩
abbrev DIE_STATUS.W : Fld := ⟨0x0, 0x8, 0x1, 31, 0⟩
abbrev BOOT_INFO.BOOT_TIME : Fld := ⟨0x0, 0x28, 0x1, 31, 16⟩
abbrev BOOT_INFO.BOOT0 : Fld := ⟨0x0, 0x28, 0x1, 4, 4⟩
abbrev BOOT_INFO.REFSEL : Fld := ⟨0x0, 0x28, 0x1, 3, 3⟩
abbrev BOOT_INFO.ROLE : Fld := ⟨0x0, 0x28, 0x1, 1, 0⟩
abbrev BOOT_INFO.W : Fld := ⟨0x0, 0x28, 0x1, 31, 0⟩
abbrev BOOT_CTRL.BOOT_GO : Fld := ⟨0x0, 0x2C, 0x1, 0, 0⟩
abbrev BOOT_CTRL.W : Fld := ⟨0x0, 0x2C, 0x1, 31, 0⟩
abbrev NIMG_CTRL.GO : Fld := ⟨0x0, 0x30, 0x1, 31, 31⟩
abbrev NIMG_CTRL.ABORT : Fld := ⟨0x0, 0x30, 0x1, 30, 30⟩
abbrev NIMG_CTRL.W : Fld := ⟨0x0, 0x30, 0x1, 31, 0⟩
abbrev NIMG_SEL.W : Fld := ⟨0x0, 0x34, 0x1, 31, 0⟩
abbrev NIMG_STAT.STAT : Fld := ⟨0x0, 0x38, 0x1, 31, 30⟩
abbrev NIMG_STAT.LAST_CAUSE : Fld := ⟨0x0, 0x38, 0x1, 23, 20⟩
abbrev NIMG_STAT.LAST_RESULT : Fld := ⟨0x0, 0x38, 0x1, 19, 16⟩
abbrev NIMG_STAT.LAST_WS : Fld := ⟨0x0, 0x38, 0x1, 12, 8⟩
abbrev NIMG_STAT.INNER : Fld := ⟨0x0, 0x38, 0x1, 3, 0⟩
abbrev NIMG_STAT.W : Fld := ⟨0x0, 0x38, 0x1, 31, 0⟩
abbrev NIMG_OK.W : Fld := ⟨0x0, 0x3C, 0x1, 31, 0⟩
abbrev NIMG_FAIL.W : Fld := ⟨0x0, 0x40, 0x1, 31, 0⟩
abbrev PAD_DRIVE.REG_DS : Fld := ⟨0xFF, 0x80, 0x1, 7, 6⟩
abbrev PAD_DRIVE.CLK_DS : Fld := ⟨0xFF, 0x80, 0x1, 5, 4⟩
abbrev PAD_DRIVE.SLOW_DS : Fld := ⟨0xFF, 0x80, 0x1, 3, 2⟩
abbrev PAD_DRIVE.GATE_DS : Fld := ⟨0xFF, 0x80, 0x1, 1, 0⟩
abbrev PAD_DRIVE.W : Fld := ⟨0xFF, 0x80, 0x1, 31, 0⟩
abbrev BUF.W : Fld := ⟨0xE, 0x400, 0x4, 31, 0⟩
end Fd

namespace Sk
abbrev DIE.STATE_CHANGED : Sticky := ⟨0x0, 2⟩
abbrev DIE.ROLE_MISMATCH : Sticky := ⟨0x0, 1⟩
abbrev DIE.STATE_REFUSED : Sticky := ⟨0x0, 0⟩
abbrev SUM.FRAME_ERR : Sticky := ⟨0xFF, 2⟩
abbrev SUM.REG_TIMEOUT : Sticky := ⟨0xFF, 1⟩
abbrev SUM.ADDR_ERR : Sticky := ⟨0xFF, 0⟩
abbrev FAB.LINK_DOWN : Sticky := ⟨0x10, 4⟩
abbrev FAB.A_LOST : Sticky := ⟨0x10, 3⟩
abbrev FAB.CRC_RESENT : Sticky := ⟨0x10, 2⟩
abbrev FAB.RES_REJECTED : Sticky := ⟨0x10, 1⟩
abbrev FAB.CLASS_A_REFUSED : Sticky := ⟨0x10, 0⟩
abbrev ANG.MIRROR_SKEW : Sticky := ⟨0x2, 3⟩
abbrev ANG.STRICT_MISS : Sticky := ⟨0x2, 2⟩
abbrev ANG.SKIPPED : Sticky := ⟨0x2, 1⟩
abbrev ANG.LATE : Sticky := ⟨0x2, 0⟩
abbrev ATR.COAST : Sticky := ⟨0x3, 8⟩
abbrev ATR.LOSS : Sticky := ⟨0x3, 4⟩
abbrev ATR.ILLEGAL : Sticky := ⟨0x3, 0⟩
abbrev MFE.EVENT : Sticky := ⟨0x4, 0⟩
abbrev LE.IDLE_START : Sticky := ⟨0x5, 2⟩
abbrev LE.MISSED : Sticky := ⟨0x5, 1⟩
abbrev LE.OVERRUN : Sticky := ⟨0x5, 0⟩
abbrev EP.CFG_ERR : Sticky := ⟨0x6, 7⟩
abbrev EP.OPP_FAIL : Sticky := ⟨0x6, 6⟩
abbrev EP.LEVEL_CLIP : Sticky := ⟨0x6, 5⟩
abbrev EP.VOLT_STALE : Sticky := ⟨0x6, 4⟩
abbrev EP.EDGE_OVF : Sticky := ⟨0x6, 3⟩
abbrev EP.PLAN_DROPPED : Sticky := ⟨0x6, 2⟩
abbrev EP.LEAD_SHORT : Sticky := ⟨0x6, 1⟩
abbrev EP.PLAN_LATE : Sticky := ⟨0x6, 0⟩
abbrev RING.RMT_FAIL : Sticky := ⟨0x7, 11⟩
abbrev RING.EMIT_ERR : Sticky := ⟨0x7, 10⟩
abbrev RING.UNTRUSTED : Sticky := ⟨0x7, 9⟩
abbrev RING.RES_REJECTED : Sticky := ⟨0x7, 8⟩
abbrev RING.CARAVAN_PARTIAL : Sticky := ⟨0x7, 7⟩
abbrev RING.ENUM_ERR : Sticky := ⟨0x7, 6⟩
abbrev RING.UNREACHABLE : Sticky := ⟨0x7, 5⟩
abbrev RING.SILENT : Sticky := ⟨0x7, 4⟩
abbrev RING.RING_BREAK : Sticky := ⟨0x7, 3⟩
abbrev RING.BC_DROPPED : Sticky := ⟨0x7, 2⟩
abbrev RING.A_LOST : Sticky := ⟨0x7, 1⟩
abbrev RING.CLASS_A_REFUSED : Sticky := ⟨0x7, 0⟩
abbrev BG.RING_BLOCK : Sticky := ⟨0x8, 18⟩
abbrev BG.MAN_REPLACED : Sticky := ⟨0x8, 17⟩
abbrev BG.EDGE_LATE : Sticky := ⟨0x8, 16⟩
abbrev BG.UNLOCK_REFUSED : Sticky := ⟨0x8, 5⟩
abbrev BG.CLASS_ERR : Sticky := ⟨0x8, 4⟩
abbrev BG.SHOOT_THROUGH : Sticky := ⟨0x8, 3⟩
abbrev BG.CMD_CONFLICT : Sticky := ⟨0x8, 2⟩
abbrev BG.LEG_LOCK : Sticky := ⟨0x8, 1⟩
abbrev BG.TRIP : Sticky := ⟨0x8, 0⟩
abbrev CLK.PEER_LOSS : Sticky := ⟨0x1, 9⟩
abbrev CLK.VT_EDGE : Sticky := ⟨0x1, 8⟩
abbrev CLK.BAND_ERR : Sticky := ⟨0x1, 7⟩
abbrev CLK.DIV_REJECT : Sticky := ⟨0x1, 6⟩
abbrev CLK.GUARD_FAIL : Sticky := ⟨0x1, 5⟩
abbrev CLK.DLL_LOST : Sticky := ⟨0x1, 4⟩
abbrev CLK.FPLL_LOSS : Sticky := ⟨0x1, 3⟩
abbrev CLK.PHASE_STEP : Sticky := ⟨0x1, 2⟩
abbrev CLK.FAILOVER : Sticky := ⟨0x1, 1⟩
abbrev CLK.REF_LOSS : Sticky := ⟨0x1, 0⟩
abbrev NET.TRIM_LIMIT : Sticky := ⟨0x9, 8⟩
abbrev NET.DISC_LIMIT : Sticky := ⟨0x9, 7⟩
abbrev NET.SYNC_LOSS : Sticky := ⟨0x9, 6⟩
abbrev NET.GM_CHANGE : Sticky := ⟨0x9, 5⟩
abbrev NET.TD_STEP : Sticky := ⟨0x9, 4⟩
abbrev NET.MGMT_REJECT : Sticky := ⟨0x9, 3⟩
abbrev NET.SPEED_ERR : Sticky := ⟨0x9, 2⟩
abbrev NET.RX_BAD : Sticky := ⟨0x9, 1⟩
abbrev NET.LINK_DOWN : Sticky := ⟨0x9, 0⟩
abbrev SAF.RST_CFG : Sticky := ⟨0xA, 10⟩
abbrev SAF.TWOHAND_SYNC : Sticky := ⟨0xA, 9⟩
abbrev SAF.CFG_REFUSED : Sticky := ⟨0xA, 8⟩
abbrev SAF.CROSS : Sticky := ⟨0xA, 7⟩
abbrev SAF.FEEDBACK : Sticky := ⟨0xA, 6⟩
abbrev SAF.READBACK : Sticky := ⟨0xA, 5⟩
abbrev SAF.INPUT_TEST : Sticky := ⟨0xA, 4⟩
abbrev SAF.DISCREPANCY : Sticky := ⟨0xA, 3⟩
abbrev SAF.PEER_LOCKOUT : Sticky := ⟨0xA, 2⟩
abbrev SAF.LOCKOUT : Sticky := ⟨0xA, 1⟩
abbrev SAF.DEMAND : Sticky := ⟨0xA, 0⟩
abbrev SAF.RESET_CMD : Sticky := ⟨0xA, 26⟩
abbrev SAF.LO_ENDED : Sticky := ⟨0xA, 25⟩
abbrev SAF.RESET_REFUSED : Sticky := ⟨0xA, 24⟩
abbrev SAF.RESET_LONG : Sticky := ⟨0xA, 23⟩
abbrev SAF.RESET_SHORT : Sticky := ⟨0xA, 22⟩
abbrev SAF.PROD_HELD : Sticky := ⟨0xA, 21⟩
abbrev SAF.REMOTE_PARAM : Sticky := ⟨0xA, 20⟩
abbrev SAF.REMOTE_LOSS : Sticky := ⟨0xA, 19⟩
abbrev SAF.DEGRADED : Sticky := ⟨0xA, 18⟩
abbrev SAF.UNKNOWN_CID : Sticky := ⟨0xA, 17⟩
abbrev SAF.TLG_BAD : Sticky := ⟨0xA, 16⟩
abbrev FLT.WS_REPORT : Sticky := ⟨0xB, 4⟩
abbrev FLT.REACT_REJECTED : Sticky := ⟨0xB, 3⟩
abbrev FLT.CLEAR_REFUSED : Sticky := ⟨0xB, 2⟩
abbrev FLT.OVERFLOW : Sticky := ⟨0xB, 1⟩
abbrev FLT.LATCHED : Sticky := ⟨0xB, 0⟩
abbrev THM.SUSPECT : Sticky := ⟨0xC, 4⟩
abbrev THM.SHUTDOWN : Sticky := ⟨0xC, 3⟩
abbrev THM.THROTTLE : Sticky := ⟨0xC, 2⟩
abbrev THM.WARNING : Sticky := ⟨0xC, 1⟩
abbrev THM.RATE : Sticky := ⟨0xC, 0⟩
abbrev BIST.FUSE_REFUSED : Sticky := ⟨0xD, 9⟩
abbrev BIST.FUSE_DONE : Sticky := ⟨0xD, 8⟩
abbrev BIST.PATROL_ERR : Sticky := ⟨0xD, 7⟩
abbrev BIST.PATROL_SOFT : Sticky := ⟨0xD, 6⟩
abbrev BIST.INCOMPLETE : Sticky := ⟨0xD, 5⟩
abbrev BIST.SIG_FAIL : Sticky := ⟨0xD, 4⟩
abbrev BIST.UNREPAIRABLE : Sticky := ⟨0xD, 3⟩
abbrev BIST.REPAIRED : Sticky := ⟨0xD, 2⟩
abbrev BIST.MEM_FAULT : Sticky := ⟨0xD, 1⟩
abbrev BIST.PASS_DONE : Sticky := ⟨0xD, 0⟩
abbrev SEC.CFG_ENTRY_ERR : Sticky := ⟨0xE, 8⟩
abbrev SEC.SEC_BUSY : Sticky := ⟨0xE, 7⟩
abbrev SEC.OP_FAIL : Sticky := ⟨0xE, 6⟩
abbrev SEC.OP_DONE : Sticky := ⟨0xE, 5⟩
abbrev SEC.REPLAY : Sticky := ⟨0xE, 4⟩
abbrev SEC.AUTH_FAIL : Sticky := ⟨0xE, 3⟩
abbrev SEC.IMG_FAIL : Sticky := ⟨0xE, 2⟩
abbrev SEC.IMG_OK : Sticky := ⟨0xE, 1⟩
abbrev SEC.KEY_SET : Sticky := ⟨0xE, 0⟩
abbrev REC.PRE_SHORT : Sticky := ⟨0xF, 10⟩
abbrev REC.DRAM_LOST : Sticky := ⟨0xF, 9⟩
abbrev REC.PART_REJECTED : Sticky := ⟨0xF, 8⟩
abbrev REC.WIN_REFUSED : Sticky := ⟨0xF, 7⟩
abbrev REC.LINE_ERR : Sticky := ⟨0xF, 6⟩
abbrev REC.STREAM_LOST : Sticky := ⟨0xF, 5⟩
abbrev REC.TRIG_LOST : Sticky := ⟨0xF, 4⟩
abbrev REC.REARM_REFUSED : Sticky := ⟨0xF, 3⟩
abbrev REC.SEALED : Sticky := ⟨0xF, 2⟩
abbrev REC.TRIGGERED : Sticky := ⟨0xF, 1⟩
end Sk

end Sys2Proof.Machine
end

