-- ==== Sys2Proof/Machine/RegTable.lean ====
section
/-! DEFINITION. The register map: one row per register (or array of registers) of the spec's register tables,
with the masks of its RW, W1C and RWL bits and its reset value (00_scope R9, R10; the register tables of files 01 to 22).
A bit in no mask is read-only, write-only or reserved, and a host write leaves it. -/

namespace Sys2Proof.Machine

/-- A row of the register map: `count` words at `page * 0x1000 + off + stride * i` (R41, R49). -/
structure RegDef where
  page : Nat
  off : Nat
  stride : Nat
  count : Nat
  rw : Word
  w1c : Word
  rwl : Word
  reset : Word
  deriving DecidableEq, Repr

/-- Registers of the DIE page (0x00) behind the common header. -/
def regsDie : List RegDef :=
  [ ⟨0x0, 0x20, 0x1, 1, 0x0, 0x0, 0x0, 0x102⟩ /- STATE -/,
    ⟨0x0, 0x24, 0x1, 1, 0x0, 0x0, 0x0, 0x0⟩ /- STATE_CMD -/,
    ⟨0x0, 0x8, 0x1, 1, 0x0, 0x0, 0x0, 0x0⟩ /- PAGE_STATUS -/,
    ⟨0x0, 0x28, 0x1, 1, 0x0, 0x0, 0x0, 0x0⟩ /- BOOT_INFO -/,
    ⟨0x0, 0x2C, 0x1, 1, 0x0, 0x0, 0x0, 0x0⟩ /- BOOT_CTRL -/,
    ⟨0x0, 0x30, 0x1, 1, 0x0, 0x0, 0x0, 0x0⟩ /- NIMG_CTRL -/,
    ⟨0x0, 0x34, 0x1, 1, 0xFFFFFFFF, 0x0, 0x0, 0x0⟩ /- NIMG_SEL -/,
    ⟨0x0, 0x38, 0x1, 1, 0x0, 0x0, 0x0, 0x0⟩ /- NIMG_STAT -/,
    ⟨0x0, 0x3C, 0x1, 1, 0x0, 0x0, 0x0, 0x0⟩ /- NIMG_OK -/,
    ⟨0x0, 0x40, 0x1, 1, 0x0, 0x0, 0x0, 0x0⟩ /- NIMG_FAIL -/ ]

/-- Registers of the CLK page (0x01) behind the common header. -/
def regsClk : List RegDef :=
  [ ⟨0x1, 0x8, 0x1, 1, 0x0, 0x0, 0x0, 0x100⟩ /- PAGE_STATUS -/,
    ⟨0x1, 0x20, 0x1, 1, 0x7, 0x0, 0x0, 0x0⟩ /- CLK_CTRL -/,
    ⟨0x1, 0x24, 0x1, 1, 0x1FFF0007, 0x0, 0x0, 0xF000000⟩ /- TPLL_SH -/,
    ⟨0x1, 0x28, 0x1, 1, 0x9FFF0007, 0x0, 0x0, 0x8F000000⟩ /- FPLL_SH -/,
    ⟨0x1, 0x2C, 0x1, 1, 0xFFFF, 0x0, 0x0, 0x200C⟩ /- FPLL_OUT_SH -/,
    ⟨0x1, 0x30, 0x1, 1, 0x8000031F, 0x0, 0x0, 0xA⟩ /- SPREAD_SH -/,
    ⟨0x1, 0x34, 0x1, 1, 0xFFFFFFFF, 0x0, 0x0, 0x0⟩ /- DITHER_SEED_SH -/,
    ⟨0x1, 0x38, 0x1, 1, 0x7F00FF, 0x0, 0x0, 0x640028⟩ /- REF_CFG -/,
    ⟨0x1, 0x3C, 0x1, 1, 0x0, 0x80000000, 0x0, 0x0⟩ /- LOSS_REC -/,
    ⟨0x1, 0x40, 0x1, 1, 0x0, 0x0, 0x0, 0x0⟩ /- LOSS_T_LO -/,
    ⟨0x1, 0x44, 0x1, 1, 0x0, 0x0, 0x0, 0x0⟩ /- LOSS_T_HI -/,
    ⟨0x1, 0x48, 0x1, 1, 0x0, 0x0, 0x0, 0x0⟩ /- VTUNE -/,
    ⟨0x1, 0x4C, 0x1, 1, 0x0, 0x0, 0x0, 0x0⟩ /- BAND_USE -/,
    ⟨0x1, 0x50, 0x1, 1, 0x0, 0x0, 0x0, 0x0⟩ /- GUARD_FREQ -/,
    ⟨0x1, 0x100, 0x4, 32, 0xBFFFFFFF, 0x0, 0x0, 0x0⟩ /- TPLL_BAND -/,
    ⟨0x1, 0x180, 0x4, 32, 0xBFFFFFFF, 0x0, 0x0, 0x0⟩ /- FPLL_BAND -/ ]

/-- Registers of the ANG page (0x02) behind the common header. -/
def regsAng : List RegDef :=
  [ ⟨0x2, 0x8, 0x1, 1, 0x0, 0x0, 0x0, 0x0⟩ /- PAGE_STATUS -/,
    ⟨0x2, 0x20, 0x1, 1, 0x0, 0x0, 0x0, 0x0⟩ /- SNAP_SEL -/,
    ⟨0x2, 0x24, 0x1, 1, 0x0, 0x0, 0x0, 0x0⟩ /- SNAP_T_LO -/,
    ⟨0x2, 0x28, 0x1, 1, 0x0, 0x0, 0x0, 0x0⟩ /- SNAP_T_HI -/,
    ⟨0x2, 0x2C, 0x1, 1, 0x0, 0x0, 0x0, 0x0⟩ /- SNAP_POS_FRAC -/,
    ⟨0x2, 0x30, 0x1, 1, 0x0, 0x0, 0x0, 0x0⟩ /- SNAP_POS_LO -/,
    ⟨0x2, 0x34, 0x1, 1, 0x0, 0x0, 0x0, 0x0⟩ /- SNAP_POS_HI -/,
    ⟨0x2, 0x38, 0x1, 1, 0x0, 0x0, 0x0, 0x0⟩ /- SNAP_INC_LO -/,
    ⟨0x2, 0x3C, 0x1, 1, 0x0, 0x0, 0x0, 0x0⟩ /- SNAP_INC_HI -/,
    ⟨0x2, 0x40, 0x4, 7, 0xFFFFFFFF, 0x0, 0x0, 0x0⟩ /- MS_SHADOW -/,
    ⟨0x2, 0x60, 0x1, 1, 0x0, 0x0, 0x0, 0x0⟩ /- MS_ARM -/,
    ⟨0x2, 0x64, 0x1, 1, 0x0, 0x0, 0x0, 0x0⟩ /- MS_INFO -/,
    ⟨0x2, 0x68, 0x1, 1, 0x0, 0x0, 0x0, 0x0⟩ /- MS_COUNTS -/,
    ⟨0x2, 0x6C, 0x1, 1, 0x1, 0x0, 0x0, 0x0⟩ /- ANG_PINS -/,
    ⟨0x2, 0x100, 0x20, 8, 0x1F030F, 0x0, 0x0, 0x140000⟩ /- AD_CFG -/,
    ⟨0x2, 0x104, 0x20, 8, 0xFFFFFFFF, 0x0, 0x0, 0x0⟩ /- AD_NOM_LO -/,
    ⟨0x2, 0x108, 0x20, 8, 0xFFFFFFFF, 0x0, 0x0, 0x0⟩ /- AD_NOM_HI -/,
    ⟨0x2, 0x10C, 0x20, 8, 0xFFFFFFFF, 0x0, 0x0, 0x0⟩ /- AD_ANCHOR_LO -/,
    ⟨0x2, 0x110, 0x20, 8, 0xFFFFFFFF, 0x0, 0x0, 0x0⟩ /- AD_ANCHOR_HI -/,
    ⟨0x2, 0x114, 0x20, 8, 0xFFFFFFFF, 0x0, 0x0, 0x0⟩ /- AD_ANCHOR_FRAC -/,
    ⟨0x2, 0x118, 0x20, 8, 0xFFFFFFFF, 0x0, 0x0, 0x0⟩ /- AD_ANCHOR_CYC -/,
    ⟨0x2, 0x11C, 0x20, 8, 0x0, 0x0, 0x0, 0x0⟩ /- AD_STATUS -/ ]

/-- Registers of the ATR page (0x03) behind the common header. -/
def regsAtr : List RegDef :=
  [ ⟨0x3, 0x8, 0x1, 1, 0x0, 0x0, 0x0, 0xF00⟩ /- PAGE_STATUS -/,
    ⟨0x3, 0x100, 0x40, 4, 0xFFF3F7F, 0x0, 0x0, 0x740⟩ /- TRK_CFG -/,
    ⟨0x3, 0x104, 0x40, 4, 0xFFFFFF, 0x0, 0x0, 0x320⟩ /- TRK_PER -/,
    ⟨0x3, 0x108, 0x40, 4, 0xFF00FFFF, 0x0, 0x0, 0x0⟩ /- TRK_LINES -/,
    ⟨0x3, 0x10C, 0x40, 4, 0xFFFFFFFF, 0x0, 0x0, 0x4000⟩ /- TRK_AMP -/,
    ⟨0x3, 0x110, 0x40, 4, 0xFFFFFFFF, 0x0, 0x0, 0xC8000A⟩ /- TRK_TIME -/,
    ⟨0x3, 0x114, 0x40, 4, 0x7F00FF, 0x0, 0x0, 0x320014⟩ /- TRK_GRID -/,
    ⟨0x3, 0x118, 0x40, 4, 0x0, 0x0, 0x0, 0x0⟩ /- TRK_CTRL -/,
    ⟨0x3, 0x120, 0x40, 4, 0x0, 0x0, 0x0, 0x0⟩ /- TRK_POS_FRAC -/,
    ⟨0x3, 0x124, 0x40, 4, 0x0, 0x0, 0x0, 0x0⟩ /- TRK_POS_CYC -/,
    ⟨0x3, 0x128, 0x40, 4, 0x0, 0x0, 0x0, 0x0⟩ /- TRK_SPEED_LO -/,
    ⟨0x3, 0x12C, 0x40, 4, 0x0, 0x0, 0x0, 0x0⟩ /- TRK_SPEED_HI -/,
    ⟨0x3, 0x130, 0x40, 4, 0x0, 0x0, 0x0, 0x4⟩ /- TRK_STAT -/,
    ⟨0x3, 0x134, 0x40, 4, 0x0, 0x0, 0x0, 0x0⟩ /- TRK_T -/,
    ⟨0x3, 0x138, 0x40, 4, 0x0, 0x0, 0x0, 0x0⟩ /- TRK_MAG -/ ]

/-- Registers of the MFE page (0x04) behind the common header. -/
def regsMfe : List RegDef :=
  [ ⟨0x4, 0x8, 0x1, 1, 0x0, 0x0, 0x0, 0x0⟩ /- PAGE_STATUS -/,
    ⟨0x4, 0x20, 0x4, 4, 0x8000FFFF, 0x0, 0x0, 0x2800⟩ /- SDC_CFG -/,
    ⟨0x4, 0x30, 0x1, 1, 0xFFFF, 0x0, 0x0, 0x0⟩ /- CH_EN -/,
    ⟨0x4, 0x40, 0x4, 16, 0xFFFF, 0x0, 0x0, 0x0⟩ /- GRP_MASK -/,
    ⟨0x4, 0x100, 0x20, 16, 0xFFF71F7F, 0x0, 0x0, 0x818⟩ /- CH_CFG -/,
    ⟨0x4, 0x104, 0x20, 16, 0xFFFFFFFF, 0x0, 0x0, 0x10000000⟩ /- CH_SCALE -/,
    ⟨0x4, 0x108, 0x20, 16, 0xFFFFFFFF, 0x0, 0x0, 0x7FFF8000⟩ /- CH_THR -/,
    ⟨0x4, 0x10C, 0x20, 16, 0x0, 0x0, 0x0, 0x0⟩ /- CH_LATCH -/,
    ⟨0x4, 0x110, 0x20, 16, 0x0, 0x0, 0x0, 0x0⟩ /- CH_LSTAMP -/,
    ⟨0x4, 0x114, 0x20, 16, 0x0, 0x0, 0x0, 0x0⟩ /- CH_FAST -/,
    ⟨0x4, 0x118, 0x20, 16, 0x0, 0x0, 0x0, 0x0⟩ /- CH_STAT -/ ]

/-- Registers of the LE page (0x05) behind the common header. -/
def regsLe : List RegDef :=
  [ ⟨0x5, 0x8, 0x1, 1, 0x0, 0x0, 0x0, 0x0⟩ /- PAGE_STATUS -/,
    ⟨0x5, 0x20, 0x1, 1, 0xFFFFFF, 0x0, 0x0, 0x0⟩ /- ENG_CFG -/,
    ⟨0x5, 0x24, 0x1, 1, 0xFFFFFFFF, 0x0, 0x0, 0x0⟩ /- SLOT_EN_LO -/,
    ⟨0x5, 0x28, 0x1, 1, 0xFFFFFFFF, 0x0, 0x0, 0x0⟩ /- SLOT_EN_HI -/,
    ⟨0x5, 0x2C, 0x1, 1, 0x0, 0x0, 0x0, 0x0⟩ /- LE_INFO -/,
    ⟨0x5, 0x30, 0x1, 1, 0x0, 0x0, 0x0, 0x0⟩ /- LE_MISSED -/,
    ⟨0x5, 0x100, 0x20, 64, 0xFE0007, 0x0, 0x0, 0x100000⟩ /- SLOT_CTRL -/,
    ⟨0x5, 0x104, 0x20, 64, 0x1FFF, 0x0, 0x0, 0x0⟩ /- SLOT_PROG -/,
    ⟨0x5, 0x108, 0x20, 64, 0x7FFF, 0x0, 0x0, 0x0⟩ /- SLOT_STATE -/,
    ⟨0x5, 0x10C, 0x20, 64, 0x7FFF7FFF, 0x0, 0x0, 0x0⟩ /- SLOT_COEF -/,
    ⟨0x5, 0x110, 0x20, 64, 0x803F00FF, 0x0, 0x0, 0x0⟩ /- SLOT_CASC -/,
    ⟨0x5, 0x114, 0x20, 64, 0x9F9F9F9F, 0x0, 0x0, 0x0⟩ /- SLOT_SPMODE -/,
    ⟨0x5, 0x118, 0x20, 64, 0x0, 0x0, 0x0, 0x0⟩ /- SLOT_STAT -/,
    ⟨0x5, 0x11C, 0x20, 64, 0x0, 0x0, 0x0, 0x0⟩ /- SLOT_TIME -/,
    ⟨0x5, 0x900, 0x8, 64, 0xFFFFFFFF, 0x0, 0x0, 0x0⟩ /- SPS_LO -/,
    ⟨0x5, 0x904, 0x8, 64, 0xFFFFFFFF, 0x0, 0x0, 0x0⟩ /- SPS_HI -/,
    ⟨0x5, 0xB00, 0x8, 64, 0x0, 0x0, 0x0, 0x0⟩ /- SPA_LO -/,
    ⟨0x5, 0xB04, 0x8, 64, 0x0, 0x0, 0x0, 0x0⟩ /- SPA_HI -/ ]

/-- Registers of the EP page (0x06) behind the common header. -/
def regsEp : List RegDef :=
  [ ⟨0x6, 0x8, 0x1, 1, 0x0, 0x0, 0x0, 0x0⟩ /- PAGE_STATUS -/,
    ⟨0x6, 0x20, 0x1, 1, 0xFC070007, 0x0, 0x0, 0x8000004⟩ /- EP_CFG -/,
    ⟨0x6, 0x24, 0x1, 1, 0x87878787, 0x0, 0x0, 0x0⟩ /- EP_GROUP -/,
    ⟨0x6, 0x28, 0x1, 1, 0xFFFFFFFF, 0x0, 0x0, 0x0⟩ /- EP_PHASE -/,
    ⟨0x6, 0x2C, 0x1, 1, 0xFFFFFFFF, 0x0, 0x0, 0x0⟩ /- EP_WIN -/,
    ⟨0x6, 0x30, 0x1, 1, 0xFFFFFFFF, 0x0, 0x0, 0x6403E80⟩ /- EP_TIMING -/,
    ⟨0x6, 0x34, 0x1, 1, 0xFFFF03FF, 0x0, 0x0, 0x13⟩ /- EP_PSC -/,
    ⟨0x6, 0x38, 0x1, 1, 0xFFFF, 0x0, 0x0, 0x7FFF⟩ /- EP_BAL -/,
    ⟨0x6, 0x3C, 0x1, 1, 0xFFFFFFFF, 0x0, 0x0, 0x0⟩ /- EP_OPP_BASE -/,
    ⟨0x6, 0x40, 0x1, 1, 0xFFFF003F, 0x0, 0x0, 0x1480000⟩ /- EP_OPP_CTRL -/,
    ⟨0x6, 0x44, 0x1, 1, 0x0, 0x0, 0x0, 0x0⟩ /- EP_TIME -/,
    ⟨0x6, 0x48, 0x1, 1, 0x0, 0x0, 0x0, 0x0⟩ /- EP_COUNT -/,
    ⟨0x6, 0x4C, 0x1, 1, 0x0, 0x0, 0x0, 0x0⟩ /- EP_INFO -/,
    ⟨0x6, 0x100, 0x4, 132, 0xFFFF, 0x0, 0x0, 0x0⟩ /- REF_PEND -/,
    ⟨0x6, 0x400, 0x4, 132, 0x0, 0x0, 0x0, 0x0⟩ /- REF_ACT -/,
    ⟨0x6, 0x800, 0x4, 128, 0x3, 0x0, 0x0, 0x0⟩ /- CELL_CFG -/,
    ⟨0x6, 0xA00, 0x4, 128, 0x0, 0x0, 0x0, 0x0⟩ /- CELL_V -/ ]

/-- Registers of the RING page (0x07) behind the common header. -/
def regsRing : List RegDef :=
  [ ⟨0x7, 0x8, 0x1, 1, 0x0, 0x0, 0x0, 0x0⟩ /- PAGE_STATUS -/,
    ⟨0x7, 0x20, 0x1, 1, 0x3, 0x0, 0x0, 0x0⟩ /- RING_CTRL -/,
    ⟨0x7, 0x24, 0x1, 1, 0x3F, 0x0, 0x0, 0x0⟩ /- RING_CFG -/,
    ⟨0x7, 0x28, 0x1, 1, 0x0, 0x0, 0x0, 0x0⟩ /- LINKS_A -/,
    ⟨0x7, 0x2C, 0x1, 1, 0x0, 0x0, 0x0, 0x0⟩ /- LINKS_B -/,
    ⟨0x7, 0x30, 0x1, 1, 0x0, 0x0, 0x0, 0x0⟩ /- LINKS_X -/,
    ⟨0x7, 0x34, 0x1, 1, 0x0, 0x0, 0x0, 0xFFFF⟩ /- RING_L -/,
    ⟨0x7, 0x38, 0x1, 1, 0x0, 0x0, 0x0, 0x0⟩ /- RING_COUNTS -/,
    ⟨0x7, 0x3C, 0x1, 1, 0x0, 0x0, 0x0, 0x0⟩ /- RING_BC -/,
    ⟨0x7, 0x40, 0x1, 1, 0x0, 0x0, 0x0, 0x0⟩ /- CAR_INFO -/,
    ⟨0x7, 0x44, 0x1, 1, 0x0, 0x0, 0x0, 0x0⟩ /- CAR_ADDR -/,
    ⟨0x7, 0x48, 0x1, 1, 0x0, 0x0, 0x0, 0x0⟩ /- CAR_OK -/,
    ⟨0x7, 0x4C, 0x1, 1, 0x70707, 0x0, 0x0, 0x0⟩ /- HCB_CTRL -/,
    ⟨0x7, 0x50, 0x1, 1, 0xFFFFFFFF, 0x0, 0x0, 0x0⟩ /- RMT_ADDR -/,
    ⟨0x7, 0x54, 0x1, 1, 0xFFFFFFFF, 0x0, 0x0, 0x0⟩ /- RMT_DATA -/,
    ⟨0x7, 0x58, 0x1, 1, 0x0, 0x0, 0x0, 0x0⟩ /- RMT_CMD -/,
    ⟨0x7, 0x5C, 0x1, 1, 0x0, 0x0, 0x0, 0x0⟩ /- RMT_STAT -/,
    ⟨0x7, 0x60, 0x1, 1, 0x0, 0x0, 0x0, 0x0⟩ /- NODE_TIME -/,
    ⟨0x7, 0x64, 0x1, 1, 0x0, 0x0, 0x0, 0x0⟩ /- NODE_ROUTE -/,
    ⟨0x7, 0x68, 0x1, 1, 0x0, 0x0, 0x0, 0x0⟩ /- NODE_D -/,
    ⟨0x7, 0x100, 0x4, 16, 0xB00F0FFF, 0x0, 0x0, 0x0⟩ /- RRES -/,
    ⟨0x7, 0x400, 0x4, 192, 0xFFFFFFFF, 0x0, 0x0, 0x0⟩ /- HCB -/ ]

/-- Registers of the BG page (0x08) behind the common header. -/
def regsBg : List RegDef :=
  [ ⟨0x8, 0x60, 0x1, 1, 0x7373737, 0x0, 0x0, 0x0⟩ /- BG_SRC -/,
    ⟨0x8, 0x64, 0x1, 1, 0xFFF0FFF, 0x0, 0x0, 0x5000500⟩ /- BG_DT01 -/,
    ⟨0x8, 0x68, 0x1, 1, 0xFFF0FFF, 0x0, 0x0, 0x5000500⟩ /- BG_DT23 -/,
    ⟨0x8, 0x6C, 0x1, 1, 0xFFF0FFF, 0x0, 0x0, 0x5000500⟩ /- BG_DT45 -/,
    ⟨0x8, 0x70, 0x1, 1, 0x70007, 0x0, 0x0, 0x10000⟩ /- BG_CARR -/,
    ⟨0x8, 0x74, 0x1, 1, 0xFFFFFFFF, 0x0, 0x0, 0x0⟩ /- BG_LPH01 -/,
    ⟨0x8, 0x78, 0x1, 1, 0xFFFFFFFF, 0x0, 0x0, 0x0⟩ /- BG_LPH23 -/,
    ⟨0x8, 0x7C, 0x1, 1, 0xFFFFFFFF, 0x0, 0x0, 0x0⟩ /- BG_LPH45 -/,
    ⟨0x8, 0x80, 0x1, 1, 0xFFFF, 0x0, 0x0, 0x0⟩ /- BG_EDGE -/,
    ⟨0x8, 0x84, 0x1, 1, 0x0, 0x0, 0x0, 0x4000000⟩ /- BG_CMD -/,
    ⟨0x8, 0x88, 0x4, 3, 0x0, 0x0, 0x0, 0x0⟩ /- BG_MAN -/,
    ⟨0x8, 0x8, 0x1, 1, 0x0, 0x0, 0x0, 0x0⟩ /- PAGE_STATUS -/,
    ⟨0x8, 0x20, 0x1, 1, 0x3F07, 0x0, 0x0, 0x3F06⟩ /- BG_GCFG -/,
    ⟨0x8, 0x24, 0x1, 1, 0xFFFFFFFF, 0x0, 0x0, 0x1F400640⟩ /- BG_TIMING -/,
    ⟨0x8, 0x28, 0x1, 1, 0x3FF000F, 0x0, 0x0, 0x640003⟩ /- BG_LOCKCFG -/,
    ⟨0x8, 0x2C, 0x1, 1, 0x0, 0x0, 0x0, 0x0⟩ /- BG_UNLOCK -/,
    ⟨0x8, 0x30, 0x4, 6, 0xFFFFC1FF, 0x0, 0x0, 0xFF40C8⟩ /- BG_LEG -/,
    ⟨0x8, 0x48, 0x1, 1, 0x0, 0x0, 0x0, 0x7⟩ /- BG_TRIP -/,
    ⟨0x8, 0x4C, 0x1, 1, 0x0, 0x0, 0x0, 0x0⟩ /- BG_TRIP_T -/,
    ⟨0x8, 0x50, 0x1, 1, 0x0, 0x0, 0x0, 0x0⟩ /- BG_COUNTS -/,
    ⟨0x8, 0x54, 0x1, 1, 0x0, 0x0, 0x0, 0x0⟩ /- BG_SENSE -/ ]

/-- Registers of the NET page (0x09) behind the common header. -/
def regsNet : List RegDef :=
  [ ⟨0x9, 0x8, 0x1, 1, 0x0, 0x0, 0x0, 0x1000⟩ /- PAGE_STATUS -/,
    ⟨0x9, 0x20, 0x1, 1, 0x37, 0x0, 0x0, 0x4⟩ /- NET_CFG -/,
    ⟨0x9, 0x24, 0x1, 1, 0xFFFFFFFF, 0x0, 0x0, 0x0⟩ /- PHY_LAT -/,
    ⟨0x9, 0x28, 0x1, 1, 0xFFFFFFFF, 0x0, 0x0, 0x88B688B5⟩ /- ETYPES -/,
    ⟨0x9, 0x2C, 0x1, 1, 0xFFFFFFFF, 0x0, 0x0, 0x0⟩ /- UDP_PORTS -/,
    ⟨0x9, 0x30, 0x1, 1, 0xFFFF, 0x0, 0x0, 0x0⟩ /- MAC_HI -/,
    ⟨0x9, 0x34, 0x1, 1, 0xFFFFFFFF, 0x0, 0x0, 0x0⟩ /- MAC_LO -/,
    ⟨0x9, 0x38, 0x1, 1, 0xFFFFFFFF, 0x0, 0x0, 0x0⟩ /- IP_ADDR -/,
    ⟨0x9, 0x3C, 0x1, 1, 0x0, 0x0, 0x0, 0x0⟩ /- PORT_COUNTS -/,
    ⟨0x9, 0x40, 0x1, 1, 0x0, 0x0, 0x0, 0x0⟩ /- MDIO_CMD -/,
    ⟨0x9, 0x44, 0x1, 1, 0x0, 0x0, 0x0, 0x0⟩ /- MDIO_DATA -/,
    ⟨0x9, 0x48, 0x1, 1, 0x1EFFF, 0x0, 0x0, 0x0⟩ /- TX_TAG -/,
    ⟨0x9, 0x4C, 0x1, 1, 0xFFFF, 0x0, 0x0, 0x7D0⟩ /- RED_CFG -/,
    ⟨0x9, 0x60, 0x1, 1, 0xFFFFFFF8, 0x0, 0x0, 0xF88028⟩ /- PTP_CFG -/,
    ⟨0x9, 0x64, 0x1, 1, 0xFF0F0FFF, 0x0, 0x0, 0x80030000⟩ /- PTP_INT -/,
    ⟨0x9, 0x68, 0x1, 1, 0xFFFFFFFF, 0x0, 0x0, 0x200004⟩ /- SERVO -/,
    ⟨0x9, 0x6C, 0x1, 1, 0x80FFFFFF, 0x0, 0x0, 0x503E8⟩ /- SERVO2 -/,
    ⟨0x9, 0x70, 0x1, 1, 0x0, 0x0, 0x0, 0x11⟩ /- PTP_STAT -/,
    ⟨0x9, 0x74, 0x1, 1, 0x0, 0x0, 0x0, 0x0⟩ /- GM_ID_HI -/,
    ⟨0x9, 0x78, 0x1, 1, 0x0, 0x0, 0x0, 0x0⟩ /- GM_ID_LO -/,
    ⟨0x9, 0x7C, 0x1, 1, 0x0, 0x0, 0x0, 0x0⟩ /- UTC -/,
    ⟨0x9, 0x80, 0x1, 1, 0x0, 0x0, 0x0, 0x0⟩ /- OFM -/,
    ⟨0x9, 0x84, 0x1, 1, 0x0, 0x0, 0x0, 0x0⟩ /- MPD -/,
    ⟨0x9, 0x88, 0x1, 1, 0x3, 0x0, 0x0, 0x0⟩ /- DISC -/ ] ++
  [ ⟨0x9, 0x8C, 0x1, 1, 0x0, 0x0, 0x0, 0x0⟩ /- ADJ -/,
    ⟨0x9, 0x90, 0x1, 1, 0xFF00FF03, 0x0, 0x0, 0x6400⟩ /- PPS_CFG -/,
    ⟨0x9, 0x94, 0x1, 1, 0x0, 0x0, 0x0, 0x0⟩ /- PPS_IN_T -/,
    ⟨0x9, 0x98, 0x1, 1, 0x0, 0x0, 0x0, 0x0⟩ /- PPS_IN_NS -/,
    ⟨0x9, 0x100, 0x20, 3, 0x3, 0x0, 0x0, 0x0⟩ /- TD_CTRL -/,
    ⟨0x9, 0x104, 0x20, 3, 0xFFFFFFFF, 0x0, 0x0, 0x0⟩ /- TD_SET_SEC_LO -/,
    ⟨0x9, 0x108, 0x20, 3, 0xFFFFFFFF, 0x0, 0x0, 0x0⟩ /- TD_SET_SEC_HI -/,
    ⟨0x9, 0x10C, 0x20, 3, 0xFFFFFFFF, 0x0, 0x0, 0x0⟩ /- TD_SET_NS -/,
    ⟨0x9, 0x110, 0x20, 3, 0xFFFFFFFF, 0x0, 0x0, 0x0⟩ /- TD_TRIM -/ ]

/-- Registers of the SAF page (0x0A) behind the common header. -/
def regsSaf : List RegDef :=
  [ ⟨0xA, 0x8, 0x1, 1, 0x0, 0x0, 0x0, 0x80000000⟩ /- PAGE_STATUS -/,
    ⟨0xA, 0x20, 0x1, 1, 0xFFFF, 0x0, 0x0, 0xFFFF⟩ /- SAF_TRIPFN -/,
    ⟨0xA, 0x24, 0x1, 1, 0xFFFFC00F, 0x0, 0x0, 0x19100004⟩ /- SAF_TEST -/,
    ⟨0xA, 0x28, 0x1, 1, 0x0, 0x0, 0x0, 0x0⟩ /- SAF_SIG -/,
    ⟨0xA, 0x2C, 0x1, 1, 0x0, 0x0, 0x0, 0x0⟩ /- SAF_PEER_SIG -/,
    ⟨0xA, 0x30, 0x1, 1, 0x0, 0x0, 0x0, 0x1000000⟩ /- SAF_INFO -/,
    ⟨0xA, 0x34, 0x1, 1, 0x0, 0x0, 0x0, 0x0⟩ /- SAF_CYCLE -/,
    ⟨0xA, 0x38, 0x1, 1, 0x0, 0x0, 0x0, 0x0⟩ /- SAF_RAW -/,
    ⟨0xA, 0x3C, 0x1, 1, 0x0, 0x0, 0x0, 0x0⟩ /- SAF_ACC -/,
    ⟨0xA, 0x40, 0x1, 1, 0x0, 0x0, 0x0, 0x0⟩ /- SAF_PEER -/,
    ⟨0xA, 0x44, 0x1, 1, 0xFF, 0x0, 0x0, 0x0⟩ /- SAF_OUT_REQ -/,
    ⟨0xA, 0x48, 0x1, 1, 0x0, 0x0, 0x0, 0x55555555⟩ /- SAF_FNSTATE -/,
    ⟨0xA, 0x100, 0x4, 16, 0x1FF07FF, 0x0, 0x0, 0x6400FA⟩ /- IN_CFG -/,
    ⟨0xA, 0x140, 0x4, 8, 0x81FF01FF, 0x0, 0x0, 0x140064⟩ /- FB_CFG -/,
    ⟨0xA, 0x180, 0x8, 16, 0xFC0FFFFF, 0x0, 0x0, 0x4000000⟩ /- FN_CFG -/,
    ⟨0xA, 0x184, 0x8, 16, 0x1FFFFFFF, 0x0, 0x0, 0x7D0⟩ /- FN_TIME -/,
    ⟨0xA, 0x200, 0x4, 8, 0xEFF0FFFF, 0x0, 0x0, 0x40000000⟩ /- OUT_MAP -/,
    ⟨0xA, 0xC0, 0x1, 1, 0x8000000F, 0x0, 0x0, 0x0⟩ /- SAF_LORST -/,
    ⟨0xA, 0xC4, 0x1, 1, 0x0, 0x0, 0x0, 0x0⟩ /- SAF_RST_CMD -/,
    ⟨0xA, 0xC8, 0x1, 1, 0xFFFFFFFF, 0x0, 0x0, 0x0⟩ /- SAF_CONN_EN -/,
    ⟨0xA, 0x800, 0x20, 32, 0xF0FFFFFF, 0x0, 0x0, 0x64⟩ /- CONN_CFG -/,
    ⟨0xA, 0x804, 0x20, 32, 0xFFFFFFFF, 0x0, 0x0, 0x0⟩ /- CONN_ID -/,
    ⟨0xA, 0x808, 0x20, 32, 0xFFFFFFFF, 0x0, 0x0, 0x0⟩ /- CONN_PER -/,
    ⟨0xA, 0x80C, 0x20, 32, 0xFFFFFFFF, 0x0, 0x0, 0x0⟩ /- CONN_MAC_HI -/ ] ++
  [ ⟨0xA, 0x810, 0x20, 32, 0xFFFFFFFF, 0x0, 0x0, 0x0⟩ /- CONN_MAC_LO -/,
    ⟨0xA, 0x814, 0x20, 32, 0xFFFFFFFF, 0x0, 0x0, 0x0⟩ /- CONN_IP -/,
    ⟨0xA, 0xC00, 0x10, 32, 0x0, 0x0, 0x0, 0x0⟩ /- CONN_STAT -/,
    ⟨0xA, 0xC04, 0x10, 32, 0x0, 0x0, 0x0, 0x0⟩ /- CONN_SEQ -/,
    ⟨0xA, 0xC08, 0x10, 32, 0x0, 0x0, 0x0, 0x0⟩ /- CONN_COUNT -/ ]

/-- Registers of the FLT page (0x0B) behind the common header. -/
def regsFlt : List RegDef :=
  [ ⟨0xB, 0x8, 0x1, 1, 0x0, 0x0, 0x0, 0x0⟩ /- PAGE_STATUS -/,
    ⟨0xB, 0x20, 0x1, 1, 0x0, 0x0, 0x0, 0x0⟩ /- FF_CTRL -/,
    ⟨0xB, 0x24, 0x1, 1, 0xF0004, 0x0, 0x0, 0x7⟩ /- FF_REACT -/,
    ⟨0xB, 0x28, 0x1, 1, 0x0, 0x0, 0x0, 0x0⟩ /- FF_SRC -/,
    ⟨0xB, 0x34, 0x1, 1, 0x0, 0x0, 0x0, 0x0⟩ /- LOC_SRC -/,
    ⟨0xB, 0x2C, 0x1, 1, 0x0, 0x0, 0x0, 0x0⟩ /- FF_T_LO -/,
    ⟨0xB, 0x30, 0x1, 1, 0x0, 0x0, 0x0, 0x0⟩ /- FF_T_HI -/,
    ⟨0xB, 0x38, 0x1, 1, 0x0, 0x0, 0x0, 0x0⟩ /- LOC_T_LO -/,
    ⟨0xB, 0x3C, 0x1, 1, 0x0, 0x0, 0x0, 0x0⟩ /- LOC_T_HI -/,
    ⟨0xB, 0x40, 0x1, 1, 0x0, 0x0, 0x0, 0x0⟩ /- FF_COUNT -/,
    ⟨0xB, 0x44, 0x1, 1, 0x0, 0x0, 0x0, 0x0⟩ /- HEAD_FF -/,
    ⟨0xB, 0x48, 0x1, 1, 0x0, 0x0, 0x0, 0x0⟩ /- HEAD_T_LO -/,
    ⟨0xB, 0x4C, 0x1, 1, 0x0, 0x0, 0x0, 0x0⟩ /- HEAD_T_HI -/,
    ⟨0xB, 0x100, 0x4, 17, 0x0, 0x0, 0x0, 0x0⟩ /- ACTIVE -/ ]

/-- Registers of the THM page (0x0C) behind the common header. -/
def regsThm : List RegDef :=
  [ ⟨0xC, 0x8, 0x1, 1, 0x0, 0x0, 0x0, 0x0⟩ /- PAGE_STATUS -/,
    ⟨0xC, 0x20, 0x1, 1, 0xFFFFFF, 0x0, 0x0, 0xA0569⟩ /- THM_WARN -/,
    ⟨0xC, 0x24, 0x1, 1, 0xFFFFFF, 0x0, 0x0, 0xA0573⟩ /- THM_THR -/,
    ⟨0xC, 0x28, 0x1, 1, 0xFFFFFF, 0x0, 0x0, 0xA0A82⟩ /- THM_SHUT -/,
    ⟨0xC, 0x2C, 0x1, 1, 0x80FFFFFF, 0x0, 0x0, 0xA528F⟩ /- THM_XCHK -/,
    ⟨0xC, 0x30, 0x1, 1, 0x0, 0x0, 0x0, 0x0⟩ /- THM_READ -/,
    ⟨0xC, 0x34, 0x1, 1, 0xFFFFFFFF, 0x0, 0x0, 0x80008000⟩ /- THM_NBR -/,
    ⟨0xC, 0x38, 0x1, 1, 0x0, 0x0, 0x0, 0x8000⟩ /- THM_PEAK -/,
    ⟨0xC, 0x3C, 0x1, 1, 0x0, 0x0, 0x0, 0x0⟩ /- THM_COUNT -/ ]

/-- Registers of the BIST page (0x0D) behind the common header. -/
def regsBist : List RegDef :=
  [ ⟨0xD, 0x8, 0x1, 1, 0x0, 0x0, 0x0, 0x0⟩ /- PAGE_STATUS -/,
    ⟨0xD, 0x20, 0x1, 1, 0x317, 0x0, 0x0, 0x313⟩ /- BIST_CTRL -/,
    ⟨0xD, 0x24, 0x1, 1, 0xFFFFFFFF, 0x0, 0x0, 0xA00C8⟩ /- BIST_PACE -/,
    ⟨0xD, 0x28, 0x1, 1, 0x0, 0x0, 0x0, 0x0⟩ /- BIST_PASS -/,
    ⟨0xD, 0x2C, 0x1, 1, 0x0, 0x0, 0x0, 0x0⟩ /- FAIL_LOC -/,
    ⟨0xD, 0x30, 0x1, 1, 0x0, 0x0, 0x0, 0x0⟩ /- FAIL_T -/,
    ⟨0xD, 0x34, 0x1, 1, 0x0, 0x0, 0x0, 0x0⟩ /- FAIL_COUNT -/,
    ⟨0xD, 0x38, 0x1, 1, 0x0, 0x0, 0x0, 0x0⟩ /- SLICE_TIME -/,
    ⟨0xD, 0x40, 0x1, 1, 0x0, 0x0, 0x0, 0x0⟩ /- ENG_STAT -/,
    ⟨0xD, 0x44, 0x1, 1, 0x0, 0x0, 0x0, 0x0⟩ /- ENG_SIG -/,
    ⟨0xD, 0x48, 0x1, 1, 0x0, 0x0, 0x0, 0x0⟩ /- ENG_SIG_EXP -/,
    ⟨0xD, 0x4C, 0x1, 1, 0x0, 0x0, 0x0, 0x6000000⟩ /- ENG_ISSUES -/,
    ⟨0xD, 0x50, 0x1, 1, 0x0, 0x0, 0x0, 0x0⟩ /- BIST_FUSE -/,
    ⟨0xD, 0x54, 0x1, 1, 0x0, 0x0, 0x0, 0x0⟩ /- FUSE_STAT -/,
    ⟨0xD, 0x58, 0x1, 1, 0xFFFFFFFF, 0x0, 0x0, 0x1000000⟩ /- PATROL_LO -/,
    ⟨0xD, 0x5C, 0x1, 1, 0xFFFFFF, 0x0, 0x0, 0x0⟩ /- PATROL_HI -/,
    ⟨0xD, 0x60, 0x1, 1, 0x0, 0x0, 0x0, 0x0⟩ /- PATROL_ERR -/,
    ⟨0xD, 0x64, 0x1, 1, 0x0, 0x0, 0x0, 0x0⟩ /- PATROL_COUNT -/,
    ⟨0xD, 0x68, 0x1, 1, 0x0, 0x0, 0x0, 0x0⟩ /- PATROL_POS -/,
    ⟨0xD, 0x100, 0x4, 256, 0x0, 0x0, 0x0, 0x0⟩ /- MACRO_STAT -/ ]

/-- Registers of the SEC page (0x0E) behind the common header. -/
def regsSec : List RegDef :=
  [ ⟨0xE, 0x20, 0x1, 1, 0x7, 0x0, 0x0, 0x1⟩ /- IMG_CTRL -/,
    ⟨0xE, 0x24, 0x1, 1, 0x0, 0x0, 0x0, 0x0⟩ /- IMG_DATA -/,
    ⟨0xE, 0x28, 0x1, 1, 0x0, 0x0, 0x0, 0x0⟩ /- IMG_STAT -/,
    ⟨0xE, 0x30, 0x1, 1, 0x0, 0x0, 0x0, 0x0⟩ /- EPOCH -/,
    ⟨0xE, 0x34, 0x1, 1, 0x0, 0x0, 0x0, 0x0⟩ /- CTR_LO -/,
    ⟨0xE, 0x38, 0x1, 1, 0x0, 0x0, 0x0, 0x0⟩ /- CTR_HI -/,
    ⟨0xE, 0x40, 0x1, 1, 0xFFFFFFFF, 0x0, 0x0, 0x0⟩ /- AUTH_ADDR -/,
    ⟨0xE, 0x44, 0x1, 1, 0xFFFFFFFF, 0x0, 0x0, 0x0⟩ /- AUTH_DATA -/,
    ⟨0xE, 0x48, 0x1, 1, 0xFFFFFFFF, 0x0, 0x0, 0x0⟩ /- AUTH_CTR_HI -/,
    ⟨0xE, 0x4C, 0x1, 1, 0xFFFFFFFF, 0x0, 0x0, 0x0⟩ /- AUTH_CTR_LO -/,
    ⟨0xE, 0x50, 0x4, 4, 0xFFFFFFFF, 0x0, 0x0, 0x0⟩ /- AUTH_TAG -/,
    ⟨0xE, 0x60, 0x1, 1, 0x0, 0x0, 0x0, 0x0⟩ /- AUTH_GO -/,
    ⟨0xE, 0x64, 0x1, 1, 0x0, 0x0, 0x0, 0x0⟩ /- AUTH_STAT -/,
    ⟨0xE, 0x68, 0x1, 1, 0x30F, 0x0, 0x0, 0x0⟩ /- OP_CTRL -/,
    ⟨0xE, 0x6C, 0x1, 1, 0x0, 0x0, 0x0, 0x0⟩ /- OP_STAT -/,
    ⟨0xE, 0x70, 0x1, 1, 0x0, 0x0, 0x0, 0x0⟩ /- FUSE_OP -/,
    ⟨0xE, 0x74, 0x1, 1, 0x0, 0x0, 0x0, 0x0⟩ /- FUSE_STAT -/,
    ⟨0xE, 0x78, 0x1, 1, 0x0, 0x0, 0x0, 0x0⟩ /- ID_LO -/,
    ⟨0xE, 0x7C, 0x1, 1, 0x0, 0x0, 0x0, 0x0⟩ /- ID_HI -/,
    ⟨0xE, 0x400, 0x4, 128, 0xFFFFFFFF, 0x0, 0x0, 0x0⟩ /- BUF -/ ]

/-- Registers of the REC page (0x0F) behind the common header. -/
def regsRec : List RegDef :=
  [ ⟨0xF, 0x8, 0x1, 1, 0x0, 0x0, 0x0, 0x0⟩ /- PAGE_STATUS -/,
    ⟨0xF, 0x20, 0x1, 1, 0x3, 0x0, 0x0, 0x0⟩ /- REC_CTRL -/,
    ⟨0xF, 0x24, 0x1, 1, 0x800003FF, 0x0, 0x0, 0xA⟩ /- STREAM -/,
    ⟨0xF, 0x28, 0x1, 1, 0x3FFFFFFF, 0x0, 0x0, 0x0⟩ /- WIN_PTR -/,
    ⟨0xF, 0x2C, 0x4, 3, 0x3FFF3FFF, 0x0, 0x0, 0x0⟩ /- PART -/,
    ⟨0xF, 0x38, 0x1, 1, 0x0, 0x0, 0x0, 0x0⟩ /- TRIG_T_LO -/,
    ⟨0xF, 0x3C, 0x1, 1, 0x0, 0x0, 0x0, 0x0⟩ /- TRIG_T_HI -/,
    ⟨0xF, 0x40, 0x1, 1, 0x0, 0x0, 0x0, 0x0⟩ /- CAP_FIRST -/,
    ⟨0xF, 0x44, 0x1, 1, 0x0, 0x0, 0x0, 0x0⟩ /- CAP_LAST -/,
    ⟨0xF, 0x48, 0x1, 1, 0x0, 0x0, 0x0, 0x0⟩ /- ERR_LINE -/,
    ⟨0xF, 0x4C, 0x1, 1, 0x0, 0x0, 0x0, 0x0⟩ /- LINE_COUNTS -/,
    ⟨0xF, 0x50, 0x1, 1, 0x0, 0x0, 0x0, 0x0⟩ /- STREAM_COUNTS -/,
    ⟨0xF, 0x60, 0x4, 8, 0x37FFF, 0x0, 0x0, 0x0⟩ /- REC_SEL -/,
    ⟨0xF, 0x100, 0x4, 16, 0xFFFFFFFF, 0x0, 0x0, 0x0⟩ /- CAP_CFG -/,
    ⟨0xF, 0x400, 0x4, 16, 0xFFFFFFFF, 0x0, 0x0, 0x0⟩ /- WIN_DATA -/ ]

/-- Registers of the FAB page (0x10) behind the common header. -/
def regsFab : List RegDef :=
  [ ⟨0x10, 0x20, 0x1, 1, 0x0, 0x0, 0x0, 0x0⟩ /- FAB_LINKS -/,
    ⟨0x10, 0x24, 0x1, 1, 0x0, 0x0, 0x0, 0x0⟩ /- FAB_COUNTS -/,
    ⟨0x10, 0x28, 0x1, 1, 0x0, 0x0, 0x0, 0x0⟩ /- FAB_LAST_REFUSED -/,
    ⟨0x10, 0x100, 0x4, 32, 0x0, 0x0, 0x8703FFFF, 0x0⟩ /- RES_ENTRY -/ ]

/-- Words of a milestone entry (R88), as offsets in the milestone window 0xF_0000. -/
def regsMilestone : List RegDef :=
  [ ⟨0xF0, 0x0, 0x20, 1024, 0x6FCF0000, 0, 0, 0⟩ /- MS_CTRL -/,
    ⟨0xF0, 0x4, 0x20, 1024, 0xFFFFFFFF, 0, 0, 0⟩ /- MS_RECUR -/,
    ⟨0xF0, 0x8, 0x20, 1024, 0xFFFFFFFF, 0, 0, 0⟩ /- MS_CMP_FRAC -/,
    ⟨0xF0, 0xC, 0x20, 1024, 0xFFFFFFFF, 0, 0, 0⟩ /- MS_CMP_LO -/,
    ⟨0xF0, 0x10, 0x20, 1024, 0xFFFFFFFF, 0, 0, 0⟩ /- MS_CMP_HI -/,
    ⟨0xF0, 0x14, 0x20, 1024, 0xFFFFFFFF, 0, 0, 0⟩ /- MS_TOL -/,
    ⟨0xF0, 0x18, 0x20, 1024, 0xFFFFFFFF, 0, 0, 0⟩ /- MS_ARG -/,
    ⟨0xF0, 0x1C, 0x20, 1024, 0x0, 0, 0, 0⟩ /- MS_LAST -/ ]

/-- Registers of the summary page (02 R54, 22 R551); the page number of a summary row is 0xFF (its BLOCK code). -/
def regsSummary : List RegDef :=
  [ ⟨0xFF, 0x20, 0x1, 1, 0x0, 0, 0, 0x0⟩ /- PART_INFO R55 -/,
    ⟨0xFF, 0x24, 0x1, 1, 0x0, 0, 0, 0x0⟩ /- SUMMARY_SEQ R55 -/,
    ⟨0xFF, 0x28, 0x1, 1, 0x0, 0, 0, 0x0⟩ /- STATE_MIRROR R55 -/,
    ⟨0xFF, 0x40, 0x4, 8, 0x0, 0, 0, 0x0⟩ /- PAGES_STICKY_d R55 -/,
    ⟨0xFF, 0x60, 0x4, 8, 0x0, 0, 0, 0x0⟩ /- CTX_STICKY_d R55 -/,
    ⟨0xFF, 0x80, 0x1, 1, 0xFF, 0, 0, 0x51⟩ /- PAD_DRIVE R551 -/ ]

/-- The rows of one page of a die window. -/
def pageRegs : Nat → List RegDef
  | 0 => regsDie
  | 1 => regsClk
  | 2 => regsAng
  | 3 => regsAtr
  | 4 => regsMfe
  | 5 => regsLe
  | 6 => regsEp
  | 7 => regsRing
  | 8 => regsBg
  | 9 => regsNet
  | 10 => regsSaf
  | 11 => regsFlt
  | 12 => regsThm
  | 13 => regsBist
  | 14 => regsSec
  | 15 => regsRec
  | 16 => regsFab
  | _ => []

/-- Does a row hold the register at page offset `off`? -/
def RegDef.holds (r : RegDef) (off : Nat) : Bool :=
  r.off ≤ off && (off - r.off) % r.stride == 0 && (off - r.off) / r.stride < r.count

/-- The row of the register at an offset, if the page has one there. -/
def findReg (l : List RegDef) (off : Nat) : Option RegDef := l.find? (fun r => r.holds off)

end Sys2Proof.Machine
end

