-- ==== Sys2Proof/Machine/State.lean ====
section
/-! DEFINITION. The state of one Klodar part, as plain data, and the state after reset.
Every register of the map and every word of the memory windows of a die lives in ONE sorted store per die (`Die.cells`),
keyed by its offset in the die window (02 R40-R42); an unlisted key reads as its reset value. What the spec gives the
machine beside its registers (accumulators, queues, timers, positions, blocks in flight) is held in one structure per block. -/

namespace Sys2Proof.Machine

/-- Why a step stops with a fault. DEDUCED, log entry 8. -/
inductive Fault where
  /-- A host misuse stands (00 R14, R38): "may not rely on any behaviour of the part from that point until the affected block or die
  is reset". Carries the number of the rule. Raised by every command but the resets that end the misuse and the commands R14 and R39
  take out of it (bridge guard, bridges, safety block, losses of clock, ring and supply). SAFE: nothing is claimed of the part. -/
  | misuse (rule : Nat)
  deriving DecidableEq, Repr

/-- Why a command is refused by the model. -/
inductive Refusal where
  /-- The command has no meaning in the model yet (raised by `exec` only). SAFE: nothing is claimed of it. -/
  | notModelled (mnemonic : String)
  deriving DecidableEq, Repr

/-- The four parts of the family (00 R1). -/
inductive Part where
  | kld1c | kld2h | kld4h | kld8h
  deriving DecidableEq, Repr

/-- The dies of a part (00 R1). -/
def Part.dies : Part → Nat
  | .kld1c => 1
  | .kld2h => 2
  | .kld4h => 4
  | .kld8h => 8

/-- A KLD-1C is a node, every other part a head (00 R1, "Nicknames"). -/
def Part.isHead : Part → Bool
  | .kld1c => false
  | _ => true

/-- The device states (01 R31). -/
inductive DevState where
  | off | reset | boot | config | startup | run | test | recovery | standstill | lockout
  deriving DecidableEq, Repr

/-- The code of a device state (01 R31). -/
def DevState.code : DevState → Nat
  | .off => 0 | .reset => 1 | .boot => 2 | .config => 3 | .startup => 4
  | .run => 5 | .test => 6 | .recovery => 7 | .standstill => 8 | .lockout => 9

/-- The device state of a code; codes above 9 name none (01 R31, 21 R533). -/
def DevState.ofCode : Nat → Option DevState
  | 0 => some .off | 1 => some .reset | 2 => some .boot | 3 => some .config | 4 => some .startup
  | 5 => some .run | 6 => some .test | 7 => some .recovery | 8 => some .standstill | 9 => some .lockout
  | _ => none

/-- STARTUP, RUN, TEST and RECOVERY: bridges may switch (01 R31) and the collector is armed (17 R447). -/
def DevState.switching : DevState → Bool
  | .startup | .run | .test | .recovery => true
  | _ => false

/-- Set-points may follow inputs (01 R31). -/
def DevState.follows : DevState → Bool
  | .startup | .test | .recovery => true
  | _ => false

/-- A sorted store of words: keys strictly rising, no entry equal to what an unlisted key reads as. -/
abbrev Cells := List (Nat × Word)

/-! ### Angle base (03) -/

/-- A change to a domain, as a source or a register write submits it (03 R78, R79, R82; 14 R376). -/
inductive DomUpd where
  /-- an update of the angle tracker: angle in 2^-48 turn, its tick, its increment (R78) -/
  | track (theta ts incs : Int)
  /-- a jump of a TRACK domain to the angle and increment of its restarted channel (04 R125) -/
  | jump (theta incs : Int)
  /-- a jump to a configuration: source, NOM, anchor position and tick (R79) -/
  | reconfigure (src : Nat) (nom anchorPos : Int) (anchorT : Nat)
  /-- SOFT_RESET: the domain takes HOLD where it stands (ANG page, R79) -/
  | hold
  /-- a step of a wall-time domain to, or by, an amount in 2^-48 ns (14 R378) -/
  | tdSet (value : Int)
  | tdAdd (value : Int)
  /-- a host step by a signed offset, which clears FNS (14 R378) -/
  | tdRel (value : Int)
  /-- a change of trim (14 R376) -/
  | tdTrim (value : Int)
  deriving DecidableEq, Repr

/-- One angle domain of a die: positions in 2^-48 turn, increment in 2^-48 turn per tick (03 R74-R78). -/
structure Domain where
  pos : Int
  prev : Int
  inc : Int
  src : Nat                            -- source in force: 0 HOLD, 1 FREE, 2 TRACK (R76)
  anchorPos : Int                      -- of a FREE domain (R77)
  anchorT : Nat
  nom : Int
  slew : Option (Nat × Int)            -- tick after which the slew ends, and the increment then (R78)
  held : Option DomUpd                 -- update held by R83
  nextOk : Nat                         -- earliest tick of the next submission (R83)
  deriving DecidableEq, Repr

def Domain.zero : Domain := ⟨0, 0, 0, 0, 0, 0, 0, none, none, 0⟩

/-- A mirror record in flight: domain (8-10 for TD1-TD3), the tick it applies in, the change, the dies at which it arrived with a bad
CRC (02 R67; 03 R82, R84; 14 R376). -/
structure Mirror where
  domain : Nat
  te : Nat
  upd : DomUpd
  lost : List Nat
  deriving DecidableEq, Repr

/-- A wall-time domain TD1-TD3: time in 2^-48 ns, trim in 2^-36, servo integrator in 2^-48, tick of the latest update, in
holdover (03 R70, 14 R376-R380); the change held by R83, its earliest submission, the tick of the latest host step. -/
structure Wall where
  time : Int
  prev : Int
  trim : Int
  integ : Int
  lastUpd : Option Nat
  hold : Bool
  held : Option DomUpd
  nextOk : Nat
  stepAt : Option Nat
  deriving DecidableEq, Repr

def Wall.zero : Wall := ⟨0, 0, 0, 0, none, false, none, 0, none⟩

/-- A wall-time domain as a die other than die 0 holds it (03 R70, R82): time in 2^-48 ns, before the latest advance, trim. -/
structure WallCopy where
  time : Int
  prev : Int
  trim : Int
  deriving DecidableEq, Repr

def WallCopy.zero : WallCopy := ⟨0, 0, 0⟩

/-- Operations on a milestone entry waiting for the start of the next tick (03 R97, R98). -/
inductive MsOp where
  | load (words : List Word)
  | disarm
  | arm
  deriving DecidableEq, Repr

/-- Angle base of a die: domains, pending entry operations, entries due in this tick by R100, and for a recurring
entry the compare it was armed with and the number of its next occurrence (R90). -/
structure Ang where
  dom : List Domain
  anchors : List (Int × Nat)           -- anchor each domain took at the latest write of AD_ANCHOR_CYC (R102)
  wall : List WallCopy                 -- TD1-TD3 of a die other than die 0
  pendOps : List (Nat × MsOp)
  lateFire : List Nat
  origin : List (Nat × Int × Nat)
  reexamine : Bool
  deriving DecidableEq, Repr

/-! ### Angle tracker (04) -/

/-- A tracker channel beside its registers. Angles in 2^-48 turn, speeds in 2^-48 turn per tick. -/
structure Trk where
  n : Int                    -- line count, or edge count of QUAD (R108, R110)
  quad : Nat                 -- quadrant of the last good sample (R109)
  qa : Bool
  qb : Bool
  illegal : Bool             -- an illegal transition since the last sample (R110)
  reversed : Bool            -- a reversal or a first transition since the last sample (R121)
  tLast : Int
  interval : Nat
  ntrans : Nat
  frac : Nat                 -- interpolated fraction held in standstill (R113)
  win : List (Int × Int)     -- speed window, angles in 2^-32 turn with their ts, newest first (R120)
  badRun : Nat
  good : Nat                 -- good samples since the last update (R105)
  angle : Int
  freq : Int                 -- loop frequency of GRID (R117)
  coastAt : Option Int
  lockAt : Option Int
  started : Bool             -- a good sample was taken since the restart
  pendRestart : Bool
  words : List Word          -- TRK_CFG to TRK_GRID as the latest sample took them; none: OFF (R125)
  sampled : Option Int       -- tick of the latest sample (R104)
  qAt : Option Int           -- tick of the latest change of QA or QB
  deriving DecidableEq, Repr

def Trk.zero : Trk :=
  ⟨0, 0, false, false, false, false, 0, 0, 0, 0, [], 0, 0, 0, 0, none, none, false, false, [], none, none⟩

/-! ### Measurement front end (05) -/

/-- A measurement channel: captured bits newest first, bits since the restart, tick of the newest bit's edge, the tick from which edges
count since the restart, runs of the fast limits, the last latched value (R133-R139). -/
structure Mch where
  bits : List Bool
  n : Nat
  edge : Int
  since : Int
  hiRun : Nat
  loRun : Nat
  lastLatch : Option (BitVec 16)
  deriving DecidableEq, Repr

def Mch.zero : Mch := ⟨[], 0, 0, 0, 0, 0, none⟩

/-- A modulator clock: running, its DIV as it acts, a tick of its edge grid; a grid written and the tick of its first edge (R129, R132). -/
structure Sdc where
  run : Bool
  div : Nat
  org : Int
  next : Option (Nat × Int)
  deriving DecidableEq, Repr

def Sdc.zero : Sdc := ⟨false, 40, 0, none⟩

/-- The front end: channels, modulator clocks, and the words CH_CFG, CH_SCALE and CH_THR that channels written in the present tick still
act by (R138). -/
structure Mfe where
  ch : List Mch
  sdc : List Sdc
  held : List (Nat × Word × Word × Word)
  deriving DecidableEq, Repr

/-! ### Loop engines (06, 07) -/

/-- A word an instruction writes (06 R176): state memory at once, the others staged (07 R191, R192). -/
inductive OutDest where
  | stateWord (a : Nat)
  | slotWord (slot word : Nat)
  | ref (i : Nat)
  | remote (die slot word : Nat)
  | context (n field : Nat)
  deriving DecidableEq, Repr

/-- An instance of an engine (06 R147, 07 R184, R192). Accumulators are exact 40-bit signed values. -/
structure Inst where
  busy : Bool
  test : Bool                          -- held by the engine signature test (18 R482)
  slot : Nat
  pc : Nat
  coefB : Bool
  acc : List Int
  w : List (BitVec 16)
  z : Bool
  n : Bool
  v : Bool
  l : Bool
  wf : Bool
  dz : Bool
  staged : List (OutDest × BitVec 16)
  issues : Nat
  first : Int                          -- tick of its first issue (06 R162, R164)
  ending : Bool                        -- END was issued; the run ends when that issue is complete
  snap : Cells                         -- measurements and context fields as they stood when its slot started (01 R19)
  sp : List (BitVec 16)                -- set-point words its slot took at the boundary (07 R196)
  deriving DecidableEq, Repr

def Inst.idle : Inst :=
  ⟨false, false, 0, 0, false, [0, 0, 0, 0], List.replicate 16 0, false, false, false, false, false, false, [], 0, 0, false, [], [0, 0, 0, 0]⟩

/-- A set-point word's pending buffer and mark, the tick and rank of its latest write, and both as they stood before that tick (07 R194-R196).
Ranks: 0 a release, 1 an arrival from the fabric, 2 a host or context-page write. -/
structure SpWord where
  val : BitVec 16
  mark : Bool
  tick : Int
  rank : Nat
  oldVal : BitVec 16
  oldMark : Bool
  deriving DecidableEq, Repr

def SpWord.zero : SpWord := ⟨0, false, -1, 0, 0, false⟩

/-- A write of state memory by an issue not yet complete: the tick it is visible from, its slot, the address, the word (06 R155, R165). -/
structure Store where
  tick : Int
  slot : Nat
  addr : Nat
  val : BitVec 16
  deriving DecidableEq, Repr

/-- A loop slot beside its registers (06 R161-R173, 07 R194-R200); its condition stands in SLOT_STAT, its words in force in SPA. -/
structure Slot where
  tickAt : Int                         -- tick of the tick it waits or runs for
  ticked : Option Int                  -- ring tick in which it last received a tick (R159)
  casc : Nat                           -- inner ticks since the cascade count started, modulo D (R200)
  deferNext : Bool                     -- the next tick while throttling is deferred (R173)
  sp : List SpWord
  deriving DecidableEq, Repr

def Slot.zero : Slot := ⟨0, none, 0, false, List.replicate 4 SpWord.zero⟩

/-- The extents a loop program image declared (07 R190, 19 R495). -/
structure Extent where
  engine : Nat
  progAt : Nat
  pLen : Nat
  cLen : Nat
  sLen : Nat
  deriving DecidableEq, Repr

structure Le where
  inst : List Inst                     -- instance i of engine e at 8 e + i
  slot : List Slot
  en : Nat                             -- SLOT_EN in force (R158)
  extents : List Extent
  stores : List Store                  -- writes of issues not yet complete, oldest first
  hostW : List (Nat × Int)             -- state words the host wrote lately, with the tick (R156)
  turn0 : Int                          -- a tick in which instance 0 of each engine issues (R145)
  deriving DecidableEq, Repr

/-! ### Edge planner (08) -/

/-- A planned edge of B0: bypass mark, state code of R215, angle in 2^-32 turn. -/
structure PEdge where
  mark : Bool
  st : Nat
  angle : Int
  deriving DecidableEq, Repr

/-- A manifest of a plan: cell index in the group and its edges (R230). -/
structure PMan where
  cell : Nat
  edges : List PEdge
  deriving DecidableEq, Repr

/-- A request for a plan: the compares of its SWAP in 2^-32 turn, and the tick of the SWAP (R210, R212). -/
structure PReq where
  c : Int
  next : Int
  swapAt : Nat
  deriving DecidableEq, Repr

/-- A plan of one ring: its window, manifests, domain and lead time (R230, R232, R233). -/
structure Plan where
  a : Int
  aEnd : Int
  mans : List PMan
  dom : Nat
  lead : Nat
  deriving DecidableEq, Repr

/-- A cell's planning memory: last kept edge, begins its next window from BLOCK, was ACTIVE in the last plan (R216, R217). -/
structure PCell where
  lastEdge : Option Int
  fresh : Bool
  active : Bool
  deriving DecidableEq, Repr

def PCell.zero : PCell := ⟨none, true, false⟩

/-- What a planner holds of a member ring: voltages and offsets of its last complete pair of transfers, which of the two arrived since the
latest SWAP, and what they brought (R211, R212). -/
structure Member where
  volts : List (BitVec 16)
  ofs : List (BitVec 16)
  gotV : Bool
  gotO : Bool
  newV : List (BitVec 16)
  newO : List (BitVec 16)
  deriving DecidableEq, Repr

def Member.zero : Member := ⟨List.replicate 32 0, List.replicate 32 0, false, false, [], []⟩

/-- A cell as a plan leaves it: its index in the group, its edges, the state and last kept edge it ends with, ACTIVE in it. -/
structure PCellOut where
  k : Nat
  edges : List PEdge
  st : Nat
  lastEdge : Option Int
  active : Bool
  deriving DecidableEq, Repr

/-- A plan in progress, made from what stood at its start (R206, R212): window, domain, lead, group, cells, N_act, what it
sets at its end: a limit met, the cell cut last. -/
structure Running where
  a : Int
  aEnd : Int
  startAt : Nat
  dom : Nat
  lead : Nat
  group : Word
  cells : List PCellOut
  nAct : Nat
  clip : Bool
  cut : Option Nat
  cutFlt : Bool
  deriving DecidableEq, Repr

/-- A transfer of manifests to a member (R231): ring slot and its die, number of the plan, its window, domain and lead, the transfers it
takes in all, manifests of up to two waystations. -/
structure MTransfer where
  slot : Nat
  die : Nat
  plan : Plan
  id : Nat
  total : Nat
  deriving DecidableEq, Repr

structure Ep where
  cells : List PCell
  asked : Option PReq                  -- awaiting the members' transfers (R212)
  running : Option Running
  waiting : Option PReq                -- R214
  ready : List Plan                    -- complete plans of this die's ring, newest first
  ids : Nat                            -- plans sent to members so far
  out : List MTransfer                 -- member transfers still to send (R231)
  inbox : List MTransfer               -- a member's arrivals of the plan it is receiving
  member : List Member
  cfg : Option (Word × Word × Word)    -- EP_CFG, EP_GROUP, EP_TIMING as the latest plan start took them (R206)
  pat : Option (Int × List (Int × Int)) -- the pattern in force: its MB, its angles with the signs of their steps (R227)
  deriving DecidableEq, Repr

/-! ### Xanyon ring (09, 10) -/

/-- A class A slot assigned at the head: its start tick, what it carries (R250). -/
structure SlotAsg where
  start : Nat
  kind : Nat
  cid : Byte
  payload : List Byte
  deriving DecidableEq, Repr

/-- A caravan in flight: number, blocks, addressed and confirmed waystations, start of its last slot (10 R283). -/
structure Caravan where
  cid : Byte
  blocks : Nat
  addr : Word
  lastStart : Nat
  deriving DecidableEq, Repr

/-- A class B or C block queued or outstanding toward or from a waystation (09 R258-R260). -/
structure BcBlock where
  n : Nat
  cls : Nat
  kind : Nat
  payload : List Byte
  sent : Option Int                    -- tick its last symbol left; none while queued
  resends : Nat
  deriving DecidableEq, Repr

/-- A remote register access in progress (10 R292). -/
structure Remote where
  n : Nat
  write : Bool
  addr : Word
  data : Word
  host : Bool                          -- a host access; otherwise the head's own (17 R461, 21 R532)
  ackAt : Option Nat
  deriving DecidableEq, Repr

/-- A block a transmitter sends, and the tick its first symbol leaves in. -/
structure TxBlock where
  ring : Ring
  blk : RingBlock
  tick : Nat
  deriving DecidableEq, Repr

/-- A BLOCK to be sent: code, its time, copies still to send, the tick it claims slots from (10 R288). -/
structure BlockTx where
  code : Nat
  ticks : Nat
  left : Nat
  fromTick : Nat
  deriving DecidableEq, Repr

/-- The head end of a ring pair. -/
structure RingHead where
  breakA : List (Nat × Nat)            -- links of ring A down by BREAK, with the tick of the last one (R262)
  breakB : List (Nat × Nat)
  downAt : Nat × Nat                   -- ticks since which the own receivers have been up (R262)
  rxUp : Bool × Bool
  slots : List SlotAsg
  seq : Byte
  cid : Byte
  caravans : List Caravan
  enumWait : List Nat                  -- ENUM blocks waiting: the ticks they claim slots from (R254, R269)
  enumOut : Nat                        -- ENUM blocks sent and not yet returned
  dseq : Byte
  delayOut : Option Byte
  lastSync : Nat
  lastDelay : Nat
  stateOut : List (Nat × Nat)          -- STATE blocks waiting: code, tick of the change
  blockOut : Option BlockTx
  ctxQ : List (Nat × Nat × BitVec 16)  -- CTX_WRITE entries queued: waystation, field, value (10 R290)
  bcQ : List BcBlock
  txSeq : List (Nat × Nat × Nat)       -- waystation, class, next SEQ (R259)
  rxSeq : List (Nat × Nat × Nat)       -- waystation, class, expected SEQ
  acks : List (Ring × BitVec 16)       -- answers still to be written, with the ring their block arrived on (R259)
  remotes : List Remote                -- accesses of the ring, the first in progress (10 R292, 17 R461)
  alerts : List (Nat × Byte × Nat)     -- alerts seen, with their tick, for discarding repeats (R256)
  nbrSent : List (Nat × Nat)           -- tick of the latest write of each waystation's THM_NBR (17 R461)
  tx : List TxBlock                    -- what the transmitters carry in the present slot
  deriving DecidableEq, Repr

def RingHead.zero : RingHead :=
  { breakA := [], breakB := [], downAt := (0, 0), rxUp := (false, false), slots := [], seq := 0, cid := 0, caravans := [],
    enumWait := [], enumOut := 0, dseq := 0, delayOut := none, lastSync := 0, lastDelay := 0, stateOut := [], blockOut := none, ctxQ := [],
    bcQ := [], txSeq := [], rxSeq := [], acks := [], remotes := [], alerts := [], nbrSent := [], tx := [] }

/-- A fault report still to be written into ALERT fields: source byte, writes left on ring A and B (09 R256). -/
structure Report where
  src : Byte
  leftA : Nat
  leftB : Nat
  deriving DecidableEq, Repr

/-- The waystation end of a ring pair. Fine units are 156.25 ps. -/
structure RingNode where
  dHist : List (Byte × Int)            -- D of the last two DSEQ (10 R272)
  dOpen : Option (Byte × Option Int × Option Int)
  l : Option (Nat × Byte)
  ra : Option Int
  rb : Option Int
  timeSet : Bool
  syncAt : Option Int                  -- tick of the latest SYNC
  syncSeq : Option Byte                -- SEQ of the SYNC already taken (first good copy)
  syncIdx : Nat                        -- the multiple of 8,000 ticks of the SYNC taken last (10 R273, R275)
  adjust : Option (Int × Bool)         -- correction of ring time due at the next slot boundary; true for a step (10 R274)
  rmode : Nat
  size : Nat                           -- NODES of the latest SYNC
  linksA : BitVec 40
  linksB : BitVec 40
  lastHm : Int                         -- tick of the last good block with HM at 1 (09 R264)
  silentAt : Option Int                -- ring-silence block in force since this tick (11 R319)
  stateSeen : Bool                     -- a STATE naming a switching state came since the silence began
  seqA : Option Byte                   -- latest good class A SEQ on each ring (09 R255)
  seqB : Option Byte
  recv : List Byte                     -- SEQs of good class A blocks received and not yet judged (09 R255)
  got : List (Byte × Int)              -- SEQs whose content was taken, with the tick (09 R255)
  lostFrom : Option Byte
  reports : List Report
  upQ : List Nat                       -- up fields queued for CTX_DATA (10 R291)
  txSeq : List (Nat × Nat)             -- class, next SEQ toward the head
  rxSeq : List (Nat × Nat)             -- class, expected SEQ from the head
  bcQ : List BcBlock
  acks : List (Ring × BitVec 16)       -- answers still to be written, with the ring their block arrived on (09 R259)
  inserted : Nat                       -- own blocks in the present round (09 R249)
  round : Nat
  cids : List (Byte × Nat × Int)       -- CID, bridge and tick of manifests already taken (10 R282)
  tx : List TxBlock
  rxUp : Bool × Bool
  nextImg : Nat × Nat                  -- node image: inner index, next expected byte (21 R531)
  deriving DecidableEq, Repr

def RingNode.zero : RingNode :=
  { dHist := [], dOpen := none, l := none, ra := none, rb := none, timeSet := false, syncAt := none, syncSeq := none, syncIdx := 0,
    adjust := none, rmode := 0, size := 0, linksA := 0, linksB := 0, lastHm := 0, silentAt := none, stateSeen := false, seqA := none, seqB := none, recv := [],
    got := [], lostFrom := none, reports := [], upQ := [], txSeq := [], rxSeq := [], bcQ := [], acks := [], inserted := 0,
    round := 0, cids := [], tx := [], rxUp := (false, false), nextImg := (0, 0) }

/-! ### Cell role and bridge guard (11, 12) -/

/-- An edge of a manifest at the node: mark, state, stamp in fine units (10 R279, R280). -/
structure MEdge where
  mark : Bool
  st : Nat
  stamp : Int
  deriving DecidableEq, Repr

structure Manifest where
  cid : Byte
  edges : List MEdge
  expiry : Int
  deriving DecidableEq, Repr

/-- Commands asked of a bridge: P, N, Z (11 R299). -/
structure Pnz where
  p : Bool
  n : Bool
  z : Bool
  deriving DecidableEq, Repr

/-- What a bridge was before the commands of a tick, for a block of the same tick that goes before them (11 R321): the tick, the zero it took
and the next one, BYPASS changes due; its source command, if a manifest edge changed it. -/
structure Undo where
  tick : Int
  zUpper : Bool
  zNext : Bool
  bypass : List (Int × Bool)
  edgeSrc : Option Pnz
  deriving DecidableEq, Repr

/-- A bridge: its source command, whether it is blocked until its next command, manifests, an edge to apply late (11 R310), the command the
DAB still owes B2 (11 R313), when SLOW rises and falls (12 R330), its pins as accepted (11 R317). -/
structure Bridge where
  src : Pnz
  idle : Bool                          -- blocked until its next command change (R306, R309, R310, R314, R320)
  zUpper : Bool                        -- the present zero is the upper one (R300)
  cur : Option Manifest
  next : Option Manifest
  lateAt : Option (Nat × MEdge)
  owe : Option (Int × Pnz)             -- B2: position of its edge in 2^-48 turn, its command
  slowAt : Option Int                  -- tick at which SLOW rises
  slowEnd : Option Int                 -- tick at which SLOW falls
  pin : Pnz
  undo : Option Undo
  missed : Option (Int × MEdge)        -- an edge that a block kept from acting in a tick, and the tick (R321)
  deriving DecidableEq, Repr

def Bridge.zero : Bridge :=
  { src := ⟨false, false, false⟩, idle := true, zUpper := true, cur := none, next := none, lateAt := none, owe := none, slowAt := none,
    slowEnd := none, pin := ⟨false, false, false⟩, undo := none, missed := none }

/-- A hold that a source change cleared: the tick of the change, the tick the hold began, its off window ended by R339, own trip. -/
structure Freed where
  tick : Int
  heldAt : Int
  offDone : Bool
  own : Bool
  deriving DecidableEq, Repr

/-- A leg: what is commanded on; for each switch the instant it may rise at, the one it falls at and the one it last went low at, in fine units
(11 R301); blanking start, the ticks from which and until which a gate ball has been high (12 R326, R327); hold, own trip, history, the
carrier words taken at the last peak, the tick its gates fall by a trip (11 R315; 12 R330-R338). -/
structure Leg where
  up : Bool
  lo : Bool
  upRise : Option Int
  loRise : Option Int
  upFall : Option Int
  loFall : Option Int
  upLowAt : Int
  loLowAt : Int
  srcUp : Bool                         -- source command in direct leg mode (12 R334)
  srcLo : Bool
  wait : Nat                           -- direct leg mode: 1 waits for a carrier boundary (11 R306), 2 for a peak (11 R320)
  peakAt : Option Int                  -- tick of the latest carrier boundary at which it took its words
  blankAt : Option Int
  high : Option (Int × Option Int)
  heldAt : Option Int
  offDone : Bool                       -- its off window is over, whatever MIN_OFF says (R339)
  own : Bool
  ownAt : Option Int                   -- tick of its latest own trip
  tripAt : Option Int                  -- tick of the latest trip that held it
  freed : Option Freed
  hist : List Int
  hk : BitVec 16
  lk : BitVec 16
  fallAt : Option Int
  words : List (Int × Word)            -- BG_LEG as it acted lately, with the tick it acts from, newest first (12 R341)
  gfltFrom : Int                       -- tick from which GFLT_EN is set
  deriving DecidableEq, Repr

def Leg.zero : Leg :=
  { up := false, lo := false, upRise := none, loRise := none, upFall := none, loFall := none, upLowAt := 0, loLowAt := 0, srcUp := false,
    srcLo := false, wait := 0, peakAt := none, blankAt := none, high := none, heldAt := none, offDone := false, own := false, ownAt := none, tripAt := none,
    freed := none, hist := [], hk := 0, lk := 0, fallAt := none, words := [], gfltFrom := 0 }

/-- The bridges and legs; changes of BYPASS due, with their instants (11 R311); the tick from which pins are followed again (11 R320); the tick
of the first-trip record (12 R333). -/
structure Bg where
  bridge : List Bridge
  leg : List Leg
  bypass : List (Int × Bool)
  follow : Option Int
  recAt : Option Int
  deriving DecidableEq, Repr

/-! ### Clocks (13) -/

/-- Clock block: holdover windows (start, length in ticks), dither register, settings in force (applied from the shadows
by UPDATE), spread triangle start, and the two references: present, straps REFSEL and BOOT0 as read. -/
structure Clk where
  holdT : Option (Int × Nat)
  holdF : Option (Int × Nat)
  lfsr : Word
  applied : List Word                  -- TPLL_SH, FPLL_SH, FPLL_OUT_SH, SPREAD_SH, DITHER_SEED_SH in force
  update : Option (List Word)          -- an accepted UPDATE due at the next phase-detector edge (R352)
  spread : Option (Int × Nat)          -- the running spread triangle: its start in 1/163,680 tick, and the SPREAD_SH word it follows (R354)
  started : Bool                       -- the TPLL has locked since reset (R350)
  fgated : Bool                        -- the FPLL is lost and not yet relocked (R362)
  refsel : Bool
  boot0 : Bool
  role : BitVec 2
  deriving DecidableEq, Repr

def Clk.zero : Clk := ⟨none, none, 1, [0, 0, 0, 0, 0], none, none, false, false, false, false, 0⟩

/-! ### Station port (14) -/

/-- What a port last transmitted. Times are in 2^-48 ns. -/
inductive NetTx where
  | none
  | arpReply (dst mac : BitVec 48)
  | mgmtResponse (dst : BitVec 48) (udp : Option (Word × BitVec 16)) (bytes : List Byte)
  | supervision
  | ptp (m : PtpSend) (dst : BitVec 48) (seq : BitVec 16) (origin followUp : Option Int)
  | ptpResponse (peer : Bool) (dst : BitVec 48) (receipt : Int) (sent : Option Int)
  | forwarded (f : EthFrame) (added : Option Int)
  | telegram (c : Nat) (bytes : List Byte)
  deriving DecidableEq, Repr

/-- The redundancy control trailer or HSR tag of a frame sent (14 R372): LanId 0xA or 0xB. -/
structure RedTag where
  hsr : Bool
  seq : BitVec 16
  lan : Nat
  size : Nat
  deriving DecidableEq, Repr

/-- A frame that a port kept for its handler (14 R369, R373). -/
structure Kept where
  source : BitVec 48
  sequence : Option (BitVec 16)
  tick : Nat
  udp : Option (Word × BitVec 16)
  payload : List Byte
  deriving DecidableEq, Repr

/-- Handlers of frames other than PTP and supervision (14 R369). -/
inductive Handler where
  | arp | safety | management
  deriving DecidableEq, Repr

/-- The latest Announce a port heard (14 R382, R383). -/
structure Announce where
  clock : PtpClock
  utc : BitVec 16
  tick : Nat
  deriving DecidableEq, Repr

/-- A station port beside its registers. Times are in 2^-48 ns. -/
structure Net where
  dups : List (BitVec 48 × BitVec 16 × Nat × Nat)   -- source, sequence, port and tick the entry was made (R373); on die 0
  kept : List (Handler × Kept)         -- frames kept by the port, in order
  requests : List (Nat × Kept)         -- management requests that reached the register agent, by port (R390); on die 0
  redSeq : BitVec 16                   -- sequence number of the next frame sent on both ports (R372); on die 0
  mdio : Option (Nat × Bool × BitVec 5 × BitVec 5 × BitVec 16)   -- the frame in progress with its start
  ann : Option Announce
  listenAt : Nat                       -- since when the port listens for an Announce
  syncIn : Option (BitVec 16 × Int × Int)   -- a two-step Sync that awaits its Follow_Up: sequence, ingress, correction
  syncTrip : Option Int                -- ingress less origin and corrections of the latest Sync
  reqOut : Option (BitVec 16 × Int)    -- the delay request sent last: sequence, egress
  respIn : Option (BitVec 16 × Int)    -- a two-step Pdelay_Resp that awaits its follow-up
  mpd : Int                            -- mean path delay of the port
  ptpSeq : BitVec 16
  lastPps : Option Nat
  ppsRise : Option Int                 -- instant at which PPS_OUT is to rise (R386), in fine units
  ppsHigh : Option Int                 -- instant at which it rose
  lastLife : Nat
  lastSend : List Nat                  -- ticks of the last Sync, Announce, Pdelay_Req, Delay_Req (R381)
  tagged : Bool                        -- the last frame sent carried a tag (R370)
  red : Option RedTag                  -- its redundancy trailer or tag (R372)
  tx : NetTx
  deriving DecidableEq, Repr

def Net.zero : Net :=
  ⟨[], [], [], 0, none, none, 0, none, none, none, none, 0, 0, none, none, none, 0, [0, 0, 0, 0], false, none, .none⟩

/-! ### Safety block (15, 16) -/

/-- A channel's image of one cycle, with the boundary that ended the cycle (15 R415, 16 R431, R440). -/
structure Image where
  tick : Nat
  si : Nat
  fb : Nat
  fn : Word
  out : Nat
  lockout : Bool
  cause : Nat
  sig : Nat
  rstReq : Bool
  req : Nat
  prod : List (Nat × List Byte)        -- telegrams formed at this boundary, by connection
  deriving DecidableEq, Repr

/-- Why a channel is in lock-out (15 R425 LO_CAUSE, 16 R444), with LO_WHERE. -/
structure SafFault where
  cause : Nat
  place : Nat
  tick : Nat                           -- the sample it was detected at
  deriving DecidableEq, Repr

/-- A safety connection beside its registers (16 R432-R435). -/
structure Conn where
  tv : Nat
  td : Nat
  first : Bool                         -- a telegram passed steps 1 to 3 in the present state
  data : List Byte
  sent : Option (List Byte × Nat)      -- producer: data last sent and its boundary
  deriving DecidableEq, Repr

def Conn.zero : Conn := ⟨0, 0, false, [], none⟩

/-- What is judged once a sample is complete, all of its inputs being there: the readback of an output, its feedback, the level in the last
dark sample of its test pulse, and a reset asked for (15 R410, R412, R414, 16 R440). -/
inductive SafCheck where
  | readback (j : Nat) (level : Bool)
  | feedback (j : Nat)
  | dark (j : Nat) (level : Bool)
  | ask
  deriving DecidableEq, Repr

/-- A safety channel beside its registers (15, 16). -/
structure Saf where
  run : List (Bool × Nat)              -- SI0-15 then FB0-7: level of the present run of raw samples, its length (15 R399)
  rawAt : List (Option Nat)            -- tick of the latest raw sample of each input
  hist : List (Nat × Nat)              -- accepted values and REMOTE values as they changed, newest first: sample, values
  disc : List (Option (Nat × Bool))    -- discrepancy: start, fault already raised; function f at f, second hand at 16 + f (R404)
  hand : List (Option Nat)             -- first hand actuated at (15 R407)
  released : List Bool                 -- both hands were released since the function last left CLEAR or the channel started
  rise : List (Option Nat)             -- reset pulse: sample at which IN0 rose (16 R439)
  longDone : List Bool
  accepted : List (Nat × Nat)          -- RESET functions whose pulse was accepted since the latest boundary, with its sample
  acceptedPrev : List Nat              -- and in the cycle before it
  faults : List SafFault               -- detected at samples since the latest boundary (15 R419 step 2)
  faultsPrev : List SafFault
  cross : List SafFault                -- detected by the cross-compare of the latest images (15 R416)
  outAt : List (Option Nat)            -- boundary of each output command's last change
  lvlAt : List (Option Nat)            -- tick of each output ball's last change
  dark : List (Option (Nat × Bool))    -- output pulse: its start, result still valid (15 R412, R413)
  tpDark : List (Option Nat)           -- test output pulse: its start (15 R400); on die 0
  mism : List Nat                      -- consecutive readback mismatches (15 R410)
  checks : List SafCheck               -- of this tick's sample
  own : Option Image
  peer : Option Image
  met : Bool                           -- the peer's image of the latest cycle arrived in time, or its absence is a fault already (15 R416)
  diff : Nat                           -- consecutive compared images that differ (15 R416)
  rst : Nat                            -- images RESET_REQ is still carried in (16 R440)
  rstNew : Option Nat                  -- sample at which a RESET_REQ was raised that no image carries yet
  newReq : Nat                         -- output request taken at the latest boundary (15 R409)
  cycleAt : Nat                        -- latest boundary
  cfgPend : Option (Nat × Nat)         -- first and last guarded write accepted since that boundary (15 R420)
  cfgNew : Bool                        -- the configuration has not stood at a boundary yet (15 R406)
  soft : Option Nat                    -- SOFT_RESET since that boundary (15 R425)
  trip : Bool                          -- lock-out, or a function of TRIP_FN not CLEAR, at the latest cycle end (15 R424)
  inbox : List (Nat × List Byte)       -- telegrams handed over and not yet taken, with the tick each reached the MAC (14 R388)
  conn : List Conn
  deriving DecidableEq, Repr

def Saf.zero : Saf :=
  { run := List.replicate 24 (false, 0), rawAt := List.replicate 24 none, hist := [], disc := List.replicate 32 none, hand := List.replicate 16 none,
    released := List.replicate 16 false, rise := List.replicate 16 none, longDone := List.replicate 16 false,
    accepted := [], acceptedPrev := [], faults := [], faultsPrev := [], cross := [], outAt := List.replicate 8 none,
    lvlAt := List.replicate 8 none, dark := List.replicate 8 none, tpDark := List.replicate 4 none,
    mism := List.replicate 8 0, checks := [], own := none, peer := none, met := true, diff := 0, rst := 0, rstNew := none, newReq := 0, cycleAt := 0,
    cfgPend := none, cfgNew := true, soft := none, trip := true, inbox := [], conn := List.replicate 32 Conn.zero }

/-! ### Faults, temperature, self-test, security, recorder -/

/-- A fault record: code, waystation field, tick (17 R448). -/
structure Record where
  code : Nat
  ws : Nat
  tick : Nat
  deriving DecidableEq, Repr

/-- The collector of a die: sources present (page * 16 + index; fabric 0x08, 0x09), those that arrived and are not yet
judged (code, waystation), R35 in force, sources present in one tick only (17 R446-R450). -/
structure Flt where
  present : List Nat
  arriving : List (Nat × Nat)
  noClear : Bool
  pulses : List (Nat × Nat)            -- sources present in one tick only: number, tick
  deriving DecidableEq, Repr

/-- Temperature levels: starts of the set and release runs of WARNING, THROTTLE, SHUTDOWN; start of the agreement window;
recent raw readings; tick of the neighbours' values on a node (17 R459-R463). -/
structure Thm where
  setAt : List (Option Int)
  relAt : List (Option Int)
  agreeAt : Option Int
  raws : List Int                      -- readings of the last ten samples, newest first
  sampled : Option Int                 -- tick of the latest sample
  wasSuspect : Bool                    -- suspect before that sample
  nbrAt : Int
  deriving DecidableEq, Repr

def Thm.zero : Thm := ⟨[none, none, none], [none, none, none], none, [], none, false, 0⟩

/-- Self-test of a die (18): start of the slice in progress (its macro and slice stand in PAGE_STATUS), next slice, start of the
latest one, the present one is a retest, start of the pass and slices completed in it; engine and instance under test, whether
it gave its instance up, whether the target is to be tested again, latest target and tick it became one; macro whose repairs
are being fused; tick of the latest patrol read. -/
structure Bist where
  slice : Option Int                   -- the tick a slice began; the ticks it lent to accesses, and the last of them (18 R472)
  lent : Nat
  lentAt : Int
  nextMacro : Nat
  nextSlice : Nat
  lastAt : Option Int
  retest : Bool
  passAt : Int
  done : Nat
  eng : Option (Nat × Nat)             -- engine and instance under test; the tick of the test's first issue (18 R482)
  engFirst : Int
  again : Bool
  target : Nat
  engAt : Int
  burn : Option (Nat × List (Nat × Nat × Nat))   -- macro; REPAIR entry, kind and index of each repair burned; since when (18 R480)
  burnAt : Int
  patrolAt : Option Int
  failing : List Nat                   -- engines that failed and have not passed a complete test since (18 R486)
  deriving DecidableEq, Repr

def Bist.zero : Bist := ⟨none, 0, 0, 0, 0, none, false, 0, 0, none, 0, false, 5, 0, none, 0, none, []⟩

/-- Security block (19): fuses; fuse bits 1,216 to 2,755 of die 0 as BOOT copied them; words of the load in progress, newest
first, and its TYPE; digests of TYPE 1 to 4; command key; operation in progress (OP, its RESULT, and the key it establishes or
the report it signed); owner burn in progress (OP, slot, value) and since when. -/
structure Sec where
  fuses : BitVec 4096
  copied : BitVec 1540
  words : List Word
  type : Nat
  digest : List (List Byte)
  key : Option (List Byte)
  op : Option (Nat × Nat × List Byte)
  burn : Option (Nat × Nat × Nat)
  burnAt : Int
  ok : List Bool                       -- by TYPE: the latest load ended with RESULT 0 (none loaded: true)
  got4 : Bool                          -- the latest TYPE 4 load ended with RESULT 0 (21 R530)
  dest4 : Nat                          -- DEST of that container (21 R529)
  deriving DecidableEq, Repr

def Sec.zero : Sec :=
  ⟨0, 0, [], 0, List.replicate 4 (List.replicate 48 0), none, none, none, 0, List.replicate 8 true, false, 0⟩

/-- Recorder: DRAM data bytes (unlisted: 0) and the lines written since power-up; the ledger's page being written, lines
used in it, sequence number, first grid tick of each page; records of the present line; capture in force; a node's CAPTURE
queue and records of the block being filled (20). -/
structure Rec where
  dram : List Host.Cell
  written : List Nat
  page : Nat
  count : Nat                          -- records in the present page
  seq : Nat
  pages : List (Nat × Nat × Nat)       -- page, grid tick of its first and of its latest record; newest first
  queue : List (List Byte)
  fill : List (Nat × List (BitVec 16)) -- records awaiting their block: tick and eight words, oldest first
  lost : Bool
  latched : Bool
  fillLost : Bool                      -- records were lost before the block being filled (20 R514)
  overTo : Option Nat                  -- latest grid tick of a record that wrapping has overwritten since the ledger left OFF (20 R517)
  recAt : Option Int                   -- the tick of the latest record of the stream (20 R513)
  deriving DecidableEq, Repr

def Rec.zero : Rec := ⟨[], [], 0, 0, 0, [], [], [], false, false, false, none, none⟩

/-- The transfer of node images to one waystation (21 R530-R532): the inner image, the next byte to queue, and how far it is:
0 blocks are being sent, 1 the last is queued, 2 its IMG_STAT is being read, 3 the next inner image may be sent. -/
structure NimgWs where
  ws : Nat
  inner : Nat
  next : Nat
  phase : Nat
  polled : Nat                         -- tick of the latest read of its IMG_STAT
  deriving DecidableEq, Repr

/-- Node image transfer of a die: waystations in progress. -/
structure Nimg where
  left : List NimgWs
  deriving DecidableEq, Repr

/-- What a fabric transfer carries (02 R65), by use. -/
inductive FabPayload where
  | setPoints (slot : Nat) (words : List (Nat × BitVec 16))    -- kind 2 words for one slot (07 R193)
  | memberVolts (volts : List (BitVec 16))                     -- a member's voltages (08 R211)
  | memberOffsets (ofs : List (BitVec 16))                     -- a member's OFS words (08 R211)
  | manifests (t : MTransfer)                                  -- manifests for a member (08 R231)
  | telegram (tick : Nat) (bytes : List Byte)                  -- a safety telegram for the other channel, with its arrival (14 R388)
  | request (f : Kept)                                         -- a management request for die 0 (14 R390)
  | other                                                      -- a transfer of another use, known to its block only
  deriving DecidableEq, Repr

/-- A tollgate: the source die it last granted, and the source port of each die it last granted (02 R64). -/
structure Gate where
  die : Nat
  ports : List Nat
  deriving DecidableEq, Repr

/-- A tollgate that has granted nothing starts from die 0, and from port 0 of each die. DESIGN CHOICE, log entry 79. -/
def Gate.zero : Gate := ⟨7, List.replicate 8 7⟩

/-- Fabric end of a die: transfers made in the present admission window per reservation entry (02 R61), and the tollgates of its square:
MINUS, PLUS, ROW, the local ports. -/
structure Fab where
  window : Nat
  sent : List (Nat × Nat)
  gates : List Gate
  deriving DecidableEq, Repr

def Fab.zero : Fab := ⟨0, [], List.replicate 4 Gate.zero⟩

/-- A transfer on the fabric (02 R58-R64): source die and port, destination die, class (0 A, 1 B, 2 C), tick of its submission, the die
whose square it stands in, the tick from which it waits there, its content. -/
structure FabXfer where
  src : Nat
  port : Nat
  dst : Nat
  cls : Nat
  born : Nat
  die : Nat
  ready : Nat
  what : FabPayload
  deriving DecidableEq, Repr

/-- One die. -/
structure Die where
  cells : Cells
  booted : Bool
  bootAt : Nat                         -- the tick the die entered BOOT (21 R527)
  gated : Bool                         -- its timing domains are gated (13 R359)
  hold : Bool                          -- in its reset hold (21 R524)
  fab : Fab
  ang : Ang
  trk : List Trk
  mfe : Mfe
  le : Le
  ep : Ep
  head : RingHead
  node : RingNode
  bg : Bg
  clk : Clk
  net : Net
  saf : Saf
  flt : Flt
  thm : Thm
  bist : Bist
  sec : Sec
  recorder : Rec
  nimg : Nimg
  deriving DecidableEq, Repr

def Ang.zero : Ang := ⟨List.replicate 8 Domain.zero, List.replicate 8 (0, 0), List.replicate 3 WallCopy.zero, [], [], [], false⟩
def Mfe.zero : Mfe := ⟨List.replicate 16 Mch.zero, List.replicate 4 Sdc.zero, []⟩
def Le.zero : Le := ⟨List.replicate 48 Inst.idle, List.replicate 64 Slot.zero, 0, [], [], [], 13⟩
def Ep.zero : Ep := ⟨List.replicate 128 PCell.zero, none, none, none, [], 0, [], [], List.replicate 3 Member.zero, none, none⟩
def Bg.zero : Bg := ⟨List.replicate 3 Bridge.zero, List.replicate 6 Leg.zero, [], none, none⟩
def Flt.zero : Flt := ⟨[], [], false, []⟩

/-- A die in reset: every register and memory at its reset value (21 R525), in its reset hold. -/
def Die.zero : Die :=
  { cells := [], booted := false, bootAt := 0, gated := false, hold := true, fab := Fab.zero, ang := Ang.zero,
    trk := List.replicate 4 Trk.zero, mfe := Mfe.zero, le := Le.zero, ep := Ep.zero, head := RingHead.zero,
    node := RingNode.zero, bg := Bg.zero, clk := Clk.zero, net := Net.zero, saf := Saf.zero, flt := Flt.zero,
    thm := Thm.zero, bist := Bist.zero, sec := Sec.zero, recorder := Rec.zero, nimg := ⟨[]⟩ }

/-- The output balls that are no register of the map (21 R521). Bit k of `gh` is GHk, and so on. -/
structure Pins where
  permit : Bool
  ppsOut : Bool
  bypass : Bool
  gh : BitVec 6
  gl : BitVec 6
  slow : BitVec 3
  soa : BitVec 8
  sob : BitVec 8
  tp : BitVec 4
  deriving DecidableEq, Repr

def Pins.low : Pins := ⟨false, false, false, 0, 0, 0, 0, 0, 0⟩

/-- The balls of the boundary register by their head names (22 R538, R542). -/
inductive Ball where
  | si (i : Nat) | sdd (i : Nat) | sdc (i : Nat) | fb (i : Nat) | soa (i : Nat) | sob (i : Nat) | tp (i : Nat) | pulse (i : Nat)
  | qio (i : Nat) | role (i : Nat) | qck | qcsN | mdc | mdio | resetN | permit | refsel | boot0 | ppsIn | ppsOut | clkOut
  deriving DecidableEq, Repr

/-- The states of the test access port's controller (22 R542, IEEE 1149.1). -/
inductive TapState where
  | reset | idle | selectDr | captureDr | shiftDr | exit1Dr | pauseDr | exit2Dr | updateDr
  | selectIr | captureIr | shiftIr | exit1Ir | pauseIr | exit2Ir | updateIr
  deriving DecidableEq, Repr

/-- What the board does at the test access port: a TCK cycle with the levels of TMS and TDI, or TRST_N low. -/
inductive TapIn where
  | clock (tms tdi : Bool)
  | trst
  deriving DecidableEq, Repr

/-- The test access port (22 R542). `waiting` holds the cycles the board is about to apply, first in, first out. -/
structure Tap where
  state : TapState
  ir : BitVec 4
  irShift : BitVec 4
  bypass : Bool
  shift : List Bool                    -- the boundary register, TDO's end first
  update : List Bool                   -- its update stage
  tdo : Bool
  waiting : List TapIn
  phase : Nat                          -- ticks until the next TCK cycle may begin
  deriving DecidableEq, Repr

def Tap.zero : Tap := ⟨.reset, 15, 0, false, [], [], false, [], 0⟩

/-- The register port: data and marker of the last frame (02 R44). -/
structure Port where
  data : Word
  marker : BitVec 4
  deriving DecidableEq, Repr

/-- One part of the family. `free` counts the open values taken so far (the model's own field). -/
structure State where
  part : Part
  device : DevState
  last : DevState
  changes : BitVec 16
  arming : Option (DevState × Nat)
  movedAt : Option Nat                 -- tick of the latest transition (01 R34)
  movedBy : Option DevState            -- the state before that transition, if a host command made it
  cmds : List Nat                      -- targets written to STATE_CMD, taking effect at the next tick (01 R37)
  td0 : Nat
  td0Prev : Nat                        -- TD0 before its latest advance or step (03 R91, R93)
  fine : Nat
  wall : List Wall
  mirrors : List Mirror
  fabric : List FabXfer                -- transfers in the squares and on the links, oldest submission first
  sum : Cells
  sumPend : Nat
  port : Port
  pins : Pins
  tap : Tap
  pads : List (Bool × Nat)             -- level and drive code in force of each ball of the boundary register (22 R551, R552)
  bus : List (Nat × Record)            -- local records on the fault bus, with their die (17 R449)
  trig : List (Nat × Nat)              -- triggers by TRIG: tick each acts in, capture (20 R517)
  rearmAt : List Nat                   -- ticks in which a REARM acts (20 R518)
  dies : List Die
  misused : List (Nat × Nat × Nat)     -- host misuses that stand: rule, die, page of the block concerned (00 R14)
  free : Nat
  pending : List Instr
  deriving DecidableEq, Repr

/-- A part of a given kind right after reset: supplies good, reset hold not yet ended, nothing loaded.
DESIGN CHOICE, log entry 2. DESIGN CHOICE, log entry 3. -/
def State.resetOf (p : Part) : State :=
  { part := p, device := .reset, last := .off, changes := 0, arming := none, movedAt := none, movedBy := none, cmds := [], td0 := 0,
    td0Prev := 0, fine := 0, wall := List.replicate 3 Wall.zero, mirrors := [], fabric := [], sum := [], sumPend := 0, port := ⟨0, 0⟩, pins := Pins.low,
    tap := Tap.zero, pads := [], bus := [], trig := [], rearmAt := [], misused := [], dies := List.replicate p.dies Die.zero, free := 0, pending := [] }

/-- The machine right after reset: the KLD-4H of the manual's running example (DESIGN CHOICE, log entry 2).
DESIGN CHOICE, log entry 3. -/
def State.reset : State := State.resetOf .kld4h

end Sys2Proof.Machine
end

