-- ==== Sys2Proof/Machine/Ops.lean ====
section
/-! DEFINITION. Named operations over the state: bit fields, the sorted word store, registers by name, sticky bits,
open values, and the two ways a command can end. -/

namespace Sys2Proof.Machine

abbrev Res := Host.Outcome State Fault Refusal

/-! ### Bits -/

/-- Bits hi to lo of a number. -/
def bitsOf (n hi lo : Nat) : Nat := (n / 2 ^ lo) % 2 ^ (hi + 1 - lo)

/-- Bit i of a number. -/
def bitOf (n i : Nat) : Bool := (n / 2 ^ i) % 2 == 1

/-- A word with bits hi to lo replaced by the low bits of v. -/
def setBits (w : Word) (hi lo v : Nat) : Word :=
  let m := 2 ^ (hi + 1 - lo)
  BitVec.ofNat 32 (w.toNat - bitsOf w.toNat hi lo * 2 ^ lo + v % m * 2 ^ lo)

/-- Two's complement reading of an n-bit number. -/
def sx (bits n : Nat) : Int := if n % 2 ^ bits < 2 ^ (bits - 1) then ((n % 2 ^ bits : Nat) : Int) else ((n % 2 ^ bits : Nat) : Int) - 2 ^ bits

/-- The n-bit two's complement pattern of an integer. -/
def ux (bits : Nat) (i : Int) : Nat := (i % 2 ^ bits).toNat

/-- Saturation to a signed width. -/
def satS (bits : Nat) (i : Int) : Int := max (-(2 ^ (bits - 1))) (min (2 ^ (bits - 1) - 1) i)

/-- Saturation of a count to an unsigned width. -/
def satU (bits n : Nat) : Nat := min n (2 ^ bits - 1)

def bnat (b : Bool) : Nat := if b then 1 else 0

/-- Set bits of a number below n, ascending. -/
def bitList (n w : Nat) : List Nat := (List.range n).filter (fun i => bitOf w i)

/-- Number with exactly the listed bits set. -/
def ofBits (p : Nat → Bool) : Nat → Nat
  | 0 => 0
  | n + 1 => ofBits p n + (if p n then 2 ^ n else 0)

/-- Bytes of a number, most significant first (00 R6). -/
def beBytes : (count n : Nat) → List Byte
  | 0, _ => []
  | k + 1, n => beBytes k (n / 256) ++ [BitVec.ofNat 8 n]

/-- Number of a byte string, most significant first (00 R6). -/
def beNat (l : List Byte) : Nat := l.foldl (fun n b => n * 256 + b.toNat) 0

/-- Bytes [at, at+n) of a list. -/
def slice {α : Type} (l : List α) (start n : Nat) : List α := (l.drop start).take n

/-- An element of a list replaced, when it is there. -/
def setAt {α : Type} (l : List α) (i : Nat) (f : α → α) : List α := l.modify i f

/-- Insertion of an element in an ordered list, before the first it does not come after. -/
def insertBy {α : Type} (le : α → α → Bool) (a : α) : List α → List α
  | [] => [a]
  | b :: t => if le a b then a :: b :: t else b :: insertBy le a t

/-- A list in order; equal elements keep their order. -/
def sortBy {α : Type} (le : α → α → Bool) : List α → List α
  | [] => []
  | a :: t => insertBy le a (sortBy le t)

/-- The number congruent to `low` modulo m that is nearest to t. -/
def nearestTo (m low t : Nat) : Nat :=
  let b := t / m * m + low % m
  if 2 * t + m < 2 * b ∧ m ≤ b then b - m else if 2 * b + m < 2 * t then b + m else b

/-! ### The angle of a vector -/

/-- A vector scaled down while it is long. -/
def shrink (z : Int × Int) : Int × Int :=
  if z.1.natAbs < 2 ^ 256 && z.2.natAbs < 2 ^ 256 then z else (z.1.tdiv (2 ^ 128), z.2.tdiv (2 ^ 128))

/-- The first `bits` binary digits of atan2(s, c) / 2π in [0, 1), as a whole number: each digit says whether the angle lies in the second half
turn, and squaring the vector doubles its angle. Rounded down; of the zero vector 0 (log entry 30). -/
def turnOf : (bits : Nat) → (s c : Int) → Nat
  | 0, _, _ => 0
  | n + 1, s, c =>
    let far := decide (s < 0) || (s == 0 && decide (c < 0))
    let z := shrink (shrink (shrink (2 * s * c, c * c - s * s)))
    (if far then 2 ^ n else 0) + turnOf n z.1 z.2

/-- The square root of 3 in units of 2^-64, rounded down. -/
def sqrt3 : Int := 31950697969885030203

/-! ### CRCs -/

/-- One bit of a reflected CRC. -/
def crcBit (poly c : Nat) : Nat := if c % 2 == 1 then (c / 2) ^^^ poly else c / 2

def crcByte (poly c b : Nat) : Nat :=
  crcBit poly (crcBit poly (crcBit poly (crcBit poly (crcBit poly (crcBit poly (crcBit poly (crcBit poly (c ^^^ b))))))))

/-- CRC-32C, polynomial 0x1EDC6F41, reflected, initial and final inversion (02 R58, 09 R241). -/
def crc32c (l : List Byte) : Word :=
  BitVec.ofNat 32 ((l.foldl (fun c b => crcByte 0x82F63B78 c b.toNat) 0xFFFFFFFF) ^^^ 0xFFFFFFFF)

/-! ### The sorted word store -/

/-- The word listed at a key. -/
def Cells.find (k : Nat) : Cells → Option Word
  | [] => none
  | (a, w) :: t => if a = k then some w else Cells.find k t

/-- The store without a key. -/
def Cells.erase (k : Nat) (c : Cells) : Cells := c.filter fun e => e.1 != k

/-- The store with a word at a key. -/
def Cells.insert (k : Nat) (v : Word) : Cells → Cells
  | [] => [(k, v)]
  | (a, w) :: t => if a = k then (k, v) :: t else if k < a then (k, v) :: (a, w) :: t else (a, w) :: Cells.insert k v t

/-- A write: writing what an unlisted key reads as removes the entry. -/
def Cells.put (dflt : Word) (k : Nat) (v : Word) (c : Cells) : Cells := if v = dflt then c.erase k else c.insert k v

/-- Keys strictly rising. -/
abbrev Cells.Sorted (c : Cells) : Prop := c.Pairwise fun p q => p.1 < q.1

/-- The canonical form against what unlisted keys read as: keys strictly rising, no entry equal to its default. -/
abbrev Cells.Canonical (dflt : Nat → Word) (c : Cells) : Prop := c.Sorted ∧ ∀ e ∈ c, e.2 ≠ dflt e.1

/-! ### Dies -/

def State.die (s : State) (d : Nat) : Die := s.dies.getD d Die.zero

/-- A change to one die. -/
def State.onDie (s : State) (d : Nat) (f : Die → Die) : State := { s with dies := s.dies.modify d f }

/-- The dies of the part. -/
def State.dieList (s : State) : List Nat := List.range s.part.dies

def State.isHead (s : State) : Bool := s.part.isHead

/-- BOOT and the states after it (01 R31). -/
def DevState.live : DevState → Bool
  | .off | .reset => false
  | _ => true

/-- A die that is there, out of OFF and RESET and of its own reset hold, and not gated by a loss of its TPLL (01 R31, 21 R524,
13 R359): only such a die carries out commands and events. -/
def State.alive (s : State) (d : Nat) : Bool :=
  s.device.live && decide (d < s.part.dies) && !(s.die d).gated && !(s.die d).hold

/-- A change made if a condition holds. -/
def State.when (s : State) (c : Bool) (f : State → State) : State := if c then f s else s

/-- A change made at every element of a list, in its order. -/
def State.each {α : Type} (s : State) (l : List α) (f : State → α → State) : State := l.foldl f s

/-! ### Reset values of the map -/

/-- BLOCK_EN out of reset (02 R49, R69; 11-20: the chapters' own values). -/
def blockEnReset (head : Bool) (d page : Nat) : Bool :=
  match page with
  | 6 | 16 => head
  | 8 => !head
  | 9 | 10 => head && decide (d < 2)
  | _ => true

/-- PAGE_GUARD of a page (02 R52 and the chapters). -/
def pageGuard (page : Nat) : Nat :=
  match page with
  | 9 => 0x2
  | 10 => 0x1FF00001
  | 12 => 0x2
  | 13 => 0x40
  | 14 => 0x400
  | _ => 0

/-- What an unlisted key of a die window reads as: the register's reset value with REFSEL at 0; of a context page, field 6
(INS_QUOTA) resets to 2 and every other field to 0 (10 R289). -/
def dfltOf (part : Part) (d key : Nat) : Word :=
  let page := key / 0x1000
  let off := key % 0x1000
  if off < 0x20 && page ≤ 0x10 && off != 8 then
    if off = 4 then (if blockEnReset part.isHead d page then 1 else 0) else 0
  else if key = 0x1008 then (if part.isHead then 0x100 else 0x80100)
  else if key = 0x1024 && !part.isHead then 0x0F000004
  else if key = 0x1028 && !part.isHead then 0x8F000004
  else if key = 0x1034 then BitVec.ofNat 32 (d + 1)
  else if 0x20000 ≤ key then (if key < 0x40000 && off == 0x118 then 2 else 0)
  else match findReg (pageRegs page) off with
    | some r => r.reset
    | none => 0

def State.dflt (s : State) (d key : Nat) : Word := dfltOf s.part d key

/-- The reset values that the strap REFSEL at 1 changes (13 R344, R345, R353): the reference in use, and on a node the
settings for a local reference, with the RING page off. -/
def strapWords (part : Part) : List (Nat × Word) :=
  (0x1008, 0x40100) :: (if part.isHead then [] else [(0x1024, 0x0F000000), (0x1028, 0x8F000000), (0x7004, 0)])

/-- The word at a key of a die window, as stored. -/
def State.cell (s : State) (d key : Nat) : Word := ((s.die d).cells.find key).getD (s.dflt d key)

/-- A store of a word at a key of a die window. -/
def State.putCell (s : State) (d key : Nat) (w : Word) : State :=
  s.onDie d fun x => { x with cells := x.cells.put (s.dflt d key) key w }

/-- Returns the keys a test picks to their reset values. -/
def State.dropCells (s : State) (d : Nat) (p : Nat → Bool) : State :=
  s.onDie d fun x => { x with cells := x.cells.filter fun e => !p e.1 }

/-- The keys a test picks take the reset values of the straps as the die read them. DEDUCED, log entry 18. -/
def State.applyStraps (s : State) (d : Nat) (p : Nat → Bool) : State :=
  if (s.die d).clk.refsel then
    ((strapWords s.part).filter fun e => p e.1).foldl (fun s e => s.putCell d e.1 e.2) s
  else s

/-! ### Registers by name -/

def Fld.key (f : Fld) (i : Nat) : Nat := f.page * 0x1000 + f.base + f.stride * i

def Fld.max (f : Fld) : Nat := 2 ^ (f.hi + 1 - f.lo) - 1

/-- The value of a field. -/
def State.rd (s : State) (d : Nat) (f : Fld) (i : Nat := 0) : Nat := bitsOf (s.cell d (f.key i)).toNat f.hi f.lo

/-- A one-bit field as a truth value. -/
def State.flag (s : State) (d : Nat) (f : Fld) (i : Nat := 0) : Bool := s.rd d f i != 0

/-- A field as a signed number. -/
def State.rdS (s : State) (d : Nat) (f : Fld) (i : Nat := 0) : Int := sx (f.hi + 1 - f.lo) (s.rd d f i)

/-- A field written by the part. -/
def State.wr (s : State) (d : Nat) (f : Fld) (i v : Nat) : State :=
  s.putCell d (f.key i) (setBits (s.cell d (f.key i)) f.hi f.lo v)

def State.wrB (s : State) (d : Nat) (f : Fld) (i : Nat) (b : Bool) : State := s.wr d f i (bnat b)

/-- A signed field written by the part, reduced to its width. -/
def State.wrS (s : State) (d : Nat) (f : Fld) (i : Nat) (v : Int) : State := s.wr d f i (ux (f.hi + 1 - f.lo) v)

/-- A count that stops at its field's maximum. -/
def State.bump (s : State) (d : Nat) (f : Fld) (i : Nat) (n : Nat) : State :=
  s.wr d f i (min (s.rd d f i + n) f.max)

/-- A count modulo its field. -/
def State.bumpMod (s : State) (d : Nat) (f : Fld) (i : Nat) (n : Nat) : State :=
  s.wr d f i ((s.rd d f i + n) % (f.max + 1))

/-! ### Header registers and sticky bits (02 R49-R55) -/

def hdrKey (page off : Nat) : Nat := page * 0x1000 + off

/-- BLOCK_EN; on DIE, CLK, FLT, THM and SEC it reads 1 (R49). -/
def State.blockEn (s : State) (d page : Nat) : Bool := bitOf (s.cell d (hdrKey page 4)).toNat 0

def State.locked (s : State) (d page : Nat) : Bool := bitOf (s.cell d (hdrKey page 4)).toNat 2

/-- An active block: alive die, block enabled. -/
def State.on (s : State) (d page : Nat) : Bool := s.alive d && s.blockEn d page

/-- One sticky bit is set; a change from 0 to 1 counts in the page (R51) and, once visible, in the package (R54).
DEDUCED, log entry 13. -/
def State.stick (s : State) (d page bit : Nat) : State :=
  let w := s.cell d (hdrKey page 0xC)
  if bitOf w.toNat bit then s else
    let q := s.cell d (hdrKey page 0x10)
    let s1 := s.putCell d (hdrKey page 0xC) (setBits w bit bit 1)
    let s2 := s1.putCell d (hdrKey page 0x10) (BitVec.ofNat 32 ((q.toNat + 1) % 65536))
    { s2 with sumPend := s2.sumPend + 1 }

def State.sticky (s : State) (d : Nat) (k : Sticky) (i : Nat := 0) : State := s.stick d k.page (k.bit + i)

/-- Is a sticky bit set? -/
def State.stuckAt (s : State) (d page bit : Nat) : Bool := bitOf (s.cell d (hdrKey page 0xC)).toNat bit

/-! The summary page keeps its own store; its defaults are those of its table (R55). -/

def sumDflt (off : Nat) : Word :=
  match findReg regsSummary off with
  | some r => r.reset
  | none => 0

def State.sumCell (s : State) (off : Nat) : Word := (s.sum.find off).getD (sumDflt off)

def State.putSum (s : State) (off : Nat) (w : Word) : State := { s with sum := s.sum.put (sumDflt off) off w }

/-- A sticky bit of the summary page: ADDR_ERR 0, REG_TIMEOUT 1, FRAME_ERR 2 (R55). -/
def State.sumStick (s : State) (bit : Nat) : State :=
  let w := s.sumCell 0xC
  if bitOf w.toNat bit then s else
    let s1 := s.putSum 0xC (setBits w bit bit 1)
    let s2 := s1.putSum 0x10 (BitVec.ofNat 32 (((s1.sumCell 0x10).toNat + 1) % 65536))
    { s2 with sumPend := s2.sumPend + 1 }

/-! ### Open values -/

/-- The next open number, and the state that has used it. DESIGN CHOICE, log entry 4. -/
def State.freeN (s : State) : Nat × State := (Config.freeNat s.free, { s with free := s.free + 1 })

/-- The next open word. DESIGN CHOICE, log entry 4. -/
def State.freeW (s : State) : Word × State := (Config.freeWord s.free, { s with free := s.free + 1 })

/-! ### How a command ends -/

/-- No host misuse stands (00 R14). -/
def State.sane (s : State) : Bool := s.misused.isEmpty

/-- A command while a misuse stands: nothing may be relied on (00 R14). -/
def State.spoilt (s : State) : Res := .fault (.misuse ((s.misused.head?.map (·.1)).getD 0))

/-- A command of which nothing may be relied on while a misuse stands. -/
def State.sanely (s : State) (r : Res) : Res := if s.sane then r else s.spoilt

/-- The command's effect if its condition holds; otherwise the event has not occurred and nothing changes (log entry 5). -/
def State.guarded (s : State) (c : Bool) (f : State → State) : Res := s.sanely (.next (if c then f s else s))

/-- The same for a command that no misuse of another block affects: resets, the blocking of bridges and the forcing of gates low, the
conditions of 01 R39, the safety outputs (00 R14). DEDUCED, log entry 8. -/
def State.always (s : State) (c : Bool) (f : State → State) : Res := .next (if c then f s else s)

/-- Sequencing of an effect that may stop after one that may stop. -/
def Res.bind (r : Res) (f : State → Res) : Res :=
  match r with
  | .next s => f s
  | .fault e => .fault e
  | .refused e => .refused e

/-- Each item in turn, unless one ends the command. -/
def eachRes {α : Type} (f : State → α → Res) : List α → State → Res
  | [], s => .next s
  | a :: t, s => Res.bind (f s a) (eachRes f t)

/-- Memory windows of the block of a page, with the bits their words have (02 R42). -/
def ownWindow (page key : Nat) : Option Word :=
  if page = 5 && decide (0x80000 ≤ key) && decide (key < 0xB0000) then some 0xFFFFFFFF#32
  else if page = 5 && decide (0xB0000 ≤ key) && decide (key < 0xF0000) then some 0xFFFF#32
  else none

/-- A host misuse of the block of a page: it stands until the block or the die is reset, and the block's memories hold whatever it leaves
in them (00 R14). DEDUCED, log entry 8. -/
def State.misuse (s : State) (rule d page : Nat) : State :=
  let left := Config.leftWords s.free
  let s := { s with misused := s.misused ++ [(rule, d, page)], free := s.free + 1 }
  s.each left fun s e => match ownWindow page e.1 with
    | some m => s.putCell d e.1 (e.2 &&& m)
    | none => s

/-- A reset of the block of a page ends the misuses of it (00 R14). -/
def State.endMisuse (s : State) (d page : Nat) : State := { s with misused := s.misused.filter fun m => !(m.2.1 == d && m.2.2 == page) }

end Sys2Proof.Machine
end

