-- ==== Sys2Proof/Machine/Signals.lean ====
section
/-! DEFINITION. What many blocks touch: fault sources (17 R445-R447), the conditions of a node's ring time, PERMIT, and the
positions of domains as other blocks read them. -/

namespace Sys2Proof.Machine

/-! ### Fault sources. A source is numbered page * 16 + index in its die; fabric sources are 0x008 and 0x009 (02 R68). -/

/-- The collector is armed (R447): in a switching state, and on a head while a command that arms it waits. -/
def State.armed (s : State) : Bool := s.device.switching || (s.isHead && s.arming.isSome)

/-- Code of a die's own source (R445); a node numbers its own as die 0. -/
def srcCode (d pi : Nat) : Nat := d * 256 + pi

/-- A source becomes present; it arrives if it was not present before and the collector is armed (R446). -/
def State.raise (s : State) (d pi : Nat) : State :=
  if (s.die d).flt.present.contains pi then s
  else s.onDie d fun x => { x with flt := { x.flt with
    present := x.flt.present ++ [pi],
    arriving := if s.armed then x.flt.arriving ++ [(srcCode d pi, 0)] else x.flt.arriving } }

/-- A source is no longer present. -/
def State.lower (s : State) (d pi : Nat) : State :=
  s.onDie d fun x => { x with flt := { x.flt with present := x.flt.present.filter (· != pi) } }

def State.source (s : State) (d pi : Nat) (on : Bool) : State := if on then s.raise d pi else s.lower d pi

/-- A source arrives at the collector of a die, if it is armed (R446). -/
def State.arrive (s : State) (d code ws : Nat) : State :=
  if s.armed then s.onDie d fun x => { x with flt := { x.flt with arriving := x.flt.arriving ++ [(code, ws)] } } else s

/-- A source present in this tick only; it arrives unless it was present in the tick before (R446). DEDUCED, log entry 14. -/
def State.pulse (s : State) (d pi : Nat) : State :=
  let recent := (s.die d).flt.pulses.filter fun e => decide (s.td0 ≤ e.2 + 1)
  (s.onDie d fun x => { x with flt := { x.flt with pulses := if recent.contains (pi, s.td0) then recent else (pi, s.td0) :: recent } }).when
    (!(recent.any fun e => e.1 == pi) && !(s.die d).flt.present.contains pi) fun s => s.arrive d (srcCode d pi) 0

/-- On arming, every source already present arrives (R446); a head then takes the reports of its waystations anew, whose latches are empty
(17 R457). DEDUCED, log entry 87. -/
def State.armCollectors (s : State) : State :=
  s.each s.dieList fun s d => s.onDie d fun x => { x with
    flt := { x.flt with arriving := x.flt.present.map fun pi => (srcCode d pi, 0) }
    head := { x.head with alerts := [] } }

/-- Some source is present on a die of the part. -/
def State.anySource (s : State) : Bool :=
  s.dieList.any fun d => !(s.die d).flt.present.isEmpty || (s.die d).flt.pulses.any fun e => e.2 == s.td0

/-! ### A node and its ring -/

/-- A node that has a head to follow: its RING page is enabled (01 R36, 11 R318). DEDUCED, log entry 15. -/
def State.followsHead (s : State) : Bool := !s.isHead && s.blockEn 0 7

/-- Ring time is trusted (10 R275); always so without a ring (11 R318). -/
def State.trusted (s : State) : Bool := s.flag 0 Fd.RING_STATUS.TRUSTED || !s.blockEn 0 7

/-- The ring-silence block is in force (11 R319). -/
def State.ringBlock (s : State) : Bool := (s.die 0).node.silentAt.isSome

/-! ### Context fields. A head holds those of waystation n in page 0x1F + n; a node holds its own in page 0x20 (10 R289). -/

def ctxKey (n field : Nat) : Nat := (0x1F + n) * 0x1000 + 0x100 + 4 * field

/-- A context field. DEDUCED, log entry 26. -/
def State.ctx (s : State) (d n field : Nat) : BitVec 16 := (s.cell d (ctxKey n field)).setWidth 16

def State.putCtx (s : State) (d n field : Nat) (v : BitVec 16) : State := s.putCell d (ctxKey n field) (v.setWidth 32)

/-- A node's own field. -/
def State.nodeField (s : State) (field : Nat) : BitVec 16 := s.ctx 0 1 field

/-- A node's own up field takes a value; a changed value is queued for CTX_DATA (10 R291). -/
def State.setNodeField (s : State) (field : Nat) (v : BitVec 16) : State :=
  if s.nodeField field = v then s else
    (s.putCtx 0 1 field v).onDie 0 fun x => { x with node := { x.node with
      upQ := if x.node.upQ.contains field then x.node.upQ else x.node.upQ ++ [field] } }

/-! ### Domains as others read them -/

def State.dom (s : State) (d i : Nat) : Domain := (s.die d).ang.dom.getD i Domain.zero

/-- The crossing instant of position c in the present tick, in fine units, placed to the nearest eighth (03 R95). -/
def Domain.crossing (x : Domain) (t : Nat) (c : Int) : Int :=
  if x.inc = 0 then (t : Int) * 8 else ((t : Int) - 1) * 8 + (16 * (c - x.prev) + x.inc) / (2 * x.inc)

/-- The present instant in fine units. -/
def State.now (s : State) : Int := (s.td0 : Int) * 8

/-- A stamp or interval in fine units as the DLL of a die places it: on whole ticks while it is not locked (13 R357). -/
def State.stampAt (s : State) (d i : Nat) : Nat := if s.flag d Fd.CLK_STATUS.DLL_LOCK then i else i / 8 * 8

/-- An instant as the DLL of a die places it: to the fine unit, or on its whole tick while it is not locked (13 R356, R357). -/
def State.placed (s : State) (d : Nat) (i : Int) : Int := if s.flag d Fd.CLK_STATUS.DLL_LOCK then i else i / 8 * 8

/-- Ticks of a tick count in a 64-bit register pair. -/
def loWord (t : Nat) : Nat := t % 2 ^ 32
def hiWord (t : Nat) : Nat := t / 2 ^ 32 % 2 ^ 32

end Sys2Proof.Machine
end

