-- ==== Sys2Proof/Machine/Bridge.lean ====
section
/-! DEFINITION. Bridges and legs of a node: from a source command to gate balls (11 R298-R306, R321; 12 R334-R337).
Instants are in fine units of 156.25 ps. A gate ball moves 80 fine units after its command (R301); `Pins` shows its level at the
end of the present tick. -/

namespace Sys2Proof.Machine

/-! ### Codes and views -/

/-- Two or three of P, N, Z (R299, 12 R336). -/
def Pnz.conflict (c : Pnz) : Bool := (c.p && c.n) || (c.p && c.z) || (c.n && c.z)

/-- State code of 08 R215: BLOCK 0, P 1, N 2, Z 3. -/
def Pnz.code (c : Pnz) : Nat :=
  if c.conflict then 0 else if c.p then 1 else if c.n then 2 else if c.z then 3 else 0

def Pnz.ofCode (n : Nat) : Pnz := ⟨n == 1, n == 2, n == 3⟩

def Pnz.none : Pnz := ⟨false, false, false⟩

/-- Switches of legs A and B a bridge state commands on: A upper, A lower, B upper, B lower (R299). -/
def legsOf (code : Nat) (zUpper : Bool) : Bool × Bool × Bool × Bool :=
  match code with
  | 1 => (true, false, false, true)
  | 2 => (false, true, true, false)
  | 3 => (zUpper, !zUpper, zUpper, !zUpper)
  | _ => (false, false, false, false)

/-- The sources a bridge can act on (R304). -/
inductive Source where
  | nothing | manifest | dab | leg | pins
  deriving DecidableEq, Repr

def srcField (b : Nat) : Fld := ⟨0x8, 0x60, 1, 8 * b + 1, 8 * b⟩
def legField (b : Nat) : Fld := ⟨0x8, 0x60, 1, 8 * b + 2, 8 * b + 2⟩
def zmodeField (b : Nat) : Fld := ⟨0x8, 0x60, 1, 8 * b + 5, 8 * b + 4⟩
def znextField (b : Nat) : Fld := ⟨0x8, 0x60, 1, 8 * b + 6, 8 * b + 6⟩
def bstateField (b : Nat) : Fld := ⟨0x8, 0x84, 1, 17 + 2 * b, 16 + 2 * b⟩

/-- The cell role of a node's straps (00 R2). -/
def State.cellRole (s : State) : Bool := (s.die 0).clk.role == 1

/-- The source in force for a bridge (R304). -/
def State.source4 (s : State) (b : Nat) : Source :=
  match s.rd 0 (srcField b) with
  | 1 => if s.cellRole && b != 0 then .nothing else .manifest
  | 2 => if s.cellRole then (if b = 0 then .nothing else .dab) else if s.flag 0 (legField b) then .leg else .nothing
  | 3 => .pins
  | _ => .nothing

def State.bridge (s : State) (b : Nat) : Bridge := (s.die 0).bg.bridge.getD b Bridge.zero
def State.leg (s : State) (k : Nat) : Leg := (s.die 0).bg.leg.getD k Leg.zero

def State.onBg (s : State) (f : Bg → Bg) : State := s.onDie 0 fun x => { x with bg := f x.bg }
def State.onBridge (s : State) (b : Nat) (f : Bridge → Bridge) : State := s.onBg fun g => { g with bridge := setAt g.bridge b f }
def State.onLeg (s : State) (k : Nat) (f : Leg → Leg) : State := s.onBg fun g => { g with leg := setAt g.leg k f }

def State.gh (s : State) (k : Nat) : Bool := bitOf s.pins.gh.toNat k
def State.gl (s : State) (k : Nat) : Bool := bitOf s.pins.gl.toNat k

def setBit6 (w : BitVec 6) (k : Nat) (b : Bool) : BitVec 6 := if b then w ||| (1#6 <<< k) else w &&& ~~~(1#6 <<< k)

def State.setGh (s : State) (k : Nat) (b : Bool) : State := { s with pins := { s.pins with gh := setBit6 s.pins.gh k b } }
def State.setGl (s : State) (k : Nat) (b : Bool) : State := { s with pins := { s.pins with gl := setBit6 s.pins.gl k b } }

/-- A leg is held: by a trip, or because the guard is disabled (12 R341). DEDUCED, log entry 46. -/
def State.legHeld (s : State) (k : Nat) : Bool := (s.leg k).heldAt.isSome || !s.blockEn 0 8

/-- Conditions that block every bridge of a node: those of R305, and its local latch (17 R454, 10 R289). DEDUCED, log entry 45. -/
def State.nodeBlocked (s : State) : Bool := !s.device.switching || !s.trusted || s.ringBlock || s.flag 0 Fd.LOC_SRC.VALID

/-- Conditions of R305 for one bridge. -/
def State.bridgeBlocked (s : State) (b : Nat) : Bool :=
  s.nodeBlocked || s.legHeld (2 * b) || s.legHeld (2 * b + 1)

/-- A conflicting command of bridge b stands (12 R336); leg k is commanded both ways (12 R337). -/
def State.conflicts (s : State) (b : Nat) : Bool := (s.bridge b).src.conflict
def State.shorts (s : State) (k : Nat) : Bool := (s.leg k).srcUp && (s.leg k).srcLo

/-- The sources CMD_CONFLICT and SHOOT_THROUGH are present while they stand and their enables are set (12 R336, R337, R340). -/
def State.guardSources (s : State) : State :=
  (s.source 0 0x86 (([0, 1, 2].any fun b => s.conflicts b) && s.flag 0 Fd.BG_GCFG.CONF_FLT)).source 0 0x87
    (((List.range 6).any fun k => s.shorts k) && s.flag 0 Fd.BG_GCFG.ST_FLT)

/-! ### Gate balls (R301-R303) -/

/-- Dead time of a leg in fine units (R302). -/
def State.deadTime (s : State) (k : Nat) : Int :=
  let f : Fld := if k % 2 = 0 then ⟨0x8, 0x64 + 4 * (k / 2), 1, 11, 3⟩ else ⟨0x8, 0x64 + 4 * (k / 2), 1, 27, 19⟩
  let g : Fld := if k % 2 = 0 then ⟨0x8, 0x64 + 4 * (k / 2), 1, 2, 0⟩ else ⟨0x8, 0x64 + 4 * (k / 2), 1, 18, 16⟩
  if s.rd 0 f ≥ 256 then 2048 else (s.rd 0 f : Int) * 8 + s.rd 0 g

/-- From command to gate ball: 12.5 ns (R301). -/
def gateDelay : Int := 80

/-- An instant as a node's DLL places it (13 R356, R357). -/
def State.place (s : State) (i : Int) : Int := s.placed 0 i

/-- The last instant of the present tick. -/
def State.tickEnd (s : State) : Int := s.now + 7

/-- Does an instant come due by another? -/
def dueBy (i : Int) (o : Option Int) : Bool :=
  match o with
  | some f => decide (f ≤ i)
  | none => false

/-- A leg none of whose gate balls is high since an instant's tick (12 R326). -/
def State.endHigh (s : State) (k : Nat) (inst : Int) : State :=
  s.when (!s.gh k && !s.gl k) fun s => s.onLeg k fun l => { l with high := l.high.map fun h => (h.1, some (h.2.getD (inst / 8))) }

/-- Falls of a leg's gate balls that come due by an instant. -/
def State.settleFalls (s : State) (k : Nat) (i : Int) : State :=
  let l := s.leg k
  let s := s.when (dueBy i l.upFall) fun s =>
    ((s.setGh k false).onLeg k fun l => { l with upLowAt := l.upFall.getD 0, upFall := none }).endHigh k (l.upFall.getD 0)
  s.when (dueBy i l.loFall) fun s =>
    ((s.setGl k false).onLeg k fun l => { l with loLowAt := l.loFall.getD 0, loFall := none }).endHigh k (l.loFall.getD 0)

/-- The earliest instant the dead time lets the upper, or the lower, switch of a leg rise at, its partner being low (R301). -/
def State.deadEnd (s : State) (k : Nat) (upper : Bool) : Int :=
  s.place ((if upper then (s.leg k).loLowAt else (s.leg k).upLowAt) + s.deadTime k)

/-- The instant at which a switch commanded on goes high: 12.5 ns after its command, and not before the dead time has passed (R301). -/
def State.riseAt (s : State) (k : Nat) (upper : Bool) : Option Int :=
  if s.gh k || s.gl k then none
  else (if upper then (s.leg k).upRise else (s.leg k).loRise).map fun r => max r (s.deadEnd k upper)

/-- A gate ball of a leg goes high: its blanking window starts in that tick (12 R327). -/
def State.rise (s : State) (k : Nat) (upper : Bool) (r : Int) : State :=
  let s := if upper then s.setGh k true else s.setGl k true
  s.onLeg k fun l => { l with
    upRise := if upper then none else l.upRise, loRise := if upper then l.loRise else none
    blankAt := some (r / 8), high := some (r / 8, none) }

def State.settleRise (s : State) (k : Nat) (upper : Bool) (i : Int) : State :=
  match s.riseAt k upper with
  | some r => if r ≤ i then s.rise k upper r else s
  | none => s

/-- A leg's gate balls up to an instant. -/
def State.settle (s : State) (k : Nat) (i : Int) : State :=
  ((s.settleFalls k i).settleRise k true i).settleRise k false i

/-- A rise that no dead time holds back. -/
def State.freeRise (s : State) (k : Nat) (upper : Bool) : State :=
  match (if upper then (s.leg k).upRise else (s.leg k).loRise) with
  | some r => if s.deadEnd k upper ≤ r then s.settleRise k upper s.tickEnd else s
  | none => s

/-- A tick passes: gate balls fall, and rise where no dead time holds them back; BYPASS moves (R301, R311). DESIGN CHOICE, log entry 12. -/
def State.gateTick (s : State) : State :=
  let s := s.each (List.range 6) fun s k => ((s.settleFalls k s.tickEnd).freeRise k true).freeRise k false
  let due := (s.die 0).bg.bypass.filter fun e => decide (e.1 ≤ s.tickEnd)
  let s := s.onBg fun g => { g with bypass := g.bypass.filter fun e => !decide (e.1 ≤ s.tickEnd) }
  match due.getLast? with
  | some e => { s with pins := { s.pins with bypass := e.2 } }
  | none => s

/-- A command to a leg at an instant (R301): what it turns off falls 12.5 ns later, and never goes high if it has not yet; what it turns on may
rise 12.5 ns later. A leg commanded both ways stays off. -/
def State.driveLeg (s : State) (k : Nat) (up lo : Bool) (inst : Int) : State :=
  let at_ := s.place inst
  let s := s.settle k at_
  let up' := up && !lo
  let lo' := lo && !up
  let gh := s.gh k
  let gl := s.gl k
  s.onLeg k fun l => { l with
    up := up', lo := lo'
    upRise := if up' then (if l.up then l.upRise else some (at_ + gateDelay)) else none
    loRise := if lo' then (if l.lo then l.loRise else some (at_ + gateDelay)) else none
    upFall := if !up' && gh then some (min (l.upFall.getD (at_ + gateDelay)) (at_ + gateDelay)) else l.upFall
    loFall := if !lo' && gl then some (min (l.loFall.getD (at_ + gateDelay)) (at_ + gateDelay)) else l.loFall }

/-- Keeps what a bridge was before the first command of the present tick, and the source command before its first edge. -/
def State.keepUndo (s : State) (b : Nat) (edge : Bool) : State :=
  let z := s.flag 0 (znextField b)
  let by_ := (s.die 0).bg.bypass
  s.onBridge b fun x =>
    let u := match x.undo with
      | some u => if u.tick = s.td0 then u else ⟨s.td0, x.zUpper, z, by_, none⟩
      | none => ⟨s.td0, x.zUpper, z, by_, none⟩
    { x with undo := some { u with edgeSrc := if edge then some (u.edgeSrc.getD x.src) else u.edgeSrc } }

/-- The state a bridge takes: legs, ZNEXT on an entry into Z (R300), and STATE of BG_CMD. DEDUCED, log entry 45. -/
def State.takeState (s : State) (b code : Nat) (inst : Int) : State :=
  let entry := code == 3 && s.rd 0 (bstateField b) != 3
  let mode := s.rd 0 (zmodeField b)
  let zUp :=
    if mode = 1 then true else if mode = 2 then false
    else if entry then !s.flag 0 (znextField b) else (s.bridge b).zUpper
  let s := s.when (entry && (mode == 0 || mode == 3)) fun s => s.wrB 0 (znextField b) 0 (!s.flag 0 (znextField b))
  let s := s.onBridge b fun x => { x with zUpper := zUp }
  let s := s.wr 0 (bstateField b) 0 code
  let l := legsOf code zUp
  (s.driveLeg (2 * b) l.1 l.2.1 inst).driveLeg (2 * b + 1) l.2.2.1 l.2.2.2 inst

/-! ### Blocks -/

/-- Bridge b takes BLOCK at an instant; one that waits stays there until its next command (R306, R309, R310). -/
def State.takeBlock (s : State) (b : Nat) (wait : Bool) (inst : Int) : State :=
  (s.onBridge b fun x => { x with idle := x.idle || wait }).takeState b 0 inst

/-- The legs of a bridge wait for a carrier boundary or, 2, for a peak. -/
def State.legsWait (s : State) (b w : Nat) : State :=
  s.each [2 * b, 2 * b + 1] fun s k => s.onLeg k fun l => { l with wait := max w l.wait }

/-- A manifest that becomes current at acceptance meets the late rule (R310). -/
def State.makeCurrent (s : State) (b : Nat) (m : Manifest) : State :=
  let lim : Int := ((s.td0 : Int) + 16) * 8
  let past := m.edges.filter fun e => decide (e.stamp < lim)
  let rest := m.edges.filter fun e => decide (lim ≤ e.stamp)
  let s := s.onBridge b fun x => { x with cur := some { m with edges := rest } }
  match past.getLast? with
  | none => s
  | some e =>
    if lim - e.stamp < s.rd 0 Fd.BG_EDGE.EDGE_TOL then s.onBridge b fun x => { x with lateAt := some (s.td0 + 16, e) }
    else (s.sticky 0 Sk.BG.EDGE_LATE).takeBlock b true s.now

/-- The current manifest is discarded; a next one becomes current under the late rule (R309, R310, R321). -/
def State.discardCurrent (s : State) (b : Nat) : State :=
  let n := (s.bridge b).next
  let s := s.onBridge b fun x => { x with cur := none, next := none, lateAt := none }
  match n with
  | some m => s.makeCurrent b m
  | none => s

/-- A block goes before every edge of its tick (R305, R321): what such an edge changed is as before it, and the edge is discarded with its
manifest. DEDUCED, log entry 10. -/
def State.undoTick (s : State) (b : Nat) : State :=
  match (s.bridge b).undo with
  | none => s
  | some u =>
    if u.tick ≠ s.td0 then s else
      let s := s.wrB 0 (znextField b) 0 u.zNext
      let s := s.when (b == 0) (·.onBg fun g => { g with bypass := u.bypass })
      let s := s.onBridge b fun x => { x with zUpper := u.zUpper, undo := none, src := u.edgeSrc.getD x.src }
      (s.when u.edgeSrc.isSome (·.discardCurrent b)).guardSources

/-- Bridge b takes BLOCK for a condition of R305. What acts next waits as its source lays down: for the next manifest, the next whole turn of
the DAB (R314), the next carrier peak (R320); pins are followed as soon as the block ends (R320). DEDUCED, log entry 45. -/
def State.blockBridge (s : State) (b : Nat) : State :=
  let s := s.undoTick b
  let src := s.source4 b
  (s.when (src == .leg) (·.legsWait b 2)).takeBlock b (src != .pins && src != .leg) s.now

/-- Every bridge takes BLOCK now (R305). -/
def State.blockAll (s : State) : State := s.each [0, 1, 2] fun s b => s.blockBridge b

/-- Every manifest held is discarded (R319, R320, 10 R288, 17 R454). -/
def State.dropManifests (s : State) : State :=
  s.each [0, 1, 2] fun s b => s.onBridge b fun x => { x with cur := none, next := none, lateAt := none, missed := none }

/-! ### Commands from a source -/

/-- CMD_CONFLICT starts or ends with a command (12 R336). -/
def State.noteConflict (s : State) (b : Nat) (c : Pnz) : State :=
  let was := s.conflicts b
  let s := s.onBridge b fun x => { x with src := c }
  let s := s.when (c.conflict && !was) fun s => (s.sticky 0 Sk.BG.CMD_CONFLICT).bump 0 Fd.BG_COUNTS.CONFLICTS 0 1
  s.guardSources

/-- A leg's off window is over (12 R334); the tick in which a trip holds it clears nothing (R335). -/
def State.offOver (s : State) (k : Nat) : Bool :=
  match (s.leg k).heldAt with
  | none => true
  | some t => (s.leg k).tripAt != some (s.td0 : Int) && ((s.leg k).offDone || decide (t + s.rd 0 Fd.BG_TIMING.MIN_OFF ≤ s.td0))

def lockField (k : Nat) : Fld := ⟨0x8, 0x8, 1, 8 + k, 8 + k⟩

/-- The hold of a leg ends, unless it is locked (12 R338); TRIPk is no longer present (12 R340). -/
def State.clearHold (s : State) (k : Nat) : State :=
  match (s.leg k).heldAt with
  | none => s
  | some t =>
    if s.flag 0 (lockField k) then s else
      (s.onLeg k fun l => { l with heldAt := none, offDone := false, own := false, freed := some ⟨s.td0, t, l.offDone, l.own⟩ }).lower 0 (0x80 + k)

/-- A change of the source command of these legs clears their holds, once the off windows of all of them are over (12 R334). -/
def State.clearHolds (s : State) (legs : List Nat) : State :=
  if legs.all fun k => s.offOver k then s.each legs fun s k => s.clearHold k else s

/-- A command of a bridge's source at an instant: a change clears holds whose off windows are over (12 R334), and the command acts unless
R305 blocks the bridge. `resume` says whether a waiting bridge may act on it. -/
def State.bridgeCmd (s : State) (b : Nat) (c : Pnz) (resume : Bool) (inst : Int) : State :=
  let change := (s.bridge b).src != c
  let s := (s.keepUndo b false).noteConflict b c
  let s := s.when change fun s => s.clearHolds [2 * b, 2 * b + 1]
  if s.bridgeBlocked b then s.takeState b 0 inst
  else if (s.bridge b).idle && !resume then s.takeState b 0 inst
  else (s.onBridge b fun x => { x with idle := false }).takeState b c.code inst

/-- SHOOT_THROUGH starts or ends with a leg's command (12 R337). -/
def State.noteShoot (s : State) (k : Nat) (up lo : Bool) : State :=
  let was := s.shorts k
  let s := s.onLeg k fun l => { l with srcUp := up, srcLo := lo }
  let s := s.when (up && lo && !was) fun s => (s.sticky 0 Sk.BG.SHOOT_THROUGH).bump 0 Fd.BG_COUNTS.CONFLICTS 0 1
  s.guardSources

/-- A command of a leg in direct leg mode: its own hold is tested for clearing (12 R334), and R305 blocks it with its bridge. -/
def State.legCmd (s : State) (k : Nat) (up lo : Bool) (inst : Int) : State :=
  let change := (s.leg k).srcUp != up || (s.leg k).srcLo != lo
  let s := s.noteShoot k up lo
  let s := s.when change fun s => s.clearHolds [k]
  if s.bridgeBlocked (k / 2) || (s.leg k).wait != 0 then s.driveLeg k false false inst
  else s.driveLeg k up lo inst

/-- BYPASS follows the mark of an executed B0 edge 12.5 ns after its stamp (R311). -/
def State.setBypass (s : State) (mark : Bool) (inst : Int) : State :=
  s.onBg fun g => { g with bypass := g.bypass ++ [(inst + gateDelay, mark)] }

/-! ### Manifests (R307-R310) -/

/-- An edge acts on its bridge at its instant; one that a block keeps from acting is kept for a block that clears in the same tick (R321). -/
def State.edge (s : State) (b : Nat) (e : MEdge) (inst : Int) : State :=
  let s := s.keepUndo b true
  let s := (s.when (b == 0) (·.setBypass e.mark inst)).bridgeCmd b (Pnz.ofCode e.st) true inst
  s.onBridge b fun x => { x with missed := if s.bridgeBlocked b then some (s.td0, { e with stamp := inst }) else none }

/-- A block of R305 has ended: an edge of this tick that it kept from acting is executed (R321), and pin bridges follow their pins. -/
def State.unblock (s : State) : State :=
  s.each [0, 1, 2] fun s b =>
    if s.bridgeBlocked b then s
    else if s.source4 b == .pins then (if (s.bridge b).idle then s else s.takeState b (s.bridge b).src.code s.now)
    else match (s.bridge b).missed with
      | some (t, e) => if t = s.td0 then (s.onBridge b fun x => { x with idle := false, missed := none }).takeState b e.st e.stamp else s
      | none => s

/-- Pins are followed from the tick after the one in which ring time became trusted (R320). -/
def State.followPins (s : State) : State :=
  match (s.die 0).bg.follow with
  | some t =>
    if t ≤ s.td0 then (s.onBg fun g => { g with follow := none }).each [0, 1, 2] fun s b =>
      if s.source4 b == .pins && !(s.bridge b).idle && !s.bridgeBlocked b then s.takeState b (s.bridge b).src.code s.now else s
    else s
  | none => s

/-- An accepted manifest becomes current or next (R307). -/
def State.acceptManifest (s : State) (b : Nat) (m : Manifest) : State :=
  match (s.bridge b).cur with
  | none => s.makeCurrent b m
  | some _ =>
    let s := s.when (s.bridge b).next.isSome (·.sticky 0 Sk.BG.MAN_REPLACED)
    s.onBridge b fun x => { x with next := some m }

end Sys2Proof.Machine
end

