-- ==== Sys2Proof/Machine/Cell.lean ====
section
/-! DEFINITION. The command path of a node (11): manifest edges, the DAB modulator, direct leg mode, command pins, BG_SRC. -/

namespace Sys2Proof.Machine

/-- A node whose command path runs: alive, no head part (11 R322: idle on a head). -/
def State.pathOn (s : State) : Bool := s.alive 0 && !s.isHead

/-- The present tick is the last one before an instant: the instant lies before the next tick. -/
def State.due (s : State) (inst : Int) : Bool := decide (inst < s.now + 8)

/-! ### Manifest edges -/

/-- The edges at the head of a list that share the first one's stamp: the last of them supersedes the rest (R308). -/
def firstEdge : List MEdge → Option (MEdge × List MEdge)
  | [] => none
  | [e] => some (e, [])
  | e :: f :: t => if e.stamp = f.stamp then firstEdge (f :: t) else some (e, f :: t)

/-- Is a late edge waiting for its tick (R310)? -/
def State.lateDue (s : State) (b : Nat) : Option MEdge :=
  match (s.bridge b).lateAt with
  | some (t, e) => if t ≤ s.td0 then some e else none
  | none => none

/-- The next edge of the current manifest, if its stamp has come and lies before the expiry (R308). -/
def State.edgeDue (s : State) (b : Nat) : Option (MEdge × List MEdge) :=
  match (s.bridge b).cur with
  | none => none
  | some m =>
    match firstEdge m.edges with
    | none => none
    | some (e, rest) => if s.due e.stamp && decide (e.stamp < m.expiry) then some (e, rest) else none

/-- The guard has taken hold of a leg of bridge b in this tick. -/
def State.heldNow (s : State) (b : Nat) : Bool := [2 * b, 2 * b + 1].any fun k => (s.leg k).tripAt == some (s.td0 : Int)

/-- EDGE_EXECUTE (R308, R310, R311): the edge due on bridge b sets its command at its stamp; in the tick of a guard hold it is
discarded with its manifest (R321). -/
def opEdgeExecute (b : Nat) (s : State) : State :=
  if s.heldNow b && ((s.lateDue b).isSome || (s.edgeDue b).isSome) then s.discardCurrent b else
  match s.lateDue b with
  | some e => (s.onBridge b fun x => { x with lateAt := none }).edge b e s.now
  | none =>
    match s.edgeDue b with
    | none => s
    | some (e, rest) =>
      (s.onBridge b fun x => { x with cur := x.cur.map fun m => { m with edges := rest } }).edge b e e.stamp

def execEdgeExecute (b : Nat) (s : State) : Res := s.always s.pathOn (opEdgeExecute b)

/-- MANIFEST_EXPIRY (R309): at the expiry the next manifest becomes current, and of its edges stamped before the expiry only
the last counts; without a next one the bridge takes BLOCK. -/
def opManifestExpiry (b : Nat) (s : State) : State :=
  match (s.bridge b).cur with
  | none => s
  | some m =>
    if !s.due m.expiry then s
    else if s.heldNow b && ((s.lateDue b).isSome || (s.edgeDue b).isSome) then opEdgeExecute b s else
    let s := s.each (List.range (m.edges.length + 1)) fun s _ => opEdgeExecute b s
    match (s.bridge b).next with
    | none => (s.onBridge b fun x => { x with cur := none }).takeBlock b true m.expiry
    | some n =>
      let past := n.edges.filter fun e => decide (e.stamp < m.expiry)
      let rest := n.edges.filter fun e => decide (m.expiry ≤ e.stamp)
      let s := s.onBridge b fun x => { x with cur := some { n with edges := rest }, next := none }
      match past.getLast? with
      | none => s
      | some e => s.edge b e m.expiry

def execManifestExpiry (b : Nat) (s : State) : Res := s.always s.pathOn (opManifestExpiry b)

/-! ### Dead time -/

/-- DEAD_TIME_END (R301, R303): a commanded switch whose partner has been low for the dead time goes high. -/
def opDeadTimeEnd (k : Nat) (s : State) : State := s.settle k s.tickEnd

def execDeadTimeEnd (leg : Nat) (s : State) : Res := s.always (s.pathOn && decide (leg < 6)) (opDeadTimeEnd leg)

/-! ### The DAB modulator -/

/-- Half a turn in 2^-48 turn. -/
def halfTurn : Int := 2 ^ 47

/-- The latest half-turn boundary a position reached in this tick, in either direction, if any. -/
def halfCrossed (p0 p1 : Int) : Option Int :=
  if p0 / halfTurn < p1 / halfTurn then some (p1 / halfTurn)
  else if -(-p1 / halfTurn) < -(-p0 / halfTurn) then some (-(-p1 / halfTurn))
  else none

/-- Whether B1 and B2 are the DAB (R312). -/
def State.dabOn (s : State) : Bool := s.pathOn && (s.source4 1 == .dab) && (s.source4 2 == .dab)

/-- DAB_SHIFT limited to a quarter turn (R313). -/
def dabShift (v : BitVec 16) : Int := max (-16384) (min 16384 v.toInt)

/-- DAB_B1_EDGE (R312-R314): at a whole turn B1 takes P, at a half turn N; B2's edge follows by the phase shift, in the direction the domain
runs. After a block both resume at a whole turn. DEDUCED, log entry 45. -/
def opDabB1Edge (s : State) : State :=
  let x := s.dom 0 (s.rd 0 Fd.BG_CARR.DAB_DOM)
  match halfCrossed x.prev x.pos with
  | none => s
  | some h =>
    let dir : Int := if 0 ≤ x.inc then 1 else -1
    let whole := h % 2 == 0
    let c : Pnz := if whole then ⟨true, false, false⟩ else ⟨false, true, false⟩
    let opp : Pnz := if whole then ⟨false, true, false⟩ else ⟨true, false, false⟩
    let phi := dabShift (s.nodeField 0x10)
    let owe : Int × Pnz :=
      if 0 ≤ phi then (h * halfTurn + dir * phi * 2 ^ 32, c) else ((h + dir) * halfTurn + dir * phi * 2 ^ 32, opp)
    let s := s.bridgeCmd 1 c false (x.crossing s.td0 (h * halfTurn))
    let free := whole && !s.bridgeBlocked 1 && !s.bridgeBlocked 2
    let s := s.when (free && ((s.bridge 1).idle || (s.bridge 2).idle)) fun s =>
      (s.onBridge 2 fun x => { x with idle := false }).bridgeCmd 1 c true (x.crossing s.td0 (h * halfTurn))
    s.onBridge 2 fun x => { x with owe := some owe }

def execDabB1Edge (s : State) : Res :=
  s.always (s.dabOn && (s.dom 0 (s.rd 0 Fd.BG_CARR.DAB_DOM)).src == 1) opDabB1Edge

/-- DAB_B2_EDGE (R313): B2 takes the command B1's edge owes it. -/
def opDabB2Edge (s : State) : State :=
  let x := s.dom 0 (s.rd 0 Fd.BG_CARR.DAB_DOM)
  match (s.bridge 2).owe with
  | none => s
  | some (p, c) =>
    if (if 0 ≤ x.inc then x.pos < p else p < x.pos) then s else
      (s.onBridge 2 fun y => { y with owe := none }).bridgeCmd 2 c false (x.crossing s.td0 p)

def execDabB2Edge (s : State) : Res := s.always s.dabOn opDabB2Edge

/-! ### Direct leg mode -/

def lphField (k : Nat) : Fld := if k % 2 = 0 then ⟨0x8, 0x74 + 4 * (k / 2), 1, 15, 0⟩ else ⟨0x8, 0x74 + 4 * (k / 2), 1, 31, 16⟩

/-- The carrier angle of leg k: the position plus its phase, in 2^-48 turn (R315). -/
def State.carrierPos (s : State) (k : Nat) (pos : Int) : Int := pos + (s.rd 0 (lphField k) : Int) * 2 ^ 32

/-- The carrier at an angle, in 2^-46 of full scale (R315). -/
def carrier (theta : Int) : Int := ((theta % 2 ^ 48 - 2 ^ 47).natAbs : Int) - 2 ^ 46

/-- The instant at which the carrier, running from c0 at instant i, passes a word, to the nearest eighth, at most the end of the tick (R315). -/
def crossInstant (i tickStart c0 word inc : Int) : Int :=
  if inc = 0 then i else min (tickStart + 8) (i + (16 * ((word - c0).natAbs : Int) + inc.natAbs) / (2 * inc.natAbs))

/-- A leg's command over a piece of a tick in which its carrier runs from c0, at instant i, to c1: each word it passes changes one switch at
its own instant (R315, R337). -/
def State.legPiece (s : State) (k : Nat) (i c0 c1 inc : Int) : State :=
  let h := (s.leg k).hk.toInt * 2 ^ 31
  let l := (s.leg k).lk.toInt * 2 ^ 31
  let up := decide (c1 < h)
  let lo := decide (l ≤ c1)
  let start := s.now - 8
  let iH := crossInstant i start c0 h inc
  let iL := crossInstant i start c0 l inc
  let was := ((s.leg k).srcUp, (s.leg k).srcLo)
  if up = was.1 && lo = was.2 then s
  else if up = was.1 then s.legCmd k up lo iL
  else if lo = was.2 || iH = iL then s.legCmd k up lo iH
  else if iH < iL then (s.legCmd k up was.2 iH).legCmd k up lo iL
  else (s.legCmd k was.1 lo iL).legCmd k up lo iH

/-- The carrier boundary a leg reached in this tick, in half turns of its carrier angle, and its instant (R316). -/
def State.boundaryNow (s : State) (k : Nat) : Option (Int × Int) :=
  let x := s.dom 0 (s.rd 0 Fd.BG_CARR.LMOD_DOM)
  (halfCrossed (s.carrierPos k x.prev) (s.carrierPos k x.pos)).map fun b =>
    (b, x.crossing s.td0 (b * halfTurn - (s.carrierPos k x.pos - x.pos)))

/-- The carrier at a boundary: 1 at a peak, -1 at a trough. -/
def boundaryLevel (b : Int) : Int := if b % 2 = 0 then 2 ^ 46 else -(2 ^ 46)

/-- LEG_CROSSING (R315, R337): the leg's command follows its carrier at the crossing instants; in the tick of a carrier boundary, up to it with
the words held before it, and from it on with those taken there. DEDUCED, log entry 46. -/
def opLegCrossing (k : Nat) (s : State) : State :=
  let x := s.dom 0 (s.rd 0 Fd.BG_CARR.LMOD_DOM)
  let c0 := carrier (s.carrierPos k x.prev)
  let c1 := carrier (s.carrierPos k x.pos)
  match s.boundaryNow k with
  | none => s.legPiece k (s.now - 8) c0 c1 x.inc
  | some (b, i) =>
    if (s.leg k).peakAt = some (s.td0 : Int) then s.legPiece k i (boundaryLevel b) c1 x.inc
    else s.legPiece k (s.now - 8) c0 (boundaryLevel b) x.inc

def State.legModeOn (s : State) (k : Nat) : Bool := s.pathOn && decide (k < 6) && (s.source4 (k / 2) == .leg)

def execLegCrossing (leg : Nat) (s : State) : Res := s.always (s.legModeOn leg) (opLegCrossing leg)

/-- CARRIER_PEAK (R316, R306, R320): at a peak or trough of its carrier a leg takes new H and L, and acts again after a change of source; at a
peak it acts again after a block. -/
def opCarrierPeak (k : Nat) (s : State) : State :=
  match s.boundaryNow k with
  | none => s
  | some (b, i) =>
    if (s.leg k).peakAt = some (s.td0 : Int) then s else
      let s := opLegCrossing k s
      let peak := b % 2 = 0
      let s := s.onLeg k fun l => { l with
        hk := s.nodeField (0x11 + 2 * k), lk := s.nodeField (0x12 + 2 * k), peakAt := some s.td0
        wait := if !s.bridgeBlocked (k / 2) && (l.wait == 1 || peak) then 0 else l.wait }
      let c := boundaryLevel b
      s.legCmd k (decide (c < (s.leg k).hk.toInt * 2 ^ 31)) (decide ((s.leg k).lk.toInt * 2 ^ 31 ≤ c)) i

def execCarrierPeak (leg : Nat) (s : State) : Res := s.always (s.legModeOn leg) (opCarrierPeak leg)

/-! ### Pins and the source register -/

/-- The level of a pin as accepted: a level that has stood for PIN_FLT + 1 samples, else the one accepted before (R317). -/
def State.accept (s : State) (old : Bool) (pin : Bool × Nat) : Bool :=
  if s.rd 0 Fd.BG_SRC.PIN_FLT + 1 ≤ pin.2 then pin.1 else old

/-- PIN_COMMAND (R317): the levels of the three pins in the present tick, each with the samples it has stood for; an accepted change is a command
of its bridge. DESIGN CHOICE, log entry 11. -/
def opPinCommand (b : Nat) (p n z : Bool × Nat) (s : State) : State :=
  let old := (s.bridge b).pin
  let c : Pnz := ⟨s.accept old.p p, s.accept old.n n, s.accept old.z z⟩
  let s := s.onBridge b fun x => { x with pin := c }
  if c = old || s.source4 b != .pins then s else s.bridgeCmd b c true s.now

def execPinCommand (b : Nat) (p n z : Bool × Nat) (s : State) : Res := s.always s.pathOn (opPinCommand b p n z)

/-- A write of BG_SRC (R306): a changed SRC_b or LEG_b blocks its bridge until the new source's next command change. -/
def opBgSrc (value : Word) (s : State) : State :=
  let old := s
  let w := s.cell 0 0x8060
  let new : Word := (w &&& ~~~0x07373737#32) ||| (value &&& 0x07373737#32)
  let s := s.putCell 0 0x8060 new
  s.each [0, 1, 2] fun s b =>
    if old.rd 0 (srcField b) = s.rd 0 (srcField b) && old.flag 0 (legField b) = s.flag 0 (legField b) then s else
      let s := s.onBridge b fun x => { x with cur := none, next := none, lateAt := none, owe := none, missed := none, undo := none }
      let s := (s.noteShoot (2 * b) false false).noteShoot (2 * b + 1) false false
      ((s.noteConflict b Pnz.none).legsWait b 1).takeBlock b true s.now

def execBgSrcWrite (value : Word) (s : State) : Res := s.guarded (s.alive 0) (opBgSrc value)

end Sys2Proof.Machine
end

