-- ==== Sys2Proof/Machine/Guard.lean ====
section
/-! DEFINITION. The bridge guard of a node (12): trips, holds, SLOW, gates low, locks. -/

namespace Sys2Proof.Machine

/-- The guard runs: a node with its BG page enabled (R341). -/
def State.guardOn (s : State) : Bool := s.pathOn && s.blockEn 0 8

/-- Legs a trip of leg k holds (R330). -/
def State.tripScope (s : State) (k : Nat) : List Nat :=
  if s.flag 0 Fd.BG_GCFG.SCOPE then [2 * (k / 2), 2 * (k / 2) + 1] else List.range 6

/-- TRIP_WIN in ticks, 0 acting as 1 ms and more than 1,000 as 1,000 (R338). -/
def State.tripWin (s : State) : Nat := max 1 (min 1000 (s.rd 0 Fd.BG_LOCKCFG.TRIP_WIN)) * 800000

/-- The lock rule: the trip lies less than TRIP_WIN after the oldest of the leg's last TRIP_N trips (R338). -/
def State.lockRule (s : State) (hist : List Int) : Bool :=
  let n := s.rd 0 Fd.BG_LOCKCFG.TRIP_N
  n != 0 && hist.length == n && (match hist.getLast? with | some t => decide ((s.td0 : Int) < t + s.tripWin) | none => false)

/-- A leg was held when the present tick began: a hold of an earlier tick, or one that a change of this tick cleared (R335). -/
def State.heldBefore (s : State) (k : Nat) : Bool :=
  (match (s.leg k).heldAt with
    | some t => decide (t < s.td0)
    | none => false) ||
  (match (s.leg k).freed with
    | some f => f.tick == s.td0
    | none => false)

/-- The first-trip record (R332, R333): taken while no leg is held; of the trips of one tick it names the lowest leg, and of a leg's causes the
first in the order of R328 and R329. DEDUCED, log entry 47. -/
def State.tripRecord (s : State) (k cause : Nat) : State :=
  let new := (s.die 0).bg.recAt != some (s.td0 : Int)
  let take := if new then !(List.range 6).any s.heldBefore
    else decide (k < s.rd 0 Fd.BG_TRIP.FIRST_LEG) || (k == s.rd 0 Fd.BG_TRIP.FIRST_LEG && decide (cause < s.rd 0 Fd.BG_TRIP.FIRST_CAUSE))
  let s :=
    if take then
      let s := s.when new fun s => (s.wr 0 Fd.BG_TRIP.TRIPPED 0 0).onBg fun g => { g with recAt := some s.td0 }
      ((s.wr 0 Fd.BG_TRIP.FIRST_LEG 0 k).wr 0 Fd.BG_TRIP.FIRST_CAUSE 0 cause).wr 0 Fd.BG_TRIP_T.W 0 (loWord s.td0)
    else s
  s.wrB 0 ⟨0x8, 0x48, 1, 8 + k, 8 + k⟩ 0 true

/-- The earlier of a tick and one that may stand already. -/
def sooner (t : Int) (o : Option Int) : Int :=
  match o with
  | some x => min x t
  | none => t

/-- A trip of this tick holds a leg: a hold that a change of the same tick cleared stands on (R335); its gate balls fall at `fall` at the
latest (R330). -/
def State.holdLeg (s : State) (k : Nat) (fall : Int) : State :=
  let old := match (s.leg k).freed with
    | some f => if f.tick = s.td0 then some f else none
    | none => none
  let s := s.onLeg k fun l => { l with
    fallAt := some (sooner fall l.fallAt), tripAt := some s.td0, freed := none
    heldAt := some (l.heldAt.getD ((old.map (·.heldAt)).getD s.td0))
    offDone := if l.heldAt.isSome then l.offDone else (old.map (·.offDone)).getD false
    own := l.own || (old.map (·.own)).getD false }
  s.when (s.leg k).own (·.raise 0 (0x80 + k))

/-- Has leg k tripped in this tick already, so that a further cause is the same trip (R328)? DEDUCED, log entry 47. -/
def State.trippedNow (s : State) (k : Nat) : Bool := (s.leg k).ownAt == some (s.td0 : Int)

/-- A trip of leg k decided in this tick (R330, R333, R338, R340). DEDUCED, log entry 47. -/
def State.tripLeg (s : State) (k cause : Nat) : State :=
  if s.trippedNow k then s.tripRecord k cause else
  let scope := s.tripScope k
  let s := ((s.sticky 0 Sk.BG.TRIP).bump 0 Fd.BG_COUNTS.TRIPS 0 1).tripRecord k cause
  let hist := ((s.td0 : Int) :: (s.leg k).hist).take (s.rd 0 Fd.BG_LOCKCFG.TRIP_N)
  let s := s.onLeg k fun l => { l with hist := hist, own := true, ownAt := some s.td0 }
  let s := s.each scope fun s j => s.holdLeg j (s.td0 + 8)
  let s := s.each (scope.map (· / 2)).dedup fun s b =>
    let s := s.undoTick b
    s.takeBlock b (s.source4 b != .pins && s.source4 b != .leg) s.now
  let s := s.onBridge (k / 2) fun x => { x with
    slowAt := some (sooner (s.td0 + 2) x.slowAt)
    slowEnd := some (max (x.slowEnd.getD 0) (s.td0 + 8 + s.rd 0 Fd.BG_TIMING.SLOW_HOLD)) }
  let s := s.when (s.lockRule hist) fun s => ((s.wrB 0 (lockField k) 0 true).sticky 0 Sk.BG.LEG_LOCK).raise 0 0x88
  s.raise 0 (0x80 + k)

/-! ### Comparators (R323-R328). A sense is a voltage on GSENSE in mV, rounded down; lists of samples are synchronised samples of consecutive
ticks, newest first, the newest of the tick before the present one. DESIGN CHOICE, log entry 11. -/

/-- BG_LEG as it acted in a tick (R341). -/
def wordAt (t : Int) (now : Word) : List (Int × Word) → Word
  | [] => now
  | (t0, w) :: rest => if t0 ≤ t then w else wordAt t now rest

def State.legWord (s : State) (k : Nat) (t : Int) : Nat := (wordAt t (s.cell 0 (0x8030 + 4 * k)) (s.leg k).words).toNat

/-- The threshold step of a leg's class in mV: class L in the cell role, and code 3, act as class M (R323, R324). -/
def State.senseStep (s : State) (w : Nat) : Nat :=
  match bitsOf w 15 14 with
  | 0 => 2
  | 2 => if s.cellRole then 4 else 6
  | _ => 4

/-- OVR of R325. -/
def ovrCode (w : Nat) : Nat := if bitsOf w 31 24 = 0 then min (2 * bitsOf w 23 16) 255 else bitsOf w 31 24

/-- Is a comparator of leg k asserted by a sense in a tick (R325)? -/
def State.asserted (s : State) (k : Nat) (override : Bool) (t : Int) (sense : Nat) : Bool :=
  let w := s.legWord k t
  decide ((if override then ovrCode w else bitsOf w 23 16) * s.senseStep w ≤ sense)

/-- Consecutive asserted samples, the newest of tick t. -/
def State.assertedRun (s : State) (k : Nat) (override : Bool) : (t : Int) → List Nat → Nat
  | _, [] => 0
  | t, v :: rest => if s.asserted k override t v then s.assertedRun k override (t - 1) rest + 1 else 0

/-- A comparator's count in the tick before the present one: samples since a gate ball of the leg went high, 0 while both are low (R326). -/
def State.count (s : State) (k : Nat) (override : Bool) (senses : List Nat) : Nat :=
  match (s.leg k).high with
  | none => 0
  | some (a, e) =>
    if (match e with
      | some e => decide (e < s.td0)
      | none => false) then 0
    else min (s.assertedRun k override (s.td0 - 1) senses) (s.td0 - a).toNat

def senseField (which k : Nat) : Fld := ⟨0x8, 0x54, 1, 8 * which + k, 8 * which + k⟩

/-- BG_SENSE shows the comparators of a leg at the latest sample. -/
def State.showSense (s : State) (k : Nat) (t : Int) (sense : Nat) : State :=
  (s.wrB 0 (senseField 0 k) 0 (s.asserted k false t sense)).wrB 0 (senseField 1 k) 0 (s.asserted k true t sense)

/-- BLANK of a leg, at most 400 ticks (R327). -/
def State.blank (s : State) (k : Nat) (t : Int) : Nat := min 400 (bitsOf (s.legWord k t) 8 0)

/-- The tick before the present one lies in the leg's blanking window (R327). -/
def State.blanked (s : State) (k : Nat) : Bool :=
  match (s.leg k).blankAt with
  | some h => decide (h ≤ s.td0 - 1) && decide ((s.td0 : Int) - 1 < h + s.blank k (s.td0 - 1))
  | none => false

/-- The tick before the present one was the first after a blanking window (R328). -/
def State.blankOver (s : State) (k : Nat) : Bool :=
  match (s.leg k).blankAt with
  | some h => s.blank k (s.td0 - 1) != 0 && (s.td0 : Int) - 1 == h + s.blank k (s.td0 - 1)
  | none => false

/-- The cause for which a leg's comparators trip it in the present tick, in the order of R328; 0 for none. -/
def State.tripCause (s : State) (k : Nat) (senses : List Nat) : Nat :=
  if s.count k true senses = 16 then 1
  else if s.count k false senses = 16 && !s.blanked k then 2
  else if s.blankOver k && decide (16 ≤ s.count k false senses) then 3
  else 0

/-- The comparators of a leg in the present tick. -/
def opComparators (k : Nat) (senses : List Nat) (s : State) : State :=
  match senses with
  | [] => s
  | v :: _ =>
    let cause := s.tripCause k senses
    let s := s.showSense k (s.td0 - 1) v
    if cause = 0 then s else s.tripLeg k cause

/-- TRIP (R326-R328): a comparator qualified in the tick before. -/
def execTrip (leg : Nat) (senses : List Nat) (s : State) : Res :=
  s.always (s.guardOn && decide (leg < 6)) (opComparators leg senses)

/-- END_BLANK (R328): in the first tick after blanking the normal count already stands at 16 or more. -/
def execEndBlank (leg : Nat) (senses : List Nat) (s : State) : Res :=
  s.always (s.guardOn && decide (leg < 6) && s.blankOver leg) (opComparators leg senses)

/-- Samples of GFLT, newest first, low since its enable was set: how many in a row (R329). DEDUCED, log entry 47. -/
def State.lowCount (s : State) (k : Nat) (low : List Bool) : Nat :=
  min (low.takeWhile id).length ((s.td0 : Int) - (s.leg k).gfltFrom).toNat

/-- DRIVER_TRIP (R329): GFLT low in four consecutive samples trips an enabled leg in the tick after the fourth. -/
def execDriverTrip (leg : Nat) (low : List Bool) (s : State) : Res :=
  s.always (s.guardOn && decide (leg < 6)) fun s =>
    let s := s.wrB 0 (senseField 2 leg) 0 (low.headD false)
    s.when (s.lowCount leg low == 4 && bitOf (s.rd 0 Fd.BG_GCFG.GFLT_EN) leg) fun s => s.tripLeg leg 4

def setBit3 (w : BitVec 3) (k : Nat) (b : Bool) : BitVec 3 := if b then w ||| (1#3 <<< k) else w &&& ~~~(1#3 <<< k)

/-- A ball SLOWb moves. -/
def State.setSlow (s : State) (b : Nat) (on : Bool) : State :=
  ({ s with pins := { s.pins with slow := setBit3 s.pins.slow b on } } : State).wrB 0 ⟨0x8, 0x8, 1, 16 + b, 16 + b⟩ 0 on

/-- SLOW_HIGH (R330): SLOWb rises two ticks after the decision. -/
def opSlowHigh (b : Nat) (s : State) : State :=
  if dueBy s.td0 (s.bridge b).slowAt then (s.onBridge b fun x => { x with slowAt := none }).setSlow b true else s

def execSlowHigh (b : Nat) (s : State) : Res := s.always s.pathOn (opSlowHigh b)

/-- GATES_LOW (R330): eight ticks after the decision both gate balls of a held leg fall, past the command logic. -/
def opGatesLow (k : Nat) (s : State) : State :=
  match (s.leg k).fallAt with
  | none => s
  | some t =>
    if (s.td0 : Int) < t then s else
      let at_ := t * 8
      let s := s.onLeg k fun l => { l with
        fallAt := none, upRise := none, loRise := none
        upFall := if s.gh k then some (sooner at_ l.upFall) else none, loFall := if s.gl k then some (sooner at_ l.loFall) else none }
      s.settleFalls k s.tickEnd

def execGatesLow (leg : Nat) (s : State) : Res := s.always s.pathOn (opGatesLow leg)

/-- SLOW_HOLD_END (R330): SLOWb falls SLOW_HOLD ticks after the gates went low. -/
def opSlowHoldEnd (b : Nat) (s : State) : State :=
  if dueBy s.td0 (s.bridge b).slowEnd then (s.onBridge b fun x => { x with slowEnd := none, slowAt := none }).setSlow b false else s

def execSlowHoldEnd (b : Nat) (s : State) : Res := s.always s.pathOn (opSlowHoldEnd b)

/-- Any of the leg's comparators or its driver fault is asserted (R339). -/
def State.sensed (s : State) (k : Nat) : Bool :=
  s.flag 0 (senseField 0 k) || s.flag 0 (senseField 1 k) || s.flag 0 (senseField 2 k)

/-- A write of BG_UNLOCK (R339): the lock of each named leg ends unless a sense is asserted. -/
def opUnlock (legs : Nat) (s : State) : State :=
  let s := s.each (List.range 6) fun s k =>
    if !bitOf legs k || !s.flag 0 (lockField k) then s
    else if s.sensed k then s.sticky 0 Sk.BG.UNLOCK_REFUSED
    else (s.wrB 0 (lockField k) 0 false).onLeg k fun l => { l with hist := [], offDone := true }
  s.when (s.rd 0 Fd.BG_STATUS.LOCKED == 0) (·.lower 0 0x88)

/-- UNLOCK: the write, with the senses of the six legs in that tick and the legs whose GFLT is low. -/
def execUnlock (legs : BitVec 6) (senses : List Nat) (gflt : BitVec 6) (s : State) : Res :=
  s.always s.pathOn fun s =>
    let s := s.each (List.range 6) fun s k =>
      (s.showSense k s.td0 (senses.getD k 0)).wrB 0 (senseField 2 k) 0 (bitOf gflt.toNat k)
    opUnlock legs.toNat s

/-- After a write of BG_LEG[k], which held `old` and acts from the next tick (R341): CLASS 3, and class L in the cell role, act as class M and set CLASS_ERR
(R324). -/
def opBgLeg (k : Nat) (old : Word) (s : State) : State :=
  let new := s.cell 0 (0x8030 + 4 * k)
  let next : Int := s.td0 + 1
  let s := s.onLeg k fun l => { l with
    words := ((next, new) :: (if l.words.isEmpty then [(0, old)] else l.words.filter fun e => e.1 != next)).take 32 }
  let c := s.rd 0 Fd.BG_LEG.CLASS k
  s.when (c == 3 || (c == 2 && s.cellRole)) (·.sticky 0 Sk.BG.CLASS_ERR)

/-- After a write of BG_GCFG, whose GFLT_EN was `old`: the sources of R336 and R337 follow their enables; a GFLT counts from the tick its enable is set in (R329). -/
def opBgGcfg (old : Nat) (s : State) : State :=
  let new := s.rd 0 Fd.BG_GCFG.GFLT_EN
  let s := s.each (List.range 6) fun s k => s.when (bitOf new k && !bitOf old k) fun s => s.onLeg k fun l => { l with gfltFrom := s.td0 }
  s.guardSources

/-- The guard disabled: every leg acts as held (R341). -/
def opGuardOff (s : State) : State := s.blockAll

/-- SOFT_RESET of the BG page (R322, R341): every hold, lock, trip history and record cleared, every bridge blocked, every
manifest discarded. BYPASS keeps its level, and SLOW and pending falls run on. -/
def opGuardReset (s : State) : State :=
  let s := s.dropManifests.each [0, 1, 2] fun s b => s.takeBlock b true s.now
  let s := s.onBg fun g => { g with
    bridge := g.bridge.map fun b => { b with zUpper := true, owe := none, src := Pnz.none, undo := none }
    leg := g.leg.map fun l => { l with
      heldAt := none, offDone := false, own := false, ownAt := none, tripAt := none, freed := none, hist := [], srcUp := false, srcLo := false, wait := 1
      words := [], gfltFrom := s.td0 }
    recAt := none }
  s.onDie 0 fun x => { x with flt := { x.flt with present := x.flt.present.filter fun p => !(p / 16 == 8) } }

end Sys2Proof.Machine
end

