-- ==== Sys2Proof/Machine/Measure.lean ====
section
/-! DEFINITION. The measurement front end (05): bits taken in, the two filters, latches, watchdogs, restarts. -/

namespace Sys2Proof.Machine

def State.mch (s : State) (d c : Nat) : Mch := (s.die d).mfe.ch.getD c Mch.zero

def State.onMch (s : State) (d c : Nat) (f : Mch → Mch) : State :=
  s.onDie d fun x => { x with mfe := { x.mfe with ch := setAt x.mfe.ch c f } }

/-- Dies with measurement balls (R128). -/
def State.hasSdd (s : State) (d : Nat) : Bool := if s.isHead then decide (d < 2) else d == 0

/-- The die whose SDC_CFG clocks a die's channels (R130). -/
def State.sdcDie (s : State) (d : Nat) : Nat := if s.isHead && d == 1 then 0 else d

/-- Modulator clock k as die d sees it (R130). -/
def State.sdc (s : State) (d k : Nat) : Sdc := (s.die (s.sdcDie d)).mfe.sdc.getD k Sdc.zero

def State.onSdc (s : State) (d k : Nat) (f : Sdc → Sdc) : State :=
  s.onDie d fun x => { x with mfe := { x.mfe with sdc := setAt x.mfe.sdc k f } }

/-- Is modulator clock k running for die d (R129, R130)? -/
def State.clockRuns (s : State) (d k : Nat) : Bool := (s.sdc d k).run && s.blockEn (s.sdcDie d) 4 && s.blockEn d 4

/-- The level of ball SDCk of die 0 or a node in the present tick: high for floor(DIV / 2) ticks from each edge; low when stopped (R129,
R144). -/
def State.sdcLevel (s : State) (k : Nat) : Bool :=
  let c := s.sdc 0 k
  s.on 0 4 && c.run && decide (((s.td0 : Int) - c.org) % c.div < (c.div / 2 : Nat))

/-- DIV as it acts (R129). -/
def sdcDiv (w : Word) : Nat := max 32 (min 160 (bitsOf w.toNat 15 8))

/-- A channel that is enabled and whose block is (R128, R144). -/
def State.chOn (s : State) (d c : Nat) : Bool :=
  s.on d 4 && s.hasSdd d && decide (c < 16) && bitOf (s.rd d Fd.CH_EN.EN) c

def osrOf (code : Nat) : Nat := 32 * 2 ^ code
def fosrOf (code : Nat) : Nat := 8 * 2 ^ min 2 code

def State.osr (s : State) (d c : Nat) : Nat := osrOf (s.rd d Fd.CH_CFG.OSR c)
def State.fosr (s : State) (d c : Nat) : Nat := fosrOf (s.rd d Fd.CH_CFG.FOSR c)
def State.sampDly (s : State) (d c : Nat) : Nat := max 1 (s.rd d Fd.CH_CFG.SAMP_DLY c)

/-! ### Filters (R134) -/

/-- Sums of every run of m neighbours. -/
def boxSums (m : Nat) : List Int → List Int
  | [] => []
  | a :: t => if m ≤ t.length + 1 then (((a :: t).take m).foldl (· + ·) 0) :: boxSums m t else []

/-- The newest raw value of a sinc filter of some order over bits (newest first), +1 for a 1 unless inverted. -/
def sincRaw (order m : Nat) (inv : Bool) (bits : List Bool) : Int :=
  let v := (bits.take (order * m - (order - 1))).map fun b => if b != inv then (1 : Int) else -1
  match order with
  | 2 => ((boxSums m (boxSums m v)).head?).getD 0
  | _ => ((boxSums m (boxSums m (boxSums m v))).head?).getD 0

/-- The word of CH_CFG, CH_SCALE or CH_THR a channel acts by: a changed GAIN, OFFSET, HI, LO, FQ, FLT_EN or FROZEN_N takes effect in the
next tick (R138). -/
def State.chWord (s : State) (d c : Nat) (f : Fld) : Word :=
  match (s.die d).mfe.held.find? fun e => e.1 == c with
  | some e => if f.base = Fd.CH_CFG.W.base then e.2.1 else if f.base = Fd.CH_SCALE.W.base then e.2.2.1 else e.2.2.2
  | none => s.cell d (f.key c)

def State.chRd (s : State) (d c : Nat) (f : Fld) : Nat := bitsOf (s.chWord d c f).toNat f.hi f.lo
def State.chRdS (s : State) (d c : Nat) (f : Fld) : Int := sx (f.hi + 1 - f.lo) (s.chRd d c f)

/-- Before a channel's words are written, those it acts by in this tick are kept (R138). -/
def State.holdCh (s : State) (d c : Nat) : State :=
  if (s.die d).mfe.held.any fun e => e.1 == c then s else
    s.onDie d fun x => { x with mfe := { x.mfe with held :=
      (c, s.cell d (Fd.CH_CFG.W.key c), s.cell d (Fd.CH_SCALE.W.key c), s.cell d (Fd.CH_THR.W.key c)) :: x.mfe.held } }

/-- Normalised to Q15, then scaled (R134). -/
def scaleQ15 (raw full : Int) (gain offset : Int) : Int :=
  satS 16 ((satS 16 (raw * 2 ^ 15 / full) * gain) / 2 ^ 12 + offset)

def State.scaled (s : State) (d c : Nat) (raw full : Int) : Int :=
  scaleQ15 raw full (s.chRdS d c Fd.CH_SCALE.GAIN) (s.chRdS d c Fd.CH_SCALE.OFFSET)

def State.chSettled (s : State) (d c : Nat) : Bool := decide (3 * s.osr d c ≤ (s.mch d c).n)

/-- Evaluation of the measurement filter at the newest captured bit (R134, R135); 0 until settled (R138). -/
def State.sinc3 (s : State) (d c : Nat) : Int :=
  if s.chSettled d c then
    s.scaled d c (sincRaw 3 (s.osr d c) (s.flag d Fd.CH_CFG.INV c) (s.mch d c).bits) ((s.osr d c : Int) ^ 3)
  else 0

/-! ### Conditions (R139, R142, R143) -/

def abnormalBit (c : Nat) : Fld := ⟨0x4, 0x8, 1, c, c⟩
def settledBit (c : Nat) : Fld := ⟨0x4, 0x8, 1, 16 + c, 16 + c⟩

/-- The fault source of a channel follows its conditions and FLT_EN. -/
def State.chSource (s : State) (d c : Nat) : State :=
  s.source d (0x40 + c) (s.chOn d c && (s.rd d Fd.CH_STAT.LIVE c &&& s.chRd d c Fd.CH_CFG.FLT_EN) != 0)

/-- Conditions take a value without an event. -/
def State.setLive (s : State) (d c live : Nat) : State :=
  ((s.wr d Fd.CH_STAT.LIVE c live).wrB d (abnormalBit c) 0 (live != 0)).chSource d c

/-- One condition is set or cleared; going from clear to set is an event. -/
def State.setCond (s : State) (d c n : Nat) (v : Bool) : State :=
  let old := s.rd d Fd.CH_STAT.LIVE c
  let new := if v then old ||| 2 ^ n else old &&& (15 - 2 ^ n)
  let s := s.setLive d c new
  if v && !bitOf old n then
    (s.sticky d Sk.MFE.EVENT c).wr d Fd.CH_STAT.CAUSE c (s.rd d Fd.CH_STAT.CAUSE c ||| 2 ^ n)
  else s

def State.setSettled (s : State) (d c : Nat) (v : Bool) : State :=
  (s.wrB d Fd.CH_STAT.SETTLED c v).wrB d (settledBit c) 0 v

/-! ### Restart and stop (R138) -/

/-- A channel stops: nothing captured, conditions gone without an event, no run of latches. DESIGN CHOICE, log entry 83. -/
def State.chStop (s : State) (d c : Nat) : State :=
  ((((s.onMch d c fun _ => Mch.zero).setSettled d c false).wr d Fd.CH_STAT.FCOUNT c 0).setLive d c 0)

/-- STUCK of an enabled channel whose clock is stopped (R139). -/
def State.stoppedClock (s : State) (d c : Nat) : State :=
  s.when (s.chOn d c && !s.clockRuns d (s.rd d Fd.CH_CFG.CLK_SEL c)) fun s => s.setCond d c 2 true

/-- A channel restarts; STUCK stands until a bit differs. Edges from this tick on count. DEDUCED, log entry 31. -/
def State.chRestart (s : State) (d c : Nat) : State :=
  if !s.chOn d c then s else
    let live := s.rd d Fd.CH_STAT.LIVE c
    let s := (((s.onMch d c fun _ => { Mch.zero with since := s.td0 }).setSettled d c false).wr d Fd.CH_STAT.FCOUNT c 0).wr d Fd.CH_FAST.VALUE c 0
    (s.setLive d c (live &&& 4)).stoppedClock d c

def channels : List Nat := List.range 16

/-- The dies whose channels a die's SDC clocks drive (R130). -/
def State.sdcUsers (s : State) (d : Nat) : List Nat := if s.isHead && d == 0 then [0, 1] else [d]

/-- The channels of a die on clock k. -/
def State.onClock (s : State) (e k : Nat) : List Nat := channels.filter fun c => s.rd e Fd.CH_CFG.CLK_SEL c == k

/-- A write of SDC_CFG (R129-R132): the present clock runs on to the first edge of the new grid; with EN at 0 the clock is held low from
now on. DEDUCED, log entry 31. -/
def opSdcCfg (d k : Nat) (value : Word) (s : State) : State :=
  if s.isHead && d == 1 then s else
    let s := s.putCell d (Fd.SDC_CFG.W.key k) (value &&& 0x8000FFFF#32)
    let div := sdcDiv value
    let first := s.td0 + 1 + (bitsOf value.toNat 7 0 % div + div - (s.td0 + 1) % div) % div
    if bitOf value.toNat 31 then s.onSdc d k fun x => { x with next := some (div, first) }
    else
      (s.onSdc d k fun x => { x with run := false, next := none }).each (s.sdcUsers d) fun s e =>
        s.each (s.onClock e k) fun s c => s.stoppedClock e c

def execSdcCfgWrite (d k : Nat) (value : Word) (s : State) : Res := s.guarded (s.alive d && decide (k < 4)) (opSdcCfg d k value)

/-- The first edge of a grid that was written: the clock runs by it, and every enabled channel on it restarts (R132). -/
def State.newGrid (s : State) (d k : Nat) : State :=
  match (s.sdc d k).next with
  | none => s
  | some (div, first) =>
    if (s.td0 : Int) < first then s else
      (s.onSdc d k fun x => { x with run := true, div := div, org := first, next := none }).each (s.sdcUsers d) fun s e =>
        s.each (s.onClock e k) fun s c => s.chRestart e c

/-- The start of a tick in a die's front end: clocks whose new grid begins; what was written to its channels takes effect (R132, R138). -/
def State.mfeStart (s : State) (d : Nat) : State :=
  let chs := (s.die d).mfe.held.map (·.1)
  let s := s.onDie d fun x => { x with mfe := { x.mfe with held := [] } }
  let s := s.each chs fun s c => s.chSource d c
  if s.isHead && d == 1 then s else s.each (List.range 4) fun s k => s.newGrid d k

/-- A write of CH_EN (R128, R138). -/
def opChEn (d : Nat) (value : Word) (s : State) : State :=
  if !s.hasSdd d then s else
    let old := s.rd d Fd.CH_EN.EN
    let new := bitsOf value.toNat 15 0
    let s := s.wr d Fd.CH_EN.EN 0 new
    s.each channels fun s c =>
      if bitOf new c && !bitOf old c then s.chRestart d c
      else if !bitOf new c && bitOf old c then s.chStop d c
      else s

def execChEnWrite (d : Nat) (value : Word) (s : State) : Res := s.guarded (s.alive d) (opChEn d value)

/-- A write of CH_CFG, CH_SCALE or CH_THR of a channel (R138): a changed filter or clock restarts it. DEDUCED, log entry 31. -/
def opChWrite (d c : Nat) (write : State → State) (s : State) : State :=
  let m : Word := 0x00001F7F#32
  let old := s.cell d (Fd.CH_CFG.W.key c)
  let s := write (s.holdCh d c)
  s.when ((old &&& m) != (s.cell d (Fd.CH_CFG.W.key c) &&& m)) (·.chRestart d c)

/-- BLOCK_EN of the MFE page (R130, R138, R144). -/
def opMfeEn (d : Nat) (on : Bool) (s : State) : State :=
  let enabled := channels.filter fun c => bitOf (s.rd d Fd.CH_EN.EN) c
  let s := s.each enabled fun s c => if on then s.chRestart d c else s.chStop d c
  s.when (s.isHead && d == 0) fun s => s.each channels fun s c =>
    if !on then s.stoppedClock 1 c
    else s.when (s.sdc 1 (s.rd 1 Fd.CH_CFG.CLK_SEL c)).run fun s => s.chRestart 1 c

/-- SOFT_RESET of the MFE page: its registers stand at reset, so no channel is enabled and no clock runs. -/
def opMfeReset (d : Nat) (s : State) : State :=
  let s := s.onDie d fun x => { x with mfe := Mfe.zero }
  let s := s.each channels fun s c => s.lower d (0x40 + c)
  s.when (s.isHead && d == 0) fun s => s.each channels fun s c => s.stoppedClock 1 c

/-! ### Bits taken in (R133, R137) -/

/-- A fast result (R134, R138, R139): HI and LO against their runs. -/
def State.fastStep (s : State) (d c : Nat) : State :=
  let f := s.fosr d c
  if (s.mch d c).n < 2 * f then s else
    let y := s.scaled d c (sincRaw 2 f (s.flag d Fd.CH_CFG.INV c) (s.mch d c).bits) ((f : Int) ^ 2)
    let fq := s.chRd d c Fd.CH_CFG.FQ_M1 + 1
    let hi := decide (s.chRdS d c Fd.CH_THR.HI ≤ y)
    let lo := decide (y < s.chRdS d c Fd.CH_THR.LO)
    let s := s.wrS d Fd.CH_FAST.VALUE c y
    let s := s.onMch d c fun m => { m with hiRun := if hi then m.hiRun + 1 else 0, loRun := if lo then m.loRun + 1 else 0 }
    let s := if hi then (s.when (decide (fq ≤ (s.mch d c).hiRun)) fun s => s.setCond d c 0 true) else s.setCond d c 0 false
    if lo then (s.when (decide (fq ≤ (s.mch d c).loRun)) fun s => s.setCond d c 1 true) else s.setCond d c 1 false

/-- The bit of three samples: their majority (R133). -/
def vote (x : Samples) : Bool := (x.1 && x.2.1) || (x.1 && x.2.2) || (x.2.1 && x.2.2)

/-- One bit is captured: stuck watchdog, fast filter, settling. A STUCK that stood through a restart clears at the first bit that differs
from one captured since. DESIGN CHOICE, log entry 82. -/
def State.takeBit (s : State) (d c : Nat) (b : Bool) : State :=
  let old := (s.mch d c).bits
  let s := s.onMch d c fun m => { m with bits := (b :: m.bits).take 768, n := m.n + 1 }
  let m := s.mch d c
  let s :=
    if decide (128 ≤ m.bits.length) && (m.bits.take 128).all (· == b) then s.setCond d c 2 true
    else if old.head? == some (!b) then s.setCond d c 2 false
    else s
  let s := s.when (m.n % s.fosr d c == 0) fun s => s.fastStep d c
  s.when (s.chSettled d c) fun s => s.setSettled d c true

/-- The first edge of a clock's grid at or after a tick. -/
def Sdc.edgeFrom (c : Sdc) (t : Int) : Int := t + (c.org - t) % c.div

/-- Are n bits due to a channel, one from each edge of its clock after the newest captured, the last at tick `edge`, and captured before the
present tick (R129, R131-R133, R135)? -/
def State.edgesOk (s : State) (d c edge n : Nat) : Bool :=
  let k := s.rd d Fd.CH_CFG.CLK_SEL c
  let m := s.mch d c
  let x := s.sdc d k
  let first := if m.n = 0 then x.edgeFrom m.since else m.edge + x.div
  s.clockRuns d k && decide (0 < n) && decide ((edge : Int) = first + x.div * ((n : Int) - 1)) && decide (edge + s.sampDly d c + 1 < s.td0)

/-- Bits captured since the last command of the channel, oldest first; the newest at clock edge `edge`. -/
def opBits (d c edge : Nat) (bits : List Samples) (s : State) : State :=
  s.when (!bits.isEmpty) fun s => (s.each bits fun s b => s.takeBit d c (vote b)).onMch d c fun m => { m with edge := edge }

def State.bitsOk (s : State) (d c edge : Nat) (bits : List Samples) : Bool := s.chOn d c && (bits.isEmpty || s.edgesOk d c edge bits.length)

/-- CHANNEL_SETTLED: with these bits, 3 × OSR have been captured since the restart (R138). -/
def execChannelSettled (d c edge : Nat) (bits : List Samples) (s : State) : Res :=
  s.guarded (s.bitsOk d c edge bits && decide (3 * s.osr d c ≤ (s.mch d c).n + bits.length)) (opBits d c edge bits)

/-- FAST_RESULT: bits come in, and each multiple of FOSR captured since the restart gives a result (R134). DEDUCED, log entry 31. -/
def execFastResult (d c edge : Nat) (bits : List Samples) (s : State) : Res := s.guarded (s.bitsOk d c edge bits) (opBits d c edge bits)

/-- STUCK: 128 equal bits, or the clock of an enabled channel is stopped (R139). -/
def execStuck (d c edge : Nat) (bits : List Samples) (s : State) : Res :=
  let all := ((bits.map vote).reverse ++ (s.mch d c).bits).take 128
  let run := decide (128 ≤ all.length) && (all.all (· == true) || all.all (· == false))
  s.guarded (s.bitsOk d c edge bits && (run || !s.clockRuns d (s.rd d Fd.CH_CFG.CLK_SEL c))) fun s =>
    (opBits d c edge bits s).stoppedClock d c

/-- STUCK_CLEAR: a bit that differs from the previous one, the clock running (R139). -/
def execStuckClear (d c edge : Nat) (bit : Samples) (s : State) : Res :=
  s.guarded (s.chOn d c && s.edgesOk d c edge 1 && (s.mch d c).bits.head? == some (!vote bit)) (opBits d c edge [bit])

/-! ### Latches (R136, R139) -/

/-- FROZEN_N as it acts: 0 disables, 1 to 3 act as 4. -/
def frozenN (n : Nat) : Nat := if n = 0 then 0 else max 4 n

/-- A node's channel shows its latched value in its up fields: LATCH, and VCAP of the channel VCAP_SEL (10 R289). -/
def State.latchFields (s : State) (d c : Nat) (y : BitVec 16) : State :=
  if s.isHead || d != 0 then s else
    (s.setNodeField (0x180 + c) y).when ((s.nodeField 7).toNat % 16 == c) fun s => s.setNodeField 0xC y

/-- A channel is latched. -/
def State.latch (s : State) (d c : Nat) : State :=
  let m := s.mch d c
  let y : BitVec 16 := BitVec.ofInt 16 (s.sinc3 d c)
  let settled := s.chSettled d c
  let s := (s.wr d Fd.CH_LATCH.VALUE c y.toNat).wr d Fd.CH_LSTAMP.W c (ux 32 (if m.n = 0 then s.td0 else m.edge))
  let s := s.latchFields d c y
  if !settled then s else
    let s := s.onMch d c fun m => { m with lastLatch := some y }
    match m.lastLatch with
    | none => s.wr d Fd.CH_STAT.FCOUNT c 1
    | some o =>
      if o = y then
        let s := s.bump d Fd.CH_STAT.FCOUNT c 1
        let n := frozenN (s.chRd d c Fd.CH_CFG.FROZEN_N)
        s.when (n != 0 && decide (n ≤ s.rd d Fd.CH_STAT.FCOUNT c)) fun s => s.setCond d c 3 true
      else (s.wr d Fd.CH_STAT.FCOUNT c 1).setCond d c 3 false

/-- The LATCH actions of one tick: each enabled channel named by some group once (R136). -/
def State.latchGroups (s : State) (d : Nat) (groups : List Nat) : State :=
  let named := fun c => groups.any fun g => bitOf (s.rd d Fd.GRP_MASK.MASK (g % 16)) c
  s.each (channels.filter fun c => named c && s.chOn d c) fun s c => s.latch d c

end Sys2Proof.Machine
end

