-- ==== Sys2Proof/Machine/Fabric.lean ====
section
/-! DEFINITION. The Neone fabric (02 R56-R69): routes, reservations, admission, links, tollgates. -/

namespace Sys2Proof.Machine

/-- Link directions of a route, as (from, to): along the row to the destination's column, then across (R57). -/
def rowHops : (fuel src col : Nat) → List (Nat × Nat)
  | 0, _, _ => []
  | f + 1, src, col =>
    if src / 2 = col then []
    else if src / 2 < col then (src, src + 2) :: rowHops f (src + 2) col
    else (src, src - 2) :: rowHops f (src - 2) col

def route (src dst : Nat) : List (Nat × Nat) :=
  rowHops 4 src (dst / 2) ++ (if src % 2 = dst % 2 then [] else [(dst / 2 * 2 + src % 2, dst)])

/-- The valid reservations of every die, as (die, entry, destination, share), one entry's new value taken from `put`. -/
def State.reservations (s : State) (put : Nat × Nat × Word) : List (Nat × Nat × Nat) :=
  s.dieList.flatMap fun d => (List.range 32).filterMap fun i =>
    let w := if put.1 = d && put.2.1 = i then put.2.2 else s.cell d (Fd.RES_ENTRY.W.key i)
    if bitOf w.toNat 31 then some (d, bitsOf w.toNat 26 24, bitsOf w.toNat 17 16) else none

/-- No link direction of the route from d to dst carries more than two shares (R60). -/
def sharesFit (res : List (Nat × Nat × Nat)) (d dst : Nat) : Bool :=
  (route d dst).all fun h => decide (((res.filter fun r => (route r.1 r.2.1).contains h).map (·.2.2)).sum ≤ 2)

/-- A write of RES_ENTRY[i] (R60, R69). DEDUCED, log entry 24. -/
def opResEntry (d i : Nat) (value : Word) (s : State) : State :=
  let v := value &&& 0x8703FFFF#32
  let share := bitsOf v.toNat 17 16
  if s.locked d 0x10 then s
  else if s.device != .config then s.sticky d Sk.FAB.RES_REJECTED
  else if !bitOf v.toNat 31 then s.putCell d (Fd.RES_ENTRY.W.key i) v
  else if share = 0 || share = 3 || !sharesFit (s.reservations (d, i, v)) d (bitsOf v.toNat 26 24) then
    s.sticky d Sk.FAB.RES_REJECTED
  else s.putCell d (Fd.RES_ENTRY.W.key i) v

def execResEntryWrite (d i : Nat) (value : Word) (s : State) : Res :=
  s.guarded (s.alive d && decide (i < 32)) (opResEntry d i value)

/-- The valid entry that names a source port and instance (R61). -/
def State.resOf (s : State) (d port source : Nat) : Option Nat :=
  (List.range 32).find? fun i =>
    s.flag d Fd.RES_ENTRY.VALID i && s.rd d Fd.RES_ENTRY.PORT i == port && s.rd d Fd.RES_ENTRY.SOURCE i == source

/-- Transfers an entry has sent in the present admission window of four slots, 20 ticks (R60, R61). The windows begin at multiples of 20
ticks of ring time, as the slots of five ticks do at multiples of five. DESIGN CHOICE, log entry 79. -/
def State.sentNow (s : State) (d i : Nat) : Nat :=
  let f := (s.die d).fab
  if f.window = s.td0 / 20 then ((f.sent.find? fun e => e.1 == i).map (·.2)).getD 0 else 0

/-- A refused class A submission (R28, R61): with the entry concerned, or without one. -/
def State.refuseA (s : State) (d : Nat) (entry : Option Nat) : State :=
  let s := (s.sticky d Sk.FAB.CLASS_A_REFUSED).bump d Fd.FAB_COUNTS.REFUSED 0 1
  match entry with
  | some i => (s.wr d Fd.FAB_LAST_REFUSED.ENTRY 0 i).wr d Fd.FAB_LAST_REFUSED.NO_ENTRY 0 0
  | none => s.wr d Fd.FAB_LAST_REFUSED.NO_ENTRY 0 1

/-- A submission under an entry, if there is one: whether it is admitted (R61; with FAB disabled it is refused, R69). -/
def State.tryShare (s : State) (d : Nat) (entry : Option Nat) : Bool × State :=
  match entry with
  | none => (false, s.refuseA d none)
  | some i =>
    if !s.blockEn d 0x10 || s.rd d Fd.RES_ENTRY.SHARE i ≤ s.sentNow d i then (false, s.refuseA d (some i))
    else
      let n := s.sentNow d i + 1
      (true, s.onDie d fun x => { x with fab := { x.fab with
        window := s.td0 / 20
        sent := (i, n) :: (if x.fab.window = s.td0 / 20 then x.fab.sent.filter (fun e => e.1 != i) else []) } })

/-- A transfer enters the square of its source die, stamped with its submission (R62); two ticks later it waits there (R65). -/
def State.launch (s : State) (d port dst cls : Nat) (what : FabPayload) : State :=
  { s with fabric := s.fabric ++ [⟨d, port, dst, cls, s.td0, d, s.td0 + 2, what⟩] }

/-- A class A submission under an entry: admitted, it leaves for the entry's die. -/
def State.submitUnder (s : State) (d port : Nat) (entry : Option Nat) (what : FabPayload) : Bool × State :=
  let r := s.tryShare d entry
  (r.1, r.2.when r.1 fun t => t.launch d port (s.rd d Fd.RES_ENTRY.DEST (entry.getD 0)) 0 what)

/-- A class A submission of a source port and instance. -/
def State.submitA (s : State) (d port source : Nat) (what : FabPayload) : Bool × State :=
  s.submitUnder d port (s.resOf d port source) what

/-- A class A submission to a die, under the entry that names it too (R60). -/
def State.submitTo (s : State) (d port source dest : Nat) (what : FabPayload) : Bool × State :=
  s.submitUnder d port ((List.range 32).find? fun i =>
    s.flag d Fd.RES_ENTRY.VALID i && s.rd d Fd.RES_ENTRY.PORT i == port && s.rd d Fd.RES_ENTRY.SOURCE i == source &&
      s.rd d Fd.RES_ENTRY.DEST i == dest) what

/-- FABRIC_SUBMISSION: a class A transfer is judged (R61); one of class B or C needs no reservation, and is not made by a die whose FAB
page is disabled (R69). -/
def execFabricSubmission (d port source dst cls : Nat) (s : State) : Res :=
  s.guarded (s.isHead && s.alive d) fun s =>
    match cls with
    | 0 => (s.submitA d port source .other).2
    | 1 => s.when (s.blockEn d 0x10) fun s => s.launch d port dst 1 .other
    | 2 => s.when (s.blockEn d 0x10) fun s => s.launch d port dst 2 .other
    | _ => s

/-! ### Links (R66, R67) -/

def linkBit : FabLink → Nat
  | .minus => 0
  | .plus => 1
  | .row => 2

/-- The die at the other end of a link, where the part has it (R56). -/
def State.peer (s : State) (d : Nat) (l : FabLink) : Option Nat :=
  match l with
  | .minus => if 2 ≤ d then some (d - 2) else none
  | .plus => if d + 2 < s.part.dies then some (d + 2) else none
  | .row => if s.isHead then some (d ^^^ 1) else none

def linkBack : FabLink → FabLink
  | .minus => .plus
  | .plus => .minus
  | .row => .row

def linkFld (l : FabLink) : Fld := ⟨0x10, 0x20, 1, linkBit l, linkBit l⟩

/-- A link of one die is down until the die is reset; LINK_DOWN is present (R67) unless the die's FAB block is idle (01 R18). -/
def State.endDown (s : State) (d : Nat) (l : FabLink) : State :=
  ((s.wrB d (linkFld l) 0 false).sticky d Sk.FAB.LINK_DOWN).when (s.blockEn d 0x10) fun s => s.raise d 0x009

/-- A link goes down at both its ends. -/
def opLinkDown (d : Nat) (l : FabLink) (s : State) : State :=
  match s.peer d l with
  | none => s
  | some e => (s.endDown d l).endDown e (linkBack l)

def execLinkDown (d : Nat) (link : FabLink) (s : State) : Res := s.guarded (s.isHead && s.alive d) (opLinkDown d link)

/-- Every link of a die goes down (13 R362). -/
def State.allLinksDown (s : State) (d : Nat) : State := s.each [FabLink.minus, .plus, .row] fun s l => opLinkDown d l s

/-! ### Tollgates (R58, R59, R62-R64) -/

/-- The link of a die that leads to another. -/
def State.linkTo (s : State) (a b : Nat) : Option FabLink := [FabLink.minus, .plus, .row].find? fun l => s.peer a l == some b

/-- The fabric carries a transfer from die a to die b: FAB enabled on every die of the route, every link of it up (R57, R67, R69). -/
def State.joins (s : State) (a b : Nat) : Bool :=
  s.blockEn a 0x10 && (route a b).all fun h =>
    s.blockEn h.2 0x10 && match s.linkTo h.1 h.2 with | some l => s.flag h.1 (linkFld l) | none => false

/-- The age stamp by which a tollgate judges at a tick: the low 24 bits of the submission's ring time, of a transfer that has waited
2^22 ticks or more those of 2^22 ticks ago (R62, R63). -/
def FabXfer.stamp (x : FabXfer) (now : Nat) : Nat := max x.born (now - 2 ^ 22) % 2 ^ 24

/-- Stamp a is older than stamp b (R62). -/
def olderStamp (a b : Nat) : Bool := let k := (b + 2 ^ 24 - a) % 2 ^ 24; decide (1 ≤ k) && decide (k < 2 ^ 23)

/-- How far behind the last grant a transfer stands in the rotating order: dies first, then the ports of one die (R64). -/
def Gate.turn (g : Gate) (x : FabXfer) : Nat := (x.src + 15 - g.die) % 8 * 8 + (x.port + 15 - g.ports.getD x.src 7) % 8

/-- Within a class, does a tollgate grant x before y (R62-R64)? -/
def Gate.before (g : Gate) (now : Nat) (x y : FabXfer) : Bool :=
  olderStamp (x.stamp now) (y.stamp now) ||
    (!olderStamp (y.stamp now) (x.stamp now) && decide (g.turn x < g.turn y))

/-- The transfer a tollgate grants among those of the class in turn. -/
def Gate.first (g : Gate) (now : Nat) : List FabXfer → Option FabXfer
  | [] => none
  | x :: t => match g.first now t with
    | some y => some (if g.before now y x then y else x)
    | none => some x

/-- The class a slot goes to: C in slot 15 of a round if one waits, else the first of A, B, C that waits (R59). -/
def slotClass (slot15 : Bool) (l : List FabXfer) : List FabXfer :=
  let of := fun (c : Nat) => l.filter fun x => x.cls == c
  if slot15 && !(of 2).isEmpty then of 2 else if !(of 0).isEmpty then of 0 else if !(of 1).isEmpty then of 1 else of 2

def gateIndex : FabLink → Nat
  | .minus => 0
  | .plus => 1
  | .row => 2

def State.gate (s : State) (d g : Nat) : Gate := (s.die d).fab.gates.getD g Gate.zero

/-- A tollgate has granted a transfer (R64). -/
def State.noteGrant (s : State) (d g : Nat) (x : FabXfer) : State :=
  s.onDie d fun y => { y with fab := { y.fab with gates := setAt y.fab.gates g fun z =>
    { die := x.src, ports := setAt z.ports x.src fun _ => x.port } } }

/-- A granted transfer takes the slot: it reaches the next square four ticks later, its destination after the slot's five ticks and two
more (R65). -/
def FabXfer.move (x : FabXfer) (now e : Nat) : FabXfer :=
  { x with die := e, ready := if x.dst = e then now + 11 else now + 4 }

/-- One slot of a link direction (R59). -/
def State.gateSlot (s : State) (d : Nat) (l : FabLink) : State :=
  match s.peer d l with
  | none => s
  | some e =>
    if !(s.blockEn d 0x10 && s.blockEn e 0x10 && s.flag d (linkFld l)) then s else
      let g := s.gate d (gateIndex l)
      let waiting := s.fabric.filter fun x => x.die == d && decide (x.ready ≤ s.td0) && (route d x.dst).head? == some (d, e)
      match g.first s.td0 (slotClass (s.td0 / 5 % 16 == 15) waiting) with
      | none => s
      | some x => { s with fabric := s.fabric.erase x ++ [x.move s.td0 e] }.noteGrant d (gateIndex l) x

/-- A slot begins on every link direction at each multiple of five ticks, sixteen to a round (R58, R59). DESIGN CHOICE, log entry 79. -/
def State.fabricSlot (s : State) : State :=
  if !(s.isHead && s.td0 % 5 == 0) then s else
    s.each (s.dieList.filter fun d => s.alive d) fun s d => s.each [FabLink.minus, .plus, .row] fun s l => s.gateSlot d l

/-- The transfer that the tollgate of a die's local ports grants next, among those that have arrived. -/
def State.arrived (s : State) (d : Nat) : Option FabXfer :=
  (s.gate d 3).first s.td0 (slotClass false (s.fabric.filter fun x => x.die == d && x.dst == d && decide (x.ready ≤ s.td0)))

/-- Re-sends over a hop: CRC_RESENT and RESENT at both ends of the link, RESENT once per re-send (R66). DESIGN CHOICE, log entry 80. -/
def State.resentOver (s : State) (hop : Nat × Nat) (n : Nat) : State :=
  s.when (decide (0 < n)) fun s => s.each [hop.1, hop.2] fun s d => (s.sticky d Sk.FAB.CRC_RESENT).bump d Fd.FAB_COUNTS.RESENT 0 (min n 3)

/-- A class A transfer with a bad CRC is dropped (R67). -/
def State.lostA (s : State) (d : Nat) : State := (s.sticky d Sk.FAB.A_LOST).pulse d 0x008

/-- Can a transfer arrive so? One of class A is not re-sent, one of class B or C is lost over a hop of its route (R66, R67). -/
def FabXfer.fits (x : FabXfer) : FabArrival → Bool
  | .good _ => true
  | .badA => x.cls == 0
  | .badBC l => x.cls != 0 && decide (l.length < (route x.src x.dst).length)

/-- The outcome of a transfer that arrived (R66, R67), and whether its content is delivered. A link over which the third re-send failed is
down. DESIGN CHOICE, log entry 9. -/
def State.outcome (s : State) (x : FabXfer) (how : FabArrival) : Bool × State :=
  let hops := route x.src x.dst
  let resent := fun (l : List Nat) (s : State) => s.when (x.cls != 0) fun s => s.each (hops.zip l) fun s e => s.resentOver e.1 e.2
  match how with
  | .good l => (true, resent l s)
  | .badA => (false, s.lostA x.dst)
  | .badBC l =>
    match hops[l.length]? with
    | none => (false, s)
    | some h =>
      let s := (resent l s).resentOver h 3
      (false, match s.linkTo h.1 h.2 with | some k => opLinkDown h.1 k s | none => s)

/-- The arrived transfer of a die leaves the fabric. -/
def State.takeArrived (s : State) (d : Nat) (x : FabXfer) : State := { s with fabric := s.fabric.erase x }.noteGrant d 3 x

/-- The mirror record of a domain arrives at a die with a bad CRC: it is lost there (R67; 03 R84). -/
def State.loseMirror (s : State) (d i : Nat) : State :=
  match s.mirrors.find? (fun m => m.domain == i && !m.lost.contains d) with
  | none => s
  | some m => { s with mirrors := s.mirrors.map fun x => if x = m then { x with lost := x.lost ++ [d] } else x }.lostA d

/-- BLOCK_EN of a FAB page (R69; 01 R18): an idle block raises no fault source; a link still down shows again when it runs. -/
def opFabEn (d : Nat) (on : Bool) (s : State) : State :=
  if on then s.when ([FabLink.minus, .plus, .row].any fun l => (s.peer d l).isSome && !s.flag d (linkFld l)) fun s => s.raise d 0x009
  else s.lower d 0x009

/-- SOFT_RESET of a FAB page: the admission windows and tollgates start anew (R49). -/
def opFabReset (d : Nat) (s : State) : State := s.onDie d fun x => { x with fab := Fab.zero }

end Sys2Proof.Machine
end

