-- ==== Sys2Proof/Machine/Angle.lean ====
section
/-! DEFINITION. The angle base (03): domains and their changes, mirror records, arming and firing of milestone entries,
snapshots. Positions are in 2^-48 turn; compares use 2^-32 turn (R74). -/

namespace Sys2Proof.Machine

/-! ### Domains -/

def State.onDom (s : State) (d i : Nat) (f : Domain → Domain) : State :=
  s.onDie d fun x => { x with ang := { x.ang with dom := setAt x.ang.dom i f } }

/-- Into [-1/2, 1/2) turn (R78). -/
def wrapTurn (x : Int) : Int := (x + 2 ^ 47) % 2 ^ 48 - 2 ^ 47

/-- Position of a FREE domain in a tick (R77). -/
def Domain.freeAt (x : Domain) (t : Nat) : Int := x.anchorPos + x.nom * ((t : Int) - x.anchorT)

/-- A domain's advance into tick t (R75, R77, R78). -/
def Domain.advance (x : Domain) (t : Nat) : Domain :=
  if x.src = 1 then { x with prev := x.pos, pos := x.freeAt t, inc := x.nom }
  else
    match x.slew with
    | some (e, incs) =>
      if e < t then { x with prev := x.pos, pos := x.pos + incs, inc := incs, slew := none }
      else { x with prev := x.pos, pos := x.pos + x.inc }
    | none => { x with prev := x.pos, pos := x.pos + x.inc }

/-- A change applied in tick t (R78, R79). `slewExp` is SLEW_EXP; `trk` the tracker's angle in 2^-48 turn and its increment. -/
def Domain.apply (x : Domain) (u : DomUpd) (t slewExp : Nat) (trk : Int × Int) : Domain :=
  match u with
  | .track theta ts incs =>
    if x.src = 2 then
      let e := wrapTurn (theta + incs * ((t : Int) - ts) - x.pos)
      let n : Nat := 2 ^ min 24 slewExp
      { x with inc := incs + e.tdiv (n : Int), slew := some (t + n, incs) }
    else x
  | .reconfigure src nom ap at_ =>
    let y := { x with nom := nom, anchorPos := ap, anchorT := at_, src := if src = 1 || src = 2 then src else 0 }
    if src = 1 then { y with pos := y.freeAt t, inc := nom, slew := none }
    else if src = 2 then
      if x.src = 2 then y else { y with pos := x.pos + (trk.1 - x.pos) % 2 ^ 48, inc := trk.2, slew := none }
    else { y with inc := 0, slew := none }
  | .jump theta incs =>
    if x.src = 2 then { x with pos := x.pos + (theta - x.pos) % 2 ^ 48, inc := incs, slew := none } else x
  | .hold => { x with src := 0, inc := 0, slew := none }
  | _ => x

/-- The anchor the registers of a domain hold: position in 2^-48 turn and tick. -/
def State.anchorRegs (s : State) (d i : Nat) : Int × Nat :=
  (sx 32 (s.rd d Fd.AD_ANCHOR_CYC.W i) * 2 ^ 48 + (s.rd d Fd.AD_ANCHOR_FRAC.W i : Int) * 2 ^ 16,
   s.rd d Fd.AD_ANCHOR_LO.W i + s.rd d Fd.AD_ANCHOR_HI.W i * 2 ^ 32)

/-- The configuration of a domain: SRC and NOM as written, the anchor as the latest write of AD_ANCHOR_CYC took it (R102). -/
def State.domConfig (s : State) (d i : Nat) : DomUpd :=
  let a := (s.die d).ang.anchors.getD i (0, 0)
  .reconfigure (s.rd d Fd.AD_CFG.SRC i)
    (sx 48 (s.rd d Fd.AD_NOM_LO.W i + s.rd d Fd.AD_NOM_HI.W i % 65536 * 2 ^ 32)) a.1 a.2

/-- The tracker output a domain of die d follows: the angle of the latest sample as it stands, in 2^-48 turn, not carried on to the
present tick, and the speed of that sample as the increment. DESIGN CHOICE, log entry 81. -/
def State.trackOut (s : State) (d i : Nat) : Int × Int :=
  let c := s.rd d Fd.AD_CFG.TRACK_CH i
  ((s.rd d Fd.TRK_POS_FRAC.W c : Int) * 2 ^ 16,
   sx 48 (s.rd d Fd.TRK_SPEED_LO.W c + s.rd d Fd.TRK_SPEED_HI.W c % 65536 * 2 ^ 32))

/-- A change applied to a domain of one die in the present tick. -/
def State.applyDom (s : State) (d i : Nat) (u : DomUpd) : State :=
  s.onDom d i fun x => x.apply u s.td0 (s.rd d Fd.AD_CFG.SLEW_EXP i) (s.trackOut d i)

/-- Is a record for a domain (8-10: TD1-TD3) in flight? -/
def State.inFlight (s : State) (i : Nat) : Bool := s.mirrors.any fun m => m.domain == i

/-- What is held once a change comes to a held one (R83): a later update replaces a held update; a held change of the registers stands,
for it takes the tracker's angle when it applies, and so does a held jump, which takes the later angle. DEDUCED, log entry 27. -/
def DomUpd.over (old : Option DomUpd) (u : DomUpd) : DomUpd :=
  match old, u with
  | some (.reconfigure src nom ap at_), .track _ _ _ => .reconfigure src nom ap at_
  | some (.reconfigure src nom ap at_), .jump _ _ => .reconfigure src nom ap at_
  | some .hold, .track _ _ _ => .hold
  | some .hold, .jump _ _ => .hold
  | some (.jump _ _), .track theta _ incs => .jump theta incs
  | _, _ => u

/-- Die 0 submits a change at tick ts, or holds it (R82, R83). DEDUCED, log entry 27. -/
def State.submitDom (s : State) (i : Nat) (u : DomUpd) (ts : Nat) : State :=
  let x := s.dom 0 i
  if s.inFlight i || decide (ts < x.nextOk) then s.onDom 0 i fun x => { x with held := some (DomUpd.over x.held u) }
  else
    let s := s.onDom 0 i fun x => { x with nextOk := ts + 128, held := none }
    { s with mirrors := s.mirrors ++ [⟨i, ts + 128, u, []⟩] }

/-- A change of a domain by a register write or by a source: through a record on a head; on a node in its tick, the next one for a
register write (R79, R82). -/
def State.changeDom (s : State) (i : Nat) (u : DomUpd) (ts : Nat) : State :=
  if s.isHead then s.submitDom i u ts
  else if s.td0 < ts then { s with mirrors := s.mirrors ++ [⟨i, ts, u, []⟩] }
  else s.applyDom 0 i u

/-- The register writes of a node's domains that take effect in this tick (R79). -/
def State.nodeChanges (s : State) : State :=
  let now := s.mirrors.filter fun m => decide (m.te ≤ s.td0)
  ({ s with mirrors := s.mirrors.filter fun m => !decide (m.te ≤ s.td0) }).each now fun s m => s.applyDom 0 m.domain m.upd

def adRegFld : AdReg → Fld
  | .cfg => Fd.AD_CFG.W
  | .nomLo => Fd.AD_NOM_LO.W
  | .nomHi => Fd.AD_NOM_HI.W
  | .anchorLo => Fd.AD_ANCHOR_LO.W
  | .anchorHi => Fd.AD_ANCHOR_HI.W
  | .anchorFrac => Fd.AD_ANCHOR_FRAC.W
  | .anchorCyc => Fd.AD_ANCHOR_CYC.W

/-- Writable bits of a domain register (R102). -/
def adRegMask : AdReg → Word
  | .cfg => 0x001F030F#32
  | .nomHi => 0x0000FFFF#32
  | _ => 0xFFFFFFFF#32

/-- Does the write of this register change the domain: SRC, NOM, or the anchor, which applies at AD_ANCHOR_CYC (R79, R102)? -/
def State.changes79 (s : State) (i : Nat) (reg : AdReg) (new : Word) : Bool :=
  match reg with
  | .cfg => s.rd 0 Fd.AD_CFG.SRC i != bitsOf new.toNat 3 0
  | .nomLo => s.rd 0 Fd.AD_NOM_LO.W i != new.toNat
  | .nomHi => s.rd 0 Fd.AD_NOM_HI.W i != new.toNat
  | .anchorCyc => true
  | _ => false

/-- DOMAIN_CHANGE: a write of a domain register of die d (R79, R81). -/
def opDomainChange (d i : Nat) (reg : AdReg) (value : Word) (s : State) : State :=
  if d != 0 then s else
    let v := value &&& adRegMask reg
    let ch := s.changes79 i reg v
    let s := s.putCell 0 ((adRegFld reg).key i) v
    let s := s.when (reg == .anchorCyc) fun s => s.onDie 0 fun x => { x with ang := { x.ang with
      anchors := setAt x.ang.anchors i fun _ => s.anchorRegs 0 i } }
    s.when ch fun s => s.changeDom i (s.domConfig 0 i) (s.td0 + 1)

def execDomainChange (d domain : Nat) (reg : AdReg) (value : Word) (s : State) : Res :=
  s.guarded (s.alive d && decide (domain < 8)) (opDomainChange d domain reg value)

/-- A trim carried by a record or write holds 34 signed bits at most; a wall-time change applied (14 R376, R378). -/
def Wall.apply (w : Wall) (u : DomUpd) : Wall :=
  match u with
  | .tdSet v => { w with time := v }
  | .tdAdd v => { w with time := w.time + v }
  | .tdRel v => { w with time := (w.time + v) / 2 ^ 48 * 2 ^ 48 }
  | .tdTrim v => { w with trim := v }
  | _ => w

/-- The dies other than die 0 at which its record of a domain arrives: the fabric carries it there (R69), and it was not lost (R67). -/
def State.mirrorDies (s : State) (lost : List Nat) : List Nat :=
  s.dieList.filter fun k => k != 0 && s.alive k && s.joins 0 k && !lost.contains k

/-- A record disagreed with a die's own position (R84, R102). -/
def State.mirrorSkew (s : State) (k : Nat) : State := (s.sticky k Sk.ANG.MIRROR_SKEW).pulse k 0x021

/-- A change of TDn, n = 1 to 3, is submitted at tick ts, or held (R82, R83, 14 R376). -/
def State.submitWall (s : State) (n : Nat) (u : DomUpd) (ts : Nat) : State :=
  let w := s.wall.getD (n - 1) Wall.zero
  if s.inFlight (n + 7) || decide (ts < w.nextOk) then { s with wall := setAt s.wall (n - 1) fun w => { w with held := some u } }
  else
    let new := setAt s.wall (n - 1) fun w => { w with held := none, nextOk := ts + 128 }
    { s with wall := new, mirrors := s.mirrors ++ [⟨n + 7, ts + 128, u, []⟩] }

/-- A record of TDn applies on die 0 and at the dies it reached, which take its values (R84; 14 R376); a held change is then submitted. -/
def State.applyWall (s : State) (n : Nat) (u : DomUpd) (lost : List Nat) : State :=
  let old := s.wall.getD (n - 1) Wall.zero
  let s := { s with wall := setAt s.wall (n - 1) (·.apply u) }
  let new := s.wall.getD (n - 1) Wall.zero
  let s := s.each (s.mirrorDies lost) fun s k =>
    let c := (s.die k).ang.wall.getD (n - 1) WallCopy.zero
    let s := s.onDie k fun x => { x with ang := { x.ang with wall := setAt x.ang.wall (n - 1) fun c => ⟨new.time, c.prev, new.trim⟩ } }
    s.when (c.time != old.time) (·.mirrorSkew k)
  match new.held with
  | some v => s.submitWall n v s.td0
  | none => s

/-- MIRROR_RECORD (R82-R84): at T_e die 0 and every die the record reached apply the change of a domain; die 0's position is the
record's. A held update is then submitted. -/
def opMirrorRecord (i : Nat) (s : State) : State :=
  match s.mirrors.find? (fun m => m.domain == i && decide (m.te ≤ s.td0)) with
  | none => s
  | some m =>
    let s := { s with mirrors := s.mirrors.erase m }
    if 8 ≤ i then s.applyWall (i - 7) m.upd m.lost
    else
      let old := s.dom 0 i
      let s := s.applyDom 0 i m.upd
      let new := s.dom 0 i
      let s := s.each (s.mirrorDies m.lost) fun s k =>
        let skew := (s.dom k i).pos != old.pos
        let s := s.onDom k i fun x => { new with prev := x.prev, held := none, nextOk := 0 }
        s.when skew (·.mirrorSkew k)
      match new.held with
      | some u => (s.onDom 0 i fun x => { x with held := none, nextOk := s.td0 }).submitDom i u s.td0
      | none => s

def execMirrorRecord (domain : Nat) (s : State) : Res :=
  s.guarded (s.isHead && s.alive 0 && decide (domain < 11)) (opMirrorRecord domain)

/-- SLEW_END (R78): after the last tick of its slew a domain's increment is INCs. -/
def execSlewEnd (d domain : Nat) (s : State) : Res :=
  s.guarded (s.alive d) fun s => s.onDom d domain fun x =>
    match x.slew with
    | some (e, incs) => if e ≤ s.td0 then { x with inc := incs, slew := none } else x
    | none => x

/-! ### Milestone entries (R88-R101) -/

def msKey (i w : Nat) : Nat := 0xF0000 + 0x20 * i + 4 * w

def State.ms (s : State) (d i w : Nat) : Nat := (s.cell d (msKey i w)).toNat
def State.putMs (s : State) (d i w : Nat) (v : Nat) : State := s.putCell d (msKey i w) (BitVec.ofNat 32 v)

def State.msArmed (s : State) (d i : Nat) : Bool := bitOf (s.ms d i 0) 31
def State.setArmed (s : State) (d i : Nat) (b : Bool) : State :=
  s.putCell d (msKey i 0) (setBits (s.cell d (msKey i 0)) 31 31 (bnat b))

/-- The armed entries of a die, ascending. -/
def State.armedList (s : State) (d : Nat) : List Nat :=
  (s.die d).cells.filterMap fun e =>
    if 0xF0000 ≤ e.1 && decide (e.1 < 0xF8000) && e.1 % 0x20 == 0 && bitOf e.2.toNat 31 then some ((e.1 - 0xF0000) / 0x20) else none

/-- The domain of an entry: 0-7 an angle domain, 8-11 TD0-TD3. -/
def State.msDom (s : State) (d i : Nat) : Nat := bitsOf (s.ms d i 0) 27 24

/-- Time of TDn, n = 1 to 3, on a die before its latest advance and now, in 2^-48 ns: die 0 and a node keep it, the other dies hold their
copies (R70, R82). -/
def State.wallTime (s : State) (d n : Nat) : Int × Int :=
  if d = 0 then let w := s.wall.getD (n - 1) Wall.zero
    (w.prev, w.time)
  else let w := (s.die d).ang.wall.getD (n - 1) WallCopy.zero
    (w.prev, w.time)

/-- Trim of TDn on a die (14 R376). -/
def State.wallTrim (s : State) (d n : Nat) : Int :=
  if d = 0 then (s.wall.getD (n - 1) Wall.zero).trim else ((s.die d).ang.wall.getD (n - 1) WallCopy.zero).trim

/-- The advance of a wall-time domain in a tick, in 2^-48 ns: 1.25 ns x (1 + trim x 2^-36) (14 R376). -/
def wallInc (trim : Int) : Int := 5 * 2 ^ 46 + trim * (5 * 2 ^ 10)

def Wall.advance (w : Wall) : Wall := { w with prev := w.time, time := w.time + wallInc w.trim }

def WallCopy.advance (w : WallCopy) : WallCopy := { w with prev := w.time, time := w.time + wallInc w.trim }

/-- Previous and present position of a domain in the units of its compares (R91). -/
def State.position (s : State) (d dom : Nat) : Int × Int :=
  if dom < 8 then ((s.dom d dom).prev / 2 ^ 16, (s.dom d dom).pos / 2 ^ 16)
  else if dom = 8 then (s.td0Prev, s.td0)
  else let w := s.wallTime d (dom - 8)
       (w.1 / 2 ^ 48, w.2 / 2 ^ 48)

/-- The compare of an entry (R88). -/
def State.compare (s : State) (d i : Nat) : Int :=
  let hl := s.ms d i 3 + s.ms d i 4 * 2 ^ 32
  let dom := s.msDom d i
  if dom < 8 then sx 64 hl * 2 ^ 32 + s.ms d i 2 else if dom = 8 then hl else (hl : Int) * 10 ^ 9 + s.ms d i 2

/-- A compare written back (R88). -/
def State.putCompare (s : State) (d i : Nat) (c : Int) : State :=
  let dom := s.msDom d i
  let f := if dom < 8 then (c % 2 ^ 32).toNat else if dom = 8 then s.ms d i 2 else (c % 10 ^ 9).toNat
  let h := ux 64 (if dom < 8 then c / 2 ^ 32 else if dom = 8 then c else c / 10 ^ 9)
  ((s.putMs d i 2 f).putMs d i 3 (loWord h)).putMs d i 4 (hiWord h)

/-- How an entry recurs (R88, R90). -/
inductive Recur where
  | once
  | every (step : Nat)      -- K turns in 2^-32 turn, or PERIOD
  | divide (n : Nat)        -- 1/N turn
  deriving DecidableEq, Repr

def State.recur (s : State) (d i : Nat) : Recur :=
  let r := bitsOf (s.ms d i 0) 23 22
  let w := s.ms d i 1
  if r = 0 || r = 3 then .once
  else if 8 ≤ s.msDom d i then (if w = 0 then .once else .every w)
  else if r = 1 then .every ((bitsOf w 7 0 + 1) * 2 ^ 32)
  else .divide (bitsOf w 27 16 + 1)

/-- Occurrence j of an entry armed at compare c (R90). -/
def Recur.occ (r : Recur) (c : Int) (j : Nat) : Int :=
  match r with
  | .once => c
  | .every st => c + (j : Int) * st
  | .divide n => c + ((j * 2 ^ 32 / n : Nat) : Int)

/-- Number of the first occurrence after the j-th that lies strictly ahead of p. -/
def Recur.after (r : Recur) (c : Int) (j : Nat) (p : Int) : Nat :=
  match r with
  | .once => j + 1
  | .every st => max (j + 1) ((p - c) / st + 1).toNat
  | .divide n => max (j + 1) (((p - c + 1) * n + (2 ^ 32 - 1)) / 2 ^ 32).toNat

/-- The compare an entry was armed with and the number of its next occurrence. -/
def State.msOrigin (s : State) (d i : Nat) : Int × Nat :=
  match (s.die d).ang.origin.find? (fun e => e.1 == i) with
  | some e => e.2
  | none => (s.compare d i, 0)

def State.setOrigin (s : State) (d i : Nat) (c : Int) (j : Nat) : State :=
  s.onDie d fun x => { x with ang := { x.ang with origin := (i, c, j) :: x.ang.origin.filter (fun e => e.1 != i) } }

/-- A strict entry dropped or skipped an occurrence (R102). DEDUCED, log entry 14. -/
def State.strictMiss (s : State) (d i : Nat) : State :=
  s.when (bitOf (s.ms d i 0) 30) fun s => (s.sticky d Sk.ANG.STRICT_MISS).pulse d 0x020

/-- A recurring entry moves to its first occurrence ahead of p; what it passed over is returned. -/
def State.moveOn (s : State) (d i : Nat) (p : Int) : Nat × State :=
  let r := s.recur d i
  let o := s.msOrigin d i
  let j := r.after o.1 o.2 p
  (j - o.2 - 1, (s.putCompare d i (r.occ o.1 j)).setOrigin d i o.1 j)

/-- A late occurrence is dropped (R100). DEDUCED, log entry 28. -/
def State.dropLate (s : State) (d i : Nat) (p : Int) : State :=
  let s := (s.sticky d Sk.ANG.LATE).wr d Fd.MS_INFO.LAST_LATE 0 i
  let s := s.strictMiss d i
  if s.recur d i = .once then (s.bump d Fd.MS_COUNTS.LATE_COUNT 0 1).setArmed d i false
  else
    let m := s.moveOn d i p
    m.2.bump d Fd.MS_COUNTS.LATE_COUNT 0 (1 + m.1)

/-- A late entry fires in the coming tick; the occurrences after its own that lie at or behind p are dropped (R100). -/
def State.fireLate (s : State) (d i : Nat) (p : Int) : State :=
  let o := s.msOrigin d i
  let n := (s.recur d i).after o.1 o.2 p - o.2 - 1
  let s := s.onDie d fun x => { x with ang := { x.ang with lateFire := x.ang.lateFire ++ [i] } }
  s.when (decide (0 < n)) fun s =>
    ((((s.sticky d Sk.ANG.LATE).wr d Fd.MS_INFO.LAST_LATE 0 i).bump d Fd.MS_COUNTS.LATE_COUNT 0 n).strictMiss d i).setOrigin d i o.1 (o.2 + n)

/-- The compare of an armed entry against the present position: a late one fires in the coming tick or is dropped (R100).
DEDUCED, log entry 28. -/
def State.examine (s : State) (d i : Nat) : State :=
  let dom := s.msDom d i
  if 12 ≤ dom then s else
    let p := (s.position d dom).2
    let c := s.compare d i
    if p < c then s
    else if p - c < s.ms d i 5 then s.fireLate d i p
    else s.dropLate d i p

/-- The compare of an entry with a short form resolved in the forward sense against a position (R99). -/
def State.resolved (s : State) (d i : Nat) (p : Int) : Int :=
  let c := s.compare d i
  if decide (s.msDom d i < 8) && !bitOf (s.ms d i 0) 29 then
    let f : Int := s.ms d i 2
    p / 2 ^ 32 * 2 ^ 32 + f + (if p % 2 ^ 32 < f then 0 else 2 ^ 32)
  else c

/-- A short form is resolved at the present position (R99); its further occurrences keep their places in the turn. -/
def State.resolveEntry (s : State) (d i : Nat) : State :=
  let c := s.resolved d i (s.position d (s.msDom d i)).2
  let o := s.msOrigin d i
  let k := c - s.compare d i
  s.when (k != 0) fun s => (s.putCompare d i c).setOrigin d i (o.1 + k) o.2

/-- An entry is armed at the present position (R98, R99). -/
def State.armEntry (s : State) (d i : Nat) : State :=
  let s := s.setArmed d i true
  let c := s.resolved d i (s.position d (s.msDom d i)).2
  ((s.when (c != s.compare d i) (·.putCompare d i c)).setOrigin d i c 0).examine d i

/-- An operation of MS_ARM takes effect at the start of a tick (R97, R98). -/
def State.msApply (s : State) (d i : Nat) (o : MsOp) : State :=
  match o with
  | .load ws =>
    let s := s.each ((List.range 7).zip ws) fun s e => s.putCell d (msKey i e.1) (if e.1 = 0 then e.2 &&& 0x6FCF0000#32 else e.2)
    s.armEntry d i
  | .disarm => s.setArmed d i false
  | .arm => if s.msArmed d i then s else s.armEntry d i

/-- The start of a tick in the table of die d: waiting operations, and the re-examination after BLOCK_EN (R96, R98). -/
def State.msStart (s : State) (d : Nat) : State :=
  let ops := (s.die d).ang.pendOps
  let again := (s.die d).ang.reexamine
  let s := s.onDie d fun x => { x with ang := { x.ang with pendOps := [], lateFire := [], reexamine := false } }
  let s := s.each ops fun s o => s.msApply d o.1 o.2
  s.when again fun s => s.each (s.armedList d) fun s i => (s.resolveEntry d i).examine d i

/-- A write of MS_ARM: the operation waits for the start of the next tick; LOAD copies the shadow now (R97, R98). -/
def opMsArm (d i : Nat) (o : MsOp) (s : State) : State :=
  s.onDie d fun x => { x with ang := { x.ang with pendOps := x.ang.pendOps ++ [(i, o)] } }

def State.msShadow (s : State) (d : Nat) : List Word := (List.range 7).map fun w => s.cell d (0x2040 + 4 * w)

/-- LOAD. -/
def execLoad (d i : Nat) (s : State) : Res := s.guarded (s.alive d && decide (i < 1024)) fun s => opMsArm d i (.load (s.msShadow d)) s

/-- DISARM. -/
def execDisarm (d i : Nat) (s : State) : Res := s.guarded (s.alive d && decide (i < 1024)) (opMsArm d i .disarm)

/-- ARM. -/
def execArm (d i : Nat) (s : State) : Res := s.guarded (s.alive d && decide (i < 1024)) (opMsArm d i .arm)

/-- Is an armed entry reached in the present tick (R91, R100)? -/
def State.reached (s : State) (d i : Nat) : Bool :=
  (s.die d).ang.lateFire.contains i ||
    (decide (s.msDom d i < 12) &&
      decide ((s.position d (s.msDom d i)).1 < s.compare d i) && decide (s.compare d i ≤ (s.position d (s.msDom d i)).2))

/-- Bookkeeping of a firing (R89, R92, R93): MS_LAST, then disarmed or moved on with what it skipped. -/
def State.fired (s : State) (d i : Nat) : State :=
  let s := s.putMs d i 7 (loWord s.td0)
  let s := s.onDie d fun x => { x with ang := { x.ang with lateFire := x.ang.lateFire.erase i } }
  if s.recur d i = .once then s.setArmed d i false
  else
    let m := s.moveOn d i (s.position d (s.msDom d i)).2
    if m.1 = 0 then m.2
    else (((m.2.sticky d Sk.ANG.SKIPPED).wr d Fd.MS_INFO.LAST_SKIP 0 i).bump d Fd.MS_COUNTS.SKIP_COUNT 0 m.1).strictMiss d i

/-- A PIN action (R95): PPS_OUT is die 0's ball. -/
def State.msPin (s : State) (d arg : Nat) : State :=
  if d != 0 || !s.flag 0 ⟨0x2, 0x6C, 1, 0, 0⟩ then s else
    let b := match arg % 4 with
      | 0 => !s.pins.ppsOut
      | 1 => true
      | 2 => false
      | _ => s.pins.ppsOut
    { s with pins := { s.pins with ppsOut := b } }

/-! ### Snapshots, SOFT_RESET -/

/-- A write of SNAP_SEL captures TD0 and a domain in one tick (R102). -/
def opSnapSel (d domain : Nat) (s : State) : State :=
  let s := (s.wr d Fd.SNAP_T_LO.W 0 (loWord s.td0)).wr d Fd.SNAP_T_HI.W 0 (hiWord s.td0)
  let put := fun (s : State) (frac lo hi ilo ihi : Nat) =>
    ((((s.wr d Fd.SNAP_POS_FRAC.W 0 frac).wr d Fd.SNAP_POS_LO.W 0 lo).wr d Fd.SNAP_POS_HI.W 0 hi).wr d Fd.SNAP_INC_LO.W 0 ilo).wr d Fd.SNAP_INC_HI.W 0 ihi
  if domain < 8 then
    let x := s.dom d domain
    let cyc := ux 64 (x.pos / 2 ^ 48)
    put s (x.pos / 2 ^ 16 % 2 ^ 32).toNat (loWord cyc) (hiWord cyc) (loWord (ux 48 x.inc)) (ux 48 x.inc / 2 ^ 32 + (x.pos % 2 ^ 16).toNat * 65536)
  else if domain = 8 then put s 0 (loWord s.td0) (hiWord s.td0) 0 0
  else if domain < 12 then
    let w := (s.wallTime d (domain - 8)).2
    let ns := w / 2 ^ 48
    let sec := ux 64 (ns / 10 ^ 9)
    put s (ns % 10 ^ 9).toNat (loWord sec) (hiWord sec) (w / 2 ^ 32 % 2 ^ 16).toNat 0
  else s

def execSnapSel (d domain : Nat) (s : State) : Res := s.guarded (s.alive d && decide (domain < 16)) (opSnapSel d domain)

/-- SOFT_RESET of the ANG page (R88): every entry 0; each domain of die 0 or of a node takes HOLD where it stands. -/
def opAngReset (d : Nat) (s : State) : State :=
  let s := s.dropCells d fun k => decide (0xF0000 ≤ k) && decide (k < 0xF8000)
  let s := s.onDie d fun x => { x with ang := { x.ang with
    pendOps := [], lateFire := [], origin := [], reexamine := false, anchors := List.replicate 8 (0, 0) } }
  if d != 0 then s else s.each (List.range 8) fun s i => s.changeDom i .hold (s.td0 + 1)

end Sys2Proof.Machine
end

