-- ==== Sys2Proof/Machine/Flags.lean ====
section
/-! DEFINITION. Numbers and flags of the loop engines (06 R148-R152, 07 R184-R188): saturation, conversion, the flag word,
branch conditions, and the integer arithmetic behind SINCOS. -/

namespace Sys2Proof.Machine

/-- An accumulator holds 40 signed bits; a result outside them gives the nearer limit, and says so (R149, R151). -/
def satAcc (x : Int) : Int × Bool := (satS 40 x, satS 40 x != x)

/-- Conversion of an accumulator to a word (R152), and whether it saturated. -/
def rnd (a : Int) : BitVec 16 × Bool :=
  let y := (a + 2 ^ 15) / 2 ^ 16
  (BitVec.ofInt 16 (satS 16 y), satS 16 y != y)

/-- A word as it enters an accumulator (R149). -/
def toAcc (x : Int) : Int := x * 2 ^ 16

/-- The product of two words (R150). -/
def product (a b : Int) : Int := a * b * 2

/-- The flag word F (R184). -/
def Inst.flags (x : Inst) : Nat := bnat x.z + 2 * bnat x.n + 4 * bnat x.v + 8 * bnat x.l + 16 * bnat x.wf + 32 * bnat x.dz

/-- Is a branch taken (R188)? -/
def Inst.taken (x : Inst) (code : Nat) : Bool :=
  match code with
  | 0 => true
  | 1 => x.z
  | 2 => !x.z
  | 3 => x.n
  | 4 => !x.n
  | 5 => x.n || x.z
  | 6 => !x.n && !x.z
  | 7 => x.v
  | 8 => x.l
  | 9 => x.wf
  | 10 => x.dz
  | _ => false

/-- LIM (R183): the clamped accumulator. -/
def limit (a lo hi : Int) : Int := if hi < lo then toAcc hi else min (max a (toAcc lo)) (toAcc hi)

/-- INTG (R185): the new integrator, and whether it was clamped. -/
def integrate (i lo hi : Int) : Int × Bool :=
  if hi < lo then (toAcc hi, true)
  else if toAcc hi < i then (toAcc hi, true)
  else if i < toAcc lo then (toAcc lo, true)
  else (i, false)

/-- DIV (R183): the quotient, V, D. -/
def divide (a x : Int) : Int × Bool × Bool :=
  if x = 0 then ((if a = 0 then 0 else if 0 < a then 2 ^ 39 - 1 else -(2 ^ 39)), false, true)
  else
    let q := satAcc ((a * 2 ^ 15).tdiv x)
    (q.1, q.2, false)

/-- SPT (R187): a word moved toward a target by at most r. -/
def stepToward (v t r : Int) : Int := v + min (max (t - v) (-r)) r

/-- TAB (R186): interpolation between neighbours of a table at fraction f. -/
def interpolate (y0 y1 : Int) (f : Nat) : Int := toAcc y0 + (y1 - y0) * f

/-- Sine of m / 2^14 of a quarter turn in Q15, by its series in units of 2^-32. -/
def sinQuarter (m : Nat) : Int :=
  let t : Int := (m : Int) * 6746518852 / 2 ^ 14
  let t2 := t * t / 2 ^ 32
  let p := [210, 156, 110, 72, 42, 20, 6].foldl (fun (acc k : Int) => 2 ^ 32 - t2 / k * acc / 2 ^ 32) (2 ^ 32)
  (t * p / 2 ^ 32 + 2 ^ 16) / 2 ^ 17

/-- Sine of pi × x ÷ 2^15 in Q15, x a signed word. DESIGN CHOICE, log entry 33. -/
def sinRef (x : Int) : Int :=
  let u := (x % 65536).toNat
  let m := u % 16384
  match u / 16384 with
  | 0 => sinQuarter m
  | 1 => sinQuarter (16384 - m)
  | 2 => - sinQuarter m
  | _ => - sinQuarter (16384 - m)

/-- A result of SINCOS: within 2 LSB of the function, which of those being open, and limited to ±32,767 (R183).
DESIGN CHOICE, log entry 33. -/
def sincosOut (cosine : Bool) (x : BitVec 16) : BitVec 16 :=
  let ref := sinRef (x.toInt + if cosine then 16384 else 0)
  let err := max (-2) (min 2 (Config.sincosErr cosine x))
  BitVec.ofInt 16 (max (-32767) (min 32767 (ref + err)))

end Sys2Proof.Machine
end

