-- ==== Sys2Proof/Machine/Tracker.lean ====
section
/-! DEFINITION. The angle tracker (04): samples, lines and edges, the mains loop, speed, standstill, loss. -/

namespace Sys2Proof.Machine

def State.trk (s : State) (d c : Nat) : Trk := (s.die d).trk.getD c Trk.zero

def State.onTrk (s : State) (d c : Nat) (f : Trk → Trk) : State :=
  s.onDie d fun x => { x with trk := setAt x.trk c f }

/-- The registers TRK_CFG to TRK_GRID of a channel. -/
def State.trkRegs (s : State) (d c : Nat) : List Word :=
  (List.range 6).map fun w => s.cell d (0x3100 + 0x40 * c + 4 * w)

/-- A configuration field as the latest sample took it (R125). -/
def State.trkRd (s : State) (d c : Nat) (f : Fld) : Nat :=
  bitsOf ((s.trk d c).words.getD ((f.base - 0x100) / 4) 0).toNat f.hi f.lo

def State.trkFlag (s : State) (d c : Nat) (f : Fld) : Bool := s.trkRd d c f != 0

/-- A source as it acts on a die: 0 where it has no balls or the block is off (R103, R127). -/
def State.sourceOn (s : State) (d c src : Nat) : Nat :=
  let balls := match src with
    | 1 => s.isHead && s.hasSdd d
    | 2 => s.hasSdd d
    | 3 => !s.isHead
    | 4 => s.isHead && d == 0
    | _ => false
  if s.on d 3 && decide (c < 4) && balls then src else 0

/-- The source a channel samples. -/
def State.trkSrc (s : State) (d c : Nat) : Nat := s.sourceOn d c (s.trkRd d c Fd.TRK_CFG.SRC)

def State.lines (s : State) (d c : Nat) : Nat := s.trkRd d c Fd.TRK_LINES.L_M1 + 1

/-- STILL and COAST in ticks (R119, R122). -/
def State.stillTicks (s : State) (d c : Nat) : Nat := max 1 (min 1000 (s.trkRd d c Fd.TRK_TIME.STILL)) * 800000
def State.coastTicks (s : State) (d c : Nat) : Nat := min 1000 (s.trkRd d c Fd.TRK_TIME.COAST) * 800000

/-- The sample period (R104). -/
def State.trkPeriod (s : State) (d c : Nat) : Nat := max 64 (s.trkRd d c Fd.TRK_PER.SP)

/-- A tick in which a running channel samples: a whole number of periods after its latest sample (R104). -/
def State.sampleTick (s : State) (d c : Nat) : Bool :=
  match (s.trk d c).sampled with
  | some t => (s.td0 - t) % s.trkPeriod d c == 0
  | none => false

/-- A channel samples now: a running one once in each such tick, one that samples nothing yet as soon as its registers name a source (R104,
R125). DESIGN CHOICE, log entry 84. -/
def State.sampleDue (s : State) (d c : Nat) : Bool :=
  if s.trkSrc d c = 0 then s.sourceOn d c (s.rd d Fd.TRK_CFG.SRC c) != 0
  else s.sampleTick d c && (s.trk d c).sampled != some (s.td0 : Int)

/-- A channel coasts, or is locked (R118, R119, R127). -/
def State.coasts (s : State) (d c : Nat) : Bool := s.trkSrc d c == 1 && s.flag d Fd.TRK_STAT.COASTING c
def State.locks (s : State) (d c : Nat) : Bool := s.trkSrc d c == 1 && s.flag d Fd.TRK_STAT.LOCKED c

/-- A frequency in Hz as 2^-48 turn per tick, held within [10, 70] Hz (R117). -/
def gridFreq (f : Int) : Int := max (10 * 2 ^ 48 / 800000000) (min (70 * 2 ^ 48 / 800000000) f)

/-! ### Transitions (R109-R111, R121) -/

/-- The interpolated fraction (R113). -/
def State.interp (s : State) (d c : Nat) : Nat :=
  let x := s.trk d c
  if !s.trkFlag d c Fd.TRK_CFG.INTERP || x.ntrans < 2 then 0
  else if s.flag d Fd.TRK_STAT.STANDSTILL c then x.frac
  else min ((s.td0 - x.tLast).toNat * 2 ^ 16 / x.interval) 65535

/-- No transition for STILL ms (R122). -/
def State.stillDue (s : State) (d c : Nat) : Bool :=
  decide (2 ≤ s.trkSrc d c) && decide ((s.trk d c).tLast + s.stillTicks d c ≤ s.td0) && !s.flag d Fd.TRK_STAT.STANDSTILL c

/-- Standstill: speed reads 0, the fraction is held (R113, R122). -/
def State.standStill (s : State) (d c : Nat) : State :=
  let i := s.interp d c
  let s := (s.onTrk d c fun x => { x with frac := i }).wrB d Fd.TRK_STAT.STANDSTILL c true
  (s.wr d Fd.TRK_SPEED_LO.W c 0).wr d Fd.TRK_SPEED_HI.W c 0

/-- A transition forward or backward: it reverses, or ends a standstill, and either clears the window (R121). One outside the window of the
last transition finds standstill declared (R122; 00 R13). -/
def State.transition (s : State) (d c : Nat) (back : Bool) : State :=
  let s := s.when (s.stillDue d c) fun s => s.standStill d c
  let still := s.flag d Fd.TRK_STAT.STANDSTILL c
  let rev := decide (0 < (s.trk d c).ntrans) && s.flag d Fd.TRK_STAT.REVERSE c != back
  let s := s.onTrk d c fun x =>
    { x with interval := (s.td0 - x.tLast).toNat, tLast := s.td0, ntrans := x.ntrans + 1, reversed := x.reversed || rev || still }
  (s.wrB d Fd.TRK_STAT.STANDSTILL c false).wrB d Fd.TRK_STAT.REVERSE c back

def State.illegalStep (s : State) (d c : Nat) : State := (s.bump d Fd.TRK_MAG.ILL_COUNT c 1).sticky d Sk.ATR.ILLEGAL c

/-- Next levels of a forward step: QA leads QB (R110). -/
def quadForward (qa qb : Bool) : Bool × Bool := (!qb, qa)

/-- Ticks for which QA, QB or a PULSE ball must have stood to pass the glitch filter (R112). -/
def State.filterTicks (s : State) (d c : Nat) : Nat := 32 * min 250 (s.trkRd d c Fd.TRK_LINES.QF)

/-- QUAD_TRANSITION: the filtered levels change; a QUAD channel counts (R110). -/
def opQuadTransition (d c : Nat) (qa qb : Bool) (s : State) : State :=
  let x := s.trk d c
  let s := s.onTrk d c fun x => { x with qa := qa, qb := qb, qAt := some s.td0 }
  if s.trkSrc d c != 3 then s
  else if x.qa != qa && x.qb != qb then s.onTrk d c fun x => { x with illegal := true }
  else
    let back := ((quadForward x.qa x.qb) != (qa, qb)) != s.trkFlag d c Fd.TRK_CFG.INV
    (s.onTrk d c fun x => { x with n := if back then x.n - 1 else x.n + 1 }).transition d c back

/-- The levels QA and QB take after standing for some ticks, once in a tick (R110, R112). -/
def execQuadTransition (d c : Nat) (qa qb : Bool) (stable : Nat) (s : State) : Res :=
  let x := s.trk d c
  s.guarded (s.alive d && !s.isHead && decide (c < 4) && (x.qa != qa || x.qb != qb) && x.qAt != some (s.td0 : Int) &&
    decide (s.filterTicks d c ≤ stable)) (opQuadTransition d c qa qb)

/-- PULSE_EDGE: a rising edge on PULSE0 or PULSE1, standing for some ticks, on the ball that CH_A[0] selects (R103, R111, R112). -/
def execPulseEdge (d c : Nat) (ball : Bool) (stable : Nat) (s : State) : Res :=
  s.guarded (s.trkSrc d c == 4 && ball == (s.trkRd d c Fd.TRK_CFG.CH_A % 2 == 1) && decide (s.filterTicks d c ≤ stable)) fun s =>
    let back := s.trkFlag d c Fd.TRK_CFG.INV
    (s.onTrk d c fun x => { x with n := if back then x.n - 1 else x.n + 1 }).transition d c back

/-! ### What a sample reads -/

/-- What a sample found: good, illegal, magnitude in Q15 where there is one. -/
structure Judged where
  good : Bool
  illegal : Bool
  mag : Nat
  deriving DecidableEq, Repr

/-- A named channel is stuck or frozen (05 R140). -/
def State.badInput (s : State) (d c : Nat) : Bool := s.rd d Fd.CH_STAT.LIVE c &&& 12 != 0

/-- A magnitude num / den in Q15 within [0.5, 1.5) of AMP_NOM (R106). DEDUCED, log entry 29. -/
def State.magOk (s : State) (d c : Nat) (num den : Int) : Bool :=
  let a : Int := s.trkRd d c Fd.TRK_AMP.AMP_NOM
  decide (a * den ≤ 2 * num) && decide (2 * num < 3 * a * den)

/-- The three inputs of a GRID channel, A, C, B under INV (R115). -/
def State.gridIn (s : State) (d c : Nat) : Int × Int × Int :=
  let a := s.sinc3 d (s.trkRd d c Fd.TRK_CFG.CH_A)
  let b := s.sinc3 d (s.trkRd d c Fd.TRK_CFG.CH_B)
  let e := s.sinc3 d (s.trkRd d c Fd.TRK_CFG.CH_C)
  if s.trkFlag d c Fd.TRK_CFG.INV then (a, e, b) else (a, b, e)

/-- Three times vα, and √3 times vβ (R115). -/
def gridVec (ll : Bool) (a b e : Int) : Int × Int := if ll then (a - e, b) else (2 * a - b - e, b - e)

/-- Nine times the squared length of the voltage vector (R115). -/
def gridNum (ll : Bool) (a b e : Int) : Int := let v := gridVec ll a b e; v.1 ^ 2 + 3 * v.2 ^ 2

/-- The angle of the voltage vector in 2^-48 turn, 0 where the phase A voltage crosses zero going positive (R115, R116).
DEDUCED, log entry 30. -/
def gridAngle (ll : Bool) (a b e : Int) : Int :=
  let v := gridVec ll a b e
  ((turnOf 48 (sqrt3 * v.2) (2 ^ 64 * v.1) : Nat) + 2 ^ 46 : Int) % 2 ^ 48

/-- Phase of a line pair in 2^-16 line, truncated (R108); of the pair 0, 0 it is 0. DESIGN CHOICE, log entry 30. -/
def phi16 (sn cs : Int) : Nat := turnOf 16 sn cs

/-- The quadrant of a line pair (R108); that of the pair 0, 0, which has no angle, is 0. DESIGN CHOICE, log entry 30. -/
def quadrantOf (sn cs : Int) : Nat := phi16 sn cs / 2 ^ 14

/-- Angle of a count and a signed fraction over m counts per turn, in 2^-48 turn (R108, R113). -/
def countAngle (n frac : Int) (m : Nat) : Int := ((n * 2 ^ 16 + frac) * 2 ^ 16 / m) * 2 ^ 16

def quadDist (a b : Nat) : Nat := (a + 4 - b) % 4

/-- A sample is judged (R106, R109, R110). -/
def State.judgeSample (s : State) (d c : Nat) : Judged :=
  let ca := s.trkRd d c Fd.TRK_CFG.CH_A
  let cb := s.trkRd d c Fd.TRK_CFG.CH_B
  let x := s.trk d c
  match s.trkSrc d c with
  | 1 =>
    let v := s.gridIn d c
    let num := gridNum (s.trkFlag d c Fd.TRK_CFG.LL) v.1 v.2.1 v.2.2
    let stuck := s.badInput d ca || s.badInput d cb || s.badInput d (s.trkRd d c Fd.TRK_CFG.CH_C)
    ⟨s.magOk d c num (9 * 2 ^ 15) && !stuck, false, min 65535 (num / (9 * 2 ^ 15)).toNat⟩
  | 2 =>
    let sn := s.sinc3 d ca
    let cs := s.sinc3 d cb
    let num := sn ^ 2 + cs ^ 2
    let ill := x.started && quadDist (quadrantOf sn cs) x.quad == 2
    ⟨s.magOk d c num (2 ^ 15) && !(s.badInput d ca || s.badInput d cb) && !ill, ill, min 65535 (num / 2 ^ 15).toNat⟩
  | _ => ⟨!x.illegal, x.illegal, s.rd d Fd.TRK_MAG.MAG c⟩

/-! ### What a good sample does -/

/-- A good SINCOS sample: its quadrant step, its line count, its angle (R108). -/
def State.goodSincos (s : State) (d c : Nat) : State :=
  let sn := s.sinc3 d (s.trkRd d c Fd.TRK_CFG.CH_A)
  let cs := s.sinc3 d (s.trkRd d c Fd.TRK_CFG.CH_B)
  let q := quadrantOf sn cs
  let x := s.trk d c
  let step := if x.started then quadDist q x.quad else 0
  let n := if step = 1 && q = 0 then x.n + 1 else if step = 3 && q = 3 then x.n - 1 else x.n
  let s := s.when (step == 1 || step == 3) fun s => s.transition d c (step == 3)
  s.onTrk d c fun x => { x with n := n, quad := q, angle := countAngle n (phi16 sn cs) (s.lines d c) }

/-- A good QUAD or PULSE sample (R110, R111, R113). -/
def State.goodCount (s : State) (d c m : Nat) : State :=
  let i : Int := s.interp d c
  let i := if s.flag d Fd.TRK_STAT.REVERSE c then -i else i
  s.onTrk d c fun x => { x with angle := countAngle x.n i m }

/-- The sample is entered in the speed window (R120). -/
def State.enterWindow (s : State) (d c : Nat) (ts : Int) : State :=
  let w := s.trkRd d c Fd.TRK_CFG.W_M1 + 1
  s.onTrk d c fun x =>
    { x with win := ((x.angle / 2 ^ 16, ts) :: (if x.reversed then [] else x.win)).take w, reversed := false }

/-- Speed of the window, zero against the direction of the last transition (R120); before any transition since the restart that direction is
forward, as REVERSE reads. DESIGN CHOICE, log entry 85. -/
def windowSpeed (win : List (Int × Int)) (back : Bool) : Int :=
  match win, win.getLast? with
  | (a, ta) :: _ :: _, some (b, tb) =>
    let v := ((a - b) * 2 ^ 16).tdiv (ta - tb)
    if (back && decide (0 < v)) || (!back && decide (v < 0)) then 0 else v
  | _, _ => 0

/-- NOM_HZ of a GRID channel as a frequency (R117). -/
def State.nomFreq (s : State) (d c : Nat) : Int := gridFreq ((s.trkRd d c Fd.TRK_GRID.NOM_HZ : Int) * 2 ^ 48 / 800000000)

/-- A step of the tracking loop (R116, R117): from its angle, its frequency, the vector's angle, BW and the ticks since the last sample, its
new angle, new frequency and phase error, in 2^-48 turn and 2^-48 turn per tick. With ω the natural frequency 2π × BW, the error moves the
angle by √2 ω dt and the frequency by ω² dt of itself; to each is added what the sampled form makes of it, at most 4 ω dt of the same.
DESIGN CHOICE, log entry 30. -/
def gridLoop (angle freq v bw : Int) (dt : Nat) : Int × Int × Int :=
  let pred := angle + freq * dt
  let e := wrapTurn (v - pred)
  let w := 6283185307 * bw * dt               -- ω dt, in units of 1 / (8 × 10^17)
  let one : Int := 8 * 10 ^ 17
  let a := 1414213562 * e * w / (10 ^ 9 * one)
  let f := e * w * w / (one * one * dt)
  let r := Config.gridForm e bw dt
  let near := fun (x lim : Int) => max (-lim) (min lim x)
  (pred + a + near r.1 (4 * a.natAbs * w / one + 1), gridFreq (freq + f + near r.2 (4 * f.natAbs * w / one + 1)), e)

/-- A good GRID sample: the loop starts or steps; coasting and loss end (R116-R119). The loop starts at the first good sample after a
restart, also where bad ones came before it; its error is then 0, and the 20 ms of LOCKED begin there. DESIGN CHOICE, log entry 85. -/
def State.goodGrid (s : State) (d c : Nat) (dt : Nat) : State :=
  let x := s.trk d c
  let v := s.gridIn d c
  let va := gridAngle (s.trkFlag d c Fd.TRK_CFG.LL) v.1 v.2.1 v.2.2
  let bw : Int := max 5 (min 200 (s.trkRd d c Fd.TRK_GRID.BW))
  if !x.started then
    s.onTrk d c fun x => { x with freq := s.nomFreq d c, angle := va, coastAt := none, lockAt := some s.td0 }
  else
    let r := gridLoop x.angle x.freq va bw dt
    let near := decide (r.2.2.natAbs < 2 ^ 39)
    let s := s.onTrk d c fun x => { x with
      angle := r.1, freq := r.2.1, coastAt := none
      lockAt := if near then (x.lockAt.orElse fun _ => some (s.td0 : Int)) else none }
    s.when (!near) fun s => s.wrB d Fd.TRK_STAT.LOCKED c false

/-! ### Status -/

/-- LOSS is set (R114, R119). -/
def State.setLoss (s : State) (d c : Nat) : State :=
  if s.flag d Fd.TRK_STAT.LOSS c then s else (s.wrB d Fd.TRK_STAT.LOSS c true).sticky d Sk.ATR.LOSS c

/-- The channel's fault source (R124); a channel that is OFF raises nothing (R127). DEDUCED, log entry 29. -/
def State.lossSource (s : State) (d c : Nat) : State :=
  s.source d (0x30 + c) (s.trkSrc d c != 0 && s.flag d Fd.TRK_STAT.LOSS c && s.trkFlag d c Fd.TRK_CFG.LOSS_SRC)

/-- Coasting has lasted COAST ms (R119). -/
def State.coastOver (s : State) (d c : Nat) : Bool :=
  s.trkSrc d c == 1 && match (s.trk d c).coastAt with
    | some t => decide (t + s.coastTicks d c ≤ s.td0)
    | none => false

/-- The error has stayed small for 20 ms (R118). -/
def State.lockDue (s : State) (d c : Nat) : Bool :=
  s.trkSrc d c == 1 && match (s.trk d c).lockAt with
    | some t => decide (t + 16000000 ≤ s.td0)
    | none => false

/-- What falls due at a sample by time alone. -/
def State.trkDue (s : State) (d c : Nat) : State :=
  let s := s.when (s.coastOver d c) fun s => s.setLoss d c
  let s := s.when (s.lockDue d c) fun s => s.wrB d Fd.TRK_STAT.LOCKED c true
  let s := s.when (s.stillDue d c) fun s => s.standStill d c
  s.lossSource d c

/-! ### Updates and restart -/

/-- The TRACK domains a channel feeds: die 0's or a node's own (R103, R105). -/
def State.fedDomains (s : State) (d c : Nat) : List Nat :=
  if d != 0 then [] else (List.range 8).filter fun i => s.rd 0 Fd.AD_CFG.SRC i == 2 && s.rd 0 Fd.AD_CFG.TRACK_CH i == c

def State.trkSpeed (s : State) (d c : Nat) : Int :=
  sx 48 (s.rd d Fd.TRK_SPEED_LO.W c + s.rd d Fd.TRK_SPEED_HI.W c % 65536 * 2 ^ 32)

/-- A sample counts toward the next update, which a SINCOS or QUAD channel in LOSS does not send (R105, R114, R119, R123). -/
def State.countUpdate (s : State) (d c : Nat) (ts : Int) : State :=
  let x := s.trk d c
  if x.good < s.trkRd d c Fd.TRK_PER.UPD_M1 then s.onTrk d c fun x => { x with good := x.good + 1 }
  else
    let s := s.onTrk d c fun x => { x with good := 0 }
    if s.trkSrc d c != 1 && s.flag d Fd.TRK_STAT.LOSS c then s
    else s.each (s.fedDomains d c) fun s i => s.changeDom i (.track x.angle ts (s.trkSpeed d c)) s.td0

/-- The channel starts afresh (R125). -/
def State.trkRestart (s : State) (d c : Nat) : State :=
  let s := s.onTrk d c fun x => { Trk.zero with
    qa := x.qa, qb := x.qb, qAt := x.qAt, words := x.words, sampled := x.sampled, tLast := s.td0, freq := if s.trkSrc d c = 1 then s.nomFreq d c else 0 }
  let s := s.wr d Fd.TRK_STAT.W c 0
  (s.wr d Fd.TRK_SPEED_LO.W c 0).wr d Fd.TRK_SPEED_HI.W c 0

/-- RESTART: at the next sample (R125). -/
def opRestart (d c : Nat) (s : State) : State := s.onTrk d c fun x => { x with pendRestart := true }

def execRestart (d c : Nat) (s : State) : Res := s.guarded (s.alive d && decide (c < 4)) (opRestart d c)

/-- Do new words change SRC, CH_A-CH_C, L or INV (R125)? -/
def restartsBy (old new : List Word) : Bool :=
  (old.getD 0 0 &&& 0x0FFF000F#32) != (new.getD 0 0 &&& 0x0FFF000F#32) ||
    (old.getD 2 0 &&& 0x0000FFFF#32) != (new.getD 2 0 &&& 0x0000FFFF#32)

/-- BLOCK_EN of the ATR page: off, every channel acts as OFF and raises nothing; on again, it starts afresh (R125, R127). -/
def opAtrEn (d : Nat) (on : Bool) (s : State) : State :=
  s.each (List.range 4) fun s c => if on then opRestart d c s else
    (s.onTrk d c fun x => { x with words := [], sampled := none }).lower d (0x30 + c)

/-- SOFT_RESET of the ATR page. -/
def opAtrReset (d : Nat) (s : State) : State :=
  let s := s.onDie d fun x => { x with trk := List.replicate 4 Trk.zero }
  s.each (List.range 4) fun s c => s.lower d (0x30 + c)

/-! ### The sample (R104) -/

/-- The registers of the latest sample; K shows its count modulo 64. DESIGN CHOICE, log entry 85. -/
def State.showSample (s : State) (d c : Nat) (ts : Int) (speed : Int) (mag : Nat) : State :=
  let x := s.trk d c
  let v := ux 48 speed
  let s := (s.wr d Fd.TRK_POS_FRAC.W c (ux 32 (x.angle / 2 ^ 16))).wr d Fd.TRK_POS_CYC.W c (ux 32 (x.angle / 2 ^ 48))
  let s := (s.wr d Fd.TRK_SPEED_LO.W c (loWord v)).wr d Fd.TRK_SPEED_HI.W c (hiWord v)
  let s := (s.wr d Fd.TRK_STAT.LINE c (ux 16 x.n)).wr d Fd.TRK_STAT.K c x.win.length
  (s.wr d Fd.TRK_T.W c (ux 32 ts)).wr d Fd.TRK_MAG.MAG c mag

/-- A bad sample (R107, R114, R119). -/
def State.badSample (s : State) (d c : Nat) (j : Judged) (dt : Nat) : State :=
  let s := s.when j.illegal fun s => s.illegalStep d c
  if s.trkSrc d c = 1 then
    let began := (s.trk d c).coastAt.isNone
    let s := s.onTrk d c fun x => { x with
      angle := x.angle + x.freq * dt, lockAt := none, coastAt := x.coastAt.orElse fun _ => some (s.td0 : Int) }
    let s := (s.wrB d Fd.TRK_STAT.LOCKED c false).wrB d Fd.TRK_STAT.COASTING c true
    s.when began fun s => s.sticky d Sk.ATR.COAST c
  else
    let s := s.onTrk d c fun x => { x with badRun := x.badRun + 1 }
    s.when (decide (2 ≤ (s.trk d c).badRun) && s.trkSrc d c != 4) fun s => s.setLoss d c

/-- A good sample (R105, R119, R120). -/
def State.goodSample (s : State) (d c : Nat) (ts : Int) (dt : Nat) : State :=
  let s := s.onTrk d c fun x => { x with badRun := 0 }
  match s.trkSrc d c with
  | 1 =>
    let was := (s.trk d c).coastAt.isSome
    let s := (s.goodGrid d c dt).onTrk d c fun x => { x with started := true }
    s.when was fun s => (s.wrB d Fd.TRK_STAT.COASTING c false).wrB d Fd.TRK_STAT.LOSS c false
  | src =>
    let s := if src = 2 then s.goodSincos d c else s.goodCount d c (if src = 3 then 4 * s.lines d c else s.lines d c)
    (s.enterWindow d c ts).onTrk d c fun x => { x with started := true }

/-- What was written takes effect, and a change of SRC, CH_A-CH_C, L or INV, or RESTART, restarts the channel: whether it did (R125). -/
def State.takeWords (s : State) (d c : Nat) : Bool × State :=
  let x := s.trk d c
  let restart := x.pendRestart || restartsBy x.words (s.trkRegs d c)
  let s := s.onTrk d c fun x => { x with words := s.trkRegs d c, pendRestart := false }
  (restart, s.when restart fun s => s.trkRestart d c)

/-- A channel judges its inputs and shows what it found (R104-R107). -/
def State.sampleNow (s : State) (d c dt : Nat) : Bool × State :=
  let j := s.judgeSample d c
  let ts : Int := (s.td0 : Int) - s.trkRd d c Fd.TRK_AMP.FILT_DELAY
  let s := if j.good then s.goodSample d c ts dt else s.badSample d c j dt
  let s := s.onTrk d c fun x => { x with illegal := false, sampled := some s.td0 }
  let s := s.when (s.stillDue d c) fun s => s.standStill d c
  let speed :=
    if s.trkSrc d c = 1 then (s.trk d c).freq
    else if s.flag d Fd.TRK_STAT.STANDSTILL c then 0
    else windowSpeed (s.trk d c).win (s.flag d Fd.TRK_STAT.REVERSE c)
  (j.good, (s.showSample d c ts speed j.mag).trkDue d c)

/-- TRACKER_SAMPLE: a channel that is now OFF samples nothing more. -/
def opTrackerSample (d c : Nat) (s : State) : State :=
  let dt := match (s.trk d c).sampled with
    | some t => (s.td0 - t).toNat
    | none => s.trkPeriod d c
  let r := s.takeWords d c
  let s := r.2
  if s.trkSrc d c = 0 then (s.onTrk d c fun x => { x with sampled := none }).lossSource d c
  else
    let ts : Int := (s.td0 : Int) - s.trkRd d c Fd.TRK_AMP.FILT_DELAY
    let g := s.sampleNow d c dt
    let s := g.2.when r.1 fun s => s.each (s.fedDomains d c) fun s i =>
      s.changeDom i (.jump (s.trk d c).angle (s.trkSpeed d c)) s.td0
    s.when (g.1 || s.trkSrc d c == 1) fun s => s.countUpdate d c ts

def execTrackerSample (d c : Nat) (s : State) : Res := s.guarded (s.sampleDue d c) (opTrackerSample d c)

/-- COAST_LOSS (R119): declared at a sample. -/
def execCoastLoss (d c : Nat) (s : State) : Res :=
  s.guarded (s.coastOver d c && s.sampleTick d c) fun s => (s.setLoss d c).lossSource d c

/-- LOCKED (R118). -/
def execLocked (d c : Nat) (s : State) : Res :=
  s.guarded (s.lockDue d c) fun s => s.wrB d Fd.TRK_STAT.LOCKED c true

/-- TRACKER_STANDSTILL (R122): declared at a sample. -/
def execTrackerStandstill (d c : Nat) (s : State) : Res := s.guarded (s.stillDue d c && s.sampleTick d c) fun s => s.standStill d c

end Sys2Proof.Machine
end

