-- ==== Sys2Proof/Machine/Operands.lean ====
section
/-! DEFINITION. Loop instructions as words, their operand modes, and the words they address (07 R179-R183, R190, R191). -/

namespace Sys2Proof.Machine

/-! ### Fields of an instruction word (R179) -/

structure Word5 where
  op : Nat
  a : Nat
  ws : Nat
  mode : Nat
  field : Nat
  deriving DecidableEq, Repr

def decodeLoop (w : Word) : Word5 :=
  ⟨bitsOf w.toNat 31 26, bitsOf w.toNat 25 24, bitsOf w.toNat 23 20, bitsOf w.toNat 19 17, bitsOf w.toNat 16 0⟩

/-- The opcodes of R183. -/
inductive LoopOp where
  | nop | ld | ldw | st | sts | movw | mac | msu | mul | add | sub | shl | shr | neg | abs | lim | intg | dly | sel | tab | div
  | sincos | inp | out | spt | flag | cmp | brf | stop
  deriving DecidableEq, Repr

def LoopOp.ofCode (n : Nat) : Option LoopOp :=
  match n with
  | 0x00 => some .nop | 0x01 => some .ld | 0x02 => some .ldw | 0x03 => some .st | 0x04 => some .sts | 0x05 => some .movw
  | 0x08 => some .mac | 0x09 => some .msu | 0x0A => some .mul | 0x0B => some .add | 0x0C => some .sub | 0x0D => some .shl
  | 0x0E => some .shr | 0x0F => some .neg | 0x10 => some .abs | 0x11 => some .lim | 0x12 => some .intg | 0x13 => some .dly
  | 0x14 => some .sel | 0x15 => some .tab | 0x16 => some .div | 0x17 => some .sincos | 0x18 => some .inp | 0x19 => some .out
  | 0x1A => some .spt | 0x1B => some .flag | 0x1C => some .cmp | 0x1D => some .brf | 0x3F => some .stop
  | _ => none

/-- Modes allowed for an opcode (R183); opcodes that do not read their operand take any. -/
def LoopOp.modes : LoopOp → List Nat
  | .nop | .movw | .neg | .abs | .stop | .ldw => [0, 1, 2, 3, 4, 5, 6, 7]
  | .ld | .mac | .msu | .mul | .add | .sub | .sel | .div | .sincos | .cmp => [0, 1, 2, 3]
  | .st | .sts | .intg | .dly | .spt | .flag => [0]
  | .shl | .shr | .brf => [3]
  | .lim => [0, 1]
  | .tab => [1]
  | .inp => [4, 5, 6, 7]
  | .out => [5, 7]

/-- Issues of an opcode (R183). -/
def LoopOp.issues : LoopOp → Nat
  | .lim | .intg | .sincos | .spt => 2
  | .tab => 3
  | .div => 18
  | _ => 1

/-- Does an instruction read or write its operand (R180)? -/
def LoopOp.usesOperand : LoopOp → Bool
  | .nop | .movw | .neg | .abs | .stop => false
  | _ => true

/-- A subfield of FIELD without meaning (R180): a context field index of 0x3C0 or above, an OUT of mode 7 kind 3. -/
def badField (op : LoopOp) (w : Word5) : Bool :=
  op.usesOperand && ((w.mode == 5 && decide (0x3C0 ≤ bitsOf w.field 11 0)) || (op == .out && w.mode == 7 && bitsOf w.field 16 15 == 3))

/-- The instruction a word executes as: END where R180 says so. -/
def executesAs (w : Word) : LoopOp :=
  let x := decodeLoop w
  match LoopOp.ofCode x.op with
  | some op => if op.modes.contains x.mode && !badField op x then op else .stop
  | none => .stop

/-- A word that executes as END without being one. -/
def isInvalid (w : Word) : Bool := executesAs w == .stop && bitsOf w.toNat 31 26 != 0x3F

/-! ### Memories and pages (06 R153, R154, 07 R190) -/

def progKey (e i : Nat) : Nat := 0x80000 + 0x8000 * e + 4 * i
def coefKey (a : Nat) : Nat := 0xB0000 + 4 * a
def stateKey (a : Nat) : Nat := 0xD0000 + 4 * a

def State.inst (s : State) (d e i : Nat) : Inst := (s.die d).le.inst.getD (8 * e + i) Inst.idle

def State.onInst (s : State) (d e i : Nat) (f : Inst → Inst) : State :=
  s.onDie d fun x => { x with le := { x.le with inst := setAt x.le.inst (8 * e + i) f } }

/-- The extents of the program a slot runs (R190), where an image declared them. -/
def State.extent (s : State) (d e slot : Nat) : Option Extent :=
  (s.die d).le.extents.find? fun x => x.engine == e && x.progAt == s.rd d Fd.SLOT_PROG.PROG_BASE slot

def State.stateBase (s : State) (d : Nat) (x : Inst) : Nat := s.rd d Fd.SLOT_STATE.STATE_BASE x.slot
def State.coefBase (s : State) (d : Nat) (x : Inst) : Nat :=
  if x.coefB then s.rd d Fd.SLOT_COEF.BASE_B x.slot else s.rd d Fd.SLOT_COEF.BASE_A x.slot

/-- A state or coefficient word of a slot's page. -/
def State.stateAt (s : State) (d : Nat) (x : Inst) (off : Nat) : BitVec 16 := (s.cell d (stateKey (s.stateBase d x + off))).setWidth 16
def State.coefAt (s : State) (d : Nat) (x : Inst) (off : Nat) : BitVec 16 := (s.cell d (coefKey (s.coefBase d x + off))).setWidth 16

def State.putState (s : State) (d : Nat) (x : Inst) (off : Nat) (v : BitVec 16) : State :=
  s.putCell d (stateKey (s.stateBase d x + off)) (v.setWidth 32)

/-- Number of segments of the table at an offset (R186). -/
def State.tabSegs (s : State) (d : Nat) (x : Inst) (off : Nat) : Nat := 2 ^ min 6 ((s.coefAt d x off).toNat % 8)

/-- Are n words from an offset inside the page (R190)? -/
def inPage (base off n : Nat) (len : Option Nat) : Bool :=
  decide (base + off + n ≤ 32768) && match len with
    | some l => decide (off + n ≤ l)
    | none => true

/-- Does an instruction address only words of its slot's pages, and branch only within them (R190)? -/
def State.pagesOk (s : State) (d e : Nat) (x : Inst) (op : LoopOp) (w : Word5) : Bool :=
  let off := bitsOf w.field 14 0
  let ext := s.extent d e x.slot
  let n := match op with
    | .lim | .intg => 2
    | .tab => 2 + s.tabSegs d x off
    | _ => 1
  if !op.usesOperand then true
  else if op == .brf then
    let target := x.pc + 1 + bitsOf w.field 11 0
    !x.taken (bitsOf w.field 15 12) || (decide (target < 8192) && match ext with
      | some p => decide (target < p.progAt + p.pLen)
      | none => true)
  else if w.mode = 0 then inPage (s.stateBase d x) off n (ext.map (·.sLen))
  else if w.mode = 1 then inPage (s.coefBase d x) off n (ext.map (·.cLen))
  else true

/-- Is the program counter inside the program's page (R190)? -/
def State.pcOk (s : State) (d e : Nat) (x : Inst) : Bool :=
  decide (x.pc < 8192) && match s.extent d e x.slot with
    | some p => decide (x.pc < p.progAt + p.pLen)
    | none => true

/-! ### Operand words (R181, R182) -/

/-- AD_STATUS[2:0] of a domain: REVERSE, COASTING, SLEWING (03 R80, R102). -/
def State.adBits (s : State) (d i : Nat) : Nat :=
  let x := s.dom d i
  let coast := x.src == 2 && s.coasts 0 (s.rd 0 Fd.AD_CFG.TRACK_CH i)
  bnat x.slew.isSome + 2 * bnat coast + 4 * bnat (decide (x.inc < 0))

/-- Mode 6 (R182). -/
def State.angleWord (s : State) (d field : Nat) : BitVec 16 :=
  let i := bitsOf field 2 0
  let x := s.dom d i
  match bitsOf field 4 3 with
  | 0 => BitVec.ofInt 16 (x.pos / 2 ^ 32)
  | 1 => BitVec.ofInt 16 (satS 16 (x.inc / 2 ^ 10))
  | 2 => BitVec.ofInt 16 (satS 16 (x.inc / 2 ^ 24))
  | _ => BitVec.ofNat 16 (s.adBits d i)

/-- What a run uses of the values that arrive: those of the measurement channels and the context fields (01 R19). -/
def arriving (key : Nat) : Bool := (decide (0x4100 ≤ key) && decide (key < 0x4300)) || (decide (0x20000 ≤ key) && decide (key < 0x40000))

/-- A register as it stood when the run's slot started (01 R19). -/
def State.atStart (s : State) (d : Nat) (x : Inst) (key : Nat) : Nat := ((x.snap.find key).getD (s.dflt d key)).toNat

/-- A context field as a loop reads it: a node's own, or the head's copy of an enumerated waystation's (R181, 10 R270). A down field, which
never comes back from the waystation, reads at the head as the head's own latest copy. DESIGN CHOICE, log entry 86. -/
def State.contextWord (s : State) (d : Nat) (x : Inst) (n field : Nat) : BitVec 16 :=
  if s.isHead then (if n ≤ s.rd d Fd.RING_STATUS.NODES then BitVec.ofNat 16 (s.atStart d x (ctxKey n field)) else 0)
  else BitVec.ofNat 16 (s.atStart 0 x (ctxKey 1 field))

/-- The field of SPA that holds set-point word w of a slot. -/
def spaFld (w : Nat) : Fld :=
  match w % 4 with
  | 0 => Fd.SPA_LO.LOW
  | 1 => Fd.SPA_LO.HIGH
  | 2 => Fd.SPA_HI.LOW
  | _ => Fd.SPA_HI.HIGH

/-- A set-point word in force (R194). -/
def State.spActive (s : State) (d slot w : Nat) : BitVec 16 := BitVec.ofNat 16 (s.rd d (spaFld w) slot)

/-- The operand word x of an instruction that reads one (R181). -/
def State.operand (s : State) (d : Nat) (x : Inst) (w : Word5) : BitVec 16 :=
  match w.mode with
  | 0 => s.stateAt d x (bitsOf w.field 14 0)
  | 1 => s.coefAt d x (bitsOf w.field 14 0)
  | 2 => x.w.getD (bitsOf w.field 3 0) 0
  | 3 => BitVec.ofNat 16 w.field
  | 4 =>
    let c := bitsOf w.field 3 0
    if !s.hasSdd d then 0
    else BitVec.ofNat 16 (s.atStart d x (if bitOf w.field 4 then Fd.CH_FAST.VALUE.key c else Fd.CH_LATCH.VALUE.key c))
  | 5 => s.contextWord d x (bitsOf w.field 16 12 + 1) (bitsOf w.field 11 0)
  | 6 => s.angleWord d w.field
  | _ => x.sp.getD (bitsOf w.field 1 0) 0

/-- The destination an OUT names (R181, R191); none where the word is discarded: planner references above 131 (08 R207), and
on a node planner references and other dies. -/
def State.outDest (s : State) (d : Nat) (w : Word5) : Option OutDest :=
  if w.mode = 5 then some (.context (if s.isHead then bitsOf w.field 16 12 + 1 else 1) (bitsOf w.field 11 0))
  else
    let slot := bitsOf w.field 7 2
    let word := bitsOf w.field 1 0
    match bitsOf w.field 16 15 with
    | 0 => some (.slotWord slot word)
    | 1 => if s.isHead && decide (bitsOf w.field 9 0 < 132) then some (.ref (bitsOf w.field 9 0)) else none
    | _ =>
      let die := bitsOf w.field 14 12
      if die = d then some (.slotWord slot word) else if s.isHead then some (.remote die slot word) else none

end Sys2Proof.Machine
end

