-- ==== Sys2Proof/Machine/Recorder.lean ====
section
/-! DEFINITION. Recorder and in-package DRAM (20): lines, partitions, streams, the ledger, the window. -/

namespace Sys2Proof.Machine

/-! ### DRAM bytes: a sorted list by logical address, an unlisted byte being 0 (lines never written are kept apart) -/

def Memory.find (a : Nat) : List Host.Cell → Byte
  | [] => 0
  | (k, b) :: t => if k = a then b else Memory.find a t

def Memory.erase (a : Nat) (m : List Host.Cell) : List Host.Cell := m.filter fun e => e.1 != a

def Memory.insert (a : Nat) (v : Byte) : List Host.Cell → List Host.Cell
  | [] => [(a, v)]
  | (k, b) :: t => if k = a then (a, v) :: t else if a < k then (a, v) :: (k, b) :: t else (k, b) :: Memory.insert a v t

/-- A write of one byte: writing what an unlisted byte reads as removes the entry. -/
def Memory.put (a : Nat) (v : Byte) (m : List Host.Cell) : List Host.Cell := if v = 0 then Memory.erase a m else Memory.insert a v m

/-- Addresses strictly rising and no byte equal to what an unlisted one reads as. -/
abbrev Memory.wf (m : List Host.Cell) : Prop := (m.Pairwise fun p q => p.1 < q.1) ∧ ∀ e ∈ m, e.2 ≠ 0

def Memory.putAll (a : Nat) : List Byte → List Host.Cell → List Host.Cell
  | [], m => m
  | b :: t, m => Memory.putAll (a + 1) t (Memory.put a b m)

def State.onRec (s : State) (d : Nat) (f : Rec → Rec) : State := s.onDie d fun x => { x with recorder := f x.recorder }

/-- Line of a data byte (R508). -/
def lineOf (a : Nat) : Nat := a / 60

/-- DRAM of the die answers: a head die, DRAM initialised, REC enabled (R508, R512). -/
def State.dramOn (s : State) (d : Nat) : Bool := s.isHead && s.on d 0xF && s.flag d Fd.REC_STATUS.DRAM_OK

/-- Bytes written to a line range; each line touched counts as written, with a good CRC. -/
def State.dramWrite (s : State) (d a : Nat) (l : List Byte) : State :=
  s.onRec d fun r => { r with
    dram := Memory.putAll a l r.dram
    written := ((List.range (lineOf (a + l.length - 1) + 1 - lineOf a)).map (lineOf a + ·)).foldl
      (fun w x => if w.contains x then w else w ++ [x]) r.written }

def State.dramByte (s : State) (d a : Nat) : Byte := Memory.find a (s.die d).recorder.dram

def State.dramBytes (s : State) (d a n : Nat) : List Byte := (List.range n).map fun i => s.dramByte d (a + i)

/-- A read of a line under R510: whether it is readable, from the CRC outcome of its two reads. A line never written is
unreadable. DEDUCED, log entry 74. -/
def State.lineRead (s : State) (d line : Nat) (first second : Bool) : Bool × State :=
  let w := (s.die d).recorder.written.contains line
  if w && first then (true, s)
  else if w && second then (true, s.bump d Fd.LINE_COUNTS.REREAD 0 1)
  else (false, ((s.bump d Fd.LINE_COUNTS.HARD 0 1).wr d Fd.ERR_LINE.LINE 0 line).sticky d Sk.REC.LINE_ERR)

/-- The outcome of a line's two reads, under the reads that fail: a line named fails its first read, and its second too unless said
otherwise. -/
def readOk (fails : List (Nat × Bool)) (l : Nat) : Bool × Bool :=
  match fails.find? fun f => f.1 == l with
  | some f => (false, f.2)
  | none => (true, true)

/-! ### Partitions (R509) -/

/-- Pages of partition i, from its first to one past its last. -/
def State.part3 (s : State) (d i : Nat) : Nat × Nat :=
  let b := s.rd d Fd.PART.BASE i * 16
  (b, b + s.rd d Fd.PART.SIZE i * 16)

def State.inPart (s : State) (d i page : Nat) : Bool := decide ((s.part3 d i).1 ≤ page) && decide (page < (s.part3 d i).2)

/-- The partition of a data byte, if any: 0 ledger, 1 pattern library, 2 image store. -/
def State.partOf (s : State) (d a : Nat) : Option Nat := [0, 1, 2].find? fun i => s.inPart d i (a / 3840)

def overlap (p q : Nat × Nat) : Bool := decide (p.1 < q.2) && decide (q.1 < p.2) && decide (p.1 < p.2) && decide (q.1 < q.2)

/-- A write of PART[i]: taken in CONFIG if no two partitions overlap and none reaches beyond page 262,143 (R509). -/
def opPart (d i : Nat) (value : Word) (s : State) : State :=
  if s.device != .config || !s.isHead then s else
    let t := s.putCell d (Fd.PART.W.key i) (value &&& 0x3FFF3FFF#32)
    let p := t.part3 d i
    let bad := decide (262144 < p.2 && p.1 < p.2) || ([0, 1, 2].any fun j => j != i && overlap p (t.part3 d j))
    if bad then s.sticky d Sk.REC.PART_REJECTED else t

def execPartWrite (d i : Nat) (value : Word) (s : State) : Res := s.guarded (s.alive d && decide (i < 3)) (opPart d i value)

/-! ### The window (R519) -/

def State.winAddr (s : State) (d i : Nat) : Nat := s.rd d Fd.WIN_PTR.ADDR / 4 * 4 + 4 * i

/-- An access to WIN_DATA[15] with AUTO at 1 advances WIN_PTR by 64. -/
def State.winStep (s : State) (d i : Nat) : State :=
  s.when (i == 15 && s.flag d Fd.REC_CTRL.AUTO) fun s => s.wr d Fd.WIN_PTR.ADDR 0 ((s.rd d Fd.WIN_PTR.ADDR + 64) % 2 ^ 30)

/-- A read of WIN_DATA[i]: its value and the state after it. An unreadable line gives the bytes of the second read, which
are open (R510, R525); bytes outside every partition read 0 (R509); with DRAM off the access is refused (R512).
DEDUCED, log entry 74. -/
def opWinRead (d i : Nat) (first second : Bool) (s : State) : Word × State :=
  let a := s.winAddr d i
  if !s.dramOn d then (0, s.sticky d Sk.REC.WIN_REFUSED)
  else if (s.partOf d a).isNone then (0, s.winStep d i)
  else
    let r := s.lineRead d (lineOf a) first second
    if r.1 then (BitVec.ofNat 32 (beNat (r.2.dramBytes d a 4)), r.2.winStep d i)
    else (Config.freeWord r.2.free, { r.2.winStep d i with free := r.2.free + 1 })

/-- A write of WIN_DATA[i] (R510, R519). -/
def opWinWrite (d i : Nat) (value : Word) (first second : Bool) (s : State) : State :=
  let a := s.winAddr d i
  let ok := (s.device == .config || s.device == .standstill) && (s.partOf d a == some 1 || s.partOf d a == some 2)
  if !s.dramOn d || !ok then s.sticky d Sk.REC.WIN_REFUSED
  else
    let r := s.lineRead d (lineOf a) first second
    let s := if r.1 then r.2 else r.2.dramWrite d (lineOf a * 60) (List.replicate 60 0)
    (s.dramWrite d a (beBytes 4 value.toNat)).winStep d i

/-- WINDOW_READ: the word read stands on the register port. -/
def execWindowRead (d i : Nat) (first second : Bool) (s : State) : Res :=
  s.guarded (s.alive d && decide (i < 16) && s.isHead) fun s =>
    let r := opWinRead d i first second s
    { r.2 with port := ⟨r.1, 5⟩ }

def execWindowWrite (d i : Nat) (value : Word) (first second : Bool) (s : State) : Res :=
  s.guarded (s.alive d && decide (i < 16) && s.isHead) (opWinWrite d i value first second)

/-! ### The ledger (R516-R518) -/

def State.lstate (s : State) (d : Nat) : Nat := s.rd d Fd.REC_STATUS.LSTATE
def State.setL (s : State) (d v : Nat) : State := s.wr d Fd.REC_STATUS.LSTATE 0 v

/-- PERIOD in µs, limited to 5 to 1,000 (R513, R520). -/
def State.period (s : State) (d : Nat) : Nat := max 5 (min 1000 (s.rd d Fd.STREAM.PERIOD))

/-- Grid index of a tick (R515). -/
def State.gridIndex (s : State) (d t : Nat) : Nat := t / (s.period d * 800)

/-- THROTTLE holds, or SHUTDOWN is present and the die acts as if it held (17 R465, R466). DEDUCED, log entry 64. -/
def State.throttled (s : State) (d : Nat) : Bool := s.flag d Fd.THM_STATUS.THROTTLE || (s.die d).flt.present.contains 0x0C0

/-- A trigger time: P and the post window of its capture, in ticks. -/
def State.trigP (s : State) (d : Nat) : Nat := s.rd d Fd.TRIG_T_HI.W * 2 ^ 32 + s.rd d Fd.TRIG_T_LO.W
def State.postTicks (s : State) (d : Nat) : Nat := s.rd 0 Fd.CAP_CFG.POST (s.rd d Fd.REC_STATUS.CAP) * 80000
def State.preTicks (s : State) (d : Nat) : Nat := s.rd 0 Fd.CAP_CFG.PRE (s.rd d Fd.REC_STATUS.CAP) * 80000

/-- Does the ledger, with LEDGER_EN at 1, store a record of this grid tick (R516, R517)? -/
def State.ledgerTakes (s : State) (d grid : Nat) : Bool :=
  s.dramOn d && s.flag d Fd.REC_CTRL.LEDGER_EN && decide ((s.part3 d 0).1 < (s.part3 d 0).2) &&
  (s.lstate d == 1 || (s.lstate d == 2 && decide (grid < s.trigP d + s.postTicks d)))

/-- The page after a page, wrapping inside the partition. -/
def State.nextPage (s : State) (d p : Nat) : Nat :=
  if (s.part3 d 0).1 ≤ p && p + 1 < (s.part3 d 0).2 then p + 1 else (s.part3 d 0).1

/-- A new page is begun: its header line (R516). DEDUCED, log entry 72. -/
def State.beginPage (s : State) (d grid : Nat) : State :=
  let r := (s.die d).recorder
  let page := if r.pages.isEmpty && r.seq = 0 then (s.part3 d 0).1 else s.nextPage d r.page
  let head := beBytes 8 grid ++ beBytes 2 (s.period d) ++ [BitVec.ofNat 8 d, if s.throttled d then 1 else 0] ++ beBytes 4 r.seq
  (s.dramWrite d (page * 3840) head).onRec d fun r => { r with
    page := page, count := 0, seq := r.seq + 1
    overTo := match r.pages.find? (fun e => e.1 == page) with
      | some e => some (max (r.overTo.getD 0) e.2.2)
      | none => r.overTo
    pages := ((page, grid, grid) :: r.pages.filter fun e => e.1 != page) }

/-- A record is stored: TYPE, SRC, grid tick and eight words (R516). -/
def State.ledgerStore (s : State) (d type src grid : Nat) (words : List (BitVec 16)) : State :=
  if !s.ledgerTakes d grid then s else
    let r := (s.die d).recorder
    let s := if r.pages.isEmpty || 189 ≤ r.count then s.beginPage d grid else s
    let r := (s.die d).recorder
    let bytes := [BitVec.ofNat 8 (type * 64 + src)] ++ beBytes 3 (s.gridIndex d grid % 2 ^ 24) ++
      (words.map fun w => beBytes 2 w.toNat).flatten
    let at_ := r.page * 3840 + (1 + r.count / 3) * 60 + r.count % 3 * 20
    let s := s.dramWrite d at_ bytes
    let s := s.when (s.throttled d) fun s => s.dramWrite d (r.page * 3840 + 11) [1]
    s.onRec d fun r => { r with
      count := r.count + 1
      pages := match r.pages with
        | (p, a, b) :: t => (p, a, max b grid) :: t
        | [] => [] }

/-- Throttling that begins shows in the header of a page being written (R516). -/
def State.markThrottled (s : State) (d : Nat) : State :=
  let r := (s.die d).recorder
  s.when (s.dramOn d && (s.lstate d == 1 || s.lstate d == 2) && !r.pages.isEmpty && decide (r.count < 189)) fun s =>
    s.dramWrite d (r.page * 3840 + 11) [1]

def markWords (code : BitVec 16) (t : Nat) : List (BitVec 16) :=
  code :: ((List.range 4).map fun i => BitVec.ofNat 16 (t / 2 ^ (48 - 16 * i))) ++ List.replicate 3 0

/-- A MARK action in the present tick (03 R89, R516). -/
def State.ledgerMark (s : State) (d : Nat) (code : BitVec 16) : State := s.ledgerStore d 1 0 s.td0 (markWords code s.td0)

/-- A trigger of capture c acts on one die in the present tick (R517, R518). -/
def State.ledgerTrig (s : State) (d c : Nat) : State :=
  if s.lstate d = 1 then
    ((((s.setL d 2).wr d Fd.REC_STATUS.CAP 0 c).wr d Fd.TRIG_T_LO.W 0 (loWord s.td0)).wr d Fd.TRIG_T_HI.W 0 (hiWord s.td0)).sticky d Sk.REC.TRIGGERED
  else s.sticky d Sk.REC.TRIG_LOST

/-- A REARM acts on one die: a held ledger returns to ARMED and writes on from the page after CAP_LAST (R518).
DEDUCED, log entry 72. -/
def State.rearmDie (s : State) (d : Nat) : State :=
  if s.lstate d = 3 then (s.setL d 1).onRec d fun r => { r with count := 189, seq := 0 } else s.sticky d Sk.REC.REARM_REFUSED

/-- The oldest REARM acts if it has reached its tick. -/
def State.applyRearm (s : State) : State :=
  match s.rearmAt with
  | [] => s
  | t :: rest => if s.td0 < t then s else
    let s := { s with rearmAt := rest }
    s.each s.dieList fun s d => s.when (s.on d 0xF) fun s => s.rearmDie d

/-- The reaction set's trigger acts on one die (R517); it is taken before another trigger of its tick, which is lost (R518). -/
def State.reactTrig (s : State) (d c : Nat) : State :=
  if s.lstate d = 2 && s.trigP d = s.td0 then (s.wr d Fd.REC_STATUS.CAP 0 c).sticky d Sk.REC.TRIG_LOST else s.ledgerTrig d c

/-- The trigger that a write of TRIG requested reaches its tick on every head die whose recorder runs (R517); a REARM of the same tick is
applied first (R518). -/
def opLedgerTrigger (s : State) : State :=
  match s.trig with
  | [] => s
  | (t, c) :: rest => if s.td0 < t then s else
    let s := { s.applyRearm with trig := rest }
    s.each s.dieList fun s d => s.when (s.on d 0xF) fun s => s.ledgerTrig d c

/-- LEDGER_TRIGGER. -/
def execLedgerTrigger (s : State) : Res := s.guarded (s.isHead && s.alive 0) opLedgerTrigger

/-- A write of TRIG on die 0 requests a trigger eight ticks later (R517). -/
def opTrig (c : Nat) (s : State) : State := { s with trig := s.trig ++ [(s.td0 + 8, c)] }

def execTrig (c : BitVec 4) (s : State) : Res := s.guarded (s.isHead && s.on 0 0xF) (opTrig c.toNat)

/-- A write of REARM on die 0 acts on every die eight ticks later (R518). -/
def opRearm (s : State) : State := { s with rearmAt := s.rearmAt ++ [s.td0 + 8] }

def execRearm (s : State) : Res := s.guarded (s.isHead && s.on 0 0xF) opRearm

/-- LEDGER_EN takes the ledger from OFF to ARMED and back (R517); with the block stopped, when it runs again (02 R50). -/
def opLedgerEn (d : Nat) (on : Bool) (s : State) : State :=
  let s := s.wrB d Fd.REC_CTRL.LEDGER_EN 0 on
  if !s.on d 0xF then s
  else if on then
    if s.lstate d = 0 then (s.setL d 1).onRec d fun r => { r with pages := [], count := 0, seq := 0, overTo := none } else s
  else if s.lstate d = 1 then s.setL d 0 else s

def execLedgerEnable (d : Nat) (on : Bool) (s : State) : Res := s.guarded (s.isHead && s.alive d) (opLedgerEn d on)

/-- LEDGER_SEAL (R517): at P + POST + 80,000 ticks the ledger enters HELD and bounds its capture. -/
def opLedgerSeal (d : Nat) (s : State) : State :=
  if s.lstate d != 2 || decide (s.td0 < s.trigP d + s.postTicks d + 80000) then s else
    let r := (s.die d).recorder
    let from_ := s.trigP d - s.preTicks d
    let pages := r.pages.reverse
    let hit := pages.find? fun e => decide (from_ ≤ e.2.2)
    let oldest := pages.headD (r.page, 0, 0)
    let cut := decide (from_ < s.trigP d) && (match r.overTo with | some m => decide (from_ ≤ m) | none => false)
    let first := if cut then oldest.1 else (hit.getD oldest).1
    let s := (((s.setL d 3).wr d Fd.CAP_FIRST.PAGE 0 first).wr d Fd.CAP_LAST.PAGE 0 r.page).sticky d Sk.REC.SEALED
    s.when cut (·.sticky d Sk.REC.PRE_SHORT)

def execLedgerSeal (d : Nat) (s : State) : Res := s.guarded (s.isHead && s.on d 0xF) (opLedgerSeal d)

/-- As a tick ends, the triggers that reached it have acted and the ledgers due have been sealed, whether or not a command said so in its
course (R517). DEDUCED, log entry 72. -/
def State.endLedger (s : State) : State :=
  if !s.isHead then s else
    let s := s.each s.trig fun s _ => opLedgerTrigger s
    s.each s.dieList fun s d => s.when (s.on d 0xF) fun s => opLedgerSeal d s

/-! ### Streams (R513-R515) -/

/-- The value of a stream word in this tick (R513, R520), and the state after it: that of a channel there is not is open. DESIGN CHOICE,
log entry 73. -/
def State.streamWord (s : State) (d w : Nat) : BitVec 16 × State :=
  let i := s.rd d Fd.REC_SEL.INDEX w
  match s.rd d Fd.REC_SEL.KIND w with
  | 1 => if i < 16 then (BitVec.ofNat 16 (s.rd d Fd.CH_LATCH.VALUE i), s) else let r := s.freeW; (r.1.setWidth 16, r.2)
  | 2 => ((s.cell d (0xD0000 + 4 * i)).setWidth 16, s)
  | 3 =>
    let n := i / 1024 + 1
    (if !s.isHead then s.nodeField (i % 1024) else if n ≤ s.rd d Fd.RING_STATUS.NODES then s.ctx d n (i % 1024) else 0, s)
  | _ => (0, s)

/-- The eight words of a record. -/
def State.streamWords (s : State) (d : Nat) : List (BitVec 16) × State :=
  (List.range 8).foldl (fun r w => let x := r.2.streamWord d w; (r.1 ++ [x.1], x.2)) ([], s)

/-- Payload of a CAPTURE block (R514): first tick, count, flags, up to three records. -/
def capturePayload (tick : Nat) (lost latched : Bool) (recs : List (List (BitVec 16))) : List Byte :=
  let body := (recs.map fun r => (r.map fun w => beBytes 2 w.toNat).flatten).flatten
  beBytes 6 tick ++ [BitVec.ofNat 8 recs.length, BitVec.ofNat 8 (bnat lost + 2 * bnat latched)] ++ body ++
    List.replicate (56 - body.length) 0

/-- The block being filled is closed and awaits its insertion (R514). -/
def State.closeFill (s : State) : State :=
  s.onRec 0 fun r => { r with
    fill := [], latched := false
    queue := r.queue ++ [capturePayload (r.fill.headD (0, [])).1 r.fillLost r.latched (r.fill.map (·.2))] }

/-- A record that finds the queue full is lost (R514). -/
def State.loseRecord (s : State) : State :=
  ((s.bump 0 Fd.STREAM_COUNTS.LOST 0 1).sticky 0 Sk.REC.STREAM_LOST).onRec 0 fun r => { r with lost := true }

/-- The latest record of the block being filled is not the one a period ago: its successors' places on the grid would not
follow from the block's TICKS (R514). DEDUCED, log entry 73. -/
def State.fillGap (s : State) : Bool :=
  match (s.die 0).recorder.fill.getLast? with
  | some e => e.1 + s.period 0 * 800 != s.td0
  | none => false

/-- A node's record joins the block being filled; a third record closes the block, and so does a gap on the grid before the
record (R514). DEDUCED, log entry 73. -/
def State.nodeRecord (s : State) (words : List (BitVec 16)) : State :=
  if 8 ≤ (s.die 0).recorder.queue.length then s.loseRecord
  else
    let s := s.when s.fillGap (·.closeFill)
    if 8 ≤ (s.die 0).recorder.queue.length then s.loseRecord
    else
      let s := s.onRec 0 fun r => { r with
        fill := r.fill ++ [(s.td0, words)], fillLost := if r.fill.isEmpty then r.lost else r.fillLost, lost := r.lost && !r.fill.isEmpty }
      s.when (decide (3 ≤ (s.die 0).recorder.fill.length)) (·.closeFill)

/-- STREAM_RECORD (R513, R515): in a tick of the grid the stream takes its record; while throttled only even grid indices are
kept. -/
def opStreamRecord (d : Nat) (s : State) : State :=
  if s.throttled d && s.gridIndex d s.td0 % 2 == 1 then
    (s.bump d Fd.STREAM_COUNTS.THR_DROPS 0 1).sticky d Sk.REC.STREAM_LOST
  else
    let r := s.streamWords d
    if s.isHead then r.2.ledgerStore d 0 0 s.td0 r.1 else r.2.nodeRecord r.1

/-- STREAM_RECORD, one in a tick. -/
def execStreamRecord (d : Nat) (s : State) : Res :=
  s.guarded (s.on d 0xF && s.flag d Fd.STREAM.EN && s.td0 % (s.period d * 800) == 0 && (s.die d).recorder.recAt != some (s.td0 : Int)) fun s =>
    opStreamRecord d (s.onRec d fun r => { r with recAt := some s.td0 })

/-- A waystation's CAPTURE block is stored by the head (R514-R516): each record on its grid tick, odd grid indices dropped while
throttled, and a loss record where FLAGS[0] is 1. -/
def State.storeCapture (s : State) (d n : Nat) (p : List Byte) : State :=
  let t0 := nearestTo (2 ^ 48) (beNat (slice p 0 6)) s.td0
  let step := s.period d * 800
  let nrec := (beNat (slice p 6 1)) % 4
  let s := s.when (bitOf (beNat (slice p 7 1)) 0) fun s => s.ledgerStore d 2 n t0 (List.replicate 8 0)
  s.each (List.range nrec) fun s i =>
    let t := t0 + i * step
    if s.throttled d && s.gridIndex d t % 2 == 1 then
      (s.bump d Fd.STREAM_COUNTS.THR_DROPS 0 1).sticky d Sk.REC.STREAM_LOST
    else s.ledgerStore d 0 n t ((List.range 8).map fun j => BitVec.ofNat 16 (beNat (slice p (8 + 16 * i + 2 * j) 2)))

/-- FPLL loss (R512): DRAM is lost, the ledger goes OFF, every line counts as never written; refresh has stopped (13 R362). -/
def State.dramLost (s : State) (d : Nat) : State :=
  (((s.sticky d Sk.REC.DRAM_LOST).setL d 0).wrB d Fd.REC_STATUS.DRAM_OK 0 false).onRec d fun r => { r with dram := [], written := [], pages := [], count := 0, overTo := none }

/-- SOFT_RESET of the REC page (R520): the ledger OFF, counts cleared; PART and DRAM stand. -/
def opRecReset (d : Nat) (s : State) : State :=
  s.onRec d fun r => { r with page := 0, count := 0, seq := 0, pages := [], queue := [], fill := [], lost := false, latched := false, fillLost := false, overTo := none }

end Sys2Proof.Machine
end

