-- ==== Sys2Proof/Machine/Loop.lean ====
section
/-! DEFINITION. Loop slots: ticks, misses, throttling, cascades, dispatch, set-points (06 R158-R178, 07 R194-R202). -/

namespace Sys2Proof.Machine

def State.slot (s : State) (d sl : Nat) : Slot := (s.die d).le.slot.getD sl Slot.zero

def State.onSlot (s : State) (d sl : Nat) (f : Slot → Slot) : State :=
  s.onDie d fun x => { x with le := { x.le with slot := setAt x.le.slot sl f } }

/-- Is a slot enabled in the present tick (R158)? -/
def State.slotEn (s : State) (d sl : Nat) : Bool := bitOf (s.die d).le.en sl

/-- Condition of a slot: 0 idle, 1 waiting, 2 running (R161). -/
def State.cond (s : State) (d sl : Nat) : Nat := s.rd d Fd.SLOT_STAT.COND sl
def State.setCondition (s : State) (d sl c : Nat) : State := s.wr d Fd.SLOT_STAT.COND sl c

def slots : List Nat := List.range 64

/-! ### Ticks (R159-R173, R200) -/

/-- A miss (R167, R170). DEDUCED, log entry 32. -/
def State.missTick (s : State) (d sl : Nat) : State :=
  let old := s.rd d Fd.SLOT_STAT.CONSEC sl
  let s := (s.bump d Fd.SLOT_STAT.MISSED sl 1).bump d Fd.SLOT_STAT.CONSEC sl 1
  let s := ((s.bump d Fd.LE_MISSED.W 0 1).wr d Fd.LE_INFO.LAST_MISS 0 sl).sticky d Sk.LE.MISSED
  let limit := s.rd d Fd.SLOT_CTRL.OVR_LIMIT sl
  let raise := s.flag d Fd.SLOT_CTRL.STRICT sl ||
    (limit != 0 && decide (old < limit) && decide (limit ≤ s.rd d Fd.SLOT_STAT.CONSEC sl))
  s.when raise fun s => ((s.wr d Fd.LE_INFO.LAST_OVR 0 sl).sticky d Sk.LE.OVERRUN).pulse d 0x050

/-- A tick that is not deferred: an idle slot becomes waiting, any other misses (R161, R167, R169). -/
def State.judgeTick (s : State) (d sl : Nat) : State :=
  if s.cond d sl = 0 then
    ((s.setCondition d sl 1).wr d Fd.SLOT_STAT.CONSEC sl 0).onSlot d sl fun x => { x with tickAt := s.td0 }
  else s.missTick d sl

/-- Alternate ticks of a deferrable slot are deferred while the die throttles (R173). DEDUCED, log entry 34. -/
def State.throttleTick (s : State) (d sl : Nat) : State :=
  if s.throttled d && s.flag d Fd.SLOT_CTRL.DEFER sl then
    if (s.slot d sl).deferNext then (s.onSlot d sl fun x => { x with deferNext := false }).bump d Fd.SLOT_STAT.DEFERRED sl 1
    else (s.onSlot d sl fun x => { x with deferNext := true }).judgeTick d sl
  else (s.onSlot d sl fun x => { x with deferNext := false }).judgeTick d sl

/-- The outer slots of a slot (R200, R201). -/
def State.outers (s : State) (d sl : Nat) : List Nat :=
  slots.filter fun o => o != sl && s.slotEn d o && s.flag d Fd.SLOT_CASC.CASC_EN o && s.rd d Fd.SLOT_CASC.INNER o == sl

/-- A tick of an enabled slot travels along its cascades; a slot receives at most one tick per ring tick (R159, R200, R201). -/
def State.tickSlot : (fuel : Nat) → State → (d sl : Nat) → State
  | 0, s, _, _ => s
  | fuel + 1, s, d, sl =>
    if (s.slot d sl).ticked == some s.td0 then s else
      let s := (s.onSlot d sl fun x => { x with ticked := some s.td0 }).throttleTick d sl
      s.each (s.outers d sl) fun s o =>
        let c := (s.slot d o).casc
        let s := s.onSlot d o fun x => { x with casc := (c + 1) % (s.rd d Fd.SLOT_CASC.D_M1 o + 1) }
        if c = 0 then State.tickSlot fuel s d o else s

/-! ### Set-points (07 R194-R199) -/

/-- A write of some rank in a tick: of the writes of one tick the highest rank stands, and of one rank the last (R195). -/
def SpWord.write (x : SpWord) (now : Int) (rank : Nat) (v : BitVec 16) : SpWord :=
  if x.tick = now then (if rank < x.rank then x else { x with val := v, mark := true, rank := rank })
  else ⟨v, true, now, rank, x.val, x.mark⟩

/-- The word a boundary finds: as it stood before the pending writes of its tick (R196). -/
def SpWord.before (x : SpWord) (now : Int) : BitVec 16 × Bool := if x.tick = now then (x.oldVal, x.oldMark) else (x.val, x.mark)

/-- The mark it found is cleared; a write of this tick stays marked. -/
def SpWord.taken (x : SpWord) (now : Int) : SpWord := if x.tick = now then { x with oldMark := false } else { x with mark := false }

/-- A SWAP leaves the word that was active in the buffer, unmarked; a pending write of this tick comes after it. -/
def SpWord.swap (x : SpWord) (now : Int) (active : BitVec 16) : SpWord :=
  if x.tick = now then { x with oldVal := active, oldMark := false } else { x with val := active, mark := false }

/-- A write to a pending buffer (R194, R195). -/
def State.spPend (s : State) (d sl w rank : Nat) (v : BitVec 16) : State :=
  s.onSlot d sl fun x => { x with sp := setAt x.sp w fun p => p.write s.td0 rank v }

def State.setActive (s : State) (d sl w : Nat) (v : BitVec 16) : State := s.wr d (spaFld w) sl v.toNat

/-- The source a word follows, if it follows one: FSRC of a FOLLOW word (R198). -/
def State.followSrc (s : State) (d sl w : Nat) : Option Nat :=
  let m := s.rd d Fd.SLOT_SPMODE.W sl
  let src := bitsOf m (8 * w + 4) (8 * w)
  if bitOf m (8 * w + 7) && src < 0x14 then some src else none

/-- The follow value (R198). -/
def State.followValue (s : State) (d src : Nat) : BitVec 16 :=
  if src < 16 then BitVec.ofNat 16 (s.rd d Fd.CH_LATCH.VALUE src)
  else BitVec.ofInt 16 (satS 16 (s.trkSpeed d (src - 16) / 2 ^ 10))

def State.onSp (s : State) (d sl w : Nat) (f : SpWord → SpWord) : State := s.onSlot d sl fun x => { x with sp := setAt x.sp w f }

def State.spWord (s : State) (d sl w : Nat) : SpWord := (s.slot d sl).sp.getD w SpWord.zero

/-- At a sample boundary a slot takes its set-point words (R196). -/
def State.boundary (s : State) (d sl : Nat) : State :=
  s.each [0, 1, 2, 3] fun s w =>
    let p := (s.spWord d sl w).before s.td0
    match (if s.device.follows then s.followSrc d sl w else none) with
    | some src => (s.setActive d sl w (s.followValue d src)).onSp d sl w fun x => x.taken s.td0
    | none => if p.2 then (s.setActive d sl w p.1).onSp d sl w fun x => x.taken s.td0 else s

/-- A SWAP of bank kind 0 (R199): with the buffers as they stood before the pending writes of its tick. DESIGN CHOICE, log entry 86. -/
def State.swapSet (s : State) (d sl : Nat) : State :=
  s.each [0, 1, 2, 3] fun s w =>
    let old := s.spActive d sl w
    (s.setActive d sl w ((s.spWord d sl w).before s.td0).1).onSp d sl w fun x => x.swap s.td0 old

/-- A write of SPS_LO or SPS_HI: both words of the register become pending (R194). -/
def opSps (d sl : Nat) (hi : Bool) (value : Word) (s : State) : State :=
  let s := s.wr d (if hi then Fd.SPS_HI.W else Fd.SPS_LO.W) sl value.toNat
  let w := if hi then 2 else 0
  (s.spPend d sl w 2 (value.setWidth 16)).spPend d sl (w + 1) 2 (BitVec.ofNat 16 (value.toNat / 65536))

/-- One set-point word written through a node's context page: as a host write (R194). -/
def opSpWord (d sl w : Nat) (v : BitVec 16) (s : State) : State :=
  let f := if 2 ≤ w then Fd.SPS_HI.W else Fd.SPS_LO.W
  let lo := if w % 2 = 0 then 0 else 16
  (s.wr d f sl (setBits (s.cell d (f.key sl)) (lo + 15) lo v.toNat).toNat).spPend d sl w 2 v

def execSpsWrite (d slot : Nat) (hi : Bool) (value : Word) (s : State) : Res :=
  s.guarded (s.alive d && decide (slot < 64)) (opSps d slot hi value)

/-! ### Enabling, cascades (R158, R166, R200) -/

/-- A write of SLOT_EN; it takes effect at the start of the next tick. -/
def opSlotEn (d : Nat) (hi : Bool) (value : Word) (s : State) : State :=
  s.wr d (if hi then Fd.SLOT_EN_HI.W else Fd.SLOT_EN_LO.W) 0 value.toNat

def execSlotEnWrite (d : Nat) (hi : Bool) (value : Word) (s : State) : Res := s.guarded (s.alive d) (opSlotEn d hi value)

/-- The start of a tick: SLOT_EN comes into force. A slot newly enabled starts its cascade count; a slot no longer enabled
leaves the ready queue, while a running one runs on (R158, R166, R200). -/
def State.leStart (s : State) (d : Nat) : State :=
  let new := s.rd d Fd.SLOT_EN_LO.W + s.rd d Fd.SLOT_EN_HI.W * 2 ^ 32
  let old := (s.die d).le.en
  if new = old then s else
    let s := s.onDie d fun x => { x with le := { x.le with en := new } }
    s.each slots fun s sl =>
      if bitOf new sl && !bitOf old sl then s.onSlot d sl fun x => { x with casc := 0 }
      else if !bitOf new sl && bitOf old sl && s.cond d sl == 1 then s.setCondition d sl 0
      else s

/-- A write of SLOT_CASC sets a cascade and restarts its count (R200). -/
def opSlotCasc (d sl : Nat) (value : Word) (s : State) : State :=
  (s.wr d Fd.SLOT_CASC.W sl (value &&& 0x803F00FF#32).toNat).onSlot d sl fun x => { x with casc := 0 }

def execSlotCascWrite (d slot : Nat) (value : Word) (s : State) : Res :=
  s.guarded (s.alive d && decide (slot < 64)) (opSlotCasc d slot value)

/-! ### Dispatch (R161) -/

/-- The free instances of an engine, ascending. -/
def State.freeInst (s : State) (d e : Nat) : List Nat :=
  (List.range 8).filter fun i => !(s.inst d e i).busy && !(s.inst d e i).test

/-- CRIT_RES of an engine, at most 8. -/
def State.critRes (s : State) (d e : Nat) : Nat := min 8 (bitsOf (s.rd d Fd.ENG_CFG.CRIT_RES) (4 * e + 3) (4 * e))

/-- The waiting slots of an engine. -/
def State.waitingOn (s : State) (d e : Nat) : List Nat :=
  slots.filter fun sl => s.cond d sl == 1 && s.rd d Fd.SLOT_CTRL.ENGINE sl == e

/-- Does slot a go before slot b: critical, then older tick, then lower index (R161)? -/
def State.goesBefore (s : State) (d a b : Nat) : Bool :=
  let da := s.rd d Fd.SLOT_CTRL.DEFER a
  let db := s.rd d Fd.SLOT_CTRL.DEFER b
  let ta := (s.slot d a).tickAt
  let tb := (s.slot d b).tickAt
  decide (da < db) || (da == db && (decide (ta < tb) || (ta == tb && decide (a ≤ b))))

/-- The slot that takes an instance next, if one may. -/
def State.nextSlot (s : State) (d e : Nat) : Option Nat :=
  match sortBy (s.goesBefore d) (s.waitingOn d e) with
  | [] => none
  | a :: _ => if s.flag d Fd.SLOT_CTRL.DEFER a && (s.freeInst d e).length ≤ s.critRes d e then none else some a

/-- The tick of the first issue of a run that takes instance i in this tick: the instance's first turn in the barrel after 13 ticks (R145,
R162). DEDUCED, log entry 32. -/
def State.firstIssue (s : State) (d i : Nat) : Int :=
  let t : Int := s.td0 + 14
  t + ((s.die d).le.turn0 + 2 * i - t) % 16

/-- A slot takes an instance: the instance is cleared, and the slot is at its sample boundary; the run uses the values that arrived before
(R147, R154, R196; 01 R19). -/
def State.grant (s : State) (d e i sl : Nat) : State :=
  let s := ((s.setCondition d sl 2).wr d Fd.SLOT_STAT.INSTANCE sl i).boundary d sl
  s.onInst d e i fun _ => { Inst.idle with
    busy := true, slot := sl, pc := s.rd d Fd.SLOT_PROG.PROG_BASE sl, coefB := s.flag d Fd.SLOT_CTRL.COEF_SEL sl
    first := s.firstIssue d i, snap := (s.die d).cells.filter fun c => arriving c.1
    sp := [0, 1, 2, 3].map fun w => s.spActive d sl w }

/-- INSTANCE_GRANT. -/
def execInstanceGrant (d e : Nat) (s : State) : Res :=
  s.guarded (s.on d 5 && decide (e < 6)) fun s =>
    match s.freeInst d e, s.nextSlot d e with
    | i :: _, some sl => s.grant d e i sl
    | _, _ => s

/-! ### The engine test gives its instance up (18 R482-R484) -/

def State.bist (s : State) (d : Nat) : Bist := (s.die d).bist
def State.onBist (s : State) (d : Nat) (f : Bist → Bist) : State := s.onDie d fun x => { x with bist := f x.bist }

def engBit (lo e : Nat) : Fld := ⟨0xD, 0x40, 1, lo + e, lo + e⟩

def State.engPer (s : State) (d : Nat) : Nat := max 1 (s.rd d Fd.BIST_PACE.ENG_PER) * 800000

/-- The issues the engine test has made: one in 16 ticks, at most 1,536 (06 R145; 18 R482). -/
def State.testIssues (s : State) (d : Nat) : Nat :=
  let b := s.bist d
  if (s.td0 : Int) < b.engFirst then 0 else min 1536 ((((s.td0 : Int) - b.engFirst) / 16).toNat + 1)

/-- What the end of a test shows (18 R484). -/
def State.showTest (s : State) (d e i issues : Nat) (sig : Word) : State :=
  let s := (s.onInst d e i fun x => { x with test := false }).wrB d Fd.BIST_STATUS.ENG_TEST 0 false
  let s := ((s.wr d Fd.ENG_ISSUES.ISSUES 0 (satU 16 issues)).wr d Fd.ENG_SIG.W 0 sig.toNat).wr d Fd.ENG_STAT.LAST_ENG 0 e
  (s.wr d Fd.ENG_STAT.LAST_INST 0 i).wrB d (engBit 8 e) 0 (decide (issues < 1536))

/-- The end of the engine test (18 R484). After a test that follows an INCOMPLETE one, the next engine's turn comes at the next multiple of
ENG_PER. DEDUCED, log entry 67. -/
def State.endTest (s : State) (d issues : Nat) (sig : Word) : State :=
  match (s.bist d).eng with
  | none => s
  | some (e, i) =>
    let s := s.showTest d e i issues sig
    if issues < 1536 then (s.onBist d fun b => { b with eng := none, again := true }).sticky d Sk.BIST.INCOMPLETE
    else
      let turn := fun (b : Bist) => if b.again then b.engAt + ((s.td0 : Int) - b.engAt) / s.engPer d * s.engPer d else b.engAt
      let s := s.onBist d fun b => { b with eng := none, again := false, engAt := turn b }
      if sig = Config.sigExp then
        let s := (s.wrB d (engBit 24 e) 0 true).onBist d fun b => { b with failing := b.failing.filter (· != e) }
        s.when (s.bist d).failing.isEmpty (·.lower d 0x0D1)
      else
        let s := ((s.wrB d (engBit 16 e) 0 true).sticky d Sk.BIST.SIG_FAIL).onBist d fun b => { b with failing := e :: b.failing }
        s.when (s.flag d Fd.BIST_CTRL.ENG_FLT) (·.raise d 0x0D1)

/-- A test that is cut short ends with the issues it has made; the MISR of an unfinished run is open (18 R483, R484). -/
def State.cutTest (s : State) (d : Nat) : State :=
  if (s.bist d).eng.isNone then s else let r := s.freeW; r.2.endTest d (s.testIssues d) r.1

/-- A waiting slot would take the instance under test if it were free (R161; 18 R483). -/
def State.wouldTake (s : State) (d e i : Nat) : Bool :=
  let s' := s.onInst d e i fun x => { x with test := false }
  (s'.freeInst d e).head? == some i && (s'.nextSlot d e).isSome

/-- The test must give up its instance (18 R483): to a slot, or because the engine is stopped or THROTTLE entered. -/
def State.testCut (s : State) (d : Nat) : Bool :=
  match (s.bist d).eng with
  | none => false
  | some (e, i) => s.wouldTake d e i || !s.on d 5 || !(s.inst d e i).test || s.throttled d

/-- ENGINE_TEST_YIELD (18 R483). -/
def opEngineYield (d : Nat) (s : State) : State := s.when (s.testCut d) (·.cutTest d)

/-- A START action (R159, R160, R178). A slot that becomes waiting finds free the instance it would take (18 R483). -/
def State.startSlot (s : State) (d sl : Nat) : State :=
  if !s.blockEn d 5 then s
  else if s.slotEn d sl then opEngineYield d (State.tickSlot 65 s d sl)
  else s.sticky d Sk.LE.IDLE_START

/-! ### Stopping (R178) -/

/-- Every instance stops at once; remaining writes are not made. The slots that ran are idle, and so are those that waited, which the spec
does not name. DESIGN CHOICE, log entry 23. -/
def State.leStop (s : State) (d : Nat) : State :=
  let s := s.onDie d fun x => { x with le := { x.le with inst := List.replicate 48 Inst.idle, stores := [] } }
  s.each slots fun s sl => s.when (s.cond d sl != 0) fun s => s.setCondition d sl 0

/-- SOFT_RESET of the LE page; no memory changes. -/
def opLeReset (d : Nat) (s : State) : State :=
  s.onDie d fun x => { x with le := { Le.zero with extents := x.le.extents, turn0 := x.le.turn0 } }

end Sys2Proof.Machine
end

