-- ==== Sys2Proof/Machine/LoopIsa.lean ====
section
/-! DEFINITION. The instructions of the loop engines but END (07 R183-R188). An instruction row names a die, an engine and
an instance; it occurs when that instance runs and its next word executes as the row's opcode (log entry 5). -/

namespace Sys2Proof.Machine

/-- The word at an instance's program counter (06 R147, R153). -/
def State.fetch (s : State) (d e i : Nat) : Word := s.cell d (progKey e (s.inst d e i).pc)

/-- Is an instance running a slot's program, and is this tick its turn to issue: 16 ticks for each issue its run has taken (06 R145, R146,
R164)? DEDUCED, log entry 32. -/
def State.running (s : State) (d e i : Nat) : Bool :=
  let x := s.inst d e i
  s.on d 5 && decide (e < 6) && decide (i < 8) && x.busy && !x.test && !x.ending && decide ((s.td0 : Int) = x.first + 16 * x.issues)

/-- An instruction of a run: outside its pages the result is not defined (R190); otherwise its effect, unless the next word
executes as another opcode. -/
def State.issue (s : State) (d e i : Nat) (op : LoopOp) (f : Inst → Word5 → Res) : Res :=
  let x := s.inst d e i
  let w := s.fetch d e i
  if !s.sane then s.spoilt
  else if !s.running d e i then .next s
  else if !s.pcOk d e x then .next (s.misuse 190 d 5)
  else if executesAs w != op then .next s
  else if !s.pagesOk d e x op (decodeLoop w) then .next (s.misuse 190 d 5)
  else f x (decodeLoop w)

/-- The instance after an instruction of n issues. -/
def Inst.step (x : Inst) (n : Nat) : Inst := { x with pc := x.pc + 1, issues := x.issues + n }

def Inst.accOf (x : Inst) (w : Word5) : Int := x.acc.getD w.a 0
def Inst.wsOf (x : Inst) (w : Word5) : Int := (x.w.getD w.ws 0).toInt
def Inst.ws2Of (x : Inst) (w : Word5) : Int := (x.w.getD ((w.ws + 1) % 16) 0).toInt
def Inst.setAcc (x : Inst) (w : Word5) (v : Int) : Inst := { x with acc := setAt x.acc w.a fun _ => v }
def Inst.setWs (x : Inst) (k : Nat) (v : BitVec 16) : Inst := { x with w := setAt x.w k fun _ => v }
/-- A saturated result enters the accumulator and sets V if it was limited (R151, R184). -/
def Inst.satInto (x : Inst) (w : Word5) (v : Int) : Inst :=
  let r := satAcc v
  { x.setAcc w r.1 with v := x.v || r.2 }

/-- The instance of a run takes a value. -/
def State.setInst (s : State) (d e i n : Nat) (x : Inst) : Res := .next (s.onInst d e i fun _ => x.step n)

/-- State words from an offset are written by an instruction of n issues (R192): visible when its last issue is complete (06 R155, R165). -/
def State.storeState (s : State) (d e i n : Nat) (x y : Inst) (off : Nat) (vals : List (BitVec 16)) : Res :=
  let at_ := x.first + 16 * ((x.issues + n : Nat) : Int)
  let new := (vals.zip (List.range vals.length)).map fun v => (⟨at_, x.slot, s.stateBase d x + off + v.2, v.1⟩ : Store)
  (s.onDie d fun z => { z with le := { z.le with stores := z.le.stores ++ new } }).setInst d e i n y

/-- An instruction of the accumulator and an operand word. -/
def State.accOp (s : State) (d e i : Nat) (op : LoopOp) (f : Inst → Word5 → Int → Inst) : Res :=
  s.issue d e i op fun x w => s.setInst d e i op.issues (f x w (s.operand d x w).toInt)

def offOf (w : Word5) : Nat := bitsOf w.field 14 0

/-- NOP: none. -/
def execNop (d e i : Nat) (s : State) : Res := s.issue d e i .nop fun x _ => s.setInst d e i 1 x

/-- LD: A := x × 2^16. -/
def execLd (d e i : Nat) (s : State) : Res := s.accOp d e i .ld fun x w v => x.setAcc w (toAcc v)

/-- LDW: Wn := x. -/
def execLdw (d e i : Nat) (s : State) : Res :=
  s.issue d e i .ldw fun x w => s.setInst d e i 1 (x.setWs w.ws (s.operand d x w))

/-- ST: state[a] := rnd(A). -/
def execSt (d e i : Nat) (s : State) : Res :=
  s.issue d e i .st fun x w =>
    let r := rnd (x.accOf w)
    s.storeState d e i 1 x { x with v := x.v || r.2 } (offOf w) [r.1]

/-- STS: state[a] := Wn. -/
def execSts (d e i : Nat) (s : State) : Res :=
  s.issue d e i .sts fun x w => s.storeState d e i 1 x x (offOf w) [x.w.getD w.ws 0]

/-- MOVW: Wn := rnd(A). -/
def execMovw (d e i : Nat) (s : State) : Res :=
  s.issue d e i .movw fun x w =>
    let r := rnd (x.accOf w)
    s.setInst d e i 1 { x.setWs w.ws r.1 with v := x.v || r.2 }

/-- MAC: A := A + Wn × x. -/
def execMac (d e i : Nat) (s : State) : Res := s.accOp d e i .mac fun x w v => x.satInto w (x.accOf w + product (x.wsOf w) v)

/-- MSU: A := A − Wn × x. -/
def execMsu (d e i : Nat) (s : State) : Res := s.accOp d e i .msu fun x w v => x.satInto w (x.accOf w - product (x.wsOf w) v)

/-- MUL: A := Wn × x. -/
def execMul (d e i : Nat) (s : State) : Res := s.accOp d e i .mul fun x w v => x.setAcc w (product (x.wsOf w) v)

/-- ADD: A := A + x × 2^16. -/
def execAdd (d e i : Nat) (s : State) : Res := s.accOp d e i .add fun x w v => x.satInto w (x.accOf w + toAcc v)

/-- SUB: A := A − x × 2^16. -/
def execSub (d e i : Nat) (s : State) : Res := s.accOp d e i .sub fun x w v => x.satInto w (x.accOf w - toAcc v)

/-- SHL: A := A × 2^n. -/
def execShl (d e i : Nat) (s : State) : Res :=
  s.issue d e i .shl fun x w => s.setInst d e i 1 (x.satInto w (x.accOf w * 2 ^ bitsOf w.field 4 0))

/-- SHR: A := A >> n, arithmetic. -/
def execShr (d e i : Nat) (s : State) : Res :=
  s.issue d e i .shr fun x w => s.setInst d e i 1 (x.setAcc w (x.accOf w / 2 ^ bitsOf w.field 4 0))

/-- NEG: A := −A. -/
def execNeg (d e i : Nat) (s : State) : Res := s.issue d e i .neg fun x w => s.setInst d e i 1 (x.satInto w (-(x.accOf w)))

/-- ABS: A := |A|. -/
def execAbs (d e i : Nat) (s : State) : Res :=
  s.issue d e i .abs fun x w => s.setInst d e i 1 (x.satInto w (x.accOf w).natAbs)

/-- Word a + 1 of an operand of LIM. -/
def State.operand2 (s : State) (d : Nat) (x : Inst) (w : Word5) : BitVec 16 :=
  if w.mode = 0 then s.stateAt d x (offOf w + 1) else s.coefAt d x (offOf w + 1)

/-- LIM: A clamped between words a and a + 1; L if it changes. -/
def execLim (d e i : Nat) (s : State) : Res :=
  s.issue d e i .lim fun x w =>
    let y := limit (x.accOf w) (s.operand d x w).toInt (s.operand2 d x w).toInt
    s.setInst d e i 2 { x.setAcc w y with l := x.l || y != x.accOf w }

/-- INTG (R185). -/
def execIntg (d e i : Nat) (s : State) : Res :=
  s.issue d e i .intg fun x w =>
    let a := s.stateAt d x (offOf w)
    let b := s.stateAt d x (offOf w + 1)
    let r := integrate (a.toInt * 2 ^ 16 + b.toNat + x.accOf w) (x.ws2Of w) (x.wsOf w)
    s.storeState d e i 2 x { x.setAcc w r.1 with wf := x.wf || r.2 } (offOf w)
      [BitVec.ofInt 16 (r.1 / 2 ^ 16), BitVec.ofInt 16 r.1]

/-- DLY: A := state[a] × 2^16, then state[a] := Wn. -/
def execDly (d e i : Nat) (s : State) : Res :=
  s.issue d e i .dly fun x w =>
    s.storeState d e i 1 x (x.setAcc w (toAcc (s.operand d x w).toInt)) (offOf w) [x.w.getD w.ws 0]

/-- SEL: if N = 1 then A := x × 2^16. -/
def execSel (d e i : Nat) (s : State) : Res := s.accOp d e i .sel fun x w v => if x.n then x.setAcc w (toAcc v) else x

/-- TAB (R186). -/
def execTab (d e i : Nat) (s : State) : Res :=
  s.issue d e i .tab fun x w =>
    let p := (x.wsOf w + 32768).toNat * s.tabSegs d x (offOf w)
    let j := p / 65536
    let y0 := (s.coefAt d x (offOf w + 1 + j)).toInt
    let y1 := (s.coefAt d x (offOf w + 2 + j)).toInt
    s.setInst d e i 3 (x.setAcc w (interpolate y0 y1 (p % 65536)))

/-- DIV: A := trunc(A × 2^15 ÷ x). -/
def execDiv (d e i : Nat) (s : State) : Res :=
  s.accOp d e i .div fun x w v =>
    let r := divide (x.accOf w) v
    { x.setAcc w r.1 with v := x.v || r.2.1, dz := x.dz || r.2.2 }

/-- SINCOS: sine to Wn, cosine to the next word. -/
def execSincos (d e i : Nat) (s : State) : Res :=
  s.issue d e i .sincos fun x w =>
    let v := s.operand d x w
    s.setInst d e i 2 ((x.setWs w.ws (sincosOut false v)).setWs ((w.ws + 1) % 16) (sincosOut true v))

/-- IN: A := x × 2^16. -/
def execInp (d e i : Nat) (s : State) : Res := s.accOp d e i .inp fun x w v => x.setAcc w (toAcc v)

/-- OUT: rnd(A) is staged for its destination (R191, R192). -/
def execOut (d e i : Nat) (s : State) : Res :=
  s.issue d e i .out fun x w =>
    let r := rnd (x.accOf w)
    let y := { x with v := x.v || r.2 }
    match s.outDest d w with
    | some dst => s.setInst d e i 1 { y with staged := y.staged ++ [(dst, r.1)] }
    | none => s.setInst d e i 1 y

/-- SPT (R187). -/
def execSpt (d e i : Nat) (s : State) : Res :=
  s.issue d e i .spt fun x w =>
    let r : Int := min 32767 (x.wsOf w).natAbs
    let v := stepToward (s.operand d x w).toInt (x.sp.getD (bitsOf w.field 16 15) 0).toInt r
    s.storeState d e i 2 x (x.setAcc w (toAcc v)) (offOf w) [BitVec.ofInt 16 v]

/-- FLAG: state[a] := state[a] OR F; then V, L, W and D clear. -/
def execFlag (d e i : Nat) (s : State) : Res :=
  s.issue d e i .flag fun x w =>
    s.storeState d e i 1 x { x with v := false, l := false, wf := false, dz := false } (offOf w)
      [s.operand d x w ||| BitVec.ofNat 16 x.flags]

/-- CMP: Z := (A = x × 2^16); N := (A < x × 2^16). -/
def execCmp (d e i : Nat) (s : State) : Res :=
  s.accOp d e i .cmp fun x w v => { x with z := x.accOf w == toAcc v, n := decide (x.accOf w < toAcc v) }

/-- BRF (R188). -/
def execBrf (d e i : Nat) (s : State) : Res :=
  s.issue d e i .brf fun x w =>
    s.setInst d e i 1 (if x.taken (bitsOf w.field 15 12) then { x with pc := x.pc + bitsOf w.field 11 0 } else x)

end Sys2Proof.Machine
end

