-- ==== Sys2Proof/Machine/SecImage.lean ====
section
/-! DEFINITION. Signed images (19 R494-R499): a load in progress, what it writes as it arrives, and how it ends. -/

namespace Sys2Proof.Machine

def State.sec (s : State) (d : Nat) : Sec := (s.die d).sec
def State.onSec (s : State) (d : Nat) (f : Sec → Sec) : State := s.onDie d fun x => { x with sec := f x.sec }

/-- A load is in progress: receiving or verifying (R496). -/
def State.imgBusy (s : State) (d : Nat) : Bool := s.rd d Fd.IMG_STAT.STAT == 1 || s.rd d Fd.IMG_STAT.STAT == 2

/-! ### The words of a load, oldest first (R494) -/

def State.imgWords (s : State) (d : Nat) : List Word := (s.sec d).words.reverse

/-- Bytes [at, at + n) of the words received. -/
def imgBytes (ws : List Word) (start n : Nat) : List Byte := slice (ws.flatMap fun w => beBytes 4 w.toNat) start n

/-- A number from the header; bytes not received count as 0. -/
def hdrNum (ws : List Word) (start n : Nat) : Nat := beNat (imgBytes (ws.take 44) start n)

def imgLen (ws : List Word) : Nat := hdrNum ws 8 4

/-- Words of the body, and of the whole image: header 44, body, signature 24. -/
def bodyWords (ws : List Word) : Nat := (imgLen ws + 3) / 4
def wholeWords (ws : List Word) : Nat := 44 + bodyWords ws + 24

/-! ### What a body word writes (R495, R497) -/

/-- Where body word i of an image goes. -/
inductive ImgDest where
  | cell (key : Nat) (dead : Word)     -- a memory word, and what a failed load leaves there
  | dram (addr : Nat)
  | nothing
  deriving DecidableEq, Repr

def imgDest (type : Nat) (ws : List Word) (i : Nat) : ImgDest :=
  match type with
  | 1 =>
    let e := hdrNum ws 24 1
    let p := hdrNum ws 28 2
    let c := hdrNum ws 32 2
    let n := hdrNum ws 36 2
    if i < p then (if e < 6 then .cell (progKey e ((hdrNum ws 26 2 + i) % 8192)) 0xFC000000 else .nothing)
    else if i < p + c then .cell (coefKey ((hdrNum ws 30 2 + (i - p)) % 32768)) 0
    else if i < p + c + n then .cell (stateKey ((hdrNum ws 34 2 + (i - p - c)) % 32768)) 0
    else .nothing
  | 2 | 4 => .dram (hdrNum ws 24 4 + 4 * i)
  | _ => .nothing

/-- A word goes to its destination; data words keep 16 bits, and DRAM takes it on a head die whose DRAM answers. -/
def State.imgPut (s : State) (d : Nat) (x : ImgDest) (w : Word) : State :=
  match x with
  | .cell k dead => s.putCell d k (if dead = 0 then w &&& 0xFFFF#32 else w)
  | .dram a => s.when (s.dramOn d) fun s => s.dramWrite d a (beBytes 4 w.toNat)
  | .nothing => s

/-- Program memory at a word is used by a slot whose SLOT_EN bit is 1 (R498). -/
def State.progInUse (s : State) (d key : Nat) : Bool :=
  (List.range 64).any fun sl =>
    let e := s.rd d Fd.SLOT_CTRL.ENGINE sl
    bitOf (s.rd d Fd.SLOT_EN_LO.W + s.rd d Fd.SLOT_EN_HI.W * 2 ^ 32) sl &&
      (match s.extent d e sl with
      | some x => (List.range x.pLen).any fun i => progKey e ((x.progAt + i) % 8192) == key
      | none => progKey e (s.rd d Fd.SLOT_PROG.PROG_BASE sl) == key)

/-- A failed load overwrites what it wrote (R497). -/
def State.imgZero (s : State) (d : Nat) : State :=
  let ws := s.imgWords d
  s.each (List.range (min (ws.length - 44) (bodyWords ws))) fun s i =>
    match imgDest (s.sec d).type ws i with
    | .cell k dead => s.putCell d k dead
    | .dram a => s.when (s.dramOn d) fun s => s.dramWrite d a [0, 0, 0, 0]
    | .nothing => s

/-- A load ends with a RESULT (R496, R497); the digest and the extents of a good one are kept (R190, R496). -/
def State.imgEnd (s : State) (d result : Nat) : State :=
  let ws := s.imgWords d
  let type := (s.sec d).type
  let s := s.when (result != 0) (·.imgZero d)
  let s := (s.wr d Fd.IMG_STAT.RESULT 0 result).wr d Fd.IMG_STAT.STAT 0 3
  let s := s.sticky d (if result = 0 then Sk.SEC.IMG_OK else Sk.SEC.IMG_FAIL)
  let s := s.onSec d fun x => { x with
    words := [], ok := setAt x.ok type fun _ => result == 0
    got4 := if type = 4 then result == 0 else x.got4
    dest4 := if type = 4 && result = 0 then hdrNum ws 24 4 else x.dest4
    digest := if result = 0 then setAt x.digest (type - 1) fun _ => beBytes 48 (Config.sha384 (imgBytes ws 0 (176 + imgLen ws))).toNat else x.digest }
  s.when (result == 0 && type == 1) fun s => s.onDie d fun x => { x with le := { x.le with
    extents := ⟨hdrNum ws 24 1, hdrNum ws 26 2, hdrNum ws 28 2, hdrNum ws 32 2, hdrNum ws 36 2⟩ ::
      x.le.extents.filter fun o => !(o.engine == hdrNum ws 24 1 && o.progAt == hdrNum ws 26 2) } }

/-! ### Starting, aborting, receiving (R496, R505) -/

/-- An operation, an owner burn or a verification is in progress on the die (R505). DEDUCED, log entry 70. -/
def State.secBusy (s : State) (d : Nat) : Bool :=
  (s.sec d).op.isSome || (s.sec d).burn.isSome || s.rd d Fd.IMG_STAT.STAT == 2

def State.loadState (s : State) : Bool := s.device == .config || s.device == .standstill

/-- A write of IMG_CTRL with START (R496): check 9 at once. DEDUCED, log entry 71. -/
def opImgStart (d type : Nat) (s : State) : State :=
  if s.rd d Fd.IMG_STAT.STAT = 2 then s.sticky d Sk.SEC.SEC_BUSY
  else
    let s := s.when (s.imgBusy d) fun s => s.imgEnd d 8
    let s := ((s.wr d Fd.IMG_CTRL.TYPE 0 type).wr d Fd.IMG_STAT.W 0 0).onSec d fun x => { x with words := [], type := type % 8 }
    if s.loadState then s.wr d Fd.IMG_STAT.STAT 0 1 else s.imgEnd d 9

/-- A write of IMG_CTRL with ABORT (R496). -/
def opImgAbort (d : Nat) (s : State) : State := if s.imgBusy d then s.imgEnd d 8 else s

/-- A word of the image (R496-R498): it is counted, and a body word goes to its target. -/
def opImgWord (d : Nat) (w : Word) (s : State) : Res :=
  if s.rd d Fd.IMG_STAT.STAT != 1 then .next s
  else
    let n := (s.sec d).words.length
    let s := (s.onSec d fun x => { x with words := w :: x.words }).bump d Fd.IMG_STAT.WORDS 0 1
    let ws := s.imgWords d
    let x := if 44 ≤ n && decide (n < 44 + bodyWords ws) then imgDest (s.sec d).type ws (n - 44) else .nothing
    let clash := match x with
      | .cell k dead => dead != 0 && s.progInUse d k
      | _ => false
    if clash then .next (s.misuse 498 d 14)
    else
      let s := s.imgPut d x w
      .next (s.when (decide (44 ≤ n + 1) && n + 1 == wholeWords ws) fun s => s.wr d Fd.IMG_STAT.STAT 0 2)

/-- IMAGE_START. -/
def execImageStart (d : Nat) (type : BitVec 3) (s : State) : Res := s.guarded (s.alive d) (opImgStart d type.toNat)

/-- IMAGE_ABORT. -/
def execImageAbort (d : Nat) (s : State) : Res := s.guarded (s.alive d) (opImgAbort d)

/-- IMAGE_WORD. -/
def execImageWord (d : Nat) (word : Word) (s : State) : Res := s.sanely (if s.alive d then opImgWord d word s else .next s)

/-! ### Owner slots (R488, R491-R493) -/

def State.fuse (s : State) (d lo n : Nat) : Nat := bitsOf (s.sec d).fuses.toNat (lo + n - 1) lo

/-- Fuse bits 1,216 to 2,755 in force on a die: its own on die 0 and a node, die 0's as BOOT copied them elsewhere.
DEDUCED, log entry 69. -/
def State.ownerBits (s : State) (d : Nat) : Nat := if d = 0 then s.fuse 0 1216 1540 else (s.sec d).copied.toNat

def State.ownerSlot (s : State) (d k : Nat) : Nat := bitsOf (s.ownerBits d) (384 * k + 383) (384 * k)
def State.revoked (s : State) (d k : Nat) : Bool := bitOf (s.ownerBits d) (1536 + k)
def State.usable (s : State) (d k : Nat) : Bool := s.ownerSlot d k != 0 && !s.revoked d k

/-- The die's identity number (R488). -/
def State.idOf (s : State) (d : Nat) : Nat := s.fuse d 384 64

/-! ### Verification (R496) -/

/-- LEN and COUNT lie within R495, and for a container within R529. -/
def lenOk (type : Nat) (ws : List Word) : Bool :=
  let len := imgLen ws
  len % 4 == 0 && match type with
    | 1 => len == 4 * (hdrNum ws 28 2 + hdrNum ws 32 2 + hdrNum ws 36 2)
    | 2 => decide (len ≤ 64 * 2 ^ 20)
    | 3 => let c := hdrNum ws 24 2; decide (1 ≤ c) && decide (c ≤ 8000) && len == 8 * c
    | 4 => let c := beNat (imgBytes ws 176 4); decide (1 ≤ c) && decide (c ≤ 15) && decide (len ≤ 16 * 2 ^ 20)
    | _ => false

/-- The RESULT of the checks, in the order of R496. DEDUCED, log entry 71. -/
def State.imgResult (s : State) (d : Nat) : Nat :=
  let ws := s.imgWords d
  let type := (s.sec d).type
  let slot := hdrNum ws 5 1
  let pub := imgBytes ws 72 97
  let bind_ := hdrNum ws 16 8
  let len := imgLen ws
  if hdrNum ws 0 4 ≠ 0x4B4C4431 then 1
  else if hdrNum ws 4 1 ≠ type || type = 0 || 4 < type then 2
  else if 3 < slot || !s.usable d slot then 3
  else if !Config.onCurve pub || (Config.sha384 pub).toNat ≠ s.ownerSlot d slot then 4
  else if bind_ ≠ 0 && bind_ ≠ s.idOf d then 5
  else if !lenOk type ws then 6
  else if !Config.ecdsaVerify pub (imgBytes ws 0 (176 + len)) (imgBytes ws (176 + len) 96) then 7
  else 0

/-- The entries of a configuration image: address and data (R495). -/
def imgEntries (ws : List Word) : List (Nat × Word) :=
  (List.range (hdrNum ws 24 2)).map fun i => ((ws.getD (44 + 2 * i) 0).toNat, ws.getD (45 + 2 * i) 0)

end Sys2Proof.Machine
end

