-- ==== Sys2Proof/Machine/Device.lean ====
section
/-! DEFINITION. The device state (01 R30-R37): what every change of state does, wherever it comes from. -/

namespace Sys2Proof.Machine

/-- NODE_STATE (10 R289): state, trusted, silent since the last report, every bridge held by a node-wide block. -/
def State.nodeStateWord (s : State) : BitVec 16 :=
  let silent := s.flag 0 Fd.RING_STATUS.SILENT || bitOf (s.nodeField 0).toNat 5
  BitVec.ofNat 16 (s.device.code + bnat s.trusted * 16 + bnat silent * 32 + bnat s.nodeBlocked * 256)

/-- A node's NODE_STATE field follows what it reports. -/
def State.reportState (s : State) : State := if s.isHead then s else s.setNodeField 0 s.nodeStateWord

/-- No record is latched: the package record on a head, the local one on a node (17 R449). -/
def State.latchEmpty (s : State) : Bool := !s.flag 0 Fd.FF_SRC.VALID

/-- PERMIT (R31): high in a switching state while no fault is latched; forced low on a gated die 0 (13 R359). -/
def State.permitNow (s : State) : Bool := s.device.switching && s.latchEmpty && s.alive 0

def State.setPermit (s : State) : State := { s with pins := { s.pins with permit := s.permitNow } }

/-- The local latch of a die is emptied. -/
def State.emptyLocal (s : State) (d : Nat) : State :=
  ((s.wr d Fd.LOC_SRC.W 0 0).wr d Fd.LOC_T_LO.W 0 0).wr d Fd.LOC_T_HI.W 0 0

def State.emptyPackage (s : State) (d : Nat) : State :=
  ((s.wr d Fd.FF_SRC.W 0 0).wr d Fd.FF_T_LO.W 0 0).wr d Fd.FF_T_HI.W 0 0

/-- The transfer of node images ends for the waystations still in progress, each marked failed for a cause (21 R532). -/
def State.nimgEnd (s : State) (d cause : Nat) : State :=
  let left := (s.die d).nimg.left
  if left.isEmpty then s else
    let s := s.each left fun s e =>
      (((s.wrB d ⟨0x0, 0x40, 1, e.ws - 1, e.ws - 1⟩ 0 true).wr d Fd.NIMG_STAT.LAST_CAUSE 0 cause).wr d Fd.NIMG_STAT.LAST_WS 0 (e.ws - 1))
    ((s.onDie d fun x => { x with nimg := ⟨[]⟩ }).wr d Fd.NIMG_STAT.STAT 0 2).wrB d Fd.DIE_STATUS.NIMG_BUSY 0 false

/-- The safety block evaluates in this state (15 R397). -/
def DevState.safetyOn : DevState → Bool
  | .standstill | .startup | .run | .test | .recovery | .lockout => true
  | _ => false

/-- The safety channels of the part: dies 0 and 1 of a head (15 R393). -/
def State.channels (s : State) : List Nat := if s.isHead then [0, 1] else []

def State.onSaf (s : State) (ch : Nat) (f : Saf → Saf) : State := s.onDie ch fun x => { x with saf := f x.saf }

/-- Safety outputs and test outputs of the part off, with their commands (15 R397). -/
def State.safetyOff (s : State) : State :=
  let s := { s with pins := { s.pins with soa := 0, sob := 0, tp := 0 } }
  s.each s.channels fun s ch =>
    (s.wr ch Fd.SAF_STATUS.OUT_ON 0 0).onSaf ch fun x => { x with dark := List.replicate 8 none, tpDark := List.replicate 4 none }

/-- A channel starts to evaluate (15 R405, 16 R430, R433): functions in DEMAND_ARMED, connections in WAIT, sequence numbers from 1. -/
def State.safetyStart (s : State) (ch : Nat) : State :=
  let s := (s.wr ch Fd.SAF_FNSTATE.W 0 0x55555555).wr ch Fd.SAF_STATUS.CLEAR 0 0
  let s := s.each (List.range 32) fun s c => (s.wr ch Fd.CONN_STAT.W c 0).wr ch Fd.CONN_SEQ.W c 0
  s.onSaf ch fun x => { Saf.zero with
    run := x.run, rawAt := x.rawAt, hist := x.hist.map fun e => (e.1, e.2 % 2 ^ 24), lvlAt := x.lvlAt, cycleAt := x.cycleAt, cfgPend := x.cfgPend, trip := x.trip, inbox := x.inbox }

/-- SAF_TRIP of each channel: in a switching state, as the latest cycle end left the channel (15 R424). -/
def State.safetyTrip (s : State) : State :=
  s.each s.channels fun s ch => s.source ch 0x0A0 (s.device.switching && (s.die ch).saf.trip && s.alive ch)

/-- The part changes state (R33, R36, R37): STATE and its history, STATE_CHANGED, PERMIT; on a head a STATE for every ring; on
a node the bridges (R31) and the local latch (17 R457); a node image transfer ends outside CONFIG and STANDSTILL (21 R532). -/
def State.enter (s : State) (new : DevState) : State :=
  let starts := !s.device.safetyOn && new.safetyOn
  let s := { s with last := s.device, device := new, changes := s.changes + 1, arming := none, movedAt := some s.td0, movedBy := none }
  let s := s.sticky 0 Sk.DIE.STATE_CHANGED
  let s := s.when (!new.safetyOn) (·.safetyOff)
  let s := s.when starts fun s => s.each s.channels fun s ch => s.safetyStart ch
  let s := s.safetyTrip
  let s := s.when (new != .config && new != .standstill) fun s => s.each s.dieList fun s d =>
    (s.nimgEnd d 5).when (s.imgBusy d) fun s => s.imgEnd d 8
  let s :=
    if s.isHead then
      s.each (s.dieList.filter fun d => s.blockEn d 7 && decide (2 ≤ s.rd d Fd.RING_CTRL.MODE)) fun s d => s.onDie d fun x => { x with head := { x.head with stateOut := x.head.stateOut ++ [(new.code, s.td0)] } }
    else
      let s := s.when (!new.switching && new != .lockout) fun s => (s.emptyLocal 0).emptyPackage 0
      if new.switching then s.unblock else s.blockAll
  (s.setPermit).reportState

/-- A latched fault takes the part to LOCKOUT (R33, R34): one transition in a tick, a command that took effect in the same tick being
ignored. DEDUCED, log entry 15. -/
def State.lockOutDevice (s : State) : State :=
  if s.movedAt == some s.td0 then
    match s.movedBy with
    | none => s.setPermit
    | some old =>
      let s := s.each s.dieList fun s d => s.onDie d fun x => { x with head := { x.head with
        stateOut := x.head.stateOut.filter fun e => e.2 != s.td0 } }
      { s.enter .lockout with last := old, changes := s.changes }
  else s.enter .lockout

end Sys2Proof.Machine
end

