-- ==== Sys2Proof/Machine/Fault.lean ====
section
/-! DEFINITION. The fault collector (17 R445-R457): local latch, package record, reaction set, clear. -/

namespace Sys2Proof.Machine

/-- Which of two arriving sources is latched: the lower code, then the lower waystation (R448). -/
def before (a b : Nat × Nat) : Bool := decide (a.1 < b.1) || (a.1 == b.1 && decide (a.2 ≤ b.2))

def least : List (Nat × Nat) → Option (Nat × Nat)
  | [] => none
  | a :: t =>
    match least t with
    | none => some a
    | some b => if before a b then some a else some b

/-- Sources or records that came to a held latch (R450). -/
def State.overflow (s : State) (d n : Nat) : State :=
  if n = 0 then s else
    ((s.wrB d Fd.FLT_STATUS.OVERFLOW 0 true).bump d Fd.FF_COUNT.OVF_COUNT 0 n).sticky d Sk.FLT.OVERFLOW

def State.writeRecord (s : State) (d : Nat) (src lo hi : Fld) (r : Record) : State :=
  ((s.wr d src 0 (2 ^ 31 + r.ws % 64 * 65536 + r.code % 4096)).wr d lo 0 (loWord r.tick)).wr d hi 0 (hiWord r.tick)

/-- What a node's latch does beside the record (R454, 09 R256): bridges blocked, manifests discarded, reports queued for the
ring, its ledger stream triggered. -/
def State.nodeLatch (s : State) (arrived : List (Nat × Nat)) : State :=
  let s := s.dropManifests.blockAll
  let s := s.when s.followsHead fun s => s.onDie 0 fun x => { x with node := { x.node with
    reports := x.node.reports ++ ((sortBy before arrived).map fun a => ⟨BitVec.ofNat 8 a.1, 4, 4⟩) } }
  let s := s.when (s.flag 0 Fd.FF_REACT.REC_TRIG) fun s => s.onRec 0 fun r => { r with latched := true }
  let s := s.reportState
  if (s.device.switching || (s.movedBy.any DevState.switching && s.movedAt == some s.td0)) && !s.followsHead then s.lockOutDevice
  else s.setPermit

/-- Sources that arrive in the tick of a node's latch, but after it was made, join its reports in ascending order (09 R256). -/
def State.reportLate (s : State) (arrived : List (Nat × Nat)) : State :=
  s.when (s.followsHead && s.rd 0 Fd.LOC_T_LO.W == loWord s.td0 && s.rd 0 Fd.LOC_T_HI.W == hiWord s.td0) fun s =>
    s.onDie 0 fun x =>
      let begun := x.node.reports.takeWhile fun r => !(r.leftA == 4 && r.leftB == 4)
      let waiting := x.node.reports.drop begun.length ++ arrived.map fun a => ⟨BitVec.ofNat 8 a.1, 4, 4⟩
      { x with node := { x.node with reports := begun ++ sortBy (fun a b => decide (a.src.toNat ≤ b.src.toNat)) waiting } }

/-- The local record of die d is the one a latch of this tick made, and the source that arrived now goes before it (R448). -/
def State.latchedNow (s : State) (d : Nat) (a : Nat × Nat) : Bool :=
  s.flag d Fd.LOC_SRC.VALID && s.rd d Fd.LOC_T_LO.W == loWord s.td0 && s.rd d Fd.LOC_T_HI.W == hiWord s.td0 &&
    !before (s.rd d Fd.LOC_SRC.CODE, s.rd d Fd.LOC_SRC.WS) a

/-- The sources that arrived meet the local latch of die d (R448, R450): of those of one tick the first in order is latched, whatever
their order of arrival. DEDUCED, log entry 62. -/
def opLocalLatch (d : Nat) (s : State) : State :=
  let arr := (s.die d).flt.arriving
  let s := s.onDie d fun x => { x with flt := { x.flt with arriving := [] } }
  match least arr with
  | none => s
  | some a =>
    if s.latchedNow d a then
      let r : Record := ⟨a.1, a.2, s.td0⟩
      let s := (s.writeRecord d Fd.LOC_SRC.W Fd.LOC_T_LO.W Fd.LOC_T_HI.W r).overflow d arr.length
      if s.isHead then { s with bus := s.bus.map fun e => if e.1 == d && e.2.tick == s.td0 then (d, r) else e }
      else (s.writeRecord 0 Fd.FF_SRC.W Fd.FF_T_LO.W Fd.FF_T_HI.W r).reportLate arr
    else if s.flag d Fd.LOC_SRC.VALID then (s.overflow d arr.length).reportLate arr
    else
      let r : Record := ⟨a.1, a.2, s.td0⟩
      let s := s.writeRecord d Fd.LOC_SRC.W Fd.LOC_T_LO.W Fd.LOC_T_HI.W r
      let s := ((s.bump d Fd.FF_COUNT.LATCHES 0 1).sticky d Sk.FLT.LATCHED).overflow d (arr.length - 1)
      if s.isHead then { s with bus := s.bus ++ [(d, r)] }
      else (s.writeRecord 0 Fd.FF_SRC.W Fd.FF_T_LO.W Fd.FF_T_HI.W r).nodeLatch arr

/-- LOCAL_LATCH. -/
def execLocalLatch (d : Nat) (s : State) : Res := s.always (s.alive d && s.armed) (opLocalLatch d)

/-- Which of two records is the package's: earlier tick, lower code, lower waystation (R449). -/
def Record.first (a b : Record) : Bool :=
  decide (a.tick < b.tick) || (a.tick == b.tick && before (a.code, a.ws) (b.code, b.ws))

def firstRecord : List Record → Option Record
  | [] => none
  | a :: t =>
    match firstRecord t with
    | none => some a
    | some b => if a.first b then some a else some b

/-- BLOCK of a reaction is due on the ring of die d, if its mode sends BLOCK (R452, 10 R288, R293). -/
def State.wantBlock (s : State) (d code ticks : Nat) : State :=
  s.when (s.blockEn d 7 && decide (2 ≤ s.rd d Fd.RING_CTRL.MODE)) fun s =>
    s.onDie d fun x => { x with head := { x.head with blockOut := some ⟨code, ticks, 4, s.td0 + 16⟩ } }

/-- The reaction set (R452): BLOCK on every ring, PERMIT low, the recorder's trigger, LOCKOUT. -/
def State.react (s : State) (r : Record) : State :=
  let s := s.each s.dieList fun s d => s.when (s.alive d) fun s => s.wantBlock d (r.code % 4096) r.tick
  let s := s.when (s.flag 0 Fd.FF_REACT.REC_TRIG) fun s =>
    s.applyRearm.each s.dieList fun s d => s.when (s.on d 0xF) fun s => s.reactTrig d (s.rd 0 Fd.FF_REACT.CAPTURE)
  if s.device.switching || s.arming.isSome || (s.movedBy.any DevState.switching && s.movedAt == some s.td0) then s.lockOutDevice
  else s.setPermit

/-- PACKAGE_RECORD (R449, R450): the records that have crossed the fault bus in eight ticks meet the package latch.
DEDUCED, log entry 62. -/
def opPackageRecord (s : State) : State :=
  let here := s.bus.filter fun e => decide (e.2.tick + 8 ≤ s.td0)
  let s := { s with bus := s.bus.filter fun e => !decide (e.2.tick + 8 ≤ s.td0) }
  let recs := (here.filter fun e => s.alive e.1).map (·.2)
  match firstRecord recs with
  | none => s
  | some r =>
    let live := s.dieList.filter fun d => s.alive d
    if s.flag 0 Fd.FF_SRC.VALID then s.each live fun s d => s.overflow d recs.length
    else
      let s := s.each live fun s d =>
        ((s.writeRecord d Fd.FF_SRC.W Fd.FF_T_LO.W Fd.FF_T_HI.W r).sticky d Sk.FLT.LATCHED).overflow d (recs.length - 1)
      s.react r

def execPackageRecord (s : State) : Res := s.always (s.isHead && s.alive 0) opPackageRecord

/-- A write of CLEAR (R456). In the tick in which the part entered LOCKOUT it empties the latches and the part stays there, since a tick
makes one transition (01 R34). DEDUCED, log entry 15. -/
def opClear (d : Nat) (s : State) : State :=
  if d != 0 || s.followsHead then s
  else if s.anySource || (s.die 0).flt.noClear then s.sticky 0 Sk.FLT.CLEAR_REFUSED
  else
    let s := s.each s.dieList fun s k =>
      let s := (s.emptyLocal k).emptyPackage k
      let s := s.onDie k fun x => { x with head := { x.head with alerts := [] } }
      (s.wrB k Fd.FLT_STATUS.OVERFLOW 0 false).wr k Fd.FF_COUNT.OVF_COUNT 0 0
    if s.device = .lockout && s.movedAt != some s.td0 then s.enter .standstill else s.setPermit

def execClear (d : Nat) (s : State) : Res := s.guarded (s.alive d) (opClear d)

/-- A write of FF_REACT: die 0's, in CONFIG only (R453). -/
def opFfReact (d : Nat) (value : Word) (s : State) : State :=
  if d != 0 then s
  else if s.device != .config then s.sticky 0 Sk.FLT.REACT_REJECTED
  else (s.wr 0 Fd.FF_REACT.CAPTURE 0 (bitsOf value.toNat 19 16)).wr 0 Fd.FF_REACT.REC_TRIG 0 (bitsOf value.toNat 2 2)

def execFfReactWrite (d : Nat) (value : Word) (s : State) : Res := s.guarded (s.alive d) (opFfReact d value)

end Sys2Proof.Machine
end

