-- ==== Sys2Proof/Machine/Clock.lean ====
section
/-! DEFINITION. Clock synthesis and the clock guard (13): references, holdover, PLL loss, shadows. -/

namespace Sys2Proof.Machine

/-- A die whose clock guard runs: it is there and out of its reset hold; the guard needs no TPLL (R342). -/
def State.guardClock (s : State) (d : Nat) : Bool := decide (d < s.part.dies) && !(s.die d).hold

def State.onClk (s : State) (d : Nat) (f : Clk → Clk) : State := s.onDie d fun x => { x with clk := f x.clk }

/-- The dies a reference event acts on: die 0's guard selects for the whole package (R344). -/
def State.refDies (s : State) (d : Nat) : List Nat := if d = 0 then s.dieList.filter fun k => !(s.die k).gated else [d]

def refOk (second : Bool) : Fld := if second then Fd.CLK_STATUS.REF1_OK else Fd.CLK_STATUS.REF0_OK

/-- Code of a reference: a node on the ring clock uses 2 and 3 (R365). -/
def State.refCode (s : State) (second : Bool) : Nat :=
  (if !s.isHead && !(s.die 0).clk.refsel then 2 else 0) + bnat second

def State.refSecond (s : State) (d : Nat) : Bool := s.rd d Fd.CLK_STATUS.REF % 2 == 1

/-- The preferred reference: REFCLK_P/N with REFSEL at 1; on a node with REFSEL at 0 the clock of ring A (R344).
DEDUCED, log entry 49. -/
def State.prefSecond (s : State) : Bool := (s.die 0).clk.refsel

/-- A node becomes untrusted (10 R276, 11 R320): every manifest discarded, every bridge blocked. -/
def State.untrust (s : State) : State :=
  if s.flag 0 Fd.RING_STATUS.TRUSTED then
    let s := ((s.wrB 0 Fd.RING_STATUS.TRUSTED 0 false).wr 0 Fd.NODE_TIME.AGREE 0 0).sticky 0 Sk.RING.UNTRUSTED
    s.dropManifests.blockAll.reportState
  else s.wr 0 Fd.NODE_TIME.AGREE 0 0

/-- The PLLs take a new or returning reference: the step is absorbed and lock has to be regained (R348). -/
def State.rephase (s : State) (d : Nat) (second : Bool) : State :=
  let s := s.wr d Fd.CLK_STATUS.REF 0 (s.refCode second)
  ((s.wrB d Fd.CLK_STATUS.TPLL_LOCK 0 false).wrB d Fd.CLK_STATUS.FPLL_LOCK 0 false).sticky d Sk.CLK.PHASE_STEP

/-- HOLD_US in ticks, limited to 10 to 100 µs (R347, R365). -/
def State.holdTicks (s : State) (d : Nat) : Nat := max 10 (min 100 (s.rd d Fd.REF_CFG.HOLD_US)) * 800

/-- The selected reference of die k is lost: fail over, or enter holdover (R346, R347). -/
def State.loseRef (s : State) (k : Nat) (second : Bool) : State :=
  if s.refSecond k != second || (s.die k).clk.holdT.isSome then s
  else if s.flag k (refOk (!second)) then
    ((s.rephase k (!second)).sticky k Sk.CLK.FAILOVER)
  else
    let w := some ((s.td0 : Int), s.holdTicks k)
    let s := s.onClk k fun c => { c with holdT := w, holdF := if c.fgated then c.holdF else w }
    let s := (s.wrB k Fd.CLK_STATUS.TPLL_HOLD 0 true).wrB k Fd.CLK_STATUS.FPLL_HOLD 0 (s.die k).clk.holdF.isSome
    s.sticky k Sk.CLK.REF_LOSS

/-- REFERENCE_LOST (R345): three guard cycles without an edge. -/
def execReferenceLost (d : Nat) (second : Bool) (cycles : Nat) (s : State) : Res :=
  s.always (s.guardClock d && decide (3 ≤ cycles)) fun s =>
    s.each (s.refDies d) fun s k => (s.wrB k (refOk second) 0 false).loseRef k second

/-- Holdover of a PLL is still inside its window (R347). -/
def inWindow (t : Nat) (w : Option (Int × Nat)) : Bool :=
  match w with
  | some (t0, n) => decide ((t : Int) < t0 + n)
  | none => false

/-- A present reference ends holdover inside its window; the node becomes untrusted (R347, R348). -/
def State.endHold (s : State) (k : Nat) (second : Bool) : State :=
  let c := (s.die k).clk
  let t := inWindow s.td0 c.holdT
  let f := inWindow s.td0 c.holdF
  let s := s.when t fun s => (s.onClk k fun c => { c with holdT := none }).wrB k Fd.CLK_STATUS.TPLL_HOLD 0 false
  let s := s.when f fun s => (s.onClk k fun c => { c with holdF := none }).wrB k Fd.CLK_STATUS.FPLL_HOLD 0 false
  let s := s.when (t || f) (·.rephase k second)
  s.when (t && !s.isHead) (·.untrust)

/-- REFERENCE_PRESENT (R345): 64 consecutive guard cycles that each hold an edge; of a recovered clock, with its clock recovery locked. -/
def execReferencePresent (d : Nat) (second : Bool) (cycles : Nat) (cdr : Bool) (s : State) : Res :=
  s.guarded (s.guardClock d && decide (64 ≤ cycles) && (cdr || decide (s.refCode second < 2))) fun s =>
    s.each (s.refDies d) fun s k => (s.wrB k (refOk second) 0 true).endHold k second

/-- A write of REF_RETURN (R346): back to the preferred reference, if it is present. DEDUCED, log entry 49. -/
def opRefReturn (d : Nat) (s : State) : State :=
  let p := s.prefSecond
  if d = 0 && s.flag 0 (refOk p) && s.refSecond 0 != p then s.each (s.refDies 0) fun s k => s.rephase k p else s

def execRefReturn (d : Nat) (s : State) : Res := s.guarded (s.alive d) (opRefReturn d)

/-! ### Bands and lock (R349, R350) -/

/-- The lowest valid entry of a band table whose window, less the margin, contains [lo, hi] MHz. -/
def State.bandFor (s : State) (d : Nat) (tab : Fld → Fld) (lo hi : Nat) : Option Nat :=
  let m := s.rd d Fd.REF_CFG.MARGIN
  (List.range 32).find? fun i =>
    s.flag d (tab Fd.TPLL_BAND.VALID) i &&
    decide (5000 + s.rd d (tab Fd.TPLL_BAND.FLO) i + m ≤ lo) && decide (hi + m < 5000 + s.rd d (tab Fd.TPLL_BAND.FHI) i)

def tpllTab (f : Fld) : Fld := f
def fpllTab (f : Fld) : Fld := { f with base := f.base + 0x80 }

/-- A PLL locks from reset: its band from the table, else by a search, which finds an open code; a search made while the table
holds a valid entry sets BAND_ERR (R350). -/
def State.lockBand (s : State) (d : Nat) (tab : Fld → Fld) (lo hi : Nat) (cap lock : Fld) : State :=
  let s := s.wrB d lock 0 true
  match s.bandFor d tab lo hi with
  | some i => s.wr d cap 0 (s.rd d (tab Fd.TPLL_BAND.CAP) i)
  | none =>
    let any := (List.range 32).any fun i => s.flag d (tab Fd.TPLL_BAND.VALID) i
    let r := s.freeN
    let s := r.2.wr d cap 0 (r.1 % 64)
    s.when any (·.sticky d Sk.CLK.BAND_ERR)

def State.lockTpll (s : State) (d : Nat) : State :=
  s.lockBand d tpllTab 6400 6400 Fd.BAND_USE.TPLL_CAP Fd.CLK_STATUS.TPLL_LOCK

def State.lockFpll (s : State) (d : Nat) : State :=
  s.lockBand d fpllTab 6272 6400 Fd.BAND_USE.FPLL_CAP Fd.CLK_STATUS.FPLL_LOCK

/-! ### Losses (R358-R362) -/

/-- What the guard finds of a PLL: loss of lock at the fourth consecutive phase-detector cycle, the latest last, whose error exceeds 625 ps;
a stop after three guard cycles without an edge of its output. Of both, the lower SOURCE code (R358, R363). -/
def lossOf (errs : List Int) (still : Nat) : Option LossCause :=
  if 4 ≤ errs.length ∧ (errs.drop (errs.length - 4)).all fun e => decide (625 < e.natAbs) then some .lockLost
  else if 3 ≤ still then some .stopped else none

def lossCode : LossCause → Nat
  | .lockLost => 1
  | .stopped => 2
  | .refAbsent => 3

/-- Outputs of a die forced safe without clocked logic (R359); BYPASS keeps its level. -/
def State.forceOutputs (s : State) (d : Nat) : State :=
  let p := s.pins
  let p := if d = 0 then { p with permit := false, ppsOut := false, soa := 0, gh := 0, gl := 0, slow := 0, tp := 0 } else p
  let p := if d = 1 then { p with sob := 0 } else p
  { s with pins := p }

/-- The TPLL of die d is lost (R35, R359-R361); `last` is the last tick TD0 counted there. DEDUCED, log entry 98. -/
def opGate (d : Nat) (cause : LossCause) (last : Nat) (s : State) : State :=
  let s := s.forceOutputs d
  let s := ((s.wr d Fd.LOSS_REC.W 0 (2 ^ 31 + lossCode cause)).wr d Fd.LOSS_T_LO.W 0 (loWord last)).wr d Fd.LOSS_T_HI.W 0 (hiWord last)
  let s := s.onDie d fun x => { x with
    gated := true
    clk := { x.clk with update := none }
    head := { x.head with tx := [] }
    node := { x.node with tx := [] } }
  let s := s.each s.dieList fun s k => s.onDie k fun x => { x with flt := { x.flt with noClear := true } }
  if !s.isHead then s
  else if d != 0 then s.raise 0 (d * 256 + 0x010)
  else
    let s := s.each (s.dieList.filter fun k => s.alive k) fun s k => (s.sticky k Sk.CLK.PEER_LOSS).wantBlock k 0x010 s.td0
    if s.device = .lockout then s else s.lockOutDevice

/-- CLK_GATED; a stopped TPLL made its last tick `ago` ticks before the declaration. DEDUCED, log entry 98. -/
def execClkGated (d : Nat) (errs : List Int) (still ago : Nat) (s : State) : Res :=
  s.always (s.alive d) fun s =>
    match lossOf errs still with
    | some .stopped => opGate d .stopped (s.td0 - ago) s
    | some c => opGate d c s.td0 s
    | none => s

/-- The FPLL of die d is lost (R362): links down, DRAM lost, FPLL_LOSS present. -/
def opFpllLoss (d : Nat) (s : State) : State :=
  let s := s.onClk d fun c => { c with holdF := none, fgated := true }
  let s := (s.wrB d Fd.CLK_STATUS.FPLL_LOCK 0 false).wrB d Fd.CLK_STATUS.FPLL_HOLD 0 false
  let s := (s.sticky d Sk.CLK.FPLL_LOSS).raise d 0x011
  if s.isHead then
    (({ s with fabric := s.fabric.filter fun x => x.die != d } : State).allLinksDown d).dramLost d
  else s

def execFpllLoss (d : Nat) (errs : List Int) (still : Nat) (s : State) : Res :=
  s.always (s.alive d && (lossOf errs still).isSome && !(s.die d).clk.fgated) (opFpllLoss d)

/-- HOLDOVER_END (R347): at the end of its window a PLL in holdover is lost. -/
def execHoldoverEnd (d : Nat) (pll : Pll) (s : State) : Res :=
  s.always (s.alive d) fun s =>
    let c := (s.die d).clk
    match pll with
    | .tpll => if c.holdT.isSome && !inWindow s.td0 c.holdT then opGate d .refAbsent s.td0 s else s
    | .fpll => if c.holdF.isSome && !inWindow s.td0 c.holdF then opFpllLoss d s else s

/-- PLL_RELOCK (R348, R362): a PLL regains lock on a reference that is present; an FPLL that was lost relocks from its table, taking the
reference anew, and DRAM is refreshed again. DEDUCED, log entries 74, 98. -/
def execPllRelock (d : Nat) (pll : Pll) (s : State) : Res :=
  s.guarded (s.alive d && (s.die d).clk.started && s.flag d (refOk (s.refSecond d))) fun s =>
    match pll with
    | .tpll => if (s.die d).clk.holdT.isSome then s else s.wrB d Fd.CLK_STATUS.TPLL_LOCK 0 true
    | .fpll =>
      if (s.die d).clk.holdF.isSome then s
      else if (s.die d).clk.fgated then
        ((((s.onClk d fun c => { c with fgated := false }).lockFpll d).sticky d Sk.CLK.PHASE_STEP).lower d 0x011).when s.isHead fun s =>
          s.wrB d Fd.REC_STATUS.DRAM_OK 0 true
      else s.wrB d Fd.CLK_STATUS.FPLL_LOCK 0 true

/-- DLL_LOSS (R357). -/
def execDllLoss (d : Nat) (s : State) : Res :=
  s.always (s.alive d) fun s => ((s.wrB d Fd.CLK_STATUS.DLL_LOCK 0 false).sticky d Sk.CLK.DLL_LOST).raise d 0x012

/-- DLL_RELOCK (R356, R357). -/
def execDllRelock (d : Nat) (s : State) : Res :=
  s.guarded (s.alive d && (s.die d).clk.started) fun s => (s.wrB d Fd.CLK_STATUS.DLL_LOCK 0 true).lower d 0x012

/-! ### Shadows (R352-R354) -/

/-- The reference's frequency in MHz (R342). -/
def State.refMHz (s : State) (d : Nat) : Nat := if s.rd d Fd.CLK_STATUS.REF < 2 then 25 else 125

def shadowWords : List Fld := [Fd.TPLL_SH.W, Fd.FPLL_SH.W, Fd.FPLL_OUT_SH.W, Fd.SPREAD_SH.W, Fd.DITHER_SEED_SH.W]

def State.shadows (s : State) (d : Nat) : List Word := shadowWords.map fun f => s.cell d (f.key 0)

/-- One of the settings in force. -/
def State.inForce (s : State) (d i : Nat) : Nat := ((s.die d).clk.applied.getD i 0).toNat

/-- An UPDATE is refused whole (R352). -/
def State.updateBad (s : State) (d : Nat) : Bool :=
  let vco := fun (f : Fld) (g : Fld) => s.refMHz d * s.rd d f == 6400 * (s.rd d g + 1)
  let dd := s.rd d Fd.FPLL_OUT_SH.DIV_DRAM
  let dr := s.rd d Fd.FPLL_OUT_SH.DIV_REG
  !vco Fd.TPLL_SH.N Fd.TPLL_SH.R_M1 || !vco Fd.FPLL_SH.N Fd.FPLL_SH.R_M1 ||
  !(dd == 12 || dd == 16) || (dd != bitsOf (s.inForce d 2) 7 0 && s.blockEn d 0xF) ||
  !(dr == 32 || dr == 64) || decide (20 < s.rd d Fd.SPREAD_SH.DEPTH)

def seedOf (w : Nat) : Word := if w = 0 then 1 else BitVec.ofNat 32 w

/-- Triangles are timed in 1/163,680 tick, in which 1 ÷ (30 + FMOD) kHz is a whole number for every FMOD (R354). -/
def triangleUnit : Int := 163680
def trianglePeriod (spread : Nat) : Nat := 800000 * 163680 / (30 + bitsOf spread 9 8)

/-- A write of UPDATE (R352): the shadows are taken for the next phase-detector edge, or it is refused whole.
DEDUCED, log entry 48. -/
def opUpdate (d : Nat) (s : State) : State :=
  if s.updateBad d then s.sticky d Sk.CLK.DIV_REJECT
  else (s.onClk d fun c => { c with update := some (s.shadows d) }).wrB d Fd.CLK_STATUS.UPD_PEND 0 true

/-- A phase-detector edge at which an UPDATE is due: its settings take effect together (R352-R354). DEDUCED, log entry 48. -/
def State.applyUpdate (s : State) (d : Nat) : State :=
  match (s.die d).clk.update with
  | none => s
  | some new =>
    let sp := (new.getD 3 0).toNat
    let seed := (new.getD 4 0).toNat
    (s.onClk d fun c => { c with
      update := none
      applied := new
      lfsr := if seed = s.inForce d 4 then c.lfsr else seedOf seed
      spread := if bitOf sp 31 && c.spread.isNone then some (s.td0 * triangleUnit, sp) else c.spread }).wrB d Fd.CLK_STATUS.UPD_PEND 0 false

def execUpdate (d : Nat) (s : State) : Res := s.guarded (s.alive d) (opUpdate d)

/-- SPREADING (R354, R365). -/
def State.spreading (s : State) (d : Nat) : Bool := (s.die d).clk.spread.isSome

/-- At the end of a triangle the next one starts with the DEPTH and FMOD then in force, or spread ends with EN cleared (R354). -/
def State.nextTriangle (s : State) (d : Nat) : State :=
  match (s.die d).clk.spread with
  | none => s
  | some (t, w) =>
    let next := t + trianglePeriod w
    if s.td0 * triangleUnit < next then s
    else s.onClk d fun c => { c with spread := if bitOf (s.inForce d 3) 31 then some (next, s.inForce d 3) else none }

/-- The FPLL's VCO frequency in Hz, rounded down: nominal, and with spread on the triangle from nominal to nominal × (1 − DEPTH × 0.001)
and back (R354). -/
def State.fpllHz (s : State) (d : Nat) : Nat :=
  match (s.die d).clk.spread with
  | none => 6400000000
  | some (t, w) =>
    let p : Int := trianglePeriod w
    let x := s.td0 * triangleUnit - t
    (6400000000 - (12800000 * bitsOf w 4 0 * min x (p - x) + p - 1) / p).toNat

/-- What the dither adds to the FPLL modulator's input, in units of 2^-24 (R353). DESIGN CHOICE, log entry 48. -/
def State.dither (s : State) (d : Nat) : Int :=
  if bitOf (s.inForce d 1) 31 then (if bitOf (s.die d).clk.lfsr.toNat 0 then 1 else -1) else 0

/-- One step of the dither register: Galois form of x^32 + x^22 + x^2 + x + 1 (R353). -/
def lfsrStep (w : Word) : Word := if bitOf w.toNat 0 then (w >>> 1) ^^^ 0x80200003#32 else w >>> 1

/-- The phase detector's 25 MHz edge, every 32 ticks: the dither register steps, and a pending UPDATE is applied (R352, R353). -/
def State.detect (s : State) (d : Nat) : State :=
  (s.nextTriangle d).when (s.td0 % 32 == 0) fun s => (s.onClk d fun c => { c with lfsr := lfsrStep c.lfsr }).applyUpdate d

/-- The level of CLK_OUT in the present tick: die 0's square wave at 25, 50 or 100 MHz, rising with TD0; low otherwise (R359, R365). -/
def State.clkOut (s : State) : Bool :=
  let period := match s.rd 0 Fd.CLK_CTRL.CLK_OUT_SEL with
    | 1 => 32
    | 2 => 16
    | 3 => 8
    | _ => 0
  s.alive 0 && decide (0 < period) && decide (s.td0 % period < period / 2)

/-! ### The guard's measurements -/

/-- GUARD_FAIL (R358): the guard's frequency over 1 ms, outside [12, 28] MHz. -/
def execGuardFail (d : Nat) (khz : Nat) (s : State) : Res :=
  s.guarded (s.alive d) fun s =>
    let s := s.wr d Fd.GUARD_FREQ.KHZ 0 (satU 16 khz)
    if 12000 ≤ khz && khz ≤ 28000 then (s.wrB d Fd.CLK_STATUS.GUARD_OK 0 true).lower d 0x013
    else ((s.wrB d Fd.CLK_STATUS.GUARD_OK 0 false).sticky d Sk.CLK.GUARD_FAIL).raise d 0x013

/-- VT_EDGE (R351): the tuning codes, and for how many ticks each has been as it is; one below 16 or above 239 for 1 ms sets the bit. -/
def execVtEdge (d : Nat) (tvt fvt : Byte) (tFor fFor : Nat) (s : State) : Res :=
  s.guarded (s.alive d) fun s =>
    let s := (s.wr d Fd.VTUNE.TPLL_VT 0 tvt.toNat).wr d Fd.VTUNE.FPLL_VT 0 fvt.toNat
    let out := fun (v : Byte) (n : Nat) => (decide (v.toNat < 16) || decide (239 < v.toNat)) && decide (800000 ≤ n)
    s.when (out tvt tFor || out fvt fFor) (·.sticky d Sk.CLK.VT_EDGE)

end Sys2Proof.Machine
end

