-- ==== Sys2Proof/Machine/RingBlocks.lean ====
section
/-! DEFINITION. Ring blocks as bytes, the links and routes of a ring, what the head and a node put on it, admission to class A
slots (09 R237-R262), and the exchange of class B and C blocks (R258-R260). -/

namespace Sys2Proof.Machine

/-! ### Blocks (09 R241-R243) -/

/-- The eight header bytes (R242). -/
def headerBytes (b : RingBlock) : List Byte :=
  [BitVec.ofNat 8 (bnat b.sa * 128 + bnat b.hm * 64 + b.cls.toNat * 16 + b.kind.toNat), b.src, b.dst, b.seq] ++
    beBytes 2 b.alert.toNat ++ beBytes 2 b.ack.toNat

/-- The CRC a block should carry. -/
def blockCrc (b : RingBlock) : Word := crc32c (headerBytes b ++ b.payload)

/-- A block with its CRC and the normal delimiter. -/
def sealBlock (b : RingBlock) : RingBlock := { b with crc := blockCrc b, delim := .normal }

/-- A block is good when its delimiters are normal and its CRC matches (R243). DESIGN CHOICE, log entry 44. -/
def goodBlock (b : RingBlock) : Bool := b.delim == .normal && b.payload.length == 64 && b.crc == blockCrc b

/-- A payload of 64 bytes, its unnamed bytes 0 (10 R266). -/
def pad64 (l : List Byte) : List Byte := (l ++ List.replicate 64 0).take 64

/-- A number in payload bytes [i, i + n). -/
def field8 (b : RingBlock) (i n : Nat) : Nat := beNat (slice b.payload i n)

/-- An ACK field (R242). -/
def ackWord (nak toWs clsC : Bool) (n seq : Nat) : BitVec 16 :=
  BitVec.ofNat 16 ((if nak then 2 else 1) * 2 ^ 14 + bnat toWs * 2 ^ 13 + bnat clsC * 2 ^ 12 + (n - 1) % 32 * 2 ^ 7 + seq % 128)

/-! ### Links and routes (R238, R239, R262) -/

def State.onHead (s : State) (d : Nat) (f : RingHead → RingHead) : State := s.onDie d fun x => { x with head := f x.head }
def State.onNode (s : State) (f : RingNode → RingNode) : State := s.onDie 0 fun x => { x with node := f x.node }
def State.head (s : State) (d : Nat) : RingHead := (s.die d).head
def State.node (s : State) : RingNode := (s.die 0).node

/-- The ring mode in force: OFF while the block is disabled (10 R293, R296). -/
def State.ringMode (s : State) (d : Nat) : Nat := if s.on d 7 then s.rd d Fd.RING_CTRL.MODE else 0

def State.nodes (s : State) (d : Nat) : Nat := s.rd d Fd.RING_STATUS.NODES

def linkFld2 (r : Ring) (k : Nat) : Fld :=
  if k = 33 then (match r with | .a => ⟨0x7, 0x30, 1, 0, 0⟩ | .b => ⟨0x7, 0x30, 1, 1, 1⟩)
  else (match r with | .a => ⟨0x7, 0x28, 1, k - 1, k - 1⟩ | .b => ⟨0x7, 0x2C, 1, k - 1, k - 1⟩)

/-- Does the head take link k of a ring as up? -/
def State.linkUp (s : State) (d : Nat) (r : Ring) (k : Nat) : Bool := s.flag d (linkFld2 r k)

/-- Is every link of a ring up? -/
def State.ringWhole (s : State) (d : Nat) (r : Ring) : Bool := (List.range 33).all fun i => s.linkUp d r (i + 1)

/-- Links of the route of a ring to waystation n of m (R237, R238). -/
def routeLinks (r : Ring) (n m : Nat) : List Nat :=
  match r with
  | .a => (List.range n).map (· + 1)
  | .b => (List.range (m + 1 - n)).map (n + ·)

def State.routeOk (s : State) (d : Nat) (r : Ring) (n : Nat) : Bool := (routeLinks r n (s.nodes d)).all (s.linkUp d r)

/-- Route delay of a waystation in fine units, as it reported it (R239, 10 R289). -/
def State.routeDelay (s : State) (d : Nat) (r : Ring) (n : Nat) : Nat :=
  (s.ctx d n (match r with | .a => 4 | .b => 5)).toNat

/-- The shorter usable route, ring A on a tie (R239). -/
def State.shorter (s : State) (d n : Nat) : Option (Ring × Nat) :=
  match s.routeOk d .a n, s.routeOk d .b n with
  | true, true => if s.routeDelay d .a n ≤ s.routeDelay d .b n then some (.a, s.routeDelay d .a n) else some (.b, s.routeDelay d .b n)
  | true, false => some (.a, s.routeDelay d .a n)
  | false, true => some (.b, s.routeDelay d .b n)
  | false, false => none

/-- An enumerated waystation that a usable route reaches. -/
def State.reachable (s : State) (d n : Nat) : Bool := decide (1 ≤ n) && decide (n ≤ s.nodes d) && (s.shorter d n).isSome

/-- UNREACHABLE follows the routes (R262). -/
def State.judgeRoutes (s : State) (d : Nat) : State :=
  let bad := (List.range (s.nodes d)).any fun i => (s.shorter d (i + 1)).isNone
  let was := (s.die d).flt.present.contains 0x71
  (s.when (bad && !was) (·.sticky d Sk.RING.UNREACHABLE)).source d 0x71 bad

/-- The head changes its view of a link; each change sets RING_BREAK (R262). -/
def State.setLink (s : State) (d : Nat) (r : Ring) (k : Nat) (up : Bool) : State :=
  if s.linkUp d r k = up then s else ((s.wrB d (linkFld2 r k) 0 up).sticky d Sk.RING.RING_BREAK).judgeRoutes d

/-! ### What a transmitter carries -/

/-- A block takes its ring's place among those a transmitter sends. -/
def putTx (l : List TxBlock) (t : TxBlock) : List TxBlock := t :: l.filter fun o => o.ring != t.ring

def otherRing : Ring → Ring
  | .a => .b
  | .b => .a

/-- An IDLE block (R241, R242). -/
def idleBlock (sa hm : Bool) : RingBlock := ⟨sa, hm, 3, 0, 0, 0xFF, 0, 0, 0, pad64 [], 0, .normal⟩

/-- Does a class A slot start in this tick (R245)? -/
def slotA (t : Nat) : Bool := t % 512 == 0

/-- The ring the head writes an answer on: opposite to the one the block arrived on, while its route is usable (R259). -/
def State.headAckRing (s : State) (d : Nat) (a : Ring × BitVec 16) : Ring :=
  if s.routeOk d (otherRing a.1) (bitsOf a.2.toNat 11 7 + 1) then otherRing a.1 else a.1

/-- What the head sends on a ring in the slot that starts in this tick. -/
def State.headSends (s : State) (d : Nat) (r : Ring) : Option RingBlock :=
  ((s.head d).tx.find? fun t => t.ring == r && t.tick == s.td0).map (·.blk)

/-- A slot with nothing to carry carries an IDLE block (R241, R246); the first answer that waits for the ring rides in it (R259). -/
def State.headIdle (s : State) (d : Nat) (r : Ring) : State :=
  if (s.headSends d r).isSome then s else
    let a := (s.head d).acks.find? fun a => s.headAckRing d a == r
    s.onHead d fun h => { h with
      acks := match a with
        | some a => h.acks.erase a
        | none => h.acks
      tx := putTx h.tx ⟨r, sealBlock { idleBlock (slotA s.td0) true with ack := (a.map (·.2)).getD 0 }, s.td0⟩ }

/-- The head transmits a block on a ring in the slot that starts now, with the answer that rides in the slot. -/
def State.headTx (s : State) (d : Nat) (r : Ring) (b : RingBlock) : State :=
  let s := s.headIdle d r
  let ack := ((s.headSends d r).map (·.ack)).getD 0
  s.onHead d fun h => { h with tx := putTx h.tx ⟨r, sealBlock { b with ack := ack }, s.td0⟩ }

/-- Has the head put a block of its own into the slot that starts in this tick? -/
def State.slotTaken (s : State) (d : Nat) (r : Ring) : Bool :=
  match s.headSends d r with
  | some b => b.cls != 3
  | none => false

/-- A class A block of the head, sent on both rings with the next SEQ (R255). -/
def State.sendA (s : State) (d kind : Nat) (payload : List Byte) : State :=
  let q := (s.head d).seq
  let b : RingBlock := ⟨true, true, 0, BitVec.ofNat 4 kind, 0, 0xFE, q, 0, 0, pad64 payload, 0, .normal⟩
  ((s.headTx d .a b).headTx d .b b).onHead d fun h => { h with seq := q + 1 }

def State.nodeTx (s : State) (ring : Ring) (b : RingBlock) : State :=
  s.onNode fun n => { n with tx := putTx n.tx ⟨ring, b, s.td0⟩ }

/-- What a node sends on a ring in the present slot. -/
def State.passing (s : State) (ring : Ring) : Option TxBlock :=
  s.node.tx.find? fun t => t.ring == ring && decide (s.td0 < t.tick + 128)

def State.nodeSends (s : State) (ring : Ring) : Option RingBlock := (s.passing ring).map (·.blk)

/-- A node changes the block it passes on a ring in the present slot. -/
def State.nodeReplace (s : State) (ring : Ring) (b : RingBlock) : State :=
  s.onNode fun n => { n with tx := n.tx.map fun t => if t.ring == ring then { t with blk := b } else t }

/-! ### Class A slots and admission (R245, R250-R254) -/

/-- The class A slots that BLOCK, SYNC and DELAY take among n slots from one on, by their ranks (R254): `blk` is the copies of a BLOCK
still to send and the tick from which the next may go, `sy` and `de` the multiples for which a SYNC and a DELAY have gone.
DEDUCED, log entry 39. -/
def fixedSlots : (n : Nat) → (start : Nat) → (blk : Nat × Nat) → (sy de : Nat) → List Nat
  | 0, _, _, _, _ => []
  | n + 1, t, blk, sy, de =>
    let ready := decide (0 < blk.1) && decide (blk.2 ≤ t)
    if (ready && blk.1 == 4) || (ready && decide (t / 8000 < sy)) then t :: fixedSlots n (t + 512) (blk.1 - 1, t + 16) sy de
    else if sy ≤ t / 8000 then t :: fixedSlots n (t + 512) blk (t / 8000 + 1) de
    else if de ≤ t / 800000 then t :: fixedSlots n (t + 512) blk sy (t / 800000 + 1)
    else fixedSlots n (t + 512) blk sy de

/-- The first class A slot of a tick or later. DEDUCED, log entry 39. -/
def slotFrom (t : Nat) : Nat := (t + 511) / 512 * 512

/-- A class A slot starts in this tick and a block of the head fills it. -/
def State.slotUsed (s : State) (d : Nat) : Bool := s.slotTaken d .a || s.slotTaken d .b

/-- The first class A slot of a tick or later that is not held is held as well. -/
def holdNext (held : List Nat) (start : Nat) : List Nat :=
  match ((List.range (held.length + 1)).map fun i => slotFrom start + 512 * i).find? fun t => !held.contains t with
  | some t => t :: held
  | none => held

/-- The class A slots of a ring that blocks hold, n slots ahead: assigned ones, those of BLOCK, SYNC and DELAY, and for each waiting
STATE and then for each waiting ENUM the first free one from its tick on (R250, R254). -/
def State.heldSlots (s : State) (d n : Nat) : List Nat :=
  let h := s.head d
  let blk := match h.blockOut with
    | some b => (b.left, b.fromTick)
    | none => (0, 0)
  let first := slotFrom (if s.slotUsed d then s.td0 + 1 else s.td0)
  let held := h.slots.map (·.start) ++ fixedSlots n first blk h.lastSync h.lastDelay
  ((h.stateOut.map fun (e : Nat × Nat) => e.2 + 16) ++ h.enumWait).foldl (fun held t => holdNext held (max s.td0 t)) held

/-- The next class A slots of a ring from tick t + 16 that nothing else holds, n of them (R250). -/
def State.freeSlots (s : State) (d n : Nat) : List Nat :=
  let k := 2 * (n + (s.head d).slots.length + (s.head d).stateOut.length + (s.head d).enumWait.length) + 16
  let held := s.heldSlots d k
  (((List.range k).map fun i => slotFrom (s.td0 + 16) + 512 * i).filter fun t => !held.contains t).take n

/-- The bound of a waystation (R251), in ticks. -/
def State.bound (s : State) (d n : Nat) : Nat := if s.routeOk d .a n && s.routeOk d .b n then 3600 else 6000

/-- A part for waystation n that starts in a slot meets its bound (R251). -/
def State.meets (s : State) (d start n : Nat) : Bool :=
  match s.shorter d n with
  | some (_, r) => decide ((start + 160 - s.td0) * 8 + r ≤ s.bound d n * 8)
  | none => true

/-- A valid ring reservation of a port and source (R250, 10 R295). -/
def State.ringRes (s : State) (d port source : Nat) : Option Nat :=
  (List.range 16).find? fun i => s.flag d Fd.RRES.VALID i && s.rd d Fd.RRES.PORT i == port && s.rd d Fd.RRES.SOURCE i == source

/-- A refused ring submission (01 R28). -/
def State.refuseRing (s : State) (d : Nat) : State :=
  (s.sticky d Sk.RING.CLASS_A_REFUSED).bump d Fd.RING_COUNTS.REFUSED 0 1

/-- A class A submission of blocks, each with the waystations it carries parts for: whether it is admitted, and the start of its
last slot (R250, R251, 10 R293). -/
def State.submitRing (s : State) (d port source kind : Nat) (cid : Byte) (blocks : List (List Byte × List Nat)) : Option Nat × State :=
  let at_ := s.freeSlots d blocks.length
  let fits := match s.ringRes d port source with
    | some i => decide (blocks.length ≤ s.rd d Fd.RRES.BLOCKS i) && ((at_.zip blocks).all fun e => e.2.2.all (s.meets d e.1))
    | none => false
  if s.ringMode d = 3 && fits then
    (some (at_.getLast?.getD 0), s.onHead d fun h => { h with slots := h.slots ++ (at_.zip blocks).map fun e => ⟨e.1, kind, cid, pad64 e.2.1⟩ })
  else (none, s.refuseRing d)

/-- Waystations by descending shorter route delay, ties to the lower number (R250). -/
def State.farthestFirst (s : State) (d : Nat) (ws : List Nat) : List Nat :=
  let key := fun n => match s.shorter d n with | some (_, r) => r | none => 0
  sortBy (fun a b => decide (key b < key a) || (key a == key b && decide (a ≤ b))) ws

/-! ### Classes B and C at the head (R258-R260) -/

def seqOf (l : List (Nat × Nat × Nat)) (n cls : Nat) : Nat := ((l.find? fun e => e.1 == n && e.2.1 == cls).map (·.2.2)).getD 0
def putSeq (l : List (Nat × Nat × Nat)) (n cls q : Nat) : List (Nat × Nat × Nat) :=
  (n, cls, q % 128) :: l.filter fun e => !(e.1 == n && e.2.1 == cls)

/-- A block is queued toward waystation n; outside RUN it is discarded (10 R293). -/
def State.queueBc (s : State) (d n cls kind : Nat) (payload : List Byte) : State :=
  s.when (s.ringMode d == 3) fun s => s.onHead d fun h => { h with bcQ := h.bcQ ++ [⟨n, cls, kind, pad64 payload, none, 0⟩] }

/-- The first block toward waystation n in a class: the one outstanding, or the next to send (R259). -/
def State.frontBc (s : State) (d n cls : Nat) : Option BcBlock :=
  (s.head d).bcQ.find? fun b => b.n == n && b.cls == cls

/-- The first block of a predicate in a list takes a change. -/
def onFirst {α : Type} (p : α → Bool) (f : α → α) : List α → List α
  | [] => []
  | a :: t => if p a then f a :: t else a :: onFirst p f t

def State.onFront (s : State) (d n cls : Nat) (f : BcBlock → BcBlock) : State :=
  s.onHead d fun h => { h with bcQ := onFirst (fun b => b.n == n && b.cls == cls) f h.bcQ }

/-- The outstanding block leaves the exchange: acknowledged or dropped, the next one carries the next SEQ. -/
def State.closeBc (s : State) (d : Nat) (b : BcBlock) : State :=
  s.onHead d fun h => { h with bcQ := h.bcQ.erase b, txSeq := putSeq h.txSeq b.n b.cls (seqOf h.txSeq b.n b.cls + 1) }

/-- A block that was sent at least once. -/
def BcBlock.begun (b : BcBlock) : Bool := b.sent.isSome || b.resends != 0

/-- Every class B and C block of the head is discarded; one that was outstanding has used its SEQ, like a dropped one (R260, 10 R293, R296). -/
def State.discardBc (s : State) (d : Nat) : State :=
  (s.each ((s.head d).bcQ.filter BcBlock.begun) fun s b => s.closeBc d b).onHead d fun h => { h with bcQ := [] }

/-- What a receiver answers to a block addressed to it, and whether it takes it in (R259, R260): after drops the sender's SEQ lies ahead of
the expected one, by as many as it dropped. `exp` is the expected SEQ. DEDUCED, log entry 88. -/
def receive (good : Bool) (seq exp : Nat) : Bool × Bool :=
  if good && decide ((seq % 128 + 128 - exp % 128) % 128 < 64) then (true, false)
  else if good && seq % 128 == (exp + 127) % 128 then (false, false)
  else (false, true)

/-- A class B or C block of an enumerated waystation arrives at the head (R259). -/
def State.headReceive (s : State) (d : Nat) (ring : Ring) (b : RingBlock) : Bool × State :=
  let n := b.src.toNat
  let cls := b.cls.toNat
  let exp := seqOf (s.head d).rxSeq n cls
  let r := receive (goodBlock b) b.seq.toNat exp
  let a := ackWord r.2 true (cls == 2) n (if r.2 then exp else b.seq.toNat)
  (r.1, s.onHead d fun h => { h with acks := h.acks ++ [(ring, a)], rxSeq := if r.1 then putSeq h.rxSeq n cls (b.seq.toNat + 1) else h.rxSeq })

/-- Does a block name this head as its receiver, in a class and kind, from an enumerated waystation? Outside RUN it is discarded (10 R293). -/
def State.toHead (s : State) (d : Nat) (b : RingBlock) (cls kind : Nat) : Bool :=
  s.isHead && s.ringMode d == 3 && b.dst == 0 && b.cls.toNat == cls && b.kind.toNat == kind &&
    decide (1 ≤ b.src.toNat) && decide (b.src.toNat ≤ s.nodes d)

/-! ### Classes B and C at a node -/

/-- A node's own number; 0 before it is numbered (10 R268, R270). -/
def State.number (s : State) : Nat := s.rd 0 Fd.RING_STATUS.NODES

/-- Links of a node's route back on a ring (R258). -/
def backLinks (r : Ring) (n m : Nat) : List Nat :=
  match r with
  | .a => (List.range (m - n)).map (n + 1 + ·) ++ [33]
  | .b => (List.range (n - 1)).map (· + 1) ++ [33]

/-- Does the latest SYNC show link k of a ring as up (10 R273)? -/
def State.syncLink (s : State) (r : Ring) (k : Nat) : Bool :=
  bitOf (match r with | .a => s.node.linksA | .b => s.node.linksB).toNat (k - 1)

/-- Is a node's route back on a ring usable (R258)? -/
def State.backOk (s : State) (r : Ring) : Bool :=
  s.node.syncAt.isNone || (backLinks r s.number s.node.size).all (s.syncLink r)

/-- Is a node's route from the head on a ring usable (R255)? -/
def State.toOk (s : State) (r : Ring) : Bool :=
  s.node.syncAt.isNone || (routeLinks r s.number s.node.size).all (s.syncLink r)

/-- The ring a node sends to the head on (R258). -/
def State.backRing (s : State) : Ring :=
  let first : Ring := if s.number ≤ 16 then .b else .a
  if s.backOk first then first else otherRing first

/-- The ring an answer to a block that arrived on ring r is written on (R259). -/
def State.ackRing (s : State) (r : Ring) : Ring := if s.backOk (otherRing r) then otherRing r else r

def nodeSeq (l : List (Nat × Nat)) (cls : Nat) : Nat := ((l.find? fun e => e.1 == cls).map (·.2)).getD 0
def putNodeSeq (l : List (Nat × Nat)) (cls q : Nat) : List (Nat × Nat) := (cls, q % 128) :: l.filter fun e => e.1 != cls

/-- Does a block name this node as its receiver, in a class and kind? -/
def State.toNode (s : State) (b : RingBlock) (cls kind : Nat) : Bool :=
  !s.isHead && s.on 0 7 && s.number != 0 && b.dst.toNat == s.number && b.src == 0 && b.cls.toNat == cls && b.kind.toNat == kind

/-- A class B or C block of the head arrives at the node it names (R259). -/
def State.nodeReceive (s : State) (ring : Ring) (b : RingBlock) : Bool × State :=
  let cls := b.cls.toNat
  let exp := nodeSeq s.node.rxSeq cls
  let r := receive (goodBlock b) b.seq.toNat exp
  let a := ackWord r.2 false (cls == 2) s.number (if r.2 then exp else b.seq.toNat)
  (r.1, s.onNode fun n => { n with
    acks := n.acks ++ [(ring, a)]
    rxSeq := if r.1 then putNodeSeq n.rxSeq cls (b.seq.toNat + 1) else n.rxSeq })

/-- A node queues a class B or C block toward the head. -/
def State.nodeQueue (s : State) (cls kind : Nat) (payload : List Byte) : State :=
  s.onNode fun n => { n with bcQ := n.bcQ ++ [⟨0, cls, kind, pad64 payload, none, 0⟩] }

/-- A node may send class B and C blocks (10 R291). -/
def State.nodeMaySend (s : State) : Bool :=
  !s.isHead && s.on 0 7 && s.number != 0 && s.node.rmode == 3 && (match s.node.syncAt with
    | some t => decide (s.td0 < t + 16000)
    | none => false)

/-- A node has blocks left in the present round (R249). -/
def State.quotaLeft (s : State) : Bool :=
  decide ((if s.node.round = s.td0 / 2048 then s.node.inserted else 0) < (s.nodeField 6).toNat % 16)

/-- The idle slot a node's block can take on its ring back: a good IDLE block passes now, or the node's own BREAK (R247, R248, R261). -/
def State.idleSlot (s : State) : Option TxBlock :=
  match s.passing s.backRing with
  | some t => if t.blk.cls == 3 && t.blk.delim == .normal &&
      (t.blk.kind == 0 || (t.blk.kind == 1 && !(match s.backRing with | .a => s.node.rxUp.1 | .b => s.node.rxUp.2))) then some t else none
  | none => none

/-- The number in its round of the slot that passes a node on a ring, by its route delay (R245). DEDUCED, log entry 89. -/
def State.slotOf (s : State) (r : Ring) (t : TxBlock) : Nat :=
  let route := (match r with | .a => s.node.ra | .b => s.node.rb).getD 0
  ((((t.tick : Int) * 8 + s.fine - route + 512) / 1024) % 16).toNat

/-- The classes a slot admits, in order (R245). -/
def classOrder (slot : Nat) : List Nat := if slot = 15 then [2, 1] else [1, 2]

/-- The first block of a class at a node. -/
def State.nodeFront (s : State) (cls : Nat) : Option BcBlock := s.node.bcQ.find? fun b => b.cls == cls

/-- A node has a block of a class to insert: one queued or to be sent again, changed up fields, a CAPTURE block. -/
def State.nodeWaits (s : State) (cls : Nat) : Bool :=
  match s.nodeFront cls with
  | some b => b.sent.isNone
  | none => if cls = 1 then !s.node.upQ.isEmpty else !(s.die 0).recorder.queue.isEmpty

/-- The idle slot that a block of a class of the node may take now: the first class in the slot's order that waits has it
(R245, R246, 01 R22, R23). -/
def State.nodeTurn (s : State) (cls : Nat) : Option TxBlock :=
  match s.idleSlot with
  | some t =>
    let order := if t.blk.sa then [1, 2] else classOrder (s.slotOf s.backRing t)
    if s.nodeMaySend && s.quotaLeft && order.find? s.nodeWaits == some cls then some t else none
  | none => none

/-- A node inserts its first block of a class into an idle slot and starts its answer timer (R248, R260). -/
def State.nodeInsert (s : State) (cls : Nat) : State :=
  match s.nodeFront cls, s.nodeTurn cls with
  | some b, some t =>
    if b.sent.isSome then s else
      let blk : RingBlock := { t.blk with
        cls := BitVec.ofNat 2 cls, kind := BitVec.ofNat 4 b.kind, src := BitVec.ofNat 8 s.number, dst := 0
        seq := BitVec.ofNat 8 (nodeSeq s.node.txSeq cls), payload := b.payload }
      (s.nodeReplace s.backRing (sealBlock blk)).onNode fun n => { n with
        bcQ := onFirst (fun o => o.cls == cls) (fun o => { o with sent := some (t.tick + 128) }) n.bcQ
        round := s.td0 / 2048
        inserted := (if n.round = s.td0 / 2048 then n.inserted else 0) + 1 }
  | _, _ => s

end Sys2Proof.Machine
end

