-- ==== Sys2Proof/Machine/RingLink.lean ====
section
/-! DEFINITION. Links going up and down, breaks, silence, and what a waystation does to the blocks it passes (09 R244-R264). A row
that names a received block presupposes the link it came over. -/

namespace Sys2Proof.Machine

/-! ### Receivers (R244, R261, R262) -/

def setPair (r : Ring) (v : Bool) (p : Bool × Bool) : Bool × Bool :=
  match r with
  | .a => (v, p.2)
  | .b => (p.1, v)

def ofPair {α : Type} (r : Ring) (p : α × α) : α :=
  match r with
  | .a => p.1
  | .b => p.2

/-- A BREAK block of a waystation (R261). -/
def State.breakBlock (s : State) : RingBlock :=
  sealBlock ⟨slotA s.td0, false, 3, 1, if s.number = 0 then 0xFF else BitVec.ofNat 8 s.number, 0, 0, 0, 0, pad64 [], 0, .normal⟩

/-- The first report still due on a ring goes into a free ALERT field of a block with SA at 1 (R256, R257). -/
def State.insertAlert (s : State) (r : Ring) (b : RingBlock) : RingBlock × State :=
  let due := fun (p : Report) => decide (0 < (match r with | .a => p.leftA | .b => p.leftB))
  match s.node.reports.find? due with
  | none => (b, s)
  | some p =>
    if !b.sa || bitOf b.alert.toNat 15 || s.number == 0 then (b, s)
    else
      let spend := fun (p : Report) => match r with | .a => { p with leftA := p.leftA - 1 } | .b => { p with leftB := p.leftB - 1 }
      ({ b with alert := BitVec.ofNat 16 (2 ^ 15 + (s.number - 1) * 256 + p.src.toNat) }
      , s.onNode fun n => { n with
          reports := (onFirst due spend n.reports).filter fun p => p.leftA != 0 || p.leftB != 0 })

/-- An answer due on a ring goes into a free ACK field (R259). -/
def State.insertAck (s : State) (r : Ring) (b : RingBlock) : RingBlock × State :=
  match s.node.acks.find? (fun a => s.ackRing a.1 == r) with
  | none => (b, s)
  | some a =>
    if b.ack.toNat / 2 ^ 14 != 0 then (b, s)
    else ({ b with ack := a.2 }, s.onNode fun n => { n with acks := n.acks.erase a })

/-- A waystation whose receiver of a ring is down starts a BREAK block on that ring in every slot (R261). DEDUCED, log entry 38. -/
def State.sendBreak (s : State) (r : Ring) : State :=
  if s.isHead || !s.on 0 7 || ofPair r s.node.rxUp || s.td0 % 128 != 0 || (s.node.tx.any fun t => t.ring == r && t.tick == s.td0) then s
  else
    let a := s.insertAlert r s.breakBlock
    let k := a.2.insertAck r a.1
    k.2.nodeTx r (sealBlock k.1)

/-- The start of a slot on every ring of the part: IDLE blocks at the heads, BREAK blocks at a waystation (R241, R246, R261). -/
def State.openSlots (s : State) : State :=
  if s.td0 % 128 != 0 then s else
    if s.isHead then s.each (s.dieList.filter fun d => s.ringMode d != 0) fun s d => (s.headIdle d .a).headIdle d .b
    else (s.sendBreak .a).sendBreak .b

/-- A block that counts as good for its link, and one that counts as bad (R244). -/
def counted : Sight → Bool
  | .good => true
  | .stomped ok => ok
  | _ => false

def symbolLock : Sight → Bool
  | .noLock | .noSignal => false
  | _ => true

/-- The latest slots, newest first, bring a link up: 64 consecutive good blocks under symbol lock (R244). -/
def comesUp (seen : List Sight) : Bool := decide (64 ≤ seen.length) && (seen.take 64).all counted

/-- They take it down: loss of signal or of symbol lock, or 8 consecutive bad blocks (R244). -/
def goesDown (seen : List Sight) : Bool :=
  (match seen with
    | x :: _ => !symbolLock x
    | [] => false) || (decide (8 ≤ seen.length) && (seen.take 8).all fun x => !counted x)

/-- RING_LINK_UP: a head's own receiver is up from now; a waystation stops sending BREAK on that ring. DEDUCED, log entry 38. -/
def opRingLinkUp (d : Nat) (r : Ring) (s : State) : State :=
  if s.isHead then s.onHead d fun h => { h with
    rxUp := setPair r true h.rxUp
    downAt := match r with | .a => (s.td0, h.downAt.2) | .b => (h.downAt.1, s.td0) }
  else s.onNode fun n => { n with rxUp := setPair r true n.rxUp, tx := n.tx.filter fun t => t.ring != r }

/-- Is a ring's receiver of a die up? -/
def State.rxIsUp (s : State) (d : Nat) (r : Ring) : Bool := ofPair r (if s.isHead then (s.head d).rxUp else s.node.rxUp)

def execRingLinkUp (d : Nat) (r : Ring) (seen : List Sight) (s : State) : Res :=
  s.always (s.on d 7 && !s.rxIsUp d r && comesUp seen) (opRingLinkUp d r)

/-- RING_LINK_DOWN: at a head link 33 is down with its receiver (R262); a waystation sends BREAK on that ring (R261).
DEDUCED, log entry 38. -/
def opRingLinkDown (d : Nat) (r : Ring) (s : State) : State :=
  if s.isHead then (s.onHead d fun h => { h with rxUp := setPair r false h.rxUp }).setLink d r 33 false
  else (s.onNode fun n => { n with rxUp := setPair r false n.rxUp }).sendBreak r

def execRingLinkDown (d : Nat) (r : Ring) (seen : List Sight) (s : State) : Res :=
  s.always (s.on d 7 && s.rxIsUp d r && goesDown seen) (opRingLinkDown d r)

/-! ### Breaks at the head (R262) -/

def breaksOf (r : Ring) (h : RingHead) : List (Nat × Nat) :=
  match r with
  | .a => h.breakA
  | .b => h.breakB

def setBreaks (r : Ring) (l : List (Nat × Nat)) (h : RingHead) : RingHead :=
  match r with
  | .a => { h with breakA := l }
  | .b => { h with breakB := l }

/-- A BREAK of waystation k, or the loss of the head's receiver for link 33. -/
def opRingBreak (d : Nat) (r : Ring) (k : Nat) (s : State) : State :=
  let s := s.onHead d fun h => setBreaks r ((k, s.td0) :: (breaksOf r h).filter fun e => e.1 != k) h
  s.setLink d r k false

/-- RING_BREAK. -/
def execRingBreak (d : Nat) (r : Ring) (link : Nat) (s : State) : Res :=
  s.always (s.isHead && s.ringMode d != 0 && decide (1 ≤ link) && decide (link ≤ 33)) (opRingBreak d r link)

/-- A link has been without BREAK, or link 33 with its receiver up, for 1 ms. -/
def State.breakOver (s : State) (d : Nat) (r : Ring) (k : Nat) : Bool :=
  if k = 33 then ofPair r (s.head d).rxUp && decide (ofPair r (s.head d).downAt + 800000 ≤ s.td0)
  else ((breaksOf r (s.head d)).filter fun e => e.1 == k).all fun e => decide (e.2 + 800000 ≤ s.td0)

def opRingBreakClear (d : Nat) (r : Ring) (k : Nat) (s : State) : State :=
  let s := s.onHead d fun h => setBreaks r ((breaksOf r h).filter fun e => e.1 != k) h
  s.setLink d r k true

/-- RING_BREAK_CLEAR. -/
def execRingBreakClear (d : Nat) (r : Ring) (link : Nat) (s : State) : Res :=
  s.guarded (s.isHead && s.ringMode d != 0 && decide (1 ≤ link) && decide (link ≤ 33) && s.breakOver d r link) (opRingBreakClear d r link)

/-! ### Passing a waystation (R247, R248, R255, R256, R259, R264, 10 R267, R268) -/

/-- A later SEQ, modulo 256. -/
def laterSeq (q k : Byte) : Bool := decide (1 ≤ (q - k).toNat) && decide ((q - k).toNat < 128)

/-- Class A blocks that each ring with a usable route has passed over without a good copy are lost (R255). -/
def State.judgeLost : (fuel : Nat) → State → State
  | 0, s => s
  | fuel + 1, s =>
    match s.node.lostFrom with
    | none => s
    | some k =>
      let rings := [Ring.a, Ring.b].filter s.toOk
      let passed := !rings.isEmpty && rings.all fun r =>
        match (match r with | .a => s.node.seqA | .b => s.node.seqB) with
        | some q => laterSeq q k
        | none => false
      if !passed then s else
        let had := s.node.recv.contains k
        let s := s.onNode fun n => { n with lostFrom := some (k + 1), recv := n.recv.filter (· != k) }
        (s.when (!had) fun s => (s.sticky 0 Sk.RING.A_LOST).bump 0 Fd.RING_COUNTS.A_LOST_COUNT 0 1).judgeLost fuel

/-- A good class A block has come on a ring. -/
def State.seenA (s : State) (r : Ring) (q : Byte) : State :=
  (s.onNode fun n => { n with
    seqA := if r = .a then some q else n.seqA
    seqB := if r = .b then some q else n.seqB
    recv := if n.recv.contains q then n.recv else q :: n.recv
    lostFrom := some (n.lostFrom.getD q) }).judgeLost 256

/-- A good block with HM at 1 ends silence; the bridges stay blocked (R264). -/
def State.heard (s : State) : State :=
  let s := s.onNode fun n => { n with lastHm := s.td0 }
  if s.flag 0 Fd.RING_STATUS.SILENT then ((s.wrB 0 Fd.RING_STATUS.SILENT 0 false).lower 0 0x70).reportState else s

/-- A good ENUM is numbered in passing; with COUNT_A at 32 the waystation takes no number, and loses the one it had (10 R268, R270). -/
def opEnumPass (r : Ring) (b : RingBlock) (s : State) : RingBlock × State :=
  match r with
  | .a =>
    let c := field8 b 0 1
    if c < 32 then
      ({ b with payload := setAt b.payload 0 fun _ => BitVec.ofNat 8 (c + 1) }, s.wr 0 Fd.RING_STATUS.NODES 0 (c + 1))
    else (b, s.wr 0 Fd.RING_STATUS.NODES 0 0)
  | .b => ({ b with payload := setAt b.payload 1 fun _ => BitVec.ofNat 8 (min 255 (field8 b 1 1 + 1)) }, s)

/-- An IDLE block that keeps SA, HM, ALERT and ACK (R248). -/
def idleOf (b : RingBlock) : RingBlock :=
  { b with cls := 3, kind := 0, src := 0, dst := 0xFF, seq := 0, payload := pad64 [] }

/-- A kind that 10 R266 reserves. -/
def reservedKind (b : RingBlock) : Bool :=
  match b.cls.toNat with
  | 0 => decide (7 ≤ b.kind.toNat)
  | 1 => decide (4 ≤ b.kind.toNat)
  | _ => decide (2 ≤ b.kind.toNat)

/-- Is a block an own class B or C block of the node, to be taken off the ring (R248)? -/
def State.ownBlock (s : State) (b : RingBlock) : Bool :=
  s.number != 0 && b.dst.toNat == s.number && (b.cls == 1 || b.cls == 2)

/-! ### Manifests of a caravan block (10 R278-R282) -/

/-- Manifests from a byte of a CARAVAN payload on, as (waystation, bridge, valid, edges with their OFFSET as stamp). -/
def manifestsFrom (b : RingBlock) : (fuel : Nat) → (i : Nat) → List (Nat × Nat × Bool × List MEdge)
  | 0, _ => []
  | f + 1, i =>
    if 60 < i + 2 then [] else
      let h := field8 b i 2
      let count := bitsOf h 7 4
      let valid := decide (count ≤ 8) && decide (i + 2 + 3 * count ≤ 60) && bitsOf h 10 9 != 3
      let edges := (List.range count).map fun k =>
        let e := field8 b (i + 2 + 3 * k) 3
        ⟨bitOf e 23, bitsOf e 22 21, (bitsOf e 20 0 : Nat)⟩
      (bitsOf h 15 11 + 1, bitsOf h 10 9, valid, edges) :: manifestsFrom b f (i + 2 + 3 * count)

/-- The manifests of a CARAVAN payload. -/
def manifestsOf (b : RingBlock) : List (Nat × Nat × Bool × List MEdge) := manifestsFrom b (field8 b 10 1) 11

/-- Is a manifest valid for this node (10 R279, 11 R307)? -/
def State.manifestOk (s : State) (m : Nat × Nat × Bool × List MEdge) : Bool := m.2.2.1 && s.source4 m.2.1 == .manifest

/-- Does the node set its RESULT bit in a block (10 R282)? -/
def State.confirms (s : State) (b : RingBlock) : Bool :=
  s.number != 0 && s.trusted && s.device.switching &&
    (manifestsOf b).any fun m => m.1 == s.number && s.manifestOk m

/-- A CARAVAN block with the node's RESULT bit set. -/
def State.markResult (s : State) (b : RingBlock) : RingBlock :=
  if b.cls == 0 && b.kind == 5 && s.confirms b then
    let w := BitVec.ofNat 32 (field8 b 60 4) ||| 1#32 <<< (s.number - 1)
    { b with payload := b.payload.take 60 ++ beBytes 4 w.toNat }
  else b

/-- BLOCK_FORWARD: a received block and what leaves 48 ns later; one of a reserved kind leaves unchanged (10 R266). -/
def opForward (r : Ring) (b : RingBlock) (s : State) : State :=
  if !goodBlock b then s.nodeTx r { sealBlock b with delim := .stomped }
  else
    let s := s.when b.hm (·.heard)
    let s := s.when (b.cls == 0) (·.seenA r b.seq)
    let e := if b.cls == 0 && b.kind == 4 then opEnumPass r b s else (b, s)
    let s := e.2
    if reservedKind b then s.nodeTx r b
    else
      let b := if s.ownBlock e.1 then idleOf e.1 else s.markResult e.1
      let a := s.insertAlert r b
      let k := a.2.insertAck r a.1
      k.2.nodeTx r (sealBlock k.1)

def execBlockForward (r : Ring) (blk : RingBlock) (s : State) : Res :=
  s.guarded (!s.isHead && s.on 0 7 && s.rxIsUp 0 r) (opForward r blk)

/-! ### Silence (R264, 11 R319) -/

def State.silentDue (s : State) : Bool :=
  !s.isHead && s.on 0 7 && !s.flag 0 Fd.RING_STATUS.SILENT && decide (s.node.lastHm + 16000 ≤ s.td0)

/-- SILENT. -/
def opSilent (s : State) : State :=
  let s := ((s.wrB 0 Fd.RING_STATUS.SILENT 0 true).sticky 0 Sk.RING.SILENT).raise 0 0x70
  let s := (s.onNode fun n => { n with silentAt := some s.td0, stateSeen := false }).sticky 0 Sk.BG.RING_BLOCK
  s.dropManifests.blockAll.reportState

def execSilent (s : State) : Res := s.always s.silentDue opSilent

/-- RING_BLOCK_CLEAR (11 R319): not silent, trusted, and a STATE named a switching state since the silence began. -/
def opRingBlockClear (s : State) : State :=
  ((s.onNode fun n => { n with silentAt := none }).unblock).reportState

def execRingBlockClear (s : State) : Res :=
  s.guarded (!s.isHead && s.alive 0 && s.ringBlock && !s.flag 0 Fd.RING_STATUS.SILENT && s.trusted && s.node.stateSeen) opRingBlockClear

/-! ### Alerts at the head (R256, 17 R445, R446) -/

/-- ALERT: the first good alert of a waystation and source; repeats are discarded. -/
def opAlert (d : Nat) (b : RingBlock) (s : State) : State :=
  let n := bitsOf b.alert.toNat 12 8 + 1
  let src : Byte := BitVec.ofNat 8 b.alert.toNat
  if (s.head d).alerts.any fun a => a.1 == n && a.2.1 == src then s else
    let s := s.onHead d fun h => { h with alerts := (n, src, s.td0) :: h.alerts }
    ((s.stick d (0x1F + n) 0).sticky d Sk.FLT.WS_REPORT).arrive d (0x800 + d * 256 + src.toNat) n

def execAlert (d : Nat) (blk : RingBlock) (s : State) : Res :=
  s.guarded (s.isHead && s.on d 7 && goodBlock blk && blk.sa && bitOf blk.alert.toNat 15) (opAlert d blk)

end Sys2Proof.Machine
end

