-- ==== Sys2Proof/Machine/RingTime.lean ====
section
/-! DEFINITION. Ring time, enumeration, the fixed reservation of a ring, and the state a head commands (10 R268-R277, R287, R288,
R293; 21 R533). -/

namespace Sys2Proof.Machine

/-! ### A node follows its head (R287, R288; 21 R533) -/

/-- No load is in progress and the latest load of every TYPE succeeded (19 R499). -/
def State.loadsOk (s : State) (d : Nat) : Bool :=
  s.rd d Fd.IMG_STAT.STAT != 1 && s.rd d Fd.IMG_STAT.STAT != 2 && (s.die d).sec.ok.all id

/-- A change of state; entering a switching state from another arms the collectors (17 R446, R447). -/
def State.moveTo (s : State) (new : DevState) : State :=
  let was := s.device.switching
  let s := s.enter new
  s.when (!was && new.switching) (·.armCollectors)

/-- A node takes a state its head names (R533). DEDUCED, log entry 63. -/
def State.takeNamed (s : State) (code : Nat) : State :=
  if code < 3 || s.device == .off || s.device == .reset || s.device == .boot then s else
    match DevState.ofCode code with
    | none => s
    | some new =>
      if new = s.device then s
      else if s.device = .config && !s.loadsOk 0 then s.reportState
      else s.moveTo new

/-- What of a class A block's content has been taken already, by SEQ (09 R255); an entry is forgotten after 16,000 ticks. DEDUCED, log
entry 90. -/
def State.newCopy (s : State) (q : Byte) : Bool × State :=
  let live := s.node.got.filter fun e => decide ((s.td0 : Int) < e.2 + 16000)
  if live.any fun e => e.1 == q then (false, s)
  else (true, s.onNode fun n => { n with got := (q, s.td0) :: live })

def DevState.switchingCode (n : Nat) : Bool := decide (4 ≤ n) && decide (n ≤ 7)

/-- The first good copy of a STATE block (R287, 11 R319). -/
def opState (b : RingBlock) (s : State) : State :=
  let code := field8 b 0 1 % 16
  let r := s.newCopy b.seq
  if !r.1 then r.2 else (r.2.onNode fun n => { n with stateSeen := n.stateSeen || (n.silentAt.isSome && DevState.switchingCode code) }).takeNamed code

/-- A good class A block of a kind, at a node. -/
def State.hearsA (s : State) (b : RingBlock) (kind : Nat) : Bool :=
  !s.isHead && s.on 0 7 && goodBlock b && b.cls == 0 && b.kind.toNat == kind

/-- STATE. -/
def execState (blk : RingBlock) (s : State) : Res := s.guarded (s.hearsA blk 3) (opState blk)

/-- LOCKOUT from any state from CONFIG on (R288, 01 R36); R533 limits what STATE and SYNC name only. -/
def State.takeLockout (s : State) : State :=
  if s.device == .off || s.device == .reset || s.device == .boot || s.device == .lockout then s else s.moveTo .lockout

/-- The first good copy of a BLOCK (R288, 17 R454): every leg blocked, manifests discarded, LOCKOUT. DEDUCED, log entry 63. -/
def opBlock (b : RingBlock) (s : State) : State :=
  let r := s.newCopy b.seq
  if !r.1 then r.2 else
  let s := r.2
  let t := field8 b 2 8
  let s := (s.wr 0 Fd.HEAD_FF.VALID 0 1).wr 0 Fd.HEAD_FF.CODE 0 (field8 b 0 2 % 4096)
  let s := (s.wr 0 Fd.HEAD_T_LO.W 0 (loWord t)).wr 0 Fd.HEAD_T_HI.W 0 (hiWord t)
  s.dropManifests.blockAll.takeLockout

/-- BLOCK. -/
def execBlock (blk : RingBlock) (s : State) : Res := s.always (s.hearsA blk 2) (opBlock blk)

/-! ### Route delays at a node (R271, R272) -/

/-- The node computes R_A and R_B where an L meets a kept D of its DSEQ; a move by 16 fine units makes it untrusted (R272, R276). -/
def State.routes (s : State) : State :=
  match s.node.l with
  | none => s
  | some (l, q) =>
    match s.node.dHist.find? (fun e => e.1 == q) with
    | none => s
    | some (_, dd) =>
      let ra := ((l : Int) - 307 - dd) / 2 + (s.nodeField 8).toInt
      let rb := ra + dd
      let moved := fun (old : Option Int) (new : Int) => match old with
        | some o => decide (16 ≤ (new - o).natAbs)
        | none => false
      let jump := moved s.node.ra ra || moved s.node.rb rb
      let s := s.onNode fun n => { n with ra := some ra, rb := some rb }
      let s := (s.wrS 0 Fd.NODE_ROUTE.R_A 0 ra).wrS 0 Fd.NODE_ROUTE.R_B 0 rb
      let s := (s.setNodeField 4 (BitVec.ofInt 16 ra)).setNodeField 5 (BitVec.ofInt 16 rb)
      s.when jump (·.untrust)

/-- A good copy of a DELAY on a ring, stamped in local fine units (R272). -/
def opDelay (r : Ring) (b : RingBlock) (at_ : Nat) (s : State) : State :=
  let arr := s.stampAt 0 at_
  let q : Byte := BitVec.ofNat 8 (field8 b 0 1)
  let prior := match s.node.dOpen with
    | some (p, a, c) => if p = q then (a, c) else (none, none)
    | none => (none, none)
  let both : Option Int × Option Int := match r with
    | .a => (some (arr : Int), prior.2)
    | .b => (prior.1, some (arr : Int))
  match both with
  | (some ta, some tb) =>
    let dd : Int := tb - ta
    let s := s.onNode fun n => { n with dOpen := none, dHist := ((q, dd) :: n.dHist.filter fun e => e.1 != q).take 2 }
    (s.wr 0 Fd.NODE_D.DSEQ 0 q.toNat).wrS 0 Fd.NODE_D.D 0 dd
  | _ => s.onNode fun n => { n with dOpen := some (q, both.1, both.2) }

/-- DELAY. -/
def execDelay (r : Ring) (blk : RingBlock) (arr : Nat) (s : State) : Res := s.guarded (s.hearsA blk 1) (opDelay r blk arr)

/-! ### SYNC at a node (R273-R276) -/

/-- A node becomes trusted (R275); pins are followed from the next tick (11 R320). -/
def State.trust (s : State) : State :=
  ((s.wrB 0 Fd.RING_STATUS.TRUSTED 0 true).onBg fun g => { g with follow := some (s.td0 + 1) }).reportState

/-- The error of a SYNC shows in NODE_TIME and in SYNC_ERR; what a field shows of an error outside its 16 bits is open.
DEDUCED, log entry 42. -/
def State.showError (s : State) (e : Int) : State :=
  let p : BitVec 16 × State :=
    if satS 16 e = e then (BitVec.ofInt 16 e, s) else (s.freeW.1.setWidth 16, s.freeW.2)
  (p.2.wr 0 Fd.NODE_TIME.SYNC_ERR 0 p.1.toNat).setNodeField 3 p.1

/-- What an error does (R274, R275): a shift at the next slot boundary, counted while untrusted, or a step there.
DEDUCED, log entry 42. -/
def State.takeError (s : State) (e : Int) (follows : Bool) : State :=
  let s := s.showError e
  if s.node.timeSet && decide (e.natAbs < 16) then
    let s := s.onNode fun n => { n with adjust := some (e, false) }
    if s.flag 0 Fd.RING_STATUS.TRUSTED then s
    else
      let c := if follows then s.rd 0 Fd.NODE_TIME.AGREE + 1 else 1
      let s := s.wr 0 Fd.NODE_TIME.AGREE 0 (min 2 c)
      s.when (decide (2 ≤ c)) (·.trust)
  else s.onNode fun n => { n with adjust := some (e, true) }

/-- The first good copy of a SYNC (R273, R274). -/
def opSync (r : Ring) (b : RingBlock) (at_ : Nat) (s : State) : State :=
  let arr := s.stampAt 0 at_
  let ts := field8 b 0 8
  let idx := ts / 8000
  if s.node.syncSeq == some b.seq && s.node.syncIdx == idx then s else
    let follows := s.node.syncAt.isSome && idx == s.node.syncIdx + 1
    let l := field8 b 8 2
    let s := s.onNode fun n => { n with
      syncAt := some s.td0, syncSeq := some b.seq, syncIdx := idx, rmode := field8 b 23 1 % 4, size := field8 b 12 1
      linksA := BitVec.ofNat 40 (field8 b 13 5), linksB := BitVec.ofNat 40 (field8 b 18 5)
      l := if l = 0xFFFF then n.l else some (l, BitVec.ofNat 8 (field8 b 10 1)) }
    let s := s.routes.takeNamed (field8 b 11 1 % 16)
    match (match r with | .a => s.node.ra | .b => s.node.rb) with
    | some rr => s.takeError ((ts : Int) * 8 + rr - arr) follows
    | none => s.when (!s.flag 0 Fd.RING_STATUS.TRUSTED) fun s => s.wr 0 Fd.NODE_TIME.AGREE 0 0

/-- SYNC. -/
def execSync (r : Ring) (blk : RingBlock) (arr : Nat) (s : State) : Res := s.guarded (s.hearsA blk 0) (opSync r blk arr)

/-! ### The correction at a slot boundary (R274). A node's ring time is its TD0; what the model keeps as the tick of an earlier
event is moved with it, so that elapsed times stay what they were. -/

def moveI (k : Int) (o : Option Int) : Option Int := o.map (· + k)
def moveN (k : Int) (n : Nat) : Nat := (n + k).toNat
def moveO (k : Int) (o : Option Nat) : Option Nat := o.map (moveN k)
def moveP {α : Type} (k : Int) (o : Option (Nat × α)) : Option (Nat × α) := o.map fun e => (moveN k e.1, e.2)

def RingNode.move (k e : Int) (n : RingNode) : RingNode :=
  { n with
    dOpen := n.dOpen.map fun x => (x.1, moveI e x.2.1, moveI e x.2.2)
    syncAt := moveI k n.syncAt
    lastHm := n.lastHm + k
    silentAt := moveI k n.silentAt
    got := n.got.map fun x => (x.1, x.2 + k)
    cids := n.cids.map fun x => (x.1, x.2.1, x.2.2 + k)
    tx := n.tx.map fun x => { x with tick := moveN k x.tick }
    bcQ := n.bcQ.map fun x => { x with sent := moveI k x.sent } }

def Bg.move (k e : Int) (b : Bg) : Bg :=
  { bridge := b.bridge.map fun x => { x with
      lateAt := moveP k x.lateAt, slowAt := moveI k x.slowAt, slowEnd := moveI k x.slowEnd
      undo := x.undo.map fun u => { u with tick := u.tick + k, bypass := u.bypass.map fun y => (y.1 + e, y.2) }
      missed := x.missed.map fun m => (m.1 + k, m.2) }
    leg := b.leg.map fun x => { x with
      upRise := moveI e x.upRise, loRise := moveI e x.loRise, upFall := moveI e x.upFall, loFall := moveI e x.loFall
      upLowAt := x.upLowAt + e, loLowAt := x.loLowAt + e, peakAt := moveI k x.peakAt, blankAt := moveI k x.blankAt
      high := x.high.map fun h => (h.1 + k, moveI k h.2), heldAt := moveI k x.heldAt, ownAt := moveI k x.ownAt, tripAt := moveI k x.tripAt
      freed := x.freed.map fun f => { f with tick := f.tick + k, heldAt := f.heldAt + k }
      hist := x.hist.map (· + k), fallAt := moveI k x.fallAt, words := x.words.map fun w => (w.1 + k, w.2), gfltFrom := x.gfltFrom + k }
    bypass := b.bypass.map fun x => (x.1 + e, x.2)
    follow := moveI k b.follow
    recAt := moveI k b.recAt }

def Trk.move (k : Int) (x : Trk) : Trk :=
  { x with tLast := x.tLast + k, win := x.win.map (fun w => (w.1, w.2 + k)), coastAt := moveI k x.coastAt, lockAt := moveI k x.lockAt
           sampled := moveI k x.sampled, qAt := moveI k x.qAt }

/-- A domain in the tick in which ring time moves: a slew keeps its length, a FREE domain takes the position of the new time (03 R77, R93). -/
def Domain.moveTo (k : Int) (t : Nat) (x : Domain) : Domain :=
  let x := { x with slew := moveP k x.slew, nextOk := moveN k x.nextOk }
  if x.src = 1 then { x with pos := x.freeAt t } else x

/-- Every kept tick of a node moves by k ticks, every kept instant by e fine units; t is the tick it is then. -/
def Die.move (k e : Int) (t : Nat) (x : Die) : Die :=
  { x with
    node := x.node.move k e
    bg := x.bg.move k e
    trk := x.trk.map (Trk.move k)
    mfe := { x.mfe with
      ch := x.mfe.ch.map fun c => { c with edge := c.edge + k, since := c.since + k }
      sdc := x.mfe.sdc.map fun c => { c with org := c.org + k, next := c.next.map fun n => (n.1, n.2 + k) } }
    le := { x.le with
      slot := x.le.slot.map fun sl => { sl with
        tickAt := sl.tickAt + k, ticked := moveI k sl.ticked, sp := sl.sp.map fun w => { w with tick := w.tick + k } }
      inst := x.le.inst.map fun i => { i with first := i.first + k }
      stores := x.le.stores.map fun t => { t with tick := t.tick + k }
      hostW := x.le.hostW.map fun h => (h.1, h.2 + k)
      turn0 := x.le.turn0 + k }
    ang := { x.ang with dom := x.ang.dom.map (Domain.moveTo k t) }
    clk := { x.clk with
      holdT := x.clk.holdT.map fun e => (e.1 + k, e.2), holdF := x.clk.holdF.map fun e => (e.1 + k, e.2)
      spread := x.clk.spread.map fun e => (e.1 + k * triangleUnit, e.2) }
    thm := { x.thm with
      setAt := x.thm.setAt.map (moveI k), relAt := x.thm.relAt.map (moveI k), agreeAt := moveI k x.thm.agreeAt
      sampled := moveI k x.thm.sampled, nbrAt := x.thm.nbrAt + k }
    bist := { x.bist with
      slice := moveI k x.bist.slice, lentAt := x.bist.lentAt + k, lastAt := moveI k x.bist.lastAt, passAt := x.bist.passAt + k
      engFirst := x.bist.engFirst + k, engAt := x.bist.engAt + k, burnAt := x.bist.burnAt + k, patrolAt := moveI k x.bist.patrolAt }
    sec := { x.sec with burnAt := x.sec.burnAt + k }
    recorder := { x.recorder with recAt := moveI k x.recorder.recAt } }

/-- Ring time moves by e fine units. -/
def State.moveTime (s : State) (e : Int) : State :=
  let t := ((s.now + s.fine + e) % 2 ^ 67).toNat
  let k : Int := ((t / 8 : Nat) : Int) - s.td0
  ({ s with td0 := t / 8, fine := t % 8, movedAt := moveO k s.movedAt }).onDie 0 (Die.move k e (t / 8))

/-- At a slot boundary the correction of the latest SYNC is made; a step leaves the node untrusted, and its SYNC counts as the
first of the two of R275. -/
def State.applyAdjust (s : State) : State :=
  match s.node.adjust with
  | none => s
  | some (e, step) =>
    if s.td0 % 128 != 0 then s else
      let s := (s.onNode fun n => { n with adjust := none }).moveTime e
      if step then (s.onNode fun n => { n with timeSet := true }).untrust.wr 0 Fd.NODE_TIME.AGREE 0 1 else s

/-! ### What the head sends by itself (R254) -/

/-- A SYNC is owed for the latest multiple of 8,000 ticks, a DELAY for that of 800,000. -/
def State.syncDue (s : State) (d : Nat) : Bool := decide (2 ≤ s.ringMode d) && decide ((s.head d).lastSync < s.td0 / 8000 + 1)
def State.delayDue (s : State) (d : Nat) : Bool := decide (2 ≤ s.ringMode d) && decide ((s.head d).lastDelay < s.td0 / 800000 + 1)

/-- The first BLOCK of a reaction, or a repeat, claims this slot. -/
def State.blockDue (s : State) (d : Nat) : Bool :=
  decide (2 ≤ s.ringMode d) && match (s.head d).blockOut with
    | some b => decide (b.fromTick ≤ s.td0) && decide (0 < b.left)
    | none => false

def State.firstBlockDue (s : State) (d : Nat) : Bool :=
  s.blockDue d && match (s.head d).blockOut with
    | some b => b.left == 4
    | none => false

/-- A block assigned to the slot that starts in this tick. -/
def State.assigned (s : State) (d : Nat) : Option SlotAsg := (s.head d).slots.find? fun a => a.start == s.td0

/-- Such a block is one of a caravan or a set-point submission, which gives way to the first BLOCK alone (R254). -/
def State.carries (s : State) (d : Nat) : Bool := (s.assigned d).isSome

def State.stateDue (s : State) (d : Nat) : Bool :=
  decide (2 ≤ s.ringMode d) && match (s.head d).stateOut with
    | e :: _ => decide (e.2 + 16 ≤ s.td0)
    | [] => false

/-- An ENUM waits for this slot. -/
def State.enumDue (s : State) (d : Nat) : Bool :=
  decide (2 ≤ s.ringMode d) && match (s.head d).enumWait with
    | t :: _ => decide (t ≤ s.td0)
    | [] => false

/-- A class A slot of die d's ring starts and nothing fills it yet. -/
def State.slotOpen (s : State) (d : Nat) : Bool := s.isHead && slotA s.td0 && !s.slotUsed d

/-- The bits of LINKS_A or LINKS_B as a SYNC carries them (R273). -/
def State.linksWord (s : State) (d : Nat) (r : Ring) : Nat := ofBits (fun i => s.linkUp d r (i + 1)) 33

/-- SYNC_SEND (R273). -/
def opSyncSend (d : Nat) (s : State) : State :=
  let p := beBytes 8 s.td0 ++ beBytes 2 (s.rd d Fd.RING_L.L) ++
    [BitVec.ofNat 8 (s.rd d Fd.RING_L.DSEQ), BitVec.ofNat 8 s.device.code, BitVec.ofNat 8 (s.nodes d)] ++
    beBytes 5 (s.linksWord d .a) ++ beBytes 5 (s.linksWord d .b) ++ [BitVec.ofNat 8 (s.ringMode d)]
  (s.onHead d fun h => { h with lastSync := s.td0 / 8000 + 1 }).sendA d 0 p

def execSyncSend (d : Nat) (s : State) : Res :=
  s.guarded (s.slotOpen d && s.syncDue d && !s.firstBlockDue d && !s.carries d) (opSyncSend d)

/-- DELAY_SEND (R271). -/
def opDelaySend (d : Nat) (s : State) : State :=
  let q := (s.head d).dseq
  (s.onHead d fun h => { h with lastDelay := s.td0 / 800000 + 1, dseq := q + 1, delayOut := some q }).sendA d 1 [q]

def execDelaySend (d : Nat) (s : State) : Res :=
  s.guarded (s.slotOpen d && s.delayDue d && !s.syncDue d && !s.blockDue d && !s.carries d) (opDelaySend d)

/-- DELAY_RETURN (R271): both copies good give L; the delays are in fine units. -/
def opDelayReturn (d : Nat) (la lb : Option Nat) (s : State) : State :=
  match (s.head d).delayOut with
  | none => s
  | some q =>
    let s := s.onHead d fun h => { h with delayOut := none }
    match la, lb with
    | some a, some b => (s.wr d Fd.RING_L.L 0 ((s.stampAt d a + s.stampAt d b) / 2)).wr d Fd.RING_L.DSEQ 0 q.toNat
    | _, _ => s

def execDelayReturn (d : Nat) (la lb : Option Nat) (s : State) : Res := s.guarded (s.isHead && s.on d 7) (opDelayReturn d la lb)

/-- STATE_SEND (R287): the first class A slot that nothing else holds. -/
def opStateSend (d : Nat) (s : State) : State :=
  match (s.head d).stateOut with
  | [] => s
  | e :: rest => (s.onHead d fun h => { h with stateOut := rest }).sendA d 3 ([BitVec.ofNat 8 e.1] ++ beBytes 8 e.2)

def execStateSend (d : Nat) (s : State) : Res :=
  s.guarded (s.slotOpen d && s.stateDue d && !s.syncDue d && !s.delayDue d && !s.blockDue d && (s.assigned d).isNone) (opStateSend d)

/-- BLOCK_SEND (R253, R254, R288): the first copy discards every assigned caravan and set-point block. -/
def opBlockSend (d : Nat) (s : State) : State :=
  match (s.head d).blockOut with
  | none => s
  | some b =>
    let s := s.when (b.left == 4) fun s => s.onHead d fun h => { h with slots := [] }
    let s := s.onHead d fun h => { h with blockOut := if b.left ≤ 1 then none else some { b with left := b.left - 1, fromTick := s.td0 + 16 } }
    s.sendA d 2 (beBytes 2 (b.code % 4096) ++ beBytes 8 b.ticks)

def execBlockSend (d : Nat) (s : State) : Res :=
  s.guarded (s.slotOpen d && s.blockDue d && (s.firstBlockDue d || (!s.syncDue d && !s.carries d))) (opBlockSend d)

/-! ### Enumeration (R268-R270) -/

/-- ENUM_GO under the MODE in force (R269, R294): the ENUM claims its slot by R254. -/
def opEnumGo (d : Nat) (s : State) : Res :=
  if s.rd d Fd.RING_CTRL.MODE = 3 then .next (s.misuse 294 d 7)
  else if s.ringMode d = 2 && s.ringWhole d .a && s.ringWhole d .b then
    .next (s.onHead d fun h => { h with enumWait := h.enumWait ++ [s.td0 + 16] })
  else .next (s.sticky d Sk.RING.ENUM_ERR)

def execEnumGo (d : Nat) (s : State) : Res := s.sanely (if s.isHead && s.alive d then opEnumGo d s else .next s)

/-- ENUM_RETURN (R269): the (COUNT_A, COUNT_B) of each good copy. -/
def opEnumReturn (d : Nat) (ca cb : Option (Nat × Nat)) (s : State) : State :=
  let s := s.onHead d fun h => { h with enumOut := h.enumOut - 1 }
  match ca, cb with
  | some a, some b =>
    let e := s.rd d Fd.RING_CFG.EXPECT
    if a.1 = b.2 && (e == 0 || e == a.1) && decide (a.1 ≤ 32) then (s.wr d Fd.RING_STATUS.NODES 0 a.1).judgeRoutes d
    else s.sticky d Sk.RING.ENUM_ERR
  | _, _ => s.sticky d Sk.RING.ENUM_ERR

def execEnumReturn (d : Nat) (ca cb : Option (Nat × Nat)) (s : State) : Res :=
  s.guarded (s.isHead && s.on d 7 && (s.head d).enumOut != 0) (opEnumReturn d ca cb)

end Sys2Proof.Machine
end

