-- ==== Sys2Proof/Machine/RingMsg.lean ====
section
/-! DEFINITION. What travels on a ring: caravans, set-points, context fields, remote accesses, streams and node images, and the
exchange of class B and C blocks at both ends (09 R258-R260, 10 R278-R296, 20 R514, 21 R530-R532). -/

namespace Sys2Proof.Machine

/-! ### Context fields (10 R289) -/

def isDown (f : Nat) : Bool := f == 6 || f == 7 || f == 8 || (decide (0x80 ≤ f) && decide (f < 0x180))
def isUp (f : Nat) : Bool :=
  decide (f ≤ 5) || f == 0xC || (decide (0x10 ≤ f) && decide (f < 0x80)) || (decide (0x180 ≤ f) && decide (f < 0x190))

def upFields : List Nat := (List.range 0x190).filter isUp

/-- The bits of a down field that it holds. -/
def downValue (f : Nat) (v : BitVec 16) : BitVec 16 := if f = 6 ∨ f = 7 then v &&& 0xF else v

/-- A node's down field takes a value: a set-point word becomes pending (07 R194), a new ASYM may move its routes (R276). -/
def State.takeDown (s : State) (f : Nat) (v : BitVec 16) : State :=
  if !isDown f then s else
    let s := s.putCtx 0 1 f (downValue f v)
    let s := s.when (f == 8) (·.routes)
    s.when (decide (0x80 ≤ f)) fun s => opSpWord 0 ((f - 0x80) / 4) ((f - 0x80) % 4) v s

/-- Entries of four bytes (R290): FIELD in [27:16], VALUE in [15:0]. -/
def entries4 (b : RingBlock) : List (Nat × BitVec 16) :=
  (List.range (min 15 (field8 b 0 1))).map fun i =>
    let e := field8 b (1 + 4 * i) 4
    (bitsOf e 27 16, BitVec.ofNat 16 e)

def pack4 (l : List (Nat × BitVec 16)) : List Byte :=
  [BitVec.ofNat 8 l.length] ++ (l.map fun e => beBytes 4 (e.1 % 4096 * 65536 + e.2.toNat)).flatten

/-- A write to a context field (R289, R290): on a head a down field of an enumerated waystation, which also queues a CTX_WRITE
entry; on a node one of its own up fields. -/
def opContext (d n field : Nat) (v : BitVec 16) (s : State) : State :=
  if s.isHead then
    if isDown field && decide (1 ≤ n) && decide (n ≤ s.nodes d) then
      let v := downValue field v
      (s.putCtx d n field v).onHead d fun h => { h with
        ctxQ := if h.ctxQ.any (fun e => e.1 == n && e.2.1 == field) then
            h.ctxQ.map fun e => if e.1 == n && e.2.1 == field then (n, field, v) else e
          else h.ctxQ ++ [(n, field, v)] }
    else s
  else if isUp field && n == 1 then s.setNodeField field v else s

/-- CONTEXT_FIELD_WRITE. -/
def execContextFieldWrite (d n field : Nat) (value : BitVec 16) (s : State) : Res :=
  s.guarded (s.alive d) (opContext d n field value)

/-! ### Node images at the head (21 R529-R532) -/

/-- One bit of a register. -/
def Fld.bit (f : Fld) (n : Nat) : Fld := { f with lo := n, hi := n }

/-- A transfer to one waystation ends; with the last one the transfer is done. -/
def State.nimgLeave (s : State) (d ws : Nat) : State :=
  let s := s.onDie d fun x => { x with nimg := ⟨x.nimg.left.filter fun e => e.ws != ws⟩ }
  if (s.die d).nimg.left.isEmpty then (s.wr d Fd.NIMG_STAT.STAT 0 2).wrB d Fd.DIE_STATUS.NIMG_BUSY 0 false else s

def State.nimgFail (s : State) (d ws cause : Nat) : State :=
  if !(s.die d).nimg.left.any (fun e => e.ws == ws) then s else
    let s := s.wrB d (Fld.bit Fd.NIMG_FAIL.W (ws - 1)) 0 true
    let s := (s.wr d Fd.NIMG_STAT.LAST_CAUSE 0 cause).wr d Fd.NIMG_STAT.LAST_WS 0 (ws - 1)
    (s.onHead d fun h => { h with bcQ := h.bcQ.filter fun b => !(b.n == ws && b.cls == 2 && b.sent.isNone) }).nimgLeave d ws

/-- Place and length of inner image k of a container at a DRAM byte. -/
def State.innerAt (s : State) (d at_ : Nat) : (k : Nat) → Nat × Nat
  | 0 => (at_ + 4, 272 + beNat (s.dramBytes d (at_ + 12) 4))
  | k + 1 =>
    let p := s.innerAt d at_ k
    (p.1 + p.2, 272 + beNat (s.dramBytes d (p.1 + p.2 + 8) 4))

/-- Every line that holds these bytes is readable, under the reads that fail (20 R510). -/
def State.linesOk (s : State) (d at_ n : Nat) (fails : List (Nat × Bool)) : Bool × State :=
  let read := fun (s : State) (l : Nat) => s.lineRead d l (readOk fails l).1 (readOk fails l).2
  let r := read s (lineOf at_)
  if n = 0 || lineOf (at_ + n - 1) = lineOf at_ then r
  else
    let q := read r.2 (lineOf (at_ + n - 1))
    (r.1 && q.1, q.2)

/-- The next IMAGE block to a waystation is queued (R530). DEDUCED, log entry 75. -/
def State.nimgQueue (s : State) (d ws : Nat) (fails : List (Nat × Bool)) : State :=
  match (s.die d).nimg.left.find? (fun e => e.ws == ws) with
  | none => s
  | some e =>
    let p := s.innerAt d (s.die d).sec.dest4 e.inner
    let n := min 56 (p.2 - e.next)
    let last := decide (p.2 ≤ e.next + n)
    let r := s.linesOk d (p.1 + e.next) n fails
    if !r.1 then r.2.nimgFail d ws 4 else
      let data := r.2.dramBytes d (p.1 + e.next) n
      let s := (r.2.wr d Fd.NIMG_STAT.INNER 0 e.inner).queueBc d ws 2 1
        (beBytes 4 e.next ++ [BitVec.ofNat 8 e.inner, BitVec.ofNat 8 (bnat (e.next == 0) + 2 * bnat last)] ++ beBytes 2 n ++ data)
      s.onDie d fun x => { x with nimg := ⟨x.nimg.left.map fun o =>
        if o.ws == ws then { o with next := e.next + n, phase := if last then 1 else 0 } else o⟩ }

/-- NIMG_GO (R530). DEDUCED, log entry 75. -/
def opNimgGo (d : Nat) (s : State) : State :=
  if !(s.device == .config || s.device == .standstill) || s.ringMode d != 3 || !(s.die d).sec.got4 || !(s.die d).nimg.left.isEmpty then
    s.wr d Fd.NIMG_STAT.STAT 0 3
  else
    let sel := bitList 32 (s.rd d Fd.NIMG_SEL.W)
    let s := ((s.wr d Fd.NIMG_OK.W 0 0).wr d Fd.NIMG_FAIL.W 0 0).wr d Fd.NIMG_STAT.INNER 0 0
    if sel.isEmpty then s.wr d Fd.NIMG_STAT.STAT 0 2 else
      let s := (s.wr d Fd.NIMG_STAT.STAT 0 1).wrB d Fd.DIE_STATUS.NIMG_BUSY 0 true
      let s := s.onDie d fun x => { x with nimg := ⟨sel.map fun i => ⟨i + 1, 0, 0, 0, 0⟩⟩ }
      s.each sel fun s i => if i + 1 ≤ s.nodes d then s.nimgQueue d (i + 1) [] else s.nimgFail d (i + 1) 2

def execNimgGo (d : Nat) (s : State) : Res := s.guarded (s.isHead && s.alive d) (opNimgGo d)

/-- NIMG_ABORT (R532). -/
def execNimgAbort (d : Nat) (s : State) : Res := s.guarded (s.isHead && s.alive d) fun s => s.nimgEnd d 5

/-- What a node answered to the head's read of its IMG_STAT (R532). -/
def State.nimgAnswer (s : State) (d ws : Nat) (w : Nat) : State :=
  match (s.die d).nimg.left.find? (fun e => e.ws == ws) with
  | none => s
  | some e =>
    let put := fun (f : NimgWs → NimgWs) (s : State) =>
      s.onDie d fun x => { x with nimg := ⟨x.nimg.left.map fun o => if o.ws == ws then f o else o⟩ }
    if bitsOf w 1 0 != 3 then put (fun o => { o with phase := 1 }) s
    else
      let s := s.wr d Fd.NIMG_STAT.LAST_RESULT 0 (bitsOf w 7 4)
      if bitsOf w 7 4 != 0 then s.nimgFail d ws 1
      else if beNat (s.dramBytes d (s.die d).sec.dest4 4) ≤ e.inner + 1 then
        (s.wrB d (Fld.bit Fd.NIMG_OK.W (ws - 1)) 0 true).nimgLeave d ws
      else put (fun o => { o with inner := e.inner + 1, next := 0, phase := 3 }) s

/-! ### Remote access (10 R292) -/

/-- The access in front of a ring's queue goes out as REG_REQ. -/
def State.startRemote (s : State) (d : Nat) : State :=
  match (s.head d).remotes with
  | [] => s
  | r :: _ => s.queueBc d r.n 1 2 ([BitVec.ofNat 8 (bnat r.write)] ++ beBytes 4 r.addr.toNat ++ beBytes 4 r.data.toNat)

/-- A register of die 0 in a node's own map (02 R40). -/
def nodeAddr (f : Fld) : Word := BitVec.ofNat 32 (0x1000000 + f.key 0)

/-- An access that could not be made, or has ended: the outcome for whoever asked. -/
def State.tellRemote (s : State) (d : Nat) (r : Remote) (ok : Bool) (data : Nat) : State :=
  if r.host then
    let s := s.wr d Fd.RMT_STAT.STAT 0 (if ok then 2 else 3)
    let s := s.when (!ok) (·.sticky d Sk.RING.RMT_FAIL)
    s.when (ok && !r.write) fun s => s.wr d Fd.RMT_DATA.W 0 data
  else if r.write then s
  else if ok then s.nimgAnswer d r.n data
  else s.nimgFail d r.n 3

/-- The access in progress ends, and the next one starts. -/
def State.endRemote (s : State) (d : Nat) (ok : Bool) (data : Nat) : State :=
  match (s.head d).remotes with
  | [] => s
  | r :: rest => ((s.onHead d fun h => { h with remotes := rest }).tellRemote d r ok data).startRemote d

/-- An access is asked for: it fails at once if it cannot be sent; otherwise it waits its turn. -/
def State.askRemote (s : State) (d : Nat) (r : Remote) : State :=
  if s.ringMode d != 3 || r.n = 0 || decide (s.nodes d < r.n) then s.tellRemote d r false 0
  else
    let idle := (s.head d).remotes.isEmpty
    let s := s.onHead d fun h => { h with remotes := h.remotes ++ [r] }
    let s := s.when r.host fun s => s.wr d Fd.RMT_STAT.STAT 0 1
    s.when idle (·.startRemote d)

/-- A GO of RMT_CMD; one host access at a time. -/
def opRemote (d n : Nat) (write : Bool) (s : State) : State :=
  if (s.head d).remotes.any (·.host) then s else
    s.askRemote d ⟨n, write, BitVec.ofNat 32 (s.rd d Fd.RMT_ADDR.W), BitVec.ofNat 32 (s.rd d Fd.RMT_DATA.W), true, none⟩

def execRemoteRead (d n : Nat) (s : State) : Res := s.guarded (s.isHead && s.alive d) (opRemote d n false)
def execRemoteWrite (d n : Nat) (s : State) : Res := s.guarded (s.isHead && s.alive d) (opRemote d n true)

/-- REG_RSP: the answer to the access in progress; any other is discarded. -/
def opRegRsp (d : Nat) (ring : Ring) (b : RingBlock) (s : State) : State :=
  let r := s.headReceive d ring b
  if !r.1 then r.2 else
    match (r.2.head d).remotes with
    | e :: _ => if e.n = b.src.toNat && field8 b 1 4 == e.addr.toNat then r.2.endRemote d true (field8 b 5 4) else r.2
    | [] => r.2

def execRegRsp (d : Nat) (r : Ring) (blk : RingBlock) (s : State) : Res := s.guarded (s.toHead d blk 1 3) (opRegRsp d r blk)

/-- REMOTE_TIMEOUT: no answer within 250 µs of the ACK. -/
def execRemoteTimeout (d : Nat) (s : State) : Res :=
  s.guarded (s.isHead && s.on d 7) fun s =>
    match (s.head d).remotes with
    | r :: _ => (match r.ackAt with
        | some t => if t + 200000 ≤ s.td0 then s.endRemote d false 0 else s
        | none => s)
    | [] => s

/-- NIMG_POLL (21 R532): after the last block of an inner image its result is read every 1 ms; a good one lets the next inner image
start. -/
def opNimgPoll (d n : Nat) (fails : List (Nat × Bool)) (s : State) : State :=
  match (s.die d).nimg.left.find? (fun e => e.ws == n) with
  | none => s
  | some e =>
    if e.phase = 3 then s.nimgQueue d n fails
    else if e.phase = 1 && (s.frontBc d n 2).isNone && (e.polled == 0 || decide (e.polled + 800000 ≤ s.td0)) then
      let s := s.onDie d fun x => { x with nimg := ⟨x.nimg.left.map fun o =>
        if o.ws == n then { o with phase := 2, polled := s.td0 } else o⟩ }
      s.askRemote d ⟨n, false, nodeAddr Fd.IMG_STAT.W, 0, false, none⟩
    else s

def execNimgPoll (d n : Nat) (fails : List (Nat × Bool)) (s : State) : Res :=
  s.guarded (s.isHead && s.alive d) (opNimgPoll d n fails)

/-- NEIGHBOUR_WRITE (17 R461): every 10 ms the head writes a node's THM_NBR with the median and the maximum of its neighbours'
latest NODE_TEMP, 0x8000 with none. -/
def opNeighbour (d n : Nat) (s : State) : State :=
  let t := fun (k : Nat) => (s.ctx d k 2).toInt
  let l := ([n - 1, n + 1].filter fun k => k != n && s.reachable d k).map t
  let w : Word := match l with
    | [] => 0x80008000#32
    | [a] => BitVec.ofNat 32 (ux 16 a * 65536 + ux 16 a)
    | a :: b :: _ => BitVec.ofNat 32 (ux 16 (max a b) * 65536 + ux 16 ((a + b) / 2))
  (s.askRemote d ⟨n, true, nodeAddr Fd.THM_NBR.W, w, false, none⟩).onHead d fun h => { h with
    nbrSent := (n, s.td0) :: h.nbrSent.filter fun e => e.1 != n }

/-- 10 ms have passed since the latest write to waystation n. -/
def State.nbrDue (s : State) (d n : Nat) : Bool :=
  match (s.head d).nbrSent.find? fun e => e.1 == n with
  | some e => decide (e.2 + 8000000 ≤ s.td0)
  | none => true

def execNeighbourWrite (d n : Nat) (s : State) : Res :=
  s.guarded (s.isHead && s.on d 7 && s.ringMode d == 3 && decide (1 ≤ n) && decide (n ≤ s.nodes d) && s.nbrDue d n) (opNeighbour d n)

/-! ### Classes B and C at both ends (09 R258-R260) -/

/-- Does the head owe this class A slot to a block of its own? -/
def State.slotOwed (s : State) (d : Nat) : Bool :=
  slotA s.td0 && (s.syncDue d || s.delayDue d || s.blockDue d || s.stateDue d || s.enumDue d || (s.assigned d).isSome)

/-- CTX_WRITE entries of a waystation become a block when no class B block to it is outstanding (10 R290). -/
def State.formCtx (s : State) (d n : Nat) : State :=
  let mine := ((s.head d).ctxQ.filter fun e => e.1 == n).take 15
  if mine.isEmpty || (s.frontBc d n 1).isSome then s else
    (s.onHead d fun h => { h with ctxQ := h.ctxQ.filter fun e => !mine.contains e }).queueBc d n 1 0 (pack4 (mine.map (·.2)))

/-- A block of a class waits at the head for waystation n: queued or to be sent again, or entries that make one. -/
def State.bcWaits (s : State) (d n cls : Nat) : Bool :=
  match s.frontBc d n cls with
  | some b => b.sent.isNone
  | none => cls == 1 && (s.head d).ctxQ.any fun e => e.1 == n

/-- The ring a block of a class would go to waystation n on, if one waits (R258). -/
def State.bcRing (s : State) (d n cls : Nat) : Option Ring :=
  if s.bcWaits d n cls then (s.shorter d n).map (·.1) else none

/-- The class that a ring's slot of this tick admits: the first in the slot's order with a block waiting for any waystation that the ring
serves (R245, R246, 01 R22, R23). -/
def State.classNow (s : State) (d : Nat) (r : Ring) : Option Nat :=
  (classOrder (s.td0 / 128 % 16)).find? fun cls => (List.range (s.nodes d)).any fun i => s.bcRing d (i + 1) cls == some r

/-- A block goes out toward its waystation on the shorter usable route. -/
def State.sendFront (s : State) (d n cls : Nat) (r : Ring) : State :=
  match s.frontBc d n cls with
  | some b =>
    let q := seqOf (s.head d).txSeq n cls
    let s := s.onFront d n cls fun o => { o with sent := some ((s.td0 : Int) + 128) }
    s.headTx d r ⟨slotA s.td0, true, BitVec.ofNat 2 cls, BitVec.ofNat 4 b.kind, 0, BitVec.ofNat 8 n, BitVec.ofNat 8 q, 0, 0,
      b.payload, 0, .normal⟩
  | none => s

/-- BC_BLOCK_SEND at the head: among blocks of the class the slot admits, that of waystation n goes. DESIGN CHOICE, log entry 40. -/
def opBcSend (d n : Nat) (s : State) : State :=
  match s.shorter d n with
  | none => s
  | some (r, _) =>
    match s.classNow d r with
    | none => s
    | some cls => if s.bcRing d n cls == some r && !s.slotTaken d r then (s.formCtx d n).sendFront d n cls r else s

def execBcBlockSend (d n : Nat) (s : State) : Res :=
  if s.isHead then
    s.guarded (s.ringMode d == 3 && s.td0 % 128 == 0 && decide (1 ≤ n) && decide (n ≤ s.nodes d) && !s.slotOwed d) (opBcSend d n)
  else s.guarded (s.alive 0) fun s => (s.nodeInsert 1).nodeInsert 2

/-- A block of the head is dropped (R260, 10 R290, R292, 21 R532). -/
def State.dropBc (s : State) (d : Nat) (b : BcBlock) : State :=
  let s := ((s.closeBc d b).sticky d Sk.RING.BC_DROPPED).bump d Fd.RING_BC.BC_DROPS 0 1
  if b.cls = 2 then s.nimgFail d b.n 2
  else if b.kind = 0 then s.stick d (0x1F + b.n) 2
  else if b.kind = 2 then s.endRemote d false 0
  else s

/-- The outstanding block is sent again, or dropped after its third re-send (R260). -/
def State.resend (s : State) (d : Nat) (b : BcBlock) : State :=
  if 3 ≤ b.resends then s.dropBc d b
  else s.onFront d b.n b.cls fun o => { o with sent := none, resends := o.resends + 1 }

/-- A block of the head is acknowledged (R259). -/
def State.acked (s : State) (d : Nat) (b : BcBlock) : State :=
  let s := s.closeBc d b
  if b.cls = 2 then
    (match (s.die d).nimg.left.find? (fun e => e.ws == b.n) with
      | some e => if e.phase = 0 then s.nimgQueue d b.n [] else s
      | none => s)
  else if b.kind = 2 then s.onHead d fun h => { h with remotes := match h.remotes with
    | r :: t => { r with ackAt := some s.td0 } :: t
    | [] => [] }
  else s

/-- ACK_RECEIVED at the head: an answer to the head. -/
def opHeadAck (d : Nat) (ack : BitVec 16) (s : State) : State :=
  let a := ack.toNat
  let n := bitsOf a 11 7 + 1
  let cls := if bitOf a 12 then 2 else 1
  match s.frontBc d n cls with
  | none => s
  | some b =>
    if b.sent.isNone || bitOf a 13 then s
    else if bitsOf a 15 14 = 1 then (if bitsOf a 6 0 = seqOf (s.head d).txSeq n cls then s.acked d b else s)
    else if bitsOf a 15 14 = 2 then s.resend d b
    else s

def State.nodeClose (s : State) (b : BcBlock) : State :=
  s.onNode fun n => { n with bcQ := n.bcQ.erase b, txSeq := putNodeSeq n.txSeq b.cls (nodeSeq n.txSeq b.cls + 1) }

def State.nodeResend (s : State) (b : BcBlock) : State :=
  if 3 ≤ b.resends then ((s.nodeClose b).sticky 0 Sk.RING.BC_DROPPED).bump 0 Fd.RING_BC.BC_DROPS 0 1
  else s.onNode fun n => { n with bcQ := onFirst (fun o => o.cls == b.cls) (fun o => { o with sent := none, resends := o.resends + 1 }) n.bcQ }

/-- ACK_RECEIVED at a node: an answer to this waystation. -/
def opNodeAck (ack : BitVec 16) (s : State) : State :=
  let a := ack.toNat
  let cls := if bitOf a 12 then 2 else 1
  match s.nodeFront cls with
  | none => s
  | some b =>
    if b.sent.isNone || !bitOf a 13 || s.number != bitsOf a 11 7 + 1 then s
    else if bitsOf a 15 14 = 1 then (if bitsOf a 6 0 = nodeSeq s.node.txSeq cls then s.nodeClose b else s)
    else if bitsOf a 15 14 = 2 then s.nodeResend b
    else s

def execAckReceived (d : Nat) (ack : BitVec 16) (s : State) : Res :=
  s.guarded (s.on d 7) fun s => if s.isHead then opHeadAck d ack s else opNodeAck ack s

/-- RESEND_TIMEOUT: 16 µs after the block's last symbol (R260). -/
def execResendTimeout (d n : Nat) (cls : BitVec 2) (s : State) : Res :=
  s.guarded (s.on d 7) fun s =>
    match (if s.isHead then s.frontBc d n cls.toNat else s.nodeFront cls.toNat) with
    | none => s
    | some b => match b.sent with
      | none => s
      | some t => if s.td0 < t + 12800 then s else if s.isHead then s.resend d b else s.nodeResend b

/-! ### Context fields on the ring (10 R290, R291) -/

/-- CTX_WRITE at its node. -/
def opCtxWrite (ring : Ring) (b : RingBlock) (s : State) : State :=
  let r := s.nodeReceive ring b
  if r.1 then r.2.each (entries4 b) fun s e => s.takeDown e.1 e.2 else r.2

def execCtxWrite (r : Ring) (blk : RingBlock) (s : State) : Res := s.guarded (s.toNode blk 1 0) (opCtxWrite r blk)

/-- CTX_DATA_SEND: the queue of changed up fields, lowest first, with their latest values; a block waiting for its re-send goes
first. Field 0 then reports silence anew. -/
def opCtxDataSend (s : State) : State :=
  if (s.nodeFront 1).isSome then s.nodeInsert 1
  else
    let fs := (sortBy (fun a b => decide (a ≤ b)) s.node.upQ).take 15
    if fs.isEmpty || (s.nodeTurn 1).isNone then s else
      let s := s.nodeQueue 1 1 (pack4 (fs.map fun f => (f, s.nodeField f)))
      let s := s.onNode fun n => { n with upQ := n.upQ.filter fun f => !fs.contains f }
      let s := s.nodeInsert 1
      s.when (fs.contains 0) fun s =>
        s.setNodeField 0 (BitVec.ofNat 16 (setBits ((s.nodeField 0).setWidth 32) 5 5 (s.rd 0 Fd.RING_STATUS.SILENT)).toNat)

def execCtxDataSend (s : State) : Res := s.guarded s.nodeMaySend opCtxDataSend

/-- CTX_DATA at the head: its values enter the context page. -/
def opCtxData (d : Nat) (ring : Ring) (b : RingBlock) (s : State) : State :=
  let r := s.headReceive d ring b
  if r.1 then r.2.each (entries4 b) fun s e => s.when (isUp e.1) fun s => s.putCtx d b.src.toNat e.1 e.2 else r.2

def execCtxData (d : Nat) (r : Ring) (blk : RingBlock) (s : State) : Res := s.guarded (s.toHead d blk 1 1) (opCtxData d r blk)

/-! ### Set-points (10 R286) -/

/-- SETPT: the entries of this waystation from the first good copy, in order. -/
def opSetpt (b : RingBlock) (s : State) : State :=
  let r := s.newCopy b.seq
  if !r.1 || s.number == 0 then r.2 else
    r.2.each (List.range (min 12 (field8 b 0 1))) fun s i =>
      let e := field8 b (1 + 5 * i) 5
      s.when (e / 2 ^ 35 % 32 + 1 == s.number) fun s => s.takeDown (e / 65536 % 4096) (BitVec.ofNat 16 e)

def execSetpt (blk : RingBlock) (s : State) : Res := s.guarded (s.hearsA blk 6) (opSetpt blk)

/-! ### Caravans (10 R278-R285) -/

/-- CARAVAN at a waystation: its manifests from the first good copy that holds them, once per CID, if it is trusted and in a
switching state; its RESULT bit in the copy it passes on. -/
def opCaravan (r : Ring) (b : RingBlock) (s : State) : State :=
  let cid : Byte := BitVec.ofNat 8 (field8 b 0 1)
  let base := nearestTo (2 ^ 40) (field8 b 2 5) s.td0
  let off := fun (x : Int) => (base : Int) * 8 + x
  let live := s.node.cids.filter fun e => decide ((s.td0 : Int) < e.2.2 + 16000)
  let s := s.onNode fun n => { n with cids := live }
  let take := fun (s : State) (m : Nat × Nat × Bool × List MEdge) =>
    if m.1 != s.number || !s.manifestOk m || s.node.cids.any (fun e => e.1 == cid && e.2.1 == m.2.1) then s else
      (s.onNode fun n => { n with cids := (cid, m.2.1, s.td0) :: n.cids }).acceptManifest m.2.1
        ⟨cid, m.2.2.2.map (fun e => { e with stamp := off e.stamp }), off (field8 b 7 3 % 2 ^ 21 : Nat)⟩
  let marks := s.confirms b
  let s := if s.number != 0 && s.trusted && s.device.switching then s.each (manifestsOf b) take else s
  if !marks then s else
    match s.nodeSends r with
    | some t =>
      if t.cls == 0 && t.seq == b.seq && t.delim == .normal then
        let w := BitVec.ofNat 32 (field8 t 60 4) ||| 1#32 <<< (s.number - 1)
        s.nodeReplace r (sealBlock { t with payload := t.payload.take 60 ++ beBytes 4 w.toNat })
      else s
    | none => s

def execCaravan (r : Ring) (blk : RingBlock) (s : State) : Res := s.guarded (s.hearsA blk 5) (opCaravan r blk)

/-- CARAVAN_BLOCK_SEND: the block assigned to the class A slot that starts now goes out on both rings (R250, R255), or an ENUM that waits for
a slot no other block holds (R254, R269). -/
def opCaravanBlockSend (d : Nat) (s : State) : State :=
  match s.assigned d with
  | none => (s.onHead d fun h => { h with enumWait := h.enumWait.tail, enumOut := h.enumOut + 1 }).sendA d 4 []
  | some a => (s.onHead d fun h => { h with slots := h.slots.filter fun x => x.start != s.td0 }).sendA d a.kind a.payload

def execCaravanBlockSend (d : Nat) (s : State) : Res :=
  s.guarded (s.slotOpen d && (match s.assigned d with
    | some _ => s.ringMode d == 3 && !s.firstBlockDue d
    | none => s.enumDue d && !s.blockDue d && !s.syncDue d && !s.delayDue d && !s.stateDue d)) (opCaravanBlockSend d)

/-- CARAVAN_FINALISE (R283): all copies are back, or 16,000 ticks have passed since the slot of the last block. -/
def opFinalise (d : Nat) (c : Caravan) (results : List Word) (s : State) : State :=
  let ok := results.foldl (· ||| ·) 0#32
  let miss := c.addr &&& ~~~ok
  let s := s.onHead d fun h => { h with caravans := h.caravans.erase c }
  let s := (s.wr d Fd.CAR_INFO.BLOCKS 0 c.blocks).wr d Fd.CAR_INFO.CID 0 c.cid.toNat
  let s := (s.wr d Fd.CAR_ADDR.W 0 c.addr.toNat).wr d Fd.CAR_OK.W 0 ok.toNat
  if miss = 0 then s
  else s.sticky d Sk.RING.CARAVAN_PARTIAL |>.each (bitList 32 miss.toNat) fun s i => s.stick d (0x20 + i) 1

def execCaravanFinalise (d : Nat) (cid : Byte) (returned : Nat) (results : List Word) (s : State) : Res :=
  s.guarded (s.isHead && s.on d 7) fun s =>
    match (s.head d).caravans.find? (fun c => c.cid == cid) with
    | none => s
    | some c => if returned < 2 * c.blocks && decide (s.td0 < c.lastStart + 16000) then s else opFinalise d c results s

/-! ### Streams (20 R514, R516) -/

/-- CAPTURE_SEND: the oldest CAPTURE block awaiting insertion. -/
def opCaptureSend (s : State) : State :=
  if (s.nodeFront 2).isSome then s.nodeInsert 2
  else
    match (s.die 0).recorder.queue with
    | [] => s
    | p :: rest =>
      if (s.nodeTurn 2).isNone then s
      else ((s.onRec 0 fun r => { r with queue := rest }).nodeQueue 2 0 p).nodeInsert 2

def execCaptureSend (s : State) : Res := s.guarded s.nodeMaySend opCaptureSend

/-- CAPTURE: the head stores a waystation's records. -/
def opCapture (d : Nat) (ring : Ring) (b : RingBlock) (s : State) : State :=
  let r := s.headReceive d ring b
  if r.1 then r.2.storeCapture d b.src.toNat b.payload else r.2

def execCapture (d : Nat) (r : Ring) (blk : RingBlock) (s : State) : Res := s.guarded (s.toHead d blk 2 0) (opCapture d r blk)

/-! ### Mode, reservations, soft reset (10 R293-R296) -/

/-- What a change of the mode in force ends and begins (R293; 21 R532): outside RUN submissions and class B and C blocks are
discarded; leaving OFF, links 1 to 32 come up after 1 ms without BREAK. DEDUCED, log entry 41. -/
def State.modeChange (s : State) (d old new : Nat) : State :=
  let s := s.nimgEnd d 5
  let s := s.when (old == 3) fun s =>
    ((s.discardBc d).onHead d fun h => { h with slots := [] }).each (s.head d).remotes fun s _ => s.endRemote d false 0
  let s := s.when (decide (new < 2)) fun s => s.onHead d fun h => { h with slots := [], stateOut := [], blockOut := none, enumWait := [] }
  let all := (List.range 32).map fun k => (k + 1, s.td0)
  let s := s.when (old == 0 || new == 0) fun s => s.onHead d fun h => { h with breakA := all, breakB := all }
  let s := s.when (new == 0) fun s => s.each (List.range 33) fun s k => (s.setLink d .a (k + 1) false).setLink d .b (k + 1) false
  s.when (decide (old < 2)) fun s => s.onHead d fun h => { h with
    lastSync := (s.td0 + 7999) / 8000, lastDelay := (s.td0 + 799999) / 800000 }

/-- MODE takes a value. DEDUCED, log entry 41. -/
def opMode (d mode : Nat) (s : State) : State :=
  let old := s.rd d Fd.RING_CTRL.MODE
  let s := s.wr d Fd.RING_CTRL.MODE 0 mode
  if old = mode % 4 then s else s.modeChange d old (mode % 4)

/-- A write of RING_CTRL: MODE first, then ENUM_GO under it (R269); a node ignores it (R293). -/
def opRingCtrl (d : Nat) (value : Word) (s : State) : Res :=
  if !s.isHead then .next s
  else
    let s := opMode d (bitsOf value.toNat 1 0) s
    if bitOf value.toNat 31 then opEnumGo d s else .next s

/-- RING_MODE_WRITE. -/
def execRingModeWrite (d : Nat) (value : Word) (s : State) : Res := s.sanely (if s.alive d then opRingCtrl d value s else .next s)

/-- A write of RRES[i] (R295). -/
def opRres (d i : Nat) (value : Word) (s : State) : State :=
  let v := value &&& 0xB00F0FFF#32
  if s.device != .config then s.sticky d Sk.RING.RES_REJECTED
  else if bitOf v.toNat 31 && (bitsOf v.toNat 19 16 == 0 || decide (8 < bitsOf v.toNat 19 16)) then s.sticky d Sk.RING.RES_REJECTED
  else s.putCell d (Fd.RRES.W.key i) v

def execRresWrite (d i : Nat) (value : Word) (s : State) : Res := s.guarded (s.alive d && decide (i < 16)) (opRres d i value)

/-- SOFT_RESET of the RING page, what it does beside its registers (R296). -/
def opRingReset (d : Nat) (s : State) : State :=
  if s.isHead then
    let s := (s.discardBc d).onHead d fun h => { h with
      ctxQ := [], remotes := [], acks := [], enumOut := 0, delayOut := none, slots := []
      caravans := h.caravans.filter fun c => !h.slots.any fun a => a.kind == 5 && a.cid == c.cid }
    opMode d 0 s
  else
    let s := s.each (s.node.bcQ.filter BcBlock.begun) fun s b => s.nodeClose b
    let s := s.when (!(s.die 0).recorder.queue.isEmpty) fun s => s.onRec 0 fun r => { r with queue := [], lost := true }
    s.onNode fun n => { n with bcQ := [], upQ := upFields }

/-- BLOCK_EN of a node's RING page: without a ring it is trusted and never silent (11 R318); the silence window starts anew with it. -/
def opRingEn (on : Bool) (s : State) : State :=
  if s.isHead then s
  else if on then
    let s := s.onNode fun n => { n with lastHm := s.td0 }
    if s.trusted then s else (s.sticky 0 Sk.RING.UNTRUSTED).dropManifests.blockAll.reportState
  else
    let s := (s.wrB 0 Fd.RING_STATUS.SILENT 0 false).lower 0 0x70
    ((s.onNode fun n => { n with silentAt := none }).unblock).reportState

end Sys2Proof.Machine
end

