-- ==== Sys2Proof/Machine/LoopEnd.lean ====
section
/-! DEFINITION. The end of a run: the release of its staged outputs (07 R192, R193; 10 R286). -/

namespace Sys2Proof.Machine

/-- The staged values in issue order, a later one to a destination in place of an earlier one (R192). -/
def lastOuts : List (OutDest × BitVec 16) → List (OutDest × BitVec 16)
  | [] => []
  | o :: t => if t.any fun p => p.1 == o.1 then lastOuts t else o :: lastOuts t

/-- Each element once, first occurrences kept. -/
def distinct {α : Type} [BEq α] : List α → List α
  | [] => []
  | a :: t => a :: (distinct t).filter fun b => !(b == a)

/-- Kind 2 words leave as one transfer per destination slot; refused, it delivers none of them (R193). -/
def State.releaseRemote (s : State) (d slot : Nat) (outs : List (OutDest × BitVec 16)) : State :=
  let dests := distinct (outs.filterMap fun o => match o.1 with | .remote die sl _ => some (die, sl) | _ => none)
  s.each dests fun s t => (s.submitTo d 0 slot t.1 (.setPoints t.2 (outs.filterMap fun o => match o.1 with
    | .remote die sl w => if die = t.1 ∧ sl = t.2 then some (w, o.2) else none
    | _ => none))).2

/-- The mode 5 words of a run at the head, as (waystation, field, value); writes in the wrong direction and to waystations not
enumerated are discarded (10 R270, R289). -/
def State.ringOuts (s : State) (d : Nat) (outs : List (OutDest × BitVec 16)) : List (Nat × Nat × BitVec 16) :=
  outs.filterMap fun o => match o.1 with
    | .context n f => if isDown f && decide (1 ≤ n) && decide (n ≤ s.nodes d) then some (n, f, o.2) else none
    | _ => none

/-- Entry of a SETPT block (10 R286). -/
def setptEntry (e : Nat × Nat × BitVec 16) : List Byte := [BitVec.ofNat 8 ((e.1 - 1) * 8)] ++ beBytes 2 e.2.1 ++ beBytes 2 e.2.2.toNat

/-- Blocks of at most twelve entries, all entries of one waystation in one block. -/
def packSetpt (groups : List (List (Nat × Nat × BitVec 16))) : List (List (Nat × Nat × BitVec 16)) :=
  groups.foldl (fun blocks g => match blocks.getLast? with
    | some b => if b.length + g.length ≤ 12 then blocks.dropLast ++ [b ++ g] else blocks ++ [g]
    | none => [g]) []

/-- One SETPT submission carries the mode 5 words of a head run; the head's copy changes with its admission (10 R286, R290). -/
def State.releaseRing (s : State) (d slot : Nat) (outs : List (OutDest × BitVec 16)) : State :=
  let es := s.ringOuts d outs
  if es.isEmpty then s else
    let ws := s.farthestFirst d (distinct (es.map (·.1)))
    let groups := (ws.filter fun n => (s.shorter d n).isSome).map fun n => es.filter fun e => e.1 == n
    let over12 := groups.any fun g => decide (12 < g.length)
    let blocks := (packSetpt groups).map fun b =>
      ([BitVec.ofNat 8 b.length] ++ (b.map setptEntry).flatten, distinct (b.map (·.1)))
    if over12 then s.refuseRing d
    else
      let r := s.submitRing d 1 slot 6 0 blocks
      if r.1.isSome then r.2.each es fun s e => s.putCtx d e.1 e.2.1 (downValue e.2.1 e.2.2) else r.2

/-- A node's mode 5 words take effect at once (10 R289). -/
def State.releaseNode (s : State) (outs : List (OutDest × BitVec 16)) : State :=
  s.each outs fun s o => match o.1 with
    | .context _ f => s.when (isUp f) fun s => s.setNodeField f o.2
    | _ => s

/-- Words of this die: pending set-points, and planner references for the bank not in force (R193). -/
def State.releaseLocal (s : State) (d : Nat) (outs : List (OutDest × BitVec 16)) : State :=
  s.each outs fun s o => match o.1 with
    | .slotWord sl w => s.spPend d sl w 0 o.2
    | .ref i => s.wr d Fd.REF_PEND.VALUE i o.2.toNat
    | _ => s

/-- The run of a slot ends: SLOT_TIME, the slot idle, the instance free (06 R161, R164). -/
def State.runEnds (s : State) (d e i : Nat) (x : Inst) : State :=
  let n := min x.issues 65535
  let s := s.wr d Fd.SLOT_TIME.LAST_ISSUES x.slot n
  let s := s.wr d Fd.SLOT_TIME.MAX_ISSUES x.slot (max n (s.rd d Fd.SLOT_TIME.MAX_ISSUES x.slot))
  (s.setCondition d x.slot 0).onInst d e i fun _ => Inst.idle

/-- END is complete: staged outputs are released, and the run ends (R192, R193). -/
def State.release (s : State) (d e i : Nat) : State :=
  let x := s.inst d e i
  let outs := lastOuts x.staged
  let s := (s.releaseLocal d outs).releaseRemote d x.slot outs
  let s := if s.isHead then s.releaseRing d x.slot outs else s.releaseNode outs
  s.runEnds d e i x

/-- The runs of a die whose END is complete, by ascending slot (R195). -/
def State.endsDue (s : State) (d : Nat) : List (Nat × Nat) :=
  let due := (List.range 6).flatMap fun e => ((List.range 8).filter fun i =>
    let x := s.inst d e i
    x.busy && x.ending && decide (x.first + 16 * (x.issues : Int) ≤ s.td0)).map fun i => (e, i)
  sortBy (fun a b => decide ((s.inst d a.1 a.2).slot ≤ (s.inst d b.1 b.2).slot)) due

def State.storesDue (s : State) (d : Nat) : List Store := (s.die d).le.stores.filter fun t => decide (t.tick ≤ s.td0)

/-- The destinations written on a die in this tick, each with the die and slot that write it (06 R176). -/
def State.written (s : State) (d : Nat) : List ((OutDest × Nat) × (Nat × Nat)) :=
  let at_ := fun (o : OutDest) => match o with
    | .remote _ _ _ => (o, 8)
    | o => (o, d)
  ((s.storesDue d).map fun t => (at_ (.stateWord t.addr), (d, t.slot))) ++
    ((s.endsDue d).flatMap fun e => let x := s.inst d e.1 e.2
      (lastOuts x.staged).map fun o => (at_ o.1, (d, x.slot)))

/-- Dies whose slots write one destination in this tick that another slot writes too (06 R176). -/
def clashes : List ((OutDest × Nat) × (Nat × Nat)) → List Nat
  | [] => []
  | w :: t => ((t.filter fun v => v.1 == w.1 && v.2 != w.2).flatMap fun v => [w.2.1, v.2.1]) ++ clashes t

/-- A write of state memory comes in, unless the host wrote the word in the engine cycle before (06 R155, R156). -/
def State.commit (s : State) (d : Nat) (t : Store) : State :=
  if (s.die d).le.hostW.any fun h => h.1 == t.addr && decide (t.tick - 2 ≤ h.2) then s
  else s.putCell d (stateKey t.addr) (t.val.setWidth 32)

/-- What the loop engines complete at the start of a tick: the writes of state memory that become visible, the runs that end. Two slots that
write one destination in one tick are a misuse (06 R155, R164, R176). -/
def State.leComplete (s : State) : State :=
  let live := s.dieList.filter fun d => s.on d 5
  let bad := distinct (clashes (live.flatMap s.written))
  let s := s.each bad fun s d => s.misuse 176 d 5
  s.each live fun s d =>
    let now := s.storesDue d
    let ends := s.endsDue d
    let s := s.each now fun s t => s.commit d t
    let s := s.onDie d fun x => { x with le := { x.le with
      stores := x.le.stores.filter (fun t => !decide (t.tick ≤ s.td0)), hostW := x.le.hostW.filter fun h => decide (s.td0 ≤ h.2 + 2) } }
    s.each ends fun s e => s.release d e.1 e.2

/-- END is issued: the run ends when the issue is complete (06 R164). -/
def opEnd (d e i : Nat) (s : State) : Res :=
  .next (s.onInst d e i fun x => { x with issues := x.issues + 1, ending := true })

/-- END. -/
def execEndRun (d e i : Nat) (s : State) : Res :=
  s.issue d e i .stop fun _ _ => if isInvalid (s.fetch d e i) then .next s else opEnd d e i s

/-- INVALID_INSTRUCTION: a reserved opcode, a MODE not allowed, or a subfield without meaning executes as END (R180). -/
def execInvalidInstruction (d e i : Nat) (s : State) : Res :=
  s.issue d e i .stop fun _ _ => if isInvalid (s.fetch d e i) then opEnd d e i s else .next s

end Sys2Proof.Machine
end

