-- ==== Sys2Proof/Machine/Modulate.lean ====
section
/-! DEFINITION. Modulation across a cell stack (08 R205-R229): from references to the edges of one window. Angles are in 2^-32
turn; a value of m at an angle is exact, as a number over the window's width. -/

namespace Sys2Proof.Machine

/-! ### The phase reference (R209) -/

/-- The reference of a window: its start, width, NE, and m at the NE + 1 points. -/
structure PRef where
  a : Int
  w : Int
  ne : Nat
  pts : List Int
  deriving DecidableEq, Repr

/-- m at point i, and whether it was limited. DEDUCED, log entry 35. -/
def refPoint (md mq m3 ph a w : Int) (ne i : Nat) : Int × Bool :=
  let t := (a + ph) * ne + w * i
  let x := BitVec.ofInt 16 ((t + (ne : Int) * 2 ^ 15) / ((ne : Int) * 2 ^ 16))
  let x3 := BitVec.ofInt 16 ((3 * t + (ne : Int) * 2 ^ 15) / ((ne : Int) * 2 ^ 16))
  let sum := product md (sincosOut false x).toInt + product mq (sincosOut true x).toInt + product m3 (sincosOut false x3).toInt
  let y := (sum + 2 ^ 15) / 2 ^ 16
  (satS 16 y, satS 16 y != y)

/-- m between points, times the window's width. DEDUCED, log entry 35. -/
def PRef.num (r : PRef) (th : Int) : Int :=
  let u := (th - r.a) * r.ne
  let i := min (u / r.w).toNat (r.ne - 1)
  let p := r.pts.getD i 0
  p * r.w + (r.pts.getD (i + 1) 0 - p) * (u - i * r.w)

/-- Starts of the linear pieces after the window's start. -/
def PRef.pieces (r : PRef) : List Int :=
  (List.range (r.ne - 1)).map fun i => r.a - (-(r.w * (i + 1)) / r.ne)

/-! ### Cells and edges (R216-R218) -/

structure CellRun where
  k : Nat
  st : Nat
  last : Option Int
  ofs : Int
  key : Int
  fresh : Bool
  edges : List PEdge
  cut : Bool
  deriving DecidableEq, Repr

/-- An edge the cell receives whatever it holds (R216, R229). -/
def CellRun.force (c : CellRun) (th : Int) (st : Nat) (mark : Bool) : CellRun :=
  { c with edges := c.edges ++ [⟨mark, st, th⟩], st := st, last := some th }

/-- Has D passed since the cell's last kept edge? -/
def CellRun.rested (c : CellRun) (th dwell : Int) : Bool :=
  match c.last with
  | some l => decide (dwell ≤ th - l)
  | none => true

/-- A candidate edge: kept if it changes the state, D has passed, and fewer than eight are kept (R217, R218). -/
def CellRun.add (c : CellRun) (th : Int) (st : Nat) (dwell : Int) : CellRun :=
  if st = c.st || !c.rested th dwell then c
  else if 8 ≤ c.edges.length then { c with cut := true }
  else c.force th st false

/-! ### Searches -/

/-- The smallest x of (lo, hi] that differs from lo under a test that changes at most once. -/
def firstDiff (p : Int → Bool) : (fuel : Nat) → (lo hi : Int) → Option Int
  | 0, _, _ => none
  | f + 1, lo, hi =>
    if p lo == p hi then none
    else if hi ≤ lo + 1 then some hi
    else
      let m := (lo + hi) / 2
      if p m == p lo then firstDiff p f m hi else firstDiff p f lo m

/-- Splits of a window at ascending points inside it. -/
def spans (a e : Int) (cuts : List Int) : List (Int × Int) :=
  let l := a :: (sortBy (fun x y => decide (x ≤ y)) (cuts.filter fun x => decide (a < x) && decide (x < e)))
  l.zip (l.drop 1 ++ [e])

/-! ### Phase-shifted carriers (R219, R220) -/

/-- The carrier of a rank: S·θ + off counts quarters of `q` per quarter period, with 4q per period. -/
structure Carrier where
  s : Int
  off : Int
  q : Int
  deriving DecidableEq, Repr

def carrierOf (nc cph nAct rank : Nat) : Carrier := ⟨nc * (2 * nAct), cph * (nAct * 2 ^ 17) + rank * 2 ^ 32, nAct * 2 ^ 31⟩

/-- |c_k| over 4q. -/
def Carrier.amp (c : Carrier) (th : Int) : Int := ((4 * (((c.s * th + c.off) % (4 * c.q)) - 2 * c.q).natAbs : Int) - 4 * c.q).natAbs

/-- Angles in a window at which the carrier turns or crosses zero. -/
def Carrier.turns (c : Carrier) (a e : Int) : List Int :=
  if c.q ≤ 0 || c.s ≤ 0 then [] else
    let m0 := (c.s * a + c.off) / c.q
    let n := ((c.s * e + c.off) / c.q - m0 + 1).toNat
    (List.range n).map fun i => -((c.off - (m0 + 1 + i) * c.q) / c.s)

/-- Conditions whose signs make the state of a cell (R220, with the limits of R209). -/
def pscTests (r : PRef) (c : Carrier) (ofs : Int) : List (Int → Bool) :=
  [ fun th => decide (c.amp th * r.w * 2 ^ 15 < (r.num th + ofs * r.w) * (4 * c.q)),
    fun th => decide (c.amp th * 2 ^ 15 < 32767 * (4 * c.q)),
    fun th => decide (c.amp th * r.w * 2 ^ 15 < -(r.num th + ofs * r.w) * (4 * c.q)),
    fun th => decide (c.amp th < 4 * c.q) ]

def pscState (r : PRef) (c : Carrier) (ofs th : Int) : Nat :=
  match (pscTests r c ofs).map fun p => p th with
  | [a, b, x, y] => if a && b then 1 else if x && y then 2 else 3
  | _ => 3

/-- The edges of one cell under its carrier: candidates are the first angles of each state (R220). -/
def pscCell (r : PRef) (c : Carrier) (e dwell : Int) (x : CellRun) : CellRun :=
  let cuts := r.pieces ++ c.turns r.a e
  let bps := (spans r.a e cuts).flatMap fun p =>
    p.1 :: sortBy (fun x y => decide (x ≤ y)) ((pscTests r c x.ofs).filterMap fun t => firstDiff t 80 p.1 (p.2 - 1))
  let first := pscState r c x.ofs r.a
  let x := if x.fresh then x.force r.a first false else x.add r.a first dwell
  (bps.foldl (fun (acc : Nat × CellRun) th =>
    let st := pscState r c x.ofs th
    if st = acc.1 then acc else (st, acc.2.add th st dwell)) (first, x)).2

/-- Is a reference of a cell limited in the window (R209)? -/
def pscClips (r : PRef) (x : CellRun) : Bool := r.pts.any fun p => satS 16 (p + x.ofs) != p + x.ofs

/-! ### Levels (R221, R226) -/

/-- l(θ) of the reference. -/
def nlsLevel (r : PRef) (n : Nat) (th : Int) : Int := max (-(n : Int)) (min n ((2 * n * r.num th + 2 ^ 15 * r.w) / (2 ^ 16 * r.w)))

/-- The angles in (u, v] at which a level that only rises or only falls takes each new value, with the value. -/
def stepsIn (l : Int → Int) (u v : Int) : List (Int × Int) :=
  let lu := l u
  let lv := l v
  (List.range (lv - lu).natAbs).filterMap fun i =>
    let t : Int := if lu < lv then lu + 1 + (i : Int) else lu - 1 - (i : Int)
    (firstDiff (fun th => if lu < lv then decide (t ≤ l th) else decide (l th ≤ t)) 80 u v).map fun th => (th, t)

/-- The level at the window's start, and every change of one level after it. -/
def nlsEvents (r : PRef) (n : Nat) (e : Int) : Int × List (Int × Int) :=
  let sp := spans r.a e r.pieces
  let starts := sp.map (·.1)
  (nlsLevel r n r.a,
   (sp.zip (starts.drop 1 ++ [e])).flatMap fun p =>
     stepsIn (nlsLevel r n) p.1.1 (p.1.2 - 1) ++ (if p.2 < e then stepsIn (nlsLevel r n) (p.2 - 1) p.2 else []))

/-- A pattern: its angles, each with the sign of its step. -/
abbrev Pattern := List (Int × Int)

def patSum (p : Pattern) (f : Int → Bool) : Int := (p.filter fun e => f e.1).foldl (fun n e => n + e.2) 0

def patHalf (p : Pattern) (x : Int) : Int :=
  if x < 2 ^ 30 then patSum p fun al => decide (al ≤ x) else patSum p fun al => decide (al < 2 ^ 31 - x)

/-- The level of a pattern at x (R226), before its clamp. -/
def patLevel (p : Pattern) (x : Int) : Int := if x < 2 ^ 31 then patHalf p x else -(patHalf p (x - 2 ^ 31))

/-- The clamped level at an angle of the domain; `sh` is PH + ψ. -/
def oppLevel (p : Pattern) (n : Nat) (sh th : Int) : Int := max (-(n : Int)) (min n (patLevel p ((th + sh) % 2 ^ 32)))

/-- The level at the window's start, and each angle after it at which the pattern may step, with the level there. -/
def oppEvents (p : Pattern) (n : Nat) (sh a e : Int) : Int × List (Int × Int) :=
  let xs := [0, 2 ^ 31] ++ p.flatMap fun s => [s.1, 2 ^ 31 - s.1, 2 ^ 31 + s.1, 2 ^ 32 - s.1]
  let t0 := (a + sh) / 2 ^ 32
  let turns := (List.range (((e - a) / 2 ^ 32).toNat + 2)).map fun (i : Nat) => t0 + (i : Int)
  let ths := (turns.flatMap fun t => xs.map fun x => t * 2 ^ 32 + x - sh).filter fun th => decide (a < th) && decide (th < e)
  (oppLevel p n sh a, (sortBy (fun x y => decide (x ≤ y)) ths).map fun th => (th, oppLevel p n sh th))

/-! ### Sorted balancing (R222-R224) -/

structure NlsRun where
  cells : List CellRun
  applied : Int
  atStart : Bool
  deriving DecidableEq, Repr

/-- Lowest or highest key; equal keys go to the lower k. -/
def pick (low : Bool) : List CellRun → Option CellRun
  | [] => none
  | c :: t =>
    match pick low t with
    | none => some c
    | some b =>
      let better := if low then decide (c.key < b.key) else decide (b.key < c.key)
      if better || (c.key == b.key && decide (c.k ≤ b.k)) then some c else some b

/-- Eligible at an angle (R223). -/
def NlsRun.ok (_ : NlsRun) (c : CellRun) (th dwell : Int) : Bool := c.rested th dwell && decide (c.edges.length < 8)

def NlsRun.move (r : NlsRun) (k st : Nat) (th dwell : Int) : NlsRun :=
  { r with cells := r.cells.map fun c => if c.k = k then (if r.atStart && c.fresh then { c with st := st } else c.add th st dwell) else c }

/-- A change toward a target: whether |l| rises, the state of inserted cells, whether they charge. -/
def changeOf (applied target : Int) (iphNeg : Bool) : Bool × Nat × Bool :=
  let up := decide (applied < target)
  let rise := if up then decide (0 ≤ applied) else decide (applied ≤ 0)
  let pos := if rise then up else decide (0 < applied)
  (rise, if pos then 1 else 2, pos != iphNeg)

/-- Changes of one level at an angle until the target is met or no cell is eligible; then the angle at which one will be. -/
def NlsRun.seek : (fuel : Nat) → NlsRun → (target th dwell : Int) → (iphNeg : Bool) → NlsRun × Option Int
  | 0, r, _, _, _, _ => (r, none)
  | f + 1, r, target, th, dwell, iphNeg =>
    if r.applied = target then (r, none) else
      let ch := changeOf r.applied target iphNeg
      let pool := r.cells.filter fun c => c.st == (if ch.1 then 3 else ch.2.1)
      match pick (if ch.1 then ch.2.2 else !ch.2.2) (pool.filter fun c => r.ok c th dwell) with
      | some c =>
        let r := r.move c.k (if ch.1 then ch.2.1 else 3) th dwell
        NlsRun.seek f { r with applied := if r.applied < target then r.applied + 1 else r.applied - 1 } target th dwell iphNeg
      | none =>
        let later := (pool.filter fun c => decide (c.edges.length < 8)).filterMap fun c => c.last.map (· + dwell)
        (r, (later.filter fun x => decide (th < x)).foldl (fun m x => some (match m with | none => x | some y => min x y)) none)

/-- The exchange at the window's start (R224). -/
def NlsRun.balance (r : NlsRun) (iphNeg : Bool) (thr th dwell : Int) : NlsRun :=
  if r.applied = 0 || thr = 0x7FFF then r else
    let ins := if 0 < r.applied then 1 else 2
    let charging := (decide (0 < r.applied)) != iphNeg
    let pool := fun (st : Nat) => r.cells.filter fun c => c.st == st && r.ok c th dwell
    match pick (!charging) (pool ins), pick charging (pool 3) with
    | some o, some i =>
      if thr ≤ (if charging then o.key - i.key else i.key - o.key) then (r.move o.k 3 th dwell).move i.k ins th dwell else r
    | _, _ => r

/-- The window's start is over: cells that began from BLOCK receive their edge at a. -/
def NlsRun.settle (r : NlsRun) (a : Int) : NlsRun :=
  { r with atStart := false, cells := r.cells.map fun c => if c.fresh then (c.force a c.st false) else c }

/-- The rest of the window: each change at its angle, a change that found no eligible cell at the first angle at which one is. -/
def NlsRun.go : (fuel : Nat) → NlsRun → (target : Int) → (wait : Option Int) → (events : List (Int × Int)) →
    (e dwell : Int) → (iphNeg : Bool) → NlsRun
  | 0, r, _, _, _, _, _, _ => r
  | f + 1, r, target, wait, events, e, dwell, iphNeg =>
    let next := match wait, events with
      | some w, (th, t) :: rest => if w < th then some (w, target, events) else some (th, t, rest)
      | some w, [] => some (w, target, [])
      | none, (th, t) :: rest => some (th, t, rest)
      | none, [] => none
    match next with
    | none => r
    | some (th, t, rest) =>
      if e ≤ th then r else
        let q := NlsRun.seek 1024 r t th dwell iphNeg
        NlsRun.go f q.1 t q.2 rest e dwell iphNeg

/-- Cells of both signs together (left by another mode): those of the sign that loses go to Z at the window's start. -/
def oneSign (cells : List CellRun) (target a dwell : Int) : List CellRun :=
  let n := fun (st : Nat) => (cells.filter fun c => c.st == st).length
  if n 1 = 0 || n 2 = 0 then cells else
    let keep := if 0 < target then 1 else if target < 0 then 2 else if n 2 ≤ n 1 then 1 else 2
    cells.map fun c => if c.st != keep && c.st != 3 then c.add a 3 dwell else c

/-- A window planned by levels (R221-R224, R226). -/
def levelPlan (cells : List CellRun) (start : Int) (events : List (Int × Int)) (a e dwell thr : Int) (iphNeg : Bool) : List CellRun :=
  let cells := cells.map fun c => if c.fresh then { c with st := 3 } else c
  let cells := oneSign cells start a dwell
  let n := fun (st : Nat) => ((cells.filter fun c => c.st == st).length : Int)
  let q := NlsRun.seek 1024 ⟨cells, n 1 - n 2, true⟩ start a dwell iphNeg
  let r := (q.1.balance iphNeg thr a dwell).settle a
  (NlsRun.go (events.length + 9 * cells.length + 16) r start q.2 events e dwell iphNeg).cells

end Sys2Proof.Machine
end

