-- ==== Sys2Proof/Machine/Planner.lean ====
section
/-! DEFINITION. The edge planner (08): phase groups, references, plans, members, and the emission of caravans (10 R278-R285). -/

namespace Sys2Proof.Machine

def State.onEp (s : State) (d : Nat) (f : Ep → Ep) : State := s.onDie d fun x => { x with ep := f x.ep }

/-! ### Groups (R203-R205) -/

def groupValid (g : Nat) (r : Nat) : Bool := bitOf g (8 * r + 7)
def groupDie (g : Nat) (r : Nat) : Nat := bitsOf g (8 * r + 2) (8 * r)

/-- Does a group name die d in ring slot r? -/
def inSlot (g d r : Nat) : Bool := groupValid g r && groupDie g r == d

/-- The role in which a die acts under a ROLE and a group: 0 off, 1 planner, 2 member (R203, R204). -/
def actsAs (role g d : Nat) : Nat :=
  match role with
  | 1 => if inSlot g d 0 then 1 else 0
  | 2 => if [1, 2, 3].any (inSlot g d) then 2 else 0
  | _ => 0

/-- The role a plan that starts now finds. -/
def State.epRole (s : State) (d : Nat) : Nat := actsAs (s.rd d Fd.EP_CFG.ROLE) (s.rd d Fd.EP_GROUP.W) d

/-- A role that the group does not give (R204). -/
def State.badRole (s : State) (d : Nat) : Bool :=
  (s.rd d Fd.EP_CFG.ROLE == 1 || s.rd d Fd.EP_CFG.ROLE == 2) && s.epRole d == 0

/-- CFG_ERR where the role is bad (R204). -/
def State.judgeRole (s : State) (d : Nat) : State := s.when (s.badRole d) (·.sticky d Sk.EP.CFG_ERR)

/-! EP_CFG, EP_GROUP and EP_TIMING in force (R206): as the latest plan start took them; on a die whose SWAP starts no plan, as that SWAP
found them; before either, as written. DESIGN CHOICE, log entry 36. -/

def State.epWords (s : State) (d : Nat) : Word × Word × Word :=
  (s.cell d (Fd.EP_CFG.W.key 0), s.cell d (Fd.EP_GROUP.W.key 0), s.cell d (Fd.EP_TIMING.W.key 0))

def State.epForce (s : State) (d : Nat) : Word × Word × Word := ((s.die d).ep.cfg).getD (s.epWords d)

def State.takeCfg (s : State) (d : Nat) : State := s.onEp d fun e => { e with cfg := some (s.epWords d) }

/-- The group in force. -/
def State.group (s : State) (d : Nat) : Nat := (s.epForce d).2.1.toNat

/-- The role in force. -/
def State.roleNow (s : State) (d : Nat) : Nat := actsAs (bitsOf (s.epForce d).1.toNat 31 30) (s.group d) d

/-- The LEAD in force. -/
def State.leadNow (s : State) (d : Nat) : Nat := bitsOf (s.epForce d).2.2.toNat 15 0

/-- The ring slot of a member. -/
def State.memberSlot (s : State) (d : Nat) : Nat := ([1, 2, 3].find? (inSlot (s.group d) d)).getD 0

def State.cellMode (s : State) (d k : Nat) : Nat := s.rd d Fd.CELL_CFG.MODE k % 3

/-! ### References and SWAP of bank kind 1 (R208, R210, R211, R214) -/

/-- All pending references come into force (R208). -/
def State.copyRefs (s : State) (d : Nat) : State :=
  s.each (List.range 132) fun s i => s.wr d Fd.REF_ACT.VALUE i (s.rd d Fd.REF_PEND.VALUE i)

/-- Every cell of a planner, or those of one ring slot, begin their next window from BLOCK (R210, R216, R234). -/
def State.fromBlock (s : State) (d : Nat) (p : Nat → Bool) : State :=
  let fresh (cs : List PCell) (k : Nat) : PCell :=
    if p k then { cs.getD k PCell.zero with fresh := true } else cs.getD k PCell.zero
  s.onEp d fun e => { e with cells := (List.range 128).map (fresh e.cells) }

/-- A request for a plan (R212, R214). DEDUCED, log entry 36. -/
def State.askPlan (s : State) (d : Nat) (r : PReq) : State :=
  let e := (s.die d).ep
  if e.running.isNone then
    let s := s.when e.asked.isSome (·.sticky d Sk.EP.PLAN_DROPPED)
    s.onEp d fun e => { e with asked := some r, member := e.member.map fun m => { m with gotV := false, gotO := false } }
  else
    let s := s.when e.waiting.isSome (·.sticky d Sk.EP.PLAN_DROPPED)
    s.onEp d fun e => { e with waiting := some r, member := e.member.map fun m => { m with gotV := false, gotO := false } }

/-- A member's two transfers to its planner, the die in its slot 0 (R204, R211): the last voltage received from each of its ring's 32
waystations, and the pending OFS of its ring's cells. -/
def State.memberSend (s : State) (d : Nat) : State :=
  let g := s.group d
  if !groupValid g 0 then s else
    let volts := (List.range 32).map fun i => s.ctx d (i + 1) 0xC
    let ofs := (List.range 32).map fun i => BitVec.ofNat 16 (s.rd d Fd.REF_PEND.VALUE (4 + 32 * s.memberSlot d + i))
    ((s.submitTo d 1 0 (groupDie g 0) (.memberVolts volts)).2.submitTo d 1 0 (groupDie g 0) (.memberOffsets ofs)).2

/-- A SWAP with bank kind 1, with the compares of a recurring entry on an angle domain (R208, R210, R236). -/
def opSwapRefs (d : Nat) (cmp : Option (Int × Int)) (s : State) : State :=
  if !s.isHead || !s.on d 6 then s else
    let s := (s.copyRefs d).judgeRole d
    let s := s.when (s.epRole d != 1) (·.takeCfg d)
    match s.epRole d with
    | 1 =>
      if !s.device.switching then
        (s.each (List.range 128) fun s k => s.wr d Fd.CELL_CFG.STATE k 0).fromBlock d fun _ => true
      else match cmp with
        | some c => s.askPlan d ⟨c.1, c.2, s.td0⟩
        | none => s
    | 2 => s.memberSend d
    | _ => s

/-! ### A plan (R205-R229) -/

/-- Do all valid members' transfers stand (R212)? -/
def State.membersIn (s : State) (d : Nat) : Bool :=
  let g := s.rd d Fd.EP_GROUP.W
  [1, 2, 3].all fun r => !groupValid g r || (let m := (s.die d).ep.member.getD (r - 1) Member.zero; m.gotV && m.gotO)

/-- A member whose transfers have not arrived is planned with its last complete pair (R212). -/
def State.takeMembers (s : State) (d : Nat) : State :=
  let g := s.rd d Fd.EP_GROUP.W
  let stale := [1, 2, 3].any fun r => groupValid g r && (let m := (s.die d).ep.member.getD (r - 1) Member.zero; !(m.gotV && m.gotO))
  s.when stale (·.sticky d Sk.EP.VOLT_STALE)

/-- Voltage and offset of cell k (R207, R211, R212; 10 R289). -/
def State.cellData (s : State) (d k : Nat) : BitVec 16 × BitVec 16 :=
  if k < 32 then (s.ctx d (k + 1) 0xC, BitVec.ofNat 16 (s.rd d Fd.REF_ACT.VALUE (4 + k)))
  else
    let m := (s.die d).ep.member.getD (k / 32 - 1) Member.zero
    (m.volts.getD (k % 32) 0, m.ofs.getD (k % 32) 0)

/-- Is a cell in a valid ring slot? -/
def State.cellIn (s : State) (d k : Nat) : Bool := groupValid (s.rd d Fd.EP_GROUP.W) (k / 32)

/-- The active cells of a plan, ascending (R205, R216). -/
def State.planCells (s : State) (d : Nat) : List CellRun :=
  ((List.range 128).filter fun k => s.cellIn d k && s.cellMode d k == 1).map fun k =>
    let c := (s.die d).ep.cells.getD k PCell.zero
    let st := s.rd d Fd.CELL_CFG.STATE k
    let v := s.cellData d k
    let fresh := c.fresh || !c.active || st == 0
    ⟨k, if fresh then 0 else st, c.lastEdge, v.2.toInt, satS 16 (v.1.toInt + v.2.toInt), fresh, [], false⟩

/-- Cells entering bypass (R229). -/
def State.bypassing (s : State) (d : Nat) : List Nat :=
  (List.range 128).filter fun k => s.cellIn d k && s.cellMode d k == 2 && ((s.die d).ep.cells.getD k PCell.zero).active

/-- MIN_DWELL as an angle (R217). -/
def State.dwellAngle (s : State) (d : Nat) (inc : Int) : Int :=
  if inc ≤ 0 then 0 else -(-((s.rd d Fd.EP_TIMING.MIN_DWELL : Int) * inc) / 2 ^ 16)

/-! Pulse patterns (R225-R228). -/

def State.patWord (s : State) (d e i : Nat) : Nat :=
  beNat (s.dramBytes d (s.rd d Fd.EP_OPP_BASE.W / 256 * 256 + 256 * e + 4 * i) 4)

def State.patMb (s : State) (d e : Nat) : Int := bitsOf (s.patWord d e 0) 31 16

/-- The pattern of an entry with its MB, if it is readable and its angles ascend (R225, R228). DESIGN CHOICE, log entry 37. -/
def State.pattern (s : State) (d e : Nat) (fails : List (Nat × Bool)) : Option (Int × Pattern) × State :=
  let n := bitsOf (s.patWord d e 0) 5 0
  let start := s.rd d Fd.EP_OPP_BASE.W / 256 * 256 + 256 * e
  let lines := (List.range (lineOf (start + 4 * n + 3) + 1)).filter fun l => decide (lineOf start ≤ l)
  let r := lines.foldl (fun (acc : Bool × State) l =>
    let q := acc.2.lineRead d l (readOk fails l).1 (readOk fails l).2
    (acc.1 && q.1, q.2)) (true, s)
  let ang := (List.range n).map fun i => s.patWord d e (i + 1)
  let up := (ang.zip (ang.drop 1)).all fun p => decide (p.1 % 2 ^ 30 < p.2 % 2 ^ 30)
  if s.dramOn d && r.1 && up then
    (some (s.patMb d e, ang.map fun w => (((w % 2 ^ 30 : Nat) : Int), if bitOf w 31 then -1 else 1)), r.2)
  else (none, r.2)

/-- M against a Q15 bound: M ≥ x, where M is the lesser of √(MD² + MQ²) and 1 − 2^-15 (R226). -/
def magAtLeast (sq x : Int) : Bool := decide (x ≤ 0) || (decide (x ≤ 32767) && decide (x * x ≤ sq))

/-- The entry in force after the choice of R227, R228 at a window start. A candidate is read from the library; the entry in force is held as
it was read. DEDUCED, log entry 37. -/
def State.chooseEntry (s : State) (d : Nat) (sq sh a : Int) (n : Nat) (fails : List (Nat × Bool)) : State :=
  let hys := s.rd d Fd.EP_OPP_CTRL.HYS
  let cand := ((List.range (s.rd d Fd.EP_OPP_CTRL.J_M1 + 1)).filter fun e => magAtLeast sq (s.patMb d e)).getLast?
  let put := fun (s : State) (e : Nat) (p : Int × Pattern) =>
    ((s.wr d Fd.EP_STATUS.OPP_ENTRY 0 e).wr d Fd.EP_STATUS.OPP_VALID 0 1).onEp d fun x => { x with pat := some p }
  match cand with
  | none => s
  | some e =>
    let f := s.rd d Fd.EP_STATUS.OPP_ENTRY
    let takes := match (s.die d).ep.pat with
      | none => true
      | some old => if f < e then magAtLeast sq (s.patMb d e + hys) else decide (e < f) && !magAtLeast sq (old.1 - hys)
    if !takes then s else
      let p := s.pattern d e fails
      match p.1, (s.die d).ep.pat with
      | none, _ => p.2.sticky d Sk.EP.OPP_FAIL
      | some x, none => put p.2 e x
      | some x, some old => if oppLevel x.2 n sh a = oppLevel old.2 n sh a then put p.2 e x else p.2

/-- A plan is made of what stands at its start (R206, R209-R229). ψ of R226 rounded down to 2^-32 turn gives the level exactly, since every
other angle is a whole number of these. -/
def State.plan (s : State) (d : Nat) (q : PReq) (fails : List (Nat × Bool)) : State :=
  let win : Int := s.rd d Fd.EP_WIN.W
  let a := q.c + win
  let e := q.next + win
  let dom := s.rd d Fd.EP_CFG.DOMAIN
  let dwell := s.dwellAngle d (s.dom d dom).inc
  let ref := fun (i : Nat) => sx 16 (s.rd d Fd.REF_ACT.VALUE i)
  let ph : Int := s.rd d Fd.EP_PHASE.W
  let ne := 2 ^ min 6 (s.rd d Fd.EP_CFG.NE_EXP)
  let pts := (List.range (ne + 1)).map fun i => refPoint (ref 0) (ref 1) (ref 2) ph a (e - a) ne i
  let r : PRef := ⟨a, e - a, ne, pts.map (·.1)⟩
  let cells := s.planCells d
  let n := cells.length
  let by_ := s.bypassing d
  let iphNeg := decide (ref 3 < 0)
  let thr := sx 16 (s.rd d Fd.EP_BAL.BAL_THR)
  let refClip := pts.any (·.2)
  let nls := fun (s : State) =>
    let ev := nlsEvents r n e
    (levelPlan cells ev.1 ev.2 a e dwell thr iphNeg, refClip, s)
  let out : List CellRun × Bool × State :=
    if e ≤ a then (cells, refClip, s)
    else match s.rd d Fd.EP_CFG.MODE with
      | 1 => nls s
      | 2 =>
        let sh := ph + (turnOf 32 (ref 1) (ref 0) : Int)
        let s := s.chooseEntry d (ref 0 * ref 0 + ref 1 * ref 1) sh a n fails
        (match (s.die d).ep.pat with
          | some (_, p) =>
            let ev := oppEvents p n sh a e
            let clip := (a :: ev.2.map (·.1)).any fun th => decide ((n : Int) < (patLevel p ((th + sh) % 2 ^ 32)).natAbs)
            (levelPlan cells ev.1 ev.2 a e dwell thr iphNeg, clip, s)
          | none => nls s)
      | _ =>
        let car := carrierOf (s.rd d Fd.EP_PSC.NC_M1 + 1) (s.rd d Fd.EP_PSC.CPH) n
        (((List.range n).zip cells).map fun p => pscCell r (car p.1) e dwell p.2, refClip || cells.any (pscClips r), s)
  let outs := (out.1.map fun c => ⟨c.k, c.edges, c.st, c.last, true⟩) ++
    by_.map fun k => ⟨k, [⟨true, 0, a⟩], 0, some a, false⟩
  let s := out.2.2.each cells fun s c =>
    (s.wr d Fd.CELL_V.KEY c.k (ux 16 c.key)).wr d Fd.CELL_V.VC c.k (s.cellData d c.k).1.toNat
  s.onEp d fun ep => { ep with
    cells := ep.cells.map fun c => { c with fresh := false }
    running := some
      { a := a, aEnd := e, startAt := s.td0, dom := dom, lead := s.rd d Fd.EP_TIMING.LEAD
        group := s.cell d (Fd.EP_GROUP.W.key 0), cells := outs, nAct := n, clip := out.2.1
        cut := ((out.1.filter (·.cut)).map (·.k)).getLast?, cutFlt := s.flag d Fd.EP_CFG.OVF_FLT } }

/-- PLAN_START (R204, R206, R212), with the lines of the pattern library whose reads fail. DEDUCED, log entry 36. -/
def opPlanStart (d : Nat) (fails : List (Nat × Bool)) (s : State) : State :=
  match (s.die d).ep.asked with
  | none => s
  | some q =>
    if (s.die d).ep.running.isSome || !(s.membersIn d || decide (q.swapAt + 256 ≤ s.td0)) then s
    else
      let s := ((s.judgeRole d).takeCfg d).onEp d fun e => { e with asked := none }
      if s.epRole d != 1 then s else (s.takeMembers d).plan d q fails

def execPlanStart (d : Nat) (fails : List (Nat × Bool)) (s : State) : Res := s.guarded (s.isHead && s.on d 6) (opPlanStart d fails)

/-- Manifests of a ring slot (R230). -/
def slotMans (cells : List PCellOut) (r : Nat) : List PMan :=
  (sortBy (fun (a b : PCellOut) => decide (a.k ≤ b.k)) (cells.filter fun c => c.k / 32 == r)).map fun c => ⟨c.k, c.edges⟩

def chunk2 {α : Type} : List α → List (List α)
  | a :: b :: t => [a, b] :: chunk2 t
  | [a] => [[a]]
  | [] => []

/-- A member's transfers of a plan (R231). -/
def memberOut (x : Running) (id r : Nat) : List MTransfer :=
  let parts := chunk2 (slotMans x.cells r)
  parts.map fun p => ⟨r, groupDie x.group.toNat r, ⟨x.a, x.aEnd, p, x.dom, x.lead⟩, id, parts.length⟩

/-- PLAN_END: the plan is complete; what it found shows (R213, R216, R218, R230, R231, R236). -/
def opPlanEnd (d : Nat) (s : State) : State :=
  match (s.die d).ep.running with
  | none => s
  | some x =>
    let cyc := min ((s.td0 - x.startAt) / 2) 65535
    let s := (s.wr d Fd.EP_TIME.LAST_CYC 0 cyc).wr d Fd.EP_TIME.MAX_CYC 0 (max cyc (s.rd d Fd.EP_TIME.MAX_CYC))
    let s := (s.bumpMod d Fd.EP_COUNT.PLANS 0 1).wr d Fd.EP_STATUS.N_ACT 0 x.nAct
    let s := s.each (List.range 128) fun s k =>
      match x.cells.find? (fun c => c.k == k) with
      | some c => (s.wr d Fd.CELL_CFG.STATE k c.st).wr d Fd.CELL_CFG.EDGES k c.edges.length
      | none => s.wr d Fd.CELL_CFG.STATE k 0
    let s := s.when x.clip (·.sticky d Sk.EP.LEVEL_CLIP)
    let s := match x.cut with
      | some k => ((s.sticky d Sk.EP.EDGE_OVF).wr d Fd.EP_INFO.OVF_CELL 0 k).when x.cutFlt (·.pulse d 0x061)
      | none => s
    let parts := ([1, 2, 3].filter fun r => groupValid x.group.toNat r).flatMap fun r => memberOut x ((s.die d).ep.ids + 1) r
    s.onEp d fun e => { e with
      cells := (List.range 128).map fun k =>
        let c := e.cells.getD k PCell.zero
        match x.cells.find? (fun o => o.k == k) with
        | some o => { c with lastEdge := o.lastEdge, active := o.active }
        | none => { c with active := false }
      running := none, asked := e.waiting, waiting := none
      ready := ⟨x.a, x.aEnd, slotMans x.cells 0, x.dom, x.lead⟩ :: e.ready
      ids := e.ids + 1, out := e.out ++ parts }

def execPlanEnd (d : Nat) (s : State) : Res := s.guarded (s.isHead && s.on d 6) (opPlanEnd d)

/-! ### Members (R211, R231) -/

/-- MANIFEST_TRANSFER: the next transfer to a member, no more in an admission window than the reservation's SHARE (R231). -/
def opManifestTransfer (d r : Nat) (s : State) : State :=
  match (s.die d).ep.out.find? (fun t => t.slot == r) with
  | none => s
  | some t =>
    let paced := (List.range 32).any fun i =>
      s.flag d Fd.RES_ENTRY.VALID i && s.rd d Fd.RES_ENTRY.PORT i == 1 && s.rd d Fd.RES_ENTRY.SOURCE i == 1 &&
        s.rd d Fd.RES_ENTRY.DEST i == t.die && decide (s.rd d Fd.RES_ENTRY.SHARE i ≤ s.sentNow d i) && s.blockEn d 0x10
    if paced then s else
      (s.submitTo d 1 1 t.die (.manifests t)).2.onEp d fun e => { e with out := e.out.erase t }

def execManifestTransfer (d ringSlot : Nat) (s : State) : Res := s.guarded (s.isHead && s.on d 6) (opManifestTransfer d ringSlot)

/-- Manifests arrive at a member (R231): the plan is complete when all its transfers have arrived. -/
def State.memberTake (s : State) (d : Nat) (t : MTransfer) : State :=
  s.onEp d fun e =>
    let got := (e.inbox.filter fun o => o.id == t.id) ++ [t]
    if got.length < t.total then { e with inbox := got }
    else { e with inbox := [], ready := { t.plan with mans := got.flatMap fun o => o.plan.mans } :: e.ready }

/-- A transfer of a member comes to its planner (R204, R211, R212): with both, the pair is complete. -/
def State.plannerTake (s : State) (d src : Nat) (f : Member → Member) : State :=
  match (if s.roleNow d = 1 then [1, 2, 3].find? (inSlot (s.group d) src) else none) with
  | none => s
  | some r => s.onEp d fun e => { e with member := setAt e.member (r - 1) fun m =>
      let m := f m
      if m.gotV && m.gotO then { m with volts := m.newV, ofs := m.newO } else m }

/-- What arrived over the fabric is delivered by its use (02 R65, 07 R193, 08 R204, R211, R231). -/
def opDeliver (d : Nat) (x : FabXfer) (s : State) : State :=
  match x.what with
  | .setPoints slot words => s.each words fun s w => s.when (decide (w.1 < 4)) fun s => s.spPend d slot w.1 1 w.2
  | .memberVolts volts => (s.judgeRole d).plannerTake d x.src fun m => { m with gotV := true, newV := volts }
  | .memberOffsets ofs => (s.judgeRole d).plannerTake d x.src fun m => { m with gotO := true, newO := ofs }
  | .manifests t =>
    let s := s.judgeRole d
    s.when (s.roleNow d == 2 && inSlot (s.group d) x.src 0) fun s => s.memberTake d t
  | .telegram t b => s.onDie d fun y => { y with saf := { y.saf with inbox := y.saf.inbox ++ [(t, b)] } }
  | .request f => s.onDie 0 fun y => { y with net := { y.net with requests := y.net.requests ++ [(x.src, f)] } }
  | .other => s

/-- FABRIC_TRANSFER (02 R65-R67): the transfer that the tollgate of the die's ports grants arrives, or a mirror record is lost.
DESIGN CHOICE, log entry 9. -/
def execFabricTransfer (d : Nat) (what : FabWhich) (how : FabArrival) (s : State) : Res :=
  s.guarded (s.isHead && s.on d 0x10) fun s =>
    match what with
    | .mirror i => if how = .badA then s.loseMirror d i else s
    | .queued =>
      match s.arrived d with
      | none => s
      | some x =>
        if !x.fits how then s else
          let r := (s.takeArrived d x).outcome x how
          r.2.when r.1 fun s => opDeliver d x s

/-! ### Caravans (R232-R234, 10 R278-R285) -/

/-- The stamp of an angle converted now, in fine units (03 R85). -/
def State.stamp (s : State) (d dom : Nat) (th : Int) : Int :=
  let x := s.dom d dom
  let dd := th * 2 ^ 16 - x.pos
  if dd ≤ 0 || x.inc ≤ 0 then s.now else s.now + (16 * dd + x.inc) / (2 * x.inc)

/-- The planner that plans for a die, and the die's ring slot. -/
def State.plannerOf (s : State) (d : Nat) : Nat × Nat :=
  if s.roleNow d = 2 then (groupDie (s.group d) 0, s.memberSlot d) else (d, 0)

/-- A ring's caravan was not sent: its cells begin the next plan from BLOCK (R216, R234). -/
def State.notSent (s : State) (d : Nat) : State :=
  let p := s.plannerOf d
  s.fromBlock p.1 fun k => k / 32 == p.2

/-- A caravan not sent under R233. -/
def State.missed (s : State) (d : Nat) (bit : Sticky) : State :=
  let s := (s.sticky d bit).bump d Fd.EP_COUNT.MISS_COUNT 0 1
  (s.when (s.flag d Fd.EP_CFG.MISS_FLT) fun s => s.pulse d 0x060).notSent d

/-- A manifest as bytes (10 R279), its edges with their offsets. -/
def manBytes (ws bridge : Nat) (edges : List (Bool × Nat × Nat)) : List Byte :=
  beBytes 2 ((ws - 1) * 2048 + bridge * 512 + edges.length * 16) ++
    (edges.map fun e => beBytes 3 (bnat e.1 * 2 ^ 23 + e.2.1 * 2 ^ 21 + e.2.2 % 2 ^ 21)).flatten

/-- Manifests fill blocks in order, a new block when the next does not fit (10 R281). -/
def packMans (l : List (Nat × List Byte)) : List (List (Nat × List Byte)) :=
  l.foldl (fun blocks m => match blocks.getLast? with
    | some b => if ((b ++ [m]).map fun x => x.2.length).sum ≤ 49 then blocks.dropLast ++ [b ++ [m]] else blocks ++ [[m]]
    | none => [[m]]) []

/-- A CARAVAN payload (10 R278). -/
def caravanPayload (cid : Byte) (i n : Nat) (tc expiry nman : Nat) (mans : List Byte) : List Byte :=
  [cid, BitVec.ofNat 8 (i * 16 + (n - 1))] ++ beBytes 5 (tc % 2 ^ 40) ++ beBytes 3 (expiry % 2 ^ 21) ++ [BitVec.ofNat 8 nman] ++
    (mans ++ List.replicate 49 0).take 49 ++ List.replicate 4 0

/-- An admitted caravan is entered for its finalisation (10 R283). -/
def State.enterCaravan (s : State) (d blocks last : Nat) (addr : Word) : State :=
  s.onHead d fun h => { h with cid := h.cid + 1, caravans := h.caravans ++ [⟨h.cid, blocks, addr, last⟩] }

def maskOf (ws : List Nat) : Word := BitVec.ofNat 32 (ofBits (fun i => ws.contains (i + 1)) 32)

/-- A plan goes out as the caravan of its ring, under the reservation of its milestone: only to waystations with a usable route, and its
stamps are judged as they would be sent (R233, 10 R280, R281). -/
def State.emitPlan (s : State) (d entry : Nat) (p : Plan) : State :=
  let off := fun (th : Int) => s.stamp d p.dom th - s.now
  let ways := p.mans.map fun m => m.cell % 32 + 1
  let live := (s.farthestFirst d ways).filter fun n => s.reachable d n
  let sent := p.mans.filter fun m => live.contains (m.cell % 32 + 1)
  let offs := off p.aEnd :: (sent.flatMap fun m => m.edges.map fun e => off e.angle)
  if live.isEmpty then s.notSent d
  else if offs.any fun o => decide (o < (p.lead : Int) * 8) then s.missed d Sk.EP.LEAD_SHORT
  else if offs.any fun o => decide (2 ^ 21 ≤ o) then (s.sticky d Sk.RING.EMIT_ERR).notSent d
  else
    let pl := s.plannerOf d
    let s := s.fromBlock pl.1 fun k => k / 32 == pl.2 && ways.contains (k % 32 + 1) && !live.contains (k % 32 + 1)
    let bytes := live.filterMap fun n => (sent.find? fun m => m.cell % 32 + 1 == n).map fun m =>
      (n, manBytes n 0 (m.edges.map fun e => (e.mark, e.st, (off e.angle).toNat)))
    let groups := packMans bytes
    let cid := (s.head d).cid
    let blocks := ((List.range groups.length).zip groups).map fun g =>
      (caravanPayload cid g.1 groups.length s.td0 (off p.aEnd).toNat g.2.length (g.2.flatMap (·.2)), g.2.map (·.1))
    let r := s.submitRing d 0 entry 5 cid blocks
    match r.1 with
    | some last => r.2.enterCaravan d groups.length last (maskOf ways)
    | none => r.2.notSent d

/-- EMIT with ARG 0 (R232, R233). -/
def State.emitNewest (s : State) (d entry : Nat) : State :=
  if !s.blockEn d 6 || s.roleNow d == 0 then s else
    match (s.die d).ep.ready with
    | [] => s.missed d Sk.EP.PLAN_LATE
    | p :: older =>
      let s := s.onEp d fun e => { e with ready := [] }
      let s := s.when (!older.isEmpty) fun s => (s.sticky d Sk.EP.PLAN_DROPPED).notSent d
      s.emitPlan d entry p

/-- Payload of block k of host buffer b, as the host wrote it. DEDUCED, log entry 43. -/
def State.hcb (s : State) (d b k : Nat) : List Byte :=
  (List.range 16).flatMap fun w => beBytes 4 (s.cell d (0x7400 + 0x100 * (b - 1) + 0x40 * k + 4 * w)).toNat

/-- EMIT with ARG 1-3 (10 R285). DEDUCED, log entry 43. -/
def State.emitHost (s : State) (d entry b : Nat) : State :=
  let n := min 4 (bitsOf (s.rd d Fd.HCB_CTRL.W) (8 * b - 6) (8 * b - 8))
  if n = 0 then s else
    let cid := (s.head d).cid
    let raw := (List.range n).map fun k => s.hcb d b k
    let asBlk := fun (p : List Byte) => (⟨true, true, 0, 5, 0, 0xFE, 0, 0, 0, p, 0, .normal⟩ : RingBlock)
    let mans := raw.map fun p => manifestsOf (asBlk p)
    let offs := (raw.map fun p => beNat (slice p 7 3) % 2 ^ 21) ++ mans.flatMap fun l => l.flatMap fun m => m.2.2.2.map fun e => e.stamp.toNat
    let ways := distinct (mans.flatMap fun l => l.map (·.1))
    if !(ways.any (s.reachable d)) then s
    else if offs.any fun o => decide (o < s.leadNow d * 8) then s.sticky d Sk.RING.EMIT_ERR
    else
      let blocks := ((List.range n).zip (raw.zip mans)).map fun g =>
        ([cid, BitVec.ofNat 8 (g.1 * 16 + (n - 1))] ++ beBytes 5 (s.td0 % 2 ^ 40) ++ (g.2.1.drop 7).take 53 ++ List.replicate 4 0,
         distinct (g.2.2.map (·.1)))
      let r := s.submitRing d 0 entry 5 cid blocks
      match r.1 with
      | some last => r.2.enterCaravan d n last (maskOf ways)
      | none => r.2

/-- An EMIT action of milestone entry i (R232, 10 R285). -/
def opEmit (d i arg : Nat) (s : State) : State :=
  if !s.isHead then s
  else if arg = 0 then s.emitNewest d i
  else if arg ≤ 3 then s.emitHost d i arg
  else s.sticky d Sk.RING.EMIT_ERR

/-- SOFT_RESET of the EP page: every planned state BLOCK, every plan discarded (R236). -/
def opEpReset (d : Nat) (s : State) : State :=
  s.onEp d fun e => { Ep.zero with ids := e.ids, member := e.member }

end Sys2Proof.Machine
end

