-- ==== Sys2Proof/Machine/Milestone.lean ====
section
/-! DEFINITION. Milestones: the entries of one die reached in a tick, in the order of their actions (03 R89-R95). -/

namespace Sys2Proof.Machine

def State.msAction (s : State) (d i : Nat) : Nat := bitsOf (s.ms d i 0) 19 16
def State.msArg (s : State) (d i : Nat) : Nat := s.ms d i 6

/-- The entries of die d reached in the present tick, in ascending index (R91, R94). -/
def State.reachedList (s : State) (d : Nat) : List Nat := (s.armedList d).filter (s.reached d)

/-- A SWAP action: of a slot's set-points, or of the planner's references with the compare it fired at and the next one of a
recurring entry on an angle domain (R89, 08 R210). -/
def State.msSwap (s : State) (d i : Nat) : State :=
  let arg := s.msArg d i
  if !bitOf arg 8 then (s.fired d i).swapSet d (arg % 64)
  else
    let c := s.compare d i
    let again := s.recur d i != .once && decide (s.msDom d i < 8)
    let s := s.fired d i
    opSwapRefs d (if again then some (c, s.compare d i) else none) s

/-- A MARK action (20 R515). -/
def State.msMark (s : State) (d i : Nat) : State :=
  let code := BitVec.ofNat 16 (s.msArg d i)
  (s.fired d i).when (s.isHead && s.on d 0xF) fun s => s.ledgerMark d code

/-- What one reached entry does, LATCH apart. -/
def State.msFire (s : State) (d i : Nat) : State :=
  match s.msAction d i with
  | 2 => let sl := s.msArg d i % 64; (s.fired d i).startSlot d sl
  | 3 => let b := s.msArg d i % 256; opEmit d i b (s.fired d i)
  | 4 => s.msSwap d i
  | 5 => s.msMark d i
  | 6 => let a := s.msArg d i; (s.fired d i).msPin d a
  | _ => s.fired d i

/-- The LATCH actions of a tick: each channel is latched once (R89, 05 R136). -/
def State.msLatch (s : State) (d : Nat) (is : List Nat) : State :=
  let groups := is.map fun i => s.msArg d i % 16
  let s := s.each is fun s i => s.fired d i
  s.when (!is.isEmpty && s.blockEn d 4) fun s => s.latchGroups d groups

/-- MILESTONE_REACHED: every entry reached in the tick, in the order SWAP, LATCH, START, EMIT, MARK, PIN (R94).
DESIGN CHOICE, log entry 10. -/
def opMilestones (d : Nat) (s : State) : State :=
  let is := s.reachedList d
  let act := fun a => is.filter fun i => s.msAction d i == a
  let rest := is.filter fun i => !([1, 2, 3, 4, 5, 6].contains (s.msAction d i))
  let s := s.each (act 4) fun s i => s.msFire d i
  let s := s.msLatch d (act 1)
  let s := s.each (act 2) fun s i => s.msFire d i
  let s := s.each (act 3) fun s i => s.msFire d i
  let s := s.each (act 5) fun s i => s.msFire d i
  s.each (act 6 ++ rest) fun s i => s.msFire d i

def execMilestoneReached (d : Nat) (s : State) : Res := s.guarded (s.on d 2) (opMilestones d)

end Sys2Proof.Machine
end

