-- ==== Sys2Proof/Machine/NodeImg.lean ====
section
/-! DEFINITION. Node images at the node (21 R531). -/

namespace Sys2Proof.Machine

/-- The image words of an IMAGE block. -/
def imageWords (b : RingBlock) : List Word :=
  (List.range (min 56 (field8 b 6 2) / 4)).map fun i => BitVec.ofNat 32 (field8 b (8 + 4 * i) 4)

/-- The content of an IMAGE block that its node takes. -/
def takeImage (b : RingBlock) (s : State) : Res :=
  let first := bitOf (field8 b 5 1) 0
  let s := if first then
      (opImgStart 0 (field8 b 12 1 % 8) s).onNode fun n => { n with nextImg := (field8 b 4 1, 0) }
    else s
  if field8 b 0 4 ≠ s.node.nextImg.2 then .next (opImgAbort 0 s)
  else
    let s := s.onNode fun n => { n with nextImg := (n.nextImg.1, n.nextImg.2 + field8 b 6 2) }
    eachRes (fun s w => opImgWord 0 w s) (imageWords b) s

/-- IMAGE at its node: taken in CONFIG and STANDSTILL, with BOOT0 at 0. -/
def opImage (ring : Ring) (b : RingBlock) (s : State) : Res :=
  let r := s.nodeReceive ring b
  if r.1 && r.2.loadState && !(r.2.die 0).clk.boot0 then takeImage b r.2 else .next r.2

/-- IMAGE. -/
def execImage (r : Ring) (blk : RingBlock) (s : State) : Res := s.sanely (if s.toNode blk 2 1 then opImage r blk s else .next s)

end Sys2Proof.Machine
end

