-- ==== Sys2Proof/Machine/Net.lean ====
section
/-! DEFINITION. The station port and network time (14): frames, redundancy, PTP, the servo, PPS. Management frames are in Manage. -/

namespace Sys2Proof.Machine

def State.net (s : State) (d : Nat) : Net := (s.die d).net
def State.onNet (s : State) (d : Nat) (f : Net → Net) : State := s.onDie d fun x => { x with net := f x.net }

/-- A station port that runs: dies 0 and 1 of a head (R366, R392). -/
def State.netOn (s : State) (d : Nat) : Bool := s.isHead && decide (d < 2) && s.on d 9

def State.portUp (s : State) (d : Nat) : Bool := s.netOn d && s.flag d Fd.NET_STATUS.LINK_UP

/-- MODE of NET_CFG: die 0's, 3 acting as 0 (R371). -/
def State.netMode (s : State) : Nat := if s.rd 0 Fd.NET_CFG.MODE = 3 then 0 else s.rd 0 Fd.NET_CFG.MODE

/-- The die whose addresses port d uses (R371). -/
def State.addrDie (s : State) (d : Nat) : Nat := if s.netMode = 0 then d else 0

/-- Bytes of a frame's own payload, padded to the 46 an Ethernet frame holds at least (R388). -/
def NetTx.size : NetTx → Nat
  | .mgmtResponse _ _ b => max 46 b.length
  | .telegram _ b => max 46 b.length
  | _ => 46

/-- A frame leaves a port whose link is up, tagged as TX_TAG says (R370). -/
def State.txFrame (s : State) (d : Nat) (t : NetTx) (tag : Bool) (red : Option RedTag := none) : State :=
  s.when (s.portUp d) fun s => s.onNet d fun n => { n with tx := t, tagged := tag && s.flag d Fd.TX_TAG.EN, red := red }

/-- A frame of the part: on its port in MODE 0, on both ports under PRP and HSR, with one sequence number in the trailers or tags of both
copies (R372, R388). PRESUMED, log entry 91. -/
def State.sendFrame (s : State) (d : Nat) (t : NetTx) : State :=
  if s.netMode = 0 then s.txFrame d t true
  else
    let q := (s.net 0).redSeq
    let s := s.each [0, 1] fun s p => s.txFrame p t true (some ⟨s.netMode == 2, q, 10 + p, t.size + 6⟩)
    s.onNet 0 fun n => { n with redSeq := q + 1 }

/-! ### Links and MDIO -/

/-- The port state of IEEE 1588 shown by a port (R392). -/
def State.setPtpState (s : State) (d st : Nat) : State :=
  (s.wr d Fd.NET_STATUS.PTP_STATE 0 st).wr 0 (if d = 0 then Fd.PTP_STAT.STATE_A else Fd.PTP_STAT.STATE_B) 0 st

def State.ptpState (s : State) (d : Nat) : Nat := s.rd d Fd.NET_STATUS.PTP_STATE

/-- A link goes down. -/
def State.netDown (s : State) (d : Nat) : State :=
  let was := s.flag d Fd.NET_STATUS.LINK_UP
  let s := (s.wrB d Fd.NET_STATUS.LINK_UP 0 false).setPtpState d 1
  s.when was (·.sticky d Sk.NET.LINK_DOWN)

/-- NET_LINK_CHANGE (R367): with code-group sync, and with auto-negotiation done where the interface runs it, the link is up at 1 Gb/s and
full duplex; a partner at another speed or at half duplex leaves it down. PRESUMED, log entry 51. -/
def execNetLinkChange (d : Nat) (pcs an : Bool) (speed : Nat) (full : Bool) (s : State) : Res :=
  s.guarded (s.netOn d) fun s =>
    let s := s.wrB d Fd.NET_STATUS.PCS_SYNC 0 pcs
    let known := pcs && (an || (s.rd d Fd.NET_CFG.IF != 1 && !s.flag d Fd.NET_CFG.AN))
    if known && speed == 1000 && full then
      if s.flag d Fd.NET_STATUS.LINK_UP then s
      else ((s.wrB d Fd.NET_STATUS.LINK_UP 0 true).setPtpState d 4).onNet d fun n => { n with listenAt := s.td0 }
    else (s.netDown d).when known (·.sticky d Sk.NET.SPEED_ERR)

/-- MDC cycles of a Clause 22 frame, of 320 ticks each at 2.5 MHz (R368). PRESUMED, log entry 54. -/
def mdioTicks : Nat := 64 * 320

/-- A write of MDIO_CMD with GO 1 (R368). DEDUCED, log entry 54. -/
def opMdio (write : Bool) (phy reg : BitVec 5) (data : BitVec 16) (s : State) : State :=
  if s.flag 0 Fd.NET_STATUS.MDIO_BUSY then s
  else (s.wrB 0 Fd.NET_STATUS.MDIO_BUSY 0 true).onNet 0 fun n => { n with mdio := some (s.td0, write, phy, reg, data) }

def execMdioRead (phy reg : BitVec 5) (s : State) : Res := s.guarded (s.isHead && s.alive 0) (opMdio false phy reg 0)

def execMdioWrite (phy reg : BitVec 5) (data : BitVec 16) (s : State) : Res := s.guarded (s.isHead && s.alive 0) (opMdio true phy reg data)

/-- The level of MDC: 2.5 MHz while a frame is in progress, low otherwise (R368). -/
def State.mdc (s : State) : Bool :=
  match (s.net 0).mdio with
  | some m => decide ((s.td0 - m.1) % 320 < 160)
  | none => false

/-- MDIO_DONE (R368, R392): after its last MDC cycle the frame is over; a read leaves its data in MDIO_DATA. DEDUCED, log entry 54. -/
def execMdioDone (data : BitVec 16) (s : State) : Res :=
  s.guarded (s.isHead && s.alive 0) fun s =>
    match (s.net 0).mdio with
    | none => s
    | some m =>
      if s.td0 < m.1 + mdioTicks then s else
        let s := (s.wrB 0 Fd.NET_STATUS.MDIO_BUSY 0 false).onNet 0 fun n => { n with mdio := none }
        if m.2.1 then s else s.wr 0 Fd.MDIO_DATA.DATA 0 data.toNat

/-! ### Frames (R369-R374) -/

inductive FrameKind where
  | ptp | supervision | arp | safety | management | other
  deriving DecidableEq, Repr

/-- Is the frame UDP over IPv4 to a port of the part that is not 0, with an address to take it (R369, R392)? -/
def State.udpTo (s : State) (d : Nat) (f : EthFrame) (port : Nat) : Bool :=
  s.rd (s.addrDie d) Fd.IP_ADDR.W != 0 && port != 0 && !f.ipOptions &&
    (match f.udp with | some u => u.2.2.toNat == port | none => false)

/-- An ARP request for the port's IPv4 address (R369): operation 1, target in bytes 24 to 27. PRESUMED, log entry 50. -/
def State.arpForUs (s : State) (d : Nat) (f : EthFrame) : Bool :=
  let ip := s.rd (s.addrDie d) Fd.IP_ADDR.W
  ip != 0 && beNat (slice f.payload 6 2) == 1 && beNat (slice f.payload 24 4) == ip

/-- How an accepted frame is handled (R369). DEDUCED, log entry 50. -/
def State.frameKind (s : State) (d : Nat) (f : EthFrame) : FrameKind :=
  if f.etype = 0x88F7 then .ptp
  else if f.etype = 0x88FB then .supervision
  else if f.etype = 0x0806 then (if s.arpForUs d f then .arp else .other)
  else if f.etype.toNat = s.rd d Fd.ETYPES.SAF_ETYPE || s.udpTo d f (s.rd d Fd.UDP_PORTS.SAF_UDP) then .safety
  else if f.etype.toNat = s.rd d Fd.ETYPES.MGMT_ETYPE || s.udpTo d f (s.rd d Fd.UDP_PORTS.MGMT_UDP) then .management
  else .other

/-- The MAC address of a port. -/
def State.macOf (s : State) (d : Nat) : BitVec 48 := BitVec.ofNat 48 (s.rd d Fd.MAC_HI.MAC * 2 ^ 32 + s.rd d Fd.MAC_LO.W)

/-- Entries live 400 ms (R373). -/
def dupTicks : Nat := 320000000

/-- The copy of a frame that port B kept in this tick is discarded for port A's (R373). -/
def State.dropCopy (s : State) (f : EthFrame) : State :=
  let same := fun (k : Kept) => k.source == f.source && k.sequence == f.sequence && k.tick == s.td0
  let s := s.onNet 1 fun n => { n with kept := n.kept.filter fun e => !same e.2 }
  { s with fabric := s.fabric.filter fun x => match x.what with | .request k => !same k | _ => true }

/-- Duplicate discard of a copy on port d (R373): whether it is kept; a later copy is dropped and counted. DESIGN CHOICE, log entry 50. -/
def State.duplicate (s : State) (d : Nat) (f : EthFrame) : Bool × State :=
  match (if s.netMode = 0 then none else f.sequence) with
  | none => (true, s)
  | some q =>
    match (s.net 0).dups.find? (fun e => e.1 == f.source && e.2.1 == q && decide (s.td0 < e.2.2.2 + dupTicks)) with
    | none => (true, s.onNet 0 fun n => { n with dups := ((f.source, q, d, s.td0) :: n.dups).take 256 })
    | some e =>
      if d = 0 && e.2.2.1 = 1 && e.2.2.2 = s.td0 then
        (true, ((s.onNet 0 fun n => { n with dups := n.dups.map fun x => if x = e then (e.1, e.2.1, 0, s.td0) else x }).bump
          1 Fd.PORT_COUNTS.DUP_DROP 0 1).dropCopy f)
      else (false, s.bump d Fd.PORT_COUNTS.DUP_DROP 0 1)

/-- The address of a port in force (R369, R371). -/
def State.ownMac (s : State) (d : Nat) : BitVec 48 := s.macOf (s.addrDie d)

/-- Multicast addresses the chapter names (R381). -/
def namedAddresses : List (BitVec 48) := [0x0180C200000E, 0x011B19000000]

/-- Is a frame's destination one that port d accepts: its own address, broadcast, or a multicast address of the chapter (R369)? -/
def State.takesDst (s : State) (d : Nat) (f : EthFrame) : Bool :=
  f.dst == s.ownMac d || f.dst == 0xFFFFFFFFFFFF || namedAddresses.contains f.dst

/-- A frame is kept for its handler; a management request on port B travels to die 0 on the fabric in class B (R390). -/
def State.keepFrame (s : State) (d : Nat) (h : Handler) (f : EthFrame) : State :=
  let r := s.duplicate d f
  let k : Kept := ⟨f.source, f.sequence, s.td0, f.udp.map fun u => (u.1, u.2.1), f.payload⟩
  r.2.when r.1 fun s =>
    match h with
    | .management =>
      if d = 0 then s.onNet 0 fun n => { n with requests := n.requests ++ [(0, k)] }
      else s.when (s.blockEn d 0x10) fun s => s.launch d 6 0 1 (.request k)
    | _ => s.onNet d fun n => { n with kept := n.kept ++ [(h, k)] }

/-- FRAME_RECEIVE (R369-R374): what is discarded is counted; what is kept waits for its handler. DEDUCED, log entry 50. -/
def execFrameReceive (d : Nat) (f : EthFrame) (s : State) : Res :=
  s.guarded (s.portUp d) fun s =>
    if !f.fcsOk || f.length < 64 || 1522 < f.length then s.sticky d Sk.NET.RX_BAD
    else if !s.takesDst d f || 1 < f.tags || (s.netMode = 2 && f.source = s.macOf 0) then s
    else match s.frameKind d f with
      | .other => s.bump d Fd.PORT_COUNTS.RX_OTHER 0 1
      | .ptp | .supervision => s
      | .arp => s.keepFrame d .arp f
      | .safety => s.keepFrame d .safety f
      | .management => s.keepFrame d .management f

/-- The first frame a port kept for a handler, taken from it. -/
def State.takeKept (s : State) (d : Nat) (h : Handler) : Option (Kept × State) :=
  ((s.net d).kept.find? fun e => e.1 == h).map fun e => (e.2, s.onNet d fun n => { n with kept := n.kept.erase e })

/-- ARP_REQUEST (R369): answered with the port's MAC address. -/
def execArpRequest (d : Nat) (s : State) : Res :=
  s.guarded (s.portUp d) fun s =>
    match s.takeKept d .arp with
    | none => s
    | some (k, s) => s.sendFrame d (.arpReply k.source (s.ownMac d))

/-- SAFETY_TELEGRAM (R388): the receiving die hands the telegram to its own channel and sends it on the fabric in class B to the channel on
the other die. DEDUCED, log entry 60. -/
def execSafetyTelegram (d : Nat) (s : State) : Res :=
  s.guarded (s.portUp d) fun s =>
    match s.takeKept d .safety with
    | none => s
    | some (k, s) =>
      let b := k.payload.take 48
      (s.onDie d fun x => { x with saf := { x.saf with inbox := x.saf.inbox ++ [(k.tick, b)] } }).when (s.blockEn d 0x10) fun s =>
        s.launch d 6 (1 - d) 1 (.telegram k.tick b)

/-- SUPERVISION_SEND (R372). -/
def execSupervisionSend (s : State) : Res :=
  s.guarded (s.netOn 0 && s.netMode != 0 && decide ((s.net 0).lastLife + s.rd 0 Fd.RED_CFG.LIFE_MS * 800000 ≤ s.td0)) fun s =>
    ((s.txFrame 0 .supervision true).txFrame 1 .supervision true).onNet 0 fun n => { n with lastLife := s.td0 }

/-- A fine unit of ring time, 0.15625 ns, in 2^-48 ns. -/
def fineNs : Int := 5 * 2 ^ 43

/-- What the wire stamp of a message received on a port is before the internal point's, and that of one sent after it, in 2^-48 ns
(R375). -/
def State.ingressDelay (s : State) (d : Nat) : Int := 16 * 2 ^ 48 + s.rd d Fd.PHY_LAT.PHY_RX * 2 ^ 44
def State.egressDelay (s : State) (d : Nat) : Int := 24 * 2 ^ 48 + s.rd d Fd.PHY_LAT.PHY_TX * 2 ^ 44

/-- What a peer-to-peer transparent clock adds to the correctionField of a PTP event message as it leaves: its residence time between the
wire stamps of both ports, here given in fine units between its delimiters, and the peer delay of the receiving port (R374).
PRESUMED, log entry 91. -/
def State.correction (s : State) (d : Nat) (f : EthFrame) (residence : Nat) : Option Int :=
  if f.etype = 0x88F7 && decide (beNat (slice f.payload 0 1) % 16 < 4) then
    some (s.stampAt d residence * fineNs + s.ingressDelay d + s.egressDelay (1 - d) + (s.net d).mpd)
  else none

/-- HSR_FORWARD (R374): a good frame, neither one of the part's own nor addressed to it alone, leaves on the other port. -/
def execHsrForward (d : Nat) (f : EthFrame) (residence : Nat) (s : State) : Res :=
  s.guarded (s.portUp d && s.netMode == 2 && f.fcsOk && f.source != s.macOf 0 && f.dst != s.macOf 0) fun s =>
    s.txFrame (1 - d) (.forwarded f (s.correction d f residence)) false

/-- DUPLICATE_EXPIRY (R373). -/
def execDuplicateExpiry (d : Nat) (s : State) : Res :=
  s.guarded (s.isHead && decide (d < 2) && s.alive d) fun s =>
    s.onNet 0 fun n => { n with dups := n.dups.filter fun e => decide (s.td0 < e.2.2.2 + dupTicks) }

/-! ### Wall time and the servo (R376-R380) -/

def State.wallOf (s : State) (n : Nat) : Wall := s.wall.getD (n - 1) Wall.zero
def State.onWall (s : State) (n : Nat) (f : Wall → Wall) : State := { s with wall := setAt s.wall (n - 1) f }

def trimLimit : Int := 13743895

/-- A change of trim, limited to 200 ppm (R376). -/
def State.changeTrim (s : State) (n : Nat) (v : Int) : State :=
  let w := max (-trimLimit) (min trimLimit v)
  (s.when (w != v) (·.sticky 0 Sk.NET.TRIM_LIMIT)).submitWall n (.tdTrim w) (s.td0 + 1)

/-- SRC of a domain as it acts (R377). -/
def State.tdSrc (s : State) (n : Nat) : Nat :=
  match s.rd 0 Fd.TD_CTRL.SRC (n - 1) with
  | 1 => if (List.range n).any fun m => decide (1 ≤ m) && decide (m < n) && s.rd 0 Fd.TD_CTRL.SRC (m - 1) == 1 then 0 else 1
  | 2 => 2
  | _ => 0

/-- HOLD and SYNC_LOSS follow the domains in holdover (R380, R391, R392). -/
def State.showHold (s : State) : State :=
  let s := s.wr 0 Fd.NET_STATUS.HOLD 0 (ofBits (fun n => (s.wallOf (n + 1)).hold) 3)
  s.source 0 0x090 (s.flag 0 Fd.SERVO2.LOSS_FLT && [1, 2, 3].any fun n => (s.wallOf n).hold)

/-- The whole number a quotient of exact figures shows: where it is not whole, either neighbour, an open value.
DESIGN CHOICE, log entry 52. -/
def State.openQuot (s : State) (num den : Int) : Int × State :=
  if num % den = 0 then (num / den, s) else let r := s.freeN; (num / den + (r.1 % 2 : Nat), r.2)

/-- The holdover of a domain begins: SYNC_TO seconds have passed since its last update (R380). DEDUCED, log entry 53. -/
def State.lossDue (s : State) (n : Nat) : Bool :=
  s.tdSrc n != 0 && !(s.wallOf n).hold && match (s.wallOf n).lastUpd with
    | some t => decide (t + max 1 (s.rd 0 Fd.SERVO2.SYNC_TO) * 800000000 ≤ s.td0)
    | none => false

def State.enterHold (s : State) (n : Nat) : State :=
  ((s.onWall n fun w => { w with hold := true }).sticky 0 Sk.NET.SYNC_LOSS).showHold

/-- A servo update of domain n with offset o in 2^-48 ns (R379, R380). DESIGN CHOICE, log entry 52. -/
def State.servo (s : State) (n : Nat) (o : Int) : State :=
  let s := s.when (s.lossDue n) (·.enterHold n)
  let s := s.onWall n fun w => { w with lastUpd := some s.td0, hold := false }
  let s := s.showHold
  let q := s.openQuot o (2 ^ 40)
  let s := q.2.wrS 0 Fd.OFM.W 0 q.1
  if (s.wallOf n).stepAt == some s.td0 then s.onWall n fun w => { w with integ := 0 }
  else
    let thr := s.rd 0 Fd.SERVO2.STEP_THR
    if thr != 0 && decide ((thr : Int) * 2 ^ 48 ≤ o.natAbs) then
      ((s.onWall n fun w => { w with integ := 0 }).submitWall n (.tdAdd (-o)) (s.td0 + 1)).sticky 0 Sk.NET.TD_STEP
    else
      let i := (s.wallOf n).integ + o * s.rd 0 Fd.SERVO.KI
      let s := s.onWall n fun w => { w with integ := i }
      let t := s.openQuot (-(o * s.rd 0 Fd.SERVO.KP + i)) (2 ^ 48)
      t.2.changeTrim n t.1

/-- The amount of a step in 2^-48 ns (R378): with REL a signed offset. -/
def State.stepAmount (s : State) (n : Nat) (rel : Bool) : Int :=
  let sec := sx 64 (s.rd 0 Fd.TD_SET_SEC_LO.W (n - 1) + s.rd 0 Fd.TD_SET_SEC_HI.W (n - 1) * 2 ^ 32)
  let ns : Int := if rel then sx 32 (s.rd 0 Fd.TD_SET_NS.W (n - 1)) else s.rd 0 Fd.TD_SET_NS.W (n - 1)
  (sec * 10 ^ 9 + ns) * 2 ^ 48

/-- A host step (R378): it prevails over a servo update of the same tick, whose integrator is cleared. -/
def State.hostStep (s : State) (n : Nat) (rel : Bool) : State :=
  let w := s.wallOf n
  let s := if w.lastUpd == some s.td0 then
      { s with mirrors := s.mirrors.filter fun m => !(m.domain == n + 7 && m.te == s.td0 + 129) }.onWall n fun w => { w with integ := 0, nextOk := s.td0, held := none }
    else s
  let s := s.onWall n fun w => { w with stepAt := some s.td0 }
  let v := s.stepAmount n rel
  (s.submitWall n (if rel then .tdRel v else .tdSet v) (s.td0 + 1)).sticky 0 Sk.NET.TD_STEP

/-- A write of TD_CTRL[n] (R377, R378). -/
def opTdCtrl (n : Nat) (value : Word) (s : State) : State :=
  let src := bitsOf value.toNat 1 0
  let s := s.when (s.rd 0 Fd.TD_CTRL.SRC (n - 1) != src) fun s =>
    ((s.wr 0 Fd.TD_CTRL.SRC (n - 1) src).onWall n fun w => { w with integ := 0, hold := false, lastUpd := none }).showHold
  s.when (bitOf value.toNat 31) fun s => s.hostStep n (bitOf value.toNat 30)

/-- TD_STEP. -/
def execTdStep (n : Nat) (value : Word) (s : State) : Res :=
  s.guarded (s.isHead && s.alive 0 && decide (1 ≤ n) && decide (n ≤ 3)) (opTdCtrl n value)

/-- A write of TD_TRIM[n] takes effect with SRC 0 only (R376, R392). -/
def opTdTrim (n : Nat) (value : Word) (s : State) : State := if s.tdSrc n = 0 then s.changeTrim n value.toInt else s

/-- SYNC_LOSS (R380). -/
def execSyncLoss (n : Nat) (s : State) : Res :=
  s.guarded (s.netOn 0 && decide (1 ≤ n) && decide (n ≤ 3) && s.lossDue n) (·.enterHold n)

/-! ### PTP (R381-R383) -/

/-- The ports that run PTP (R392). -/
def State.ptpPort (s : State) (d : Nat) : Bool :=
  match s.rd 0 Fd.PTP_CFG.PORTS with
  | 0 => d == 0
  | 1 => d == 1
  | 2 => true
  | _ => false

/-- Doubly attached: both ports under PRP or HSR (R382, R392). -/
def State.doubly (s : State) : Bool := s.netMode != 0 && s.rd 0 Fd.PTP_CFG.PORTS == 2

/-- What the slave port's latest Announce says is reported (R383). -/
def State.reportGm (s : State) (a : Announce) : State :=
  let old := s.rd 0 Fd.GM_ID_HI.W * 2 ^ 32 + s.rd 0 Fd.GM_ID_LO.W
  let gm := a.clock.gm.toNat
  let s := (s.wr 0 Fd.GM_ID_HI.W 0 (gm / 2 ^ 32)).wr 0 Fd.GM_ID_LO.W 0 (gm % 2 ^ 32)
  let s := (s.wr 0 Fd.PTP_STAT.STEPS 0 a.clock.steps.toNat).wr 0 Fd.UTC.OFFSET 0 a.utc.toNat
  s.when (old != gm) (·.sticky 0 Sk.NET.GM_CHANGE)

/-! #### Best master selection (R381, R382): the default algorithm of IEEE 1588-2019. PRESUMED, log entry 51. -/

/-- In the order in which clocks are compared; less is better. -/
def clockRank (c : PtpClock) : List Nat :=
  [c.prio1.toNat, c.cls.toNat, c.accuracy.toNat, c.variance.toNat, c.prio2.toNat, c.gm.toNat, c.steps.toNat, c.sender.toNat]

def lexLess : List Nat → List Nat → Bool
  | a :: s, b :: t => decide (a < b) || (a == b && lexLess s t)
  | _, _ => false

def clockBetter (a b : PtpClock) : Bool := lexLess (clockRank a) (clockRank b)

/-- The part's own clock: CLASS, PRIO1, PRIO2 and an identity made of port A's MAC address. -/
def State.ownClock (s : State) : PtpClock :=
  let mac := (s.macOf 0).toNat
  ⟨BitVec.ofNat 8 (s.rd 0 Fd.PTP_CFG.PRIO1), BitVec.ofNat 8 (s.rd 0 Fd.PTP_CFG.CLASS), 0xFE, 0xFFFF,
    BitVec.ofNat 8 (s.rd 0 Fd.PTP_INT.PRIO2), BitVec.ofNat 64 (mac / 2 ^ 24 * 2 ^ 40 + 0xFFFE * 2 ^ 24 + mac % 2 ^ 24), 0, 0⟩

/-- A port that takes part in PTP. -/
def State.ptpOn (s : State) (d : Nat) : Bool := s.portUp d && s.ptpPort d

def State.heardOn (s : State) (d : Nat) : Option Announce := if s.ptpOn d then (s.net d).ann else none

def State.bestHeard (s : State) : Option Announce :=
  match s.heardOn 0, s.heardOn 1 with
  | some a, some b => some (if clockBetter b.clock a.clock then b else a)
  | some a, none => some a
  | none, o => o

/-- The state of a PTP port: SLAVE (9) on the best master, PASSIVE (7) where the same grandmaster is heard, MASTER (6) where the part leads,
LISTENING (4) otherwise; `timed` says that its announce receipt has timed out. -/
def State.ptpNext (s : State) (d : Nat) (timed : Bool) : Nat :=
  let leads := !s.flag 0 Fd.PTP_CFG.SLAVE_ONLY
  let idle := (s.heardOn d).isNone && !timed && s.ptpState d != 6 && s.ptpState d != 7 && s.ptpState d != 9
  let other := if leads && !idle then 6 else 4
  match s.bestHeard with
  | none => other
  | some b =>
    if leads && clockBetter s.ownClock b.clock then other
    else if s.heardOn d = some b then (if leads && decide (s.rd 0 Fd.PTP_CFG.CLASS < 128) then 7 else 9)
    else match s.heardOn d with
      | some a => if a.clock.gm = b.clock.gm then 7 else other
      | none => other

/-- The states are decided anew; the slave port's latest Announce is reported (R382, R383). -/
def State.bmca (s : State) (timed : Option Nat) : State :=
  let next := [0, 1].filterMap fun d => if s.ptpOn d then some (d, s.ptpNext d (timed == some d)) else none
  let s := s.each next fun s e => s.setPtpState e.1 e.2
  match next.find? fun e => e.2 == 9 with
  | some e => (match (s.net e.1).ann with | some a => s.reportGm a | none => s)
  | none => s

/-- Announce receipt of a port has timed out: TIMEOUT intervals since the last one, or since it listens (R381, R382). -/
def State.announceDue (s : State) (d : Nat) : Bool :=
  let since := max (s.net d).listenAt (match (s.net d).ann with | some a => a.tick | none => 0)
  let log := max (-4) (min 1 (s.rdS 0 Fd.PTP_INT.LOG_ANN))
  decide (since + max 2 (min 10 (s.rd 0 Fd.PTP_INT.TIMEOUT)) * (50000000 * 2 ^ (log + 4).toNat) ≤ s.td0)

/-- The port's Announce is forgotten; a passive port becomes SLAVE in the same tick (R382). -/
def State.expireAnnounce (s : State) (d : Nat) : State :=
  if s.ptpOn d && s.announceDue d then
    ((s.onNet d fun n => { n with ann := none, listenAt := s.td0 }).bmca (some d))
  else s

/-! #### Stamps, offsets and delays (R375, R379, R381) -/

/-- The domain that PTP serves, and in whose time stamps are used; TD1 where PTP serves none. DESIGN CHOICE, log entry 51. -/
def State.ptpDom (s : State) : Option Nat := [1, 2, 3].find? fun n => s.tdSrc n == 1

/-- TDn at a fine unit of the present tick, in 2^-48 ns: TDn and TD0 are stamped together (R375). -/
def State.tdStamp (s : State) (d fine : Nat) : Int :=
  let w := s.wallOf (s.ptpDom.getD 1)
  w.time + (s.stampAt d (fine % 8) : Nat) * (wallInc w.trim / 8)

/-- Wire stamps of a message received and of one sent on a port (R375). -/
def State.ingress (s : State) (d fine : Nat) : Int := s.tdStamp d fine - s.ingressDelay d
def State.egress (s : State) (d fine : Nat) : Int := s.tdStamp d fine + s.egressDelay d

/-- A time in ns and a correctionField in 2^-48 ns. -/
def ns48 (ns : Nat) : Int := ns * 2 ^ 48
def corr48 (c : Int) : Int := c * 2 ^ 32

/-- The Sync is complete: the servo takes offsetFromMaster (R379). -/
def State.takeSync (s : State) (d : Nat) (trip : Int) : State :=
  let s := s.onNet d fun n => { n with syncIn := none, syncTrip := some trip }
  match s.ptpDom with
  | some n => s.servo n (trip - (s.net d).mpd)
  | none => s

/-- A mean path delay of a port; MPD shows the slave port's. DESIGN CHOICE, log entry 52. -/
def State.takeDelay (s : State) (d : Nat) (twice : Int) : State :=
  let s := s.onNet d fun n => { n with mpd := twice / 2, respIn := none }
  s.when (s.ptpState d == 9) fun s =>
    let q := s.openQuot (s.net d).mpd (2 ^ 40)
    q.2.wrS 0 Fd.MPD.W 0 q.1

/-- The sender is the master that the port follows. -/
def State.fromMaster (s : State) (d : Nat) (sender : BitVec 80) : Bool :=
  s.ptpState d == 9 && match (s.net d).ann with | some a => a.clock.sender == sender | none => false

/-- The request of a port with this sequence number: its egress. -/
def State.requestAt (s : State) (d : Nat) (seq : BitVec 16) : Option Int :=
  match (s.net d).reqOut with
  | some (q, t) => if q = seq then some t else none
  | none => none

def peerAddr : BitVec 48 := 0x0180C200000E
def ptpAddr : BitVec 48 := 0x011B19000000

/-- One message on a port that runs PTP (R375, R379, R381-R383). PRESUMED, log entry 51. -/
def opPtp (d fine : Nat) (m : PtpMsg) (s : State) : State :=
  let p2p := s.flag 0 Fd.PTP_CFG.P2P
  match m with
  | .sync sender seq twoStep origin corr =>
    if !s.fromMaster d sender then s
    else if twoStep then s.onNet d fun n => { n with syncIn := some (seq, s.ingress d fine, corr48 corr) }
    else s.takeSync d (s.ingress d fine - ns48 origin - corr48 corr)
  | .followUp sender seq origin corr =>
    (match (s.net d).syncIn with
    | some (q, t, c) => if s.fromMaster d sender && q == seq then s.takeSync d (t - ns48 origin - c - corr48 corr) else s
    | none => s)
  | .announce clock utc => (s.onNet d fun n => { n with ann := some ⟨clock, utc, s.td0⟩ }).bmca none
  | .pdelayReq turn =>
    s.when p2p fun s =>
      let t := s.ingress d fine
      s.txFrame d (.ptpResponse true peerAddr t (some (t + s.ingressDelay d + s.egressDelay d + s.stampAt d turn * fineNs))) false
  | .pdelayResp seq twoStep receipt corr =>
    (match s.requestAt d seq with
    | some t1 =>
      let t4 := s.ingress d fine
      if !p2p then s
      else if twoStep then s.onNet d fun n => { n with respIn := some (seq, t4 - t1 + ns48 receipt - corr48 corr) }
      else s.takeDelay d (t4 - t1 - corr48 corr)
    | none => s)
  | .pdelayFollowUp seq response corr =>
    (match (s.net d).respIn with
    | some (q, x) => if p2p && q == seq then s.takeDelay d (x - ns48 response - corr48 corr) else s
    | none => s)
  | .delayReq => s.when (!p2p && s.ptpState d == 6) fun s => s.txFrame d (.ptpResponse false ptpAddr (s.ingress d fine) none) false
  | .delayResp seq receive corr =>
    (match s.requestAt d seq, (s.net d).syncTrip with
    | some t3, some trip => if !p2p && s.ptpState d == 9 then s.takeDelay d (trip + ns48 receive - t3 - corr48 corr) else s
    | _, _ => s)
  | .unsupported => s

/-- PTP_MESSAGE (R379, R381-R383): a message of the part's PTP domain whose delimiter crosses the internal point at a fine unit of this
tick. -/
def execPtpMessage (d : Nat) (domain : Byte) (fine : Nat) (m : PtpMsg) (s : State) : Res :=
  s.guarded (s.ptpOn d && domain.toNat == s.rd 0 Fd.PTP_CFG.DOMAIN) fun s =>
    opPtp d fine m ((s.expireAnnounce 0).expireAnnounce 1)

/-- Ticks of a message interval 2^log s, log limited to −4 to +1 (R381, R392). -/
def intervalTicks (log : Int) : Nat := 50000000 * 2 ^ (max (-4) (min 1 log) + 4).toNat

def State.ptpInterval (s : State) (m : PtpSend) : Nat :=
  match m with
  | .sync => intervalTicks (s.rdS 0 Fd.PTP_INT.LOG_SYNC)
  | .announce => intervalTicks (s.rdS 0 Fd.PTP_INT.LOG_ANN)
  | .pdelayReq | .delayReq => intervalTicks (s.rdS 0 Fd.PTP_INT.LOG_PDELAY)

def ptpIndex : PtpSend → Nat
  | .sync => 0
  | .announce => 1
  | .pdelayReq => 2
  | .delayReq => 3

/-- Does a port send this message in its state (R381, R382)? -/
def State.ptpSends (s : State) (d : Nat) (m : PtpSend) : Bool :=
  match m with
  | .sync | .announce => s.ptpState d == 6
  | .pdelayReq => s.flag 0 Fd.PTP_CFG.P2P
  | .delayReq => !s.flag 0 Fd.PTP_CFG.P2P && s.ptpState d == 9

/-- A one-step Sync carries its egress time itself, a two-step one in its Follow_Up (R375). -/
def State.ptpFrame (s : State) (d fine : Nat) (m : PtpSend) : NetTx :=
  let q := (s.net d).ptpSeq
  match m with
  | .sync =>
    let t := some (s.egress d fine)
    if s.flag 0 Fd.PTP_CFG.ONE_STEP then .ptp m ptpAddr q t none else .ptp m ptpAddr q none t
  | .pdelayReq => .ptp m peerAddr q none none
  | .announce | .delayReq => .ptp m ptpAddr q none none

/-- PTP_SEND (R375, R381): never tagged (R370); the egress of a delay request is kept for its answer. -/
def execPtpSend (d : Nat) (m : PtpSend) (fine : Nat) (s : State) : Res :=
  let i := ptpIndex m
  s.guarded (s.ptpOn d && s.ptpSends d m && decide ((s.net d).lastSend.getD i 0 + s.ptpInterval m ≤ s.td0)) fun s =>
    (s.txFrame d (s.ptpFrame d fine m) false).onNet d fun n => { n with
      lastSend := setAt n.lastSend i fun _ => s.td0
      ptpSeq := n.ptpSeq + 1
      reqOut := match m with | .pdelayReq | .delayReq => some (n.ptpSeq, s.egress d fine) | _ => n.reqOut }

/-- ANNOUNCE_TIMEOUT (R382): the passive port becomes SLAVE in the same tick. -/
def execAnnounceTimeout (d : Nat) (s : State) : Res := s.guarded (s.ptpOn d) (·.expireAnnounce d)

/-! ### PPS (R386, R387) -/

/-- Offset from the nearest whole second, in [−0.5, 0.5) s (R379). -/
def secOffset (t : Int) : Int :=
  let sec : Int := 10 ^ 9 * 2 ^ 48
  (t + sec / 2) % sec - sec / 2

/-- Ticks of the glitch filter of PPS_IN (R387, 04 R112). -/
def State.ppsFilter (s : State) : Nat := 32 * min 250 (s.rd 0 Fd.PPS_CFG.PPS_FLT)

/-- PPS_IN_EDGE (R379, R387): PPS_IN has been high for `stable` ticks after a rising edge. Accepted, the edge is stamped in TD0 and in TD1,
taken back by the filter's delay; one within 0.5 s of the previous is ignored for the servo. DEDUCED, log entry 53. -/
def execPpsInEdge (stable : Nat) (s : State) : Res :=
  s.guarded (s.netOn 0 && decide (s.ppsFilter ≤ stable)) fun s =>
    let tick := s.td0 - s.ppsFilter
    let time := fun n => (s.wallOf n).time - (s.ppsFilter : Int) * wallInc (s.wallOf n).trim
    let near := match (s.net 0).lastPps with | some t => decide (tick < t + 400000000) | none => false
    let u := [1, 2, 3].filter fun n => !near && s.tdSrc n == 2
    let s' := (s.wr 0 Fd.PPS_IN_T.W 0 (loWord tick)).wr 0 Fd.PPS_IN_NS.W 0 (time 1 / 2 ^ 48 % 10 ^ 9).toNat
    let s' := s'.onNet 0 fun n => { n with lastPps := some tick }
    s'.each u fun s' n => s'.servo n (secOffset (time n))

/-- PPS_OUT is a station port output (R386). -/
def State.ppsOutOn (s : State) : Bool := s.netOn 0 && !s.flag 0 Fd.ANG_PINS.PPS_MS

/-- The instant, if any, at which the domain of OUT_SEL reached a whole second in the tick just counted: to the nearest fine unit (R386).
DEDUCED, log entry 54. -/
def State.ppsSecond (s : State) : Option Int :=
  let n := s.rd 0 Fd.PPS_CFG.OUT_SEL
  let w := s.wallOf n
  let sec : Int := 10 ^ 9 * 2 ^ 48
  let inc := wallInc w.trim
  if s.ppsOutOn && n != 0 && decide (w.prev / sec < w.time / sec) then
    some (s.placed 0 (((s.td0 : Int) - 1) * 8 + (16 * (w.time / sec * sec - w.prev) + inc) / (2 * inc)))
  else none

/-- Each whole second lets PPS_OUT rise 10 ns later (R386). -/
def State.ppsTick (s : State) : State :=
  match s.ppsSecond with
  | some i => s.onNet 0 fun x => { x with ppsRise := some (i + 64) }
  | none => s

/-- PPS_OUT_RISE (R386). -/
def execPpsOutRise (s : State) : Res :=
  s.guarded s.ppsOutOn fun s =>
    match (s.net 0).ppsRise with
    | none => s
    | some i =>
      if (s.td0 : Int) < i / 8 then s
      else { s with pins := { s.pins with ppsOut := true } }.onNet 0 fun x => { x with ppsHigh := some i, ppsRise := none }

/-- PPS_OUT_FALL (R386): WIDTH ms later. -/
def execPpsOutFall (s : State) : Res :=
  s.guarded s.ppsOutOn fun s =>
    match (s.net 0).ppsHigh with
    | none => s
    | some i =>
      if (s.td0 : Int) < i / 8 + max 1 (s.rd 0 Fd.PPS_CFG.WIDTH) * 800000 then s
      else { s with pins := { s.pins with ppsOut := false } }.onNet 0 fun x => { x with ppsHigh := none }

/-- With OUT_SEL at 0, and PPS_MS at 0, PPS_OUT is low (R386). -/
def opPpsCfg (s : State) : State :=
  if s.ppsOutOn && s.rd 0 Fd.PPS_CFG.OUT_SEL == 0 then
    { s with pins := { s.pins with ppsOut := false } }.onNet 0 fun x => { x with ppsHigh := none, ppsRise := none }
  else s

/-! ### Disciplining TD0 (R384) -/

/-- What ADJ moves by in 1 ms: toward the trim of its domain, or back to 0, by at most 0.1 ppm. DEDUCED, log entry 53. -/
def State.discDelta (s : State) : Int :=
  let src := s.rd 0 Fd.DISC.SRC
  let lim := fun (v : Int) => max (-6871) (min 6871 v)
  if src = 0 then lim (-(s.rdS 0 Fd.ADJ.W))
  else if (s.wallOf src).hold then 0
  else lim (s.wallOf src).trim

/-- ADJ moves, limited to 100 ppm, and every TDn's trim moves against it in the same tick. DEDUCED, log entry 53. -/
def State.discStep (s : State) : State :=
  let adj := s.rdS 0 Fd.ADJ.W
  let want := adj + s.discDelta
  let new := max (-6871947) (min 6871947 want)
  let dl := new - adj
  let s := s.when (new != want) (·.sticky 0 Sk.NET.DISC_LIMIT)
  if dl = 0 then s else
    let over_ := s.wall.any fun w => decide (trimLimit < (w.trim - dl).natAbs)
    let s := (s.wrS 0 Fd.ADJ.W 0 new).wrB 0 Fd.NET_STATUS.DISC_ON 0 (new != 0)
    let s := s.when over_ (·.sticky 0 Sk.NET.TRIM_LIMIT)
    let moved := fun (t : Int) => max (-trimLimit) (min trimLimit (t - dl))
    let upd := fun (u : DomUpd) => match u with | .tdTrim v => DomUpd.tdTrim (moved v) | u => u
    let s := { s with
      wall := s.wall.map fun (w : Wall) => { w with trim := moved w.trim, held := w.held.map upd }
      mirrors := s.mirrors.map fun (m : Mirror) => { m with upd := upd m.upd } }
    s.each (s.dieList.filter fun k => k != 0 && s.alive k) fun s k => s.onDie k fun x => { x with ang := { x.ang with
      wall := x.ang.wall.map fun (w : WallCopy) => { w with trim := moved w.trim } } }

/-! ### SOFT_RESET, BLOCK_EN (R392) -/

/-- SOFT_RESET: integrators, duplicate table and port states cleared, with the port's other internal state (02 R49); TD1-TD3 and ADJ run
on. -/
def opNetReset (d : Nat) (s : State) : State :=
  let s := (s.setPtpState d 1).onNet d fun _ => { Net.zero with listenAt := s.td0 }
  if d != 0 then s else s.each [1, 2, 3] fun s n => s.onWall n fun w => { w with integ := 0 }

end Sys2Proof.Machine
end

