-- ==== Sys2Proof/Machine/SafetyFn.lean ====
section
/-! DEFINITION. Safety functions (15, 16 R437-R442): inputs, tests, functions, the cycle, lock-out and its end. Channel A is die 0,
channel B die 1. -/

namespace Sys2Proof.Machine

def State.saf (s : State) (ch : Nat) : Saf := (s.die ch).saf

/-- A channel that is there (R393). -/
def State.chanOn (s : State) (ch : Nat) : Bool := s.isHead && decide (ch < 2) && s.alive ch

/-- A channel that evaluates (R397). -/
def State.evaluates (s : State) (ch : Nat) : Bool := s.chanOn ch && s.device.safetyOn

/-- Samples are taken every 50 µs, cycle boundaries fall every 250 µs (R396). -/
def sampleTicks : Nat := 40000
def cycleTicks : Nat := 200000
def State.atSample (s : State) : Bool := s.td0 % sampleTicks == 0
def State.atBoundary (s : State) : Bool := s.td0 % cycleTicks == 0

def limited (lo hi n : Nat) : Nat := max lo (min hi n)

/-! ### Faults and lock-out -/

/-- A fault detected in this sample (R418, R419). -/
def State.safFault (s : State) (ch : Nat) (k : Sticky) (cause place : Nat) : State :=
  (s.sticky ch k).onSaf ch fun x => { x with faults := x.faults ++ [⟨cause, place, s.td0⟩] }

def State.inLockout (s : State) (ch : Nat) : Bool := s.flag ch Fd.SAF_STATUS.LOCKOUT

/-- A channel enters lock-out and records its first cause (R418). -/
def State.lockOut (s : State) (ch : Nat) (f : SafFault) : State :=
  if s.inLockout ch then s else
    (((s.wrB ch Fd.SAF_STATUS.LOCKOUT 0 true).wr ch Fd.SAF_INFO.LO_CAUSE 0 f.cause).wr ch Fd.SAF_INFO.LO_WHERE 0 f.place).sticky ch Sk.SAF.LOCKOUT

/-! ### Output balls -/

def State.outCmd (s : State) (ch j : Nat) : Bool := bitOf (s.rd ch Fd.SAF_STATUS.OUT_ON) j

def State.outBall (s : State) (ch j : Nat) : Bool := bitOf (if ch = 0 then s.pins.soa else s.pins.sob).toNat j

def setBit8 (w : BitVec 8) (k : Nat) (b : Bool) : BitVec 8 := if b then w ||| (1#8 <<< k) else w &&& ~~~(1#8 <<< k)

/-- A ball changes level (R411). -/
def State.setBall (s : State) (ch j : Nat) (b : Bool) : State :=
  if s.outBall ch j = b then s else
    let s := { s with pins := if ch = 0 then { s.pins with soa := setBit8 s.pins.soa j b } else { s.pins with sob := setBit8 s.pins.sob j b } }
    s.onSaf ch fun x => { x with lvlAt := setAt x.lvlAt j fun _ => some s.td0 }

/-- Every output of a channel commanded off at once (R421, R425). -/
def State.outputsOff (s : State) (ch : Nat) : State :=
  let s := (s.wr ch Fd.SAF_STATUS.OUT_ON 0 0).onSaf ch fun x => { x with dark := List.replicate 8 none, tpDark := List.replicate 4 none }
  let s := s.each (List.range 8) fun s j => s.setBall ch j false
  if ch = 0 then { s with pins := { s.pins with tp := 0 } } else s

/-! ### Samples -/

/-- Accepted values: SI0-SI15 in bits 0-15, FB0-FB7 in bits 16-23. -/
def State.accepted (s : State) (ch : Nat) : Nat := s.rd ch Fd.SAF_ACC.W

/-- REMOTE value of a bit of a connection (16 R433). -/
def State.remoteBit (s : State) (ch c b : Nat) : Bool :=
  let st := s.rd ch Fd.CONN_STAT.W c % 4
  let inUse := bitOf (s.rd ch Fd.SAF_CONN_EN.W) c && s.rd ch Fd.CONN_ID.W c != 0 && !s.flag ch Fd.CONN_CFG.DIR c
  let data := ((s.saf ch).conn.getD c Conn.zero).data
  inUse && (st == 1 || (st == 2 && s.flag ch Fd.CONN_CFG.DEG_MODE c)) && bitOf (data.getD (b / 8) 0).toNat (b % 8)

/-- What the functions see: accepted values, then the REMOTE value of function f in bit 24 + f. -/
def State.safView (s : State) (ch : Nat) : Nat :=
  s.accepted ch % 2 ^ 24 + 2 ^ 24 * ofBits (fun f => s.remoteBit ch (s.rd ch Fd.FN_TIME.CONN f) (s.rd ch Fd.FN_TIME.BIT f)) 16

/-- What the functions see is kept when it changes in a sample. -/
def State.noteView (s : State) (ch : Nat) : State :=
  let v := s.safView ch
  s.onSaf ch fun x =>
    if (x.hist.head?.map (·.2)).getD 0 = v then x else { x with hist := (s.td0, v) :: (x.hist.filter fun e => e.1 != s.td0) }

/-- What the functions saw in the sample of tick t. -/
def State.viewAt (s : State) (ch t : Nat) : Nat := (((s.saf ch).hist.find? fun e => decide (e.1 ≤ t)).map (·.2)).getD 0

/-- State of a pair: 1 run, 0 stop, 2 disagreement (R403). -/
def pairState (v a b : Nat) (anti : Bool) : Nat :=
  let x := bitOf v a
  let y := bitOf v b != anti
  if x && y then 1 else if !x && !y then 0 else 2

def State.fnMode (s : State) (ch f : Nat) : Nat := if s.rd ch Fd.FN_CFG.MODE f ≤ 6 then s.rd ch Fd.FN_CFG.MODE f else 0

/-- A function with a pair on IN0 and IN1 (R402). -/
def paired (mode : Nat) : Bool := decide (1 ≤ mode) && decide (mode ≤ 4)

/-- State of a function's pair, or of its second hand (R402, R403). -/
def State.fnPair (s : State) (ch f v : Nat) (hand2 : Bool) : Nat :=
  let anti := match s.fnMode ch f with
    | 3 => true
    | 4 => false
    | _ => s.flag ch Fd.FN_CFG.PAIR f
  if hand2 then pairState v (s.rd ch Fd.FN_CFG.IN2 f) (s.rd ch Fd.FN_CFG.IN3 f) anti
  else pairState v (s.rd ch Fd.FN_CFG.IN0 f) (s.rd ch Fd.FN_CFG.IN1 f) anti

/-- The pair is checked for discrepancy (R404, R407). -/
def State.checked (s : State) (ch f : Nat) (hand2 : Bool) : Bool :=
  if hand2 then s.fnMode ch f == 3 else paired (s.fnMode ch f)

/-- The discrepancy time in ticks (R404). -/
def State.discTicks (s : State) (ch f : Nat) : Nat := limited 1 60000 (s.rd ch Fd.FN_TIME.DISC_N f) * sampleTicks

/-- A run of disagreement that ended in an earlier sample is over (R404). DEDUCED, log entry 61. -/
def State.settlePair (s : State) (ch f : Nat) (hand2 : Bool) : State :=
  let k := if hand2 then 16 + f else f
  match (s.saf ch).disc.getD k none with
  | some (t, _) =>
    if t < s.td0 && s.fnPair ch f (s.viewAt ch (s.td0 - 1)) hand2 != 2 then
      s.onSaf ch fun x => { x with disc := setAt x.disc k fun _ => none }
    else s
  | none => s

/-- A pair still in disagreement just before s0 + T is a fault (R404). -/
def State.judgePair (s : State) (ch f : Nat) (hand2 : Bool) : State :=
  let k := if hand2 then 16 + f else f
  match (s.saf ch).disc.getD k none with
  | some (t, false) =>
    if t + s.discTicks ch f ≤ s.td0 then
      (s.safFault ch Sk.SAF.DISCREPANCY 2 f).onSaf ch fun x => { x with disc := setAt x.disc k fun _ => some (t, true) }
    else s
  | _ => s

/-- Accepted values may have changed: runs of disagreement begin and end (R404). The inputs of one sample arrive one after
another: a run ends only where the whole sample ends in agreement. DEDUCED, log entry 61. -/
def State.trackPair (s : State) (ch f : Nat) (hand2 : Bool) : State :=
  let k := if hand2 then 16 + f else f
  let s := s.settlePair ch f hand2
  if s.checked ch f hand2 && s.fnPair ch f (s.accepted ch) hand2 == 2 then
    s.onSaf ch fun x => { x with disc := setAt x.disc k fun o => some (o.getD (s.td0, false)) }
  else if ((s.saf ch).disc.getD k none).map (·.1) == some s.td0 then
    s.onSaf ch fun x => { x with disc := setAt x.disc k fun _ => none }
  else s.judgePair ch f hand2

/-- No pair of an enabled function in disagreement, every monitored FBj at 1 (16 R440). -/
def State.resetAllowed (s : State) (ch : Nat) : Bool :=
  let v := s.accepted ch
  ((List.range 16).all fun f => [false, true].all fun h => !(s.checked ch f h && s.fnPair ch f v h == 2)) &&
    ((List.range 8).all fun j => !s.flag ch Fd.FB_CFG.FB_EN j || bitOf v (16 + j))

/-- A channel in lock-out is asked to end it; what it answers depends on the inputs of the whole sample (16 R440). -/
def State.askReset (s : State) (ch : Nat) : State :=
  if !s.inLockout ch then s else s.onSaf ch fun x => { x with checks := x.checks ++ [.ask] }

/-- RESET_REQ is raised, or the request refused (16 R440). -/
def State.answerReset (s : State) (ch : Nat) : State :=
  if s.resetAllowed ch then s.onSaf ch fun x => { x with rstNew := some s.td0 }
  else s.sticky ch Sk.SAF.RESET_REFUSED

/-- The accepted value of a RESET function's IN0 changed (16 R439). -/
def State.resetPulse (s : State) (ch f : Nat) (up : Bool) : State :=
  if up then s.onSaf ch fun x => { x with rise := setAt x.rise f fun _ => some s.td0, longDone := setAt x.longDone f fun _ => false }
  else match (s.saf ch).rise.getD f none with
    | none => s
    | some r =>
      let d := s.td0 - r
      let s := s.onSaf ch fun x => { x with rise := setAt x.rise f fun _ => none }
      if d < 80000000 then s.sticky ch Sk.SAF.RESET_SHORT
      else if d < 4000000000 then
        let s := s.onSaf ch fun x => { x with accepted := x.accepted ++ [(f, s.td0)] }
        s.when (s.rd ch Fd.SAF_LORST.LO_RST_FN == f) (·.askReset ch)
      else s.when (!(s.saf ch).longDone.getD f true) (·.sticky ch Sk.SAF.RESET_LONG)

/-- FILT_N as it acts (R399). -/
def State.filtN (s : State) (ch : Nat) (fb : Bool) (i : Nat) : Nat :=
  limited 10 400 (if fb then s.rd ch Fd.FB_CFG.FILT_N i else s.rd ch Fd.IN_CFG.FILT_N i)

/-- Ticks of an input's glitch filter (R398, R425). FB_CFG has no GF field: the filter of FB inputs is that of IN_CFG's reset value.
DESIGN CHOICE, log entry 93. -/
def State.glitchTicks (s : State) (ch : Nat) (fb : Bool) (i : Nat) : Nat :=
  32 * min 250 (if fb then 250 else s.rd ch Fd.IN_CFG.GF i)

/-- The filtered level after levels of a ball have lasted so many ticks each, oldest first (R398, 04 R112). -/
def filtered (g : Nat) (v : Bool) (levels : List (Bool × Nat)) : Bool :=
  levels.foldl (fun v e => if g ≤ e.2 then e.1 else v) v

/-- A raw sample of an input (R398, R399, R404, 16 R439): the filtered level at the end of the tick before. -/
def opInput (ch : Nat) (fb : Bool) (i : Nat) (levels : List (Bool × Nat)) (s : State) : State :=
  let k := if fb then 16 + i else i
  let v := filtered (s.glitchTicks ch fb i) (s.flag ch ⟨0xA, 0x38, 1, k, k⟩ 0) levels
  let s := s.wrB ch ⟨0xA, 0x38, 1, k, k⟩ 0 v
  let s := s.onSaf ch fun x => { x with
    run := setAt x.run k fun r => if r.1 = v then (v, r.2 + 1) else (v, 1)
    rawAt := setAt x.rawAt k fun _ => some s.td0 }
  let n := ((s.saf ch).run.getD k (false, 0)).2
  let change := decide (s.filtN ch fb i ≤ n) && bitOf (s.accepted ch) k != v
  let s := (s.when change fun s => s.wrB ch ⟨0xA, 0x3C, 1, k, k⟩ 0 v).noteView ch
  if !s.evaluates ch then s else
    let s := s.each (List.range 16) fun s f => (s.trackPair ch f false).trackPair ch f true
    if fb || !change then s else
      s.each ((List.range 16).filter fun f => s.fnMode ch f == 5 && s.rd ch Fd.FN_CFG.IN0 f == i) fun s f => s.resetPulse ch f v

/-- INPUT_ACCEPT: one sample of an input, once a sample. DESIGN CHOICE, log entry 11. -/
def execInputAccept (ch : Nat) (fb : Bool) (i : Nat) (levels : List (Bool × Nat)) (s : State) : Res :=
  s.always (s.chanOn ch && s.atSample && decide (i < if fb then 8 else 16) &&
    (s.saf ch).rawAt.getD (if fb then 16 + i else i) none != some s.td0) (opInput ch fb i levels)

/-- RESET_LONG (16 R439). -/
def execResetLong (ch f : Nat) (s : State) : Res :=
  s.always (s.evaluates ch && s.atSample && !(s.saf ch).longDone.getD f true) fun s =>
    match (s.saf ch).rise.getD f none with
    | none => s
    | some r =>
      if s.td0 < r + 4000000000 then s else
        (s.sticky ch Sk.SAF.RESET_LONG).onSaf ch fun x => { x with longDone := setAt x.longDone f fun _ => true }

/-- DISCREPANCY (R404). -/
def execDiscrepancy (ch f : Nat) (hand2 : Bool) (s : State) : Res :=
  s.always (s.evaluates ch && s.atSample && decide (f < 16)) fun s => (s.settlePair ch f hand2).judgePair ch f hand2

/-! ### Input tests (R400, R401) -/

def State.tpPer (s : State) (ch : Nat) : Nat := limited 10 1000 (s.rd ch Fd.SAF_TEST.TP_PER)
def State.tpW (s : State) (ch : Nat) : Nat := limited 2 8 (s.rd ch Fd.SAF_TEST.TP_W)
def State.tpEn (s : State) (ch n : Nat) : Bool := bitOf (s.rd ch Fd.SAF_TEST.TP_EN) n

/-- Is the tick a number of samples after the start of a pulse of TPn? -/
def State.tpTick (s : State) (ch n after : Nat) : Bool :=
  decide (after * sampleTicks ≤ s.td0) && (s.td0 - after * sampleTicks) % (s.tpPer ch * 800000) == n * s.tpPer ch * 200000

/-- The level of each test output: high while enabled and not dark (R400, R421). Channel A drives them. -/
def State.driveTp (s : State) : State :=
  let on := s.evaluates 0 && s.blockEn 0 0xA
  { s with pins := { s.pins with
    tp := BitVec.ofNat 4 (ofBits (fun n => on && s.tpEn 0 n && ((s.saf 0).tpDark.getD n none).isNone) 4) } }

/-- TEST_PULSE (R400). -/
def execTestPulse (n : Nat) (s : State) : Res :=
  s.always (s.evaluates 0 && s.blockEn 0 0xA && decide (n < 4) && s.tpEn 0 n && s.tpTick 0 n 0) fun s =>
    (s.onSaf 0 fun x => { x with tpDark := setAt x.tpDark n fun _ => some s.td0 }).driveTp

/-- The inputs of a CURTAIN function have no test source (R402). -/
def State.ofCurtain (s : State) (ch i : Nat) : Bool :=
  (List.range 16).any fun f => s.fnMode ch f == 4 && (s.rd ch Fd.FN_CFG.IN0 f == i || s.rd ch Fd.FN_CFG.IN1 f == i)

/-- The input whose raw sample is the readback of output j, where RB_SRC says so (R410). -/
def State.readbackIn (s : State) (ch j : Nat) : Option Nat :=
  if s.flag ch Fd.OUT_MAP.RB_SRC j then
    some (if ch = 0 then s.rd ch Fd.OUT_MAP.RB_IN_A j else s.rd ch Fd.OUT_MAP.RB_IN_B j)
  else none

/-- The input is a readback of this channel: its test source is not used (R410). -/
def State.readsBack (s : State) (ch i : Nat) : Bool := (List.range 8).any fun j => s.readbackIn ch j == some i

/-- The raw sample of SI input i in this tick: as INPUT_ACCEPT took it, else as the present command found it. -/
def State.rawNow (s : State) (ch i : Nat) (found : Bool) : Bool :=
  if (s.saf ch).rawAt.getD i none = some s.td0 then bitOf (s.rd ch Fd.SAF_RAW.SI) i else found

/-- The readback of output j: its ball, or the raw sample of its input (R410). DEDUCED, log entry 57. -/
def State.readbackOf (s : State) (ch j : Nat) (level : Bool) : Bool :=
  match s.readbackIn ch j with
  | some i => s.rawNow ch i level
  | none => level

/-- INPUT_TEST (R401): the raw sample in the last dark sample of the input's test source. -/
def execInputTest (ch i : Nat) (raw : Bool) (s : State) : Res :=
  let n := s.rd ch Fd.IN_CFG.TSRC i
  s.always (s.evaluates ch && s.blockEn ch 0xA && decide (i < 16) && decide (1 ≤ n) && decide (n ≤ 4) && s.tpEn ch (n - 1) &&
      !s.ofCurtain ch i && !s.readsBack ch i && s.tpTick ch (n - 1) (s.tpW ch - 1)) fun s =>
    s.when (s.rawNow ch i raw) fun s => s.safFault ch Sk.SAF.INPUT_TEST 3 i

/-! ### Outputs (R410-R414) -/

def State.otW (s : State) (ch : Nat) : Nat := limited 2 8 (s.rd ch Fd.SAF_TEST.OT_W)

def State.darkOf (s : State) (ch j : Nat) : Option (Nat × Bool) := (s.saf ch).dark.getD j none

/-- The tick in which a pulse of output j starts (R412). -/
def State.otTick (s : State) (ch j : Nat) : Bool := s.td0 % 160000000 == j * 20000000 + ch * 10000000

/-- OUTPUT_TEST_PULSE (R412, R413): at its start the output goes dark; in its last dark sample the readback must be 0. -/
def execOutputTestPulse (ch j : Nat) (readback : Bool) (s : State) : Res :=
  s.always (s.evaluates ch && decide (j < 8)) fun s =>
    let rb := s.readbackOf ch j readback
    match s.darkOf ch j with
    | none =>
      if s.otTick ch j && s.outCmd ch j && s.flag ch Fd.OUT_MAP.TEST_EN j && (s.saf ch).outAt.getD j none != some s.td0 then
        (s.onSaf ch fun x => { x with dark := setAt x.dark j fun _ => some (s.td0, true) }).setBall ch j false
      else s
    | some (t, _) =>
      if s.td0 == t + (s.otW ch - 1) * sampleTicks then
        (s.wrB ch ⟨0xA, 0x38, 1, 24 + j, 24 + j⟩ 0 rb).onSaf ch fun x => { x with checks := x.checks ++ [.dark j rb] }
      else s

/-- Pulses that have ended: the ball returns to its command. In a boundary tick the cycle decides first (R413). -/
def State.endDark (s : State) (ch : Nat) (now : Bool) : State :=
  s.each (List.range 8) fun s j =>
    match s.darkOf ch j with
    | none => s
    | some (t, _) =>
      let e := t + s.otW ch * sampleTicks
      if e < s.td0 || (e == s.td0 && now) then
        (s.onSaf ch fun x => { x with dark := setAt x.dark j fun _ => none }).setBall ch j (s.outCmd ch j)
      else s

/-- A sample of an output's readback is judged (R410): two consecutive mismatches are a fault. DEDUCED, log entry 57. -/
def State.judgeReadback (s : State) (ch j : Nat) (level : Bool) : State :=
  let first := match (s.saf ch).lvlAt.getD j none with | some t => decide (s.td0 < t + sampleTicks) | none => false
  if first then s
  else if level = s.outBall ch j then s.onSaf ch fun x => { x with mism := setAt x.mism j fun _ => 0 }
  else
    let s := s.onSaf ch fun x => { x with mism := setAt x.mism j (· + 1) }
    s.when ((s.saf ch).mism.getD j 0 == 2) fun s => s.safFault ch Sk.SAF.READBACK 4 j

/-- READBACK (R410): the readback of an output in this sample. -/
def execReadback (ch j : Nat) (level : Bool) (s : State) : Res :=
  s.always (s.evaluates ch && s.atSample && decide (j < 8)) fun s =>
    let level := s.readbackOf ch j level
    (s.wrB ch ⟨0xA, 0x38, 1, 24 + j, 24 + j⟩ 0 level).onSaf ch fun x => { x with checks := x.checks ++ [.readback j level] }

/-- FBj differs from its expected value at or after the end of the window of its output's command (R414). -/
def State.judgeFeedback (s : State) (ch j : Nat) : State :=
  match (s.saf ch).outAt.getD j none with
  | none => s
  | some b =>
    let wrong := bitOf (s.accepted ch) (16 + j) == s.outCmd ch j
    s.when (wrong && decide (b + limited 10 500 (s.rd ch Fd.FB_CFG.EDM_MS j) * 800000 ≤ s.td0)) fun s =>
      s.safFault ch Sk.SAF.FEEDBACK 5 j

/-- FEEDBACK (R414): the feedback of an output in this sample. -/
def execFeedback (ch j : Nat) (s : State) : Res :=
  s.always (s.evaluates ch && s.atSample && decide (j < 8) && s.flag ch Fd.FB_CFG.FB_EN j) fun s =>
    s.onSaf ch fun x => { x with checks := x.checks ++ [.feedback j] }

/-- What the samples of a tick showed is judged as the tick ends, with every input of the sample and the commands of the tick's boundary
in (R410, R412-R414, 16 R440). DEDUCED, log entry 57. -/
def State.judgeCheck (s : State) (ch : Nat) (k : SafCheck) : State :=
  match k with
  | .readback j level => s.judgeReadback ch j level
  | .feedback j => s.judgeFeedback ch j
  | .dark j level => s.when (level && (s.darkOf ch j).any (·.2)) fun s => s.safFault ch Sk.SAF.READBACK 4 j
  | .ask => s.when (s.inLockout ch) (·.answerReset ch)

def State.endSample (s : State) (ch : Nat) : State :=
  let l := (s.saf ch).checks
  if l.isEmpty then s
  else (s.onSaf ch fun x => { x with checks := [] }).when (s.evaluates ch) fun s => s.each l fun s k => s.judgeCheck ch k

/-! ### Functions (R405-R407, 16 R437) -/

def State.fnState (s : State) (ch f : Nat) : Nat := bitsOf (s.rd ch Fd.SAF_FNSTATE.W) (2 * f + 1) (2 * f)

def State.setFn (s : State) (ch f st : Nat) : State :=
  let old := s.fnState ch f
  let s := s.wr ch ⟨0xA, 0x48, 1, 2 * f + 1, 2 * f⟩ 0 st
  let s := s.wrB ch ⟨0xA, 0x8, 1, f, f⟩ 0 (st == 3)
  s.when (old == 3 && st != 3) (·.sticky ch Sk.SAF.DEMAND)

/-- Restart is manual: ESTOP always, DOOR, CURTAIN and REMOTE by RESTART (R402). -/
def State.manual (s : State) (ch f : Nat) : Bool :=
  match s.fnMode ch f with
  | 1 => true
  | 2 | 4 | 6 => s.flag ch Fd.FN_CFG.RESTART f
  | _ => false

/-- A function of one pair or one REMOTE value advances over a sample (R405). -/
def nextFn (st pair : Nat) (manual : Bool) : Nat :=
  if (st = 2 || st = 3) && pair != 1 then 0
  else if st = 0 && pair = 0 then 1
  else if st = 1 && pair = 1 then (if manual then 2 else 3)
  else st

/-- A two-hand function advances over the sample of tick t (R407). -/
def State.twoHand (s : State) (ch f t v : Nat) : State :=
  let h1 := s.fnPair ch f v false
  let h2 := s.fnPair ch f v true
  let both := h1 == 1 && h2 == 1
  let none_ := h1 == 0 && h2 == 0
  let first := (s.saf ch).hand.getD f none
  let put := fun (s : State) (o : Option Nat) (r : Bool) =>
    s.onSaf ch fun x => { x with hand := setAt x.hand f fun _ => o, released := setAt x.released f fun _ => r }
  match s.fnState ch f with
  | 3 => if both then s else (put s none false).setFn ch f 0
  | 0 => if none_ then (put s none true).setFn ch f 1 else s
  | _ =>
    if !(s.saf ch).released.getD f false then put s none none_
    else if both then
      (match first with
      | none => (put s none false).setFn ch f 3
      | some a =>
        if t < a + 400000000 then (put s none false).setFn ch f 3
        else ((put s none false).sticky ch Sk.SAF.TWOHAND_SYNC).setFn ch f 0)
    else if h1 == 1 || h2 == 1 then put s (some (first.getD t)) true
    else if first.isSome then (if none_ then put s none true else (put s none false).setFn ch f 0)
    else s

/-- Every function advances over one sample. DEDUCED, log entry 55. -/
def State.advanceFns (s : State) (ch t : Nat) : State :=
  let v := s.viewAt ch t
  s.each (List.range 16) fun s f =>
    match s.fnMode ch f with
    | 0 | 5 => s.setFn ch f 3
    | 3 => s.twoHand ch f t v
    | 6 => s.setFn ch f (nextFn (s.fnState ch f) (bnat (bitOf v (24 + f))) (s.manual ch f))
    | _ => s.setFn ch f (nextFn (s.fnState ch f) (s.fnPair ch f v false) (s.manual ch f))

/-! ### The signature (R417, 16 R444) -/

def safKeys : List Nat :=
  [0xA020, 0xA024] ++ (List.range 16).map (fun i => 0xA100 + 4 * i) ++ (List.range 8).map (fun j => 0xA140 + 4 * j) ++
  (List.range 16).flatMap (fun f => [0xA180 + 8 * f, 0xA184 + 8 * f]) ++ (List.range 8).map (fun j => 0xA200 + 4 * j) ++
  [0xA0C0, 0xA0C8] ++ (List.range 32).flatMap (fun c => (List.range 6).map fun w => 0xA800 + 0x20 * c + 4 * w)

def State.safSig (s : State) (ch : Nat) : Nat := (crc32c (safKeys.flatMap fun k => beBytes 4 (s.cell ch k).toNat)).toNat

def State.sigShown (s : State) (ch : Nat) : Nat := s.rd ch Fd.SAF_SIG.W

/-- SAF_SIG, and whether it equals the peer's (R417, R425). -/
def State.showSig (s : State) (ch : Nat) : State :=
  let s := s.wr ch Fd.SAF_SIG.W 0 (s.safSig ch)
  match (s.saf ch).peer with
  | some p => s.wrB ch Fd.SAF_STATUS.SIG_EQUAL 0 (p.sig == s.sigShown ch)
  | none => s

/-- A manual function or the lock-out reset names a function that is not a RESET function (R406). -/
def State.badReset (s : State) (ch : Nat) : Bool :=
  s.rd ch Fd.FN_CFG.MODE (s.rd ch Fd.SAF_LORST.LO_RST_FN) != 5 ||
    (List.range 16).any fun f => s.manual ch f && s.rd ch Fd.FN_CFG.MODE (s.rd ch Fd.FN_CFG.RST_FN f) != 5

/-! ### The cycle (R408, R409, R415-R421, 16 R441) -/

/-- The peer's image of the cycle that this channel's latest image is of. -/
def State.pairImage (s : State) (ch : Nat) : Option Image :=
  match (s.saf ch).own, (s.saf ch).peer with
  | some o, some p => if o.tick = p.tick then some p else none
  | _, _ => none

/-- Steps 1 and 2: the causes of lock-out this cycle meets, in order (R416-R421). -/
def State.causes (s : State) (ch : Nat) : List SafFault :=
  let x := s.saf ch
  let sigs := match x.peer with | some p => p.sig != s.sigShown ch | none => false
  let written := match x.cfgPend with | some e => decide (e.1 < s.td0) | none => false
  x.cross ++ x.faultsPrev ++
    (if written || sigs then [⟨1, 0, s.td0⟩] else []) ++
    (if !s.blockEn ch 0xA || x.soft.isSome then [⟨8, 0, s.td0⟩] else []) ++
    (match s.pairImage ch with | some p => if p.lockout then [⟨7, 0, s.td0⟩] else [] | none => [])

/-- The end of a lock-out (16 R441). DEDUCED, log entry 58. -/
def State.endLockout (s : State) (ch : Nat) : State :=
  let s := s.each (List.range 16) fun s f => s.when (s.fnMode ch f != 0 && s.fnMode ch f != 5) fun s => s.setFn ch f 1
  let s := s.each (List.range 32) fun s c => s.when (s.rd ch Fd.CONN_STAT.W c == 3) fun s =>
    (s.wr ch Fd.CONN_STAT.W c 0).onSaf ch fun x => { x with conn := setAt x.conn c fun y => { y with first := false } }
  let s := ((s.wrB ch Fd.SAF_STATUS.LOCKOUT 0 false).wr ch Fd.SAF_INFO.LO_CAUSE 0 0).wr ch Fd.SAF_INFO.LO_WHERE 0 0
  (s.sticky ch Sk.SAF.LO_ENDED).onSaf ch fun x => { x with
    rst := 0, rstNew := none, hand := List.replicate 16 none, released := List.replicate 16 false }

/-- Both images of the cycle carry RESET_REQ, with equal signatures (16 R441). -/
def State.resetAgreed (s : State) (ch : Nat) : Bool :=
  match (s.saf ch).own, s.pairImage ch with
  | some o, some p => o.rstReq && p.rstReq && p.sig == s.sigShown ch
  | _, _ => false

/-- Step 4: accepted resets (R405, R406, R419, 16 R441). DEDUCED, log entry 58. -/
def State.takeResets (s : State) (ch : Nat) (entered : Bool) : State :=
  if s.inLockout ch && !entered && s.resetAgreed ch && s.blockEn ch 0xA && (s.saf ch).soft.isNone then s.endLockout ch
  else s.each (List.range 16) fun s f =>
    let r := s.rd ch Fd.FN_CFG.RST_FN f
    s.when (s.fnState ch f == 2 && s.fnMode ch r == 5 && (s.saf ch).acceptedPrev.contains r) fun s => s.setFn ch f 3

/-- The output request in force in this cycle: what channel A's image of the previous cycle carries (R409).
DEDUCED, log entry 56. -/
def State.reqNow (s : State) (ch : Nat) : Nat :=
  match (if ch = 0 then (s.saf ch).own else s.pairImage ch) with
  | some i => i.req
  | none => 0

/-- Step 5: whether output j is commanded on (R408), given the accepted values the cycle took. -/
def State.wantsOn (s : State) (ch j took : Nat) : Bool :=
  s.flag ch Fd.OUT_MAP.EN j && !s.inLockout ch &&
    ((List.range 16).all fun f => !bitOf (s.rd ch Fd.OUT_MAP.FN_MASK j) f || s.fnState ch f == 3) &&
    bitOf (s.reqNow ch) j &&
    (!s.flag ch Fd.FB_CFG.FB_EN j || s.outCmd ch j || bitOf took (16 + j))

/-- A command written at the boundary (R408, R411, R413). -/
def State.command (s : State) (ch j : Nat) (on : Bool) : State :=
  if s.outCmd ch j = on then s else
    let s := (s.wrB ch ⟨0xA, 0x8, 1, 16 + j, 16 + j⟩ 0 on).onSaf ch fun x => { x with outAt := setAt x.outAt j fun _ => some s.td0 }
    match s.darkOf ch j with
    | none => s.setBall ch j on
    | some (t, _) =>
      if t = s.td0 then (s.onSaf ch fun x => { x with dark := setAt x.dark j fun _ => none }).setBall ch j on
      else if t + s.otW ch * sampleTicks ≤ s.td0 then s
      else s.onSaf ch fun x => { x with dark := setAt x.dark j fun o => o.map fun e => (e.1, false) }

def State.lockAll (s : State) (ch : Nat) (fs : List SafFault) : State :=
  match fs with
  | [] => s
  | f :: _ => s.lockOut ch f

/-- Steps 1 to 5 of the cycle that ends at this boundary, on the samples of the cycle before it (R419); its commands are written.
DEDUCED, log entry 55. -/
def State.evalCycle (s : State) (ch : Nat) : State :=
  let b := s.td0
  let was := s.inLockout ch
  let s := s.lockAll ch (s.causes ch)
  let entered := !was && s.inLockout ch
  let samples := [0, 1, 2, 3, 4].map fun k => b - 2 * cycleTicks + k * sampleTicks
  let s := s.each samples fun s t => s.advanceFns ch t
  let s := s.takeResets ch entered
  let took := s.viewAt ch (b - 2 * cycleTicks + 4 * sampleTicks)
  let on := (List.range 8).map fun j => s.wantsOn ch j took
  (s.each ((List.range 8).zip on) fun s e => s.command ch e.1 e.2).endDark ch true

/-- Images, this one included, that still carry RESET_REQ: four from the first after the request (16 R440). -/
def State.resetLeft (s : State) (ch : Nat) : Nat :=
  match (s.saf ch).rstNew with
  | some t => if t < s.td0 then 4 else (s.saf ch).rst
  | none => (s.saf ch).rst

/-- The image of the cycle just ended (R415). DEDUCED, log entry 56. -/
def State.formImage (s : State) (ch : Nat) (prod : List (Nat × List Byte)) : State :=
  let took := s.viewAt ch (s.td0 - 2 * cycleTicks + 4 * sampleTicks)
  let req := s.rd 0 Fd.SAF_OUT_REQ.REQ
  let img : Image :=
    { tick := s.td0, si := took % 2 ^ 16, fb := took / 2 ^ 16 % 2 ^ 8, fn := s.cell ch (Fd.SAF_FNSTATE.W.key 0)
      out := s.rd ch Fd.SAF_STATUS.OUT_ON, lockout := s.inLockout ch, cause := s.rd ch Fd.SAF_INFO.LO_CAUSE, sig := s.sigShown ch
      rstReq := decide (0 < s.resetLeft ch), req := if ch = 0 then (s.saf ch).newReq else 0, prod := prod }
  s.onSaf ch fun x => { x with
    own := some img, met := false, rst := s.resetLeft ch - 1, newReq := if ch = 0 then req else 0
    rstNew := if x.rstNew = some s.td0 then x.rstNew else none }

/-- What a cycle end leaves: counts, what the next cycle works on, and SAF_TRIP (R406, R424). -/
def State.endCycle (s : State) (ch : Nat) : State :=
  let s := s.bumpMod ch Fd.SAF_CYCLE.W 0 1
  let s := s.when ((s.saf ch).cfgNew && s.badReset ch) (·.sticky ch Sk.SAF.RST_CFG)
  let trip := s.inLockout ch || (List.range 16).any fun f => bitOf (s.rd ch Fd.SAF_TRIPFN.TRIP_FN) f && s.fnState ch f != 3
  let old := s.td0 - cycleTicks
  let s := s.onSaf ch fun x => { x with
    cycleAt := s.td0, cross := [], trip := trip
    faultsPrev := x.faults.filter fun f => decide (f.tick < s.td0), faults := x.faults.filter fun f => !decide (f.tick < s.td0)
    acceptedPrev := (x.accepted.filter fun e => decide (e.2 < s.td0)).map (·.1), accepted := x.accepted.filter fun e => !decide (e.2 < s.td0)
    cfgPend := match x.cfgPend with | some e => if e.2 < s.td0 then none else some (s.td0, s.td0) | none => none
    cfgNew := x.cfgPend.any fun e => !decide (e.2 < s.td0)
    soft := if x.soft = some s.td0 then x.soft else none
    hist := (x.hist.filter fun e => decide (old < e.1)) ++ (x.hist.filter fun e => decide (e.1 ≤ old)).take 1 }
  s.safetyTrip

/-! ### Cross images (R415, R416, R431) -/

def State.crossFault (s : State) (ch : Nat) : State :=
  (s.sticky ch Sk.SAF.CROSS).onSaf ch fun x => { x with cross := x.cross ++ [⟨6, 0, s.td0⟩] }

/-- No image of the cycle arrived in time (R416). -/
def State.imageAbsent (s : State) (ch : Nat) : State :=
  if (s.saf ch).met || (s.saf ch).own.isNone then s
  else ((s.wrB ch Fd.SAF_PEER.PEER_OK 0 false).onSaf ch fun x => { x with met := true }).crossFault ch

def Image.agrees (a b : Image) : Bool := a.si == b.si && a.fb == b.fb && a.fn == b.fn && a.out == b.out

/-- The peer's registers in this channel's page (R425). -/
def State.showPeer (s : State) (ch : Nat) (p : Image) (ok : Bool) : State :=
  let clear := ofBits (fun f => bitsOf p.fn.toNat (2 * f + 1) (2 * f) == 3) 16
  let s := (s.wr ch Fd.SAF_PEER_SIG.W 0 p.sig).wrB ch Fd.SAF_STATUS.SIG_EQUAL 0 (p.sig == s.sigShown ch)
  let s := (((s.wrB ch Fd.SAF_PEER.PEER_OK 0 ok).wrB ch Fd.SAF_PEER.PEER_LO 0 p.lockout).wr ch Fd.SAF_PEER.OUT_ON 0 p.out).wr ch Fd.SAF_PEER.CLEAR 0 clear
  s.when p.lockout (·.sticky ch Sk.SAF.PEER_LOCKOUT)

/-- The comparison of two images of one cycle (R416). DEDUCED, log entry 59. -/
def State.compareImages (s : State) (ch : Nat) (o p : Image) : State :=
  if o.agrees p then s.onSaf ch fun x => { x with diff := 0 }
  else
    let s := s.onSaf ch fun x => { x with diff := x.diff + 1 }
    s.when (decide (3 ≤ (s.saf ch).diff)) (·.crossFault ch)

/-- CROSS_IMAGE_ABSENT (R416): no image within 1 µs of the boundary. -/
def execCrossImageAbsent (ch : Nat) (s : State) : Res :=
  s.always (s.evaluates ch && decide ((s.saf ch).cycleAt + 800 ≤ s.td0)) (·.imageAbsent ch)

/-! ### Registers with an effect (R420, R421, R425, 16 R442) -/

/-- A write of SAF_RST_CMD that reached it (16 R440, R442). -/
def opSafRst (ch : Nat) (value : Word) (s : State) : State :=
  if !s.evaluates ch then s
  else if bitsOf value.toNat 15 0 != 0x5A5A || !s.flag ch Fd.SAF_LORST.CMD_EN then s.sticky ch Sk.SAF.RESET_REFUSED
  else (s.sticky ch Sk.SAF.RESET_CMD).askReset ch

/-- A guarded write that reached the page (R420): taken in CONFIG and STANDSTILL only. -/
def opSafConfig (ch off : Nat) (value : Word) (s : State) : State :=
  if s.device != .config && s.device != .standstill then s.sticky ch Sk.SAF.CFG_REFUSED
  else
    let m := match findReg regsSaf off with | some r => r.rw | none => 0
    let key := 0xA000 + off
    let s := s.putCell ch key ((s.cell ch key &&& ~~~m) ||| (value &&& m))
    (s.showSig ch).onSaf ch fun x => { x with
      cfgPend := some (match x.cfgPend with | some e => (e.1, s.td0) | none => (s.td0, s.td0)), cfgNew := true }

/-- A guarded write without authentication (R11, R420). -/
def opSafUnauth (ch off : Nat) (s : State) : State :=
  (s.stick ch 0xA 31).when (off != 0xC4) (·.sticky ch Sk.SAF.CFG_REFUSED)

/-- SAF_RST_CMD. -/
def execSafRstCmd (ch : Nat) (auth : Bool) (value : Word) (s : State) : Res :=
  s.guarded (s.chanOn ch) fun s => if auth then opSafRst ch value s else opSafUnauth ch 0xC4 s

/-- Offsets of the SAF page's guarded configuration registers (R425, R444). -/
def safConfigOff (off : Nat) : Bool := safKeys.contains (0xA000 + off)

/-- SAF_CONFIG_WRITE. -/
def execSafConfigWrite (ch : Nat) (offset : Nat) (auth : Bool) (value : Word) (s : State) : Res :=
  s.guarded (s.chanOn ch && safConfigOff offset) fun s => if auth then opSafConfig ch offset value s else opSafUnauth ch offset s

/-- BLOCK_EN written 0, or SOFT_RESET (R421, R425): outputs off at once, lock-out with cause BLOCK_EN. -/
def opSafStop (ch : Nat) (soft : Bool) (s : State) : State :=
  ((s.outputsOff ch).lockOut ch ⟨8, 0, s.td0⟩).onSaf ch fun x => { x with soft := if soft then some s.td0 else x.soft }

end Sys2Proof.Machine
end

