-- ==== Sys2Proof/Machine/SafetyLayer.lean ====
section
/-! DEFINITION. The safety layer over the black channel (16): telegrams, producers, consumers, degraded mode; and the cycle of a
safety channel as one command (15 R419). -/

namespace Sys2Proof.Machine

/-! ### The telegram (R426, R427) -/

/-- One bit of the telegram's CRC, most significant bit first, without reflection. -/
def tlgBit (c : Nat) : Nat := if 2 ^ 31 ≤ c then (c * 2 % 2 ^ 32) ^^^ 0xF4ACFB13 else c * 2

def tlgByte (c b : Nat) : Nat :=
  tlgBit (tlgBit (tlgBit (tlgBit (tlgBit (tlgBit (tlgBit (tlgBit (c ^^^ (b * 2 ^ 24)))))))))

/-- The check value: the register starts at the connection identity; no final XOR (R427). -/
def tlgCrc (cid : Nat) (l : List Byte) : Nat := l.foldl (fun c b => tlgByte c b.toNat) cid

/-- A telegram (R426). -/
def telegram (cid seq texp : Nat) (data : List Byte) : List Byte :=
  let body := beBytes 4 cid ++ beBytes 4 seq ++ beBytes 2 texp ++ [BitVec.ofNat 8 data.length, 0] ++ data
  body ++ beBytes 4 (tlgCrc cid body)

def tlgCid (b : List Byte) : Nat := beNat (slice b 0 4)
def tlgSeq (b : List Byte) : Nat := beNat (slice b 4 4)
def tlgTexp (b : List Byte) : Nat := beNat (slice b 8 2)
def tlgLen (b : List Byte) : Nat := beNat (slice b 10 1)
def tlgData (b : List Byte) : List Byte := slice b 12 (tlgLen b)

/-- LEN at most 32, every byte there and the CRC right (R432 step 2). DEDUCED, log entry 60. -/
def tlgGood (b : List Byte) : Bool :=
  decide (tlgLen b ≤ 32) && decide (16 + tlgLen b ≤ b.length) &&
    tlgCrc (tlgCid b) (b.take (12 + tlgLen b)) == beNat (slice b (12 + tlgLen b) 4)

/-! ### Connections (R428) -/

def State.connUsed (s : State) (ch c : Nat) : Bool := bitOf (s.rd ch Fd.SAF_CONN_EN.W) c && s.rd ch Fd.CONN_ID.W c != 0
def State.connProducer (s : State) (ch c : Nat) : Bool := s.flag ch Fd.CONN_CFG.DIR c
def State.connState (s : State) (ch c : Nat) : Nat := s.rd ch Fd.CONN_STAT.W c % 4
def State.conn (s : State) (ch c : Nat) : Conn := (s.saf ch).conn.getD c Conn.zero
def State.onConn (s : State) (ch c : Nat) (f : Conn → Conn) : State := s.onSaf ch fun x => { x with conn := setAt x.conn c f }
def State.texp (s : State) (ch c : Nat) : Nat := limited 2 5000 (s.rd ch Fd.CONN_CFG.TEXP c)
def State.degTicks (s : State) (ch c : Nat) : Nat := min 200 (s.rd ch Fd.CONN_CFG.DEG_T c) * 8000000
def State.perTicks (s : State) (ch c : Nat) : Nat := limited 1 1000 (s.rd ch Fd.CONN_PER.W c % 2 ^ 16) * 800000
def State.wantLen (s : State) (ch c : Nat) : Nat := bitsOf (s.rd ch Fd.CONN_PER.W c) 21 16

/-- BAD, in bits 31 to 16 of CONN_COUNT, and DEG_COUNT below it (R444). -/
def badCount : Fld := ⟨0xA, 0xC08, 0x10, 31, 16⟩
def degCount : Fld := ⟨0xA, 0xC08, 0x10, 15, 0⟩

/-- A connection enters a state (R433); in WAIT and DEGRADED step 4 starts anew. -/
def State.enterConn (s : State) (ch c st : Nat) : State :=
  ((s.wr ch Fd.CONN_STAT.W c st).onConn ch c fun x => { x with first := false }).noteView ch

/-! ### Producing (R429-R431) -/

/-- The data a producer sends from the image of a cycle (R429). -/
def State.prodData (s : State) (ch : Nat) : List Byte :=
  let clear := s.rd ch Fd.SAF_STATUS.CLEAR
  let bad := (List.range 32).any fun c => s.connUsed ch c && !s.connProducer ch c && s.connState ch c != 1
  [BitVec.ofNat 8 (clear % 256), BitVec.ofNat 8 (clear / 256), BitVec.ofNat 8 (s.rd ch Fd.SAF_STATUS.OUT_ON),
    BitVec.ofNat 8 (bnat (s.inLockout ch) + 2 * bnat bad)]

/-- Is a telegram due at this boundary (R430)? -/
def State.prodDue (s : State) (ch c : Nat) : Bool :=
  match (s.conn ch c).sent with
  | none => true
  | some (d, t) => d != s.prodData ch || decide (t + s.perTicks ch c ≤ s.td0)

/-- SEQ of the next telegram (R430). -/
def nextSeq (n : Nat) : Nat := if n = 0xFFFFFFFF then 1 else n + 1

/-- The telegrams a channel forms at this boundary (R430, R431). -/
def State.formTelegrams (s : State) (ch : Nat) : List (Nat × List Byte) :=
  ((List.range 32).filter fun c => s.connUsed ch c && s.connProducer ch c && s.prodDue ch c).map fun c =>
    (c, telegram (s.rd ch Fd.CONN_ID.W c) (nextSeq (s.rd ch Fd.CONN_SEQ.W c)) (s.texp ch c) (s.prodData ch))

/-- SAFETY_CYCLE (15 R415-R421): the cycle that ends at this boundary. -/
def opSafetyCycle (ch : Nat) (s : State) : State :=
  let s := ((s.showSig ch).when (decide ((s.saf ch).cycleAt + 800 ≤ s.td0)) (·.imageAbsent ch)).evalCycle ch
  (s.formImage ch (s.formTelegrams ch)).endCycle ch

def execSafetyCycle (ch : Nat) (s : State) : Res :=
  s.always (s.evaluates ch && s.atBoundary && decide ((s.saf ch).cycleAt < s.td0)) (opSafetyCycle ch)

/-- A telegram leaves: both channels count it as sent (R431). -/
def State.sentTelegram (s : State) (c t : Nat) (b : List Byte) : State :=
  s.each [0, 1] fun s ch =>
    ((s.wr ch Fd.CONN_SEQ.W c (tlgSeq b)).wr ch Fd.CONN_STAT.W c 1).onConn ch c fun x => { x with sent := some (tlgData b, t) }

/-- Channel A compares the CRCs of both channels' telegrams; only equal ones leave (R431). -/
def State.produce (s : State) (o p : Image) : State :=
  s.each o.prod fun s e =>
    let crc := fun (b : List Byte) => b.drop (b.length - 4)
    match p.prod.find? (fun x => x.1 == e.1) with
    | some x =>
      if crc x.2 == crc e.2 then
        (s.sendFrame (s.rd 0 Fd.CONN_CFG.PORT e.1) (.telegram e.1 e.2)).sentTelegram e.1 o.tick e.2
      else s.sticky 0 Sk.SAF.PROD_HELD
    | none => s.sticky 0 Sk.SAF.PROD_HELD

/-- CROSS_IMAGE (15 R415, R416, R418): the peer's latest image arrives; in time, it is compared with the channel's own.
DEDUCED, log entry 59. -/
def opCrossImage (ch : Nat) (s : State) : State :=
  match (s.saf (1 - ch)).own with
  | none => s
  | some p =>
    if (s.saf ch).peer.map (·.tick) == some p.tick then s else
      let ok := decide (s.td0 < p.tick + 800)
      let s := (s.onSaf ch fun x => { x with peer := some p }).showPeer ch p ok
      match (s.saf ch).own with
      | some o =>
        if o.tick != p.tick then s
        else if ok then ((s.onSaf ch fun x => { x with met := true }).compareImages ch o p).when (ch == 0) fun s => s.produce o p
        else s.imageAbsent ch
      | none => s

/-- The image crosses on the fabric (R415; 02 R69). -/
def execCrossImage (ch : Nat) (s : State) : Res := s.always (s.evaluates ch && s.joins (1 - ch) ch) (opCrossImage ch)

/-! ### Consuming (R432-R436) -/

/-- The degraded time is over: the connection fails (R435). -/
def State.endDegraded (s : State) (ch c : Nat) : State :=
  if s.connState ch c = 2 && (s.conn ch c).td + s.degTicks ch c ≤ s.td0 then
    (s.enterConn ch c 3).safFault ch Sk.SAF.REMOTE_LOSS 9 c
  else s

/-- The watchdog expires (R434); with no degraded time the connection fails in the same sample (R435). -/
def State.watchdog (s : State) (ch c : Nat) : State :=
  if s.connState ch c = 1 && (s.conn ch c).tv + s.texp ch c * 800000 ≤ s.td0 then
    let s := ((s.enterConn ch c 2).bump ch degCount c 1).sticky ch Sk.SAF.DEGRADED
    let s := s.onConn ch c fun x => { x with td := s.td0 }
    if s.degTicks ch c = 0 then s.endDegraded ch c else s
  else s

def State.consumer (s : State) (ch c : Nat) : Bool := s.connUsed ch c && !s.connProducer ch c && decide (c < 32)

/-- WATCHDOG_EXPIRY. -/
def execWatchdogExpiry (ch c : Nat) (s : State) : Res :=
  s.always (s.evaluates ch && s.atSample && s.consumer ch c) fun s => s.watchdog ch c

/-- DEGRADED_END. -/
def execDegradedEnd (ch c : Nat) (s : State) : Res :=
  s.always (s.evaluates ch && s.atSample && s.consumer ch c) fun s => s.endDegraded ch c

/-- A valid telegram: the connection takes its sequence number and data; the second one in WAIT or DEGRADED makes it VALID
(R432, R433). -/
def State.validTelegram (s : State) (ch c : Nat) (b : List Byte) : State :=
  let st := s.connState ch c
  let open_ := st == 0 || st == 2
  let second := (s.conn ch c).first
  let s := (s.wr ch Fd.CONN_SEQ.W c (tlgSeq b)).onConn ch c fun x => { x with data := tlgData b, tv := s.td0, first := open_ }
  if open_ && second then s.enterConn ch c 1 else s.noteView ch

/-- Steps 2 to 4 (R432), after the timers of the sample (R436). -/
def State.checkTelegram (s : State) (ch c : Nat) (b : List Byte) : State :=
  let bad := fun (s : State) => (s.bump ch badCount c 1).sticky ch Sk.SAF.TLG_BAD
  if !tlgGood b then bad s
  else if tlgTexp b != s.texp ch c || tlgLen b != s.wantLen ch c then
    (s.enterConn ch c 3).safFault ch Sk.SAF.REMOTE_PARAM 10 c
  else
    let st := s.connState ch c
    if (st == 0 || st == 2) && !(s.conn ch c).first then s.validTelegram ch c b
    else
      let d := (tlgSeq b + 2 ^ 32 - s.rd ch Fd.CONN_SEQ.W c) % 2 ^ 32
      if d = 0 then s else if d < 32 then s.validTelegram ch c b else bad s

/-- One telegram is checked (R432). -/
def opTelegram (ch : Nat) (b : List Byte) (s : State) : State :=
  match (List.range 32).find? (fun c => s.consumer ch c && s.rd ch Fd.CONN_ID.W c == tlgCid b) with
  | none => s.sticky ch Sk.SAF.UNKNOWN_CID
  | some c => ((s.watchdog ch c).endDegraded ch c).checkTelegram ch c b

/-- TELEGRAM_TAKE (R432): the first telegram whose last byte reached the receiving MAC at least 2 µs ago. -/
def execTelegramTake (ch : Nat) (s : State) : Res :=
  s.always (s.evaluates ch && s.atSample) fun s =>
    match (s.saf ch).inbox.find? fun e => decide (e.1 + 1600 ≤ s.td0) with
    | none => s
    | some e => opTelegram ch e.2 (s.onSaf ch fun x => { x with inbox := x.inbox.erase e })

end Sys2Proof.Machine
end

