-- ==== Sys2Proof/Machine/SelfTest.lean ====
section
/-! DEFINITION. Self-test during operation (18): slices, repair, fuse repair, the engine signature test, the DRAM patrol. -/

namespace Sys2Proof.Machine

/-- Self-test runs on every die, in every device state from CONFIG on (R470, R487). -/
def State.testsRun (s : State) (d : Nat) : Bool := s.on d 0xD && decide (3 ≤ s.device.code)

/-- The page that owns a macro (R470). PRESUMED, log entry 66. -/
def macroPage (m : Nat) : Nat :=
  if m < 40 then 0x5 else if m < 44 then 0x2 else if m < 108 then 0x6 else if m < 140 then 0x7 else if m < 156 then 0x10
  else if m < 220 then 0xF else if m < 232 then 0x9 else if m < 240 then 0xA else if m < 248 then 0xE else if m < 252 then 0x4
  else if m < 254 then 0x3 else 0x8

/-! ### Fuses (19 R488, R489) -/

/-- Fuse bits are burned; a burned bit stays. DEDUCED, log entry 69. -/
def State.burnFuse (s : State) (d lo v : Nat) : State :=
  s.onDie d fun x => { x with sec := { x.sec with fuses := x.sec.fuses ||| (BitVec.ofNat 4096 v <<< lo) } }

def State.repairEntry (s : State) (d i : Nat) : Nat := s.fuse d (2760 + 20 * i) 20

/-- The free REPAIR entries, ascending. -/
def State.freeRepairs (s : State) (d : Nat) : List Nat := (List.range 32).filter fun i => bitsOf (s.repairEntry d i) 11 10 == 0

/-- A macro's repairs in use: kind and what the spare replaces (R477, 19 R489). -/
def State.repairs (s : State) (d m : Nat) : List (Nat × Nat) :=
  let rows := s.rd d Fd.MACRO_STAT.ROWS_USED m
  (if 1 ≤ rows then [(1, s.rd d Fd.MACRO_STAT.ROW0 m)] else []) ++
    (if 2 ≤ rows then [(2, s.rd d Fd.MACRO_STAT.ROW1 m)] else []) ++
    (if s.flag d Fd.MACRO_STAT.COL_USED m then [(3, s.rd d Fd.MACRO_STAT.COL m)] else [])

/-- The soft repairs of a macro that are not fused yet (R480). -/
def State.unfused (s : State) (d m : Nat) : List (Nat × Nat) :=
  (s.repairs d m).filter fun r => !((List.range 32).any fun i =>
    bitsOf (s.repairEntry d i) 19 12 == m && bitsOf (s.repairEntry d i) 11 10 == r.1)

def State.showFree (s : State) (d : Nat) : State := s.wr d Fd.BIST_FUSE_STAT.FREE 0 (s.freeRepairs d).length

/-- In BOOT the fused repairs are applied and marked (R481). -/
def State.applyFused (s : State) (d : Nat) : State :=
  let s := s.each (List.range 32) fun s i =>
    let e := s.repairEntry d i
    let m := bitsOf e 19 12
    let s := s.when (bitsOf e 11 10 != 0) fun s => s.wrB d Fd.MACRO_STAT.FUSED m true
    match bitsOf e 11 10 with
    | 1 => (s.wr d Fd.MACRO_STAT.ROW0 m (bitsOf e 9 0)).wr d Fd.MACRO_STAT.ROWS_USED m (max 1 (s.rd d Fd.MACRO_STAT.ROWS_USED m))
    | 2 => (s.wr d Fd.MACRO_STAT.ROW1 m (bitsOf e 9 0)).wr d Fd.MACRO_STAT.ROWS_USED m 2
    | 3 => (s.wr d Fd.MACRO_STAT.COL m (bitsOf e 5 0)).wrB d Fd.MACRO_STAT.COL_USED m true
    | _ => s
  s.showFree d

/-- A burn is in progress somewhere in the package: a repair burn or an owner operation (19 R489). -/
def State.burning (s : State) : Bool := s.dieList.any fun d => (s.bist d).burn.isSome || (s.die d).sec.burn.isSome

/-- A write of GO in BIST_FUSE that reached it (R480): the repairs that are soft now are burned, into the lowest free entries. -/
def opFuseBurn (d m : Nat) (s : State) : State :=
  let l := s.unfused d m
  if s.device != .standstill || s.burning || l.isEmpty || (s.freeRepairs d).length < l.length then s.sticky d Sk.BIST.FUSE_REFUSED
  else (s.wrB d Fd.BIST_STATUS.FUSE_BUSY 0 true).onBist d fun b => { b with
    burn := some (m, (s.freeRepairs d).zip l), burnAt := s.td0 }

def execFuseBurn (d macro_ : Nat) (s : State) : Res := s.guarded (s.alive d && decide (macro_ < 256)) (opFuseBurn d macro_)

/-- The end of a burn (R480). DESIGN CHOICE, log entry 77. -/
def opFuseDone (d : Nat) (s : State) : State :=
  match (s.bist d).burn with
  | none => s
  | some (m, l) =>
    let s := s.each l fun s p => s.burnFuse d (2760 + 20 * p.1) (m * 4096 + p.2.1 * 1024 + p.2.2)
    let s := (s.wrB d Fd.BIST_STATUS.FUSE_BUSY 0 false).onBist d fun b => { b with burn := none }
    (s.sticky d Sk.BIST.FUSE_DONE).showFree d

/-- FUSE_DONE. -/
def execFuseDone (d : Nat) (s : State) : Res := s.guarded (s.alive d) (opFuseDone d)

/-! ### The class A schedule (R473) -/

/-- A critical loop slot of the die is waiting or running. -/
def State.criticalBusy (s : State) (d : Nat) : Bool := slots.any fun sl => s.cond d sl != 0 && !s.flag d Fd.SLOT_CTRL.DEFER sl

/-- The position a time domain reaches n ticks from now, at its present rate. -/
def State.positionIn (s : State) (d dom n : Nat) : Int :=
  if dom = 8 then s.td0 + n else ((s.wallTime d (dom - 8)).2 + wallInc (s.wallTrim d (dom - 8)) * n) / 2 ^ 48

/-- An armed LATCH, START, EMIT or SWAP entry reaches its compare within 800 ticks from this one on (03 R85 for an angle). -/
def State.milestoneNear (s : State) (d : Nat) : Bool :=
  (s.armedList d).any fun i =>
    let dom := s.msDom d i
    decide (dom < 12) && [1, 2, 3, 4].contains (s.msAction d i) &&
      (if dom < 8 then decide (s.stamp d dom (s.compare d i) < s.now + 6400) else decide (s.compare d i ≤ s.positionIn d dom 799))

def State.macroFailed (s : State) (d m : Nat) : Bool := s.flag d Fd.MACRO_STAT.FAILED m

/-- The slice that is next from macro m, slice j: macros ascending, FAILED ones skipped (R473). -/
def State.sliceFrom (s : State) (d m j : Nat) : Option (Nat × Nat) :=
  if m < 256 && !s.macroFailed d m && decide (j < 16) then some (m, j)
  else (((List.range 256).find? fun k => decide (m < k) && !s.macroFailed d k).map fun k => (k, 0))

def State.nextTest (s : State) (d : Nat) : Option (Nat × Nat) :=
  match s.sliceFrom d (s.bist d).nextMacro (s.bist d).nextSlice with
  | some x => some x
  | none => s.sliceFrom d 0 0

/-- SLICE_PER has passed since the previous slice started; a retest does not wait for it (R473, R477). -/
def State.sliceDue (s : State) (d : Nat) : Bool :=
  (s.bist d).retest ||
    (match (s.bist d).lastAt with
    | none => true
    | some t => decide (t + max 1 (s.rd d Fd.BIST_PACE.SLICE_PER) * 800 ≤ s.td0))

/-- SLICE_START (R473). -/
def execSliceStart (d : Nat) (s : State) : Res :=
  s.guarded (s.testsRun d && !s.throttled d && s.flag d Fd.BIST_CTRL.SLICE_EN && !s.burning && (s.bist d).slice.isNone && s.sliceDue d &&
      !s.criticalBusy d && (s.die d).ep.running.isNone && !s.milestoneNear d) fun s =>
    match s.nextTest d with
    | none => s
    | some (m, j) =>
      let s := ((s.wrB d Fd.BIST_STATUS.SLICE_BUSY 0 true).wr d Fd.BIST_STATUS.MACRO 0 m).wr d Fd.BIST_STATUS.SLICE 0 j
      s.onBist d fun b => { b with
        slice := some s.td0, lent := 0, lastAt := some s.td0, nextMacro := m, nextSlice := j
        passAt := if b.done = 0 && !b.retest then s.td0 else b.passAt }

/-! ### Accesses during a slice (R472) -/

/-- The macro that holds a store key, of the memories whose layout the spec gives (R470). PRESUMED, log entry 66. -/
def keyMacro (key : Nat) : Option Nat :=
  if key < 0x80000 then none
  else if key < 0xB0000 then some ((key - 0x80000) / 0x2000)
  else if key < 0xD0000 then some (24 + (key - 0xB0000) / 0x4000)
  else if key < 0xF0000 then some (32 + (key - 0xD0000) / 0x4000)
  else if key < 0xF8000 then some (40 + (key - 0xF0000) / 0x2000)
  else none

/-- An access to a macro takes the tick from the slice that holds it; a tick is lent once. The access itself is served as without the
slice: the save buffer holds the words as they stand (R472). -/
def State.lend (s : State) (d : Nat) (keys : List Nat) : State :=
  let b := s.bist d
  let m := s.rd d Fd.BIST_STATUS.MACRO
  if b.slice.isSome && decide (b.lentAt < s.td0) && keys.any (fun k => keyMacro k == some m) then
    s.onBist d fun b => { b with lent := b.lent + 1, lentAt := s.td0 }
  else s

/-- The words an instance reads with the issue it makes in this tick: its instruction, and the state or coefficient words that one names. -/
def State.issueKeys (s : State) (d e i : Nat) : List Nat :=
  if !s.running d e i then [] else
    let x := s.inst d e i
    let w := decodeLoop (s.fetch d e i)
    progKey e x.pc :: (if w.mode = 0 then [stateKey (s.stateBase d x + offOf w)]
      else if w.mode = 1 then [coefKey (s.coefBase d x + offOf w)] else [])

/-- The accesses of the loop engines in this tick: the issues that are due, and the state words written. Accesses of the other units to
their buffers, whose layout the spec does not give, are a slice's further ticks. DESIGN CHOICE, log entry 66. -/
def State.lendEngines (s : State) (d : Nat) : State :=
  if (s.bist d).slice.isNone then s else
    s.lend d (((List.range 6).flatMap fun e => (List.range 8).flatMap fun i => s.issueKeys d e i) ++
      ((s.die d).le.stores.filter fun t => t.tick == (s.td0 : Int)).map fun t => stateKey t.addr)

/-! ### The end of a slice (R471, R475-R479) -/

/-- The test cycle in which a march element reads word w of its slice (R471). That M5 ascends is a DESIGN CHOICE, log entry 65. -/
def marchAt (element w : Nat) : Nat :=
  match element with
  | 1 => 140 + 2 * w
  | 2 => 268 + 2 * w
  | 3 => 396 + 2 * (63 - w)
  | 4 => 524 + 2 * (63 - w)
  | _ => 652 + w

/-- A failing cell that a read of slice j can have found, which began at tick t and has lent `lent` ticks: its word is one of the slice's, the
expected value its element's, and its tick that read's (R471, R472, R476). -/
def failFits (f : FailCell) (j lent : Nat) (t : Int) : Bool :=
  let at_ := t + (marchAt f.element (f.word % 64) : Int)
  decide (f.word / 64 = j) && decide (f.bit < 64) && decide (1 ≤ f.element) && decide (f.element ≤ 5) &&
    f.exp == (f.element % 2 == 0) && decide (at_ ≤ f.tick) && decide ((f.tick : Int) ≤ at_ + lent)

/-- The order of the test cycles; the cells of one read by bit. DESIGN CHOICE, log entry 65. -/
def failFirst (a b : FailCell) : Bool := decide (a.tick < b.tick) || (a.tick == b.tick && decide (a.bit ≤ b.bit))

/-- Store keys of a test word of the mapped memories: programs, coefficients, state, milestones (R470). PRESUMED, log entry 66. -/
def wordKeys (m w : Nat) : List Nat :=
  if m < 24 then (List.range 2).map fun k => 0x80000 + 0x8000 * (m / 4) + 4 * ((m % 4) * 2048 + 2 * w + k)
  else if m < 32 then (List.range 4).map fun k => 0xB0000 + 4 * ((m - 24) * 4096 + 4 * w + k)
  else if m < 40 then (List.range 4).map fun k => 0xD0000 + 4 * ((m - 32) * 4096 + 4 * w + k)
  else if m < 44 then (List.range 2).map fun k => 0xF0000 + 4 * ((m - 40) * 2048 + 2 * w + k)
  else []

/-- What a word that held a failing cell holds after the slice is open (R479). -/
def State.scramble (s : State) (d m w : Nat) : State :=
  s.each (wordKeys m w) fun s k =>
    let r := s.freeW
    r.2.putCell d k (if 24 ≤ m && m < 40 then r.1 &&& 0xFFFF#32 else r.1)

/-- The contents of the words of a slice are open (R474): slice j holds test words 64j to 64j + 63 (R471). -/
def State.openSlice (s : State) (d m j : Nat) : State := s.each (List.range 64) fun s w => s.scramble d m (64 * j + w)

/-- The macro becomes FAILED (R477, R486). -/
def State.failMacro (s : State) (d m : Nat) : State :=
  let s := ((s.wrB d Fd.MACRO_STAT.FAILED m true).sticky d Sk.BIST.UNREPAIRABLE).stick d (macroPage m) 29
  s.when (s.flag d Fd.BIST_CTRL.MEM_FLT) (·.raise d 0x0D0)

/-- The repair a set of failing cells gets, if it can be repaired (R477). -/
def State.repairOf (s : State) (d m : Nat) (cells : List (Nat × Nat)) : Option State :=
  let words := (cells.map (·.1)).eraseDups
  let bits := (cells.map (·.2)).eraseDups
  let used := s.rd d Fd.MACRO_STAT.ROWS_USED m
  if words.length ≤ 2 - used then
    some ((s.each ((List.range words.length).zip words) fun s e =>
      s.wr d (if used + e.1 = 0 then Fd.MACRO_STAT.ROW0 else Fd.MACRO_STAT.ROW1) m e.2).wr d Fd.MACRO_STAT.ROWS_USED m (used + words.length))
  else match bits with
    | [b] => if s.flag d Fd.MACRO_STAT.COL_USED m then none else some ((s.wr d Fd.MACRO_STAT.COL m b).wrB d Fd.MACRO_STAT.COL_USED m true)
    | _ => none

/-- Failing cells are counted, the first one recorded (R476). DEDUCED, log entry 65. -/
def State.recordFails (s : State) (d m : Nat) (fails : List FailCell) : State :=
  let s := s.bump d Fd.FAIL_COUNT.FAIL_BITS 0 fails.length
  let s := match fails with
    | [] => s
    | f :: _ =>
      if s.stuckAt d 0xD 1 then s else
        let loc := m * 2 ^ 24 + f.word % 1024 * 2 ^ 14 + f.bit % 64 * 2 ^ 8 + bnat f.exp * 2 ^ 7 + f.element % 8 * 2 ^ 4
        (s.putCell d 0xD02C (BitVec.ofNat 32 loc)).putCell d 0xD030 (BitVec.ofNat 32 (loWord f.tick))
  ((s.bump d Fd.FAIL_COUNT.FAILED_SLICES 0 1).sticky d Sk.BIST.MEM_FAULT).stick d (macroPage m) 29

/-- The slice after (m, j) is next; past the last one the pass is complete (R473, R475). -/
def State.passOn (s : State) (d m j : Nat) : State :=
  let s := s.onBist d fun b => { b with done := b.done + 1 }
  match s.sliceFrom d m (j + 1) with
  | some (m', j') => s.onBist d fun b => { b with nextMacro := m', nextSlice := j' }
  | none =>
    let ms := (((s.td0 : Int) - (s.bist d).passAt) / 800000).toNat
    let s := (s.bump d Fd.BIST_PASS.PASSES 0 1).wr d Fd.BIST_PASS.LAST_PASS_MS 0 (satU 16 ms)
    (s.sticky d Sk.BIST.PASS_DONE).onBist d fun b => { b with nextMacro := 0, nextSlice := 0, done := 0 }

/-- SLICE_END: the slice's failing cells are counted, repaired if they can be, and its words restored. DEDUCED, log entry 65. -/
def opSliceEnd (d : Nat) (fails : List FailCell) (s : State) : State :=
  match (s.bist d).slice with
  | none => s
  | some t =>
    let lent := ((s.td0 : Int) - t - 780).toNat
    if s.td0 < t + 780 + (s.bist d).lent || !(fails.all fun f => failFits f (s.rd d Fd.BIST_STATUS.SLICE) lent t) then s else
    let fails := sortBy failFirst fails
    let m := s.rd d Fd.BIST_STATUS.MACRO
    let j := s.rd d Fd.BIST_STATUS.SLICE
    let was := (s.bist d).retest
    let s := (s.wrB d Fd.BIST_STATUS.SLICE_BUSY 0 false).wr d Fd.SLICE_TIME.LAST_TICKS 0 (satU 16 ((s.td0 : Int) - t).toNat)
    let s := s.onBist d fun b => { b with slice := none, retest := false }
    if fails.isEmpty then
      (s.when was fun s => (s.sticky d Sk.BIST.REPAIRED).stick d (macroPage m) 30).passOn d m j
    else
      let cells := fails.map fun f => (f.word, f.bit)
      let s := s.recordFails d m fails
      let s := s.each (cells.map (·.1)).eraseDups fun s w => s.scramble d m w
      let fix := if was || !s.flag d Fd.BIST_CTRL.REP_MODE then none else s.repairOf d m cells
      match fix with
      | some s' => s'.onBist d fun b => { b with retest := true }
      | none => (s.failMacro d m).passOn d m j

def execSliceEnd (d : Nat) (fails : List FailCell) (s : State) : Res := s.guarded (s.alive d) (opSliceEnd d fails)

/-! ### Engine signature test (R482-R484) -/

/-- The engine that is the target now, with the tick it became one: the same engine again after an INCOMPLETE test.
DEDUCED, log entry 67. -/
def State.engTarget (s : State) (d : Nat) : Option (Nat × Int) :=
  let b := s.bist d
  let k := (((s.td0 : Int) - b.engAt) / s.engPer d).toNat
  if b.again then some (b.target, b.engAt) else if k = 0 then none else some ((b.target + k) % 6, b.engAt + k * s.engPer d)

/-- ENGINE_TEST_START (R482): the lowest free instance of the target. -/
def execEngineTestStart (d : Nat) (s : State) : Res :=
  s.guarded (s.testsRun d && !s.throttled d && s.on d 5 && s.flag d Fd.BIST_CTRL.ENG_EN && (s.bist d).eng.isNone) fun s =>
    match s.engTarget d with
    | none => s
    | some (e, t) =>
      if !(s.waitingOn d e).isEmpty || (s.freeInst d e).length ≤ s.critRes d e then s else
        match s.freeInst d e with
        | [] => s
        | i :: _ =>
          let s := (s.onInst d e i fun x => { x with test := true }).wrB d Fd.BIST_STATUS.ENG_TEST 0 true
          s.onBist d fun b => { b with eng := some (e, i), engFirst := s.firstIssue d i, target := e, engAt := t }

def execEngineTestYield (d : Nat) (s : State) : Res := s.guarded (s.alive d) (opEngineYield d)

/-- ENGINE_TEST_END (R484): the issues it made, at most one in 16 ticks, and its MISR. -/
def execEngineTestEnd (d : Nat) (issues : Nat) (sig : Word) (s : State) : Res :=
  s.guarded (s.alive d && decide (issues ≤ s.testIssues d)) (·.endTest d issues sig)

/-! ### DRAM patrol (R485) -/

/-- The line the patrol reads now: PATROL_POS, or PATROL_LO when that lies outside the range. DEDUCED, log entry 68. -/
def State.patrolLine (s : State) (d : Nat) : Nat :=
  let p := s.rd d Fd.PATROL_POS.LINE
  let lo := s.rd d Fd.PATROL_LO.LINE
  if p < lo || s.rd d Fd.PATROL_HI.LINE < p then lo else p

def State.patrolDue (s : State) (d : Nat) : Bool :=
  match (s.bist d).patrolAt with
  | none => true
  | some t => decide (t + max 1 (s.rd d Fd.PATROL_LO.PATROL_US) * 800 ≤ s.td0)

/-- PATROL_READ: the CRC outcomes of the line's reads; a line never written fails both. DEDUCED, log entry 68. -/
def execPatrolRead (d : Nat) (first second : Bool) (s : State) : Res :=
  s.guarded (s.testsRun d && s.dramOn d && s.flag d Fd.BIST_CTRL.PATROL_EN && s.patrolDue d) fun s =>
    let l := s.patrolLine d
    let w := (s.die d).recorder.written.contains l
    let s :=
      if w && first then s
      else if w && second then (s.bump d Fd.PATROL_COUNT.SOFT 0 1).sticky d Sk.BIST.PATROL_SOFT
      else ((s.bump d Fd.PATROL_COUNT.HARD 0 1).wr d Fd.PATROL_ERR.ERR_LINE 0 l).sticky d Sk.BIST.PATROL_ERR
    let next := if s.rd d Fd.PATROL_HI.LINE ≤ l then s.rd d Fd.PATROL_LO.LINE else l + 1
    (s.wr d Fd.PATROL_POS.LINE 0 next).onBist d fun b => { b with patrolAt := some s.td0 }

/-! ### Registers with an effect -/

/-- A write of BIST_CTRL: the sources follow MEM_FLT and ENG_FLT (R486). -/
def opBistCtrl (d : Nat) (s : State) : State :=
  let anyFailed := (List.range 256).any fun m => s.macroFailed d m
  let s := s.when (anyFailed && s.flag d Fd.BIST_CTRL.MEM_FLT) (·.raise d 0x0D0)
  s.when (!(s.bist d).failing.isEmpty && s.flag d Fd.BIST_CTRL.ENG_FLT) (·.raise d 0x0D1)

/-- SOFT_RESET of the BIST page starts the patrol anew (R487); the pass, its slices and the target stand (R474, R484). -/
def opBistReset (d : Nat) (s : State) : State := s.onBist d fun b => { b with patrolAt := none }

/-- What ends with a tick: an engine test that must give up its instance, and a burn that has taken 2 ms (R480, R483). -/
def State.endTests (s : State) (d : Nat) : State :=
  let s := opEngineYield d s
  s.when ((s.bist d).burn.isSome && decide ((s.bist d).burnAt + 1600000 ≤ s.td0)) (opFuseDone d)

end Sys2Proof.Machine
end

