-- ==== Sys2Proof/Machine/Security.lean ====
section
/-! DEFINITION. Attestation, the command key, critical commands and owner fuses (19 R488-R506). -/

namespace Sys2Proof.Machine

/-! ### The operation buffer (R507): byte 4w of word w in [31:24] -/

def State.bufBytes (s : State) (d n : Nat) : List Byte :=
  ((List.range 128).flatMap fun w => beBytes 4 (s.rd d Fd.BUF.W w)).take n

def State.putBuf (s : State) (d : Nat) (bytes : List Byte) : State :=
  s.each (List.range ((bytes.length + 3) / 4)) fun s w => s.wr d Fd.BUF.W w (beNat ((slice bytes (4 * w) 4 ++ [0, 0, 0]).take 4))

/-! ### Fuses as the page shows them (R488, R507) -/

def State.privKey (s : State) (d : Nat) : BitVec 384 := BitVec.ofNat 384 (s.fuse d 0 384)

/-- FUSE_RD word w: words 0 to 11 read 0. -/
def State.fuseWord (s : State) (d w : Nat) : Nat := if w < 12 then 0 else s.fuse d (32 * w) 32

/-- FUSE_STAT: owner slots in use and revoked. -/
def State.fuseStat (s : State) (d : Nat) : Nat :=
  ofBits (fun k => s.ownerSlot d k != 0) 4 + 16 * ofBits (fun k => s.revoked d k) 4

/-- Word w of IDPUB, the last padded with 0. -/
def State.idPub (s : State) (d w : Nat) : Nat :=
  beNat ((slice (beBytes 97 (Config.publicKey (s.privKey d)).toNat ++ [0, 0, 0]) (4 * w) 4))

/-! ### Attestation (R500) -/

/-- Bytes 0 to 247 of the report. -/
def State.report (s : State) (d : Nat) : List Byte :=
  beBytes 4 0x4B4C4441 ++ [1, BitVec.ofNat 8 s.part.dies] ++
    beBytes 1 (ofBits (fun k => s.usable d k) 4 + 16 * ofBits (fun k => s.revoked d k) 4) ++ beBytes 1 s.device.code ++
    beBytes 8 (s.idOf d) ++ beBytes 4 (s.rd d Fd.EPOCH.W) ++ [0, 0, 0, 0] ++ s.bufBytes d 32 ++
    (s.sec d).digest.flatMap fun g => (g ++ List.replicate 48 0).take 48

/-- An operation of OP_CTRL begins: busy until SEC_OP_DONE (R505, R507). -/
def State.beginOp (s : State) (d op result : Nat) (out : List Byte) : State :=
  (s.wr d Fd.OP_STAT.STAT 0 1).onSec d fun x => { x with op := some (op, result, out) }

/-- GO with OP 1 (R500): the report of this moment, signed by the package's or the node's identity; it stands in BUF once the operation is
done. -/
def opAttest (d : Nat) (s : State) : State :=
  let s := s.wr d Fd.OP_CTRL.OP 0 1
  if d != 0 then s
  else if s.secBusy d then s.sticky d Sk.SEC.SEC_BUSY
  else
    let r := s.report d
    let n := s.freeN
    n.2.beginOp d 1 0 (r ++ beBytes 96 (Config.ecdsaSign (s.privKey d) r n.1).toNat)

def execAttest (d : Nat) (s : State) : Res := s.guarded (s.alive d) (opAttest d)

/-! ### The command key (R501, R502) -/

/-- HMAC-SHA-384 as bytes. -/
def hmac (key msg : List Byte) : List Byte := beBytes 48 (Config.hmac384 key msg).toNat

/-- The command key that an agreement gives: HMAC-SHA-384 under Z over "KLD-CMD", EPOCH and ID. -/
def State.newKey (s : State) (d : Nat) (qe : List Byte) : List Byte :=
  hmac (beBytes 48 (Config.ecdh (s.privKey d) qe).toNat) ([0x4B, 0x4C, 0x44, 0x2D, 0x43, 0x4D, 0x44] ++ beBytes 4 (s.rd d Fd.EPOCH.W) ++ beBytes 8 (s.idOf d))

/-- The RESULT of the checks on a key establishment: codes 3, 4 and 7 of R496. DESIGN CHOICE, log entry 7. -/
def State.keyResult (s : State) (d slot : Nat) : Nat :=
  let b := s.bufBytes d 193
  let qe := b.take 97
  if !s.usable d slot then 3
  else match Config.ownerCheck (s.ownerSlot d slot) (beBytes 4 (s.rd d Fd.EPOCH.W) ++ qe) (b.drop 97) with
    | 0 => if Config.onCurve qe then 0 else 7
    | 4 => 4
    | _ => 7

/-- GO with OP 2. -/
def opEstablishKey (d slot : Nat) (s : State) : State :=
  let s := (s.wr d Fd.OP_CTRL.OP 0 2).wr d Fd.OP_CTRL.SLOT 0 slot
  if d != 0 then s
  else if s.secBusy d then s.sticky d Sk.SEC.SEC_BUSY
  else s.beginOp d 2 (s.keyResult d slot) (s.newKey d (s.bufBytes d 97))

def execEstablishKey (d : Nat) (slot : BitVec 2) (s : State) : Res := s.guarded (s.alive d) (opEstablishKey d slot.toNat)

/-- A new command key: the last accepted counter becomes EPOCH x 2^32. -/
def State.setKey (s : State) (d : Nat) (k : List Byte) : State :=
  let s := ((s.onSec d fun x => { x with key := some k }).wr d Fd.CTR_LO.W 0 0).wr d Fd.CTR_HI.W 0 (s.rd d Fd.EPOCH.W)
  s.sticky d Sk.SEC.KEY_SET

/-- SEC_OP_DONE (R500, R502). -/
def execSecOpDone (d : Nat) (s : State) : Res :=
  s.guarded (s.alive d) fun s =>
    match (s.sec d).op with
    | none => s
    | some (op, result, out) =>
      let s := (s.wr d Fd.OP_STAT.RESULT 0 result).onSec d fun x => { x with op := none }
      if result = 0 then
        let s := (s.wr d Fd.OP_STAT.STAT 0 2).sticky d Sk.SEC.OP_DONE
        if op = 2 then s.setKey d out else s.putBuf d out
      else (s.wr d Fd.OP_STAT.STAT 0 3).sticky d Sk.SEC.OP_FAIL

/-! ### Critical commands (R503) -/

/-- The last accepted counter. -/
def State.lastCounter (s : State) (d : Nat) : Nat := s.rd d Fd.CTR_LO.W + s.rd d Fd.CTR_HI.W * 2 ^ 32

/-- The first 16 bytes of HMAC-SHA-384 under K. -/
def tagOf (key msg : List Byte) : List Byte := (hmac key msg).take 16

/-- What a critical command's check gives, as AUTH_STAT codes it: 1 accepted, 2 AUTH_FAIL, 3 REPLAY. -/
def State.cmdCheck (s : State) (d ctr : Nat) (msg tag : List Byte) : Nat :=
  match (s.sec d).key with
  | none => 2
  | some k =>
    if tag != tagOf k msg || ctr / 2 ^ 32 != s.rd d Fd.EPOCH.W then 2
    else if ctr ≤ s.lastCounter d then 3 else 1

/-- The effect of the check: an accepted counter is kept, a failure sets its sticky bit. -/
def State.cmdJudge (s : State) (d ctr : Nat) (verdict : Nat) : State :=
  match verdict with
  | 1 => (s.wr d Fd.CTR_LO.W 0 (loWord ctr)).wr d Fd.CTR_HI.W 0 (hiWord ctr)
  | 2 => s.sticky d Sk.SEC.AUTH_FAIL
  | _ => s.sticky d Sk.SEC.REPLAY

/-! ### Owner fuses (R493, R506) -/

/-- An owner slot of a die's own fuses, and its REVOKE bit. -/
def State.ownSlot (s : State) (d k : Nat) : Nat := s.fuse d (1216 + 384 * k) 384
def State.ownRevoked (s : State) (d k : Nat) : Bool := s.fuse d (2752 + k) 1 == 1
def State.ownUsable (s : State) (d k : Nat) : Bool := s.ownSlot d k != 0 && !s.ownRevoked d k

/-- Some slot of the part is programmed: FUSE_OP is guarded (R493). -/
def State.partOwned (s : State) : Bool := [0, 1, 2, 3].any fun k => s.ownSlot 0 k != 0

/-- An owner burn begins, unless a burn, an operation or a verification stands in its way (R489, R505). DEDUCED, log entry 70. -/
def State.beginBurn (s : State) (d op slot value : Nat) : State :=
  if s.secBusy d || s.burning then s.sticky d Sk.SEC.SEC_BUSY
  else s.onSec d fun x => { x with burn := some (op, slot, value), burnAt := s.td0 }

/-- FUSE_OP with OP 1: an empty slot is programmed from BUF bytes 0 to 47; unauthenticated only on an unowned part. -/
def opFuseProgram (d slot : Nat) (auth : Bool) (s : State) : State :=
  if !auth && s.partOwned then s.stick d 0xE 31
  else if !s.loadState || s.ownSlot d slot != 0 then s
  else s.beginBurn d 1 slot (beNat (s.bufBytes d 48))

def execFuseProgram (d : Nat) (slot : BitVec 2) (auth : Bool) (s : State) : Res :=
  s.guarded (s.alive d) (opFuseProgram d slot.toNat auth)

/-- FUSE_OP with OP 2: an unrevoked slot is revoked, but not the last usable one. -/
def opFuseRevoke (d slot : Nat) (auth : Bool) (s : State) : State :=
  let others := [0, 1, 2, 3].any fun k => k != slot && s.ownUsable d k
  if !auth then s.stick d 0xE 31
  else if !s.loadState || s.ownRevoked d slot || (s.ownUsable d slot && !others) then s
  else s.beginBurn d 2 slot 1

def execFuseRevoke (d : Nat) (slot : BitVec 2) (auth : Bool) (s : State) : Res :=
  s.guarded (s.alive d) (opFuseRevoke d slot.toNat auth)

/-- Revocation takes effect at once (R506): also in the copies of die 0's REVOKE that dies 1 to 7 made at BOOT (R491). -/
def State.revokeCopies (s : State) (slot : Nat) : State :=
  s.each (s.dieList.filter (· != 0)) fun s d => s.onSec d fun x => { x with copied := x.copied ||| (1#1540 <<< (1536 + slot)) }

/-- A burn is complete. -/
def opFuseOpDone (d : Nat) (s : State) : State :=
  match (s.sec d).burn with
  | none => s
  | some (op, slot, value) =>
    let s := s.burnFuse d (if op = 1 then 1216 + 384 * slot else 2752 + slot) value
    let s := s.when (op == 2 && d == 0) (·.revokeCopies slot)
    (s.onSec d fun x => { x with burn := none }).sticky d Sk.SEC.OP_DONE

/-- FUSE_OP_DONE. -/
def execFuseOpDone (d : Nat) (s : State) : Res := s.guarded (s.alive d) (opFuseOpDone d)

/-- A burn has taken 2 ms, the most it takes (R506). -/
def State.endBurn (s : State) (d : Nat) : State :=
  s.when ((s.sec d).burn.isSome && decide ((s.sec d).burnAt + 1600000 ≤ s.td0)) (opFuseOpDone d)

/-- SOFT_RESET of the SEC page (R507), beside the registers: a load is aborted, an operation dropped; a burn runs on. -/
def opSecReset (d : Nat) (s : State) : State :=
  let s := s.when (s.imgBusy d) fun s => s.imgEnd d 8
  s.onSec d fun x => { x with op := none, words := [] }

end Sys2Proof.Machine
end

