-- ==== Sys2Proof/Machine/Startup.lean ====
section
/-! DEFINITION. Supplies, reset, boot and the host's commands for the device state (01 R33-R37; 17 R447; 21 R521-R536). -/

namespace Sys2Proof.Machine

/-! ### Reset (R521, R524, R525) -/

/-- What a die reset keeps of the CLK page: the loss record and the band tables (R525, 13 R349). -/
def keptClk (key : Nat) : Bool :=
  key == 0x103C || key == 0x1040 || key == 0x1044 || (decide (0x1100 ≤ key) && decide (key < 0x1200))

/-- A die as its reset leaves it, in its reset hold; its fuses stay. Power-up also clears the band tables and the loss record. -/
def Die.toReset (powerUp : Bool) (x : Die) : Die :=
  { Die.zero with
    cells := if powerUp then [] else x.cells.filter fun e => keptClk e.1
    sec := { Sec.zero with fuses := x.sec.fuses } }

/-- What the die resets of a part in `old` leave in the words of a slice that a reset cut: open values (18 R474). -/
def State.openSlices (s old : State) (l : List Nat) : State :=
  s.each (l.filter fun d => (old.bist d).slice.isSome) fun s d =>
    s.openSlice d (old.rd d Fd.BIST_STATUS.MACRO) (old.rd d Fd.BIST_STATUS.SLICE)

/-- Every die of the part is reset; the outputs are low (R521). DESIGN CHOICE, log entry 17. -/
def State.resetAll (s : State) (new : DevState) (powerUp : Bool) : State :=
  let t := { State.resetOf s.part with
    device := new, last := s.device, dies := s.dies.map (Die.toReset powerUp), free := s.free, pending := s.pending }
  if powerUp then t else { t with tap := s.tap }.openSlices s s.dieList

/-- Power-good levels in mV of VDD_CORE, VDD_SER, VDD_IO18, VDD_IO33, VDD2 and VDDQ; the last two are not monitored on a KLD-1C
(22 R543). -/
def goodLevels (head : Bool) : List Nat := [720, 810, 1550, 2900] ++ (if head then [980, 520] else [])

/-- Every supply has risen above its power-good level. -/
def powerGood (head : Bool) (mv : List Nat) : Bool :=
  (List.range (goodLevels head).length).all fun i => decide ((goodLevels head).getD i 0 < mv.getD i 0)

/-- A supply has fallen 20 mV below its power-good level. -/
def powerLost (head : Bool) (mv : List Nat) : Bool :=
  (List.range (goodLevels head).length).any fun i => decide (mv.getD i 0 + 20 ≤ (goodLevels head).getD i 0)

/-- SUPPLIES_RISE (R33): OFF to RESET; the dies wait in their reset hold. DESIGN CHOICE, log entry 78. -/
def execSuppliesRise (mv : List Nat) (s : State) : Res :=
  s.always (s.device == .off && powerGood s.isHead mv) fun s => s.resetAll .reset true

/-- SUPPLY_LOSS (R33, 22 R543): RESET, or OFF when a supply is absent. DESIGN CHOICE, log entry 78. -/
def execSupplyLoss (mv : List Nat) (s : State) : Res :=
  s.always (s.device != .off && powerLost s.isHead mv) fun s =>
    let absent := (List.range (goodLevels s.isHead).length).any fun i => mv.getD i 0 == 0
    s.resetAll (if absent then .off else .reset) absent

/-- The output balls of one die fall with its reset: those of a node and PERMIT, PPS_OUT, SOA and the test outputs are die 0's, SOB is
die 1's (R521, 22 R551). -/
def State.lowerPins (s : State) (d : Nat) : State :=
  if d = 0 then { s with pins := { Pins.low with sob := s.pins.sob } }
  else if d = 1 then { s with pins := { s.pins with sob := 0 } }
  else s

/-- The dies a short pulse resets: none, some or all (R524). Die 0 holds the state and the time of the package; a die's reset ends the
misuses of it (00 R14). DESIGN CHOICE, log entry 17. -/
def State.shortPulse (s : State) : State :=
  let r := s.freeN
  let hit := r.2.dieList.filter fun d => bitOf r.1 d
  let t := r.2.each hit fun s d => (s.onDie d (Die.toReset false)).lowerPins d
  let t := { t with
    misused := t.misused.filter fun m => !hit.contains m.2.1
    sum := if hit.isEmpty then t.sum else t.sum.filter fun e => e.1 != 0x80
    fabric := t.fabric.filter fun x => !(hit.contains x.die || hit.contains x.src) }
  let t := if bitOf r.1 0 then { t with
      device := .reset, last := s.device, td0 := 0, td0Prev := 0, arming := none, movedAt := none, movedBy := none, cmds := [], sum := [] }
    else t
  t.openSlices s hit

/-- RESET_N_LOW (R524): at least 10 µs resets every die; what a shorter pulse resets is open. -/
def execResetNLow (ns : Nat) (s : State) : Res :=
  s.always (s.device != .off) fun s => if 10000 ≤ ns then s.resetAll .reset false else s.shortPulse

/-- The straps are read and the settings of the CLK page's reset values are in force (01 R16; 13 R352, R353).
DEDUCED, log entry 18. -/
def State.endHold1 (s : State) (d : Nat) : State :=
  let s := (s.onDie d fun x => { x with hold := false }).applyStraps d fun _ => true
  s.onClk d fun c => { c with applied := s.shadows d, lfsr := seedOf ((s.shadows d).getD 4 0).toNat }

/-- RESET_HOLD_END (R16, R524; 22 R543): every supply is good, and every die in its reset hold reads the straps. With the straps at 11 the behaviour of the die is open from
here to its next reset (00 R2, R15), while its outputs stay as RESET leaves them. DEDUCED, log entry 8. -/
def execResetHoldEnd (mv : List Nat) (role : BitVec 2) (refsel boot0 : Bool) (s : State) : Res :=
  s.always (s.device != .off && powerGood s.isHead mv) fun s =>
    let l := s.dieList.filter fun d => (s.die d).hold
    let s := s.each l fun s d => s.onClk d fun c => { c with role := role, refsel := refsel, boot0 := boot0 }
    let s := s.each l fun s d => s.endHold1 d
    if role = 3 then { s with misused := s.misused ++ l.map fun d => (2, d, 0xFF) } else s

/-- NODE_SELF_RESET (13 R360): 20,000 guard cycles after gating. -/
def execNodeSelfReset (cycles : Nat) (s : State) : Res :=
  s.always (!s.isHead && (s.die 0).gated && decide (20000 ≤ cycles)) fun s => s.resetAll .reset false

/-! ### BOOT (R526, R527) -/

/-- The straps do not fit the part (01 R17). -/
def State.roleMismatch (s : State) : Bool := s.isHead != ((s.die 0).clk.role == 0)

/-- The reference a PLL starts on: the preferred one, else the other, if present (13 R344, R345). DEDUCED, log entry 16. -/
def State.startRef (s : State) (d : Nat) : Option Bool :=
  let p := s.prefSecond
  if s.flag d (refOk p) then some p else if s.flag d (refOk (!p)) then some (!p) else none

/-- A die enters BOOT; die 0 takes the package with it, and ring time starts. -/
def State.enterBoot (s : State) (d : Nat) : State :=
  let s := if d = 0 then { s with device := .boot, last := .reset, changes := 0, movedAt := none, movedBy := none, cmds := [], td0 := 0, td0Prev := 0, pins := { s.pins with permit := false } } else s
  let s := s.onDie d fun x => { x with bootAt := s.td0 }
  s.when s.roleMismatch fun s => s.sticky d Sk.DIE.ROLE_MISMATCH

/-- TPLL_LOCKED (R33; 13 R345, R350, R356). DEDUCED, log entry 16. -/
def execTpllLocked (d : Nat) (s : State) : Res :=
  s.guarded (s.guardClock d && (d != 0 || s.device == .reset) && s.device != .off && !(s.die d).gated && !(s.die d).clk.started) fun s =>
    match s.startRef d with
    | none => s
    | some second =>
      let s := s.wr d Fd.CLK_STATUS.REF 0 (s.refCode second)
      let s := (((s.onClk d fun c => { c with started := true }).lockTpll d).lockFpll d).wrB d Fd.CLK_STATUS.DLL_LOCK 0 true
      s.enterBoot d

/-- The fabric links of a die in BOOT: those that trained are up, the others stay down with their source present (R528). -/
def State.trainLinks (s : State) (d : Nat) (links : BitVec 3) : State :=
  s.each [FabLink.minus, .plus, .row] fun s l =>
    if (s.peer d l).isNone then s
    else if bitOf links.toNat (linkBit l) then s.wrB d (linkFld l) 0 true
    else (s.sticky d Sk.FAB.LINK_DOWN).raise d 0x009

/-- EPOCH of a boot: a non-zero random word (19 R501). -/
def State.drawEpoch (s : State) : State :=
  let r := s.freeN
  r.2.wr 0 Fd.EPOCH.W 0 (1 + r.1 % (2 ^ 32 - 1))

/-- The steps of R527 on die d, which end together; BOOT_TIME counts from its entry into BOOT. DESIGN CHOICE, log entry 77. -/
def State.bootDie (s : State) (d : Nat) (links : BitVec 3) : State :=
  let s := s.applyFused d
  let s := s.when (d != 0) fun s => s.onSec d fun x => { x with copied := BitVec.ofNat 1540 (s.fuse 0 1216 1540) }
  let s := if d = 0 then s.drawEpoch else s
  let s := s.when s.isHead fun s => (s.trainLinks d links).wrB d Fd.REC_STATUS.DRAM_OK 0 true
  let s := (s.wr d Fd.BOOT_INFO.BOOT_TIME 0 (satU 16 ((s.td0 - (s.die d).bootAt) / 800))).wrB d Fd.DIE_STATUS.BOOTED 0 true
  s.onDie d fun x => { x with booted := true }

/-- A head waits for BOOT_GO (R526). -/
def State.holdBoot (s : State) (on : Bool) : State := s.each s.dieList fun s d => s.wrB d Fd.DIE_STATUS.BOOT_HOLD 0 on

/-- BOOT_COMPLETE: once every die has reached step 7, CONFIG, or BOOT_HOLD on a head with BOOT0 at 1.
DESIGN CHOICE, log entry 77. -/
def execBootComplete (d : Nat) (links : BitVec 3) (s : State) : Res :=
  s.guarded (s.alive d && (s.die d).clk.started && !(s.die d).booted && !s.roleMismatch) fun s =>
    let s := s.bootDie d links
    if s.device != .boot || !(s.dieList.all fun k => (s.die k).booted) then s
    else if s.isHead && (s.die 0).clk.boot0 then s.holdBoot true
    else s.enter .config

/-- A write of BOOT_GO on die 0. -/
def opBootGo (s : State) : State :=
  if s.device == .boot && s.flag 0 Fd.DIE_STATUS.BOOT_HOLD then (s.holdBoot false).enter .config else s

def execBootGo (s : State) : Res := s.guarded (s.alive 0) opBootGo

/-! ### STATE_CMD (01 R33-R37; 17 R447; 19 R499) -/

/-- The transitions a host may command (R33). -/
def hostMoves : DevState → List DevState
  | .config => [.standstill]
  | .standstill => [.startup, .test, .config]
  | .startup => [.run, .standstill]
  | .run => [.recovery, .standstill]
  | .recovery => [.run, .standstill]
  | .test => [.standstill]
  | _ => []

def State.mayMove (s : State) (new : DevState) : Bool :=
  (hostMoves s.device).contains new && (s.device != .config || s.dieList.all fun d => s.loadsOk d)

def State.refuseState (s : State) : State := s.sticky 0 Sk.DIE.STATE_REFUSED

/-- A command that arms the collectors from a state in which they are not armed. A head enters the state eight ticks later; a
node without a ring at once, or LOCKOUT if a source is present (17 R447). -/
def State.armTo (s : State) (new : DevState) : State :=
  if s.isHead then { s with arming := some (new, s.td0) }.armCollectors
  else if s.anySource then (opLocalLatch 0 s.armCollectors).lockOutDevice
  else s.enter new

/-- A package record will be made in this tick: one has crossed the fault bus, the latch is empty and the collectors are armed (R449). -/
def State.recordDue (s : State) : Bool :=
  s.isHead && s.armed && s.latchEmpty && s.bus.any fun e => decide (e.2.tick + 8 ≤ s.td0) && s.alive e.1

/-- A STATE_CMD in the tick in which it takes effect. After a transition of the same tick it is ignored if a fault was latched, and
otherwise refused, since it is judged against the state at the tick's start and a tick makes one transition (R34).
DEDUCED, log entry 15. -/
def opStateCmd (target : Nat) (s : State) : State :=
  if s.followsHead || s.arming.isSome then s.refuseState
  else if s.movedAt == some s.td0 then (if s.device == .lockout then s else s.refuseState)
  else match DevState.ofCode target with
    | none => s.refuseState
    | some new =>
      if !s.mayMove new then s.refuseState
      else if new.switching && !s.device.switching then s.armTo new
      else s.enter new

/-- A write of STATE_CMD: the transition is applied at the next tick (R37). -/
def opStateCmdWrite (target : Nat) (s : State) : State := { s with cmds := s.cmds ++ [target] }

/-- A command takes effect: it is ignored in a tick in which a fault is latched (R34), and otherwise judged. -/
def State.takeCmd (s : State) (target : Nat) : State :=
  if s.recordDue then s
  else
    let t := opStateCmd target s
    if t.device = s.device then t else { t with movedBy := some s.device }

/-- The commands written in the tick before take effect, as a tick begins. -/
def State.takeCmds (s : State) : State :=
  let l := s.cmds
  ({ s with cmds := [] }.when (s.alive 0) fun s => s.each l fun s c => s.takeCmd c)

def execStateCmdConfig (s : State) : Res := s.guarded (s.alive 0) (opStateCmdWrite 3)
def execStateCmdStandstill (s : State) : Res := s.guarded (s.alive 0) (opStateCmdWrite 8)
def execStateCmdStartup (s : State) : Res := s.guarded (s.alive 0) (opStateCmdWrite 4)
def execStateCmdRun (s : State) : Res := s.guarded (s.alive 0) (opStateCmdWrite 5)
def execStateCmdTest (s : State) : Res := s.guarded (s.alive 0) (opStateCmdWrite 6)
def execStateCmdRecovery (s : State) : Res := s.guarded (s.alive 0) (opStateCmdWrite 7)

/-- STATE_CMD_OTHER: a target R33 gives no command. -/
def execStateCmdOther (target : BitVec 4) (s : State) : Res := s.guarded (s.alive 0) (opStateCmdWrite target.toNat)

/-- COLLECTOR_ARM_APPLY (17 R447): the commanded state is entered eight ticks after the collectors were armed, but not in a tick in which
a package record is made. -/
def opCollectorArm (s : State) : State :=
  match s.arming with
  | none => s
  | some (new, t) => if s.td0 < t + 8 || s.recordDue then s else { s.enter new with movedBy := some s.device }

def execCollectorArmApply (s : State) : Res := s.guarded (s.isHead && s.alive 0) opCollectorArm

/-- As a tick ends, what arrived in it has been latched, records that crossed the fault bus have met the package latch, and the state a
command named eight ticks ago is entered, whether or not a command said so in its course (17 R447-R449). DEDUCED, log entry 62. -/
def State.endFaults (s : State) : State :=
  let s := s.each (s.dieList.filter fun d => s.alive d && s.armed && !(s.die d).flt.arriving.isEmpty) fun s d => opLocalLatch d s
  s.when (s.isHead && s.alive 0) fun s => opCollectorArm (opPackageRecord s)

end Sys2Proof.Machine
end

