-- ==== Sys2Proof/Machine/Thermal.lean ====
section
/-! DEFINITION. The thermal manager (17 R458-R467). Readings are signed, in units of 0.125 °C. -/

namespace Sys2Proof.Machine

def State.onThm (s : State) (d : Nat) (f : Thm → Thm) : State := s.onDie d fun x => { x with thm := f x.thm }

/-- Was the sensor of a die suspect in the sample before the present one? -/
def State.suspectBefore (s : State) (d : Nat) : Bool :=
  if (s.die d).thm.sampled = some s.td0 then (s.die d).thm.wasSuspect else s.flag d Fd.THM_STATUS.SUSPECT

/-- Twice the median of some readings; the median of two values is their mean (R460). -/
def median2 (l : List Int) : Option Int :=
  let o := sortBy (fun a b => decide (a ≤ b)) l
  match o.length with
  | 0 => none
  | n => if n % 2 = 1 then (o[n / 2]?).map (2 * ·) else
      match o[n / 2 - 1]?, o[n / 2]? with
      | some a, some b => some (a + b)
      | _, _ => none

def maxOf (l : List Int) : Option Int := l.foldl (fun m x => some (match m with | none => x | some y => max x y)) none

/-- Twice the median and the maximum of the valid neighbours: on a head of the adjacent dies' readings of this sample (R460), on
a node as the head wrote them less than 50 ms ago (R461). -/
def State.neighbours (s : State) (d : Nat) (raws : List Int) : Option Int × Option Int :=
  if s.isHead then
    let ds := [FabLink.minus, .plus, .row].filterMap fun l => s.peer d l
    let vs := (ds.filter fun k => s.alive k && !s.suspectBefore k).map fun k => raws.getD k 0
    (median2 vs, maxOf vs)
  else if s.rd 0 Fd.THM_NBR.MED = 0x8000 || s.td0 ≥ (s.die 0).thm.nbrAt + 40000000 then (none, none)
  else (some (2 * s.rdS 0 Fd.THM_NBR.MED), some (s.rdS 0 Fd.THM_NBR.MAX))

/-- The cross-check and, on a node, the rate check have failed (R460, R461): (check failed, rate check failed). -/
def State.sensorFails (s : State) (d : Nat) (raw : Int) (med : Option Int) : Bool × Bool :=
  let diff := match med with
    | some m => decide (16 * (s.rd d Fd.THM_XCHK.DIFF : Int) < ((2 * raw - m).natAbs : Int))
    | none => false
  let rate := !s.isHead && match ((s.die d).thm.raws)[9]? with
    | some r => decide (8 * (s.rd d Fd.THM_XCHK.RATE : Int) < ((raw - r).natAbs : Int))
    | none => false
  (diff || rate, rate)

/-- SENSOR is present while the status lasts, with SENS_FLT at 1 (R462). -/
def State.showSensor (s : State) (d : Nat) : State :=
  s.source d 0x0C1 (s.flag d Fd.THM_STATUS.SUSPECT && s.flag d Fd.THM_XCHK.SENS_FLT)

/-- The suspect status after this sample's checks (R462). -/
def State.judge (s : State) (d : Nat) (fails : Bool) : State :=
  let was := s.flag d Fd.THM_STATUS.SUSPECT
  if fails then
    let s := (s.onThm d fun t => { t with agreeAt := none }).wrB d Fd.THM_STATUS.SUSPECT 0 true
    (s.when (!was) fun s => (s.sticky d Sk.THM.SUSPECT).bump d Fd.THM_COUNT.SUSPECTS 0 1).showSensor d
  else if was then
    let at_ := (s.die d).thm.agreeAt.getD s.td0
    if at_ + max 1 (s.rd d Fd.THM_XCHK.AGREE) * 800000 ≤ s.td0 then
      ((s.onThm d fun t => { t with agreeAt := none }).wrB d Fd.THM_STATUS.SUSPECT 0 false).lower d 0x0C1
    else s.onThm d fun t => { t with agreeAt := some at_ }
  else s

/-- Registers of level i: 0 WARNING, 1 THROTTLE, 2 SHUTDOWN. -/
def lvl (f : Fld) (i : Nat) : Fld := { f with base := f.base + 4 * i }
def lvlBit (i : Nat) : Fld := ⟨0xC, 0x8, 1, 28 + i, 28 + i⟩

/-- Throttling begins: the first tick of each deferrable slot runs (06 R173). DEDUCED, log entry 34. -/
def State.throttleFrom (s : State) (d : Nat) : State :=
  (s.onDie d fun x => { x with le := { x.le with slot := x.le.slot.map fun y => { y with deferNext := false } } }).markThrottled d

/-- Entry of a level (R464-R466). -/
def State.enterLevel (s : State) (d i : Nat) : State :=
  let s := s.when (i != 0 && !s.throttled d) (·.throttleFrom d)
  let s := (s.wrB d (lvlBit i) 0 true).stick d 0xC (1 + i)
  match i with
  | 1 => s.bump d Fd.THM_COUNT.THROTTLES 0 1
  | 2 => s.raise d 0x0C0
  | _ => s

/-- One level evaluated on the effective reading (R463). DEDUCED, log entry 64. -/
def State.level (s : State) (d : Nat) (eff : Int) (i : Nat) : State :=
  let set := 8 * (s.rd d (lvl Fd.THM_WARN.SET i) : Int)
  let low := set - 8 * (s.rd d (lvl Fd.THM_WARN.HYS i) : Int)
  let dwell := max 1 (s.rd d (lvl Fd.THM_WARN.DWELL i)) * 80000
  let t := (s.die d).thm
  let a := if set ≤ eff then some ((t.setAt.getD i none).getD s.td0) else none
  let b := if eff < low then some ((t.relAt.getD i none).getD s.td0) else none
  let s := s.onThm d fun t => { t with setAt := t.setAt.set i a, relAt := t.relAt.set i b }
  let held := s.flag d (lvlBit i)
  match a, b with
  | some s0, _ => if !held && decide (s0 + dwell ≤ s.td0) then s.enterLevel d i else s
  | none, some r0 => if held && decide (r0 + dwell ≤ s.td0) then s.wrB d (lvlBit i) 0 false else s
  | none, none => s

/-- A temperature sample of die d (R459): checks, effective reading, levels. -/
def opTempSample (d : Nat) (raws : List Int) (s : State) : State :=
  let raw := satS 16 (raws.getD d 0)
  let nb := s.neighbours d raws
  let fails := s.sensorFails d raw nb.1
  let s := s.onThm d fun t => { t with sampled := some s.td0, wasSuspect := s.flag d Fd.THM_STATUS.SUSPECT }
  let s := s.when fails.2 (·.sticky d Sk.THM.RATE)
  let s := s.judge d fails.1
  let eff :=
    if s.flag d Fd.THM_STATUS.SUSPECT then
      match nb.2 with
      | some m => satS 16 (m + 8 * (s.rd d Fd.THM_XCHK.SUBST : Int))
      | none => 8 * (s.rd d Fd.THM_THR.SET : Int)
    else raw
  let s := ((s.level d eff 0).level d eff 1).level d eff 2
  let s := s.onThm d fun t => { t with raws := (raw :: t.raws).take 10 }
  let s := ((s.wrS d Fd.THM_READ.RAW 0 raw).wrS d Fd.THM_READ.EFF 0 eff).wrS d Fd.THM_STATUS.EFF 0 eff
  let s := s.wrS d Fd.THM_PEAK.PEAK 0 (max (s.rdS d Fd.THM_PEAK.PEAK) eff)
  if s.isHead then
    (s.wrS d Fd.THM_NBR.MED 0 (match nb.1 with | some m => m / 2 | none => -32768)).wrS d Fd.THM_NBR.MAX 0 (nb.2.getD (-32768))
  else s.setNodeField 2 (BitVec.ofInt 16 raw)

/-- TEMP_SAMPLE (R458): in the ticks where TD0 mod 80,000 = 0. -/
def execTempSample (d : Nat) (raws : List Int) (s : State) : Res :=
  s.guarded (s.alive d && s.td0 % 80000 == 0) (opTempSample d raws)

/-- SOFT_RESET of the THM page (R469): WARNING and THROTTLE released, suspect status cleared, every run restarted. -/
def opThmReset (d : Nat) (shut : Nat) (s : State) : State :=
  ((s.onThm d fun t => { t with setAt := [none, none, none], relAt := [none, none, none], agreeAt := none }).wr d
    Fd.THM_STATUS.SHUTDOWN 0 shut).lower d 0x0C1

end Sys2Proof.Machine
end

