-- ==== Sys2Proof/Machine/Pages.lean ====
section
/-! DEFINITION. What the register map shows (02 R40-R55): where an address lies, and the word a read of it gives. Most registers
are kept as words; the live ones are formed here from the state. -/

namespace Sys2Proof.Machine

/-! ### Addresses (R40-R43) -/

/-- What an address names: the summary page, a register page or context page of a die, a word of a die's program memory, of its
coefficient and state memory, of its milestone table, or nothing. Keys are offsets in the die window. -/
inductive Spot where
  | summary (off : Nat)
  | page (d page off : Nat)
  | program (d key : Nat)
  | data (d key : Nat)
  | entry (d key : Nat)
  | nothing
  deriving DecidableEq, Repr

/-- Pages 0x00 to 0x10 and 0x20 to 0x3F are there (R41). -/
def pageThere (p : Nat) : Bool := decide (p ≤ 0x10) || (decide (0x20 ≤ p) && decide (p ≤ 0x3F))

/-- A key of a die window (R41, R42). DEDUCED, log entry 19. -/
def spotOf (d key : Nat) : Spot :=
  if key < 0x80000 then (if pageThere (key / 0x1000) then .page d (key / 0x1000) (key % 0x1000) else .nothing)
  else if key < 0xB0000 then .program d key
  else if key < 0xF0000 then .data d key
  else if key < 0xF8000 then .entry d key
  else .nothing

/-- A byte address (R40, R43). An address that is no multiple of four, which no port frame carries (R45), names nothing.
DEDUCED, log entry 19. -/
def State.spot (s : State) (a : Nat) : Spot :=
  if a % 4 ≠ 0 then .nothing
  else if a < 0x1000 then .summary a
  else if a < 0x1000000 then .nothing
  else if (a - 0x1000000) / 0x100000 < s.part.dies then spotOf ((a - 0x1000000) / 0x100000) ((a - 0x1000000) % 0x100000)
  else .nothing

/-! ### Status words -/

/-- STATE (01 R37). -/
def State.stateWord (s : State) : Nat := s.changes.toNat * 65536 + s.last.code * 256 + s.device.code

/-- A count of bits chosen by a test, as the field that shows one bit each. -/
def bitsWhere (n : Nat) (p : Nat → Bool) : Nat := ofBits p n

/-- Domain sources that are applied (03 R102). -/
def State.angStatus (s : State) (d : Nat) : Nat :=
  bitsWhere 8 (fun i => (s.dom d i).src != 0) * 65536 + (s.armedList d).length

def State.atrStatus (s : State) (d : Nat) : Nat :=
  bitsWhere 4 (s.locks d) * 4096 + bitsWhere 4 (fun c => s.flag d Fd.TRK_STAT.STANDSTILL c) * 256 +
    bitsWhere 4 (s.coasts d) * 16 + bitsWhere 4 (fun c => s.flag d Fd.TRK_STAT.LOSS c)

def State.mfeStatus (s : State) (d : Nat) : Nat :=
  bitsWhere 16 (fun c => s.chOn d c && s.flag d Fd.CH_STAT.SETTLED c) * 65536 + bitsWhere 16 (fun c => s.flag d Fd.CH_STAT.LIVE c)

/-- Slots waiting and running, engines busy, THROTTLED (06 R178). -/
def State.leStatus (s : State) (d : Nat) : Nat :=
  bnat (s.throttled d) * 2 ^ 23 + ((slots.filter fun sl => s.cond d sl == 1).length) * 65536 +
    bitsWhere 6 (fun e => (List.range 8).any fun i => (s.inst d e i).busy) * 256 + (slots.filter fun sl => s.cond d sl == 2).length

def State.epStatus (s : State) (d : Nat) : Nat :=
  let e := (s.die d).ep
  s.rd d Fd.EP_STATUS.W / 8 * 8 + bnat e.waiting.isSome * 4 + bnat (!e.ready.isEmpty) * 2 + bnat e.running.isSome

def State.ringStatus (s : State) (d : Nat) : Nat :=
  let mode := if s.isHead then s.ringMode d else (s.die 0).node.rmode
  let w := s.rd d Fd.RING_STATUS.W / 1024 * 1024 + mode % 4 * 256 + bnat (s.ringWhole d .b) * 2 + bnat (s.ringWhole d .a)
  if s.isHead || bitOf w 23 then w else w + bnat s.trusted * 2 ^ 23

def State.bgStatus (s : State) (d : Nat) : Nat :=
  s.rd d Fd.BG_STATUS.W / 64 * 64 + (if s.isHead then 0 else bitsWhere 6 fun k => (s.leg k).heldAt.isSome)

/-- BG_CMD of a node (11 R322). -/
def State.bgCmd (s : State) : Nat :=
  bnat (!s.trusted) * 2 ^ 26 + bnat s.ringBlock * 2 ^ 25 + bnat s.pins.bypass * 2 ^ 24 + s.rd 0 Fd.BG_CMD.STATE * 65536 +
    s.pins.gl.toNat * 256 + s.pins.gh.toNat

/-- BG_MAN[b]: CIDs and presence of the two manifests. -/
def State.bgMan (s : State) (b : Nat) : Nat :=
  let x := s.bridge b
  let cid := fun (m : Option Manifest) => (m.map (·.cid.toNat)).getD 0
  cid x.cur * 2 ^ 24 + cid x.next * 65536 + bnat x.next.isSome * 2 + bnat x.cur.isSome

/-- Page of a source in the FLT page: the fabric's two show under page 0x10 (02 R68). -/
def srcPage (pi : Nat) : Nat := if pi = 0x008 || pi = 0x009 then 0x10 else pi / 16

/-- The sources of a die that are present: those that stand, and those of this tick only. -/
def State.presentNow (s : State) (d : Nat) : List Nat :=
  (s.die d).flt.present ++ ((s.die d).flt.pulses.filter fun e => e.2 == s.td0).map (·.1)

/-- ACTIVE[p] (17 R468). -/
def State.active (s : State) (d p : Nat) : Nat :=
  bitsWhere 16 fun i => (s.presentNow d).any fun pi => srcPage pi == p && pi % 16 == i

def State.fltStatus (s : State) (d : Nat) : Nat :=
  bnat (s.flag d Fd.FF_SRC.VALID) * 2 ^ 31 + bnat (s.flag d Fd.FLT_STATUS.OVERFLOW) * 2 ^ 30 + bnat (s.die d).flt.noClear * 2 ^ 29 +
    bnat (s.flag d Fd.LOC_SRC.VALID) * 2 ^ 28 + bitsWhere 17 (fun p => s.active d p != 0)

/-- PAGE_STATUS of a page. -/
def State.statusWord (s : State) (d page : Nat) : Word :=
  match page with
  | 1 => setBits (s.cell d 0x1008) 4 4 (bnat (s.spreading d))
  | 2 => BitVec.ofNat 32 (s.angStatus d)
  | 3 => BitVec.ofNat 32 (s.atrStatus d)
  | 4 => BitVec.ofNat 32 (s.mfeStatus d)
  | 5 => BitVec.ofNat 32 (s.leStatus d)
  | 6 => BitVec.ofNat 32 (s.epStatus d)
  | 7 => BitVec.ofNat 32 (s.ringStatus d)
  | 8 => BitVec.ofNat 32 (s.bgStatus d)
  | 11 => BitVec.ofNat 32 (s.fltStatus d)
  | 15 => setBits (s.cell d 0xF008) 25 25 (bnat (s.throttled d))
  | _ => s.cell d (hdrKey page 8)

/-! ### Registers with a live value, page by page -/

/-- DIE (01 R37, 21 R534). -/
def State.showDie (s : State) (d off : Nat) : Word :=
  let c := (s.die d).clk
  match off with
  | 0x20 => BitVec.ofNat 32 s.stateWord
  | 0x28 => setBits (setBits (setBits (s.cell d 0x28) 4 4 (bnat c.boot0)) 3 3 (bnat c.refsel)) 1 0 c.role.toNat
  | _ => if !s.isHead && decide (0x30 ≤ off) then 0 else s.cell d off

/-- ANG (03 R81, R102): AD_CFG of dies 1 to 7 shows SRC MIRROR; AD_STATUS is live. -/
def State.showAng (s : State) (d off : Nat) : Word :=
  let i := (off - 0x100) / 0x20
  if off < 0x100 || 0x200 ≤ off then s.cell d (0x2000 + off)
  else match (off - 0x100) % 0x20 with
    | 0 => if d = 0 then s.cell 0 (0x2000 + off) else setBits (s.cell d (0x2000 + off)) 3 0 3
    | 0x1C => BitVec.ofNat 32 ((s.dom d i).src * 16 + s.adBits d i)
    | _ => s.cell d (0x2000 + off)

/-- MFE (05 R128, R130). -/
def State.showMfe (s : State) (d off : Nat) : Word :=
  if off = 0x30 && !s.hasSdd d then 0
  else if 0x20 ≤ off && off < 0x30 && s.isHead && d == 1 then s.cell 0 (0x4000 + off)
  else s.cell d (0x4000 + off)

/-- BG (11 R322). -/
def State.showBg (s : State) (d off : Nat) : Word :=
  if s.isHead then s.cell d (0x8000 + off)
  else match off with
    | 0x84 => BitVec.ofNat 32 s.bgCmd
    | 0x88 => BitVec.ofNat 32 (s.bgMan 0)
    | 0x8C => BitVec.ofNat 32 (s.bgMan 1)
    | 0x90 => BitVec.ofNat 32 (s.bgMan 2)
    | _ => s.cell 0 (0x8000 + off)

/-- NET (14 R392): from 0x060 on die 0 of a head only; MODE of die 1 is die 0's. -/
def State.showNet (s : State) (d off : Nat) : Word :=
  if 0x60 ≤ off && (d != 0 || !s.isHead) then 0
  else if off = 0x20 && d = 1 then setBits (s.cell 1 0x9020) 5 4 (s.rd 0 Fd.NET_CFG.MODE)
  else if 0x100 ≤ off && off < 0x160 && off % 0x20 = 0x10 then BitVec.ofInt 32 (s.wall.getD ((off - 0x100) / 0x20) Wall.zero).trim
  else s.cell d (0x9000 + off)

/-- FLT (17 R468): FF_REACT of dies 1 to 7 is die 0's. -/
def State.showFlt (s : State) (d off : Nat) : Word :=
  if off = 0x24 then s.cell 0 0xB024
  else if 0x100 ≤ off && off < 0x144 then BitVec.ofNat 32 (s.active d ((off - 0x100) / 4))
  else s.cell d (0xB000 + off)

/-- SEC (19 R489, R507): identity, certificate and the readable fuses. -/
def State.showSec (s : State) (d off : Nat) : Word :=
  let w := fun (start : Nat) => (off - start) / 4
  if off = 0x74 then BitVec.ofNat 32 (s.fuseStat d)
  else if off = 0x78 then BitVec.ofNat 32 (loWord (s.idOf d))
  else if off = 0x7C then BitVec.ofNat 32 (hiWord (s.idOf d))
  else if 0x600 ≤ off && off < 0x664 then BitVec.ofNat 32 (s.idPub d (w 0x600))
  else if 0x680 ≤ off && off < 0x6E0 then BitVec.ofNat 32 (s.fuse d (448 + 32 * w 0x680) 32)
  else if 0x800 ≤ off && off < 0xA00 then BitVec.ofNat 32 (s.fuseWord d (w 0x800))
  else s.cell d (0xE000 + off)

/-- REC (20 R520): a node uses STREAM and REC_SEL only. -/
def recOnNode (off : Nat) : Bool := off == 0x24 || (decide (0x60 ≤ off) && decide (off < 0x80))

def State.showRec (s : State) (d off : Nat) : Word :=
  if !s.isHead && !recOnNode off then 0 else s.cell d (0xF000 + off)

/-- BIST (18 R485, R487): a node has no patrol; the expected signature is a property of the layout. -/
def State.showBist (s : State) (d off : Nat) : Word :=
  if off = 0x48 then Config.sigExp
  else if !s.isHead && decide (0x58 ≤ off) && decide (off < 0x6C) then 0
  else s.cell d (0xD000 + off)

/-- A control or array register of a block page. -/
def State.showReg (s : State) (d page off : Nat) : Word :=
  if (findReg (pageRegs page) off).isNone && page != 0xE then 0
  else match page with
    | 0 => s.showDie d off
    | 2 => s.showAng d off
    | 4 => s.showMfe d off
    | 8 => s.showBg d off
    | 9 => s.showNet d off
    | 10 => if off = 0x44 && d != 0 then 0 else s.cell d (0xA000 + off)
    | 11 => s.showFlt d off
    | 13 => s.showBist d off
    | 14 => s.showSec d off
    | 15 => s.showRec d off
    | p => s.cell d (hdrKey p off)

/-! ### Whole pages -/

/-- A field of a context page: those a node's number or the head's NODES gives, and no reserved one (10 R289). -/
def State.hasField (s : State) (d n field : Nat) : Bool :=
  (isDown field || isUp field) && decide (n ≤ (if s.isHead then s.nodes d else 1))

/-- The header of R49. DEDUCED, log entry 26. -/
def State.showHeader (s : State) (d page off : Nat) : Word :=
  let ctx := decide (0x20 ≤ page)
  let field := fun (f : Nat) => if s.hasField d (page - 0x1F) f then s.ctx d (page - 0x1F) f else 0
  match off with
  | 0x0 => BitVec.ofNat 32 ((if ctx then 0x20 else page) * 2 ^ 24 + 0x10000 + d * 256 + (if ctx then page - 0x1F else 0))
  | 0x8 =>
    if !ctx then s.statusWord d page
    else BitVec.ofNat 32 ((field 0).toNat % 512 + (if s.isHead && s.reachable d (page - 0x1F) then 512 else 0))
  | 0x14 => BitVec.ofNat 32 (pageGuard page)
  | 0x18 => if ctx then (field 1).setWidth 32 else s.cell d (hdrKey page 0x18)
  | _ => s.cell d (hdrKey page off)

/-- What a read of a context field shows (10 R270, R289). -/
def State.showField (s : State) (d n field : Nat) : Word :=
  if s.hasField d n field then (s.ctx d n field).setWidth 32 else 0

def State.showPage (s : State) (d page off : Nat) : Word :=
  if off < 0x20 then s.showHeader d page off
  else if page < 0x20 then s.showReg d page off
  else if off < 0x100 then 0
  else s.showField d (page - 0x1F) ((off - 0x100) / 4)

/-- The summary page (R49, R54, R55). -/
def State.showSummary (s : State) (off : Nat) : Word :=
  let sticky := fun (d p : Nat) => s.cell d (hdrKey p 0xC) != 0
  match off with
  | 0x0 => 0xFF010000
  | 0x4 => s.sumCell 4 ||| 1
  | 0x20 => BitVec.ofNat 32 (s.part.dies * 16 + (s.die 0).clk.role.toNat)
  | 0x28 => BitVec.ofNat 32 s.stateWord
  | _ =>
    if 0x40 ≤ off && off < 0x60 then
      let d := (off - 0x40) / 4
      if d < s.part.dies then BitVec.ofNat 32 (bitsWhere 17 (sticky d)) else 0
    else if 0x60 ≤ off && off < 0x80 then
      let d := (off - 0x60) / 4
      if d < s.part.dies then BitVec.ofNat 32 (bitsWhere 32 fun i => sticky d (0x20 + i)) else 0
    else s.sumCell off

/-- The word at a place, as a read shows it; reads without an effect. -/
def State.show_ (s : State) (x : Spot) : Word :=
  match x with
  | .summary off => s.showSummary off
  | .page d page off => s.showPage d page off
  | .program d key => s.cell d key
  | .data d key => s.cell d key
  | .entry d key => s.cell d key
  | .nothing => 0

end Sys2Proof.Machine
end

