-- ==== Sys2Proof/Machine/PageCtrl.lean ====
section
/-! DEFINITION. PAGE_CTRL of a page (02 R49, R50): SOFT_RESET with what each block keeps, LOCK, BLOCK_EN; the sticky bits a host clears. -/

namespace Sys2Proof.Machine

/-! ### SOFT_RESET -/

/-- What SOFT_RESET of a page keeps of its registers (R49 and the chapters), by offset. DEDUCED, log entry 23. -/
def softKeeps (head locked : Bool) (page off : Nat) : Bool :=
  off == 0x10 || off == 0x1C || (locked && off == 4) ||
  match page with
  | 0 => off == 8                                                      -- BOOT's marks are state of the die, no setting
  | 1 => off == 8 || (decide (0x3C ≤ off) && decide (off < 0x54)) || (decide (0x100 ≤ off) && decide (off < 0x200))    -- R365
  | 7 => if head then off == 8 || off == 0x34 else off == 8 || off == 0x60 || off == 0x64 || off == 0x68               -- R296
  | 9 => off == 8 || off == 0x8C || (decide (0x100 ≤ off) && off % 0x20 == 0x10)                                       -- R392
  | 11 => off == 8 || (decide (0x28 ≤ off) && off != 0x40)                                                             -- R468
  | 13 => off == 8 || decide (0x100 ≤ off)                                                                             -- R487
  | 14 => off == 0x30 || off == 0x34 || off == 0x38                                                                    -- R507
  | 15 => off == 8 || (decide (0x2C ≤ off) && decide (off < 0x38))                                                     -- R520
  | 16 => off == 0x20 || (locked && decide (0x100 ≤ off))                                                              -- R49
  | _ => false

/-- The registers of a page return to their reset values but for what is kept. -/
def State.dropPage (s : State) (d page : Nat) : State :=
  let head := s.isHead
  let lock := s.locked d page
  let back := fun k => k / 0x1000 == page && !softKeeps head lock page (k % 0x1000)
  (s.dropCells d back).applyStraps d back

/-- SOFT_RESET of a SAF page (15 R425): outputs off and lock-out until the next boundary, and in lock-out after it. -/
def State.safReset (s : State) (d : Nat) : State :=
  if !s.isHead || 2 ≤ d then s else
    let s := ((s.safetyStart d).outputsOff d).lockOut d ⟨8, 0, s.td0⟩
    s.onSaf d fun x => { x with soft := some s.td0, cfgNew := true }

/-- SOFT_RESET of the REC page: the ledger OFF, its marks 0; DRAM_OK stands. -/
def State.recReset (s : State) (d : Nat) : State :=
  let ok := s.rd d Fd.REC_STATUS.DRAM_OK
  (opRecReset d (s.wr d Fd.REC_STATUS.W 0 0)).wr d Fd.REC_STATUS.DRAM_OK 0 ok

/-- SOFT_RESET of the NET page: the link and what runs on stand; the port states return (R392). -/
def State.netReset (s : State) (d : Nat) : State :=
  let s := opNetReset d (s.wrB d Fd.NET_STATUS.MDIO_BUSY 0 false)
  if d != 0 then s else
    s.each [1, 2, 3] fun s n => { s with wall := setAt s.wall (n - 1) fun w => { w with hold := false, lastUpd := none, stepAt := none } }

/-- SOFT_RESET of the BIST page (18 R474, R483, R486, R487): the engine test is cut short first; a slice or a burn in progress goes on, and
the sources stand. -/
def State.bistReset (s : State) (d : Nat) : State := (opBistReset d ((s.cutTest d).dropPage d 13)).showFree d

/-- The block of a page, and its registers, are reset (R49). DEDUCED, log entry 23. -/
def State.softReset (s : State) (d page : Nat) : State :=
  match page with
  | 0 => (s.nimgEnd d 5).dropPage d 0
  | 2 => opAngReset d (s.dropPage d 2)
  | 3 => opAtrReset d (s.dropPage d 3)
  | 4 => opMfeReset d (s.dropPage d 4)
  | 5 => opLeReset d (s.dropPage d 5)
  | 6 => opEpReset d (s.dropPage d 6)
  | 7 =>
    let agree := s.rd d Fd.NODE_TIME.AGREE
    let s := (opRingReset d s).dropPage d 7
    s.when (!s.isHead) fun s => s.wr d Fd.NODE_TIME.AGREE 0 agree
  | 8 => if s.isHead then s.dropPage d 8 else opGuardReset (s.dropPage d 8)
  | 9 => (s.dropPage d 9).netReset d
  | 10 => (s.dropPage d 10).safReset d
  | 12 => let shut := s.rd d Fd.THM_STATUS.SHUTDOWN; opThmReset d shut (s.dropPage d 12)
  | 13 => s.bistReset d
  | 14 => (opSecReset d s).dropPage d 14
  | 15 => (s.dropPage d 15).recReset d
  | 16 => opFabReset d (s.dropPage d 16)
  | p => s.dropPage d p

/-! ### BLOCK_EN (R50) -/

/-- Pages whose BLOCK_EN reads 1 and takes no write (R49), and the RING page of a node on a local reference (13 R344). -/
def State.blockFixed (s : State) (page : Nat) : Bool :=
  [0, 1, 11, 12, 14].contains page || (page == 7 && !s.isHead && (s.die 0).clk.refsel)

/-- The block of a page stops, or runs again. -/
def State.blockTurn (s : State) (d page : Nat) (on : Bool) : State :=
  match page with
  | 2 => if on then s.onDie d fun x => { x with ang := { x.ang with reexamine := true } } else s
  | 3 => opAtrEn d on s
  | 4 => opMfeEn d on s
  | 5 => if on then s else s.leStop d
  | 7 =>
    if !s.isHead then opRingEn on s
    else let m := s.rd d Fd.RING_CTRL.MODE; if on then s.modeChange d 0 m else s.modeChange d m 0
  | 8 => if on || s.isHead then s else opGuardOff s
  | 9 => if on || !s.isHead || 2 ≤ d then s else s.netDown d
  | 10 => if on || !s.isHead || 2 ≤ d then s else opSafStop d false s
  | 15 => if s.isHead && on then opLedgerEn d (s.flag d Fd.REC_CTRL.LEDGER_EN) s else s
  | 16 => if s.isHead then opFabEn d on s else s
  | _ => s

/-- A write of PAGE_CTRL (R49): SOFT_RESET first; then LOCK and BLOCK_EN, judged against LOCK as it stood before the write.
DEDUCED, log entry 24. -/
def opPageCtrl (d page : Nat) (value : Word) (s : State) : State :=
  let lock := s.locked d page
  let was := s.blockEn d page
  let s := s.when (bitOf value.toNat 1) fun s => (s.softReset d page).endMisuse d page
  let key := hdrKey page 4
  let s := s.when (!lock) fun s =>
    let w := setBits (s.cell d key) 2 2 (bnat (bitOf value.toNat 2))
    s.putCell d key (if s.blockFixed page then w else setBits w 0 0 (bnat (bitOf value.toNat 0)))
  let now := s.blockEn d page
  if was = now then s else s.blockTurn d page now

/-- A write of PAGE_CTRL of the summary page; SUMMARY_SEQ is kept (R49, R54). -/
def opSumCtrl (value : Word) (s : State) : State :=
  let lock := bitOf (s.sumCell 4).toNat 2
  let s := s.when (bitOf value.toNat 1) fun s =>
    { s with sum := s.sum.filter fun e => e.1 == 0x10 || e.1 == 0x1C || e.1 == 0x24 || (lock && e.1 == 4) }
  s.when (!lock) fun s => s.putSum 4 (setBits (s.sumCell 4) 2 2 (bnat (bitOf value.toNat 2)))

/-! ### Sticky bits (00 R9) -/

/-- The cause of a sticky bit that stands for a condition is still present (R55, Note): the straps do not fit, a group role is not valid,
a command conflicts, a leg is commanded on at both switches. Every other bit records an event. DEDUCED, log entry 13. -/
def State.causeStands (s : State) (d page bit : Nat) : Bool :=
  match page, bit with
  | 0, 1 => s.roleMismatch
  | 6, 7 => s.badRole d
  | 8, 2 => !s.isHead && [0, 1, 2].any fun b => s.conflicts b
  | 8, 3 => !s.isHead && (List.range 6).any fun k => s.shorts k
  | _, _ => false

/-- Ones written to PAGE_STICKY clear their bits; one whose cause is still present sets and counts again (R55, Note); clearing EVENT_c
clears CAUSE of its channel (05 R143). DEDUCED, log entry 13. -/
def opStickyClear (d page : Nat) (mask : Word) (s : State) : State :=
  let key := hdrKey page 0xC
  let again := (List.range 32).filter fun b => s.stuckAt d page b && bitOf mask.toNat b && s.causeStands d page b
  let s := s.putCell d key (s.cell d key &&& ~~~mask)
  let s := s.each again fun s b => s.stick d page b
  s.when (page == 4) fun s => s.each ((List.range 16).filter fun c => bitOf mask.toNat c) fun s c => s.wr d Fd.CH_STAT.CAUSE c 0

def opSumSticky (mask : Word) (s : State) : State := s.putSum 0xC (s.sumCell 0xC &&& ~~~mask)

/-! ### The commands of the header -/

/-- A register page of an alive die. -/
def State.pageAlive (s : State) (d page : Nat) : Bool := s.alive d && pageThere page

def execStickyClear (d page : Nat) (mask : Word) (s : State) : Res :=
  s.guarded (s.pageAlive d page) (opStickyClear d page mask)

/-- A write of PAGE_CTRL that resets a block of which a misuse stands (00 R14). -/
def State.mends (s : State) (d page : Nat) (value : Word) : Bool :=
  s.alive d && bitOf value.toNat 1 && s.misused.any fun m => m.2.1 == d && m.2.2 == page

/-- SOFT_RESET: a write of PAGE_CTRL with bit 1 set; LOCK and BLOCK_EN follow the value written. -/
def execSoftReset (d page : Nat) (value : Word) (s : State) : Res :=
  if s.mends d page value then .next (opPageCtrl d page value s)
  else s.guarded (s.pageAlive d page && bitOf value.toNat 1) (opPageCtrl d page value)

/-- PAGE_LOCK: LOCK is written 1 and BLOCK_EN as it stands. -/
def execPageLock (d page : Nat) (s : State) : Res :=
  s.guarded (s.pageAlive d page) fun s => opPageCtrl d page (BitVec.ofNat 32 (4 + bnat (s.blockEn d page))) s

/-- BLOCK_EN: BLOCK_EN is written and LOCK as it stands. -/
def execBlockEn (d page : Nat) (on : Bool) (s : State) : Res :=
  s.guarded (s.pageAlive d page) fun s => opPageCtrl d page (BitVec.ofNat 32 (bnat on + 4 * bnat (s.locked d page))) s

/-- SUMMARY_UPDATE (R54, R55): the settings that can be read in their pages are counted in SUMMARY_SEQ. DEDUCED, log entry 22. -/
def execSummaryUpdate (s : State) : Res :=
  s.guarded s.device.live fun s =>
    { s.putSum 0x24 (BitVec.ofNat 32 ((s.sumCell 0x24).toNat + s.sumPend)) with sumPend := 0 }

end Sys2Proof.Machine
end

