-- ==== Sys2Proof/Machine/Bus.lean ====
section
/-! DEFINITION. Writes to the register map (00 R9-R11, 02 R40-R53): guards, registers with an effect of their own, memory windows,
authenticated commands, and the outcome an access is answered with. -/

namespace Sys2Proof.Machine

/-! ### Guarded registers (00 R11, 02 R52) -/

/-- Is the offset of a page guarded, by PAGE_GUARD? -/
def guardedOff (page off : Nat) : Bool :=
  if off < 0x20 then false
  else if off < 0x100 then bitOf (pageGuard page) ((off - 0x20) / 8)
  else bitOf (pageGuard page) 28

/-- A guarded register, where the page has one. -/
def guardedReg (page off : Nat) : Bool := guardedOff page off && (findReg (pageRegs page) off).isSome

/-- A write to a guarded register without authentication (00 R11); FUSE_OP programming an unowned part is the exception of 19 R493. -/
def State.guardReject (s : State) (d page off : Nat) (v : Word) : State :=
  if page = 10 && s.isHead && decide (d < 2) then opSafUnauth d off s
  else if page = 14 && off = 0x70 && bitOf v.toNat 31 && bitsOf v.toNat 1 0 = 1 && !s.partOwned then
    opFuseProgram d (bitsOf v.toNat 9 8) false s
  else s.stick d page 31

/-! ### Registers without behaviour of their own (00 R9, R10) -/

/-- RW bits take the value, W1C bits written 1 clear, RWL bits take it while LOCK is 0; every other bit stands. -/
def plainWord (r : RegDef) (locked : Bool) (old v : Word) : Word :=
  let m := r.rw ||| (if locked then 0 else r.rwl)
  ((old &&& ~~~m) ||| (v &&& m)) &&& ~~~(v &&& r.w1c)

def State.plainWrite (s : State) (d page off : Nat) (v : Word) : State :=
  match findReg (pageRegs page) off with
  | none => s
  | some r => s.putCell d (hdrKey page off) (plainWord r (s.locked d page) (s.cell d (hdrKey page off)) v)

/-! ### Registers with behaviour, page by page. `none`: the register has none of its own. -/

/-- DIE (01 R37, 21 R534). -/
def writeDie (d off : Nat) (v : Word) (s : State) : Option Res :=
  match off with
  | 0x24 => some (.next (if d = 0 then opStateCmdWrite (bitsOf v.toNat 3 0) s else s))
  | 0x2C => some (.next (if d = 0 && bitOf v.toNat 0 then opBootGo s else s))
  | 0x30 => some (.next (if s.isHead then
      (s.when (bitOf v.toNat 30) fun s => s.nimgEnd d 5).when (bitOf v.toNat 31) (opNimgGo d) else s))
  | 0x34 => if s.isHead then none else some (.next s)
  | _ => none

/-- CLK (13 R365). -/
def writeClk (d off : Nat) (v : Word) (s : State) : Option Res :=
  if off = 0x20 then
    let s := s.plainWrite d 1 off v
    some (.next ((s.when (bitOf v.toNat 31) (opUpdate d)).when (bitOf v.toNat 30) (opRefReturn d)))
  else none

/-- The domain register at an offset within a domain's block (03 R102). -/
def adRegAt : Nat → Option AdReg
  | 0x0 => some .cfg
  | 0x4 => some .nomLo
  | 0x8 => some .nomHi
  | 0xC => some .anchorLo
  | 0x10 => some .anchorHi
  | 0x14 => some .anchorFrac
  | 0x18 => some .anchorCyc
  | _ => none

/-- MS_ARM (03 R97): the operation of OP 3 is none. -/
def opMsArmWord (d : Nat) (v : Word) (s : State) : State :=
  let i := bitsOf v.toNat 9 0
  match bitsOf v.toNat 31 30 with
  | 0 => opMsArm d i (.load (s.msShadow d)) s
  | 1 => opMsArm d i .disarm s
  | 2 => opMsArm d i .arm s
  | _ => s

def writeAng (d off : Nat) (v : Word) (s : State) : Option Res :=
  if off = 0x20 then some (.next (opSnapSel d (bitsOf v.toNat 3 0) s))
  else if off = 0x60 then some (.next (opMsArmWord d v s))
  else if 0x100 ≤ off && off < 0x200 then
    match adRegAt ((off - 0x100) % 0x20) with
    | some r => some (.next (opDomainChange d ((off - 0x100) / 0x20) r v s))
    | none => some (.next s)
  else none

/-- ATR (04 R125, R127). -/
def writeAtr (d off : Nat) (v : Word) (s : State) : Option Res :=
  let c := (off - 0x100) / 0x40
  if off < 0x100 || 0x200 ≤ off then none
  else match (off - 0x100) % 0x40 with
    | 0x18 => some (.next (if bitOf v.toNat 0 then opRestart d c s else s))
    | _ => none

/-- MFE (05 R128-R138). -/
def writeMfe (d off : Nat) (v : Word) (s : State) : Option Res :=
  if 0x20 ≤ off && off < 0x30 then some (.next (opSdcCfg d ((off - 0x20) / 4) v s))
  else if off = 0x30 then some (.next (opChEn d v s))
  else if 0x100 ≤ off && off < 0x300 && (off - 0x100) % 0x20 ≤ 8 then
    some (.next (opChWrite d ((off - 0x100) / 0x20) (·.plainWrite d 4 off v) s))
  else none

/-- Bits of a slot's registers that may not change while it is enabled, waiting or running (06 R175). -/
def slotFixed : Nat → Word
  | 0x0 => 0x7#32
  | 0x4 => 0x1FFF#32
  | 0x8 => 0x7FFF#32
  | 0xC => 0x7FFF7FFF#32
  | _ => 0#32

/-- Is the SLOT_EN bit of a slot 1, or does SLOT_STAT show it waiting or running (06 R175)? -/
def State.slotHeld (s : State) (d sl : Nat) : Bool :=
  bitOf (s.rd d Fd.SLOT_EN_LO.W + s.rd d Fd.SLOT_EN_HI.W * 2 ^ 32) sl || s.cond d sl != 0

/-- LE (06 R158-R178, R194, R200). -/
def writeLe (d off : Nat) (v : Word) (s : State) : Option Res :=
  if off = 0x24 then some (.next (opSlotEn d false v s))
  else if off = 0x28 then some (.next (opSlotEn d true v s))
  else if 0x100 ≤ off && off < 0x900 then
    let sl := (off - 0x100) / 0x20
    let w := (off - 0x100) % 0x20
    if ((s.cell d (0x5000 + off) ^^^ v) &&& slotFixed w) != 0 && s.slotHeld d sl then some (.next (s.misuse 175 d 5))
    else if w = 0x10 then some (.next (opSlotCasc d sl v s))
    else none
  else if 0x900 ≤ off && off < 0xB00 then some (.next (opSps d ((off - 0x900) / 8) (off % 8 == 4) v s))
  else none

/-- RING (10 R292-R296). -/
def writeRing (d off : Nat) (v : Word) (s : State) : Option Res :=
  if off = 0x20 then some (opRingCtrl d v s)
  else if off = 0x24 then
    if !s.isHead then some (.next s) else if s.rd d Fd.RING_CTRL.MODE = 3 then some (.next (s.misuse 294 d 7)) else none
  else if off = 0x58 then
    some (.next (if s.isHead && bitOf v.toNat 31 then opRemote d (bitsOf v.toNat 4 0 + 1) (bitOf v.toNat 16) s else s))
  else if 0x100 ≤ off && off < 0x140 then some (.next (opRres d ((off - 0x100) / 4) v s))
  else none

/-- BG of a node (11 R306, R322; 12 R339, R341). -/
def writeBg (d off : Nat) (v : Word) (s : State) : Option Res :=
  if s.isHead then none
  else if off = 0x60 then some (.next (opBgSrc v s))
  else if off = 0x2C then some (.next (opUnlock (bitsOf v.toNat 5 0) s))
  else if 0x30 ≤ off && off < 0x48 then some (.next (opBgLeg ((off - 0x30) / 4) (s.cell 0 (0x8000 + off)) (s.plainWrite d 8 off v)))
  else if off = 0x20 then some (.next (opBgGcfg (s.rd 0 Fd.BG_GCFG.GFLT_EN) (s.plainWrite d 8 off v)))
  else none

/-- NET (14 R368, R376-R378, R386, R392). -/
def writeNet (d off : Nat) (v : Word) (s : State) : Option Res :=
  let first := s.isHead && d == 0
  if off = 0x20 then (if d = 1 then some (.next (s.plainWrite 1 9 off (v &&& ~~~0x30#32))) else none)
  else if off = 0x40 then
    some (.next (if first && bitOf v.toNat 31 then
      opMdio (bitOf v.toNat 30) (BitVec.ofNat 5 (bitsOf v.toNat 25 21)) (BitVec.ofNat 5 (bitsOf v.toNat 20 16)) (v.setWidth 16) s else s))
  else if off < 0x60 then none
  else if !first then some (.next s)
  else if off = 0x90 then some (.next (opPpsCfg (s.plainWrite 0 9 off v)))
  else if off = 0x6C then some (.next (s.plainWrite 0 9 off v).showHold)
  else if 0x100 ≤ off && off < 0x160 then
    match (off - 0x100) % 0x20 with
    | 0x0 => some (.next (opTdCtrl ((off - 0x100) / 0x20 + 1) v s))
    | 0x10 => some (.next (opTdTrim ((off - 0x100) / 0x20 + 1) v s))
    | _ => none
  else none

/-- SAF (15 R420, R425; 16 R442). A write that gets here is authenticated where the register is guarded. -/
def writeSaf (d off : Nat) (v : Word) (s : State) : Option Res :=
  if off = 0x44 then (if d = 0 then none else some (.next s))
  else if !s.isHead || 2 ≤ d then none
  else if off = 0xC4 then some (.next (opSafRst d v s))
  else if safConfigOff off then some (.next (opSafConfig d off v s))
  else none

/-- FLT (17 R453, R456). -/
def writeFlt (d off : Nat) (v : Word) (s : State) : Option Res :=
  match off with
  | 0x20 => some (.next (if bitOf v.toNat 0 then opClear d s else s))
  | 0x24 => some (.next (opFfReact d v s))
  | _ => none

/-- THM (17 R461, R469): a node takes its neighbours' values, with their time. -/
def writeThm (d off : Nat) (v : Word) (s : State) : Option Res :=
  if off = 0x2C then some (.next ((s.plainWrite d 12 off v).showSensor d))
  else if off != 0x34 then none
  else if s.isHead then some (.next s)
  else some (.next ((s.plainWrite d 12 off v).onThm d fun t => { t with nbrAt := s.td0 }))

/-- BIST (18 R480, R487). -/
def writeBist (d off : Nat) (v : Word) (s : State) : Option Res :=
  match off with
  | 0x20 => some (.next (opBistCtrl d (s.plainWrite d 13 off v)))
  | 0x50 => some (.next (if bitOf v.toNat 31 then opFuseBurn d (bitsOf v.toNat 7 0) s else s))
  | 0x58 => if s.isHead then none else some (.next s)
  | 0x5C => if s.isHead then none else some (.next s)
  | _ => none

/-- SEC (19 R496-R507), but AUTH_GO. -/
def writeSec (d off : Nat) (v : Word) (s : State) : Option Res :=
  match off with
  | 0x20 =>
    let s := s.plainWrite d 14 off v
    some (.next ((s.when (bitOf v.toNat 30) (opImgAbort d)).when (bitOf v.toNat 31) (opImgStart d (bitsOf v.toNat 2 0))))
  | 0x24 => some (opImgWord d v s)
  | 0x68 =>
    let s := s.plainWrite d 14 off v
    some (.next (if !bitOf v.toNat 31 then s
      else match bitsOf v.toNat 3 0 with
        | 1 => opAttest d s
        | 2 => opEstablishKey d (bitsOf v.toNat 9 8) s
        | _ => s))
  | 0x70 =>
    let sl := bitsOf v.toNat 9 8
    some (.next (if !bitOf v.toNat 31 then s
      else match bitsOf v.toNat 1 0 with
        | 1 => opFuseProgram d sl true s
        | 2 => opFuseRevoke d sl true s
        | _ => s))
  | _ => none

/-- REC (20 R509, R517-R520). The CRC of a DRAM line that a window access reads is taken as good; WINDOW_WRITE carries another outcome.
DESIGN CHOICE, log entry 21. -/
def writeRec (d off : Nat) (v : Word) (s : State) : Option Res :=
  if !s.isHead then (if recOnNode off then none else some (.next s))
  else if off = 0x20 then
    let s := opLedgerEn d (bitOf v.toNat 0) (s.plainWrite d 15 off v)
    let s := s.when (d == 0 && s.on 0 0xF && bitOf v.toNat 31) (opTrig (bitsOf v.toNat 19 16))
    some (.next (s.when (d == 0 && s.on 0 0xF && bitOf v.toNat 30) opRearm))
  else if 0x2C ≤ off && off < 0x38 then some (.next (opPart d ((off - 0x2C) / 4) v s))
  else if 0x400 ≤ off && off < 0x440 then some (.next (opWinWrite d ((off - 0x400) / 4) v true true s))
  else none

/-- FAB (02 R60, R69). -/
def writeFab (d off : Nat) (v : Word) (s : State) : Option Res :=
  if 0x100 ≤ off && off < 0x180 then some (.next (opResEntry d ((off - 0x100) / 4) v s)) else none

/-- The write of a control or array register that has an effect of its own. -/
def writeSpecial (d page off : Nat) (v : Word) (s : State) : Option Res :=
  match page with
  | 0 => writeDie d off v s
  | 1 => writeClk d off v s
  | 2 => writeAng d off v s
  | 3 => writeAtr d off v s
  | 4 => writeMfe d off v s
  | 5 => writeLe d off v s
  | 7 => writeRing d off v s
  | 8 => writeBg d off v s
  | 9 => writeNet d off v s
  | 10 => writeSaf d off v s
  | 11 => writeFlt d off v s
  | 12 => writeThm d off v s
  | 13 => writeBist d off v s
  | 14 => writeSec d off v s
  | 15 => writeRec d off v s
  | 16 => writeFab d off v s
  | _ => none

/-- A write to a header register (R49). -/
def writeHeader (d page off : Nat) (v : Word) (s : State) : State :=
  match off with
  | 0x4 => opPageCtrl d page v s
  | 0xC => opStickyClear d page v s
  | 0x1C => s.putCell d (hdrKey page 0x1C) v
  | _ => s

/-- A write to a control or array register: by its own effect, or by its access codes. -/
def writeReg (d page off : Nat) (v : Word) (s : State) : Res :=
  match writeSpecial d page off v s with
  | some r => r
  | none => .next (s.plainWrite d page off v)

/-! ### The windows -/

/-- A word of the milestone table (03 R88, R101): misuse while the entry is armed. -/
def writeEntry (d key : Nat) (v : Word) (s : State) : Res :=
  let i := (key - 0xF0000) / 0x20
  match findReg regsMilestone (key % 0x20) with
  | none => .next s
  | some r =>
    if key % 0x20 = 0x1C then .next s
    else if s.msArmed d i then .next (s.misuse 101 d 2)
    else .next (s.putCell d key ((s.cell d key &&& ~~~r.rw) ||| (v &&& r.rw)))

/-- A write to the summary page (R55, 22 R551). -/
def writeSummary (off : Nat) (v : Word) (s : State) : State :=
  match off with
  | 0x4 => opSumCtrl v s
  | 0xC => opSumSticky v s
  | 0x1C => s.putSum 0x1C v
  | 0x80 => s.putSum 0x80 ((s.sumCell 0x80 &&& ~~~0xFF#32) ||| (v &&& 0xFF#32))
  | _ => s

/-! ### Gated dies (13 R359, R360) -/

/-- The loss record, the one part of a gated die that is defined. -/
def lossReg (page off : Nat) : Bool := page == 1 && (off == 0x3C || off == 0x40 || off == 0x44)

/-- Contents that a lost TPLL leaves open. -/
def State.openSpot (s : State) : Spot → Bool
  | .page d page off => (s.die d).gated && !lossReg page off
  | .program d _ | .data d _ | .entry d _ => (s.die d).gated
  | .summary off =>
    if 0x40 ≤ off && off < 0x80 then (s.die ((off - 0x40) / 4 % 8)).gated
    else off == 0x28 && (s.die 0).gated
  | .nothing => false

/-! ### How an access is answered (R43, R46, R47, R69; 13 R362; 21 R527) -/

/-- What becomes of an access: made and answered; made, but timed out; timed out and not made; or no answer at all. -/
inductive Access where
  | done | late | lost | silent
  deriving DecidableEq, Repr

/-- The die of a place. -/
def Spot.die : Spot → Option Nat
  | .page d _ _ | .program d _ | .data d _ | .entry d _ => some d
  | _ => none

/-- Pages of die 0 that the port reaches while its FPLL is lost (13 R362). -/
def Spot.guardClocked : Spot → Bool
  | .summary _ | .nothing => true
  | .page d p _ => d == 0 && (p == 0 || p == 1 || p == 11)
  | _ => false

/-- Pages whose BOOT steps end with BOOT: the fuses, the identity, the DRAM and the links (21 R527). -/
def Spot.bootStep : Spot → Bool
  | .page _ p _ => p == 0xD || p == 0xE || p == 0xF || p == 0x10
  | _ => false

def State.reachDie (s : State) (d : Nat) : Bool := d == 0 || (s.joins 0 d && s.joins d 0)

def State.access (s : State) (x : Spot) : Access :=
  if !s.device.live || (s.die 0).hold then .silent
  else match x.die with
    | none => .done
    | some d =>
      if (s.die d).hold || !s.reachDie d then .lost
      else if x.bootStep && !(s.die d).booted then .late
      else if !(s.die 0).clk.fgated || x.guardClocked then .done
      else if d = 0 then .late else .lost

/-- ADDR_ERR of an access to an unmapped address (R43). -/
def State.addrErr (s : State) (x : Spot) : State := s.when (x == .nothing) (·.sumStick 0)

/-- An access takes its tick from a self-test slice of the memory (18 R472). -/
def State.lendSpot (s : State) : Spot → State
  | .program d key | .data d key | .entry d key => s.lend d [key]
  | _ => s

/-- A write as the agent carries it out: made, made although it timed out, or lost with a timeout (R47, R69). -/
def throughAgent (write : State → Res) (addr : Word) (s : State) : Res :=
  let x := s.spot addr.toNat
  match s.access x with
  | .done => write ((s.addrErr x).lendSpot x)
  | .late => Res.bind (write (s.lendSpot x)) fun s => .next (s.sumStick 1)
  | .lost => .next (s.sumStick 1)
  | .silent => .next s

/-! ### A write as the register agent makes it -/

/-- A host write of state or coefficient memory; against an engine's write of the same engine cycle the host's word stands (06 R156). -/
def State.hostData (s : State) (d key : Nat) (v : Word) : State :=
  let s := s.putCell d key v
  s.when (decide (stateKey 0 ≤ key)) fun s => s.onDie d fun x => { x with le := { x.le with
    hostW := ((key - stateKey 0) / 4, (s.td0 : Int)) :: x.le.hostW.filter fun h => decide (s.td0 ≤ h.2 + 2) } }

/-- The effect of a write at a place, authenticated or not; `go` makes the write of an accepted AUTH_GO. -/
def writeSpot (auth : Bool) (x : Spot) (v : Word) (go : Nat → State → Res) (s : State) : Res :=
  if s.openSpot x then .next s
  else match x with
    | .nothing => .next s
    | .summary off => .next (writeSummary off v s)
    | .program d _ => .next (s.stick d 5 31)
    | .data d key => .next (s.hostData d key (v &&& 0xFFFF#32))
    | .entry d key => writeEntry d key v s
    | .page d page off =>
      if off < 0x20 then .next (writeHeader d page off v s)
      else if 0x20 ≤ page then
        .next (if off < 0x100 then s else opContext d (page - 0x1F) ((off - 0x100) / 4) (v.setWidth 16) s)
      else if !auth && guardedReg page off then .next (s.guardReject d page off v)
      else if page = 14 && off = 0x60 then (if bitOf v.toNat 31 then go d s else .next s)
      else writeReg d page off v s

/-- The message of a guarded write: ADDR, DATA, COUNTER (19 R504). -/
def State.authCtr (s : State) (d : Nat) : Nat := s.rd d Fd.AUTH_CTR_HI.W * 2 ^ 32 + s.rd d Fd.AUTH_CTR_LO.W

def State.authMsg (s : State) (d : Nat) : List Byte :=
  beBytes 4 (s.rd d Fd.AUTH_ADDR.W) ++ beBytes 4 (s.rd d Fd.AUTH_DATA.W) ++ beBytes 8 (s.authCtr d)

def State.authTag (s : State) (d : Nat) : List Byte := [0, 1, 2, 3].flatMap fun t => beBytes 4 (s.rd d Fd.AUTH_TAG.W t)

/-- AUTH_GO (19 R503, R504): the command is checked; an accepted one makes its write. -/
def authGo (write : Word → Word → State → Res) (d : Nat) (s : State) : Res :=
  let verdict := s.cmdCheck d (s.authCtr d) (s.authMsg d) (s.authTag d)
  let t := (s.cmdJudge d (s.authCtr d) verdict).wr d Fd.AUTH_STAT.STAT 0 verdict
  if verdict = 1 then write (BitVec.ofNat 32 (s.rd d Fd.AUTH_ADDR.W)) (BitVec.ofNat 32 (s.rd d Fd.AUTH_DATA.W)) t else .next t

/-- How often AUTH_GO may name an AUTH_GO: once per die, since an accepted counter is not accepted again. -/
def authDepth : Nat := 9

/-- A write to an address, made at the register agent. -/
def writeAt : (fuel : Nat) → (auth : Bool) → (addr v : Word) → State → Res
  | 0, auth, addr, v, s => writeSpot auth (s.spot addr.toNat) v (fun _ s => .next s) s
  | n + 1, auth, addr, v, s =>
    writeSpot auth (s.spot addr.toNat) v (authGo fun a w s => throughAgent (writeAt n true a w) a s) s

/-- A read at the register agent: the word, and the state after it. WIN_DATA has an effect (20 R519), and open contents are open.
DESIGN CHOICE, log entry 21. -/
def readAt (addr : Word) (s : State) : Word × State :=
  let x := s.spot addr.toNat
  if s.openSpot x then s.freeW
  else match x with
    | .page d 15 off => if s.isHead && decide (0x400 ≤ off) && decide (off < 0x440) then opWinRead d ((off - 0x400) / 4) true true s else (s.show_ x, s)
    | _ => (s.show_ x, s)

/-- The status a management frame or a configuration entry gets for a write (14 R389): 0 done, 1 timed out, 2 rejected by guard or LOCK,
3 unmapped. -/
def State.writeStatus (s : State) (auth : Bool) (x : Spot) (v : Word) : Nat :=
  if s.access x = .late || s.access x = .lost then 1
  else match x with
    | .nothing => 3
    | .program _ _ => 2
    | .page d page off =>
      if !auth && off ≥ 0x20 && page < 0x20 && guardedReg page off then 2
      else if s.locked d page && ((off = 4 && !bitOf v.toNat 1) || (page = 0x10 && 0x100 ≤ off && off < 0x180)) then 2
      else 0
    | _ => 0

/-- A write asked of the register agent: its status, and what it does. -/
def agentWrite (auth : Bool) (addr v : Word) (s : State) : Nat × Res :=
  (s.writeStatus auth (s.spot addr.toNat) v, throughAgent (writeAt authDepth auth addr v) addr s)

/-- A read asked of the register agent: its status, its word, and the state after it. -/
def agentRead (addr : Word) (s : State) : Nat × Word × State :=
  let x := s.spot addr.toNat
  match s.access x with
  | .done => let r := readAt addr ((s.addrErr x).lendSpot x); (if x == .nothing then 3 else 0, r.1, r.2)
  | .silent => (1, 0, s)
  | _ => (1, 0, s.sumStick 1)

end Sys2Proof.Machine
end

