-- ==== Sys2Proof/Machine/Access.lean ====
section
/-! DEFINITION. Who reaches the register map: the register port (02 R44-R48), authenticated commands and images (19 R497, R504),
management frames (14 R389, R390), the head's remote accesses at a node (10 R292); and the pages' power estimates (02 R53, 22 R547). -/

namespace Sys2Proof.Machine

/-! ### The register port -/

/-- The end of a frame: the data and the marker sent (R44). -/
def State.answer (s : State) (data : Word) (marker : BitVec 4) : State := { s with port := ⟨data, marker⟩ }

/-- A frame that is ignored and sets FRAME_ERR (R45). -/
def State.frameErr (s : State) : State := s.sumStick 2

/-- A read frame (R43-R47). DEDUCED, log entry 20. -/
def opReadWord (addr : Word) (s : State) : State :=
  if !s.device.live || (s.die 0).hold then s
  else if addr.toNat % 4 != 0 then s.frameErr
  else
    let r := agentRead addr s
    r.2.2.answer r.2.1 (if r.1 = 1 then 0xA else 5)

def execReadWord (addr : Word) (s : State) : Res := s.sanely (.next (opReadWord addr s))

/-- A write to an address that ends a misuse (00 R14), or any write while none stands. -/
def State.maySend (s : State) (addr data : Word) : Bool :=
  s.sane || match s.spot addr.toNat with
    | .page d page 4 => s.mends d page data
    | _ => false

/-- A write frame (R43-R47). DEDUCED, log entry 20. -/
def opWriteWord (addr data : Word) (s : State) : Res :=
  if !s.device.live || (s.die 0).hold then .next s
  else if addr.toNat % 4 != 0 then .next s.frameErr
  else
    let r := agentWrite false addr data s
    Res.bind r.2 fun t => .next (t.answer t.port.data (if r.1 = 1 then 0xA else 5))

def execWriteWord (addr data : Word) (s : State) : Res :=
  if s.maySend addr data then opWriteWord addr data s else s.spoilt

/-- The port answers nothing: what it last sent stands. -/
def State.unanswered (s t : State) : State := { t with port := s.port }

/-- FRAME_ABORT (R45): a frame in which QCS_N rises early. One with an unknown command sets FRAME_ERR. A read cut before its turn-around
clock, and a write cut before its last data nibble, is ignored without a sticky bit; past that point a frame is performed in full, and
what it would answer is discarded. -/
def opFrameAbort (cmd : Byte) (addr data : Word) (phase : FramePhase) (s : State) : Res :=
  if !s.device.live || (s.die 0).hold then .next s
  else if cmd != 0x0B && cmd != 0x02 then .next s.frameErr
  else match phase with
    | .beforeTurnaround => .next s
    | .afterTurnaround =>
      if cmd = 0x0B then .next (s.unanswered (opReadWord addr s))
      else Res.bind (opWriteWord addr data s) fun t => .next (s.unanswered t)

def execFrameAbort (cmd : Byte) (addr data : Word) (phase : FramePhase) (s : State) : Res :=
  if s.maySend addr data then opFrameAbort cmd addr data phase s else s.spoilt

/-- REG_TIMEOUT (R47): an access that has not completed after 255 wait clocks. A read returns 0; a write is still applied. -/
def opRegTimeout (write : Bool) (addr data : Word) (s : State) : Res :=
  if !s.device.live || (s.die 0).hold || addr.toNat % 4 != 0 then .next s
  else if write then
    Res.bind (agentWrite false addr data s).2 fun t => .next ((t.sumStick 1).answer t.port.data 0xA)
  else .next (((agentRead addr s).2.2.sumStick 1).answer 0 0xA)

def execRegTimeout (write : Bool) (addr data : Word) (s : State) : Res :=
  if s.maySend addr data then opRegTimeout write addr data s else s.spoilt

/-- REGISTER_WRITE (00 R9, R11): a write as it reaches its register, without the frame that brought it. -/
def opRegisterWrite (addr data : Word) (s : State) : Res :=
  match (s.spot addr.toNat).die with
  | some d => if s.alive d then writeAt authDepth false addr data s else .next s
  | none => if s.device.live then writeAt authDepth false addr data s else .next s

def execRegisterWrite (addr data : Word) (s : State) : Res :=
  if s.maySend addr data then opRegisterWrite addr data s else s.spoilt

/-! ### Authenticated commands and images (19 R497, R504) -/

/-- The write of an accepted command, made at the register agent. -/
def authWrite (addr v : Word) (s : State) : Res := (agentWrite true addr v s).2

/-- AUTH_GO. -/
def execAuthGo (d : Nat) (s : State) : Res := s.sanely (if s.alive d then authGo authWrite d s else .next s)

/-- The entries of a configuration image, in order (R497): a rejected or unmapped one sets CFG_ENTRY_ERR and the load goes on. -/
def applyEntries (d : Nat) : List (Nat × Word) → State → Res
  | [], s => .next s
  | e :: t, s =>
    let r := agentWrite true (BitVec.ofNat 32 e.1) e.2 s
    Res.bind r.2 fun s => applyEntries d t (s.when (decide (2 ≤ r.1)) (·.sticky d Sk.SEC.CFG_ENTRY_ERR))

/-- IMAGE_VERIFIED (R496, R497): a verification ends with its RESULT; a good configuration image is applied. -/
def opImageVerified (d : Nat) (s : State) : Res :=
  if s.rd d Fd.IMG_STAT.STAT != 2 then .next s
  else
    let result := s.imgResult d
    let entries := imgEntries (s.imgWords d)
    let type := (s.sec d).type
    let s := s.imgEnd d result
    if result = 0 && type = 3 then applyEntries d entries s else .next s

def execImageVerified (d : Nat) (s : State) : Res := s.sanely (if s.alive d then opImageVerified d s else .next s)

/-! ### Management frames (14 R389, R390) -/

/-- One entry: operation (byte 0 of the entry), address, data. -/
structure MgmtEntry where
  op : Nat
  addr : Word
  data : Word
  deriving DecidableEq, Repr

def mgmtEntries (b : List Byte) : List MgmtEntry :=
  (List.range (beNat (slice b 4 1))).map fun j =>
    ⟨beNat (slice b (8 + 12 * j) 1), BitVec.ofNat 32 (beNat (slice b (12 + 12 * j) 4)), BitVec.ofNat 32 (beNat (slice b (16 + 12 * j) 4))⟩

/-- Where COUNTER stands in a frame. -/
def mgmtEnd (b : List Byte) : Nat := 8 + 12 * beNat (slice b 4 1)

/-- VER, OP and COUNT are right, and the frame is as long as COUNT says. -/
def mgmtForm (b : List Byte) : Bool :=
  beNat (slice b 0 1) == 1 && beNat (slice b 1 1) == 1 && decide (1 ≤ beNat (slice b 4 1)) && decide (beNat (slice b 4 1) ≤ 32) &&
    decide (mgmtEnd b + 24 ≤ b.length)

/-- An entry of the response: the status in byte 0. -/
def mgmtAnswer (status : Nat) (addr data : Word) : List Byte :=
  [BitVec.ofNat 8 status, 0, 0, 0] ++ beBytes 4 addr.toNat ++ beBytes 4 data.toNat

/-- The entries are executed in order; with them grows the response. An E_OP that R389 does not name does nothing, and its status is
open. -/
def mgmtRun : List MgmtEntry → (done : List Byte) → State → Host.Outcome (List Byte × State) Fault Refusal
  | [], done, s => .next (done, s)
  | e :: t, done, s =>
    if e.op = 0 then
      let r := agentRead e.addr s
      mgmtRun t (done ++ mgmtAnswer r.1 e.addr r.2.1) r.2.2
    else if e.op = 1 then
      let r := agentWrite true e.addr e.data s
      match r.2 with
      | .next s => mgmtRun t (done ++ mgmtAnswer r.1 e.addr e.data) s
      | .fault f => .fault f
      | .refused f => .refused f
    else
      let x := s.freeN
      mgmtRun t (done ++ mgmtAnswer (x.1 % 256) e.addr e.data) x.2

/-- A frame that is discarded whole (R389). -/
def State.mgmtReject (s : State) (d : Nat) : State := s.sticky d Sk.NET.MGMT_REJECT

/-- A management request accepted on port d is executed at the register agent. -/
def opManagement (d : Nat) (k : Kept) (s : State) : Res :=
  let b := k.payload
  if !mgmtForm b then .next (s.mgmtReject d)
  else
    let n := mgmtEnd b
    let ctr := beNat (slice b n 8)
    let verdict := s.cmdCheck 0 ctr (b.take (n + 8)) (slice b (n + 8) 16)
    let s := s.cmdJudge 0 ctr verdict
    if verdict != 1 then .next (s.mgmtReject d)
    else
      let key := ((s.sec 0).key).getD []
      match mgmtRun (mgmtEntries b) [] s with
      | .next (done, t) =>
        let body := [1, 0x81] ++ slice b 2 6 ++ done ++ slice b n 8
        .next (t.sendFrame d (.mgmtResponse k.source k.udp (body ++ tagOf key body)))
      | .fault f => .fault f
      | .refused f => .refused f

/-- MANAGEMENT_FRAME (R390): the request that reached the agent first, if port d accepted it. -/
def execManagementFrame (d : Nat) (s : State) : Res :=
  s.sanely (match s.alive 0 && s.blockEn 0 9, (s.net 0).requests with
    | true, (p, k) :: rest => if p = d then opManagement d k (s.onNet 0 fun n => { n with requests := rest }) else .next s
    | _, _ => .next s)

/-! ### The head's accesses at a node (10 R292) -/

/-- REG_REQ: the node answers as its own register port would; its answer is queued in class B. -/
def opRegReq (ring : Ring) (b : RingBlock) (s : State) : Res :=
  let r := s.nodeReceive ring b
  if !r.1 then .next r.2
  else
    let addr := BitVec.ofNat 32 (field8 b 1 4)
    let data := BitVec.ofNat 32 (field8 b 5 4)
    let answer := fun (w : Word) (s : State) => s.nodeQueue 1 3 ([0] ++ beBytes 4 addr.toNat ++ beBytes 4 w.toNat)
    if field8 b 0 1 = 0 then
      let x := agentRead addr r.2
      .next (answer x.2.1 x.2.2)
    else Res.bind (agentWrite false addr data r.2).2 fun s => .next (answer data s)

def execRegReq (r : Ring) (blk : RingBlock) (s : State) : Res := s.sanely (if s.toNode blk 1 2 then opRegReq r blk s else .next s)

/-! ### PAGE_POWER (02 R53, 22 R547) -/

/-- Idle and full draw of a page in mW (R547); REC counts its die's DRAM (R53). DESIGN CHOICE, log entry 25. -/
def powerRange (head : Bool) (d page : Nat) : Nat × Nat :=
  let pair := head && decide (d < 2)
  match page with
  | 0 => (10, 10)
  | 1 => if head then (95, 95) else (110, 110)
  | 2 => (25, 40)
  | 3 => (5, 15)
  | 4 => if pair || !head then (8, 30) else (0, 0)
  | 5 => (30, 630)
  | 6 => if head then (30, 210) else (0, 0)
  | 7 => (340, 340)
  | 8 => if head then (0, 0) else (40, 120)
  | 9 => if pair then (45, 60) else (0, 0)
  | 10 => if pair then (30, 30) else (0, 0)
  | 11 => (10, 10)
  | 12 => (5, 5)
  | 13 => (5, 20)
  | 14 => (15, 60)
  | 15 => if head then (200, 430) else (10, 20)
  | 16 => if head then (50, 250) else (0, 0)
  | _ => (0, 0)

/-- Does the block of a page draw nothing: disabled, idle by 01 R18, or a RING page with MODE OFF? The planner of a die that takes no
part in a phase group is idle. -/
def State.drawsNothing (s : State) (d page : Nat) : Bool :=
  !s.blockEn d page || (page == 7 && s.isHead && s.ringMode d == 0) || (page == 6 && s.epRole d == 0)

/-- One page's estimate takes a new value: an open one between the idle and the full figure, 0 of a block that draws nothing. -/
def State.powerPage (s : State) (d page : Nat) : State :=
  let r := powerRange s.isHead d page
  if s.drawsNothing d page then s.putCell d (hdrKey page 0x18) 0
  else
    let x := s.freeN
    x.2.putCell d (hdrKey page 0x18) (BitVec.ofNat 32 (r.1 + x.1 % (r.2 - r.1 + 1)))

/-- Sum of the estimates of a die. -/
def State.powerSum (s : State) (d : Nat) : Nat := ((List.range 17).map fun p => (s.cell d (hdrKey p 0x18)).toNat).sum

/-- PAGE_POWER_UPDATE: every page of a die; a node reports its whole-die estimate in NODE_POWER (10 R289).
DESIGN CHOICE, log entry 25. -/
def opPower (d : Nat) (s : State) : State :=
  let s := s.each (List.range 17) fun s p => s.powerPage d p
  if s.isHead then s else s.setNodeField 1 (BitVec.ofNat 16 (s.powerSum 0))

def execPagePowerUpdate (d : Nat) (s : State) : Res := s.guarded (s.alive d) (opPower d)

end Sys2Proof.Machine
end

