-- ==== Sys2Proof/Machine/Dispatch.lean ====
section
/-! DEFINITION. One arm per command: its effect on everything but the queue. -/

namespace Sys2Proof.Machine

/-- The effect of a command. -/
def exec (i : Instr) (s : State) : Host.Outcome State Fault Refusal :=
  match i with
  | .suppliesRise mv => Sys2Proof.Machine.execSuppliesRise mv s
  | .supplyLoss mv => Sys2Proof.Machine.execSupplyLoss mv s
  | .resetNLow ns => Sys2Proof.Machine.execResetNLow ns s
  | .resetHoldEnd mv role refsel boot0 => Sys2Proof.Machine.execResetHoldEnd mv role refsel boot0 s
  | .tpllLocked d => Sys2Proof.Machine.execTpllLocked d s
  | .bootComplete d links => Sys2Proof.Machine.execBootComplete d links s
  | .bootGo => Sys2Proof.Machine.execBootGo s
  | .nodeSelfReset cycles => Sys2Proof.Machine.execNodeSelfReset cycles s
  | .stateCmdConfig => Sys2Proof.Machine.execStateCmdConfig s
  | .stateCmdStandstill => Sys2Proof.Machine.execStateCmdStandstill s
  | .stateCmdStartup => Sys2Proof.Machine.execStateCmdStartup s
  | .stateCmdRun => Sys2Proof.Machine.execStateCmdRun s
  | .stateCmdTest => Sys2Proof.Machine.execStateCmdTest s
  | .stateCmdRecovery => Sys2Proof.Machine.execStateCmdRecovery s
  | .stateCmdOther target => Sys2Proof.Machine.execStateCmdOther target s
  | .collectorArmApply => Sys2Proof.Machine.execCollectorArmApply s
  | .readWord addr => Sys2Proof.Machine.execReadWord addr s
  | .writeWord addr data => Sys2Proof.Machine.execWriteWord addr data s
  | .frameAbort cmd addr data phase => Sys2Proof.Machine.execFrameAbort cmd addr data phase s
  | .regTimeout write addr data => Sys2Proof.Machine.execRegTimeout write addr data s
  | .registerWrite addr data => Sys2Proof.Machine.execRegisterWrite addr data s
  | .stickyClear d page mask => Sys2Proof.Machine.execStickyClear d page mask s
  | .softReset d page value => Sys2Proof.Machine.execSoftReset d page value s
  | .pageLock d page => Sys2Proof.Machine.execPageLock d page s
  | .blockEn d page on => Sys2Proof.Machine.execBlockEn d page on s
  | .summaryUpdate => Sys2Proof.Machine.execSummaryUpdate s
  | .fabricSubmission d port source dst cls => Sys2Proof.Machine.execFabricSubmission d port source dst cls s
  | .fabricTransfer d what how => Sys2Proof.Machine.execFabricTransfer d what how s
  | .linkDown d link => Sys2Proof.Machine.execLinkDown d link s
  | .resEntryWrite d ix value => Sys2Proof.Machine.execResEntryWrite d ix value s
  | .milestoneReached d => Sys2Proof.Machine.execMilestoneReached d s
  | .load d ix => Sys2Proof.Machine.execLoad d ix s
  | .disarm d ix => Sys2Proof.Machine.execDisarm d ix s
  | .arm d ix => Sys2Proof.Machine.execArm d ix s
  | .snapSel d domain => Sys2Proof.Machine.execSnapSel d domain s
  | .domainChange d domain reg value => Sys2Proof.Machine.execDomainChange d domain reg value s
  | .mirrorRecord domain => Sys2Proof.Machine.execMirrorRecord domain s
  | .slewEnd d domain => Sys2Proof.Machine.execSlewEnd d domain s
  | .trackerSample d c => Sys2Proof.Machine.execTrackerSample d c s
  | .coastLoss d c => Sys2Proof.Machine.execCoastLoss d c s
  | .locked d c => Sys2Proof.Machine.execLocked d c s
  | .trackerStandstill d c => Sys2Proof.Machine.execTrackerStandstill d c s
  | .quadTransition d c qa qb stable => Sys2Proof.Machine.execQuadTransition d c qa qb stable s
  | .pulseEdge d c ball stable => Sys2Proof.Machine.execPulseEdge d c ball stable s
  | .restart d c => Sys2Proof.Machine.execRestart d c s
  | .sdcCfgWrite d k value => Sys2Proof.Machine.execSdcCfgWrite d k value s
  | .chEnWrite d value => Sys2Proof.Machine.execChEnWrite d value s
  | .channelSettled d c edge bits => Sys2Proof.Machine.execChannelSettled d c edge bits s
  | .fastResult d c edge bits => Sys2Proof.Machine.execFastResult d c edge bits s
  | .stuck d c edge bits => Sys2Proof.Machine.execStuck d c edge bits s
  | .instanceGrant d e => Sys2Proof.Machine.execInstanceGrant d e s
  | .slotEnWrite d hi value => Sys2Proof.Machine.execSlotEnWrite d hi value s
  | .slotCascWrite d slot value => Sys2Proof.Machine.execSlotCascWrite d slot value s
  | .spsWrite d slot hi value => Sys2Proof.Machine.execSpsWrite d slot hi value s
  | .nop d e ix => Sys2Proof.Machine.execNop d e ix s
  | .ld d e ix => Sys2Proof.Machine.execLd d e ix s
  | .ldw d e ix => Sys2Proof.Machine.execLdw d e ix s
  | .st d e ix => Sys2Proof.Machine.execSt d e ix s
  | .sts d e ix => Sys2Proof.Machine.execSts d e ix s
  | .movw d e ix => Sys2Proof.Machine.execMovw d e ix s
  | .mac d e ix => Sys2Proof.Machine.execMac d e ix s
  | .msu d e ix => Sys2Proof.Machine.execMsu d e ix s
  | .mul d e ix => Sys2Proof.Machine.execMul d e ix s
  | .add d e ix => Sys2Proof.Machine.execAdd d e ix s
  | .sub d e ix => Sys2Proof.Machine.execSub d e ix s
  | .shl d e ix => Sys2Proof.Machine.execShl d e ix s
  | .shr d e ix => Sys2Proof.Machine.execShr d e ix s
  | .neg d e ix => Sys2Proof.Machine.execNeg d e ix s
  | .abs d e ix => Sys2Proof.Machine.execAbs d e ix s
  | .lim d e ix => Sys2Proof.Machine.execLim d e ix s
  | .intg d e ix => Sys2Proof.Machine.execIntg d e ix s
  | .dly d e ix => Sys2Proof.Machine.execDly d e ix s
  | .sel d e ix => Sys2Proof.Machine.execSel d e ix s
  | .tab d e ix => Sys2Proof.Machine.execTab d e ix s
  | .div d e ix => Sys2Proof.Machine.execDiv d e ix s
  | .sincos d e ix => Sys2Proof.Machine.execSincos d e ix s
  | .inp d e ix => Sys2Proof.Machine.execInp d e ix s
  | .out d e ix => Sys2Proof.Machine.execOut d e ix s
  | .spt d e ix => Sys2Proof.Machine.execSpt d e ix s
  | .flag d e ix => Sys2Proof.Machine.execFlag d e ix s
  | .cmp d e ix => Sys2Proof.Machine.execCmp d e ix s
  | .brf d e ix => Sys2Proof.Machine.execBrf d e ix s
  | .endRun d e ix => Sys2Proof.Machine.execEndRun d e ix s
  | .invalidInstruction d e ix => Sys2Proof.Machine.execInvalidInstruction d e ix s
  | .planStart d fails => Sys2Proof.Machine.execPlanStart d fails s
  | .planEnd d => Sys2Proof.Machine.execPlanEnd d s
  | .manifestTransfer d ringSlot => Sys2Proof.Machine.execManifestTransfer d ringSlot s
  | .ringLinkUp d r seen => Sys2Proof.Machine.execRingLinkUp d r seen s
  | .ringLinkDown d r seen => Sys2Proof.Machine.execRingLinkDown d r seen s
  | .ringBreak d r link => Sys2Proof.Machine.execRingBreak d r link s
  | .ringBreakClear d r link => Sys2Proof.Machine.execRingBreakClear d r link s
  | .blockForward r blk => Sys2Proof.Machine.execBlockForward r blk s
  | .silent => Sys2Proof.Machine.execSilent s
  | .ringBlockClear => Sys2Proof.Machine.execRingBlockClear s
  | .alert d blk => Sys2Proof.Machine.execAlert d blk s
  | .ackReceived d ack => Sys2Proof.Machine.execAckReceived d ack s
  | .resendTimeout d n cls => Sys2Proof.Machine.execResendTimeout d n cls s
  | .syncSend d => Sys2Proof.Machine.execSyncSend d s
  | .sync r blk arr => Sys2Proof.Machine.execSync r blk arr s
  | .delaySend d => Sys2Proof.Machine.execDelaySend d s
  | .delay r blk arr => Sys2Proof.Machine.execDelay r blk arr s
  | .delayReturn d la lb => Sys2Proof.Machine.execDelayReturn d la lb s
  | .enumGo d => Sys2Proof.Machine.execEnumGo d s
  | .enumReturn d ca cb => Sys2Proof.Machine.execEnumReturn d ca cb s
  | .caravan r blk => Sys2Proof.Machine.execCaravan r blk s
  | .caravanFinalise d cid returned results => Sys2Proof.Machine.execCaravanFinalise d cid returned results s
  | .setpt blk => Sys2Proof.Machine.execSetpt blk s
  | .stateSend d => Sys2Proof.Machine.execStateSend d s
  | .state blk => Sys2Proof.Machine.execState blk s
  | .blockSend d => Sys2Proof.Machine.execBlockSend d s
  | .block blk => Sys2Proof.Machine.execBlock blk s
  | .contextFieldWrite d n field value => Sys2Proof.Machine.execContextFieldWrite d n field value s
  | .ctxWrite r blk => Sys2Proof.Machine.execCtxWrite r blk s
  | .ctxDataSend => Sys2Proof.Machine.execCtxDataSend s
  | .ctxData d r blk => Sys2Proof.Machine.execCtxData d r blk s
  | .remoteRead d n => Sys2Proof.Machine.execRemoteRead d n s
  | .remoteWrite d n => Sys2Proof.Machine.execRemoteWrite d n s
  | .regReq r blk => Sys2Proof.Machine.execRegReq r blk s
  | .regRsp d r blk => Sys2Proof.Machine.execRegRsp d r blk s
  | .remoteTimeout d => Sys2Proof.Machine.execRemoteTimeout d s
  | .ringModeWrite d value => Sys2Proof.Machine.execRingModeWrite d value s
  | .rresWrite d ix value => Sys2Proof.Machine.execRresWrite d ix value s
  | .edgeExecute b => Sys2Proof.Machine.execEdgeExecute b s
  | .manifestExpiry b => Sys2Proof.Machine.execManifestExpiry b s
  | .deadTimeEnd leg => Sys2Proof.Machine.execDeadTimeEnd leg s
  | .dabB1Edge => Sys2Proof.Machine.execDabB1Edge s
  | .dabB2Edge => Sys2Proof.Machine.execDabB2Edge s
  | .legCrossing leg => Sys2Proof.Machine.execLegCrossing leg s
  | .carrierPeak leg => Sys2Proof.Machine.execCarrierPeak leg s
  | .pinCommand b p n z => Sys2Proof.Machine.execPinCommand b p n z s
  | .bgSrcWrite value => Sys2Proof.Machine.execBgSrcWrite value s
  | .trip leg senses => Sys2Proof.Machine.execTrip leg senses s
  | .endBlank leg senses => Sys2Proof.Machine.execEndBlank leg senses s
  | .driverTrip leg low => Sys2Proof.Machine.execDriverTrip leg low s
  | .slowHigh b => Sys2Proof.Machine.execSlowHigh b s
  | .gatesLow leg => Sys2Proof.Machine.execGatesLow leg s
  | .slowHoldEnd b => Sys2Proof.Machine.execSlowHoldEnd b s
  | .unlock legs senses gflt => Sys2Proof.Machine.execUnlock legs senses gflt s
  | .referenceLost d second cycles => Sys2Proof.Machine.execReferenceLost d second cycles s
  | .referencePresent d second cycles cdr => Sys2Proof.Machine.execReferencePresent d second cycles cdr s
  | .holdoverEnd d pll => Sys2Proof.Machine.execHoldoverEnd d pll s
  | .refReturn d => Sys2Proof.Machine.execRefReturn d s
  | .pllRelock d pll => Sys2Proof.Machine.execPllRelock d pll s
  | .clkGated d errs still ago => Sys2Proof.Machine.execClkGated d errs still ago s
  | .fpllLoss d errs still => Sys2Proof.Machine.execFpllLoss d errs still s
  | .dllLoss d => Sys2Proof.Machine.execDllLoss d s
  | .dllRelock d => Sys2Proof.Machine.execDllRelock d s
  | .update d => Sys2Proof.Machine.execUpdate d s
  | .guardFail d khz => Sys2Proof.Machine.execGuardFail d khz s
  | .vtEdge d tvt fvt tFor fFor => Sys2Proof.Machine.execVtEdge d tvt fvt tFor fFor s
  | .netLinkChange d pcs an speed full => Sys2Proof.Machine.execNetLinkChange d pcs an speed full s
  | .mdioRead phy reg => Sys2Proof.Machine.execMdioRead phy reg s
  | .mdioWrite phy reg data => Sys2Proof.Machine.execMdioWrite phy reg data s
  | .mdioDone data => Sys2Proof.Machine.execMdioDone data s
  | .frameReceive d f => Sys2Proof.Machine.execFrameReceive d f s
  | .ptpMessage d domain fine m => Sys2Proof.Machine.execPtpMessage d domain fine m s
  | .arpRequest d => Sys2Proof.Machine.execArpRequest d s
  | .safetyTelegram d => Sys2Proof.Machine.execSafetyTelegram d s
  | .managementFrame d => Sys2Proof.Machine.execManagementFrame d s
  | .supervisionSend => Sys2Proof.Machine.execSupervisionSend s
  | .hsrForward d f residence => Sys2Proof.Machine.execHsrForward d f residence s
  | .duplicateExpiry d => Sys2Proof.Machine.execDuplicateExpiry d s
  | .tdStep n value => Sys2Proof.Machine.execTdStep n value s
  | .syncLoss n => Sys2Proof.Machine.execSyncLoss n s
  | .announceTimeout d => Sys2Proof.Machine.execAnnounceTimeout d s
  | .ppsInEdge stable => Sys2Proof.Machine.execPpsInEdge stable s
  | .ppsOutRise => Sys2Proof.Machine.execPpsOutRise s
  | .ppsOutFall => Sys2Proof.Machine.execPpsOutFall s
  | .inputAccept ch fb ix levels => Sys2Proof.Machine.execInputAccept ch fb ix levels s
  | .resetLong ch f => Sys2Proof.Machine.execResetLong ch f s
  | .safetyCycle ch => Sys2Proof.Machine.execSafetyCycle ch s
  | .discrepancy ch f hand2 => Sys2Proof.Machine.execDiscrepancy ch f hand2 s
  | .testPulse n => Sys2Proof.Machine.execTestPulse n s
  | .inputTest ch ix raw => Sys2Proof.Machine.execInputTest ch ix raw s
  | .outputTestPulse ch j readback => Sys2Proof.Machine.execOutputTestPulse ch j readback s
  | .readback ch j level => Sys2Proof.Machine.execReadback ch j level s
  | .feedback ch j => Sys2Proof.Machine.execFeedback ch j s
  | .crossImage ch => Sys2Proof.Machine.execCrossImage ch s
  | .crossImageAbsent ch => Sys2Proof.Machine.execCrossImageAbsent ch s
  | .safRstCmd ch auth value => Sys2Proof.Machine.execSafRstCmd ch auth value s
  | .safConfigWrite ch offset auth value => Sys2Proof.Machine.execSafConfigWrite ch offset auth value s
  | .telegramTake ch => Sys2Proof.Machine.execTelegramTake ch s
  | .watchdogExpiry ch c => Sys2Proof.Machine.execWatchdogExpiry ch c s
  | .degradedEnd ch c => Sys2Proof.Machine.execDegradedEnd ch c s
  | .localLatch d => Sys2Proof.Machine.execLocalLatch d s
  | .packageRecord => Sys2Proof.Machine.execPackageRecord s
  | .clear d => Sys2Proof.Machine.execClear d s
  | .ffReactWrite d value => Sys2Proof.Machine.execFfReactWrite d value s
  | .tempSample d raws => Sys2Proof.Machine.execTempSample d raws s
  | .neighbourWrite d n => Sys2Proof.Machine.execNeighbourWrite d n s
  | .sliceStart d => Sys2Proof.Machine.execSliceStart d s
  | .sliceEnd d fails => Sys2Proof.Machine.execSliceEnd d fails s
  | .fuseBurn d macro_ => Sys2Proof.Machine.execFuseBurn d macro_ s
  | .fuseDone d => Sys2Proof.Machine.execFuseDone d s
  | .engineTestStart d => Sys2Proof.Machine.execEngineTestStart d s
  | .engineTestYield d => Sys2Proof.Machine.execEngineTestYield d s
  | .engineTestEnd d issues sig => Sys2Proof.Machine.execEngineTestEnd d issues sig s
  | .patrolRead d first second => Sys2Proof.Machine.execPatrolRead d first second s
  | .imageStart d type => Sys2Proof.Machine.execImageStart d type s
  | .imageAbort d => Sys2Proof.Machine.execImageAbort d s
  | .imageWord d word => Sys2Proof.Machine.execImageWord d word s
  | .imageVerified d => Sys2Proof.Machine.execImageVerified d s
  | .attest d => Sys2Proof.Machine.execAttest d s
  | .establishKey d slot => Sys2Proof.Machine.execEstablishKey d slot s
  | .secOpDone d => Sys2Proof.Machine.execSecOpDone d s
  | .authGo d => Sys2Proof.Machine.execAuthGo d s
  | .fuseProgram d slot auth => Sys2Proof.Machine.execFuseProgram d slot auth s
  | .fuseRevoke d slot auth => Sys2Proof.Machine.execFuseRevoke d slot auth s
  | .fuseOpDone d => Sys2Proof.Machine.execFuseOpDone d s
  | .streamRecord d => Sys2Proof.Machine.execStreamRecord d s
  | .captureSend => Sys2Proof.Machine.execCaptureSend s
  | .capture d r blk => Sys2Proof.Machine.execCapture d r blk s
  | .ledgerEnable d on => Sys2Proof.Machine.execLedgerEnable d on s
  | .trig c => Sys2Proof.Machine.execTrig c s
  | .ledgerTrigger => Sys2Proof.Machine.execLedgerTrigger s
  | .ledgerSeal d => Sys2Proof.Machine.execLedgerSeal d s
  | .rearm => Sys2Proof.Machine.execRearm s
  | .partWrite d ix value => Sys2Proof.Machine.execPartWrite d ix value s
  | .windowRead d ix first second => Sys2Proof.Machine.execWindowRead d ix first second s
  | .windowWrite d ix value first second => Sys2Proof.Machine.execWindowWrite d ix value first second s
  | .nimgGo d => Sys2Proof.Machine.execNimgGo d s
  | .nimgAbort d => Sys2Proof.Machine.execNimgAbort d s
  | .image r blk => Sys2Proof.Machine.execImage r blk s
  | .nimgPoll d n fails => Sys2Proof.Machine.execNimgPoll d n fails s
  | .stuckClear d c edge bit => Sys2Proof.Machine.execStuckClear d c edge bit s
  | .ptpSend d m fine => Sys2Proof.Machine.execPtpSend d m fine s
  | .caravanBlockSend d => Sys2Proof.Machine.execCaravanBlockSend d s
  | .bcBlockSend d n => Sys2Proof.Machine.execBcBlockSend d n s
  | .pagePowerUpdate d => Sys2Proof.Machine.execPagePowerUpdate d s

end Sys2Proof.Machine
end

