-- ==== Sys2Proof/Machine/Tap.lean ====
section
/-! DEFINITION. The test access port (22 R542): the controller, instruction, bypass and boundary registers of IEEE 1149.1 over the signal
balls of the package. Instruction codes and the order of boundary cells are the model's. DESIGN CHOICE, log entry 92. -/

namespace Sys2Proof.Machine

/-- Balls a to b of a numbered group. -/
def balls (f : Nat → Ball) (a b : Nat) : List Ball := (List.range' a (b + 1 - a)).map f

/-- The balls the boundary register covers, by their head names, in the order of the ball map's rows D to N (R538): every signal ball but
the CML pairs, XIN, XOUT and, on a node, GSENSE0-GSENSE5; the test access port's own five have no cells. -/
def scanOrder : List Ball := List.flatten
  [balls Ball.si 0 3, [Ball.mdc, Ball.mdio], balls Ball.sdd 0 3,
   balls Ball.si 4 7, [Ball.tp 0], balls Ball.sdd 4 7, [Ball.sdc 0],
   balls Ball.si 8 11, [Ball.tp 1, Ball.resetN, Ball.permit, Ball.role 0, Ball.role 1], balls Ball.sdd 8 11, [Ball.sdc 1],
   balls Ball.si 12 15, balls Ball.sdd 12 15,
   balls Ball.fb 0 3, [Ball.tp 2], balls Ball.qio 0 3,
   balls Ball.fb 4 7, [Ball.tp 3, Ball.qck, Ball.qcsN],
   balls Ball.soa 0 3, balls Ball.sdd 16 19, [Ball.sdc 2],
   balls Ball.soa 4 7, [Ball.pulse 0, Ball.refsel], balls Ball.sdd 20 23, [Ball.sdc 3],
   balls Ball.sob 0 3, [Ball.boot0, Ball.ppsIn, Ball.ppsOut, Ball.clkOut], balls Ball.sdd 24 27,
   balls Ball.sob 4 7, [Ball.pulse 1], balls Ball.sdd 28 31]

/-- A ball with a sense input of the bridge guard on a node (R540). -/
def Ball.senses : Ball → Bool
  | .fb i => decide (i < 6)
  | _ => false

def State.scanCells (s : State) : List Ball :=
  if s.isHead then scanOrder else scanOrder.filter fun b => !b.senses

/-- The level at which the part's own logic drives a ball: none for an input or a three-state ball (R540, R541). -/
def State.coreLevel (s : State) (b : Ball) : Option Bool :=
  match b with
  | .permit => some s.pins.permit
  | .ppsOut => some s.pins.ppsOut
  | .clkOut => some s.clkOut
  | .mdc => if s.isHead then some s.mdc else none
  | .sdc k => some (s.sdcLevel k)
  | .tp i => if s.isHead then some (bitOf s.pins.tp.toNat i) else none
  | .soa i => if s.isHead then some (bitOf s.pins.soa.toNat i) else if i = 0 then some s.pins.bypass else none
  | .sob i => if s.isHead then some (bitOf s.pins.sob.toNat i) else none
  | .sdd i =>
    if s.isHead || i < 16 || 31 ≤ i then none
    else if i < 22 then some (bitOf s.pins.gh.toNat (i - 16))
    else if i < 28 then some (bitOf s.pins.gl.toNat (i - 22))
    else some (bitOf s.pins.slow.toNat (i - 28))
  | _ => none

/-- The instructions of the model. -/
def tapExtest : BitVec 4 := 0
def tapSample : BitVec 4 := 1
def tapBypass : BitVec 4 := 15

/-- A ball as the board sees it: under EXTEST an output takes its boundary cell. -/
def State.ballLevel (s : State) (b : Ball) : Option Bool :=
  match s.coreLevel b with
  | none => none
  | some v => some (if s.tap.ir = tapExtest then s.tap.update.getD (s.scanCells.idxOf b) v else v)

/-! ### Drive codes (R551, R552) -/

/-- The lowest bit of a ball's group in PAD_DRIVE: gate outputs, slow outputs, clock outputs, register outputs. -/
def ballGroup : Ball → Nat
  | .sdd _ => 0
  | .sdc _ | .clkOut | .ppsOut => 4
  | .mdc | .mdio | .qio _ => 6
  | _ => 2

/-- The drive code a group is set to; a code of 3 acts as 2. -/
def driveCode (w : Word) (lo : Nat) : Nat := min 2 (bitsOf w.toNat (lo + 1) lo)

/-- A ball that changes its level in this tick changes it at the code that PAD_DRIVE holds; every other ball keeps the code of its latest
transition (R552). -/
def State.padTick (s : State) : State :=
  let w := s.sumCell 0x80
  { s with pads := ((List.range s.scanCells.length).zip s.scanCells).map fun e =>
      let old := s.pads.getD e.1 (false, driveCode (sumDflt 0x80) (ballGroup e.2))
      match s.ballLevel e.2 with
      | some v => if v = old.1 then old else (v, driveCode w (ballGroup e.2))
      | none => old }

/-- The controller's next state. -/
def TapState.next (t : TapState) (tms : Bool) : TapState :=
  match t with
  | .reset => if tms then .reset else .idle
  | .idle => if tms then .selectDr else .idle
  | .selectDr => if tms then .selectIr else .captureDr
  | .captureDr => if tms then .exit1Dr else .shiftDr
  | .shiftDr => if tms then .exit1Dr else .shiftDr
  | .exit1Dr => if tms then .updateDr else .pauseDr
  | .pauseDr => if tms then .exit2Dr else .pauseDr
  | .exit2Dr => if tms then .updateDr else .shiftDr
  | .updateDr => if tms then .selectDr else .idle
  | .selectIr => if tms then .reset else .captureIr
  | .captureIr => if tms then .exit1Ir else .shiftIr
  | .shiftIr => if tms then .exit1Ir else .shiftIr
  | .exit1Ir => if tms then .updateIr else .pauseIr
  | .pauseIr => if tms then .exit2Ir else .pauseIr
  | .exit2Ir => if tms then .updateIr else .shiftIr
  | .updateIr => if tms then .selectDr else .idle

/-- EXTEST and SAMPLE select the boundary register; every other instruction is BYPASS. -/
def Tap.scans (t : Tap) : Bool := t.ir == tapExtest || t.ir == tapSample

def Tap.reset (t : Tap) : Tap := { t with state := .reset, ir := tapBypass, tdo := false }

/-- What the boundary cells capture: the level of an output; the level at an input ball is the board's, and open. -/
def State.captureCells (s : State) : List Bool × State :=
  s.scanCells.foldl (fun (r : List Bool × State) b =>
    match r.2.coreLevel b with
    | some v => (r.1 ++ [v], r.2)
    | none => let f := r.2.freeN; (r.1 ++ [f.1 % 2 == 1], f.2)) ([], s)

def State.onTap (s : State) (f : Tap → Tap) : State := { s with tap := f s.tap }

/-- A rising edge of TCK: what the present state does, then the next state. -/
def State.tapEdge (s : State) (tms tdi : Bool) : State :=
  let t := s.tap
  let s := match t.state with
    | .captureDr =>
      if t.scans then let r := s.captureCells; r.2.onTap fun t => { t with shift := r.1 } else s.onTap fun t => { t with bypass := false }
    | .shiftDr => s.onTap fun t => if t.scans then { t with shift := t.shift.drop 1 ++ [tdi] } else { t with bypass := tdi }
    | .captureIr => s.onTap fun t => { t with irShift := 1 }
    | .shiftIr => s.onTap fun t => { t with irShift := (t.irShift >>> 1) ||| (if tdi then 8 else 0) }
    | _ => s
  s.onTap fun t => { t with state := t.state.next tms }

/-- The falling edge: updates, and TDO. -/
def Tap.fall (t : Tap) : Tap :=
  match t.state with
  | .reset => t.reset
  | .updateDr => if t.scans then { t with update := t.shift } else t
  | .updateIr => { t with ir := t.irShift }
  | .shiftDr => { t with tdo := if t.scans then t.shift.headD false else t.bypass }
  | .shiftIr => { t with tdo := bitOf t.irShift.toNat 0 }
  | _ => t

/-- One TCK cycle, or TRST_N low. -/
def State.tapTake (s : State) (i : TapIn) : State :=
  match i with
  | .trst => s.onTap Tap.reset
  | .clock tms tdi => (s.tapEdge tms tdi).onTap Tap.fall

/-- TCK runs at 25 MHz at most: the next cycle the board applies is taken every 32 ticks (R542). -/
def State.tapTick (s : State) : State :=
  match s.tap.waiting with
  | i :: rest => if s.tap.phase = 0 then ((s.onTap fun t => { t with waiting := rest, phase := 31 }).tapTake i)
                 else s.onTap fun t => { t with phase := t.phase - 1 }
  | [] => s.onTap fun t => { t with phase := t.phase - 1 }

end Sys2Proof.Machine
end

