-- ==== Sys2Proof/Machine/Tick.lean ====
section
/-! DEFINITION. One ring tick of 1.25 ns (01 R5; 03 R70-R78), which passes when no command waits (log entry 6): ring time counts,
domains and wall times advance, and what the spec ties to the start of a tick or to a multiple of it takes place. -/

namespace Sys2Proof.Machine

/-- Ring time counts: out of OFF and RESET, and not on a node whose TPLL is lost (13 R359). -/
def State.counts (s : State) : Bool := s.device.live && (s.isHead || s.alive 0)

/-- The start of the tick on one die: milestone operations, SLOT_EN (03 R98, 06 R158). -/
def State.dieStart (s : State) (d : Nat) : State := (s.msStart d).leStart d

/-- The domains of a die advance into the tick that ring time shows (03 R73, R75). -/
def State.advanceDie (s : State) (d : Nat) : State :=
  s.onDie d fun x => { x with ang := { x.ang with
    dom := x.ang.dom.map fun y => y.advance s.td0, wall := x.ang.wall.map WallCopy.advance } }

/-- Pulses of safety and test outputs that end in this tick, and the level of each test output (15 R400, R412, R413). -/
def State.endPulses (s : State) : State :=
  let s := s.each s.channels fun s ch => s.when (s.evaluates ch) fun s => s.endDark ch (s.td0 % 200000 != 0)
  let done : Option Nat → Bool := fun x => match x with
    | some t => decide (t + s.tpW 0 * 40000 ≤ s.td0)
    | none => false
  let finished := s.evaluates 0 && (s.die 0).saf.tpDark.any done
  (s.when finished (·.onSaf 0 fun x => { x with tpDark := x.tpDark.map fun (t : Option Nat) => if done t then none else t })).driveTp

/-- One tick. DESIGN CHOICE, log entry 6. -/
def tick (s : State) : State :=
  let s := s.when (s.device != .off) (·.tapTick.padTick)
  let s := s.each s.channels fun s ch => s.endSample ch
  if !s.counts then s else
    let s := s.endFaults.endLedger
    let live := s.dieList.filter fun d => s.alive d
    let s := s.each live fun s d => (s.endTests d).endBurn d
    let s := s.each live fun s d => s.dieStart d
    let s := { s with td0Prev := s.td0, td0 := (s.td0 + 1) % 2 ^ 64, wall := s.wall.map Wall.advance }
    let s := s.each live fun s d => (s.advanceDie d).detect d
    let s := s.leComplete.takeCmds.fabricSlot
    let s := s.each live fun s d => (s.mfeStart d).lendEngines d
    let s := s.applyRearm.endPulses.openSlots.ppsTick
    let s := s.when s.pathOn fun s => s.gateTick.followPins
    let s := s.when (!s.isHead) fun s => s.nodeChanges.applyAdjust
    s.when (s.isHead && s.alive 0 && s.td0 % 800000 == 0) fun s => s.discStep

end Sys2Proof.Machine
end

