-- ==== Sys2Proof/Machine/Step.lean ====
section
/-! DEFINITION. One step of the block: the command at the front of the queue, or one ring tick when none waits. -/

namespace Sys2Proof.Machine

/-- The command at the front runs with the queue's rest; on an empty queue one tick of 1.25 ns passes (log entry 6).
DESIGN CHOICE, log entry 10. -/
def step (s : State) : Host.Outcome State Fault Refusal :=
  match s.pending with
  | [] => .next (tick s)
  | c :: rest => exec c { s with pending := rest }

/-- The state with the command a table word spells in front of its queue. DESIGN CHOICE, log entry 1. -/
def State.withFetchWord (s : State) (nbits w : Nat) : State :=
  match decodeTableWord nbits w with
  | some c => { s with pending := c :: s.pending }
  | none => s

end Sys2Proof.Machine
end

