-- ==== Sys2Proof/WellFormed.lean ====
section
/-! DEFINITION. Which commands name things that are there: the checks on the operands of a command, over a part with a given number of
dies. A command that names what is not there has not occurred (log entry 5); meanings check it again where they need it. -/

namespace Sys2Proof

open Sys2Proof.Machine

/-- A ring block carries 64 payload bytes (09 R242). -/
def RingBlock.wf (b : RingBlock) : Bool := decide (b.payload.length = 64)

/-- The command's indices lie in the ranges of the register map and of the part. -/
def Instr.wf (dies : Nat) : Instr → Bool
  | .suppliesRise _ => true
  | .supplyLoss _ => true
  | .resetNLow _ => true
  | .resetHoldEnd _ _ _ _ => true
  | .tpllLocked d => decide (d < dies)
  | .bootComplete d _ => decide (d < dies)
  | .bootGo => true
  | .nodeSelfReset _ => true
  | .stateCmdConfig => true
  | .stateCmdStandstill => true
  | .stateCmdStartup => true
  | .stateCmdRun => true
  | .stateCmdTest => true
  | .stateCmdRecovery => true
  | .stateCmdOther _ => true
  | .collectorArmApply => true
  | .readWord _ => true
  | .writeWord _ _ => true
  | .frameAbort _ _ _ _ => true
  | .regTimeout _ _ _ => true
  | .registerWrite _ _ => true
  | .stickyClear d page _ => decide (d < dies) && pageThere page
  | .softReset d page _ => decide (d < dies) && pageThere page
  | .pageLock d page => decide (d < dies) && pageThere page
  | .blockEn d page _ => decide (d < dies) && pageThere page
  | .summaryUpdate => true
  | .fabricSubmission d port source dst cls => decide (d < dies) && decide (port < 16) && decide (source < 4096) && decide (dst < dies) && decide (cls < 3)
  | .fabricTransfer d _ _ => decide (d < dies)
  | .linkDown d _ => decide (d < dies)
  | .resEntryWrite d i _ => decide (d < dies) && decide (i < 32)
  | .milestoneReached d => decide (d < dies)
  | .load d i => decide (d < dies) && decide (i < 1024)
  | .disarm d i => decide (d < dies) && decide (i < 1024)
  | .arm d i => decide (d < dies) && decide (i < 1024)
  | .snapSel d domain => decide (d < dies) && decide (domain < 16)
  | .domainChange d domain _ _ => decide (d < dies) && decide (domain < 8)
  | .mirrorRecord domain => decide (domain < 11)
  | .slewEnd d domain => decide (d < dies) && decide (domain < 8)
  | .trackerSample d c => decide (d < dies) && decide (c < 4)
  | .coastLoss d c => decide (d < dies) && decide (c < 4)
  | .locked d c => decide (d < dies) && decide (c < 4)
  | .trackerStandstill d c => decide (d < dies) && decide (c < 4)
  | .quadTransition d c _ _ _ => decide (d < dies) && decide (c < 4)
  | .pulseEdge d c _ _ => decide (d < dies) && decide (c < 4)
  | .restart d c => decide (d < dies) && decide (c < 4)
  | .sdcCfgWrite d k _ => decide (d < dies) && decide (k < 4)
  | .chEnWrite d _ => decide (d < dies)
  | .channelSettled d c _ _ => decide (d < dies) && decide (c < 16)
  | .fastResult d c _ _ => decide (d < dies) && decide (c < 16)
  | .stuck d c _ _ => decide (d < dies) && decide (c < 16)
  | .instanceGrant d e => decide (d < dies) && decide (e < 6)
  | .slotEnWrite d _ _ => decide (d < dies)
  | .slotCascWrite d slot _ => decide (d < dies) && decide (slot < 64)
  | .spsWrite d slot _ _ => decide (d < dies) && decide (slot < 64)
  | .nop d e i => decide (d < dies) && decide (e < 6) && decide (i < 8)
  | .ld d e i => decide (d < dies) && decide (e < 6) && decide (i < 8)
  | .ldw d e i => decide (d < dies) && decide (e < 6) && decide (i < 8)
  | .st d e i => decide (d < dies) && decide (e < 6) && decide (i < 8)
  | .sts d e i => decide (d < dies) && decide (e < 6) && decide (i < 8)
  | .movw d e i => decide (d < dies) && decide (e < 6) && decide (i < 8)
  | .mac d e i => decide (d < dies) && decide (e < 6) && decide (i < 8)
  | .msu d e i => decide (d < dies) && decide (e < 6) && decide (i < 8)
  | .mul d e i => decide (d < dies) && decide (e < 6) && decide (i < 8)
  | .add d e i => decide (d < dies) && decide (e < 6) && decide (i < 8)
  | .sub d e i => decide (d < dies) && decide (e < 6) && decide (i < 8)
  | .shl d e i => decide (d < dies) && decide (e < 6) && decide (i < 8)
  | .shr d e i => decide (d < dies) && decide (e < 6) && decide (i < 8)
  | .neg d e i => decide (d < dies) && decide (e < 6) && decide (i < 8)
  | .abs d e i => decide (d < dies) && decide (e < 6) && decide (i < 8)
  | .lim d e i => decide (d < dies) && decide (e < 6) && decide (i < 8)
  | .intg d e i => decide (d < dies) && decide (e < 6) && decide (i < 8)
  | .dly d e i => decide (d < dies) && decide (e < 6) && decide (i < 8)
  | .sel d e i => decide (d < dies) && decide (e < 6) && decide (i < 8)
  | .tab d e i => decide (d < dies) && decide (e < 6) && decide (i < 8)
  | .div d e i => decide (d < dies) && decide (e < 6) && decide (i < 8)
  | .sincos d e i => decide (d < dies) && decide (e < 6) && decide (i < 8)
  | .inp d e i => decide (d < dies) && decide (e < 6) && decide (i < 8)
  | .out d e i => decide (d < dies) && decide (e < 6) && decide (i < 8)
  | .spt d e i => decide (d < dies) && decide (e < 6) && decide (i < 8)
  | .flag d e i => decide (d < dies) && decide (e < 6) && decide (i < 8)
  | .cmp d e i => decide (d < dies) && decide (e < 6) && decide (i < 8)
  | .brf d e i => decide (d < dies) && decide (e < 6) && decide (i < 8)
  | .endRun d e i => decide (d < dies) && decide (e < 6) && decide (i < 8)
  | .invalidInstruction d e i => decide (d < dies) && decide (e < 6) && decide (i < 8)
  | .planStart d _ => decide (d < dies)
  | .planEnd d => decide (d < dies)
  | .manifestTransfer d ringSlot => decide (d < dies) && decide (ringSlot < 4)
  | .ringLinkUp d _ _ => decide (d < dies)
  | .ringLinkDown d _ _ => decide (d < dies)
  | .ringBreak d _ link => decide (d < dies) && decide (1 ≤ link) && decide (link ≤ 33)
  | .ringBreakClear d _ link => decide (d < dies) && decide (1 ≤ link) && decide (link ≤ 33)
  | .blockForward _ blk => blk.wf
  | .silent => true
  | .ringBlockClear => true
  | .alert d blk => decide (d < dies) && blk.wf
  | .ackReceived d _ => decide (d < dies)
  | .resendTimeout d n cls => decide (d < dies) && decide (1 ≤ n) && decide (n ≤ 32) && (cls == 1 || cls == 2)
  | .syncSend d => decide (d < dies)
  | .sync _ blk _ => blk.wf
  | .delaySend d => decide (d < dies)
  | .delay _ blk _ => blk.wf
  | .delayReturn d _ _ => decide (d < dies)
  | .enumGo d => decide (d < dies)
  | .enumReturn d _ _ => decide (d < dies)
  | .caravan _ blk => blk.wf
  | .caravanFinalise d _ _ _ => decide (d < dies)
  | .setpt blk => blk.wf
  | .stateSend d => decide (d < dies)
  | .state blk => blk.wf
  | .blockSend d => decide (d < dies)
  | .block blk => blk.wf
  | .contextFieldWrite d n field _ => decide (d < dies) && decide (1 ≤ n) && decide (n ≤ 32) && decide (field < 0x3C0)
  | .ctxWrite _ blk => blk.wf
  | .ctxDataSend => true
  | .ctxData d _ blk => decide (d < dies) && blk.wf
  | .remoteRead d n => decide (d < dies) && decide (1 ≤ n) && decide (n ≤ 32)
  | .remoteWrite d n => decide (d < dies) && decide (1 ≤ n) && decide (n ≤ 32)
  | .regReq _ blk => blk.wf
  | .regRsp d _ blk => decide (d < dies) && blk.wf
  | .remoteTimeout d => decide (d < dies)
  | .ringModeWrite d _ => decide (d < dies)
  | .rresWrite d i _ => decide (d < dies) && decide (i < 16)
  | .edgeExecute b => decide (b < 3)
  | .manifestExpiry b => decide (b < 3)
  | .deadTimeEnd leg => decide (leg < 6)
  | .dabB1Edge => true
  | .dabB2Edge => true
  | .legCrossing leg => decide (leg < 6)
  | .carrierPeak leg => decide (leg < 6)
  | .pinCommand b _ _ _ => decide (b < 3)
  | .bgSrcWrite _ => true
  | .trip leg _ => decide (leg < 6)
  | .endBlank leg _ => decide (leg < 6)
  | .driverTrip leg _ => decide (leg < 6)
  | .slowHigh b => decide (b < 3)
  | .gatesLow leg => decide (leg < 6)
  | .slowHoldEnd b => decide (b < 3)
  | .unlock _ _ _ => true
  | .referenceLost d _ _ => decide (d < dies)
  | .referencePresent d _ _ _ => decide (d < dies)
  | .holdoverEnd d _ => decide (d < dies)
  | .refReturn d => decide (d < dies)
  | .pllRelock d _ => decide (d < dies)
  | .clkGated d _ _ _ => decide (d < dies)
  | .fpllLoss d _ _ => decide (d < dies)
  | .dllLoss d => decide (d < dies)
  | .dllRelock d => decide (d < dies)
  | .update d => decide (d < dies)
  | .guardFail d _ => decide (d < dies)
  | .vtEdge d _ _ _ _ => decide (d < dies)
  | .netLinkChange d _ _ _ _ => decide (d < min dies 2)
  | .mdioRead _ _ => true
  | .mdioWrite _ _ _ => true
  | .mdioDone _ => true
  | .frameReceive d _ => decide (d < min dies 2)
  | .ptpMessage d _ _ _ => decide (d < min dies 2)
  | .arpRequest d => decide (d < min dies 2)
  | .safetyTelegram d => decide (d < min dies 2)
  | .managementFrame d => decide (d < min dies 2)
  | .supervisionSend => true
  | .hsrForward d _ _ => decide (d < min dies 2)
  | .duplicateExpiry d => decide (d < min dies 2)
  | .tdStep n _ => decide (1 ≤ n) && decide (n ≤ 3)
  | .syncLoss n => decide (1 ≤ n) && decide (n ≤ 3)
  | .announceTimeout d => decide (d < min dies 2)
  | .ppsInEdge _ => true
  | .ppsOutRise => true
  | .ppsOutFall => true
  | .inputAccept ch fb i _ => decide (ch < min dies 2) && decide (i < (if fb then 8 else 16))
  | .resetLong ch f => decide (ch < min dies 2) && decide (f < 16)
  | .safetyCycle ch => decide (ch < min dies 2)
  | .discrepancy ch f _ => decide (ch < min dies 2) && decide (f < 16)
  | .testPulse n => decide (n < 4)
  | .inputTest ch i _ => decide (ch < min dies 2) && decide (i < 16)
  | .outputTestPulse ch j _ => decide (ch < min dies 2) && decide (j < 8)
  | .readback ch j _ => decide (ch < min dies 2) && decide (j < 8)
  | .feedback ch j => decide (ch < min dies 2) && decide (j < 8)
  | .crossImage ch => decide (ch < min dies 2)
  | .crossImageAbsent ch => decide (ch < min dies 2)
  | .safRstCmd ch _ _ => decide (ch < min dies 2)
  | .safConfigWrite ch offset _ _ => decide (ch < min dies 2) && decide (offset < 0x1000)
  | .telegramTake ch => decide (ch < min dies 2)
  | .watchdogExpiry ch c => decide (ch < min dies 2) && decide (c < 32)
  | .degradedEnd ch c => decide (ch < min dies 2) && decide (c < 32)
  | .localLatch d => decide (d < dies)
  | .packageRecord => true
  | .clear d => decide (d < dies)
  | .ffReactWrite d _ => decide (d < dies)
  | .tempSample d raws => decide (d < dies) && decide (raws.length = dies)
  | .neighbourWrite d n => decide (d < dies) && decide (1 ≤ n) && decide (n ≤ 32)
  | .sliceStart d => decide (d < dies)
  | .sliceEnd d _ => decide (d < dies)
  | .fuseBurn d macro_ => decide (d < dies) && decide (macro_ < 256)
  | .fuseDone d => decide (d < dies)
  | .engineTestStart d => decide (d < dies)
  | .engineTestYield d => decide (d < dies)
  | .engineTestEnd d issues _ => decide (d < dies) && decide (issues ≤ 1536)
  | .patrolRead d _ _ => decide (d < dies)
  | .imageStart d _ => decide (d < dies)
  | .imageAbort d => decide (d < dies)
  | .imageWord d _ => decide (d < dies)
  | .imageVerified d => decide (d < dies)
  | .attest d => decide (d < dies)
  | .establishKey d _ => decide (d < dies)
  | .secOpDone d => decide (d < dies)
  | .authGo d => decide (d < dies)
  | .fuseProgram d _ _ => decide (d < dies)
  | .fuseRevoke d _ _ => decide (d < dies)
  | .fuseOpDone d => decide (d < dies)
  | .streamRecord d => decide (d < dies)
  | .captureSend => true
  | .capture d _ blk => decide (d < dies) && blk.wf
  | .ledgerEnable d _ => decide (d < dies)
  | .trig _ => true
  | .ledgerTrigger => true
  | .ledgerSeal d => decide (d < dies)
  | .rearm => true
  | .partWrite d i _ => decide (d < dies) && decide (i < 3)
  | .windowRead d i _ _ => decide (d < dies) && decide (i < 16)
  | .windowWrite d i _ _ _ => decide (d < dies) && decide (i < 16)
  | .nimgGo d => decide (d < dies)
  | .nimgAbort d => decide (d < dies)
  | .image _ blk => blk.wf
  | .nimgPoll d n _ => decide (d < dies) && decide (1 ≤ n) && decide (n ≤ 32)
  | .stuckClear d c _ _ => decide (d < dies) && decide (c < 16)
  | .ptpSend d _ _ => decide (d < min dies 2)
  | .caravanBlockSend d => decide (d < dies)
  | .bcBlockSend d n => decide (d < dies) && decide (1 ≤ n) && decide (n ≤ 32)
  | .pagePowerUpdate d => decide (d < dies)

/-- A command that names only what the part has. -/
def WellFormed (p : Part) (i : Instr) : Prop := i.wf p.dies = true

end Sys2Proof
end

