-- ==== Sys2Proof/Safety.lean ====
section
/-! DEFINITION. What counts as a sound state and a safe run, in the terms the claims use. -/

namespace Sys2Proof.Machine

/-- Every die of the part is held, and no other (00 R1). -/
def State.shaped (s : State) : Bool := decide (s.dies.length = s.part.dies)

/-- The stores of die d are canonical: registers and memory windows against their reset values, DRAM bytes against 0. -/
def State.CanonicalDie (s : State) (d : Nat) : Prop :=
  Cells.Canonical (s.dflt d) (s.die d).cells ∧ Memory.wf (s.die d).recorder.dram

/-- A sound state: the dies of the part, and every store in its one canonical form. Every state a run reaches is sound. -/
def State.Sound (s : State) : Prop :=
  s.shaped = true ∧ Cells.Canonical sumDflt s.sum ∧ ∀ d, d < s.part.dies → s.CanonicalDie d

/-- The tables of a die have the sizes of the hardware: channels, domains, slots, instances, bridges, legs, connections (00 R1, 03-07,
11, 15, 16). -/
def Die.sized (x : Die) : Bool :=
  x.fab.gates.length == 4 && x.ang.dom.length == 8 && x.ang.anchors.length == 8 && x.ang.wall.length == 3 && x.trk.length == 4 &&
  x.mfe.ch.length == 16 && x.mfe.sdc.length == 4 && x.le.slot.length == 64 && x.le.slot.all (fun y => y.sp.length == 4) &&
  x.le.inst.length == 48 && x.le.inst.all (fun y => y.acc.length == 4 && y.w.length == 16 && y.sp.length == 4) && x.ep.cells.length == 128 && x.ep.member.length == 3 &&
  x.bg.bridge.length == 3 && x.bg.leg.length == 6 && x.clk.applied.length == 5 && x.net.lastSend.length == 4 &&
  x.saf.run.length == 24 && x.saf.rawAt.length == 24 && x.saf.disc.length == 32 && x.saf.hand.length == 16 && x.saf.released.length == 16 &&
  x.saf.rise.length == 16 && x.saf.longDone.length == 16 && x.saf.outAt.length == 8 && x.saf.lvlAt.length == 8 &&
  x.saf.dark.length == 8 && x.saf.tpDark.length == 4 && x.saf.mism.length == 8 && x.saf.conn.length == 32 &&
  x.thm.setAt.length == 3 && x.thm.relAt.length == 3 && x.sec.ok.length == 8 && x.sec.digest.length == 4

/-- Every table of the part has its size. -/
def State.sized (s : State) : Bool := s.shaped && s.dies.all Die.sized && s.wall.length == 3

/-- No leg has both gate balls high (11 R303). -/
def State.noShootThrough (s : State) : Bool := s.pins.gh &&& s.pins.gl == 0#6

/-- PERMIT is high in a switching state only (01 R31). -/
def State.permitLegal (s : State) : Bool := !s.pins.permit || s.device.switching

/-- What the safe run of every part keeps: no shoot-through, and PERMIT low outside the switching states. -/
def State.PinsLegal (s : State) : Prop := s.noShootThrough = true ∧ s.permitLegal = true

/-- The moves of the device state of a head (01 R33), with LOCKOUT as the loss of a TPLL and a source present at arming also
reach it (13 R361, 17 R447). -/
def DevState.movesTo (a b : DevState) : Bool :=
  b == .off || b == .reset ||
  match a with
  | .off => false
  | .reset => b == .boot
  | .boot => b == .config || b == .lockout
  | .lockout => b == .standstill
  | a => (hostMoves a).contains b || b == .lockout

/-- One move of the device state, or none. -/
def DevState.within (a b : DevState) : Bool := a == b || a.movesTo b

/-- A state that waits for its collectors is one a host may command from here (17 R447). -/
def State.ArmLegal (s : State) : Prop := ∀ new t, s.arming = some (new, t) → (hostMoves s.device).contains new = true

/-- The host's commands for a state: the command, its target, the states R33 lists it for (01 R33). -/
def moveCommands : List (Instr × DevState × List DevState) :=
  [(.stateCmdConfig, .config, [.standstill]),
   (.stateCmdStandstill, .standstill, [.config, .startup, .run, .recovery, .test]),
   (.stateCmdStartup, .startup, [.standstill]),
   (.stateCmdRun, .run, [.startup, .recovery]),
   (.stateCmdTest, .test, [.standstill]),
   (.stateCmdRecovery, .recovery, [.run])]

/-- A step that neither faults nor is refused. -/
def State.goesOn (s : State) : Prop := ∃ t, step s = .next t

/-- The command completes, in a next state of which P holds. -/
def Completes (c : Instr) (s : State) (P : State → Prop) : Prop := ∃ t, exec c s = .next t ∧ P t

/-- The frame of a command. From s to t nothing of the package beside its dies changes (state, ring time, wall time, summary page,
port, pins, queue; `sumPend` and `free` are the two counters of the model); no die but d changes; of the registers and windows
of die d only those at keys P names may differ, and no byte of its DRAM does. -/
def State.OnlyKeys (s t : State) (d : Nat) (P : Nat → Prop) : Prop :=
  t = { s with dies := t.dies, sumPend := t.sumPend, free := t.free } ∧ t.dies.length = s.dies.length ∧
  (∀ e, e ≠ d → t.die e = s.die e) ∧
  (∀ key, ¬P key → t.cell d key = s.cell d key) ∧
  (t.die d).recorder.dram = (s.die d).recorder.dram

/-- Die by die: the frame of a command that acts on several dies, by the keys it may change on each. -/
def State.OnlyOn (s t : State) (P : Nat → Nat → Prop) : Prop :=
  t.part = s.part ∧ t.pending = s.pending ∧
  (∀ e key, ¬P e key → t.cell e key = s.cell e key) ∧
  ∀ e, (t.die e).recorder.dram = (s.die e).recorder.dram

/-- The keys of a sticky bit: PAGE_STICKY and STICKY_COUNT of its page. -/
def stickyKeys (page key : Nat) : Prop := key = hdrKey page 0xC ∨ key = hdrKey page 0x10

/-- The keys of a page. -/
def pageKeys (page key : Nat) : Prop := key / 0x1000 = page

/-- From s to t a misuse of the block of a page comes to stand; of the rest of the package only the memories of that block are touched, which
are left with what the misuse leaves in them (00 R14). -/
def State.Misused (s t : State) (rule d page : Nat) : Prop :=
  t = { s with dies := t.dies, free := t.free, misused := s.misused ++ [(rule, d, page)] } ∧ t.dies.length = s.dies.length ∧
  (∀ e, e ≠ d → t.die e = s.die e) ∧ (∀ key, ownWindow page key = none → t.cell d key = s.cell d key) ∧
  (t.die d).recorder.dram = (s.die d).recorder.dram

/-! ### The loop engines -/

/-- The commands of the instance i of engine e of die d. -/
def loopCommands (d e i : Nat) : List Instr :=
  [.nop d e i, .ld d e i, .ldw d e i, .st d e i, .sts d e i, .movw d e i, .mac d e i, .msu d e i, .mul d e i, .add d e i,
   .sub d e i, .shl d e i, .shr d e i, .neg d e i, .abs d e i, .lim d e i, .intg d e i, .dly d e i, .sel d e i, .tab d e i,
   .div d e i, .sincos d e i, .inp d e i, .out d e i, .spt d e i, .flag d e i, .cmp d e i, .brf d e i, .endRun d e i,
   .invalidInstruction d e i]

/-- What comes due in the loop engines of the package in this tick is due on die d (06 R155, R164). -/
def State.DueOnly (s : State) (d : Nat) : Prop := s.on d 5 = true ∧ ∀ k, k ≠ d → s.storesDue k = [] ∧ s.endsDue k = []

/-- An instance runs and its next word executes as an opcode, inside the pages of its slot (07 R190). -/
def State.Issues (s : State) (d e i : Nat) (op : LoopOp) : Prop :=
  s.sane = true ∧ s.running d e i = true ∧ s.pcOk d e (s.inst d e i) = true ∧ executesAs (s.fetch d e i) = op ∧
  s.pagesOk d e (s.inst d e i) op (decodeLoop (s.fetch d e i)) = true

/-- A command completes with the instance stepped from y after n issues, and with nothing else of the package changed. -/
def State.InstStep (s : State) (c : Instr) (d e i n : Nat) (y : Inst) : Prop :=
  Completes c s fun t =>
    t.inst d e i = { y with pc := y.pc + 1, issues := (s.inst d e i).issues + n } ∧
    (∀ k, k ≠ 8 * e + i → (t.die d).le.inst.getD k Inst.idle = (s.die d).le.inst.getD k Inst.idle) ∧
    (t.die d).le.slot = (s.die d).le.slot ∧ s.OnlyKeys t d fun _ => False

/-- A command completes in one issue with a value in the accumulator its word names and V as given. -/
def State.AccStep (s : State) (c : Instr) (d e i : Nat) (acc : Int) (v : Bool) : Prop :=
  s.InstStep c d e i 1
    { s.inst d e i with acc := setAt (s.inst d e i).acc (decodeLoop (s.fetch d e i)).a fun _ => acc, v := v }

/-- A command completes with state words on their way, to be visible when its n issues are complete, and the instance stepped from y
(06 R155, R165). -/
def State.StoreStep (s : State) (c : Instr) (d e i n : Nat) (words : List (Nat × BitVec 16)) (y : Inst) : Prop :=
  Completes c s fun t =>
    let x := s.inst d e i
    t.inst d e i = { y with pc := y.pc + 1, issues := x.issues + n } ∧
    (t.die d).le.stores = (s.die d).le.stores ++ words.map (fun w => ⟨x.first + 16 * ((x.issues : Int) + n), x.slot, w.1, w.2⟩) ∧
    (∀ j, j ≠ 8 * e + i → (t.die d).le.inst.getD j Inst.idle = (s.die d).le.inst.getD j Inst.idle) ∧
    (t.die d).le.slot = (s.die d).le.slot ∧ s.OnlyKeys t d fun _ => False

/-! ### The bridges of a node -/

/-- A leg is commanded at an instant: `up` and `lo` say what is on. What is off rises no more, and if its ball is high it falls within 12.5 ns
of the instant (11 R301). -/
def State.LegAt (t : State) (k : Nat) (up lo : Bool) (inst : Int) : Prop :=
  (t.leg k).up = up ∧ (t.leg k).lo = lo ∧
  (up = false → (t.leg k).upRise = none ∧ (t.gh k = true → ∃ f, (t.leg k).upFall = some f ∧ f ≤ t.place inst + gateDelay)) ∧
  (lo = false → (t.leg k).loRise = none ∧ (t.gl k = true → ∃ f, (t.leg k).loFall = some f ∧ f ≤ t.place inst + gateDelay))

/-- Bridge b has been commanded to a state at an instant: STATE of BG_CMD shows its code, and its legs are commanded as R299 says, a zero to
the upper or to the lower switches. -/
def State.Drives (t : State) (b code : Nat) (inst : Int) : Prop :=
  t.rd 0 (bstateField b) = code ∧ ∃ zUpper,
    t.LegAt (2 * b) (legsOf code zUpper).1 (legsOf code zUpper).2.1 inst ∧
    t.LegAt (2 * b + 1) (legsOf code zUpper).2.2.1 (legsOf code zUpper).2.2.2 inst

/-- A command of the node's command path: what it leaves. Of the registers only words of the BG page may change, of the pins only the gate
balls, BYPASS and SLOW. -/
def State.PathOnly (s t : State) : Prop :=
  t.device = s.device ∧ t.td0 = s.td0 ∧ t.arming = s.arming ∧ t.mirrors = s.mirrors ∧ t.wall = s.wall ∧ t.sum = s.sum ∧
  t.pins = { s.pins with gh := t.pins.gh, gl := t.pins.gl, bypass := t.pins.bypass, slow := t.pins.slow } ∧
  s.OnlyOn t fun e key => e = 0 ∧ pageKeys 8 key

/-- Reservation i of die d names the member manifests to a die: the planner's port and source, that destination (02 R60, 08 R231). -/
def State.names (s : State) (d dest i : Nat) : Prop :=
  i < 32 ∧ s.flag d Fd.RES_ENTRY.VALID i = true ∧ s.rd d Fd.RES_ENTRY.PORT i = 1 ∧ s.rd d Fd.RES_ENTRY.SOURCE i = 1 ∧ s.rd d Fd.RES_ENTRY.DEST i = dest

/-! ### The ring -/

/-- From s to t a down field of a node takes a value: one of set-point word w of slot sl also as a host write of that word (10 R289; 07 R194). -/
def State.TakesDown (s t : State) (f : Nat) (v : BitVec 16) : Prop :=
  let sl := (f - 0x80) / 4
  let w := (f - 0x80) % 4
  t.nodeField f = downValue f v ∧
  (0x80 ≤ f → sl < (s.die 0).le.slot.length → (s.slot 0 sl).sp.length = 4 → t.spWord 0 sl w = (s.spWord 0 sl w).write s.td0 2 v) ∧
  s.OnlyKeys t 0 fun key => key = ctxKey 1 f ∨ (0x80 ≤ f ∧ (key = Fd.SPS_LO.W.key sl ∨ key = Fd.SPS_HI.W.key sl))

/-- From s to t the head of die d sends a class A block of a kind with this payload, numbered with its next SEQ, on both rings in the slot
that starts now (09 R255). -/
def State.SendsA (s t : State) (d : Nat) (kind : BitVec 4) (payload : List Byte) : Prop :=
  (∀ r : Ring, ∃ x ∈ (t.head d).tx, x.ring = r ∧ x.tick = s.td0 ∧ goodBlock x.blk = true ∧ x.blk.sa = true ∧ x.blk.hm = true ∧
    x.blk.cls = 0 ∧ x.blk.kind = kind ∧ x.blk.src = 0 ∧ x.blk.dst = 0xFE ∧ x.blk.seq = (s.head d).seq ∧
    x.blk.payload = pad64 payload) ∧
  (t.head d).seq = (s.head d).seq + 1 ∧ s.OnlyKeys t d fun _ => False

end Sys2Proof.Machine
end

