-- ==== Sys2Proof/Certificates/Slice0/Obligations.lean ====
section
/-! DEFINITION. The statements about the model, for the provers. Each docstring names the rules it comes from; a clause that rests
on a choice of the model names the log entry. `Completes c s P` says that c run on s answers a next state of which P holds. -/

open Sys2Proof Sys2Proof.Machine

/-- A step takes the command in front and runs it with the queue's rest; an empty queue lets one ring tick pass (log entry 6). -/
def Obligations.step_runs_the_command_in_front : Prop :=
  (∀ (c : Instr) (rest : List Instr) (s : State), step { s with pending := c :: rest } = exec c { s with pending := rest }) ∧
  ∀ s : State, s.pending = [] → step s = .next (tick s)

/-- Commands act on everything but the queue, and no command changes which part it is (00 R1); a misuse of the host ends what the spec
answers for (00 R14), and nothing else stops a command. -/
def Obligations.commands_leave_queue_and_part : Prop :=
  (∀ (c : Instr) (s : State), s.sane = true → ∃ t, exec c s = .next t) ∧
  (∀ (c : Instr) (s : State), s.sane = false → (∃ t, exec c s = .next t) ∨ ∃ m, s.misused.head? = some m ∧ exec c s = .fault (.misuse m.1)) ∧
  (∀ (c : Instr) (s t : State), exec c s = .next t → t.pending = s.pending ∧ t.part = s.part ∧ t.dies.length = s.dies.length) ∧
  ∀ s : State, (tick s).pending = s.pending ∧ (tick s).part = s.part ∧ (tick s).dies.length = s.dies.length

/-- Soundness (dies of the part, canonical stores) is kept by every step, whatever command is in front. -/
def Obligations.step_keeps_sound : Prop := ∀ s t : State, s.Sound → step s = .next t → t.Sound

/-- The sizes of the tables are kept by every step, whatever command is in front. -/
def Obligations.step_keeps_sizes : Prop := ∀ s t : State, s.sized = true → step s = .next t → t.sized = true

/-- 11 R303 and 01 R31, as an invariant of every step. -/
def Obligations.step_keeps_pins_legal : Prop := ∀ s t : State, s.PinsLegal → step s = .next t → t.PinsLegal

/-- 01 R33 as a rule over every step of a head, with the two further ways into LOCKOUT (13 R361, 17 R447). -/
def Obligations.head_moves_along_the_transition_table : Prop :=
  ∀ s t : State, s.isHead = true → s.ArmLegal → step s = .next t →
    t.ArmLegal ∧ (s.pending ≠ [] → s.device.within t.device = true) ∧
    ∃ m : DevState, s.device.within m = true ∧ m.within t.device = true

/-- 21 R521, R524, R525. -/
def Obligations.reset_leaves : Prop :=
  State.reset.Sound ∧ State.reset.sized = true ∧ State.reset.PinsLegal ∧ State.reset.ArmLegal ∧
  State.reset.device = .reset ∧ State.reset.last = .off ∧ State.reset.pins = Pins.low ∧ State.reset.td0 = 0 ∧
  State.reset.pending = [] ∧
  (∀ d, (State.reset.die d).hold = true ∧ (State.reset.die d).booted = false ∧ (State.reset.die d).recorder.dram = []) ∧
  (∀ d key, State.reset.cell d key = dfltOf State.reset.part d key) ∧
  ∀ off, State.reset.sumCell off = sumDflt off

/-- 00 R14; 01 R33; 13 R349, R360; 21 R521, R524, R525; 22 R543. -/
def Obligations.supplies_and_reset_n : Prop :=
  (∀ (s : State) (mv : List Nat), s.device = .off → powerGood s.isHead mv = true → Completes (.suppliesRise mv) s fun t =>
    t.device = .reset ∧ t.last = .off ∧ t.misused = [] ∧ t.pins = Pins.low ∧ t.td0 = 0 ∧ t.part = s.part ∧ t.pending = s.pending ∧
    (∀ d, (t.die d).hold = true ∧ (t.die d).recorder.dram = [] ∧ (t.die d).sec.fuses = (s.die d).sec.fuses) ∧
    ∀ d key, t.cell d key = s.dflt d key) ∧
  (∀ (s : State) (mv : List Nat), s.device ≠ .off → powerLost s.isHead mv = true → Completes (.supplyLoss mv) s fun t =>
    let absent := ∃ i, i < (goodLevels s.isHead).length ∧ mv.getD i 0 = 0
    (absent → t.device = .off) ∧ (¬absent → t.device = .reset) ∧ t.last = s.device ∧ t.misused = [] ∧ t.pins = Pins.low ∧ t.td0 = 0 ∧
    t.part = s.part ∧ t.pending = s.pending ∧
    (∀ d, (t.die d).hold = true ∧ (t.die d).recorder.dram = [] ∧ (t.die d).sec.fuses = (s.die d).sec.fuses) ∧
    (∀ d key, absent → t.cell d key = s.dflt d key) ∧
    ∀ d key, ¬absent → (s.bist d).slice = none → t.cell d key = if keptClk key = true then s.cell d key else s.dflt d key) ∧
  (∀ (s : State) (c : Instr),
    (∃ ns, 10000 ≤ ns ∧ c = .resetNLow ns ∧ s.device ≠ .off) ∨
      (∃ cycles, 20000 ≤ cycles ∧ c = .nodeSelfReset cycles ∧ s.isHead = false ∧ (s.die 0).gated = true) →
    Completes c s fun t =>
      t.device = .reset ∧ t.last = s.device ∧ t.misused = [] ∧ t.pins = Pins.low ∧ t.td0 = 0 ∧ t.part = s.part ∧ t.pending = s.pending ∧
      (∀ d, (t.die d).hold = true ∧ (t.die d).recorder.dram = [] ∧ (t.die d).sec.fuses = (s.die d).sec.fuses) ∧
      ∀ d key, (s.bist d).slice = none → t.cell d key = if keptClk key = true then s.cell d key else s.dflt d key) ∧
  ∀ (s : State) (ns : Nat), s.device ≠ .off → ns < 10000 → Completes (.resetNLow ns) s fun t =>
    t.part = s.part ∧ t.pending = s.pending ∧ (t.pins.sob = s.pins.sob ∨ t.pins.sob = 0) ∧
    (t.device = s.device ∧ t.td0 = s.td0 ∧ t.pins = { s.pins with sob := t.pins.sob } ∨
      t.device = .reset ∧ t.td0 = 0 ∧ t.pins = { Pins.low with sob := t.pins.sob }) ∧
    ∀ d, (s.bist d).slice = none → t.die d = s.die d ∨ t.die d = Die.toReset false (s.die d)

/-- 00 R2, R15; 01 R16, R17, R33; 13 R344, R350, R356; 21 R524, R526, R527. That the straps at 11 stand as a misuse, and that the steps of
BOOT end together, is the model's choice (log entries 8, 77). -/
def Obligations.reset_hold_to_config : Prop :=
  (∀ (s : State) (mv : List Nat) (role : BitVec 2) (refsel boot0 : Bool), s.shaped = true → s.device ≠ .off →
    powerGood s.isHead mv = true → Completes (.resetHoldEnd mv role refsel boot0) s fun t =>
      (∀ d, d < s.part.dies → (t.die d).hold = false) ∧
      (∀ d, d < s.part.dies → (s.die d).hold = true →
        (t.die d).clk.role = role ∧ (t.die d).clk.refsel = refsel ∧ (t.die d).clk.boot0 = boot0 ∧
        (refsel = true → t.cell d 0x1008 = 0x40100#32)) ∧
      (∀ d key, (s.die d).hold = false ∨ key ∉ [0x1008, 0x1024, 0x1028, 0x7004] → t.cell d key = s.cell d key) ∧
      (role ≠ 3 → t.misused = s.misused) ∧
      (role = 3 → ∀ d, d < s.part.dies → (s.die d).hold = true → (2, d, 0xFF) ∈ t.misused) ∧
      t.device = s.device ∧ t.pins = s.pins ∧ t.pending = s.pending) ∧
  (∀ (s : State) (d : Nat) (second : Bool), s.shaped = true → s.sane = true → s.guardClock d = true → (s.die d).gated = false →
    s.device ≠ .off → (d = 0 → s.device = .reset) → (s.die d).clk.started = false → s.startRef d = some second →
    Completes (.tpllLocked d) s fun t =>
      t.flag d Fd.CLK_STATUS.TPLL_LOCK = true ∧ t.flag d Fd.CLK_STATUS.FPLL_LOCK = true ∧ t.flag d Fd.CLK_STATUS.DLL_LOCK = true ∧
      t.rd d Fd.CLK_STATUS.REF = s.refCode second ∧
      t.device = (if d = 0 then .boot else s.device) ∧ t.td0 = (if d = 0 then 0 else s.td0) ∧
      s.OnlyOn t fun e key => e = d ∧ (pageKeys 1 key ∨ stickyKeys 0 key)) ∧
  (∀ (s : State) (d : Nat) (links : BitVec 3), s.shaped = true → s.sane = true → s.alive d = true → (s.die d).clk.started = true →
    (s.die d).booted = false → s.roleMismatch = false → Completes (.bootComplete d links) s fun t =>
      (t.die d).booted = true ∧ t.flag d Fd.DIE_STATUS.BOOTED = true ∧
      t.rd d Fd.BOOT_INFO.BOOT_TIME = min ((s.td0 - (s.die d).bootAt) / 800) 65535 ∧
      (s.device = .boot → (∀ k, k < s.part.dies → k = d ∨ (s.die k).booted = true) →
        if s.isHead = true ∧ (s.die 0).clk.boot0 = true then
          t.device = .boot ∧ ∀ k, k < s.part.dies → t.flag k Fd.DIE_STATUS.BOOT_HOLD = true
        else t.device = .config ∧ t.last = .boot ∧ t.pins.permit = false) ∧
      (s.device ≠ .boot ∨ (∃ k, k < s.part.dies ∧ k ≠ d ∧ (s.die k).booted = false) → t.device = s.device) ∧
      ∀ e key, 0x40000 ≤ key → t.cell e key = s.cell e key) ∧
  ∀ s : State, s.shaped = true → s.sane = true → s.alive 0 = true → s.device = .boot → s.flag 0 Fd.DIE_STATUS.BOOT_HOLD = true →
    Completes .bootGo s fun t => t.device = .config ∧ t.last = .boot ∧ t.flag 0 Fd.DIE_STATUS.BOOT_HOLD = false ∧
      t.stuckAt 0 Sk.DIE.STATE_CHANGED.page Sk.DIE.STATE_CHANGED.bit = true

/-- 01 R31, R33, R34, R37; 17 R446, R447; 19 R499. -/
def Obligations.state_commands : Prop :=
  (∀ s : State, s.sane = true → s.alive 0 = true →
    (∀ e ∈ moveCommands, exec e.1 s = .next { s with cmds := s.cmds ++ [e.2.1.code] }) ∧
    ∀ target : BitVec 4, exec (.stateCmdOther target) s = .next { s with cmds := s.cmds ++ [target.toNat] }) ∧
  (∀ s : State, s.counts = true → (tick s).cmds = []) ∧
  (∀ e ∈ moveCommands, ∀ s : State, s.shaped = true → s.alive 0 = true → s.followsHead = false → s.arming = none →
    s.movedAt ≠ some s.td0 → s.recordDue = false → s.cmds = [e.2.1.code] → s.device ∈ e.2.2 →
    (s.device = .config → ∀ d, d < s.part.dies → s.loadsOk d = true) →
    let t := s.takeCmds
    t.cmds = [] ∧
    (e.2.1.switching = false ∨ s.device.switching = true ∨ s.isHead = false ∧ s.anySource = false →
      t.device = e.2.1 ∧ t.last = s.device ∧ t.changes = s.changes + 1 ∧ t.arming = none ∧
      t.movedAt = some s.td0 ∧ t.movedBy = some s.device ∧
      t.pins.permit = (e.2.1.switching && s.latchEmpty) ∧ t.td0 = s.td0 ∧
      t.stuckAt 0 Sk.DIE.STATE_CHANGED.page Sk.DIE.STATE_CHANGED.bit = true ∧
      ((∀ k, k < s.part.dies → s.imgBusy k = false) → s.OnlyOn t fun _ key => key / 0x1000 ∈ [0, 8, 10, 11, 32])) ∧
    (e.2.1.switching = true → s.device.switching = false → s.isHead = true →
      t.device = s.device ∧ t.arming = some (e.2.1, s.td0) ∧ t.armed = true ∧ t.pins = s.pins ∧
      (∀ d, d < s.part.dies → (t.die d).flt.arriving = (s.die d).flt.present.map fun pi => (srcCode d pi, 0)) ∧
      s.OnlyOn t fun _ _ => False)) ∧
  (∀ (s : State) (new : DevState) (t0 : Nat), s.shaped = true → s.sane = true → s.isHead = true → s.alive 0 = true →
    s.arming = some (new, t0) →
    (t0 + 8 ≤ s.td0 → s.recordDue = false → Completes .collectorArmApply s fun t =>
      t.device = new ∧ t.last = s.device ∧ t.changes = s.changes + 1 ∧ t.arming = none ∧
      t.stuckAt 0 Sk.DIE.STATE_CHANGED.page Sk.DIE.STATE_CHANGED.bit = true) ∧
    (s.td0 < t0 + 8 → exec .collectorArmApply s = .next s)) ∧
  (∀ (s : State) (target : Nat), s.shaped = true → s.alive 0 = true → s.recordDue = false → s.cmds = [target] →
    (s.movedAt = some s.td0 → s.device ≠ .lockout) →
    s.followsHead = true ∨ s.arming ≠ none ∨ s.movedAt = some s.td0 ∨
      (∀ e ∈ moveCommands, e.2.1.code = target → s.device ∉ e.2.2) ∨
      (s.device = .config ∧ ∃ d, d < s.part.dies ∧ s.loadsOk d = false) →
    s.takeCmds.stuckAt 0 Sk.DIE.STATE_REFUSED.page Sk.DIE.STATE_REFUSED.bit = true ∧
      { s with cmds := [] }.OnlyKeys s.takeCmds 0 (stickyKeys 0)) ∧
  ∀ (s : State) (target : Nat), s.alive 0 = true → s.cmds = [target] →
    s.recordDue = true ∨ (s.followsHead = false ∧ s.arming = none ∧ s.movedAt = some s.td0 ∧ s.device = .lockout) →
    s.takeCmds = { s with cmds := [] }

/-- 02 R43, whole. -/
def Obligations.unmapped_addresses : Prop :=
  (∀ (s : State) (addr data : Word), s.sane = true → s.device.live = true → (s.die 0).hold = false → addr.toNat % 4 = 0 →
    s.spot addr.toNat = .nothing →
    (Completes (.readWord addr) s fun t => t.port.data = 0 ∧ bitOf (t.sumCell 0xC).toNat 0 = true ∧ t.dies = s.dies ∧
      t.device = s.device ∧ t.pins = s.pins ∧ t.td0 = s.td0 ∧ t.pending = s.pending ∧
      ∀ off, off ≠ 0xC → off ≠ 0x10 → t.sumCell off = s.sumCell off) ∧
    (Completes (.writeWord addr data) s fun t => bitOf (t.sumCell 0xC).toNat 0 = true ∧ t.dies = s.dies ∧
      t.device = s.device ∧ t.pins = s.pins ∧ t.td0 = s.td0 ∧ t.pending = s.pending ∧
      ∀ off, off ≠ 0xC → off ≠ 0x10 → t.sumCell off = s.sumCell off) ∧
    exec (.registerWrite addr data) s = .next s) ∧
  (∀ (s : State) (a : Nat), 0x1000000 + 0x100000 * s.part.dies ≤ a → s.spot a = .nothing) ∧
  ∀ (s : State) (a : Nat), s.part.dies = 1 → s.spot a ≠ .nothing → a < 0x1000 ∨ 0x1000000 ≤ a ∧ a < 0x1100000

/-- 02 R40, R44-R47. -/
def Obligations.read_frames : Prop :=
  (∀ (s : State) (addr : Word), s.sane = true → s.device.live = true → (s.die 0).hold = false → addr.toNat % 4 = 0 →
    s.access (s.spot addr.toNat) = .done → s.openSpot (s.spot addr.toNat) = false → s.spot addr.toNat ≠ .nothing →
    (∀ d off, s.spot addr.toNat = .page d 15 off → s.isHead = false ∨ off < 0x400 ∨ 0x440 ≤ off) →
    exec (.readWord addr) s = .next { s.lendSpot (s.spot addr.toNat) with port := ⟨s.show_ (s.spot addr.toNat), 5⟩ }) ∧
  (∀ (s : State) (addr : Word), s.sane = true → s.device.live = true → (s.die 0).hold = false → addr.toNat % 4 = 0 →
    s.access (s.spot addr.toNat) = .late ∨ s.access (s.spot addr.toNat) = .lost →
    Completes (.readWord addr) s fun t => t.port = ⟨0, 0xA⟩ ∧ bitOf (t.sumCell 0xC).toNat 1 = true ∧ t.dies = s.dies ∧
      ∀ off, off ≠ 0xC → off ≠ 0x10 → t.sumCell off = s.sumCell off) ∧
  (∀ (s : State) (addr data : Word) (c : Instr), s.sane = true → s.device.live = true → (s.die 0).hold = false →
    (addr.toNat % 4 ≠ 0 ∧
        (c = .readWord addr ∨ c = .writeWord addr data ∨ ∃ cmd, c = .frameAbort cmd addr data .afterTurnaround)) ∨
      (∃ cmd ph, c = .frameAbort cmd addr data ph ∧ cmd ≠ 0x0B ∧ cmd ≠ 0x02) →
    Completes c s fun t => bitOf (t.sumCell 0xC).toNat 2 = true ∧ t.dies = s.dies ∧ t.port = s.port ∧
      t.pins = s.pins ∧ t.device = s.device ∧ ∀ off, off ≠ 0xC → off ≠ 0x10 → t.sumCell off = s.sumCell off) ∧
  (∀ (s : State) (addr data : Word), s.sane = true → s.device.live = true → (s.die 0).hold = false →
    (∀ cmd : Byte, cmd = 0x0B ∨ cmd = 0x02 → exec (.frameAbort cmd addr data .beforeTurnaround) s = .next s) ∧
    (∃ u, exec (.readWord addr) s = .next u ∧ exec (.frameAbort 0x0B addr data .afterTurnaround) s = .next { u with port := s.port }) ∧
    ∃ u, exec (.writeWord addr data) s = .next u ∧ exec (.frameAbort 0x02 addr data .afterTurnaround) s = .next { u with port := s.port }) ∧
  ∀ (s : State) (addr data : Word), s.sane = true → s.device.live = true → (s.die 0).hold = false → addr.toNat % 4 = 0 →
    Completes (.regTimeout false addr data) s fun t => t.port = ⟨0, 0xA⟩ ∧ bitOf (t.sumCell 0xC).toNat 1 = true ∧
      t.pins = s.pins ∧ t.device = s.device ∧ t.pending = s.pending

/-- 00 R9, R11, R14; 02 R44, R47, R49, R52. `lendSpot` is the tick a memory slice under test lends to the access (18 R472). -/
def Obligations.write_frames : Prop :=
  (∀ (s : State) (addr data : Word) (d : Nat), s.sane = true → s.device.live = true → (s.die 0).hold = false → addr.toNat % 4 = 0 →
    (s.spot addr.toNat).die = some d → s.alive d = true → s.access (s.spot addr.toNat) = .done →
    ∃ u, exec (.registerWrite addr data) (s.lendSpot (s.spot addr.toNat)) = .next u ∧
      exec (.writeWord addr data) s = .next { u with port := ⟨u.port.data, 5⟩ } ∧
      Completes (.regTimeout true addr data) s fun t => t.dies = u.dies ∧ t.port = ⟨u.port.data, 0xA⟩ ∧
        bitOf (t.sumCell 0xC).toNat 1 = true) ∧
  (∀ (s : State) (addr data : Word) (c : Instr), s.sane = true → s.device.live = true → (s.die 0).hold = false → addr.toNat % 4 = 0 →
    s.access (s.spot addr.toNat) = .lost → c = .writeWord addr data ∨ c = .regTimeout true addr data →
    Completes c s fun t => t.port.marker = 0xA ∧ bitOf (t.sumCell 0xC).toNat 1 = true ∧ t.dies = s.dies) ∧
  (∀ (s : State) (addr data : Word) (d key : Nat), s.shaped = true → s.sane = true → s.alive d = true →
    s.spot addr.toNat = .data d key →
    Completes (.registerWrite addr data) s fun t => t.cell d key = data &&& 0xFFFF#32 ∧ s.OnlyKeys t d (· = key)) ∧
  (∀ (s : State) (addr data : Word) (d page : Nat), s.shaped = true → s.sane = true → s.alive d = true →
    s.spot addr.toNat = .page d page 0x1C →
    Completes (.registerWrite addr data) s fun t =>
      t.cell d (hdrKey page 0x1C) = data ∧ s.OnlyKeys t d (· = hdrKey page 0x1C)) ∧
  (∀ (s : State) (addr data : Word) (d key : Nat), s.shaped = true → s.sane = true → s.alive d = true →
    s.spot addr.toNat = .program d key →
    Completes (.registerWrite addr data) s fun t => t.stuckAt d 5 31 = true ∧ s.OnlyKeys t d (stickyKeys 5)) ∧
  ∀ (s : State) (addr data : Word) (d page off : Nat), s.shaped = true → s.sane = true → s.alive d = true →
    s.spot addr.toNat = .page d page off → page ≠ 10 → page ≠ 14 → page < 0x20 → 0x20 ≤ off → guardedReg page off = true →
    Completes (.registerWrite addr data) s fun t => t.stuckAt d page 31 = true ∧ s.OnlyKeys t d (stickyKeys page)

/-- 00 R9, R14; 02 R49-R51, R54, R55. Which sticky bits stand for a condition is log entry 13. -/
def Obligations.page_headers : Prop :=
  (∀ (s : State) (d page : Nat) (mask : Word), s.shaped = true → s.sane = true → s.alive d = true → pageThere page = true →
    let again := (List.range 32).filter fun b => s.stuckAt d page b && bitOf mask.toNat b && s.causeStands d page b
    Completes (.stickyClear d page mask) s fun t =>
      (∀ b, b < 32 → t.stuckAt d page b = (s.stuckAt d page b && (!bitOf mask.toNat b || s.causeStands d page b))) ∧
      (again ≠ [] → (t.cell d (hdrKey page 0x10)).toNat = ((s.cell d (hdrKey page 0x10)).toNat + again.length) % 65536) ∧
      s.OnlyKeys t d fun key => key = hdrKey page 0xC ∨ (again ≠ [] ∧ key = hdrKey page 0x10) ∨
        (page = 4 ∧ ∃ c, c < 16 ∧ bitOf mask.toNat c = true ∧ key = Fd.CH_STAT.W.key c)) ∧
  (∀ (s : State) (d page : Nat), s.shaped = true → s.sane = true → s.alive d = true → pageThere page = true → s.locked d page = false →
    Completes (.pageLock d page) s fun t =>
      t.locked d page = true ∧ t.blockEn d page = s.blockEn d page ∧ s.OnlyKeys t d (· = hdrKey page 4)) ∧
  (∀ (s : State) (d page : Nat) (on : Bool), s.sane = true → s.alive d = true → pageThere page = true → s.locked d page = true →
    exec (.pageLock d page) s = .next s ∧ exec (.blockEn d page on) s = .next s) ∧
  (∀ (s : State) (d page : Nat) (on : Bool), s.shaped = true → s.sane = true → s.alive d = true → pageThere page = true →
    s.locked d page = false →
    (s.blockFixed page = false → Completes (.blockEn d page on) s fun t => t.blockEn d page = on ∧ t.locked d page = false ∧
      (page ∈ [2, 6, 13, 16] ∨ 0x20 ≤ page → s.OnlyKeys t d (· = hdrKey page 4))) ∧
    (s.blockFixed page = true → Completes (.blockEn d page on) s fun t => t.blockEn d page = s.blockEn d page ∧
      s.OnlyKeys t d (· = hdrKey page 4))) ∧
  (∀ (s : State) (d page : Nat) (value : Word), s.shaped = true → s.sane = true → s.alive d = true → pageThere page = true →
    bitOf value.toNat 1 = true → Completes (.softReset d page value) s fun t =>
      t.cell d (hdrKey page 0x1C) = s.cell d (hdrKey page 0x1C) ∧
      (page ≠ 14 → ∀ e key, 0x80000 ≤ key → key < 0xF0000 → t.cell e key = s.cell e key) ∧
      (page = 11 ∨ page = 16 ∨ 0x20 ≤ page →
        (∀ off, off < 0x1000 → off ≠ 4 → t.cell d (hdrKey page off) =
          if softKeeps s.isHead (s.locked d page) page off then s.cell d (hdrKey page off) else s.dflt d (hdrKey page off)) ∧
        s.OnlyKeys t d (pageKeys page))) ∧
  (∀ (s : State) (d page : Nat) (value : Word), s.shaped = true → s.alive d = true → pageThere page = true → bitOf value.toNat 1 = true →
    (∃ rule, (rule, d, page) ∈ s.misused) → Completes (.softReset d page value) s fun t =>
      ∀ m, m ∈ t.misused ↔ m ∈ s.misused ∧ ¬(m.2.1 = d ∧ m.2.2 = page)) ∧
  ∀ s : State, s.sane = true → s.device.live = true → Completes .summaryUpdate s fun t =>
    (t.sumCell 0x24).toNat = ((s.sumCell 0x24).toNat + s.sumPend) % 2 ^ 32 ∧ t.sumPend = 0 ∧ t.dies = s.dies ∧
    t.pins = s.pins ∧ t.device = s.device ∧ ∀ off, off ≠ 0x24 → t.sumCell off = s.sumCell off

/-- 01 R28; 02 R59-R67, R69. The phase of slots and windows is log entry 79, which ends count a re-send log entry 80. -/
def Obligations.fabric : Prop :=
  (∀ (s : State) (d port source dst i : Nat), s.shaped = true → s.sane = true → s.isHead = true → s.alive d = true →
    s.resOf d port source = some i → s.blockEn d 0x10 = true → s.sentNow d i < s.rd d Fd.RES_ENTRY.SHARE i →
    Completes (.fabricSubmission d port source dst 0) s fun t => t.sentNow d i = s.sentNow d i + 1 ∧
      t.fabric = s.fabric ++ [⟨d, port, s.rd d Fd.RES_ENTRY.DEST i, 0, s.td0, d, s.td0 + 2, .other⟩] ∧
      { s with fabric := t.fabric }.OnlyKeys t d fun _ => False) ∧
  (∀ (s : State) (d port source dst cls : Nat), s.sane = true → s.isHead = true → s.alive d = true → cls = 1 ∨ cls = 2 →
    exec (.fabricSubmission d port source dst cls) s = .next (if s.blockEn d 0x10 = true then
      { s with fabric := s.fabric ++ [⟨d, port, dst, cls, s.td0, d, s.td0 + 2, .other⟩] } else s)) ∧
  (∀ (s : State) (d port source dst : Nat), s.shaped = true → s.sane = true → s.isHead = true → s.alive d = true →
    (s.resOf d port source = none ∨ ∃ i, s.resOf d port source = some i ∧
      (s.blockEn d 0x10 = false ∨ s.rd d Fd.RES_ENTRY.SHARE i ≤ s.sentNow d i)) →
    Completes (.fabricSubmission d port source dst 0) s fun t =>
      t.stuckAt d Sk.FAB.CLASS_A_REFUSED.page Sk.FAB.CLASS_A_REFUSED.bit = true ∧
      t.rd d Fd.FAB_COUNTS.REFUSED = min (s.rd d Fd.FAB_COUNTS.REFUSED + 1) Fd.FAB_COUNTS.REFUSED.max ∧
      (s.resOf d port source = none → t.flag d Fd.FAB_LAST_REFUSED.NO_ENTRY = true) ∧
      (∀ i, s.resOf d port source = some i → t.flag d Fd.FAB_LAST_REFUSED.NO_ENTRY = false ∧ t.rd d Fd.FAB_LAST_REFUSED.ENTRY = i) ∧
      s.OnlyKeys t d fun key => stickyKeys 16 key ∨ key = Fd.FAB_COUNTS.REFUSED.key 0 ∨ key = Fd.FAB_LAST_REFUSED.ENTRY.key 0) ∧
  (∀ (slot15 : Bool) (l : List FabXfer) (x : FabXfer), x ∈ slotClass slot15 l →
    x ∈ l ∧ (x.cls = 0 ∨ x.cls = 1 ∨ x.cls = 2) ∧
    if slot15 = true ∧ ∃ y ∈ l, y.cls = 2 then x.cls = 2 else ∀ y ∈ l, y.cls ≤ 2 → x.cls ≤ y.cls) ∧
  (∀ (g : Gate) (now : Nat) (l : List FabXfer) (x : FabXfer), (∀ y ∈ l, y.born ≤ now) → g.first now l = some x →
    x ∈ l ∧ ∀ y ∈ l, max x.born (now - 2 ^ 22) < max y.born (now - 2 ^ 22) ∨
      (max x.born (now - 2 ^ 22) = max y.born (now - 2 ^ 22) ∧ g.turn x ≤ g.turn y)) ∧
  (∀ (s : State) (d e : Nat) (l : FabLink) (x : FabXfer), s.shaped = true → d < s.part.dies → (s.die d).fab.gates.length = 4 →
    x.src < ((s.gate d (gateIndex l)).ports).length →
    s.peer d l = some e → s.blockEn d 0x10 = true → s.blockEn e 0x10 = true → s.flag d (linkFld l) = true →
    (s.gate d (gateIndex l)).first s.td0 (slotClass (s.td0 / 5 % 16 == 15)
      (s.fabric.filter fun y => y.die == d && decide (y.ready ≤ s.td0) && (route d y.dst).head? == some (d, e))) = some x →
    let t := s.gateSlot d l
    t.fabric = s.fabric.erase x ++ [{ x with die := e, ready := if x.dst = e then s.td0 + 11 else s.td0 + 4 }] ∧
      (t.gate d (gateIndex l)).die = x.src ∧ (t.gate d (gateIndex l)).ports.getD x.src 7 = x.port) ∧
  (∀ (s : State) (d : Nat) (x : FabXfer), s.shaped = true → s.sane = true → s.isHead = true → s.on d 0x10 = true → s.arrived d = some x →
    (x.cls = 0 → Completes (.fabricTransfer d .queued .badA) s fun t => t.fabric = s.fabric.erase x ∧
      t.stuckAt d Sk.FAB.A_LOST.page Sk.FAB.A_LOST.bit = true ∧ s.OnlyOn t fun e key => e = d ∧ stickyKeys 16 key) ∧
    (∀ slot w v, x.what = .setPoints slot [(w, v)] → slot < (s.die d).le.slot.length → w < 4 → w < (s.slot d slot).sp.length →
      Completes (.fabricTransfer d .queued (.good [])) s fun t => t.fabric = s.fabric.erase x ∧
        t.spWord d slot w = (s.spWord d slot w).write s.td0 1 v ∧ s.OnlyOn t fun _ _ => False) ∧
    (∀ a n, x.what = .other → x.cls ≠ 0 → route x.src d = [(a, d)] → a < s.part.dies → 0 < n →
      Completes (.fabricTransfer d .queued (.good [n])) s fun t => t.fabric = s.fabric.erase x ∧
        (∀ k, k = a ∨ k = d → t.stuckAt k Sk.FAB.CRC_RESENT.page Sk.FAB.CRC_RESENT.bit = true ∧
          t.rd k Fd.FAB_COUNTS.RESENT = min (s.rd k Fd.FAB_COUNTS.RESENT + min n 3) Fd.FAB_COUNTS.RESENT.max) ∧
        s.OnlyOn t fun k key => (k = a ∨ k = d) ∧ (stickyKeys 16 key ∨ key = Fd.FAB_COUNTS.RESENT.key 0)) ∧
    (∀ a l, x.cls ≠ 0 → route x.src d = [(a, d)] → a < s.part.dies → s.linkTo a d = some l →
      Completes (.fabricTransfer d .queued (.badBC [])) s fun t => t.fabric = s.fabric.erase x ∧
        t.flag a (linkFld l) = false ∧ t.flag d (linkFld (linkBack l)) = false ∧
        t.stuckAt a Sk.FAB.CRC_RESENT.page Sk.FAB.CRC_RESENT.bit = true ∧
        t.stuckAt d Sk.FAB.LINK_DOWN.page Sk.FAB.LINK_DOWN.bit = true)) ∧
  (∀ (s : State) (d i : Nat), s.shaped = true → s.sane = true → s.isHead = true → s.on d 0x10 = true →
    (∃ m ∈ s.mirrors, m.domain = i ∧ d ∉ m.lost) → Completes (.fabricTransfer d (.mirror i) .badA) s fun t =>
      t.stuckAt d Sk.FAB.A_LOST.page Sk.FAB.A_LOST.bit = true ∧ (∃ m ∈ t.mirrors, m.domain = i ∧ d ∈ m.lost) ∧
      s.OnlyOn t fun e key => e = d ∧ stickyKeys 16 key) ∧
  (∀ (s : State) (d : Nat) (l : FabLink) (e : Nat), s.shaped = true → s.sane = true → s.isHead = true → s.alive d = true →
    s.peer d l = some e → e < s.part.dies → Completes (.linkDown d l) s fun t =>
      t.flag d (linkFld l) = false ∧ t.flag e (linkFld (linkBack l)) = false ∧
      t.stuckAt d Sk.FAB.LINK_DOWN.page Sk.FAB.LINK_DOWN.bit = true ∧ t.stuckAt e Sk.FAB.LINK_DOWN.page Sk.FAB.LINK_DOWN.bit = true ∧
      (∀ k, k = d ∨ k = e → s.blockEn k 0x10 = true → (t.die k).flt.present.contains 0x009 = true) ∧
      s.OnlyOn t fun k key => (k = d ∨ k = e) ∧ (stickyKeys 16 key ∨ key = (linkFld l).key 0)) ∧
  (∀ (s : State) (d i : Nat) (value : Word), s.shaped = true → s.sane = true → s.alive d = true → i < 32 → s.locked d 0x10 = false →
    (s.device ≠ .config → Completes (.resEntryWrite d i value) s fun t =>
      t.stuckAt d Sk.FAB.RES_REJECTED.page Sk.FAB.RES_REJECTED.bit = true ∧ s.OnlyKeys t d (stickyKeys 16)) ∧
    (s.device = .config → bitOf value.toNat 31 = false ∨ (bitsOf value.toNat 17 16 ∈ [1, 2] ∧
        sharesFit (s.reservations (d, i, value &&& 0x8703FFFF#32)) d (bitsOf value.toNat 26 24) = true) →
      Completes (.resEntryWrite d i value) s fun t =>
        t.cell d (Fd.RES_ENTRY.W.key i) = value &&& 0x8703FFFF#32 ∧ s.OnlyKeys t d (· = Fd.RES_ENTRY.W.key i)) ∧
    (s.device = .config → bitOf value.toNat 31 = true → bitsOf value.toNat 17 16 ∈ [0, 3] ∨
        sharesFit (s.reservations (d, i, value &&& 0x8703FFFF#32)) d (bitsOf value.toNat 26 24) = false →
      Completes (.resEntryWrite d i value) s fun t =>
        t.stuckAt d Sk.FAB.RES_REJECTED.page Sk.FAB.RES_REJECTED.bit = true ∧ s.OnlyKeys t d (stickyKeys 16)))

/-- 01 R5; 03 R70, R75, R77; 14 R376. A tick is what a step does on an empty queue (log entry 6). -/
def Obligations.ring_tick : Prop :=
  (∀ s : State, s.device.live = false → (tick s).td0 = s.td0 ∧ (tick s).device = s.device ∧ (tick s).wall = s.wall ∧
    (tick s).mirrors = s.mirrors ∧ (tick s).fabric = s.fabric ∧ (tick s).pins = s.pins ∧ (tick s).sum = s.sum ∧
    (∀ d i, (tick s).dom d i = s.dom d i) ∧ ∀ d key, (tick s).cell d key = s.cell d key) ∧
  ∀ s : State, s.isHead = true → s.device.live = true → s.shaped = true →
    (tick s).td0 = (s.td0 + 1) % 2 ^ 64 ∧ (tick s).td0Prev = s.td0 ∧
    (s.cmds = [] → s.arming = none → s.bus = [] → (tick s).device = s.device ∧ (tick s).changes = s.changes) ∧
    (((s.td0 + 1) % 2 ^ 64) % 800000 ≠ 0 → (tick s).wall = s.wall.map Wall.advance) ∧
    ∀ d i, s.alive d = true → i < (s.die d).ang.dom.length → (tick s).dom d i = (s.dom d i).advance ((s.td0 + 1) % 2 ^ 64)

/-- 03 R88-R98. -/
def Obligations.milestone_entries : Prop :=
  (∀ (s : State) (d i : Nat), s.shaped = true → s.sane = true → s.alive d = true → i < 1024 →
    (Completes (.load d i) s fun t => (t.die d).ang.pendOps = (s.die d).ang.pendOps ++ [(i, .load (s.msShadow d))] ∧ s.OnlyKeys t d fun _ => False) ∧
    (Completes (.arm d i) s fun t => (t.die d).ang.pendOps = (s.die d).ang.pendOps ++ [(i, .arm)] ∧ s.OnlyKeys t d fun _ => False) ∧
    Completes (.disarm d i) s fun t => (t.die d).ang.pendOps = (s.die d).ang.pendOps ++ [(i, .disarm)] ∧ s.OnlyKeys t d fun _ => False) ∧
  (∀ (s : State) (d i : Nat), s.shaped = true → s.alive d = true → (s.die d).ang.reexamine = false →
    ((s.die d).ang.pendOps = [(i, .disarm)] → (s.msStart d).msArmed d i = false ∧ s.OnlyKeys (s.msStart d) d (· = msKey i 0)) ∧
    ((s.die d).ang.pendOps = [(i, .arm)] → s.msArmed d i = false → 8 ≤ s.msDom d i ∨ bitOf (s.ms d i 0) 29 = true →
      (s.position d (s.msDom d i)).2 < s.compare d i →
      (s.msStart d).msArmed d i = true ∧ s.OnlyKeys (s.msStart d) d (· = msKey i 0)) ∧
    ∀ ws : List Word, (s.die d).ang.pendOps = [(i, .load ws)] → ws.length = 7 →
      (s.msStart d).ms d i 1 = (ws.getD 1 0).toNat ∧ (s.msStart d).ms d i 5 = (ws.getD 5 0).toNat ∧
      (s.msStart d).ms d i 6 = (ws.getD 6 0).toNat) ∧
  (∀ (s : State) (d : Nat), s.sane = true → s.on d 2 = true → s.reachedList d = [] → exec (.milestoneReached d) s = .next s) ∧
  (∀ (s : State) (d i : Nat), s.shaped = true → s.sane = true → s.on d 2 = true → s.reachedList d = [i] → s.recur d i = .once → s.msAction d i ≠ 3 →
    ¬(s.msAction d i = 4 ∧ bitOf (s.msArg d i) 8 = true) →
    Completes (.milestoneReached d) s fun t =>
      t.msArmed d i = false ∧ t.ms d i 7 = loWord s.td0 ∧ t.device = s.device ∧ t.td0 = s.td0 ∧ t.pending = s.pending ∧
      (s.msAction d i = 6 → d = 0 → s.flag 0 ⟨0x2, 0x6C, 1, 0, 0⟩ = true → s.msArg d i % 4 ≠ 3 →
        t.pins.ppsOut = if s.msArg d i % 4 = 0 then !s.pins.ppsOut else decide (s.msArg d i % 4 = 1)) ∧
      ∀ e key, 0x80000 ≤ key → ¬(e = d ∧ (key = msKey i 0 ∨ key = msKey i 7)) → t.cell e key = s.cell e key) ∧
  (∀ (s : State) (d i w : Nat) (addr v : Word), s.shaped = true → s.sane = true → s.alive d = true → s.spot addr.toNat = .entry d (0xF0000 + 0x20 * i + w) → w < 0x1C →
    (findReg regsMilestone w).isSome = true → s.msArmed d i = true →
    Completes (.registerWrite addr v) s fun t => t.misused = [(101, d, 2)] ∧ t.dies = s.dies) ∧
  ∀ (s : State) (d : Nat), s.sane = true → ∃ t, exec (.milestoneReached d) s = .next t ∧ t.pending = s.pending

/-- 03 R74, R78-R84, R102. -/
def Obligations.angle_domains : Prop :=
  (∀ (s : State) (i : Nat) (reg : AdReg) (value : Word), s.shaped = true → s.sane = true → s.alive 0 = true →
    i < 8 → i < (s.die 0).ang.dom.length → i < (s.die 0).ang.anchors.length →
    Completes (.domainChange 0 i reg value) s fun t =>
      t.cell 0 ((adRegFld reg).key i) = value &&& adRegMask reg ∧
      (∀ e key, ¬(e = 0 ∧ key = (adRegFld reg).key i) → t.cell e key = s.cell e key) ∧ t.device = s.device ∧ t.pending = s.pending ∧
      (reg = .anchorCyc → (t.die 0).ang.anchors.getD i (0, 0) = t.anchorRegs 0 i) ∧
      (reg ≠ .anchorCyc → (t.die 0).ang.anchors = (s.die 0).ang.anchors) ∧
      (s.changes79 i reg (value &&& adRegMask reg) = false → t.mirrors = s.mirrors ∧ t.dom 0 i = s.dom 0 i) ∧
      (s.changes79 i reg (value &&& adRegMask reg) = true → s.isHead = true →
        if s.inFlight i = true ∨ s.td0 + 1 < (s.dom 0 i).nextOk then
          t.mirrors = s.mirrors ∧ (t.dom 0 i).held = some (t.domConfig 0 i) ∧ (t.dom 0 i).pos = (s.dom 0 i).pos
        else t.mirrors = s.mirrors ++ [⟨i, s.td0 + 129, t.domConfig 0 i, []⟩] ∧ (t.dom 0 i).pos = (s.dom 0 i).pos) ∧
      (s.changes79 i reg (value &&& adRegMask reg) = true → s.isHead = false →
        t.dom 0 i = s.dom 0 i ∧ t.mirrors = s.mirrors ++ [⟨i, s.td0 + 1, t.domConfig 0 i, []⟩])) ∧
  (∀ (s : State) (d i : Nat) (reg : AdReg) (value : Word), s.sane = true → d ≠ 0 → exec (.domainChange d i reg value) s = .next s) ∧
  (∀ (s : State) (m : Mirror), s.shaped = true → s.sane = true → s.isHead = true → s.alive 0 = true → m.domain < 8 → s.mirrors = [m] → m.te ≤ s.td0 →
    (s.dom 0 m.domain).held = none → (∀ k, k < s.part.dies → m.domain < (s.die k).ang.dom.length) →
    Completes (.mirrorRecord m.domain) s fun t =>
      t.mirrors = [] ∧
      t.dom 0 m.domain = (s.dom 0 m.domain).apply m.upd s.td0 (s.rd 0 Fd.AD_CFG.SLEW_EXP m.domain) (s.trackOut 0 m.domain) ∧
      (∀ k, k ≠ 0 → s.joins 0 k = false ∨ k ∈ m.lost → t.dom k m.domain = s.dom k m.domain) ∧
      (∀ k, k ≠ 0 → s.alive k = true → s.joins 0 k = true → k ∉ m.lost →
        (t.dom k m.domain).src = (t.dom 0 m.domain).src ∧ (t.dom k m.domain).pos = (t.dom 0 m.domain).pos ∧
        (t.dom k m.domain).inc = (t.dom 0 m.domain).inc) ∧
      ∀ e key, ¬(e ≠ 0 ∧ stickyKeys 2 key) → t.cell e key = s.cell e key) ∧
  (∀ (s : State) (d i e : Nat) (incs : Int), s.shaped = true → s.sane = true → s.alive d = true → i < (s.die d).ang.dom.length →
    (s.dom d i).slew = some (e, incs) → e ≤ s.td0 →
    Completes (.slewEnd d i) s fun t => (t.dom d i).inc = incs ∧ (t.dom d i).slew = none ∧ (t.dom d i).pos = (s.dom d i).pos ∧
      (∀ k, k ≠ i → t.dom d k = s.dom d k) ∧ s.OnlyKeys t d fun _ => False) ∧
  (∀ (s : State) (d domain : Nat), s.shaped = true → s.sane = true → s.alive d = true → domain < 16 →
    Completes (.snapSel d domain) s fun t =>
      t.rd d Fd.SNAP_T_LO.W = loWord s.td0 ∧ t.rd d Fd.SNAP_T_HI.W = hiWord s.td0 ∧
      (domain < 8 → t.rd d Fd.SNAP_POS_FRAC.W = ((s.dom d domain).pos / 2 ^ 16 % 2 ^ 32).toNat ∧
        t.rd d Fd.SNAP_POS_LO.W = loWord (ux 64 ((s.dom d domain).pos / 2 ^ 48))) ∧
      (domain = 8 → t.rd d Fd.SNAP_POS_LO.W = loWord s.td0 ∧ t.rd d Fd.SNAP_POS_HI.W = hiWord s.td0) ∧
      s.OnlyKeys t d fun key => key ∈ [Fd.SNAP_T_LO.W, Fd.SNAP_T_HI.W, Fd.SNAP_POS_FRAC.W, Fd.SNAP_POS_LO.W, Fd.SNAP_POS_HI.W,
        Fd.SNAP_INC_LO.W, Fd.SNAP_INC_HI.W].map fun f => f.key 0) ∧
  ∀ (s : State) (m : Mirror), s.shaped = true → s.mirrors = [m] → m.domain < (s.die 0).ang.dom.length →
    (m.te ≤ s.td0 → s.nodeChanges.mirrors = [] ∧ s.nodeChanges.dom 0 m.domain =
      (s.dom 0 m.domain).apply m.upd s.td0 (s.rd 0 Fd.AD_CFG.SLEW_EXP m.domain) (s.trackOut 0 m.domain)) ∧
    (s.td0 < m.te → s.nodeChanges = s)

/-- 04 R103, R109-R113, R121, R122, R125. A channel acts on its registers as its latest sample took them. -/
def Obligations.tracker_edges : Prop :=
  (∀ (s : State) (d c : Nat) (qa qb : Bool) (stable : Nat), s.shaped = true → s.sane = true → s.trkSrc d c = 3 → c < (s.die d).trk.length →
    (s.trk d c).qAt ≠ some (s.td0 : Int) → s.filterTicks d c ≤ stable → ((s.trk d c).qa = qa ↔ (s.trk d c).qb ≠ qb) →
    Completes (.quadTransition d c qa qb stable) s fun t =>
      (t.trk d c).n = (if (quadForward (s.trk d c).qa (s.trk d c).qb = (qa, qb)) ↔ s.trkFlag d c Fd.TRK_CFG.INV = false
        then (s.trk d c).n + 1 else (s.trk d c).n - 1) ∧
      (t.trk d c).qa = qa ∧ (t.trk d c).qb = qb ∧ (t.trk d c).tLast = s.td0 ∧
      (t.trk d c).interval = ((s.td0 : Int) - (s.trk d c).tLast).toNat ∧
      t.flag d Fd.TRK_STAT.STANDSTILL c = false ∧
      (s.flag d Fd.TRK_STAT.STANDSTILL c = true ∨ s.stillDue d c = true → (t.trk d c).reversed = true) ∧
      s.OnlyKeys t d (· ∈ [Fd.TRK_STAT.W.key c, Fd.TRK_SPEED_LO.W.key c, Fd.TRK_SPEED_HI.W.key c])) ∧
  (∀ (s : State) (d c : Nat) (qa qb : Bool) (stable : Nat), s.shaped = true → s.sane = true → s.trkSrc d c = 3 → c < (s.die d).trk.length →
    (s.trk d c).qAt ≠ some (s.td0 : Int) → s.filterTicks d c ≤ stable → (s.trk d c).qa ≠ qa → (s.trk d c).qb ≠ qb →
    Completes (.quadTransition d c qa qb stable) s fun t =>
      t.trk d c = { s.trk d c with illegal := true, qa := qa, qb := qb, qAt := some (s.td0 : Int) } ∧ s.OnlyKeys t d fun _ => False) ∧
  (∀ (s : State) (d c : Nat) (qa qb : Bool) (stable : Nat), s.sane = true → stable < s.filterTicks d c ∨ (s.trk d c).qAt = some (s.td0 : Int) →
    exec (.quadTransition d c qa qb stable) s = .next s) ∧
  (∀ (s : State) (d c stable : Nat) (ball : Bool), s.shaped = true → s.sane = true → s.trkSrc d c = 4 → c < (s.die d).trk.length →
    if s.filterTicks d c ≤ stable ∧ ball = bitOf (s.trkRd d c Fd.TRK_CFG.CH_A) 0 then
      Completes (.pulseEdge d c ball stable) s fun t =>
        (t.trk d c).n = (if s.trkFlag d c Fd.TRK_CFG.INV then (s.trk d c).n - 1 else (s.trk d c).n + 1) ∧
        (t.trk d c).tLast = s.td0 ∧ t.flag d Fd.TRK_STAT.STANDSTILL c = false ∧
        s.OnlyKeys t d (· ∈ [Fd.TRK_STAT.W.key c, Fd.TRK_SPEED_LO.W.key c, Fd.TRK_SPEED_HI.W.key c])
    else exec (.pulseEdge d c ball stable) s = .next s) ∧
  ∀ (s : State) (d c : Nat), s.shaped = true → s.sane = true → s.alive d = true → c < 4 → c < (s.die d).trk.length →
    Completes (.restart d c) s fun t =>
      t.trk d c = { s.trk d c with pendRestart := true } ∧ (∀ k, k ≠ c → t.trk d k = s.trk d k) ∧ s.OnlyKeys t d fun _ => False

/-- 04 R104-R107, R113, R114, R118, R119, R122, R124, R125. When a channel that sampled nothing begins is log entry 84. -/
def Obligations.tracker_samples : Prop :=
  (∀ (s : State) (d c : Nat), s.shaped = true → s.sane = true → s.sampleDue d c = true → c < (s.die d).trk.length →
    Completes (.trackerSample d c) s fun t =>
      (t.trk d c).words = s.trkRegs d c ∧ (t.trk d c).pendRestart = false ∧
      (s.sourceOn d c (s.rd d Fd.TRK_CFG.SRC c) = 0 → (t.trk d c).sampled = none) ∧
      (s.sourceOn d c (s.rd d Fd.TRK_CFG.SRC c) ≠ 0 →
        (t.trk d c).sampled = some (s.td0 : Int) ∧
        t.rd d Fd.TRK_T.W c = ux 32 ((s.td0 : Int) - s.rd d Fd.TRK_AMP.FILT_DELAY c) ∧
        t.rd d Fd.TRK_POS_FRAC.W c = ux 32 ((t.trk d c).angle / 2 ^ 16) ∧
        t.rd d Fd.TRK_POS_CYC.W c = ux 32 ((t.trk d c).angle / 2 ^ 48)) ∧
      ((s.trkSrc d c = 2 ∨ s.trkSrc d c = 3) → s.trkRegs d c = (s.trk d c).words → (s.trk d c).pendRestart = false →
        1 ≤ (s.trk d c).badRun → (s.judgeSample d c).good = false → t.flag d Fd.TRK_STAT.LOSS c = true) ∧
      (s.sourceOn d c (s.rd d Fd.TRK_CFG.SRC c) = 3 → (s.trk d c).pendRestart = true → (t.trk d c).n = 0) ∧
      t.device = s.device ∧ t.td0 = s.td0 ∧ t.pending = s.pending ∧
      ∀ e key, ¬(e = d ∧ pageKeys 3 key) → t.cell e key = s.cell e key) ∧
  (∀ (s : State) (d c : Nat), s.sane = true → s.sampleDue d c = false → exec (.trackerSample d c) s = .next s) ∧
  (∀ (s : State) (d c : Nat), s.shaped = true → s.sane = true → s.coastOver d c = true → s.sampleTick d c = true →
    Completes (.coastLoss d c) s fun t =>
      t.flag d Fd.TRK_STAT.LOSS c = true ∧
      (t.die d).flt.present.contains (0x30 + c) = s.trkFlag d c Fd.TRK_CFG.LOSS_SRC ∧
      (s.flag d Fd.TRK_STAT.LOSS c = false → t.stuckAt d Sk.ATR.LOSS.page (Sk.ATR.LOSS.bit + c) = true) ∧
      s.OnlyKeys t d fun key => key = Fd.TRK_STAT.W.key c ∨ stickyKeys 3 key) ∧
  (∀ (s : State) (d c : Nat), s.shaped = true → s.sane = true → s.lockDue d c = true →
    Completes (.locked d c) s fun t => t.flag d Fd.TRK_STAT.LOCKED c = true ∧ s.OnlyKeys t d (· = Fd.TRK_STAT.W.key c)) ∧
  ∀ (s : State) (d c : Nat), s.shaped = true → s.sane = true → s.stillDue d c = true → s.sampleTick d c = true → c < (s.die d).trk.length →
    Completes (.trackerStandstill d c) s fun t =>
      t.flag d Fd.TRK_STAT.STANDSTILL c = true ∧ t.trkSpeed d c = 0 ∧ (t.trk d c).frac = s.interp d c ∧
      s.OnlyKeys t d fun key => key = Fd.TRK_STAT.W.key c ∨ key = Fd.TRK_SPEED_LO.W.key c ∨ key = Fd.TRK_SPEED_HI.W.key c

/-- 05 R128-R132, R138, R139. That FCOUNT of a channel switched off is cleared is log entry 83. -/
def Obligations.front_end_clocks : Prop :=
  (∀ (s : State) (d k : Nat) (value : Word), s.shaped = true → s.sane = true → s.alive d = true → k < 4 → ¬(s.isHead = true ∧ d = 1) →
    k < (s.die d).mfe.sdc.length → Completes (.sdcCfgWrite d k value) s fun t =>
      t.cell d (Fd.SDC_CFG.W.key k) = value &&& 0x8000FFFF#32 ∧
      (bitOf value.toNat 31 = true →
        (∃ first : Int, t.sdc d k = { s.sdc d k with next := some (sdcDiv value, first) } ∧
          s.td0 < first ∧ first ≤ s.td0 + sdcDiv value ∧ first % sdcDiv value = (bitsOf value.toNat 7 0 : Int) % sdcDiv value) ∧
        s.OnlyKeys t d (· = Fd.SDC_CFG.W.key k)) ∧
      (bitOf value.toNat 31 = false →
        t.sdc d k = { s.sdc d k with run := false, next := none } ∧ t.sdcLevel k = (s.sdcLevel k && decide (d ≠ 0)) ∧
        (∀ e ∈ s.sdcUsers d, ∀ c, c < 16 → s.chOn e c = true → s.rd e Fd.CH_CFG.CLK_SEL c = k → bitOf (t.rd e Fd.CH_STAT.LIVE c) 2 = true) ∧
        s.OnlyOn t fun e key => e ∈ s.sdcUsers d ∧ pageKeys 4 key)) ∧
  (∀ (s : State) (k : Nat) (value : Word), s.sane = true → s.isHead = true → exec (.sdcCfgWrite 1 k value) s = .next s) ∧
  (∀ (s : State) (d k div : Nat) (first : Int), s.sized = true → d < s.part.dies → k < 4 → ¬(s.isHead = true ∧ d = 1) →
    (s.sdc d k).next = some (div, first) →
    ((s.td0 : Int) < first → (s.mfeStart d).sdc d k = s.sdc d k) ∧
    (first ≤ s.td0 → (s.mfeStart d).sdc d k = ⟨true, div, first, none⟩ ∧
      ∀ e ∈ s.sdcUsers d, e < s.part.dies → ∀ c, c < 16 → s.chOn e c = true → s.rd e Fd.CH_CFG.CLK_SEL c = k →
        (s.mfeStart d).mch e c = { Mch.zero with since := s.td0 } ∧ (s.mfeStart d).flag e Fd.CH_STAT.SETTLED c = false ∧
        (s.mfeStart d).rd e Fd.CH_STAT.LIVE c &&& 11 = 0)) ∧
  (∀ (s : State) (d : Nat) (value : Word), s.sized = true → s.sane = true → s.alive d = true → s.hasSdd d = true →
    Completes (.chEnWrite d value) s fun t =>
      t.rd d Fd.CH_EN.EN = bitsOf value.toNat 15 0 ∧
      (∀ c, c < 16 → bitOf value.toNat c = false → bitOf (s.rd d Fd.CH_EN.EN) c = true →
        t.mch d c = Mch.zero ∧ t.flag d Fd.CH_STAT.SETTLED c = false ∧ t.rd d Fd.CH_STAT.LIVE c = 0 ∧ t.chOn d c = false) ∧
      (∀ c, c < 16 → bitOf value.toNat c = true → bitOf (s.rd d Fd.CH_EN.EN) c = false → s.blockEn d 4 = true →
        t.mch d c = { Mch.zero with since := s.td0 } ∧ t.flag d Fd.CH_STAT.SETTLED c = false ∧ t.rd d Fd.CH_FAST.VALUE c = 0 ∧
        (s.clockRuns d (s.rd d Fd.CH_CFG.CLK_SEL c) = false → bitOf (t.rd d Fd.CH_STAT.LIVE c) 2 = true)) ∧
      s.OnlyKeys t d (pageKeys 4)) ∧
  ∀ (s : State) (d : Nat) (value : Word), s.sane = true → s.hasSdd d = false → exec (.chEnWrite d value) s = .next s

/-- 05 R133-R139, R142, R143. -/
def Obligations.front_end_bits : Prop :=
  (∀ (s : State) (d c edge : Nat) (bits : List Samples), s.shaped = true → s.sane = true → s.chOn d c = true → bits ≠ [] →
    s.edgesOk d c edge bits.length = true → c < (s.die d).mfe.ch.length → 3 * s.osr d c ≤ (s.mch d c).n + bits.length →
    Completes (.channelSettled d c edge bits) s fun t =>
      t.flag d Fd.CH_STAT.SETTLED c = true ∧ (t.mch d c).n = (s.mch d c).n + bits.length ∧ (t.mch d c).edge = edge ∧
      s.OnlyKeys t d (pageKeys 4)) ∧
  (∀ (s : State) (d c edge : Nat) (b : Samples), s.shaped = true → s.sane = true → s.chOn d c = true → s.edgesOk d c edge 1 = true →
    c < (s.die d).mfe.ch.length → ((s.mch d c).n + 1) % s.fosr d c = 0 → 2 * s.fosr d c ≤ (s.mch d c).n + 1 →
    Completes (.fastResult d c edge [b]) s fun t =>
      t.rdS d Fd.CH_FAST.VALUE c = s.scaled d c (sincRaw 2 (s.fosr d c) (s.flag d Fd.CH_CFG.INV c) ((vote b :: (s.mch d c).bits).take 768))
        ((s.fosr d c : Int) ^ 2) ∧
      (t.mch d c).bits = (vote b :: (s.mch d c).bits).take 768 ∧ (t.mch d c).edge = edge ∧ s.OnlyKeys t d (pageKeys 4)) ∧
  (∀ (s : State) (d c edge : Nat) (bits : List Samples), s.shaped = true → s.sane = true → s.chOn d c = true → c < (s.die d).mfe.ch.length →
    (bits ≠ [] ∧ s.edgesOk d c edge bits.length = true ∧ 128 ≤ bits.length + (s.mch d c).bits.length ∧
        (∃ v, (((bits.map vote).reverse ++ (s.mch d c).bits).take 128).all (· == v) = true)) ∨
      (bits = [] ∧ s.clockRuns d (s.rd d Fd.CH_CFG.CLK_SEL c) = false) →
    Completes (.stuck d c edge bits) s fun t =>
      bitOf (t.rd d Fd.CH_STAT.LIVE c) 2 = true ∧
      (t.die d).flt.present.contains (0x40 + c) = ((t.rd d Fd.CH_STAT.LIVE c &&& t.chRd d c Fd.CH_CFG.FLT_EN) != 0) ∧
      s.OnlyKeys t d (pageKeys 4)) ∧
  (∀ (s : State) (d c edge : Nat) (b : Samples), s.shaped = true → s.sane = true → s.chOn d c = true → s.edgesOk d c edge 1 = true →
    c < (s.die d).mfe.ch.length → (s.mch d c).bits.head? = some (!vote b) →
    Completes (.stuckClear d c edge b) s fun t =>
      bitOf (t.rd d Fd.CH_STAT.LIVE c) 2 = false ∧
      (t.die d).flt.present.contains (0x40 + c) = ((t.rd d Fd.CH_STAT.LIVE c &&& t.chRd d c Fd.CH_CFG.FLT_EN) != 0) ∧
      s.OnlyKeys t d (pageKeys 4)) ∧
  (∀ (s : State) (d c edge : Nat) (bits : List Samples) (i : Instr), s.sane = true → bits ≠ [] → s.edgesOk d c edge bits.length = false →
    i = .channelSettled d c edge bits ∨ i = .fastResult d c edge bits ∨ i = .stuck d c edge bits → exec i s = .next s) ∧
  ∀ (s : State) (d c : Nat), s.shaped = true → d < s.part.dies → c < 16 →
    (s.latch d c).rd d Fd.CH_LATCH.VALUE c = (BitVec.ofInt 16 (if 3 * s.osr d c ≤ (s.mch d c).n then s.sinc3 d c else 0)).toNat ∧
    (s.latch d c).rd d Fd.CH_LSTAMP.W c = ux 32 (if (s.mch d c).n = 0 then (s.td0 : Int) else (s.mch d c).edge)

/-- 00 R14; 06 R147, R154, R158, R161, R166, R175; 07 R190, R194-R196, R200. -/
def Obligations.loop_slots : Prop :=
  (∀ (s : State) (d : Nat) (hi : Bool) (value : Word), s.shaped = true → s.sane = true → s.alive d = true →
    Completes (.slotEnWrite d hi value) s fun t =>
      t.cell d ((if hi then Fd.SLOT_EN_HI.W else Fd.SLOT_EN_LO.W).key 0) = value ∧ (t.die d).le = (s.die d).le ∧
      s.OnlyKeys t d (· = (if hi then Fd.SLOT_EN_HI.W else Fd.SLOT_EN_LO.W).key 0)) ∧
  (∀ (s : State) (d : Nat), s.shaped = true → s.alive d = true →
    ((s.leStart d).die d).le.en = s.rd d Fd.SLOT_EN_LO.W + s.rd d Fd.SLOT_EN_HI.W * 2 ^ 32 ∧
    ∀ sl, sl < 64 → sl < (s.die d).le.slot.length → s.slotEn d sl = false → (s.leStart d).slotEn d sl = true →
      ((s.leStart d).slot d sl).casc = 0) ∧
  (∀ (s : State) (d sl : Nat) (hi : Bool) (value : Word), s.shaped = true → s.sane = true → s.alive d = true → sl < 64 →
    sl < (s.die d).le.slot.length → (s.slot d sl).sp.length = 4 →
    Completes (.spsWrite d sl hi value) s fun t =>
      t.cell d ((if hi then Fd.SPS_HI.W else Fd.SPS_LO.W).key sl) = value ∧
      (∀ w, w = (if hi then 2 else 0) → t.spWord d sl w = (s.spWord d sl w).write s.td0 2 (value.setWidth 16) ∧
        t.spWord d sl (w + 1) = (s.spWord d sl (w + 1)).write s.td0 2 (BitVec.ofNat 16 (value.toNat / 65536)) ∧
        ((s.spWord d sl w).rank ≤ 2 → (t.spWord d sl w).val = value.setWidth 16 ∧ (t.spWord d sl w).mark = true)) ∧
      (∀ k, k ≠ sl → t.slot d k = s.slot d k) ∧
      s.OnlyKeys t d (· = (if hi then Fd.SPS_HI.W else Fd.SPS_LO.W).key sl)) ∧
  (∀ (s : State) (d sl : Nat) (value : Word), s.shaped = true → s.sane = true → s.alive d = true → sl < 64 → sl < (s.die d).le.slot.length →
    Completes (.slotCascWrite d sl value) s fun t =>
      t.cell d (Fd.SLOT_CASC.W.key sl) = value &&& 0x803F00FF#32 ∧ (t.slot d sl).casc = 0 ∧
      (∀ k, k ≠ sl → t.slot d k = s.slot d k) ∧ s.OnlyKeys t d (· = Fd.SLOT_CASC.W.key sl)) ∧
  (∀ (s : State) (d e sl i : Nat), s.shaped = true → s.sane = true → s.on d 5 = true → e < 6 → (s.freeInst d e).head? = some i →
    s.nextSlot d e = some sl → (s.die d).le.inst.length = 48 →
    Completes (.instanceGrant d e) s fun t =>
      t.cond d sl = 2 ∧ t.rd d Fd.SLOT_STAT.INSTANCE sl = i ∧
      t.inst d e i = { Inst.idle with
        busy := true, slot := sl, pc := s.rd d Fd.SLOT_PROG.PROG_BASE sl, coefB := s.flag d Fd.SLOT_CTRL.COEF_SEL sl
        first := s.firstIssue d i, snap := (t.inst d e i).snap, sp := [0, 1, 2, 3].map fun w => t.spActive d sl w } ∧
      (∀ key, arriving key = true → (t.inst d e i).snap.find key = (s.die d).cells.find key) ∧
      (∀ w, w < 4 → t.spActive d sl w = match (if s.device.follows then s.followSrc d sl w else none) with
        | some src => s.followValue d src
        | none => if ((s.spWord d sl w).before s.td0).2 then ((s.spWord d sl w).before s.td0).1 else s.spActive d sl w) ∧
      (∀ k, k ≠ 8 * e + i → (t.die d).le.inst.getD k Inst.idle = (s.die d).le.inst.getD k Inst.idle) ∧
      s.OnlyKeys t d (pageKeys 5)) ∧
  (∀ (s : State) (d e : Nat), s.sane = true → s.nextSlot d e = none ∨ s.freeInst d e = [] → exec (.instanceGrant d e) s = .next s) ∧
  (∀ (s : State) (d sl w : Nat) (addr v : Word), s.shaped = true → s.sane = true → s.alive d = true → sl < 64 → w < 0x20 →
    s.spot addr.toNat = .page d 5 (0x100 + 0x20 * sl + w) → s.slotHeld d sl = true →
    (s.cell d (0x5100 + 0x20 * sl + w) ^^^ v) &&& slotFixed w ≠ 0 → Completes (.registerWrite addr v) s fun t => s.Misused t 175 d 5) ∧
  (∀ (s : State) (d e i : Nat), s.shaped = true → s.sane = true → s.running d e i = true →
    (s.pcOk d e (s.inst d e i) = false → ∀ c ∈ loopCommands d e i, Completes c s fun t => s.Misused t 190 d 5) ∧
    (s.pcOk d e (s.inst d e i) = true →
      s.pagesOk d e (s.inst d e i) (executesAs (s.fetch d e i)) (decodeLoop (s.fetch d e i)) = false →
      ∃ c ∈ loopCommands d e i, Completes c s fun t => s.Misused t 190 d 5)) ∧
  ∀ (s : State) (d e i : Nat) (m : Nat × Nat × Nat), s.misused.head? = some m →
    ∀ c ∈ loopCommands d e i, exec c s = .fault (.misuse m.1)

/-- 06 R149-R151; 07 R181, R183, R184. -/
def Obligations.accumulator_instructions : Prop :=
  ∀ (s : State) (d e i : Nat) (x : Inst) (w : Word5) (a ws v : Int), s.shaped = true → (s.die d).le.inst.length = 48 →
    x = s.inst d e i → w = decodeLoop (s.fetch d e i) → a = x.accOf w → ws = x.wsOf w → v = (s.operand d x w).toInt →
    (s.Issues d e i .mac → s.AccStep (.mac d e i) d e i (satS 40 (a + 2 * ws * v)) (x.v || satS 40 (a + 2 * ws * v) != a + 2 * ws * v)) ∧
    (s.Issues d e i .msu → s.AccStep (.msu d e i) d e i (satS 40 (a - 2 * ws * v)) (x.v || satS 40 (a - 2 * ws * v) != a - 2 * ws * v)) ∧
    (s.Issues d e i .mul → s.AccStep (.mul d e i) d e i (2 * ws * v) x.v) ∧
    (s.Issues d e i .add → s.AccStep (.add d e i) d e i (satS 40 (a + 65536 * v)) (x.v || satS 40 (a + 65536 * v) != a + 65536 * v)) ∧
    (s.Issues d e i .sub → s.AccStep (.sub d e i) d e i (satS 40 (a - 65536 * v)) (x.v || satS 40 (a - 65536 * v) != a - 65536 * v)) ∧
    (s.Issues d e i .shl → s.AccStep (.shl d e i) d e i (satS 40 (a * 2 ^ bitsOf w.field 4 0))
      (x.v || satS 40 (a * 2 ^ bitsOf w.field 4 0) != a * 2 ^ bitsOf w.field 4 0)) ∧
    (s.Issues d e i .shr → s.AccStep (.shr d e i) d e i (a / 2 ^ bitsOf w.field 4 0) x.v) ∧
    (s.Issues d e i .neg → s.AccStep (.neg d e i) d e i (satS 40 (-a)) (x.v || satS 40 (-a) != -a)) ∧
    (s.Issues d e i .abs → s.AccStep (.abs d e i) d e i (satS 40 a.natAbs) (x.v || satS 40 a.natAbs != a.natAbs))

/-- 06 R152; 07 R181-R192. -/
def Obligations.other_instructions : Prop :=
  ∀ (s : State) (d e i : Nat) (x : Inst) (w : Word5) (a v : Int), s.shaped = true → (s.die d).le.inst.length = 48 →
    x = s.inst d e i → w = decodeLoop (s.fetch d e i) → a = x.accOf w → v = (s.operand d x w).toInt →
    (s.Issues d e i .nop → s.InstStep (.nop d e i) d e i 1 x) ∧
    (s.Issues d e i .ld → s.InstStep (.ld d e i) d e i 1 { x with acc := setAt x.acc w.a fun _ => 65536 * v }) ∧
    (s.Issues d e i .inp → s.InstStep (.inp d e i) d e i 1 { x with acc := setAt x.acc w.a fun _ => 65536 * v }) ∧
    (s.Issues d e i .ldw → s.InstStep (.ldw d e i) d e i 1 { x with w := setAt x.w w.ws fun _ => s.operand d x w }) ∧
    (s.Issues d e i .movw → s.InstStep (.movw d e i) d e i 1 { x with
      w := setAt x.w w.ws fun _ => BitVec.ofInt 16 (satS 16 ((a + 2 ^ 15) / 2 ^ 16))
      v := x.v || satS 16 ((a + 2 ^ 15) / 2 ^ 16) != (a + 2 ^ 15) / 2 ^ 16 }) ∧
    (s.Issues d e i .sel → s.InstStep (.sel d e i) d e i 1 (if x.n then { x with acc := setAt x.acc w.a fun _ => 65536 * v } else x)) ∧
    (s.Issues d e i .cmp → s.InstStep (.cmp d e i) d e i 1 { x with z := decide (a = 65536 * v), n := decide (a < 65536 * v) }) ∧
    (s.Issues d e i .brf → s.InstStep (.brf d e i) d e i 1
      { x with pc := if x.taken (bitsOf w.field 15 12) then x.pc + bitsOf w.field 11 0 else x.pc }) ∧
    (s.Issues d e i .lim → ∀ hi : Int, hi = (s.operand2 d x w).toInt → s.InstStep (.lim d e i) d e i 2 { x with
      acc := setAt x.acc w.a fun _ => if hi < v then 65536 * hi else min (max a (65536 * v)) (65536 * hi)
      l := x.l || (if hi < v then 65536 * hi else min (max a (65536 * v)) (65536 * hi)) != a }) ∧
    (s.Issues d e i .tab → ∀ (p j : Nat) (y0 y1 : Int), p = (x.wsOf w + 32768).toNat * s.tabSegs d x (offOf w) → j = p / 65536 →
      y0 = (s.coefAt d x (offOf w + 1 + j)).toInt → y1 = (s.coefAt d x (offOf w + 2 + j)).toInt →
      s.InstStep (.tab d e i) d e i 3 { x with acc := setAt x.acc w.a fun _ => 65536 * y0 + (y1 - y0) * (p % 65536 : Nat) }) ∧
    (s.Issues d e i .div → s.InstStep (.div d e i) d e i 18 (
      if v = 0 then { x with acc := setAt x.acc w.a fun _ => if a = 0 then 0 else if 0 < a then 2 ^ 39 - 1 else -(2 ^ 39), dz := true }
      else { x with
        acc := setAt x.acc w.a fun _ => satS 40 ((a * 2 ^ 15).tdiv v)
        v := x.v || satS 40 ((a * 2 ^ 15).tdiv v) != (a * 2 ^ 15).tdiv v })) ∧
    (s.Issues d e i .sincos → ∃ (sn cs : BitVec 16) (e1 e2 : Int), s.InstStep (.sincos d e i) d e i 2
        { x with w := setAt (setAt x.w w.ws fun _ => sn) ((w.ws + 1) % 16) fun _ => cs } ∧ e1.natAbs ≤ 2 ∧ e2.natAbs ≤ 2 ∧
      sn.toInt = max (-32767) (min 32767 (sinRef v + e1)) ∧ cs.toInt = max (-32767) (min 32767 (sinRef (v + 16384) + e2))) ∧
    (s.Issues d e i .out → s.InstStep (.out d e i) d e i 1 { x with
      v := x.v || satS 16 ((a + 2 ^ 15) / 2 ^ 16) != (a + 2 ^ 15) / 2 ^ 16
      staged := match s.outDest d w with
        | some dst => x.staged ++ [(dst, BitVec.ofInt 16 (satS 16 ((a + 2 ^ 15) / 2 ^ 16)))]
        | none => x.staged })

/-- 06 R152, R155, R156, R165, R176; 07 R183-R187, R192. -/
def Obligations.storing_instructions : Prop :=
  (∀ (s : State) (d e i : Nat) (x : Inst) (w : Word5) (a : Int) (k : Nat), s.shaped = true → (s.die d).le.inst.length = 48 →
    x = s.inst d e i → w = decodeLoop (s.fetch d e i) → a = x.accOf w → k = s.stateBase d x + bitsOf w.field 14 0 →
    (s.Issues d e i .st → s.StoreStep (.st d e i) d e i 1 [(k, BitVec.ofInt 16 (satS 16 ((a + 2 ^ 15) / 2 ^ 16)))]
      { x with v := x.v || satS 16 ((a + 2 ^ 15) / 2 ^ 16) != (a + 2 ^ 15) / 2 ^ 16 }) ∧
    (s.Issues d e i .sts → s.StoreStep (.sts d e i) d e i 1 [(k, x.w.getD w.ws 0)] x) ∧
    (s.Issues d e i .dly → s.StoreStep (.dly d e i) d e i 1 [(k, x.w.getD w.ws 0)]
      { x with acc := setAt x.acc w.a fun _ => 65536 * (s.stateAt d x (bitsOf w.field 14 0)).toInt }) ∧
    (s.Issues d e i .flag → s.StoreStep (.flag d e i) d e i 1 [(k, s.stateAt d x (bitsOf w.field 14 0) ||| BitVec.ofNat 16 x.flags)]
      { x with v := false, l := false, wf := false, dz := false }) ∧
    (s.Issues d e i .spt → ∀ v t r : Int, v = (s.stateAt d x (bitsOf w.field 14 0)).toInt →
      t = (x.sp.getD (bitsOf w.field 16 15) 0).toInt → r = min 32767 (x.wsOf w).natAbs →
      s.StoreStep (.spt d e i) d e i 2 [(k, BitVec.ofInt 16 (v + min (max (t - v) (-r)) r))]
        { x with acc := setAt x.acc w.a fun _ => 65536 * (v + min (max (t - v) (-r)) r) }) ∧
    (s.Issues d e i .intg → ∀ r : Int × Bool,
      r = integrate ((s.stateAt d x (bitsOf w.field 14 0)).toInt * 2 ^ 16 + (s.stateAt d x (bitsOf w.field 14 0 + 1)).toNat + a)
        (x.ws2Of w) (x.wsOf w) →
      s.StoreStep (.intg d e i) d e i 2 [(k, BitVec.ofInt 16 (r.1 / 2 ^ 16)), (k + 1, BitVec.ofInt 16 r.1)]
        { x with acc := setAt x.acc w.a fun _ => r.1, wf := x.wf || r.2 })) ∧
  (∀ (s : State) (d : Nat) (x : Store), s.shaped = true → s.DueOnly d → s.storesDue d = [x] → s.endsDue d = [] →
    s.leComplete.misused = s.misused ∧ s.leComplete.storesDue d = [] ∧ s.OnlyOn s.leComplete (fun e key => e = d ∧ key = stateKey x.addr) ∧
    ((∀ h ∈ (s.die d).le.hostW, h.1 = x.addr → h.2 + 2 < x.tick) →
      s.leComplete.cell d (stateKey x.addr) = x.val.setWidth 32) ∧
    ((∃ h ∈ (s.die d).le.hostW, h.1 = x.addr ∧ x.tick ≤ h.2 + 2) →
      s.leComplete.cell d (stateKey x.addr) = s.cell d (stateKey x.addr))) ∧
  ∀ (s : State) (d : Nat) (x y : Store), s.shaped = true → s.DueOnly d → s.storesDue d = [x, y] → s.endsDue d = [] → x.slot ≠ y.slot →
    if x.addr = y.addr then (176, d, 5) ∈ s.leComplete.misused else s.leComplete.misused = s.misused

/-- 06 R161, R164; 07 R180, R192-R195. -/
def Obligations.end_of_run : Prop :=
  (∀ (s : State) (d e i : Nat) (c : Instr), s.shaped = true → (s.die d).le.inst.length = 48 → s.Issues d e i .stop →
    (c = .endRun d e i ∧ isInvalid (s.fetch d e i) = false ∨ c = .invalidInstruction d e i ∧ isInvalid (s.fetch d e i) = true) →
    Completes c s fun t =>
      t.inst d e i = { s.inst d e i with issues := (s.inst d e i).issues + 1, ending := true } ∧
      (∀ k, k ≠ 8 * e + i → (t.die d).le.inst.getD k Inst.idle = (s.die d).le.inst.getD k Inst.idle) ∧
      (t.die d).le.slot = (s.die d).le.slot ∧ s.OnlyKeys t d fun _ => False) ∧
  ∀ (s : State) (d e i : Nat) (x : Inst), s.shaped = true → (s.die d).le.inst.length = 48 → e < 6 → i < 8 → x = s.inst d e i →
    s.DueOnly d → s.storesDue d = [] → s.endsDue d = [(e, i)] →
    let t := s.leComplete
    (x.staged = [] → t.inst d e i = Inst.idle ∧ t.cond d x.slot = 0 ∧ t.rd d Fd.SLOT_TIME.LAST_ISSUES x.slot = min x.issues 65535 ∧
      t.rd d Fd.SLOT_TIME.MAX_ISSUES x.slot = max (min x.issues 65535) (s.rd d Fd.SLOT_TIME.MAX_ISSUES x.slot) ∧
      (∀ k, k ≠ 8 * e + i → (t.die d).le.inst.getD k Inst.idle = (s.die d).le.inst.getD k Inst.idle) ∧
      (t.die d).le.slot = (s.die d).le.slot ∧
      s.OnlyOn t fun k key => k = d ∧ (key = Fd.SLOT_TIME.W.key x.slot ∨ key = Fd.SLOT_STAT.W.key x.slot)) ∧
    ∀ (sl wd : Nat) (v : BitVec 16), x.staged = [(.slotWord sl wd, v)] → sl < (s.die d).le.slot.length → wd < (s.slot d sl).sp.length →
      t.spWord d sl wd = (s.spWord d sl wd).write s.td0 0 v ∧ t.inst d e i = Inst.idle ∧ t.cond d x.slot = 0 ∧
      ((s.spWord d sl wd).tick ≠ s.td0 → (t.spWord d sl wd).val = v ∧ (t.spWord d sl wd).mark = true) ∧
      s.OnlyOn t fun k key => k = d ∧ (key = Fd.SLOT_TIME.W.key x.slot ∨ key = Fd.SLOT_STAT.W.key x.slot)

/-- 02 R60; 08 R204, R206, R211-R214, R230, R231, R236. -/
def Obligations.edge_planner : Prop :=
  (∀ (s : State) (d : Nat) (q : PReq) (fails : List (Nat × Bool)), s.shaped = true → s.sane = true → s.isHead = true → s.on d 6 = true →
    (s.die d).ep.asked = some q → (s.die d).ep.running = none → s.membersIn d = true ∨ q.swapAt + 256 ≤ s.td0 →
    (s.epRole d = 1 → Completes (.planStart d fails) s fun t =>
      (t.die d).ep.asked = none ∧ (t.die d).ep.waiting = (s.die d).ep.waiting ∧ (t.die d).ep.ready = (s.die d).ep.ready ∧
      (∃ r, (t.die d).ep.running = some r ∧ r.a = q.c + (s.rd d Fd.EP_WIN.W : Int) ∧
        r.aEnd = q.next + (s.rd d Fd.EP_WIN.W : Int) ∧ r.startAt = s.td0 ∧ r.nAct = (s.planCells d).length ∧
        r.group = s.cell d (Fd.EP_GROUP.W.key 0) ∧ r.dom = s.rd d Fd.EP_CFG.DOMAIN ∧ r.lead = s.rd d Fd.EP_TIMING.LEAD) ∧
      t.device = s.device ∧ t.td0 = s.td0 ∧ t.pins = s.pins ∧ t.pending = s.pending ∧
      ∀ e key, ¬(e = d ∧ (pageKeys 6 key ∨ pageKeys 15 key)) → t.cell e key = s.cell e key) ∧
    (s.epRole d ≠ 1 → Completes (.planStart d fails) s fun t =>
      (t.die d).ep.asked = none ∧ (t.die d).ep.running = none ∧
      (s.badRole d = true → t.stuckAt d Sk.EP.CFG_ERR.page Sk.EP.CFG_ERR.bit = true) ∧ s.OnlyKeys t d (stickyKeys 6))) ∧
  (∀ (s : State) (d : Nat) (fails : List (Nat × Bool)), s.sane = true →
    (s.die d).ep.asked = none ∨ (s.die d).ep.running ≠ none ∨
      (s.membersIn d = false ∧ ∀ q, (s.die d).ep.asked = some q → s.td0 < q.swapAt + 256) →
    exec (.planStart d fails) s = .next s) ∧
  (∀ (s : State) (d : Nat) (x : Running), s.shaped = true → s.sane = true → s.isHead = true → s.on d 6 = true →
    (s.die d).ep.running = some x → x.nAct ≤ 128 → Completes (.planEnd d) s fun t =>
      (t.die d).ep.running = none ∧ (t.die d).ep.asked = (s.die d).ep.waiting ∧ (t.die d).ep.waiting = none ∧
      (t.die d).ep.ready = ⟨x.a, x.aEnd, slotMans x.cells 0, x.dom, x.lead⟩ :: (s.die d).ep.ready ∧
      t.rd d Fd.EP_COUNT.PLANS = (s.rd d Fd.EP_COUNT.PLANS + 1) % (Fd.EP_COUNT.PLANS.max + 1) ∧
      t.rd d Fd.EP_STATUS.N_ACT = x.nAct ∧ t.rd d Fd.EP_TIME.LAST_CYC = min ((s.td0 - x.startAt) / 2) 65535 ∧
      t.rd d Fd.EP_TIME.MAX_CYC = max (min ((s.td0 - x.startAt) / 2) 65535) (s.rd d Fd.EP_TIME.MAX_CYC) ∧
      (∀ k, k < 128 → t.rd d Fd.CELL_CFG.STATE k = (match x.cells.find? (fun c => c.k == k) with
        | some c => c.st % 4
        | none => 0)) ∧
      (x.clip = true → t.stuckAt d Sk.EP.LEVEL_CLIP.page Sk.EP.LEVEL_CLIP.bit = true) ∧
      s.OnlyKeys t d (pageKeys 6)) ∧
  (∀ (s : State) (d r : Nat) (m : MTransfer), s.shaped = true → s.sane = true → s.isHead = true → s.on d 6 = true →
    (s.die d).ep.out.find? (fun t => t.slot == r) = some m →
    (s.blockEn d 0x10 = true → (∃ i, s.names d m.die i) → (∀ i, s.names d m.die i → s.sentNow d i < s.rd d Fd.RES_ENTRY.SHARE i) →
      Completes (.manifestTransfer d r) s fun t =>
        (t.die d).ep.out = (s.die d).ep.out.erase m ∧
        t.fabric = s.fabric ++ [⟨d, 1, m.die, 0, s.td0, d, s.td0 + 2, .manifests m⟩] ∧ s.OnlyOn t fun _ _ => False) ∧
    (s.blockEn d 0x10 = true → (∃ i, s.names d m.die i ∧ s.rd d Fd.RES_ENTRY.SHARE i ≤ s.sentNow d i) →
      exec (.manifestTransfer d r) s = .next s) ∧
    ((∀ i, ¬s.names d m.die i) ∨ s.blockEn d 0x10 = false → Completes (.manifestTransfer d r) s fun t =>
        (t.die d).ep.out = (s.die d).ep.out.erase m ∧ t.fabric = s.fabric ∧
        t.stuckAt d Sk.FAB.CLASS_A_REFUSED.page Sk.FAB.CLASS_A_REFUSED.bit = true ∧ s.OnlyKeys t d (pageKeys 16))) ∧
  ∀ (s : State) (d r : Nat), s.sane = true → (∀ m ∈ (s.die d).ep.out, m.slot ≠ r) → exec (.manifestTransfer d r) s = .next s

/-- 09 R244, R261, R262. A link going up or down acts whatever misuse stands: silence, a condition of 01 R39, follows from it. -/
def Obligations.ring_links : Prop :=
  (∀ (s : State) (d : Nat) (r : Ring) (seen : List Sight), s.shaped = true → s.on d 7 = true →
    (64 ≤ seen.length ∧ (∀ x ∈ seen.take 64, x = .good ∨ x = .stomped true) ∧ s.rxIsUp d r = false → Completes (.ringLinkUp d r seen) s fun t =>
      t.rxIsUp d r = true ∧ t.rxIsUp d (otherRing r) = s.rxIsUp d (otherRing r) ∧
      (s.isHead = true → ofPair r (t.head d).downAt = s.td0 ∧ (t.head d).tx = (s.head d).tx) ∧
      (s.isHead = false → d = 0 → t.nodeSends r = none ∧ t.nodeSends (otherRing r) = s.nodeSends (otherRing r)) ∧
      s.OnlyKeys t d fun _ => False) ∧
    (s.rxIsUp d r = true → (∃ x ∈ seen.head?, x = .noLock ∨ x = .noSignal) ∨
        (8 ≤ seen.length ∧ ∀ x ∈ seen.take 8, x ≠ .good ∧ x ≠ .stomped true) → Completes (.ringLinkDown d r seen) s fun t =>
      (t.rxIsUp d r = false) ∧
      (s.isHead = true → t.linkUp d r 33 = false ∧
        (s.linkUp d r 33 = true → t.stuckAt d Sk.RING.RING_BREAK.page Sk.RING.RING_BREAK.bit = true) ∧ s.OnlyKeys t d (pageKeys 7)) ∧
      (s.isHead = false → s.OnlyKeys t d fun _ => False)) ∧
    (s.rxIsUp d r = true ∨ comesUp seen = false → exec (.ringLinkUp d r seen) s = .next s) ∧
    (s.rxIsUp d r = false ∨ goesDown seen = false → exec (.ringLinkDown d r seen) s = .next s)) ∧
  (∀ (s : State) (r : Ring), s.shaped = true → s.isHead = false → s.on 0 7 = true → s.rxIsUp 0 r = false → s.td0 % 128 = 0 →
    (∀ x ∈ s.node.tx, x.ring = r → x.tick ≠ s.td0) →
    ∃ b, s.openSlots.nodeSends r = some b ∧ goodBlock b = true ∧ b.cls = 3 ∧ b.kind = 1 ∧ b.hm = false ∧ b.sa = decide (s.td0 % 512 = 0) ∧
      b.src = if s.number = 0 then 0xFF else BitVec.ofNat 8 s.number) ∧
  (∀ (s : State) (d k : Nat) (r : Ring), s.shaped = true → s.isHead = true → s.ringMode d ≠ 0 → 1 ≤ k → k ≤ 33 →
    Completes (.ringBreak d r k) s fun t =>
      t.linkUp d r k = false ∧ (k, s.td0) ∈ breaksOf r (t.head d) ∧
      (s.linkUp d r k = true → t.stuckAt d Sk.RING.RING_BREAK.page Sk.RING.RING_BREAK.bit = true) ∧
      (∀ r' k', 1 ≤ k' → k' ≤ 33 → ¬(r' = r ∧ k' = k) → t.linkUp d r' k' = s.linkUp d r' k') ∧ s.OnlyKeys t d (pageKeys 7)) ∧
  ∀ (s : State) (d k : Nat) (r : Ring), s.shaped = true → s.sane = true → s.isHead = true → s.ringMode d ≠ 0 → 1 ≤ k → k ≤ 33 →
    (s.breakOver d r k = true → Completes (.ringBreakClear d r k) s fun t =>
      t.linkUp d r k = true ∧
      (s.linkUp d r k = false → t.stuckAt d Sk.RING.RING_BREAK.page Sk.RING.RING_BREAK.bit = true) ∧
      (∀ r' k', 1 ≤ k' → k' ≤ 33 → ¬(r' = r ∧ k' = k) → t.linkUp d r' k' = s.linkUp d r' k') ∧ s.OnlyKeys t d (pageKeys 7)) ∧
    (s.breakOver d r k = false → exec (.ringBreakClear d r k) s = .next s)

/-- 09 R247, R248, R256, R264; 10 R266; 11 R305, R319; 17 R446. -/
def Obligations.waystation_passes : Prop :=
  (∀ (s : State) (r : Ring) (b : RingBlock), s.shaped = true → s.sane = true → s.isHead = false → s.on 0 7 = true → s.rxIsUp 0 r = true →
    goodBlock b = false → Completes (.blockForward r b) s fun t =>
      t.nodeSends r = some { sealBlock b with delim := .stomped } ∧ t.nodeSends (otherRing r) = s.nodeSends (otherRing r) ∧
      s.OnlyKeys t 0 fun _ => False) ∧
  (∀ (s : State) (r : Ring) (b : RingBlock), s.shaped = true → s.sane = true → s.isHead = false → s.on 0 7 = true → s.rxIsUp 0 r = true →
    goodBlock b = true → Completes (.blockForward r b) s fun t =>
      (reservedKind b = true → t.nodeSends r = some b) ∧
      (reservedKind b = false → ∃ x, t.nodeSends r = some x ∧ goodBlock x = true ∧ x.sa = b.sa ∧ x.hm = b.hm ∧
        (s.ownBlock b = true → x.cls = 3 ∧ x.kind = 0 ∧ x.src = 0 ∧ x.dst = 0xFF ∧ x.payload = pad64 []) ∧
        (s.ownBlock b = false → x.cls = b.cls ∧ x.kind = b.kind ∧ x.src = b.src ∧ x.dst = b.dst ∧ x.seq = b.seq ∧
          (¬(b.cls = 0 ∧ (b.kind = 4 ∨ b.kind = 5)) → x.payload = b.payload)) ∧
        (b.alert.toNat / 2 ^ 15 = 1 → x.alert = b.alert) ∧ (b.ack.toNat / 2 ^ 14 ≠ 0 → x.ack = b.ack)) ∧
      s.OnlyKeys t 0 fun key => pageKeys 7 key ∨ key = ctxKey 1 0) ∧
  (∀ (s : State) (r : Ring) (b : RingBlock), s.sane = true → s.rxIsUp 0 r = false → exec (.blockForward r b) s = .next s) ∧
  (∀ s : State, s.sized = true → s.silentDue = true → Completes .silent s fun t =>
    t.flag 0 Fd.RING_STATUS.SILENT = true ∧ t.ringBlock = true ∧ 0x70 ∈ (t.die 0).flt.present ∧
    (∀ b, b < 3 → t.Drives b 0 s.now ∧ (t.bridge b).cur = none ∧ (t.bridge b).next = none) ∧ t.device = s.device ∧ t.td0 = s.td0 ∧
    s.OnlyOn t fun e key => e = 0 ∧ (pageKeys 7 key ∨ pageKeys 8 key ∨ key = ctxKey 1 0)) ∧
  (∀ s : State, s.shaped = true → s.sane = true → s.isHead = false → s.alive 0 = true → s.ringBlock = true → s.flag 0 Fd.RING_STATUS.SILENT = false →
    s.trusted = true → s.node.stateSeen = true → Completes .ringBlockClear s fun t =>
      t.ringBlock = false ∧ t.device = s.device ∧ t.td0 = s.td0 ∧
      s.OnlyOn t fun e key => e = 0 ∧ (pageKeys 8 key ∨ key = ctxKey 1 0)) ∧
  ∀ (s : State) (d n : Nat) (src : Byte) (b : RingBlock), s.shaped = true → s.sane = true → s.isHead = true → s.on d 7 = true → goodBlock b = true →
    b.sa = true → bitOf b.alert.toNat 15 = true → n = bitsOf b.alert.toNat 12 8 + 1 → src = BitVec.ofNat 8 b.alert.toNat →
    ((∃ e ∈ (s.head d).alerts, e.1 = n ∧ e.2.1 = src) → exec (.alert d b) s = .next s) ∧
    ((¬∃ e ∈ (s.head d).alerts, e.1 = n ∧ e.2.1 = src) → Completes (.alert d b) s fun t =>
      (t.head d).alerts = (n, src, s.td0) :: (s.head d).alerts ∧ t.stuckAt d (0x1F + n) 0 = true ∧
      t.stuckAt d Sk.FLT.WS_REPORT.page Sk.FLT.WS_REPORT.bit = true ∧
      (t.die d).flt.arriving = (s.die d).flt.arriving ++ (if s.armed then [(0x800 + d * 256 + src.toNat, n)] else []) ∧
      s.OnlyKeys t d fun key => stickyKeys 11 key ∨ stickyKeys (0x1F + n) key)

/-- 09 R250-R255; 10 R266, R269, R271, R273, R287, R288. -/
def Obligations.head_sends : Prop :=
  (∀ (s : State) (d : Nat), s.shaped = true → s.sane = true → s.slotOpen d = true → s.syncDue d = true → s.firstBlockDue d = false → s.carries d = false →
    Completes (.syncSend d) s fun t => t.syncDue d = false ∧
      s.SendsA t d 0 (beBytes 8 s.td0 ++ beBytes 2 (s.rd d Fd.RING_L.L) ++
        [BitVec.ofNat 8 (s.rd d Fd.RING_L.DSEQ), BitVec.ofNat 8 s.device.code, BitVec.ofNat 8 (s.nodes d)] ++
        beBytes 5 (s.linksWord d .a) ++ beBytes 5 (s.linksWord d .b) ++ [BitVec.ofNat 8 (s.ringMode d)])) ∧
  (∀ (s : State) (d : Nat), s.shaped = true → s.sane = true → s.slotOpen d = true → s.delayDue d = true → s.syncDue d = false → s.blockDue d = false →
    s.carries d = false → Completes (.delaySend d) s fun t =>
      t.delayDue d = false ∧ (t.head d).delayOut = some (s.head d).dseq ∧ (t.head d).dseq = (s.head d).dseq + 1 ∧
      s.SendsA t d 1 [(s.head d).dseq]) ∧
  (∀ (s : State) (d code at_ : Nat) (rest : List (Nat × Nat)), s.shaped = true → s.sane = true → s.slotOpen d = true → s.stateDue d = true →
    s.syncDue d = false → s.delayDue d = false → s.blockDue d = false → s.assigned d = none →
    (s.head d).stateOut = (code, at_) :: rest → Completes (.stateSend d) s fun t =>
      (t.head d).stateOut = rest ∧ s.SendsA t d 3 ([BitVec.ofNat 8 code] ++ beBytes 8 at_)) ∧
  (∀ (s : State) (d : Nat) (b : BlockTx), s.shaped = true → s.sane = true → s.slotOpen d = true → s.blockDue d = true → (s.head d).blockOut = some b →
    s.firstBlockDue d = true ∨ (s.syncDue d = false ∧ s.carries d = false) → Completes (.blockSend d) s fun t =>
      (t.head d).blockOut = (if b.left ≤ 1 then none else some { b with left := b.left - 1, fromTick := s.td0 + 16 }) ∧
      (b.left = 4 → ∀ a ∈ (t.head d).slots, a.kind = 4) ∧
      s.SendsA t d 2 (beBytes 2 (b.code % 4096) ++ beBytes 8 b.ticks)) ∧
  (∀ (s : State) (d : Nat) (a : SlotAsg), s.shaped = true → s.sane = true → s.slotOpen d = true → s.assigned d = some a →
    s.ringMode d = 3 → s.firstBlockDue d = false → Completes (.caravanBlockSend d) s fun t =>
      (∀ x ∈ (t.head d).slots, x.start ≠ s.td0) ∧ (∀ x, x.start ≠ s.td0 → (x ∈ (t.head d).slots ↔ x ∈ (s.head d).slots)) ∧
      s.SendsA t d (BitVec.ofNat 4 a.kind) a.payload) ∧
  (∀ (s : State) (d : Nat), s.shaped = true → s.sane = true → s.slotOpen d = true → s.assigned d = none → s.enumDue d = true →
    s.blockDue d = false → s.syncDue d = false → s.delayDue d = false → s.stateDue d = false → Completes (.caravanBlockSend d) s fun t =>
      (t.head d).enumWait = (s.head d).enumWait.tail ∧ (t.head d).enumOut = (s.head d).enumOut + 1 ∧ s.SendsA t d 4 []) ∧
  ∀ (s : State) (d : Nat), s.sane = true → s.slotOpen d = false →
    exec (.syncSend d) s = .next s ∧ exec (.delaySend d) s = .next s ∧ exec (.stateSend d) s = .next s ∧
    exec (.blockSend d) s = .next s ∧ exec (.caravanBlockSend d) s = .next s

/-- 10 R268-R271, R283, R294. -/
def Obligations.head_receives : Prop :=
  (∀ (s : State) (d : Nat) (q : Byte), s.shaped = true → s.sane = true → s.isHead = true → s.on d 7 = true → (s.head d).delayOut = some q →
    (∀ a b, (s.stampAt d a + s.stampAt d b) / 2 < 65536 → Completes (.delayReturn d (some a) (some b)) s fun t =>
      t.rd d Fd.RING_L.L = (s.stampAt d a + s.stampAt d b) / 2 ∧ t.rd d Fd.RING_L.DSEQ = q.toNat ∧ (t.head d).delayOut = none ∧
      s.OnlyKeys t d (· = Fd.RING_L.W.key 0)) ∧
    ∀ la lb, la = none ∨ lb = none → Completes (.delayReturn d la lb) s fun t =>
      (t.head d).delayOut = none ∧ s.OnlyKeys t d fun _ => False) ∧
  (∀ (s : State) (d : Nat), s.shaped = true → s.sane = true → s.isHead = true → s.alive d = true →
    (s.rd d Fd.RING_CTRL.MODE = 3 → Completes (.enumGo d) s fun t => s.Misused t 294 d 7) ∧
    (s.rd d Fd.RING_CTRL.MODE ≠ 3 → s.ringMode d = 2 → s.ringWhole d .a = true → s.ringWhole d .b = true →
      Completes (.enumGo d) s fun t =>
        (t.head d).enumWait = (s.head d).enumWait ++ [s.td0 + 16] ∧
        s.OnlyKeys t d fun _ => False) ∧
    (s.rd d Fd.RING_CTRL.MODE ≠ 3 → ¬(s.ringMode d = 2 ∧ s.ringWhole d .a = true ∧ s.ringWhole d .b = true) →
      Completes (.enumGo d) s fun t =>
        t.stuckAt d Sk.RING.ENUM_ERR.page Sk.RING.ENUM_ERR.bit = true ∧ s.OnlyKeys t d (stickyKeys 7))) ∧
  (∀ (s : State) (d : Nat) (ca cb : Option (Nat × Nat)), s.shaped = true → s.sane = true → s.isHead = true → s.on d 7 = true →
    (s.head d).enumOut ≠ 0 → Completes (.enumReturn d ca cb) s fun t =>
      (t.head d).enumOut = (s.head d).enumOut - 1 ∧
      (match ca, cb with
        | some a, some b =>
          if a.1 = b.2 ∧ (s.rd d Fd.RING_CFG.EXPECT = 0 ∨ s.rd d Fd.RING_CFG.EXPECT = a.1) ∧ a.1 ≤ 32 then t.nodes d = a.1
          else t.stuckAt d Sk.RING.ENUM_ERR.page Sk.RING.ENUM_ERR.bit = true ∧ t.nodes d = s.nodes d
        | _, _ => t.stuckAt d Sk.RING.ENUM_ERR.page Sk.RING.ENUM_ERR.bit = true ∧ t.nodes d = s.nodes d) ∧
      s.OnlyKeys t d (pageKeys 7)) ∧
  ∀ (s : State) (d returned : Nat) (cid : Byte) (c : Caravan) (results : List Word), s.shaped = true → s.sane = true → s.isHead = true →
    s.on d 7 = true → (s.head d).caravans.find? (fun c => c.cid == cid) = some c →
    (returned < 2 * c.blocks → s.td0 < c.lastStart + 16000 → exec (.caravanFinalise d cid returned results) s = .next s) ∧
    (2 * c.blocks ≤ returned ∨ c.lastStart + 16000 ≤ s.td0 → c.blocks ≤ 15 →
      Completes (.caravanFinalise d cid returned results) s fun t =>
        (t.head d).caravans = (s.head d).caravans.erase c ∧ t.rd d Fd.CAR_INFO.BLOCKS = c.blocks ∧ t.rd d Fd.CAR_INFO.CID = cid.toNat ∧
        t.rd d Fd.CAR_ADDR.W = c.addr.toNat ∧ t.rd d Fd.CAR_OK.W = (results.foldl (· ||| ·) 0#32).toNat ∧
        (∀ i, i < 32 → bitOf (c.addr &&& ~~~results.foldl (· ||| ·) 0#32).toNat i = true →
          t.stuckAt d (0x20 + i) 1 = true ∧ t.stuckAt d Sk.RING.CARAVAN_PARTIAL.page Sk.RING.CARAVAN_PARTIAL.bit = true) ∧
        s.OnlyKeys t d fun key => pageKeys 7 key ∨ ∃ i, i < 32 ∧
          bitOf (c.addr &&& ~~~results.foldl (· ||| ·) 0#32).toNat i = true ∧ stickyKeys (0x20 + i) key)

/-- 09 R255; 10 R272-R275, R287, R288; 13 R357; 21 R533. BLOCK, a condition of 01 R39, acts whatever misuse stands. -/
def Obligations.node_hears : Prop :=
  (∀ (s : State) (r : Ring) (b : RingBlock) (arr : Nat), s.shaped = true → s.sane = true → s.hearsA b 0 = true →
    (s.node.syncSeq = some b.seq → s.node.syncIdx = field8 b 0 8 / 8000 → exec (.sync r b arr) s = .next s) ∧
    (¬(s.node.syncSeq = some b.seq ∧ s.node.syncIdx = field8 b 0 8 / 8000) → Completes (.sync r b arr) s fun t =>
      t.node.syncAt = some s.td0 ∧ t.node.syncSeq = some b.seq ∧ t.node.syncIdx = field8 b 0 8 / 8000 ∧
      t.node.rmode = field8 b 23 1 % 4 ∧ t.node.size = field8 b 12 1 ∧ t.node.linksA = BitVec.ofNat 40 (field8 b 13 5) ∧
      t.node.linksB = BitVec.ofNat 40 (field8 b 18 5) ∧
      (s.imgBusy 0 = false → s.OnlyOn t fun e key => e = 0 ∧ key / 0x1000 ∈ [0, 7, 8, 10, 11, 32]))) ∧
  (∀ (s : State) (r : Ring) (b : RingBlock) (arr : Nat) (rr e : Int), s.shaped = true → s.sane = true → s.hearsA b 0 = true →
    ¬(s.node.syncSeq = some b.seq ∧ s.node.syncIdx = field8 b 0 8 / 8000) → field8 b 8 2 = 0xFFFF → s.node.l = none →
    DevState.ofCode (field8 b 11 1 % 16) = some s.device → ofPair r (s.node.ra, s.node.rb) = some rr →
    e = (field8 b 0 8 : Int) * 8 + rr - s.stampAt 0 arr → satS 16 e = e → Completes (.sync r b arr) s fun t =>
      t.rdS 0 Fd.NODE_TIME.SYNC_ERR = e ∧ t.device = s.device ∧
      t.node.adjust = some (e, !(s.node.timeSet && decide (e.natAbs < 16))) ∧
      (s.flag 0 Fd.RING_STATUS.TRUSTED = true → t.flag 0 Fd.RING_STATUS.TRUSTED = true) ∧
      (s.node.timeSet = true → e.natAbs < 16 → s.node.syncAt.isSome = true → field8 b 0 8 / 8000 = s.node.syncIdx + 1 →
        1 ≤ s.rd 0 Fd.NODE_TIME.AGREE → t.flag 0 Fd.RING_STATUS.TRUSTED = true)) ∧
  (∀ (s : State) (b : RingBlock) (q : Byte) (arrA arrB : Nat) (a c : Int), s.shaped = true → s.sane = true → s.hearsA b 1 = true →
    q = BitVec.ofNat 8 (field8 b 0 1) → a = s.stampAt 0 arrA → c = s.stampAt 0 arrB →
    ((∀ x, s.node.dOpen = some x → x.1 ≠ q) →
      (Completes (.delay .a b arrA) s fun t => t.node.dOpen = some (q, some a, none) ∧ s.OnlyKeys t 0 fun _ => False) ∧
      Completes (.delay .b b arrB) s fun t => t.node.dOpen = some (q, none, some c) ∧ s.OnlyKeys t 0 fun _ => False) ∧
    (satS 16 ((c : Int) - a) = (c : Int) - a →
      (s.node.dOpen = some (q, some a, none) → Completes (.delay .b b arrB) s fun t =>
        t.node.dOpen = none ∧ t.node.dHist.head? = some (q, (c : Int) - a) ∧ t.rd 0 Fd.NODE_D.DSEQ = q.toNat ∧
        t.rdS 0 Fd.NODE_D.D = (c : Int) - a ∧ s.OnlyKeys t 0 (· = Fd.NODE_D.W.key 0)) ∧
      (s.node.dOpen = some (q, none, some c) → Completes (.delay .a b arrA) s fun t =>
        t.node.dOpen = none ∧ t.node.dHist.head? = some (q, (c : Int) - a) ∧ t.rd 0 Fd.NODE_D.DSEQ = q.toNat ∧
        t.rdS 0 Fd.NODE_D.D = (c : Int) - a ∧ s.OnlyKeys t 0 (· = Fd.NODE_D.W.key 0)))) ∧
  (∀ (s : State) (b : RingBlock) (code : Nat), s.shaped = true → s.sane = true → s.hearsA b 3 = true → code = field8 b 0 1 % 16 →
    ((∃ e ∈ s.node.got, e.1 = b.seq ∧ (s.td0 : Int) < e.2 + 16000) → exec (.state b) s = .next s) ∧
    ((¬∃ e ∈ s.node.got, e.1 = b.seq ∧ (s.td0 : Int) < e.2 + 16000) →
      (code < 3 ∨ s.device = .boot ∨ DevState.ofCode code = none ∨ DevState.ofCode code = some s.device →
        Completes (.state b) s fun t => t.device = s.device ∧ t.pins = s.pins ∧ (b.seq, (s.td0 : Int)) ∈ t.node.got ∧
          t.node.stateSeen = (s.node.stateSeen || s.ringBlock && DevState.switchingCode code) ∧ s.OnlyKeys t 0 fun _ => False) ∧
      ∀ new, DevState.ofCode code = some new → 3 ≤ code → s.device ≠ .boot → new ≠ s.device →
        (s.device = .config → s.loadsOk 0 = true) → Completes (.state b) s fun t =>
          t.device = new ∧ t.last = s.device ∧ t.changes = s.changes + 1 ∧ (b.seq, (s.td0 : Int)) ∈ t.node.got ∧
          t.stuckAt 0 Sk.DIE.STATE_CHANGED.page Sk.DIE.STATE_CHANGED.bit = true ∧
          (s.imgBusy 0 = false → s.OnlyOn t fun e key => e = 0 ∧ key / 0x1000 ∈ [0, 8, 10, 11, 32]))) ∧
  ∀ (s : State) (b : RingBlock), s.sized = true → s.hearsA b 2 = true →
    ((∃ e ∈ s.node.got, e.1 = b.seq ∧ (s.td0 : Int) < e.2 + 16000) → exec (.block b) s = .next s) ∧
    ((¬∃ e ∈ s.node.got, e.1 = b.seq ∧ (s.td0 : Int) < e.2 + 16000) → Completes (.block b) s fun t =>
      t.flag 0 Fd.HEAD_FF.VALID = true ∧ t.rd 0 Fd.HEAD_FF.CODE = field8 b 0 2 % 4096 ∧
      t.rd 0 Fd.HEAD_T_LO.W = loWord (field8 b 2 8) ∧ t.rd 0 Fd.HEAD_T_HI.W = hiWord (field8 b 2 8) ∧
      (∀ k, k < 3 → t.Drives k 0 s.now ∧ (t.bridge k).cur = none ∧ (t.bridge k).next = none) ∧
      (s.device ≠ .boot → t.device = .lockout) ∧ (s.device = .boot → t.device = .boot) ∧
      (s.imgBusy 0 = false → s.OnlyOn t fun e key => e = 0 ∧ key / 0x1000 ∈ [0, 8, 10, 11, 32]))

/-- 10 R278-R282, R286; 11 R307. -/
def Obligations.caravans_and_set_points : Prop :=
  (∀ (s : State) (r : Ring) (b : RingBlock) (m : Nat × Nat × Bool × List MEdge) (cid : Byte) (base : Int), s.shaped = true → s.sane = true →
    s.hearsA b 5 = true → s.number ≠ 0 → s.trusted = true → s.device.switching = true → manifestsOf b = [m] → m.1 = s.number →
    s.manifestOk m = true → cid = BitVec.ofNat 8 (field8 b 0 1) → base = (nearestTo (2 ^ 40) (field8 b 2 5) s.td0 : Nat) * 8 →
    m.2.1 < (s.die 0).bg.bridge.length →
    ((s.node.cids.filter fun e => decide ((s.td0 : Int) < e.2.2 + 16000)).any (fun e => e.1 == cid && e.2.1 == m.2.1) = false →
      ((s.bridge m.2.1).cur = none → ∀ e ∈ m.2.2.2, ((s.td0 : Int) + 16) * 8 ≤ base + e.stamp) → Completes (.caravan r b) s fun t =>
        (if (s.bridge m.2.1).cur = none then (t.bridge m.2.1).cur else (t.bridge m.2.1).next) =
          some ⟨cid, m.2.2.2.map (fun e => { e with stamp := base + e.stamp }), base + (field8 b 7 3 % 2 ^ 21 : Nat)⟩ ∧
        (cid, m.2.1, (s.td0 : Int)) ∈ t.node.cids ∧ t.device = s.device ∧ t.pins = s.pins ∧ s.OnlyKeys t 0 (stickyKeys 8)) ∧
    ((s.node.cids.filter fun e => decide ((s.td0 : Int) < e.2.2 + 16000)).any (fun e => e.1 == cid && e.2.1 == m.2.1) = true →
      Completes (.caravan r b) s fun t => (t.die 0).bg = (s.die 0).bg ∧ s.OnlyKeys t 0 fun _ => False)) ∧
  (∀ (s : State) (r : Ring) (b : RingBlock), s.shaped = true → s.sane = true → s.hearsA b 5 = true →
    s.number = 0 ∨ s.trusted = false ∨ s.device.switching = false → Completes (.caravan r b) s fun t =>
      (t.die 0).bg = (s.die 0).bg ∧ s.OnlyKeys t 0 fun _ => False) ∧
  ∀ (s : State) (b : RingBlock), s.shaped = true → s.sane = true → s.hearsA b 6 = true →
    ((∃ e ∈ s.node.got, e.1 = b.seq ∧ (s.td0 : Int) < e.2 + 16000) → exec (.setpt b) s = .next s) ∧
    ((¬∃ e ∈ s.node.got, e.1 = b.seq ∧ (s.td0 : Int) < e.2 + 16000) → s.number ≠ 0 → field8 b 0 1 = 1 →
      (field8 b 1 5 / 2 ^ 35 % 32 + 1 ≠ s.number → Completes (.setpt b) s fun t =>
        (b.seq, (s.td0 : Int)) ∈ t.node.got ∧ s.OnlyKeys t 0 fun _ => False) ∧
      ∀ f v, f = field8 b 1 5 / 65536 % 4096 → v = BitVec.ofNat 16 (field8 b 1 5) → field8 b 1 5 / 2 ^ 35 % 32 + 1 = s.number →
        isDown f = true → f ≠ 8 → Completes (.setpt b) s fun t => (b.seq, (s.td0 : Int)) ∈ t.node.got ∧ s.TakesDown t f v)

/-- 09 R245, R248, R249, R258-R260; 10 R290. -/
def Obligations.class_b_and_c : Prop :=
  (∀ (s : State) (d n cls : Nat) (b : BcBlock) (r : Ring) (delay : Nat), s.shaped = true → s.sane = true → s.isHead = true →
    s.ringMode d = 3 → s.td0 % 128 = 0 → 1 ≤ n → n ≤ s.nodes d → s.slotOwed d = false → s.shorter d n = some (r, delay) →
    s.classNow d r = some cls → s.frontBc d n cls = some b → b.sent = none → s.slotTaken d r = false →
    Completes (.bcBlockSend d n) s fun t =>
      (∃ x ∈ (t.head d).tx, x.ring = r ∧ x.tick = s.td0 ∧ x.blk.hm = true ∧ x.blk.cls = BitVec.ofNat 2 cls ∧
        x.blk.kind = BitVec.ofNat 4 b.kind ∧ x.blk.src = 0 ∧ x.blk.dst = BitVec.ofNat 8 n ∧
        x.blk.seq = BitVec.ofNat 8 (seqOf (s.head d).txSeq n cls) ∧ x.blk.payload = b.payload ∧ x.blk.crc = blockCrc x.blk) ∧
      t.frontBc d n cls = some { b with sent := some ((s.td0 : Int) + 128) } ∧ s.OnlyKeys t d fun _ => False) ∧
  (∀ (s : State) (d n : Nat) (b : BcBlock) (cls : Nat) (idle : TxBlock), s.shaped = true → s.sane = true → cls = 1 ∨ cls = 2 →
    s.nodeTurn cls = some idle → s.nodeFront cls = some b → b.sent = none → Completes (.bcBlockSend d n) s fun t =>
      (∃ x, t.nodeSends s.backRing = some x ∧ x.cls = BitVec.ofNat 2 cls ∧ x.kind = BitVec.ofNat 4 b.kind ∧
        x.src = BitVec.ofNat 8 s.number ∧ x.dst = 0 ∧ x.seq = BitVec.ofNat 8 (nodeSeq s.node.txSeq cls) ∧ x.payload = b.payload ∧
        x.crc = blockCrc x ∧ x.hm = idle.blk.hm ∧ x.alert = idle.blk.alert ∧ x.ack = idle.blk.ack) ∧
      t.nodeFront cls = some { b with sent := some ((idle.tick : Int) + 128) } ∧ t.node.round = s.td0 / 2048 ∧
      s.OnlyKeys t 0 fun _ => False) ∧
  (∀ (s : State) (d n : Nat), s.sane = true → s.isHead = true →
    s.ringMode d ≠ 3 ∨ s.td0 % 128 ≠ 0 ∨ n = 0 ∨ s.nodes d < n ∨ s.slotOwed d = true ∨ s.shorter d n = none →
    exec (.bcBlockSend d n) s = .next s) ∧
  (∀ (s : State) (d n cls : Nat) (b : BcBlock) (ack : BitVec 16) (t0 : Int), s.shaped = true → s.sane = true → s.isHead = true → s.on d 7 = true →
    n = bitsOf ack.toNat 11 7 + 1 → cls = (if bitOf ack.toNat 12 then 2 else 1) → s.frontBc d n cls = some b → b.sent = some t0 →
    bitOf ack.toNat 13 = false →
    (bitsOf ack.toNat 15 14 = 1 → bitsOf ack.toNat 6 0 = seqOf (s.head d).txSeq n cls → Completes (.ackReceived d ack) s fun t =>
      seqOf (t.head d).txSeq n cls = (seqOf (s.head d).txSeq n cls + 1) % 128 ∧
      (cls = 1 → b.kind ≠ 2 → (t.head d).bcQ = (s.head d).bcQ.erase b ∧ s.OnlyKeys t d fun _ => False)) ∧
    (bitsOf ack.toNat 15 14 = 2 → b.resends < 3 → Completes (.ackReceived d ack) s fun t =>
      t.frontBc d n cls = some { b with sent := none, resends := b.resends + 1 } ∧ s.OnlyKeys t d fun _ => False) ∧
    (bitsOf ack.toNat 15 14 = 2 → 3 ≤ b.resends → cls = 1 → b.kind = 0 → Completes (.ackReceived d ack) s fun t =>
      (t.head d).bcQ = (s.head d).bcQ.erase b ∧ t.stuckAt d Sk.RING.BC_DROPPED.page Sk.RING.BC_DROPPED.bit = true ∧
      t.stuckAt d (0x1F + n) 2 = true ∧
      t.rd d Fd.RING_BC.BC_DROPS = min (s.rd d Fd.RING_BC.BC_DROPS + 1) Fd.RING_BC.BC_DROPS.max ∧
      s.OnlyKeys t d fun key => pageKeys 7 key ∨ stickyKeys (0x1F + n) key)) ∧
  (∀ (s : State) (cls : Nat) (b : BcBlock) (ack : BitVec 16) (t0 : Int), s.shaped = true → s.sane = true → s.isHead = false → s.on 0 7 = true →
    s.number = bitsOf ack.toNat 11 7 + 1 → cls = (if bitOf ack.toNat 12 then 2 else 1) → s.nodeFront cls = some b → b.sent = some t0 →
    bitOf ack.toNat 13 = true →
    (bitsOf ack.toNat 15 14 = 1 → bitsOf ack.toNat 6 0 = nodeSeq s.node.txSeq cls → Completes (.ackReceived 0 ack) s fun t =>
      t.node.bcQ = s.node.bcQ.erase b ∧ nodeSeq t.node.txSeq cls = (nodeSeq s.node.txSeq cls + 1) % 128 ∧
      s.OnlyKeys t 0 fun _ => False) ∧
    (bitsOf ack.toNat 15 14 = 2 → b.resends < 3 → Completes (.ackReceived 0 ack) s fun t =>
      t.nodeFront cls = some { b with sent := none, resends := b.resends + 1 } ∧ s.OnlyKeys t 0 fun _ => False)) ∧
  ∀ (s : State) (d n : Nat) (cls : BitVec 2) (b : BcBlock) (t0 : Int), s.shaped = true → s.sane = true → s.on d 7 = true →
    (if s.isHead then s.frontBc d n cls.toNat else s.nodeFront cls.toNat) = some b → b.sent = some t0 →
    (s.td0 < t0 + 12800 → exec (.resendTimeout d n cls) s = .next s) ∧
    (t0 + 12800 ≤ s.td0 → b.resends < 3 → Completes (.resendTimeout d n cls) s fun t =>
      (if s.isHead then t.frontBc d n cls.toNat else t.nodeFront cls.toNat) =
        some { b with sent := none, resends := b.resends + 1 } ∧ s.OnlyKeys t d fun _ => False) ∧
    (t0 + 12800 ≤ s.td0 → 3 ≤ b.resends → s.isHead = true → cls = 1 → b.kind = 0 → Completes (.resendTimeout d n cls) s fun t =>
      (t.head d).bcQ = (s.head d).bcQ.erase b ∧ t.stuckAt d Sk.RING.BC_DROPPED.page Sk.RING.BC_DROPPED.bit = true ∧
      t.stuckAt d (0x1F + n) 2 = true ∧ s.OnlyKeys t d fun key => pageKeys 7 key ∨ stickyKeys (0x1F + n) key) ∧
    (t0 + 12800 ≤ s.td0 → 3 ≤ b.resends → s.isHead = false → Completes (.resendTimeout d n cls) s fun t =>
      t.node.bcQ = s.node.bcQ.erase b ∧ t.stuckAt 0 Sk.RING.BC_DROPPED.page Sk.RING.BC_DROPPED.bit = true ∧
      s.OnlyKeys t 0 (pageKeys 7))

/-- 09 R248, R259, R260; 10 R289-R291. What a SEQ ahead of the expected one means is log entry 88. -/
def Obligations.context_fields : Prop :=
  (∀ (s : State) (d n f : Nat) (v : BitVec 16), s.shaped = true → s.sane = true → s.alive d = true →
    (s.isHead = true → isDown f = true → 1 ≤ n → n ≤ s.nodes d → Completes (.contextFieldWrite d n f v) s fun t =>
      t.ctx d n f = downValue f v ∧ (n, f, downValue f v) ∈ (t.head d).ctxQ ∧ s.OnlyKeys t d (· = ctxKey n f)) ∧
    (s.isHead = false → isUp f = true → Completes (.contextFieldWrite d 1 f v) s fun t =>
      t.nodeField f = v ∧ (s.nodeField f ≠ v → f ∈ t.node.upQ) ∧ s.OnlyKeys t d (· = ctxKey 1 f)) ∧
    (s.isHead = true ∧ (isDown f = false ∨ n = 0 ∨ s.nodes d < n) ∨ s.isHead = false ∧ (isUp f = false ∨ n ≠ 1) →
      exec (.contextFieldWrite d n f v) s = .next s)) ∧
  (∀ (s : State) (r : Ring) (b : RingBlock) (exp : Nat), s.shaped = true → s.sane = true → s.toNode b 1 0 = true →
    exp = nodeSeq s.node.rxSeq 1 →
    (goodBlock b = true → (b.seq.toNat % 128 + 128 - exp % 128) % 128 < 64 → ∀ f v, entries4 b = [(f, v)] → isDown f = true →
      f ≠ 8 → Completes (.ctxWrite r b) s fun t =>
        nodeSeq t.node.rxSeq 1 = (b.seq.toNat + 1) % 128 ∧
        t.node.acks = s.node.acks ++ [(r, ackWord false false false s.number b.seq.toNat)] ∧ s.TakesDown t f v) ∧
    (goodBlock b = false ∨ 64 ≤ (b.seq.toNat % 128 + 128 - exp % 128) % 128 → Completes (.ctxWrite r b) s fun t =>
      t.node.rxSeq = s.node.rxSeq ∧ t.node.acks = s.node.acks ++ [(r,
        if goodBlock b = true ∧ b.seq.toNat % 128 = (exp + 127) % 128 then ackWord false false false s.number b.seq.toNat
        else ackWord true false false s.number exp)] ∧ s.OnlyKeys t 0 fun _ => False)) ∧
  (∀ (s : State) (idle : TxBlock) (fs : List Nat), s.shaped = true → s.sane = true → s.nodeFront 1 = none → s.nodeTurn 1 = some idle →
    fs = (sortBy (fun a b => decide (a ≤ b)) s.node.upQ).take 15 →
    Completes .ctxDataSend s fun t =>
      (∃ x, t.nodeSends s.backRing = some x ∧ x.cls = 1 ∧ x.kind = 1 ∧ x.src = BitVec.ofNat 8 s.number ∧ x.dst = 0 ∧
        x.seq = BitVec.ofNat 8 (nodeSeq s.node.txSeq 1) ∧ x.payload = pad64 (pack4 (fs.map fun f => (f, s.nodeField f))) ∧
        x.crc = blockCrc x) ∧
      (∀ f ∈ fs, f ≠ 0 → f ∉ t.node.upQ) ∧ s.OnlyKeys t 0 (· = ctxKey 1 0)) ∧
  ∀ (s : State) (d exp : Nat) (r : Ring) (b : RingBlock), s.shaped = true → s.sane = true → s.toHead d b 1 1 = true →
    exp = seqOf (s.head d).rxSeq b.src.toNat 1 →
    (goodBlock b = true → (b.seq.toNat % 128 + 128 - exp % 128) % 128 < 64 → ∀ f v, entries4 b = [(f, v)] → isUp f = true →
      Completes (.ctxData d r b) s fun t =>
        t.ctx d b.src.toNat f = v ∧ seqOf (t.head d).rxSeq b.src.toNat 1 = (b.seq.toNat + 1) % 128 ∧
        (t.head d).acks = (s.head d).acks ++ [(r, ackWord false true false b.src.toNat b.seq.toNat)] ∧
        s.OnlyKeys t d (· = ctxKey b.src.toNat f)) ∧
    (goodBlock b = false ∨ 64 ≤ (b.seq.toNat % 128 + 128 - exp % 128) % 128 → Completes (.ctxData d r b) s fun t =>
      (t.head d).rxSeq = (s.head d).rxSeq ∧ s.OnlyKeys t d fun _ => False)

/-- 10 R292; 09 R259; 02 R40. -/
def Obligations.remote_accesses : Prop :=
  (∀ (s : State) (d n : Nat) (write : Bool) (c : Instr), s.shaped = true → s.sane = true → s.isHead = true → s.alive d = true →
    c = (if write then .remoteWrite d n else .remoteRead d n) →
    (s.ringMode d = 3 → 1 ≤ n → n ≤ s.nodes d → (s.head d).remotes = [] → Completes c s fun t =>
      t.rd d Fd.RMT_STAT.STAT = 1 ∧
      (t.head d).remotes = [⟨n, write, BitVec.ofNat 32 (s.rd d Fd.RMT_ADDR.W), BitVec.ofNat 32 (s.rd d Fd.RMT_DATA.W), true, none⟩] ∧
      (t.head d).bcQ = (s.head d).bcQ ++ [⟨n, 1, 2, pad64 ([BitVec.ofNat 8 (bnat write)] ++ beBytes 4 (s.rd d Fd.RMT_ADDR.W) ++
        beBytes 4 (s.rd d Fd.RMT_DATA.W)), none, 0⟩] ∧ s.OnlyKeys t d (· = Fd.RMT_STAT.W.key 0)) ∧
    (s.ringMode d ≠ 3 ∨ n = 0 ∨ s.nodes d < n → (∀ r ∈ (s.head d).remotes, r.host = false) → Completes c s fun t =>
      t.rd d Fd.RMT_STAT.STAT = 3 ∧ t.stuckAt d Sk.RING.RMT_FAIL.page Sk.RING.RMT_FAIL.bit = true ∧
      s.OnlyKeys t d fun key => key = Fd.RMT_STAT.W.key 0 ∨ stickyKeys 7 key) ∧
    ((∃ r ∈ (s.head d).remotes, r.host = true) → exec c s = .next s)) ∧
  (∀ (s u : State) (r : Ring) (b : RingBlock) (exp : Nat) (addr data : Word), s.shaped = true → s.sane = true → s.toNode b 1 2 = true →
    exp = nodeSeq s.node.rxSeq 1 → u = (s.nodeReceive r b).2 → addr = BitVec.ofNat 32 (field8 b 1 4) → data = BitVec.ofNat 32 (field8 b 5 4) →
    (goodBlock b = true → (b.seq.toNat % 128 + 128 - exp % 128) % 128 < 64 →
      nodeSeq u.node.rxSeq 1 = (b.seq.toNat + 1) % 128 ∧ s.OnlyKeys u 0 (fun _ => False) ∧
      (field8 b 0 1 = 0 → u.access (u.spot addr.toNat) = .done → u.openSpot (u.spot addr.toNat) = false → u.spot addr.toNat ≠ .nothing →
        exec (.regReq r b) s = .next ((u.lendSpot (u.spot addr.toNat)).nodeQueue 1 3
          ([0] ++ beBytes 4 addr.toNat ++ beBytes 4 (u.show_ (u.spot addr.toNat)).toNat))) ∧
      ∀ v, field8 b 0 1 ≠ 0 → u.access (u.spot addr.toNat) = .done → (u.spot addr.toNat).die = some 0 → u.alive 0 = true →
        exec (.registerWrite addr data) (u.lendSpot (u.spot addr.toNat)) = .next v →
        exec (.regReq r b) s = .next (v.nodeQueue 1 3 ([0] ++ beBytes 4 addr.toNat ++ beBytes 4 data.toNat))) ∧
    (goodBlock b = false ∨ 64 ≤ (b.seq.toNat % 128 + 128 - exp % 128) % 128 → Completes (.regReq r b) s fun t =>
      t.node.bcQ = s.node.bcQ ∧ s.OnlyKeys t 0 fun _ => False)) ∧
  (∀ (s : State) (d : Nat) (r : Ring) (b : RingBlock) (e : Remote), s.shaped = true → s.sane = true → s.toHead d b 1 3 = true →
    goodBlock b = true → b.seq.toNat % 128 = seqOf (s.head d).rxSeq b.src.toNat 1 → (s.head d).remotes = [e] → e.host = true →
    (e.n = b.src.toNat → field8 b 1 4 = e.addr.toNat → Completes (.regRsp d r b) s fun t =>
      (t.head d).remotes = [] ∧ t.rd d Fd.RMT_STAT.STAT = 2 ∧
      (t.rd d Fd.RMT_DATA.W = if e.write then s.rd d Fd.RMT_DATA.W else field8 b 5 4) ∧
      s.OnlyKeys t d fun key => key = Fd.RMT_STAT.W.key 0 ∨ key = Fd.RMT_DATA.W.key 0) ∧
    (¬(e.n = b.src.toNat ∧ field8 b 1 4 = e.addr.toNat) → Completes (.regRsp d r b) s fun t =>
      (t.head d).remotes = [e] ∧ s.OnlyKeys t d fun _ => False)) ∧
  ∀ (s : State) (d t0 : Nat) (e : Remote), s.shaped = true → s.sane = true → s.isHead = true → s.on d 7 = true → (s.head d).remotes = [e] →
    e.host = true → e.ackAt = some t0 →
    (s.td0 < t0 + 200000 → exec (.remoteTimeout d) s = .next s) ∧
    (t0 + 200000 ≤ s.td0 → Completes (.remoteTimeout d) s fun t =>
      (t.head d).remotes = [] ∧ t.rd d Fd.RMT_STAT.STAT = 3 ∧ t.stuckAt d Sk.RING.RMT_FAIL.page Sk.RING.RMT_FAIL.bit = true ∧
      s.OnlyKeys t d fun key => key = Fd.RMT_STAT.W.key 0 ∨ stickyKeys 7 key)

/-- 10 R293, R295. -/
def Obligations.ring_mode_and_reservations : Prop :=
  (∀ (s : State) (d : Nat) (value : Word), s.shaped = true → s.sane = true → s.alive d = true →
    (s.isHead = false → exec (.ringModeWrite d value) s = .next s) ∧
    (s.isHead = true → bitOf value.toNat 31 = false → Completes (.ringModeWrite d value) s fun t =>
      t.rd d Fd.RING_CTRL.MODE = bitsOf value.toNat 1 0 ∧
      (s.rd d Fd.RING_CTRL.MODE = bitsOf value.toNat 1 0 → t.head d = s.head d ∧ s.OnlyKeys t d (· = Fd.RING_CTRL.W.key 0)) ∧
      (s.rd d Fd.RING_CTRL.MODE = 3 → bitsOf value.toNat 1 0 ≠ 3 → (t.head d).bcQ = [] ∧ (t.head d).remotes = [] ∧
        (t.head d).slots = []) ∧
      (s.rd d Fd.RING_CTRL.MODE ≠ 0 → bitsOf value.toNat 1 0 = 0 → (t.head d).slots = [] ∧ (t.head d).stateOut = [] ∧
        (t.head d).enumWait = [] ∧ (t.head d).blockOut = none ∧ ∀ r k, 1 ≤ k → k ≤ 33 → t.linkUp d r k = false) ∧
      s.OnlyKeys t d fun key => pageKeys 7 key ∨ pageKeys 0 key)) ∧
  ∀ (s : State) (d i : Nat) (value : Word), s.shaped = true → s.sane = true → s.alive d = true → i < 16 →
    (s.device = .config → (bitOf value.toNat 31 = false ∨ 1 ≤ bitsOf value.toNat 19 16 ∧ bitsOf value.toNat 19 16 ≤ 8) →
      Completes (.rresWrite d i value) s fun t =>
        t.cell d (Fd.RRES.W.key i) = value &&& 0xB00F0FFF#32 ∧ s.OnlyKeys t d (· = Fd.RRES.W.key i)) ∧
    (s.device ≠ .config ∨ bitOf value.toNat 31 = true ∧ (bitsOf value.toNat 19 16 = 0 ∨ 8 < bitsOf value.toNat 19 16) →
      Completes (.rresWrite d i value) s fun t =>
        t.stuckAt d Sk.RING.RES_REJECTED.page Sk.RING.RES_REJECTED.bit = true ∧ s.OnlyKeys t d (stickyKeys 7))

/-- 11 R299-R311, R317, R321; 12 R336. The command path of a node acts whatever misuse of another block stands (01 R39). -/
def Obligations.bridge_commands : Prop :=
  (∀ (s : State) (b : Nat) (m : Manifest) (e : MEdge) (rest : List MEdge), s.sized = true → s.pathOn = true → b < 3 →
    s.lateDue b = none → (s.bridge b).cur = some m → s.edgeDue b = some (e, rest) →
    (s.heldNow b = false → s.bridgeBlocked b = false → Completes (.edgeExecute b) s fun t =>
      t.Drives b (Pnz.ofCode e.st).code e.stamp ∧ (t.bridge b).cur = some { m with edges := rest } ∧ (t.bridge b).idle = false ∧
      (t.die 0).bg.bypass = (s.die 0).bg.bypass ++ (if b = 0 then [(e.stamp + 80, e.mark)] else []) ∧ s.PathOnly t) ∧
    (s.nodeBlocked = true → s.heldNow b = false → Completes (.edgeExecute b) s fun t =>
      t.Drives b 0 e.stamp ∧ (t.bridge b).cur = some { m with edges := rest } ∧
      (t.die 0).bg.bypass = (s.die 0).bg.bypass ++ (if b = 0 then [(e.stamp + 80, e.mark)] else []) ∧ s.PathOnly t) ∧
    (s.heldNow b = true → (s.bridge b).next = none → Completes (.edgeExecute b) s fun t =>
      (t.bridge b).cur = none ∧ (t.bridge b).idle = (s.bridge b).idle ∧ t.pins = s.pins ∧ s.PathOnly t)) ∧
  (∀ (s : State) (b : Nat) (e : MEdge), s.sized = true → s.pathOn = true → b < 3 → s.lateDue b = some e → s.heldNow b = false →
    s.bridgeBlocked b = false → Completes (.edgeExecute b) s fun t =>
      t.Drives b (Pnz.ofCode e.st).code s.now ∧ (t.bridge b).lateAt = none ∧ (t.bridge b).cur = (s.bridge b).cur ∧ s.PathOnly t) ∧
  (∀ (s : State) (b : Nat) (m : Manifest), s.sized = true → s.pathOn = true → b < 3 → (s.bridge b).cur = some m →
    (s.due m.expiry = false → exec (.manifestExpiry b) s = .next s) ∧
    (s.due m.expiry = true → s.heldNow b = false → (s.bridge b).next = none → Completes (.manifestExpiry b) s fun t =>
      (t.bridge b).cur = none ∧ (t.bridge b).idle = true ∧ t.Drives b 0 m.expiry ∧ s.PathOnly t) ∧
    ∀ n, s.due m.expiry = true → s.heldNow b = false → (s.bridge b).next = some n → Completes (.manifestExpiry b) s fun t =>
      (t.bridge b).cur = some { n with edges := n.edges.filter fun e => decide (m.expiry ≤ e.stamp) } ∧ (t.bridge b).next = none ∧
      (∀ e, (n.edges.filter fun e => decide (e.stamp < m.expiry)).getLast? = some e → s.bridgeBlocked b = false →
        t.Drives b (Pnz.ofCode e.st).code m.expiry) ∧ s.PathOnly t) ∧
  (∀ (s : State) (k : Nat), s.sized = true → k < 6 →
    (s.pathOn = true → (s.leg k).upFall = none → (s.leg k).loFall = none →
      (∀ r, s.riseAt k true = some r → r ≤ s.tickEnd → Completes (.deadTimeEnd k) s fun t =>
        t.gh k = true ∧ t.gl k = s.gl k ∧ s.gl k = false ∧ (t.leg k).blankAt = some (r / 8) ∧
        (∀ j, j < 6 → j ≠ k → t.gh j = s.gh j ∧ t.gl j = s.gl j) ∧ s.PathOnly t) ∧
      (∀ r, s.riseAt k false = some r → r ≤ s.tickEnd → (∀ q, s.riseAt k true = some q → s.tickEnd < q) →
        Completes (.deadTimeEnd k) s fun t =>
          t.gl k = true ∧ t.gh k = s.gh k ∧ s.gh k = false ∧ (t.leg k).blankAt = some (r / 8) ∧
          (∀ j, j < 6 → j ≠ k → t.gh j = s.gh j ∧ t.gl j = s.gl j) ∧ s.PathOnly t) ∧
      ((∀ upper r, s.riseAt k upper = some r → s.tickEnd < r) → exec (.deadTimeEnd k) s = .next s)) ∧
    (∀ r, s.riseAt k true = some r → (s.leg k).loLowAt + s.deadTime k ≤ r + 7) ∧
    (∀ r, s.riseAt k false = some r → (s.leg k).upLowAt + s.deadTime k ≤ r + 7) ∧
    (∀ f, (s.leg k).upFall = some f → f ≤ s.tickEnd → (s.leg k).upRise = none → s.gateTick.gh k = false) ∧
    ∀ f, (s.leg k).loFall = some f → f ≤ s.tickEnd → (s.leg k).loRise = none → s.gateTick.gl k = false) ∧
  (∀ (s : State) (b : Nat) (p n z : Bool × Nat) (c : Pnz), s.sized = true → s.pathOn = true → b < 3 →
    c = ⟨s.accept (s.bridge b).pin.p p, s.accept (s.bridge b).pin.n n, s.accept (s.bridge b).pin.z z⟩ →
    (c = (s.bridge b).pin ∨ s.source4 b ≠ .pins → Completes (.pinCommand b p n z) s fun t =>
      (t.bridge b).pin = c ∧ (t.bridge b).src = (s.bridge b).src ∧ (t.die 0).bg.leg = (s.die 0).bg.leg ∧ s.OnlyKeys t 0 fun _ => False) ∧
    (c ≠ (s.bridge b).pin → s.source4 b = .pins →
      (s.bridgeBlocked b = false → Completes (.pinCommand b p n z) s fun t =>
        t.Drives b c.code s.now ∧ (t.bridge b).src = c ∧ (t.bridge b).pin = c ∧ s.PathOnly t ∧
        (c.conflict = true → c.code = 0 ∧ ((s.bridge b).src.conflict = false →
          t.stuckAt 0 Sk.BG.CMD_CONFLICT.page Sk.BG.CMD_CONFLICT.bit = true))) ∧
      (s.nodeBlocked = true → Completes (.pinCommand b p n z) s fun t =>
        t.Drives b 0 s.now ∧ (t.bridge b).src = c ∧ (t.bridge b).pin = c ∧ s.PathOnly t))) ∧
  ∀ (s : State) (value : Word), s.sized = true → s.sane = true → s.alive 0 = true → Completes (.bgSrcWrite value) s fun t =>
    t.cell 0 0x8060 = (s.cell 0 0x8060 &&& ~~~0x07373737#32) ||| (value &&& 0x07373737#32) ∧
    (∀ b, b < 3 →
      if t.rd 0 (srcField b) = s.rd 0 (srcField b) ∧ t.flag 0 (legField b) = s.flag 0 (legField b) then t.bridge b = s.bridge b
      else (t.bridge b).cur = none ∧ (t.bridge b).next = none ∧ (t.bridge b).idle = true ∧ (t.bridge b).src = Pnz.none ∧
        (t.leg (2 * b)).wait ≠ 0 ∧ (t.leg (2 * b + 1)).wait ≠ 0 ∧ t.Drives b 0 s.now) ∧ s.PathOnly t

/-- 11 R306, R312-R316, R320; 12 R337. -/
def Obligations.modulators : Prop :=
  (∀ (s : State) (x : Domain) (h dir phi inst : Int), s.sized = true → s.dabOn = true → x = s.dom 0 (s.rd 0 Fd.BG_CARR.DAB_DOM) → x.src = 1 →
    halfCrossed x.prev x.pos = some h → dir = (if 0 ≤ x.inc then 1 else -1) → phi = dabShift (s.nodeField 0x10) →
    inst = x.crossing s.td0 (h * halfTurn) →
    (s.bridgeBlocked 1 = false → (s.bridge 1).idle = false → Completes .dabB1Edge s fun t =>
      t.Drives 1 (if h % 2 = 0 then 1 else 2) inst ∧ s.PathOnly t ∧
      (h % 2 = 0 → s.bridgeBlocked 2 = false → (t.bridge 2).idle = false) ∧ ∃ p c, (t.bridge 2).owe = some (p, c) ∧
        if 0 ≤ phi then p = h * halfTurn + dir * phi * 2 ^ 32 ∧ c.code = (if h % 2 = 0 then 1 else 2)
        else p = (h + dir) * halfTurn + dir * phi * 2 ^ 32 ∧ c.code = (if h % 2 = 0 then 2 else 1)) ∧
    (s.bridgeBlocked 1 = false → s.bridgeBlocked 2 = false → (s.bridge 1).idle = true → Completes .dabB1Edge s fun t =>
      (h % 2 = 0 → t.Drives 1 1 inst ∧ (t.bridge 1).idle = false ∧ (t.bridge 2).idle = false) ∧
      (h % 2 ≠ 0 → t.Drives 1 0 inst ∧ (t.bridge 1).idle = true) ∧ s.PathOnly t) ∧
    (s.nodeBlocked = true → Completes .dabB1Edge s fun t => t.Drives 1 0 inst ∧ (t.bridge 1).idle = (s.bridge 1).idle ∧ s.PathOnly t)) ∧
  (∀ (s : State) (x : Domain), s.dabOn = true → x = s.dom 0 (s.rd 0 Fd.BG_CARR.DAB_DOM) → halfCrossed x.prev x.pos = none →
    exec .dabB1Edge s = .next s) ∧
  (∀ (s : State) (x : Domain) (p : Int) (c : Pnz), s.sized = true → s.dabOn = true → (s.bridge 2).owe = some (p, c) →
    x = s.dom 0 (s.rd 0 Fd.BG_CARR.DAB_DOM) →
    ((0 ≤ x.inc ∧ x.pos < p ∨ x.inc < 0 ∧ p < x.pos) → exec .dabB2Edge s = .next s) ∧
    ((0 ≤ x.inc ∧ p ≤ x.pos ∨ x.inc < 0 ∧ x.pos ≤ p) →
      (s.bridgeBlocked 2 = false → (s.bridge 2).idle = false →
        Completes .dabB2Edge s fun t => t.Drives 2 c.code (x.crossing s.td0 p) ∧ (t.bridge 2).owe = none ∧ s.PathOnly t) ∧
      (s.nodeBlocked = true →
        Completes .dabB2Edge s fun t => t.Drives 2 0 (x.crossing s.td0 p) ∧ (t.bridge 2).owe = none ∧ s.PathOnly t))) ∧
  (∀ (s : State) (k : Nat) (c : Int) (up lo : Bool), s.sized = true → s.legModeOn k = true →
    c = (match s.boundaryNow k with
      | some (b, _) => if (s.leg k).peakAt = some (s.td0 : Int) then carrier (s.carrierPos k (s.dom 0 (s.rd 0 Fd.BG_CARR.LMOD_DOM)).pos)
        else if b % 2 = 0 then 2 ^ 46 else -(2 ^ 46)
      | none => carrier (s.carrierPos k (s.dom 0 (s.rd 0 Fd.BG_CARR.LMOD_DOM)).pos)) →
    up = decide (c < (s.leg k).hk.toInt * 2 ^ 31) → lo = decide ((s.leg k).lk.toInt * 2 ^ 31 ≤ c) →
    (up = (s.leg k).srcUp → lo = (s.leg k).srcLo → exec (.legCrossing k) s = .next s) ∧
    (¬(up = (s.leg k).srcUp ∧ lo = (s.leg k).srcLo) → Completes (.legCrossing k) s fun t =>
      (t.leg k).srcUp = up ∧ (t.leg k).srcLo = lo ∧
      (∃ inst, (s.boundaryNow k = none → s.now - 8 ≤ inst ∧ inst ≤ s.now) ∧
        (s.bridgeBlocked (k / 2) = false → (s.leg k).wait = 0 → t.LegAt k (up && !lo) (lo && !up) inst) ∧
        (s.nodeBlocked = true → t.LegAt k false false inst)) ∧
      (up = true → lo = true → (s.leg k).srcUp = false ∨ (s.leg k).srcLo = false →
        t.stuckAt 0 Sk.BG.SHOOT_THROUGH.page Sk.BG.SHOOT_THROUGH.bit = true) ∧ s.PathOnly t)) ∧
  ∀ (s : State) (k : Nat), s.sized = true → s.legModeOn k = true →
    (s.boundaryNow k = none ∨ (s.leg k).peakAt = some (s.td0 : Int) → exec (.carrierPeak k) s = .next s) ∧
    ∀ b i c, s.boundaryNow k = some (b, i) → (s.leg k).peakAt ≠ some (s.td0 : Int) → c = (if b % 2 = 0 then 2 ^ 46 else -(2 ^ 46) : Int) →
      Completes (.carrierPeak k) s fun t =>
        (t.leg k).hk = s.nodeField (0x11 + 2 * k) ∧ (t.leg k).lk = s.nodeField (0x12 + 2 * k) ∧ (t.leg k).peakAt = some (s.td0 : Int) ∧
        (t.leg k).srcUp = decide (c < (s.nodeField (0x11 + 2 * k)).toInt * 2 ^ 31) ∧
        (t.leg k).srcLo = decide ((s.nodeField (0x12 + 2 * k)).toInt * 2 ^ 31 ≤ c) ∧
        (s.bridgeBlocked (k / 2) = false → (b % 2 = 0 ∨ (s.leg k).wait = 1) → (t.leg k).wait = 0 ∧
          t.LegAt k ((t.leg k).srcUp && !(t.leg k).srcLo) ((t.leg k).srcLo && !(t.leg k).srcUp) i) ∧
        (s.bridgeBlocked (k / 2) = true → s.nodeBlocked = true → (t.leg k).wait = (s.leg k).wait) ∧ s.PathOnly t

/-- 12 R325-R330, R332, R333, R338-R340. -/
def Obligations.bridge_guard : Prop :=
  (∀ (s : State) (c : Instr) (k cause : Nat) (senses : List Nat) (low : List Bool), s.sized = true → s.guardOn = true → k < 6 →
    s.trippedNow k = false → (∀ j, (s.leg j).freed = none) →
    (senses ≠ [] ∧ cause = s.tripCause k senses ∧ cause ≠ 0 ∧ (c = .trip k senses ∨ c = .endBlank k senses ∧ s.blankOver k = true)) ∨
      (cause = 4 ∧ c = .driverTrip k low ∧ s.lowCount k low = 4 ∧ bitOf (s.rd 0 Fd.BG_GCFG.GFLT_EN) k = true) →
    Completes c s fun t =>
      (∀ j ∈ s.tripScope k, (t.leg j).heldAt = some ((s.leg j).heldAt.getD (s.td0 : Int)) ∧ (t.leg j).up = false ∧ (t.leg j).lo = false ∧
        (t.leg j).tripAt = some (s.td0 : Int) ∧ ∃ f, (t.leg j).fallAt = some f ∧ f ≤ s.td0 + 8) ∧
      t.stuckAt 0 Sk.BG.TRIP.page Sk.BG.TRIP.bit = true ∧
      t.rd 0 Fd.BG_COUNTS.TRIPS = min (s.rd 0 Fd.BG_COUNTS.TRIPS + 1) Fd.BG_COUNTS.TRIPS.max ∧
      ((s.die 0).bg.recAt ≠ some (s.td0 : Int) → (∀ j, j < 6 → s.heldBefore j = false) →
        t.rd 0 Fd.BG_TRIP.FIRST_LEG = k ∧ t.rd 0 Fd.BG_TRIP.FIRST_CAUSE = cause ∧ t.rd 0 Fd.BG_TRIP_T.W = loWord s.td0) ∧
      0x80 + k ∈ (t.die 0).flt.present ∧ (∃ w, (t.bridge (k / 2)).slowAt = some w ∧ w ≤ s.td0 + 2) ∧ s.PathOnly t) ∧
  (∀ (s : State) (k : Nat) (a : Int) (senses : List Nat), (s.leg k).high = some (a, none) → a + 16 ≤ s.td0 → senses.length = 16 →
    (∀ i : Nat, i < 16 → s.asserted k false ((s.td0 : Int) - 1 - i) (senses.getD i 0) = true) → s.blanked k = false →
    s.asserted k true (s.td0 - 1) (senses.getD 0 0) = false → s.tripCause k senses = 2) ∧
  (∀ (s : State) (k v : Nat) (rest : List Nat), s.sized = true → s.guardOn = true → k < 6 →
    (s.tripCause k (v :: rest) = 0 → Completes (.trip k (v :: rest)) s fun t =>
      t.flag 0 (senseField 0 k) = s.asserted k false (s.td0 - 1) v ∧ t.flag 0 (senseField 1 k) = s.asserted k true (s.td0 - 1) v ∧
      (t.die 0).bg = (s.die 0).bg ∧ s.OnlyKeys t 0 (· = (senseField 0 k).key 0)) ∧
    (s.trippedNow k = true → Completes (.trip k (v :: rest)) s fun t =>
      (t.die 0).bg.leg = (s.die 0).bg.leg ∧ (t.die 0).bg.bridge = (s.die 0).bg.bridge ∧ t.pins = s.pins ∧
      t.rd 0 Fd.BG_COUNTS.TRIPS = s.rd 0 Fd.BG_COUNTS.TRIPS ∧ s.PathOnly t) ∧
    exec (.trip k []) s = .next s ∧ (s.blankOver k = false → exec (.endBlank k (v :: rest)) s = .next s)) ∧
  (∀ (s : State) (k : Nat) (low : List Bool), s.sized = true → s.guardOn = true → k < 6 →
    s.lowCount k low ≠ 4 ∨ bitOf (s.rd 0 Fd.BG_GCFG.GFLT_EN) k = false →
    Completes (.driverTrip k low) s fun t =>
      t.flag 0 (senseField 2 k) = low.headD false ∧ (t.die 0).bg = (s.die 0).bg ∧ s.OnlyKeys t 0 (· = (senseField 0 k).key 0)) ∧
  (∀ (s : State) (b : Nat) (t0 : Int), s.sized = true → s.pathOn = true → b < 3 →
    ((s.bridge b).slowAt = some t0 → t0 ≤ s.td0 → Completes (.slowHigh b) s fun t =>
      bitOf t.pins.slow.toNat b = true ∧ (t.bridge b).slowAt = none ∧ t.pins.gh = s.pins.gh ∧ t.pins.gl = s.pins.gl ∧ s.PathOnly t) ∧
    ((s.bridge b).slowEnd = some t0 → t0 ≤ s.td0 → Completes (.slowHoldEnd b) s fun t =>
      bitOf t.pins.slow.toNat b = false ∧ (t.bridge b).slowEnd = none ∧ t.pins.gh = s.pins.gh ∧ t.pins.gl = s.pins.gl ∧ s.PathOnly t) ∧
    ((s.bridge b).slowAt = some t0 → s.td0 < t0 → exec (.slowHigh b) s = .next s) ∧
    ((s.bridge b).slowEnd = some t0 → s.td0 < t0 → exec (.slowHoldEnd b) s = .next s)) ∧
  (∀ (s : State) (k : Nat) (t0 : Int), s.sized = true → s.pathOn = true → k < 6 → (s.leg k).fallAt = some t0 →
    (t0 ≤ s.td0 → Completes (.gatesLow k) s fun t =>
      t.gh k = false ∧ t.gl k = false ∧ (t.leg k).fallAt = none ∧ (t.leg k).upRise = none ∧ (t.leg k).loRise = none ∧
      (∀ j, j < 6 → j ≠ k → t.gh j = s.gh j ∧ t.gl j = s.gl j) ∧ s.PathOnly t) ∧
    (s.td0 < t0 → exec (.gatesLow k) s = .next s)) ∧
  ∀ (s : State) (legs gflt : BitVec 6) (senses : List Nat) (sensed : Nat → Bool), s.sized = true → s.pathOn = true →
    (∀ k, sensed k = (s.asserted k false s.td0 (senses.getD k 0) || s.asserted k true s.td0 (senses.getD k 0) || bitOf gflt.toNat k)) →
    Completes (.unlock legs senses gflt) s fun t =>
    (∀ k, k < 6 →
      (bitOf legs.toNat k = true → sensed k = false → t.flag 0 (lockField k) = false ∧
        (s.flag 0 (lockField k) = true → (t.leg k).hist = [] ∧ (t.leg k).offDone = true)) ∧
      (bitOf legs.toNat k = true → sensed k = true → s.flag 0 (lockField k) = true →
        t.flag 0 (lockField k) = true ∧ t.stuckAt 0 Sk.BG.UNLOCK_REFUSED.page Sk.BG.UNLOCK_REFUSED.bit = true) ∧
      (bitOf legs.toNat k = false → t.flag 0 (lockField k) = s.flag 0 (lockField k) ∧ t.leg k = s.leg k)) ∧
    ((∀ k, k < 6 → t.flag 0 (lockField k) = false) → 0x88 ∉ (t.die 0).flt.present) ∧ t.pins = s.pins ∧ s.PathOnly t

/-- 13 R344-R348, R350, R362. The guard and the loss of a PLL act whatever misuse stands (13 R358; 00 R14). -/
def Obligations.references : Prop :=
  (∀ (s : State) (d n : Nat) (second : Bool), s.shaped = true → s.guardClock d = true →
    (n < 3 → exec (.referenceLost d second n) s = .next s) ∧
    (3 ≤ n → Completes (.referenceLost d second n) s fun t =>
      (∀ k ∈ s.refDies d, t.flag k (refOk second) = false ∧
        (s.refSecond k = second → (s.die k).clk.holdT = none → s.flag k (refOk (!second)) = true →
          t.rd k Fd.CLK_STATUS.REF = s.refCode (!second) ∧ t.stuckAt k Sk.CLK.FAILOVER.page Sk.CLK.FAILOVER.bit = true ∧
          t.stuckAt k Sk.CLK.PHASE_STEP.page Sk.CLK.PHASE_STEP.bit = true) ∧
        (s.refSecond k = second → (s.die k).clk.holdT = none → s.flag k (refOk (!second)) = false →
          t.flag k Fd.CLK_STATUS.TPLL_HOLD = true ∧ (t.die k).clk.holdT = some ((s.td0 : Int), s.holdTicks k) ∧
          ((s.die k).clk.fgated = false → t.flag k Fd.CLK_STATUS.FPLL_HOLD = true ∧ (t.die k).clk.holdF = (t.die k).clk.holdT) ∧
          8000 ≤ s.holdTicks k ∧ s.holdTicks k ≤ 80000 ∧ t.stuckAt k Sk.CLK.REF_LOSS.page Sk.CLK.REF_LOSS.bit = true) ∧
        (s.refSecond k ≠ second → t.rd k Fd.CLK_STATUS.REF = s.rd k Fd.CLK_STATUS.REF ∧ (t.die k).clk = (s.die k).clk)) ∧
      s.OnlyOn t fun e key => e ∈ s.refDies d ∧ (key = Fd.CLK_STATUS.W.key 0 ∨ stickyKeys 1 key))) ∧
  (∀ (s : State) (d n : Nat) (second cdr : Bool), s.shaped = true → s.sane = true → s.guardClock d = true →
    (n < 64 ∨ cdr = false ∧ 2 ≤ s.refCode second → exec (.referencePresent d second n cdr) s = .next s) ∧
    (64 ≤ n → cdr = true ∨ s.refCode second < 2 → Completes (.referencePresent d second n cdr) s fun t =>
      (∀ k ∈ s.refDies d, t.flag k (refOk second) = true ∧
        (inWindow s.td0 (s.die k).clk.holdT = true → (t.die k).clk.holdT = none ∧ t.flag k Fd.CLK_STATUS.TPLL_HOLD = false ∧
          t.rd k Fd.CLK_STATUS.REF = s.refCode second ∧ t.stuckAt k Sk.CLK.PHASE_STEP.page Sk.CLK.PHASE_STEP.bit = true ∧
          (s.isHead = false → t.flag 0 Fd.RING_STATUS.TRUSTED = false)) ∧
        (inWindow s.td0 (s.die k).clk.holdF = true → (t.die k).clk.holdF = none ∧ t.flag k Fd.CLK_STATUS.FPLL_HOLD = false)) ∧
      s.OnlyOn t fun e key => e ∈ s.refDies d ∧ (key = Fd.CLK_STATUS.W.key 0 ∨ stickyKeys 1 key ∨
        s.isHead = false ∧ (pageKeys 7 key ∨ pageKeys 8 key ∨ key = ctxKey 1 0)))) ∧
  (∀ (s : State) (d : Nat), s.shaped = true → s.sane = true → s.alive d = true →
    (d = 0 → s.flag 0 (refOk s.prefSecond) = true → s.refSecond 0 ≠ s.prefSecond → Completes (.refReturn d) s fun t =>
      (∀ k ∈ s.refDies 0, t.rd k Fd.CLK_STATUS.REF = s.refCode s.prefSecond ∧
        t.stuckAt k Sk.CLK.PHASE_STEP.page Sk.CLK.PHASE_STEP.bit = true) ∧
      s.OnlyOn t fun e key => e ∈ s.refDies 0 ∧ (key = Fd.CLK_STATUS.W.key 0 ∨ stickyKeys 1 key)) ∧
    (d ≠ 0 ∨ s.flag 0 (refOk s.prefSecond) = false ∨ s.refSecond 0 = s.prefSecond → exec (.refReturn d) s = .next s)) ∧
  (∀ (s : State) (d n : Nat) (t0 : Int), s.shaped = true → s.alive d = true →
    ((s.die d).clk.holdT = some (t0, n) → ((s.td0 : Int) < t0 + n → exec (.holdoverEnd d .tpll) s = .next s) ∧
      (t0 + n ≤ s.td0 → Completes (.holdoverEnd d .tpll) s fun t =>
        (t.die d).gated = true ∧ t.rd d Fd.LOSS_REC.W = 2 ^ 31 + 3 ∧ t.rd d Fd.LOSS_T_LO.W = loWord s.td0)) ∧
    ((s.die d).clk.holdF = some (t0, n) → ((s.td0 : Int) < t0 + n → exec (.holdoverEnd d .fpll) s = .next s) ∧
      (t0 + n ≤ s.td0 → Completes (.holdoverEnd d .fpll) s fun t =>
        t.flag d Fd.CLK_STATUS.FPLL_LOCK = false ∧ (t.die d).clk.fgated = true ∧ 0x011 ∈ (t.die d).flt.present))) ∧
  ∀ (s : State) (d : Nat), s.shaped = true → s.sane = true → s.alive d = true → (s.die d).clk.started = true →
    s.flag d (refOk (s.refSecond d)) = true →
    ((s.die d).clk.holdT = none → Completes (.pllRelock d .tpll) s fun t =>
      t.flag d Fd.CLK_STATUS.TPLL_LOCK = true ∧ s.OnlyKeys t d (· = Fd.CLK_STATUS.W.key 0)) ∧
    ((s.die d).clk.holdF = none → (s.die d).clk.fgated = false → Completes (.pllRelock d .fpll) s fun t =>
      t.flag d Fd.CLK_STATUS.FPLL_LOCK = true ∧ s.OnlyKeys t d (· = Fd.CLK_STATUS.W.key 0)) ∧
    ((s.die d).clk.holdF = none → (s.die d).clk.fgated = true → Completes (.pllRelock d .fpll) s fun t =>
      t.flag d Fd.CLK_STATUS.FPLL_LOCK = true ∧ (t.die d).clk.fgated = false ∧ 0x011 ∉ (t.die d).flt.present ∧
      t.stuckAt d Sk.CLK.PHASE_STEP.page Sk.CLK.PHASE_STEP.bit = true ∧
      (∀ i, s.bandFor d fpllTab 6272 6400 = some i → t.rd d Fd.BAND_USE.FPLL_CAP = s.rd d (fpllTab Fd.TPLL_BAND.CAP) i) ∧
      (s.isHead = true → t.flag d Fd.REC_STATUS.DRAM_OK = true) ∧
      s.OnlyKeys t d fun key => key = Fd.CLK_STATUS.W.key 0 ∨ key = Fd.BAND_USE.FPLL_CAP.key 0 ∨ stickyKeys 1 key ∨
        key = Fd.REC_STATUS.DRAM_OK.key 0)

/-- 13 R351-R362; that die 0's loss takes the package to LOCKOUT is 13 R361 as the surviving dies show it (DEDUCED, log entry 98). -/
def Obligations.clock_losses : Prop :=
  (∀ (s : State) (d still ago : Nat) (errs : List Int), s.shaped = true → s.alive d = true →
    (lossOf errs still = none → exec (.clkGated d errs still ago) s = .next s) ∧
    ∀ cause, lossOf errs still = some cause →
      (cause = .lockLost ↔ 4 ≤ errs.length ∧ ∀ e ∈ errs.drop (errs.length - 4), 625 < e.natAbs) ∧
      Completes (.clkGated d errs still ago) s fun t =>
        let last := s.td0 - (if cause = .lockLost then 0 else ago)
        (t.die d).gated = true ∧ t.alive d = false ∧ t.rd d Fd.LOSS_REC.W = 2 ^ 31 + lossCode cause ∧
        t.rd d Fd.LOSS_T_LO.W = loWord last ∧ t.rd d Fd.LOSS_T_HI.W = hiWord last ∧ t.pins.bypass = s.pins.bypass ∧
        (∀ k, k < s.part.dies → (t.die k).flt.noClear = true) ∧
        (d = 0 → t.pins.permit = false ∧ t.pins.gh = 0 ∧ t.pins.gl = 0 ∧ t.pins.slow = 0 ∧ t.pins.soa = 0 ∧ t.pins.tp = 0) ∧
        (d = 1 → t.pins.sob = 0) ∧ (s.isHead = true → d = 0 → s.movedAt ≠ some s.td0 → t.device = .lockout) ∧
        (s.isHead = true → d ≠ 0 → d * 256 + 0x010 ∈ (t.die 0).flt.present) ∧
        (s.isHead = false ∨ d ≠ 0 → t.device = s.device ∧
          s.OnlyOn t fun e key => e = d ∧ key ∈ [Fd.LOSS_REC.W.key 0, Fd.LOSS_T_LO.W.key 0, Fd.LOSS_T_HI.W.key 0])) ∧
  (∀ (s : State) (d still : Nat) (errs : List Int), s.shaped = true → s.alive d = true → (s.die d).clk.fgated = false →
    (lossOf errs still = none → exec (.fpllLoss d errs still) s = .next s) ∧
    (lossOf errs still ≠ none → Completes (.fpllLoss d errs still) s fun t =>
      t.flag d Fd.CLK_STATUS.FPLL_LOCK = false ∧ t.stuckAt d Sk.CLK.FPLL_LOSS.page Sk.CLK.FPLL_LOSS.bit = true ∧
      0x011 ∈ (t.die d).flt.present ∧ (t.die d).clk.holdF = none ∧ (t.die d).clk.fgated = true ∧ t.device = s.device ∧
      (s.isHead = true → t.flag d Fd.REC_STATUS.DRAM_OK = false ∧ (t.die d).recorder.dram = [] ∧ (∀ x ∈ t.fabric, x.die ≠ d) ∧
        ∀ l e, s.peer d l = some e → t.flag d (linkFld l) = false) ∧
      (s.isHead = false → s.OnlyKeys t d fun key => key = Fd.CLK_STATUS.W.key 0 ∨ stickyKeys 1 key))) ∧
  (∀ (s : State) (d : Nat), s.shaped = true → s.alive d = true →
    Completes (.dllLoss d) s fun t => t.flag d Fd.CLK_STATUS.DLL_LOCK = false ∧
      t.stuckAt d Sk.CLK.DLL_LOST.page Sk.CLK.DLL_LOST.bit = true ∧ 0x012 ∈ (t.die d).flt.present ∧
      s.OnlyKeys t d fun key => key = Fd.CLK_STATUS.W.key 0 ∨ stickyKeys 1 key) ∧
  (∀ (s : State) (d : Nat), s.shaped = true → s.sane = true → s.alive d = true →
    ((s.die d).clk.started = true → Completes (.dllRelock d) s fun t => t.flag d Fd.CLK_STATUS.DLL_LOCK = true ∧
      0x012 ∉ (t.die d).flt.present ∧ s.OnlyKeys t d (· = Fd.CLK_STATUS.W.key 0)) ∧
    ((s.die d).clk.started = false → exec (.dllRelock d) s = .next s) ∧
    (s.updateBad d = true → Completes (.update d) s fun t => t.stuckAt d Sk.CLK.DIV_REJECT.page Sk.CLK.DIV_REJECT.bit = true ∧
      (t.die d).clk = (s.die d).clk ∧ s.OnlyKeys t d (stickyKeys 1)) ∧
    (s.updateBad d = false → Completes (.update d) s fun t =>
      (t.die d).clk = { (s.die d).clk with update := some (s.shadows d) } ∧ t.flag d Fd.CLK_STATUS.UPD_PEND = true ∧
      s.OnlyKeys t d (· = Fd.CLK_STATUS.W.key 0)) ∧
    (∀ new, s.td0 % 32 = 0 → (s.die d).clk.update = some new → ((s.detect d).die d).clk.applied = new ∧
      ((s.detect d).die d).clk.update = none ∧ (s.detect d).flag d Fd.CLK_STATUS.UPD_PEND = false ∧
      (bitOf (new.getD 3 0).toNat 31 = true → (s.die d).clk.spread = none →
        ((s.detect d).die d).clk.spread = some (s.td0 * triangleUnit, (new.getD 3 0).toNat)) ∧
      ((new.getD 4 0).toNat ≠ s.inForce d 4 → ((s.detect d).die d).clk.lfsr = seedOf (new.getD 4 0).toNat) ∧
      s.OnlyKeys (s.detect d) d (· = Fd.CLK_STATUS.W.key 0))) ∧
  (∀ (s : State) (d khz : Nat), s.shaped = true → s.sane = true → s.alive d = true → Completes (.guardFail d khz) s fun t =>
    t.rd d Fd.GUARD_FREQ.KHZ = min khz 65535 ∧
    (12000 ≤ khz ∧ khz ≤ 28000 → t.flag d Fd.CLK_STATUS.GUARD_OK = true ∧ 0x013 ∉ (t.die d).flt.present) ∧
    (khz < 12000 ∨ 28000 < khz → t.flag d Fd.CLK_STATUS.GUARD_OK = false ∧ 0x013 ∈ (t.die d).flt.present ∧
      t.stuckAt d Sk.CLK.GUARD_FAIL.page Sk.CLK.GUARD_FAIL.bit = true) ∧
    s.OnlyKeys t d fun key => key = Fd.CLK_STATUS.W.key 0 ∨ key = Fd.GUARD_FREQ.KHZ.key 0 ∨ stickyKeys 1 key) ∧
  ∀ (s : State) (d tFor fFor : Nat) (tvt fvt : Byte), s.shaped = true → s.sane = true → s.alive d = true →
    Completes (.vtEdge d tvt fvt tFor fFor) s fun t =>
      t.rd d Fd.VTUNE.TPLL_VT = tvt.toNat ∧ t.rd d Fd.VTUNE.FPLL_VT = fvt.toNat ∧
      ((tvt.toNat < 16 ∨ 239 < tvt.toNat) ∧ 800000 ≤ tFor ∨ (fvt.toNat < 16 ∨ 239 < fvt.toNat) ∧ 800000 ≤ fFor →
        t.stuckAt d Sk.CLK.VT_EDGE.page Sk.CLK.VT_EDGE.bit = true) ∧
      s.OnlyKeys t d fun key => key = Fd.VTUNE.TPLL_VT.key 0 ∨ stickyKeys 1 key

/-- 14 R367-R374, R388, R392. -/
def Obligations.station_ports : Prop :=
  (∀ (s : State) (d speed : Nat) (pcs an full : Bool), s.shaped = true → s.sane = true → s.netOn d = true →
    let known := pcs = true ∧ (an = true ∨ s.rd d Fd.NET_CFG.IF ≠ 1 ∧ s.flag d Fd.NET_CFG.AN = false)
    let good := known ∧ speed = 1000 ∧ full = true
    (good → s.flag d Fd.NET_STATUS.LINK_UP = false → Completes (.netLinkChange d pcs an speed full) s fun t =>
      t.flag d Fd.NET_STATUS.LINK_UP = true ∧ t.flag d Fd.NET_STATUS.PCS_SYNC = true ∧ t.ptpState d = 4 ∧
      s.OnlyOn t fun e key => e = d ∧ key = Fd.NET_STATUS.W.key 0 ∨ e = 0 ∧ key = Fd.PTP_STAT.W.key 0) ∧
    (good → s.flag d Fd.NET_STATUS.LINK_UP = true → Completes (.netLinkChange d pcs an speed full) s fun t =>
      t.flag d Fd.NET_STATUS.LINK_UP = true ∧ s.OnlyKeys t d (· = Fd.NET_STATUS.W.key 0)) ∧
    (¬good → Completes (.netLinkChange d pcs an speed full) s fun t => t.flag d Fd.NET_STATUS.LINK_UP = false ∧ t.portUp d = false ∧
      t.flag d Fd.NET_STATUS.PCS_SYNC = pcs ∧
      (s.flag d Fd.NET_STATUS.LINK_UP = true → t.stuckAt d Sk.NET.LINK_DOWN.page Sk.NET.LINK_DOWN.bit = true) ∧
      (known → t.stuckAt d Sk.NET.SPEED_ERR.page Sk.NET.SPEED_ERR.bit = true) ∧
      s.OnlyOn t fun e key => e = d ∧ (key = Fd.NET_STATUS.W.key 0 ∨ stickyKeys 9 key) ∨ e = 0 ∧ key = Fd.PTP_STAT.W.key 0)) ∧
  (∀ (s : State) (phy reg : BitVec 5) (data : BitVec 16) (write : Bool) (c : Instr), s.shaped = true → s.sane = true → s.isHead = true →
    s.alive 0 = true → c = (if write then .mdioWrite phy reg data else .mdioRead phy reg) →
    (s.flag 0 Fd.NET_STATUS.MDIO_BUSY = false → Completes c s fun t => t.flag 0 Fd.NET_STATUS.MDIO_BUSY = true ∧
      (t.net 0).mdio = some (s.td0, write, phy, reg, if write then data else 0) ∧ s.OnlyKeys t 0 (· = Fd.NET_STATUS.W.key 0)) ∧
    (s.flag 0 Fd.NET_STATUS.MDIO_BUSY = true → exec c s = .next s) ∧
    ∀ m, (s.net 0).mdio = some m →
      (s.td0 < m.1 + 20480 → exec (.mdioDone data) s = .next s) ∧
      (m.1 + 20480 ≤ s.td0 → Completes (.mdioDone data) s fun t => t.flag 0 Fd.NET_STATUS.MDIO_BUSY = false ∧
        (t.net 0).mdio = none ∧ (m.2.1 = false → t.rd 0 Fd.MDIO_DATA.DATA = data.toNat) ∧
        s.OnlyKeys t 0 fun key => key = Fd.NET_STATUS.W.key 0 ∨ m.2.1 = false ∧ key = Fd.MDIO_DATA.W.key 0)) ∧
  (∀ (s : State) (d : Nat) (f : EthFrame), s.shaped = true → s.sane = true → s.portUp d = true →
    (f.fcsOk = false ∨ f.length < 64 ∨ 1522 < f.length → Completes (.frameReceive d f) s fun t =>
      t.stuckAt d Sk.NET.RX_BAD.page Sk.NET.RX_BAD.bit = true ∧ s.OnlyKeys t d (stickyKeys 9)) ∧
    (f.fcsOk = true → 64 ≤ f.length → f.length ≤ 1522 →
      (s.takesDst d f = false ∨ 1 < f.tags ∨ s.netMode = 2 ∧ f.source = s.macOf 0 → exec (.frameReceive d f) s = .next s) ∧
      (s.takesDst d f = true → f.tags ≤ 1 → ¬(s.netMode = 2 ∧ f.source = s.macOf 0) →
        (s.frameKind d f = .other → Completes (.frameReceive d f) s fun t =>
          t.rd d Fd.PORT_COUNTS.RX_OTHER = min (s.rd d Fd.PORT_COUNTS.RX_OTHER + 1) Fd.PORT_COUNTS.RX_OTHER.max ∧
          s.OnlyKeys t d (· = Fd.PORT_COUNTS.W.key 0)) ∧
        (s.frameKind d f = .ptp ∨ s.frameKind d f = .supervision → exec (.frameReceive d f) s = .next s) ∧
        ∀ h k, s.frameKind d f = .arp ∧ h = Handler.arp ∨ s.frameKind d f = .safety ∧ h = .safety ∨
            s.frameKind d f = .management ∧ h = .management → k = Kept.mk f.source f.sequence s.td0 (f.udp.map fun u => (u.1, u.2.1)) f.payload →
          (s.netMode = 0 ∨ f.sequence = none ∨ (∃ q, f.sequence = some q ∧
              (s.net 0).dups.find? (fun e => e.1 == f.source && e.2.1 == q && decide (s.td0 < e.2.2.2 + dupTicks)) = none) →
            Completes (.frameReceive d f) s fun t =>
              (h ≠ .management → (t.net d).kept = (s.net d).kept ++ [(h, k)] ∧ t.fabric = s.fabric) ∧
              (h = .management → d = 0 → (t.net 0).requests = (s.net 0).requests ++ [(0, k)] ∧ t.fabric = s.fabric) ∧
              (h = .management → d = 1 → s.blockEn 1 0x10 = true →
                t.fabric = s.fabric ++ [⟨1, 6, 0, 1, s.td0, 1, s.td0 + 2, .request k⟩]) ∧
              (∀ q, s.netMode ≠ 0 → f.sequence = some q → (t.net 0).dups.head? = some (f.source, q, d, s.td0)) ∧
              s.OnlyOn t fun _ _ => False) ∧
          ∀ q e, s.netMode ≠ 0 → f.sequence = some q →
            (s.net 0).dups.find? (fun e => e.1 == f.source && e.2.1 == q && decide (s.td0 < e.2.2.2 + dupTicks)) = some e →
            (¬(d = 0 ∧ e.2.2.1 = 1 ∧ e.2.2.2 = s.td0) → Completes (.frameReceive d f) s fun t =>
              t.rd d Fd.PORT_COUNTS.DUP_DROP = min (s.rd d Fd.PORT_COUNTS.DUP_DROP + 1) Fd.PORT_COUNTS.DUP_DROP.max ∧
              s.OnlyKeys t d (· = Fd.PORT_COUNTS.W.key 0)) ∧
            (d = 0 → e.2.2.1 = 1 → e.2.2.2 = s.td0 → Completes (.frameReceive d f) s fun t =>
              t.rd 1 Fd.PORT_COUNTS.DUP_DROP = min (s.rd 1 Fd.PORT_COUNTS.DUP_DROP + 1) Fd.PORT_COUNTS.DUP_DROP.max ∧
              s.OnlyOn t fun x key => x = 1 ∧ key = Fd.PORT_COUNTS.W.key 0)))) ∧
  (∀ (s : State) (d : Nat), s.shaped = true → s.sane = true → s.portUp d = true →
    (∀ k u, s.takeKept d .arp = some (k, u) → (s.net d).kept.find? (fun e => e.1 == .arp) = some (.arp, k) ∧
      Completes (.arpRequest d) s fun t =>
        (t.net d).tx = .arpReply k.source (s.macOf (s.addrDie d)) ∧ (t.net d).kept = (s.net d).kept.erase (.arp, k) ∧
        (s.netMode = 0 → (t.net d).red = none) ∧
        (∀ p, p < 2 → s.netMode ≠ 0 → s.portUp p = true → (t.net p).tx = .arpReply k.source (s.macOf (s.addrDie d)) ∧
          (t.net p).red = some ⟨s.netMode == 2, (s.net 0).redSeq, 10 + p, 52⟩) ∧
        s.OnlyOn t fun _ _ => False) ∧
    (s.takeKept d .arp = none → exec (.arpRequest d) s = .next s) ∧
    (∀ k u, s.takeKept d .safety = some (k, u) → Completes (.safetyTelegram d) s fun t =>
      (t.die d).saf.inbox = (s.die d).saf.inbox ++ [(k.tick, k.payload.take 48)] ∧
      (s.blockEn d 0x10 = true →
        t.fabric = s.fabric ++ [⟨d, 6, 1 - d, 1, s.td0, d, s.td0 + 2, .telegram k.tick (k.payload.take 48)⟩]) ∧
      s.OnlyOn t fun _ _ => False) ∧
    (s.takeKept d .safety = none → exec (.safetyTelegram d) s = .next s)) ∧
  (∀ s : State, s.shaped = true → s.sane = true → s.netOn 0 = true → s.netMode ≠ 0 →
    ((s.net 0).lastLife + s.rd 0 Fd.RED_CFG.LIFE_MS * 800000 ≤ s.td0 →
      Completes .supervisionSend s fun t => (t.net 0).lastLife = s.td0 ∧
        (∀ p, s.portUp p = true → (t.net p).tx = .supervision) ∧ s.OnlyOn t fun _ _ => False) ∧
    (s.td0 < (s.net 0).lastLife + s.rd 0 Fd.RED_CFG.LIFE_MS * 800000 → exec .supervisionSend s = .next s)) ∧
  (∀ (s : State) (d res : Nat) (f : EthFrame), s.shaped = true → s.sane = true → s.portUp d = true → s.netMode = 2 →
    (f.fcsOk = true → f.source ≠ s.macOf 0 → f.dst ≠ s.macOf 0 → Completes (.hsrForward d f res) s fun t =>
      (s.portUp (1 - d) = true → (t.net (1 - d)).tx = .forwarded f (s.correction d f res) ∧ (t.net (1 - d)).tagged = false) ∧
      s.OnlyKeys t (1 - d) fun _ => False) ∧
    (f.fcsOk = false ∨ f.source = s.macOf 0 ∨ f.dst = s.macOf 0 → exec (.hsrForward d f res) s = .next s)) ∧
  ∀ (s : State) (d : Nat), s.shaped = true → s.sane = true → s.isHead = true → d < 2 → s.alive d = true → Completes (.duplicateExpiry d) s fun t =>
    (t.net 0).dups = (s.net 0).dups.filter (fun e => decide (s.td0 < e.2.2.2 + dupTicks)) ∧ s.OnlyKeys t 0 fun _ => False

/-- 14 R389, R390; 19 R504. -/
def Obligations.management_frames : Prop :=
  ∀ (s : State) (d ctr : Nat) (b : List Byte) (k : Kept) (rest : List (Nat × Kept)), s.shaped = true → s.sane = true → s.alive 0 = true →
    s.blockEn 0 9 = true → (s.net 0).requests = (d, k) :: rest → b = k.payload → ctr = beNat (slice b (mgmtEnd b) 8) →
    (∀ e, e ≠ d → exec (.managementFrame e) s = .next s) ∧
    (d < s.part.dies → mgmtForm b = false → Completes (.managementFrame d) s fun t => (t.net 0).requests = rest ∧
      t.stuckAt d Sk.NET.MGMT_REJECT.page Sk.NET.MGMT_REJECT.bit = true ∧ s.OnlyOn t fun e key => e = d ∧ stickyKeys 9 key) ∧
    (d < s.part.dies → mgmtForm b = true → s.cmdCheck 0 ctr (b.take (mgmtEnd b + 8)) (slice b (mgmtEnd b + 8) 16) = 2 →
      Completes (.managementFrame d) s fun t => t.stuckAt 0 Sk.SEC.AUTH_FAIL.page Sk.SEC.AUTH_FAIL.bit = true ∧
        t.stuckAt d Sk.NET.MGMT_REJECT.page Sk.NET.MGMT_REJECT.bit = true ∧ (t.net 0).requests = rest ∧
        s.OnlyOn t fun e key => e = d ∧ stickyKeys 9 key ∨ e = 0 ∧ stickyKeys 14 key) ∧
    (d < s.part.dies → mgmtForm b = true → s.cmdCheck 0 ctr (b.take (mgmtEnd b + 8)) (slice b (mgmtEnd b + 8) 16) = 3 →
      Completes (.managementFrame d) s fun t => t.stuckAt 0 Sk.SEC.REPLAY.page Sk.SEC.REPLAY.bit = true ∧
        t.stuckAt d Sk.NET.MGMT_REJECT.page Sk.NET.MGMT_REJECT.bit = true ∧ (t.net 0).requests = rest ∧
        s.OnlyOn t fun e key => e = d ∧ stickyKeys 9 key ∨ e = 0 ∧ stickyKeys 14 key) ∧
    ∀ (u : State), mgmtForm b = true → s.cmdCheck 0 ctr (b.take (mgmtEnd b + 8)) (slice b (mgmtEnd b + 8) 16) = 1 →
      u = ((s.onNet 0 fun n => { n with requests := rest }).wr 0 Fd.CTR_LO.W 0 (loWord ctr)).wr 0 Fd.CTR_HI.W 0 (hiWord ctr) →
      (∀ done v key body, mgmtRun (mgmtEntries b) [] u = .next (done, v) → (u.sec 0).key = some key →
        body = [1, 0x81] ++ slice b 2 6 ++ done ++ slice b (mgmtEnd b) 8 →
        exec (.managementFrame d) s = .next (v.sendFrame d (.mgmtResponse k.source k.udp (body ++ tagOf key body)))) ∧
      (s.portUp d = true →
        (∀ e ∈ mgmtEntries b, e.op = 0 ∧ u.access (u.spot e.addr.toNat) = .done ∧ u.openSpot (u.spot e.addr.toNat) = false ∧
          ∃ die page off, u.spot e.addr.toNat = .page die page off ∧ page ≠ 15) → Completes (.managementFrame d) s fun t =>
        (∃ done tag, (t.net d).tx = .mgmtResponse k.source k.udp ([1, 0x81] ++ slice b 2 6 ++ done ++ slice b (mgmtEnd b) 8 ++ tag) ∧
          done.length = 12 * (mgmtEntries b).length) ∧
        t.rd 0 Fd.CTR_LO.W = loWord ctr ∧ t.rd 0 Fd.CTR_HI.W = hiWord ctr ∧
        s.OnlyOn t fun e key => e = 0 ∧ (key = Fd.CTR_LO.W.key 0 ∨ key = Fd.CTR_HI.W.key 0))

/-- 14 R375, R379, R381-R383, R391, R392. What the model takes from IEEE 1588 is its choice (PRESUMED, log entry 51), as is the rounding shown
(DESIGN CHOICE, log entry 52). -/
def Obligations.ptp_messages : Prop :=
  (∀ (s : State) (d fine : Nat) (dom : Byte) (m : PtpMsg), s.sized = true → s.sane = true → s.ptpOn d = true →
    (dom.toNat ≠ s.rd 0 Fd.PTP_CFG.DOMAIN → exec (.ptpMessage d dom fine m) s = .next s) ∧
    (dom.toNat = s.rd 0 Fd.PTP_CFG.DOMAIN → (∀ p, s.ptpOn p = true → s.announceDue p = false) →
      (∀ clock utc, m = .announce clock utc → Completes (.ptpMessage d dom fine m) s fun t =>
        (t.net d).ann = some ⟨clock, utc, s.td0⟩ ∧
        (t.ptpState d = 9 → t.rd 0 Fd.GM_ID_HI.W = clock.gm.toNat / 2 ^ 32 ∧ t.rd 0 Fd.GM_ID_LO.W = clock.gm.toNat % 2 ^ 32 ∧
          t.rd 0 Fd.PTP_STAT.STEPS = clock.steps.toNat ∧ t.rd 0 Fd.UTC.OFFSET = utc.toNat ∧
          (s.rd 0 Fd.GM_ID_HI.W * 2 ^ 32 + s.rd 0 Fd.GM_ID_LO.W ≠ clock.gm.toNat →
            t.stuckAt 0 Sk.NET.GM_CHANGE.page Sk.NET.GM_CHANGE.bit = true)) ∧
        (s.flag 0 Fd.PTP_CFG.SLAVE_ONLY = true → (∀ a, s.heardOn (1 - d) = some a → clockBetter clock a.clock = true) →
          t.ptpState d = 9) ∧
        s.OnlyOn t fun e key => e < 2 ∧ pageKeys 9 key) ∧
      (∀ sender seq o c n trip off, s.fromMaster d sender = true → s.ptpDom = some n → n ≤ s.wall.length →
        (m = .sync sender seq false o c ∧ trip = s.ingress d fine - ns48 o - corr48 c ∨
          ∃ t0 c0, m = .followUp sender seq o c ∧ (s.net d).syncIn = some (seq, t0, c0) ∧ trip = t0 - ns48 o - c0 - corr48 c) →
        off = trip - (s.net d).mpd → Completes (.ptpMessage d dom fine m) s fun t =>
          (t.wallOf n).lastUpd = some s.td0 ∧ (t.wallOf n).hold = false ∧ (t.net d).syncTrip = some trip ∧
          (∃ k : Int, (k = 0 ∨ k = 1 ∧ off % 2 ^ 40 ≠ 0) ∧ t.rd 0 Fd.OFM.W = ux 32 (off / 2 ^ 40 + k)) ∧
          ((s.wallOf n).stepAt ≠ some s.td0 → s.rd 0 Fd.SERVO2.STEP_THR = 0 →
            (t.wallOf n).integ = (s.wallOf n).integ + off * s.rd 0 Fd.SERVO.KI) ∧
          t.device = s.device ∧ t.td0 = s.td0 ∧ t.pins = s.pins ∧ s.OnlyOn t fun e key => e = 0 ∧ pageKeys 9 key) ∧
      (∀ sender seq o c, m = .sync sender seq true o c → s.fromMaster d sender = true → Completes (.ptpMessage d dom fine m) s fun t =>
        (t.net d).syncIn = some (seq, s.ingress d fine, corr48 c) ∧ s.OnlyKeys t d fun _ => False) ∧
      (∀ seq r c t1 twice, s.requestAt d seq = some t1 →
        (s.flag 0 Fd.PTP_CFG.P2P = true ∧ m = .pdelayResp seq false r c ∧ twice = s.ingress d fine - t1 - corr48 c ∨
          s.flag 0 Fd.PTP_CFG.P2P = false ∧ s.ptpState d = 9 ∧ m = .delayResp seq r c ∧ (∃ trip, (s.net d).syncTrip = some trip ∧
            twice = trip + ns48 r - t1 - corr48 c)) → Completes (.ptpMessage d dom fine m) s fun t =>
          (t.net d).mpd = twice / 2 ∧
          (s.ptpState d = 9 → ∃ k : Int, (k = 0 ∨ k = 1 ∧ twice / 2 % 2 ^ 40 ≠ 0) ∧ t.rd 0 Fd.MPD.W = ux 32 (twice / 2 / 2 ^ 40 + k)) ∧
          s.OnlyOn t fun e key => e = 0 ∧ key = Fd.MPD.W.key 0) ∧
      (∀ turn, m = .pdelayReq turn → s.flag 0 Fd.PTP_CFG.P2P = true → Completes (.ptpMessage d dom fine m) s fun t =>
        (t.net d).tx = .ptpResponse true 0x0180C200000E (s.ingress d fine)
          (some (s.ingress d fine + s.ingressDelay d + s.egressDelay d + s.stampAt d turn * fineNs)) ∧
        (t.net d).tagged = false ∧ s.OnlyKeys t d fun _ => False) ∧
      (m = .delayReq → s.flag 0 Fd.PTP_CFG.P2P = false → s.ptpState d = 6 → Completes (.ptpMessage d dom fine m) s fun t =>
        (t.net d).tx = .ptpResponse false 0x011B19000000 (s.ingress d fine) none ∧ (t.net d).tagged = false ∧
        s.OnlyKeys t d fun _ => False) ∧
      (m = .unsupported → exec (.ptpMessage d dom fine m) s = .next s))) ∧
  (∀ (s : State) (d : Nat), s.sized = true → s.sane = true → s.ptpOn d = true →
    (s.announceDue d = false → exec (.announceTimeout d) s = .next s) ∧
    (s.announceDue d = true → Completes (.announceTimeout d) s fun t =>
      (t.net d).ann = none ∧ (t.net d).listenAt = s.td0 ∧
      (s.flag 0 Fd.PTP_CFG.SLAVE_ONLY = true → t.ptpState d = 4 ∧ ∀ a, s.heardOn (1 - d) = some a → t.ptpState (1 - d) = 9) ∧
      (s.flag 0 Fd.PTP_CFG.SLAVE_ONLY = false → s.heardOn (1 - d) = none → t.ptpState d = 6) ∧
      (∀ a, s.flag 0 Fd.PTP_CFG.SLAVE_ONLY = false → s.heardOn (1 - d) = some a → clockBetter s.ownClock a.clock = false →
        128 ≤ s.rd 0 Fd.PTP_CFG.CLASS → t.ptpState (1 - d) = 9) ∧
      s.OnlyOn t fun e key => e < 2 ∧ pageKeys 9 key)) ∧
  ∀ (s : State) (d fine : Nat) (m : PtpSend), s.sized = true → s.sane = true → s.ptpOn d = true → s.ptpSends d m = true →
    ((s.net d).lastSend.getD (ptpIndex m) 0 + s.ptpInterval m ≤ s.td0 → Completes (.ptpSend d m fine) s fun t =>
      (t.net d).tx = s.ptpFrame d fine m ∧ (t.net d).tagged = false ∧ (t.net d).lastSend.getD (ptpIndex m) 0 = s.td0 ∧
      (m = .pdelayReq ∨ m = .delayReq → (t.net d).reqOut = some ((s.net d).ptpSeq, s.tdStamp d fine + s.egressDelay d)) ∧
      s.OnlyKeys t d fun _ => False) ∧
    (s.td0 < (s.net d).lastSend.getD (ptpIndex m) 0 + s.ptpInterval m → exec (.ptpSend d m fine) s = .next s)

/-- 14 R376-R380, R386, R387; 03 R82, R83. -/
def Obligations.wall_time : Prop :=
  (∀ (s : State) (n : Nat) (value : Word), s.sized = true → s.sane = true → s.isHead = true → s.alive 0 = true → 1 ≤ n → n ≤ 3 →
    (bitOf value.toNat 31 = false → Completes (.tdStep n value) s fun t =>
      t.rd 0 Fd.TD_CTRL.SRC (n - 1) = bitsOf value.toNat 1 0 ∧ t.mirrors = s.mirrors ∧ (t.wallOf n).time = (s.wallOf n).time ∧
      s.OnlyOn t fun e key => e = 0 ∧ (key = Fd.TD_CTRL.W.key (n - 1) ∨ key = Fd.NET_STATUS.W.key 0)) ∧
    (bitOf value.toNat 31 = true → s.inFlight (n + 7) = false → (s.wallOf n).nextOk ≤ s.td0 + 1 → (s.wallOf n).lastUpd ≠ some s.td0 →
      Completes (.tdStep n value) s fun t =>
        t.rd 0 Fd.TD_CTRL.SRC (n - 1) = bitsOf value.toNat 1 0 ∧ (t.wallOf n).stepAt = some s.td0 ∧
        t.mirrors = s.mirrors ++ [⟨n + 7, s.td0 + 129,
          if bitOf value.toNat 30 then .tdRel (s.stepAmount n true) else .tdSet (s.stepAmount n false), []⟩] ∧
        t.stuckAt 0 Sk.NET.TD_STEP.page Sk.NET.TD_STEP.bit = true ∧
        s.OnlyOn t fun e key => e = 0 ∧ (key = Fd.TD_CTRL.W.key (n - 1) ∨ key = Fd.NET_STATUS.W.key 0 ∨ stickyKeys 9 key)) ∧
    (bitOf value.toNat 31 = true → s.inFlight (n + 7) = true → (s.wallOf n).lastUpd ≠ some s.td0 → Completes (.tdStep n value) s fun t =>
      t.mirrors = s.mirrors ∧ (t.wallOf n).held =
        some (if bitOf value.toNat 30 then .tdRel (s.stepAmount n true) else .tdSet (s.stepAmount n false)))) ∧
  (∀ (s : State) (n t0 : Nat), s.sized = true → s.sane = true → s.netOn 0 = true → 1 ≤ n → n ≤ 3 → s.tdSrc n ≠ 0 →
    (s.wallOf n).hold = false → (s.wallOf n).lastUpd = some t0 →
    (s.td0 < t0 + max 1 (s.rd 0 Fd.SERVO2.SYNC_TO) * 800000000 → exec (.syncLoss n) s = .next s) ∧
    (t0 + max 1 (s.rd 0 Fd.SERVO2.SYNC_TO) * 800000000 ≤ s.td0 → Completes (.syncLoss n) s fun t =>
      (t.wallOf n).hold = true ∧ bitOf (t.rd 0 Fd.NET_STATUS.HOLD) (n - 1) = true ∧
      t.stuckAt 0 Sk.NET.SYNC_LOSS.page Sk.NET.SYNC_LOSS.bit = true ∧
      (s.flag 0 Fd.SERVO2.LOSS_FLT = true → 0x090 ∈ (t.die 0).flt.present) ∧
      s.OnlyOn t fun e key => e = 0 ∧ (key = Fd.NET_STATUS.W.key 0 ∨ stickyKeys 9 key))) ∧
  (∀ (s : State) (stable tick : Nat), s.sized = true → s.sane = true → s.netOn 0 = true → tick = s.td0 - s.ppsFilter →
    s.ppsFilter = 32 * min 250 (s.rd 0 Fd.PPS_CFG.PPS_FLT) ∧ (stable < s.ppsFilter → exec (.ppsInEdge stable) s = .next s) ∧
    (s.ppsFilter ≤ stable → Completes (.ppsInEdge stable) s fun t =>
      t.rd 0 Fd.PPS_IN_T.W = loWord tick ∧ (t.net 0).lastPps = some tick ∧
      t.rd 0 Fd.PPS_IN_NS.W = (((s.wallOf 1).time - s.ppsFilter * wallInc (s.wallOf 1).trim) / 2 ^ 48 % 10 ^ 9).toNat ∧
      (∀ t0, (s.net 0).lastPps = some t0 → tick < t0 + 400000000 → t.wall = s.wall) ∧
      (∀ n, 1 ≤ n → n ≤ 3 → s.tdSrc n = 2 → (∀ t0, (s.net 0).lastPps = some t0 → t0 + 400000000 ≤ tick) →
        (t.wallOf n).lastUpd = some s.td0 ∧ (t.wallOf n).hold = false) ∧
      s.OnlyOn t fun e key => e = 0 ∧ pageKeys 9 key)) ∧
  (∀ (s : State) (n : Nat), s.sized = true → n = s.rd 0 Fd.PPS_CFG.OUT_SEL → s.ppsOutOn = true →
    ((s.wallOf n).prev / (10 ^ 9 * 2 ^ 48) < (s.wallOf n).time / (10 ^ 9 * 2 ^ 48) → n ≠ 0 →
      ∃ i, s.ppsSecond = some i ∧ (s.ppsTick.net 0).ppsRise = some (i + 64)) ∧
    ((s.wallOf n).time / (10 ^ 9 * 2 ^ 48) ≤ (s.wallOf n).prev / (10 ^ 9 * 2 ^ 48) ∨ n = 0 → s.ppsTick = s)) ∧
  (∀ (s : State) (i : Int), s.shaped = true → s.sane = true → s.ppsOutOn = true → (s.net 0).ppsRise = some i →
    (i / 8 ≤ s.td0 → Completes .ppsOutRise s fun t =>
      t.pins = { s.pins with ppsOut := true } ∧ (t.net 0).ppsHigh = some i ∧ (t.net 0).ppsRise = none ∧ s.OnlyOn t fun _ _ => False) ∧
    ((s.td0 : Int) < i / 8 → exec .ppsOutRise s = .next s)) ∧
  ∀ (s : State) (i : Int), s.shaped = true → s.sane = true → s.ppsOutOn = true → (s.net 0).ppsHigh = some i →
    (i / 8 + max 1 (s.rd 0 Fd.PPS_CFG.WIDTH) * 800000 ≤ s.td0 → Completes .ppsOutFall s fun t =>
      t.pins = { s.pins with ppsOut := false } ∧ (t.net 0).ppsHigh = none ∧ s.OnlyOn t fun _ _ => False) ∧
    ((s.td0 : Int) < i / 8 + max 1 (s.rd 0 Fd.PPS_CFG.WIDTH) * 800000 → exec .ppsOutFall s = .next s)

/-- 15 R396-R404, R418; 16 R439. A safety channel acts whatever misuse of another block stands (00 R14). -/
def Obligations.safety_inputs : Prop :=
  (∀ (s : State) (ch i k n : Nat) (fb v : Bool) (levels : List (Bool × Nat)), s.sized = true → s.chanOn ch = true → s.atSample = true →
    i < (if fb then 8 else 16) → k = (if fb then 16 + i else i) →
    v = filtered (s.glitchTicks ch fb i) (s.flag ch ⟨0xA, 0x38, 1, k, k⟩) levels →
    n = (if ((s.saf ch).run.getD k (false, 0)).1 = v then ((s.saf ch).run.getD k (false, 0)).2 + 1 else 1) →
    ((s.saf ch).rawAt.getD k none ≠ some s.td0 → Completes (.inputAccept ch fb i levels) s fun t =>
      t.flag ch ⟨0xA, 0x38, 1, k, k⟩ = v ∧ (t.saf ch).run.getD k (false, 0) = (v, n) ∧ (t.saf ch).rawAt.getD k none = some s.td0 ∧
      bitOf (t.accepted ch) k = (if s.filtN ch fb i ≤ n then v else bitOf (s.accepted ch) k) ∧
      (∀ j, j < 24 → j ≠ k → bitOf (t.accepted ch) j = bitOf (s.accepted ch) j) ∧ s.OnlyKeys t ch (pageKeys 10)) ∧
    ((s.saf ch).rawAt.getD k none = some s.td0 → exec (.inputAccept ch fb i levels) s = .next s)) ∧
  (∀ (s : State) (ch f t0 : Nat), s.sized = true → s.evaluates ch = true → s.atSample = true → f < 16 →
    (s.saf ch).longDone.getD f true = false → (s.saf ch).rise.getD f none = some t0 →
    (s.td0 < t0 + 4000000000 → exec (.resetLong ch f) s = .next s) ∧
    (t0 + 4000000000 ≤ s.td0 → Completes (.resetLong ch f) s fun t =>
      t.stuckAt ch Sk.SAF.RESET_LONG.page Sk.SAF.RESET_LONG.bit = true ∧ (t.saf ch).longDone.getD f false = true ∧
      s.OnlyKeys t ch (stickyKeys 10))) ∧
  (∀ (s : State) (ch f t0 k : Nat) (hand2 fault : Bool), s.sized = true → s.evaluates ch = true → s.atSample = true → f < 16 →
    k = (if hand2 then 16 + f else f) → (s.saf ch).disc.getD k none = some (t0, fault) → t0 < s.td0 →
    (s.fnPair ch f (s.viewAt ch (s.td0 - 1)) hand2 ≠ 2 → Completes (.discrepancy ch f hand2) s fun t =>
      (t.saf ch).disc.getD k none = none ∧ (t.saf ch).faults = (s.saf ch).faults ∧ s.OnlyKeys t ch fun _ => False) ∧
    (s.fnPair ch f (s.viewAt ch (s.td0 - 1)) hand2 = 2 → fault = false → t0 + s.discTicks ch f ≤ s.td0 → Completes (.discrepancy ch f hand2) s fun t =>
      t.stuckAt ch Sk.SAF.DISCREPANCY.page Sk.SAF.DISCREPANCY.bit = true ∧ (t.saf ch).faults = (s.saf ch).faults ++ [⟨2, f, s.td0⟩] ∧
      (t.saf ch).disc.getD k none = some (t0, true) ∧ s.OnlyKeys t ch (stickyKeys 10)) ∧
    (s.fnPair ch f (s.viewAt ch (s.td0 - 1)) hand2 = 2 → fault = true ∨ s.td0 < t0 + s.discTicks ch f → exec (.discrepancy ch f hand2) s = .next s)) ∧
  (∀ (s : State) (n : Nat), s.sized = true → s.evaluates 0 = true → s.blockEn 0 0xA = true → n < 4 → s.tpEn 0 n = true →
    (s.tpTick 0 n 0 = true → Completes (.testPulse n) s fun t =>
      (t.saf 0).tpDark.getD n none = some s.td0 ∧ bitOf t.pins.tp.toNat n = false ∧ t.pins = { s.pins with tp := t.pins.tp } ∧
      t.device = s.device ∧ s.OnlyOn t fun _ _ => False) ∧
    (s.tpTick 0 n 0 = false → exec (.testPulse n) s = .next s)) ∧
  (∀ (s : State) (ch i : Nat) (found : Bool), s.readsBack ch i = true → exec (.inputTest ch i found) s = .next s) ∧
  ∀ (s : State) (ch i n : Nat) (found : Bool), s.sized = true → s.evaluates ch = true → s.blockEn ch 0xA = true → i < 16 →
    n = s.rd ch Fd.IN_CFG.TSRC i → 1 ≤ n → n ≤ 4 → s.tpEn ch (n - 1) = true → s.ofCurtain ch i = false → s.readsBack ch i = false →
    s.tpTick ch (n - 1) (s.tpW ch - 1) = true →
    (s.rawNow ch i found = true → Completes (.inputTest ch i found) s fun t => t.stuckAt ch Sk.SAF.INPUT_TEST.page Sk.SAF.INPUT_TEST.bit = true ∧
      (t.saf ch).faults = (s.saf ch).faults ++ [⟨3, i, s.td0⟩] ∧ s.OnlyKeys t ch (stickyKeys 10)) ∧
    (s.rawNow ch i found = false → exec (.inputTest ch i found) s = .next s)

/-- 15 R410-R414, R418; 16 R440. -/
def Obligations.safety_outputs : Prop :=
  (∀ (s : State) (ch j : Nat) (rb ball : Bool), s.sized = true → s.evaluates ch = true → j < 8 →
    (s.darkOf ch j = none → s.otTick ch j = true → s.outCmd ch j = true → s.flag ch Fd.OUT_MAP.TEST_EN j = true →
      (s.saf ch).outAt.getD j none ≠ some s.td0 → Completes (.outputTestPulse ch j ball) s fun t =>
        t.darkOf ch j = some (s.td0, true) ∧ t.outBall ch j = false ∧ t.outCmd ch j = true ∧ t.device = s.device ∧
        t.pins = { s.pins with soa := t.pins.soa, sob := t.pins.sob } ∧ s.OnlyOn t fun _ _ => False) ∧
    (s.darkOf ch j = none → s.otTick ch j = false ∨ s.outCmd ch j = false ∨ s.flag ch Fd.OUT_MAP.TEST_EN j = false →
      exec (.outputTestPulse ch j ball) s = .next s) ∧
    ∀ t0 ok, s.darkOf ch j = some (t0, ok) →
      (s.td0 = t0 + (s.otW ch - 1) * sampleTicks → rb = s.readbackOf ch j ball → Completes (.outputTestPulse ch j ball) s fun t =>
        t.flag ch ⟨0xA, 0x38, 1, 24 + j, 24 + j⟩ = rb ∧ t.pins = s.pins ∧ (t.saf ch).checks = (s.saf ch).checks ++ [.dark j rb] ∧
        s.OnlyKeys t ch (· = 0xA038)) ∧
      (s.td0 ≠ t0 + (s.otW ch - 1) * sampleTicks → exec (.outputTestPulse ch j ball) s = .next s)) ∧
  (∀ (s : State) (ch j : Nat) (level ball : Bool), s.sized = true → s.evaluates ch = true → s.atSample = true → j < 8 →
    level = s.readbackOf ch j ball → Completes (.readback ch j ball) s fun t =>
      t.flag ch ⟨0xA, 0x38, 1, 24 + j, 24 + j⟩ = level ∧ (t.saf ch).checks = (s.saf ch).checks ++ [.readback j level] ∧
      s.OnlyKeys t ch (· = 0xA038)) ∧
  (∀ (s : State) (ch j : Nat), s.sized = true → s.evaluates ch = true → s.atSample = true → j < 8 →
    (s.flag ch Fd.FB_CFG.FB_EN j = true → Completes (.feedback ch j) s fun t =>
      (t.saf ch).checks = (s.saf ch).checks ++ [.feedback j] ∧ s.OnlyKeys t ch fun _ => False) ∧
    (s.flag ch Fd.FB_CFG.FB_EN j = false → exec (.feedback ch j) s = .next s)) ∧
  ∀ (s t : State) (ch j : Nat) (level : Bool), s.sized = true → s.evaluates ch = true → j < 8 → t = s.endSample ch →
    (∀ t0 ok, (s.saf ch).checks = [.dark j level] → s.darkOf ch j = some (t0, ok) →
      (ok = true → level = true → t.stuckAt ch Sk.SAF.READBACK.page Sk.SAF.READBACK.bit = true ∧
        (t.saf ch).faults = (s.saf ch).faults ++ [⟨4, j, s.td0⟩]) ∧
      (ok = false ∨ level = false → (t.saf ch).faults = (s.saf ch).faults) ∧ s.OnlyKeys t ch (stickyKeys 10)) ∧
    ((s.saf ch).checks = [.readback j level] →
      ((∃ t0, (s.saf ch).lvlAt.getD j none = some t0 ∧ s.td0 < t0 + sampleTicks) → t.saf ch = { s.saf ch with checks := [] }) ∧
      ((∀ t0, (s.saf ch).lvlAt.getD j none = some t0 → t0 + sampleTicks ≤ s.td0) →
        (level = s.outBall ch j → (t.saf ch).mism.getD j 0 = 0 ∧ (t.saf ch).faults = (s.saf ch).faults) ∧
        (level ≠ s.outBall ch j → (t.saf ch).mism.getD j 0 = (s.saf ch).mism.getD j 0 + 1 ∧
          (t.saf ch).faults = (s.saf ch).faults ++ (if (s.saf ch).mism.getD j 0 = 1 then [⟨4, j, s.td0⟩] else []))) ∧
      s.OnlyKeys t ch (stickyKeys 10)) ∧
    (∀ t0, (s.saf ch).checks = [.feedback j] → (s.saf ch).outAt.getD j none = some t0 →
      (bitOf (s.accepted ch) (16 + j) = s.outCmd ch j → t0 + limited 10 500 (s.rd ch Fd.FB_CFG.EDM_MS j) * 800000 ≤ s.td0 →
        t.stuckAt ch Sk.SAF.FEEDBACK.page Sk.SAF.FEEDBACK.bit = true ∧ (t.saf ch).faults = (s.saf ch).faults ++ [⟨5, j, s.td0⟩]) ∧
      (bitOf (s.accepted ch) (16 + j) ≠ s.outCmd ch j ∨ s.td0 < t0 + limited 10 500 (s.rd ch Fd.FB_CFG.EDM_MS j) * 800000 →
        (t.saf ch).faults = (s.saf ch).faults) ∧ s.OnlyKeys t ch (stickyKeys 10)) ∧
    ((s.saf ch).checks = [.ask] → s.inLockout ch = true →
      (s.resetAllowed ch = true → (t.saf ch).rstNew = some s.td0) ∧
      (s.resetAllowed ch = false → t.stuckAt ch Sk.SAF.RESET_REFUSED.page Sk.SAF.RESET_REFUSED.bit = true ∧
        (t.saf ch).rstNew = (s.saf ch).rstNew) ∧ s.OnlyKeys t ch (stickyKeys 10))

/-- 15 R408, R409, R415-R421, R425; 16 R440, R442. -/
def Obligations.safety_cycles : Prop :=
  (∀ (s u : State) (ch : Nat), s.sized = true → s.evaluates ch = true → s.atBoundary = true → (s.saf ch).cycleAt < s.td0 →
    u = (s.showSig ch).when (decide ((s.saf ch).cycleAt + 800 ≤ s.td0)) (·.imageAbsent ch) → Completes (.safetyCycle ch) s fun t =>
      (t.saf ch).cycleAt = s.td0 ∧ t.rd ch Fd.SAF_CYCLE.W = (s.rd ch Fd.SAF_CYCLE.W + 1) % 2 ^ 32 ∧
      t.rd ch Fd.SAF_SIG.W = s.safSig ch ∧
      (∃ img, (t.saf ch).own = some img ∧ img.tick = s.td0 ∧ img.out = t.rd ch Fd.SAF_STATUS.OUT_ON ∧ img.lockout = t.inLockout ch ∧
        img.sig = s.safSig ch) ∧
      (∀ f rest, s.inLockout ch = false → u.causes ch = f :: rest → t.inLockout ch = true ∧
        t.rd ch Fd.SAF_INFO.LO_CAUSE = f.cause % (Fd.SAF_INFO.LO_CAUSE.max + 1) ∧
        t.stuckAt ch Sk.SAF.LOCKOUT.page Sk.SAF.LOCKOUT.bit = true) ∧
      (s.inLockout ch = false → u.causes ch = [] → t.inLockout ch = false) ∧
      (∀ j, j < 8 → t.outCmd ch j = true → s.flag ch Fd.OUT_MAP.EN j = true ∧ t.inLockout ch = false ∧ bitOf (s.reqNow ch) j = true ∧
        ∀ f, f < 16 → bitOf (s.rd ch Fd.OUT_MAP.FN_MASK j) f = true → t.fnState ch f = 3) ∧
      (∀ j, j < 8 → t.outCmd ch j = false → s.outCmd ch j = true → s.darkOf ch j = none → t.outBall ch j = false) ∧
      t.device = s.device ∧ t.pins = { s.pins with soa := t.pins.soa, sob := t.pins.sob } ∧
      s.OnlyOn t fun e key => e = ch ∧ pageKeys 10 key) ∧
  (∀ (s : State) (ch : Nat), s.joins (1 - ch) ch = false → exec (.crossImage ch) s = .next s) ∧
  (∀ (s : State) (ch : Nat) (p o : Image), s.sized = true → s.evaluates ch = true → s.joins (1 - ch) ch = true →
    (s.saf (1 - ch)).own = some p → (s.saf ch).own = some o → (∀ q, (s.saf ch).peer = some q → q.tick ≠ p.tick) →
    Completes (.crossImage ch) s fun t =>
      (t.saf ch).peer = some p ∧ t.rd ch Fd.SAF_PEER_SIG.W = p.sig % 2 ^ 32 ∧
      t.flag ch Fd.SAF_PEER.PEER_OK = decide (s.td0 < p.tick + 800) ∧ t.flag ch Fd.SAF_PEER.PEER_LO = p.lockout ∧
      (o.tick = p.tick → s.td0 < p.tick + 800 → (t.saf ch).met = true ∧
        if o.agrees p then (t.saf ch).diff = 0 ∧ (t.saf ch).cross = (s.saf ch).cross
        else (t.saf ch).diff = (s.saf ch).diff + 1 ∧
          (t.saf ch).cross = (s.saf ch).cross ++ (if 2 ≤ (s.saf ch).diff then [⟨6, 0, s.td0⟩] else [])) ∧
      t.device = s.device ∧ t.pins = s.pins ∧ s.OnlyOn t fun e key => e < 2 ∧ pageKeys 10 key) ∧
  (∀ (s : State) (ch : Nat), s.sized = true → s.evaluates ch = true → (s.saf ch).cycleAt + 800 ≤ s.td0 →
    ((s.saf ch).own.isSome = true → (s.saf ch).met = false → Completes (.crossImageAbsent ch) s fun t =>
      t.flag ch Fd.SAF_PEER.PEER_OK = false ∧ (t.saf ch).cross = (s.saf ch).cross ++ [⟨6, 0, s.td0⟩] ∧ (t.saf ch).met = true ∧
      t.stuckAt ch Sk.SAF.CROSS.page Sk.SAF.CROSS.bit = true ∧ s.OnlyKeys t ch (pageKeys 10)) ∧
    ((s.saf ch).own = none ∨ (s.saf ch).met = true → exec (.crossImageAbsent ch) s = .next s)) ∧
  (∀ (s : State) (ch : Nat) (value : Word), s.sized = true → s.sane = true → s.chanOn ch = true →
    (Completes (.safRstCmd ch false value) s fun t => t.stuckAt ch 10 31 = true ∧ s.OnlyKeys t ch (stickyKeys 10)) ∧
    (s.evaluates ch = true → bitsOf value.toNat 15 0 = 0x5A5A → s.flag ch Fd.SAF_LORST.CMD_EN = true →
      Completes (.safRstCmd ch true value) s fun t => t.stuckAt ch Sk.SAF.RESET_CMD.page Sk.SAF.RESET_CMD.bit = true ∧
        (t.saf ch).checks = (s.saf ch).checks ++ (if s.inLockout ch then [.ask] else []) ∧ s.OnlyKeys t ch (stickyKeys 10)) ∧
    (s.evaluates ch = true → bitsOf value.toNat 15 0 ≠ 0x5A5A ∨ s.flag ch Fd.SAF_LORST.CMD_EN = false →
      Completes (.safRstCmd ch true value) s fun t =>
        t.stuckAt ch Sk.SAF.RESET_REFUSED.page Sk.SAF.RESET_REFUSED.bit = true ∧ s.OnlyKeys t ch (stickyKeys 10))) ∧
  ∀ (s : State) (ch off : Nat) (value : Word), s.sized = true → s.sane = true → s.chanOn ch = true → safConfigOff off = true →
    (Completes (.safConfigWrite ch off false value) s fun t => t.stuckAt ch 10 31 = true ∧
      t.stuckAt ch Sk.SAF.CFG_REFUSED.page Sk.SAF.CFG_REFUSED.bit = true ∧ s.OnlyKeys t ch (stickyKeys 10)) ∧
    (s.device ≠ .config → s.device ≠ .standstill → Completes (.safConfigWrite ch off true value) s fun t =>
      t.stuckAt ch Sk.SAF.CFG_REFUSED.page Sk.SAF.CFG_REFUSED.bit = true ∧ s.OnlyKeys t ch (stickyKeys 10)) ∧
    ∀ r, s.device = .config ∨ s.device = .standstill → findReg regsSaf off = some r → Completes (.safConfigWrite ch off true value) s fun t =>
      t.cell ch (0xA000 + off) = (s.cell ch (0xA000 + off) &&& ~~~r.rw) ||| (value &&& r.rw) ∧
      (t.saf ch).cfgPend = some (match (s.saf ch).cfgPend with | some e => (e.1, s.td0) | none => (s.td0, s.td0)) ∧
      t.rd ch Fd.SAF_SIG.W = t.safSig ch ∧
      s.OnlyKeys t ch fun key => key = 0xA000 + off ∨ key = Fd.SAF_SIG.W.key 0 ∨ key = Fd.SAF_STATUS.SIG_EQUAL.key 0

/-- 16 R426-R436. -/
def Obligations.safety_connections : Prop :=
  (∀ (s : State) (ch : Nat), s.evaluates ch = true → s.atSample = true →
    ((s.saf ch).inbox.find? fun e => decide (e.1 + 1600 ≤ s.td0)) = none → exec (.telegramTake ch) s = .next s) ∧
  (∀ (s : State) (ch : Nat) (e : Nat × List Byte), s.sized = true → s.evaluates ch = true → s.atSample = true →
    ((s.saf ch).inbox.find? fun e => decide (e.1 + 1600 ≤ s.td0)) = some e →
    (List.range 32).find? (fun c => s.consumer ch c && s.rd ch Fd.CONN_ID.W c == tlgCid e.2) = none →
    Completes (.telegramTake ch) s fun t => t.stuckAt ch Sk.SAF.UNKNOWN_CID.page Sk.SAF.UNKNOWN_CID.bit = true ∧
      (t.saf ch).inbox = (s.saf ch).inbox.erase e ∧ (t.saf ch).conn = (s.saf ch).conn ∧ s.OnlyKeys t ch (stickyKeys 10)) ∧
  (∀ (s : State) (ch c st : Nat) (e : Nat × List Byte) (b : List Byte), s.sized = true → s.evaluates ch = true → s.atSample = true →
    ((s.saf ch).inbox.find? fun e => decide (e.1 + 1600 ≤ s.td0)) = some e → b = e.2 → st = s.connState ch c →
    (List.range 32).find? (fun c => s.consumer ch c && s.rd ch Fd.CONN_ID.W c == tlgCid b) = some c →
    (st = 1 → s.td0 < (s.conn ch c).tv + s.texp ch c * 800000) → (st = 2 → s.td0 < (s.conn ch c).td + s.degTicks ch c) →
    (tlgGood b = false → Completes (.telegramTake ch) s fun t =>
      t.rd ch badCount c = min (s.rd ch badCount c + 1) badCount.max ∧ t.stuckAt ch Sk.SAF.TLG_BAD.page Sk.SAF.TLG_BAD.bit = true ∧
      t.connState ch c = st ∧ (t.saf ch).conn = (s.saf ch).conn ∧ s.OnlyKeys t ch (pageKeys 10)) ∧
    (tlgGood b = true → tlgTexp b ≠ s.texp ch c ∨ tlgLen b ≠ s.wantLen ch c → Completes (.telegramTake ch) s fun t =>
      t.connState ch c = 3 ∧ (t.saf ch).faults = (s.saf ch).faults ++ [⟨10, c, s.td0⟩] ∧
      t.stuckAt ch Sk.SAF.REMOTE_PARAM.page Sk.SAF.REMOTE_PARAM.bit = true ∧ s.OnlyKeys t ch (pageKeys 10)) ∧
    (tlgGood b = true → tlgTexp b = s.texp ch c → tlgLen b = s.wantLen ch c →
      (st = 0 ∨ st = 2 → (s.conn ch c).first = false → Completes (.telegramTake ch) s fun t =>
        t.connState ch c = st ∧ (t.conn ch c).first = true ∧ (t.conn ch c).data = tlgData b ∧ (t.conn ch c).tv = s.td0 ∧
        t.rd ch Fd.CONN_SEQ.W c = tlgSeq b ∧ s.OnlyKeys t ch (pageKeys 10)) ∧
      (1 ≤ (tlgSeq b + 2 ^ 32 - s.rd ch Fd.CONN_SEQ.W c) % 2 ^ 32 → (tlgSeq b + 2 ^ 32 - s.rd ch Fd.CONN_SEQ.W c) % 2 ^ 32 < 32 →
        (st = 0 ∨ st = 2 → (s.conn ch c).first = true → Completes (.telegramTake ch) s fun t =>
          t.connState ch c = 1 ∧ (t.conn ch c).data = tlgData b ∧ t.rd ch Fd.CONN_SEQ.W c = tlgSeq b ∧ s.OnlyKeys t ch (pageKeys 10)) ∧
        (st = 1 → Completes (.telegramTake ch) s fun t =>
          t.connState ch c = 1 ∧ (t.conn ch c).data = tlgData b ∧ (t.conn ch c).tv = s.td0 ∧ t.rd ch Fd.CONN_SEQ.W c = tlgSeq b ∧
          s.OnlyKeys t ch (pageKeys 10))))) ∧
  ∀ (s : State) (ch c : Nat), s.sized = true → s.evaluates ch = true → s.atSample = true → s.consumer ch c = true →
    (s.connState ch c = 1 → (s.conn ch c).tv + s.texp ch c * 800000 ≤ s.td0 → Completes (.watchdogExpiry ch c) s fun t =>
      t.connState ch c = (if s.degTicks ch c = 0 then 3 else 2) ∧ (t.conn ch c).td = s.td0 ∧
      t.rd ch degCount c = min (s.rd ch degCount c + 1) degCount.max ∧
      t.stuckAt ch Sk.SAF.DEGRADED.page Sk.SAF.DEGRADED.bit = true ∧ s.OnlyKeys t ch (pageKeys 10)) ∧
    (s.connState ch c ≠ 1 ∨ s.td0 < (s.conn ch c).tv + s.texp ch c * 800000 → exec (.watchdogExpiry ch c) s = .next s) ∧
    (s.connState ch c = 2 → (s.conn ch c).td + s.degTicks ch c ≤ s.td0 → Completes (.degradedEnd ch c) s fun t =>
      t.connState ch c = 3 ∧ (t.saf ch).faults = (s.saf ch).faults ++ [⟨9, c, s.td0⟩] ∧
      t.stuckAt ch Sk.SAF.REMOTE_LOSS.page Sk.SAF.REMOTE_LOSS.bit = true ∧ s.OnlyKeys t ch (pageKeys 10)) ∧
    (s.connState ch c ≠ 2 ∨ s.td0 < (s.conn ch c).td + s.degTicks ch c → exec (.degradedEnd ch c) s = .next s)

/-- 17 R445-R456. The collector acts whatever misuse stands (01 R39, 00 R14). -/
def Obligations.fault_latches : Prop :=
  (∀ (s : State) (d : Nat) (a : Nat × Nat) (arr : List (Nat × Nat)), s.shaped = true → s.alive d = true → s.armed = true →
    (s.isHead = false → s.sized = true) → arr = (s.die d).flt.arriving → a ∈ arr → (∀ x ∈ arr, before a x = true) → a.1 < 4096 → a.2 < 64 →
    (s.flag d Fd.LOC_SRC.VALID = true → s.latchedNow d a = true → Completes (.localLatch d) s fun t =>
      (t.die d).flt.arriving = [] ∧ t.rd d Fd.LOC_SRC.CODE = a.1 ∧ t.rd d Fd.LOC_SRC.WS = a.2 ∧
      t.rd d Fd.FF_COUNT.OVF_COUNT = min (s.rd d Fd.FF_COUNT.OVF_COUNT + arr.length) 0xFFFF ∧
      (s.isHead = true → ∀ r, (d, r) ∈ s.bus → r.tick = s.td0 → (d, ⟨a.1, a.2, s.td0⟩) ∈ t.bus) ∧
      s.OnlyOn t fun e key => e = d ∧ pageKeys 11 key) ∧
    (s.flag d Fd.LOC_SRC.VALID = true → s.latchedNow d a = false → Completes (.localLatch d) s fun t =>
      (t.die d).flt.arriving = [] ∧ t.flag d Fd.FLT_STATUS.OVERFLOW = true ∧
      t.rd d Fd.FF_COUNT.OVF_COUNT = min (s.rd d Fd.FF_COUNT.OVF_COUNT + arr.length) 0xFFFF ∧
      t.stuckAt d Sk.FLT.OVERFLOW.page Sk.FLT.OVERFLOW.bit = true ∧
      s.OnlyKeys t d fun key => key = Fd.FLT_STATUS.W.key 0 ∨ key = Fd.FF_COUNT.W.key 0 ∨ stickyKeys 11 key) ∧
    (s.flag d Fd.LOC_SRC.VALID = false → Completes (.localLatch d) s fun t =>
      (t.die d).flt.arriving = [] ∧ t.flag d Fd.LOC_SRC.VALID = true ∧ t.rd d Fd.LOC_SRC.CODE = a.1 ∧ t.rd d Fd.LOC_SRC.WS = a.2 ∧
      t.rd d Fd.LOC_T_LO.W = loWord s.td0 ∧ t.rd d Fd.LOC_T_HI.W = hiWord s.td0 ∧
      t.rd d Fd.FF_COUNT.LATCHES = min (s.rd d Fd.FF_COUNT.LATCHES + 1) 0xFFFF ∧
      t.rd d Fd.FF_COUNT.OVF_COUNT = min (s.rd d Fd.FF_COUNT.OVF_COUNT + (arr.length - 1)) 0xFFFF ∧
      t.stuckAt d Sk.FLT.LATCHED.page Sk.FLT.LATCHED.bit = true ∧
      (s.isHead = true → t.bus = s.bus ++ [(d, ⟨a.1, a.2, s.td0⟩)] ∧ t.device = s.device ∧ t.pins = s.pins ∧
        s.OnlyOn t fun e key => e = d ∧ pageKeys 11 key) ∧
      (s.isHead = false → t.rd 0 Fd.FF_SRC.CODE = a.1 ∧ t.flag 0 Fd.FF_SRC.VALID = true ∧
        t.pins.permit = false ∧ (∀ b, b < 3 → t.Drives b 0 s.now ∧ (t.bridge b).cur = none ∧ (t.bridge b).next = none) ∧
        (s.movedAt ≠ some s.td0 → t.device = (if s.followsHead then s.device else .lockout)) ∧
        (s.imgBusy 0 = false → s.OnlyOn t fun e key => e = 0 ∧ key / 0x1000 ∈ [0, 8, 11, 32])))) ∧
  (∀ (s : State) (d : Nat), s.alive d = false ∨ s.armed = false ∨ (s.die d).flt.arriving = [] → exec (.localLatch d) s = .next s) ∧
  (∀ s : State, s.shaped = true → s.isHead = true → s.alive 0 = true →
    ((∀ e ∈ s.bus, s.td0 < e.2.tick + 8) → exec .packageRecord s = .next s) ∧
    ∀ (r : Record) (recs : List Record),
      recs = ((s.bus.filter fun e => decide (e.2.tick + 8 ≤ s.td0)).filter fun e => s.alive e.1).map (·.2) →
      r ∈ recs → (∀ x ∈ recs, r.first x = true) → r.code < 4096 → r.ws < 64 →
      (s.flag 0 Fd.FF_SRC.VALID = true → Completes .packageRecord s fun t =>
        (∀ e, s.alive e = true → t.flag e Fd.FLT_STATUS.OVERFLOW = true ∧
          t.rd e Fd.FF_COUNT.OVF_COUNT = min (s.rd e Fd.FF_COUNT.OVF_COUNT + recs.length) 0xFFFF) ∧
        t.bus = s.bus.filter (fun e => decide (s.td0 < e.2.tick + 8)) ∧ t.device = s.device ∧
        s.OnlyOn t fun e key => s.alive e = true ∧
          (key = Fd.FLT_STATUS.W.key 0 ∨ key = Fd.FF_COUNT.W.key 0 ∨ stickyKeys 11 key)) ∧
      (s.flag 0 Fd.FF_SRC.VALID = false → Completes .packageRecord s fun t =>
        (∀ e, s.alive e = true → t.flag e Fd.FF_SRC.VALID = true ∧ t.rd e Fd.FF_SRC.CODE = r.code ∧ t.rd e Fd.FF_SRC.WS = r.ws ∧
          t.rd e Fd.FF_T_LO.W = loWord r.tick ∧ t.rd e Fd.FF_T_HI.W = hiWord r.tick ∧
          t.stuckAt e Sk.FLT.LATCHED.page Sk.FLT.LATCHED.bit = true ∧
          (s.blockEn e 7 = true → 2 ≤ s.rd e Fd.RING_CTRL.MODE →
            (t.head e).blockOut = some ⟨r.code, r.tick, 4, s.td0 + 16⟩)) ∧
        t.bus = s.bus.filter (fun e => decide (s.td0 < e.2.tick + 8)) ∧ t.pins.permit = false ∧
        (s.device.switching = true ∨ s.arming.isSome = true → s.movedAt ≠ some s.td0 → t.device = .lockout ∧ t.last = s.device ∧ t.arming = none) ∧
        (s.device.switching = false → s.arming = none → s.movedAt ≠ some s.td0 → t.device = s.device) ∧
        ((∀ e, s.imgBusy e = false) → s.OnlyOn t fun _ key => key / 0x1000 ∈ [0, 10, 11, 15]))) ∧
  (∀ s : State, s.shaped = true → s.sane = true → s.alive 0 = true → s.followsHead = false →
    (s.anySource = true ∨ (s.die 0).flt.noClear = true → Completes (.clear 0) s fun t =>
      t.stuckAt 0 Sk.FLT.CLEAR_REFUSED.page Sk.FLT.CLEAR_REFUSED.bit = true ∧ s.OnlyKeys t 0 (stickyKeys 11)) ∧
    (s.anySource = false → (s.die 0).flt.noClear = false → Completes (.clear 0) s fun t =>
      (∀ e, e < s.part.dies → t.flag e Fd.LOC_SRC.VALID = false ∧ t.flag e Fd.FF_SRC.VALID = false ∧
        t.flag e Fd.FLT_STATUS.OVERFLOW = false ∧ t.rd e Fd.FF_COUNT.OVF_COUNT = 0) ∧ t.bus = s.bus ∧
      (s.device = .lockout → s.movedAt ≠ some s.td0 → t.device = .standstill ∧ t.last = .lockout ∧ t.changes = s.changes + 1 ∧ t.pins.permit = false) ∧
      (s.device ≠ .lockout → t.device = s.device ∧ t.pins.permit = s.device.switching) ∧
      s.OnlyOn t fun e key => e < s.part.dies ∧ key / 0x1000 ∈ [0, 8, 11, 32])) ∧
  (∀ (s : State) (d : Nat), s.sane = true → d ≠ 0 ∨ s.followsHead = true → exec (.clear d) s = .next s) ∧
  ∀ (s : State) (d : Nat) (v : Word), s.shaped = true → s.sane = true → s.alive d = true →
    (d ≠ 0 → exec (.ffReactWrite d v) s = .next s) ∧
    (d = 0 → s.device = .config → Completes (.ffReactWrite d v) s fun t =>
      t.rd 0 Fd.FF_REACT.CAPTURE = bitsOf v.toNat 19 16 ∧ t.flag 0 Fd.FF_REACT.REC_TRIG = bitOf v.toNat 2 ∧
      t.rd 0 Fd.FF_REACT.PERMIT = s.rd 0 Fd.FF_REACT.PERMIT ∧ t.rd 0 Fd.FF_REACT.BLOCK = s.rd 0 Fd.FF_REACT.BLOCK ∧
      s.OnlyKeys t 0 (· = Fd.FF_REACT.W.key 0)) ∧
    (d = 0 → s.device ≠ .config → Completes (.ffReactWrite d v) s fun t =>
      t.stuckAt 0 Sk.FLT.REACT_REJECTED.page Sk.FLT.REACT_REJECTED.bit = true ∧ s.OnlyKeys t 0 (stickyKeys 11))

/-- 17 R458-R466, 02 R53, 22 R547. -/
def Obligations.thermal_and_power : Prop :=
  (∀ (s : State) (d : Nat) (raws : List Int) (raw : Int) (nb : Option Int × Option Int), s.sized = true → s.sane = true → s.alive d = true →
    s.td0 % 80000 = 0 → raw = satS 16 (raws.getD d 0) → nb = s.neighbours d raws → Completes (.tempSample d raws) s fun t =>
      t.rdS d Fd.THM_READ.RAW = raw ∧
      t.rdS d Fd.THM_READ.EFF = (if t.flag d Fd.THM_STATUS.SUSPECT then
        (match nb.2 with
          | some m => satS 16 (m + 8 * (s.rd d Fd.THM_XCHK.SUBST : Int))
          | none => 8 * (s.rd d Fd.THM_THR.SET : Int))
        else raw) ∧
      t.rdS d Fd.THM_STATUS.EFF = t.rdS d Fd.THM_READ.EFF ∧
      t.rdS d Fd.THM_PEAK.PEAK = max (s.rdS d Fd.THM_PEAK.PEAK) (t.rdS d Fd.THM_READ.EFF) ∧
      ((s.sensorFails d raw nb.1).1 = true → t.flag d Fd.THM_STATUS.SUSPECT = true ∧
        (s.flag d Fd.THM_STATUS.SUSPECT = false → t.stuckAt d Sk.THM.SUSPECT.page Sk.THM.SUSPECT.bit = true ∧
          t.rd d Fd.THM_COUNT.SUSPECTS = min (s.rd d Fd.THM_COUNT.SUSPECTS + 1) 0xFFFF) ∧
        (s.flag d Fd.THM_XCHK.SENS_FLT = true → 0x0C1 ∈ (t.die d).flt.present)) ∧
      ((s.sensorFails d raw nb.1).1 = false →
        (s.flag d Fd.THM_STATUS.SUSPECT = false → t.flag d Fd.THM_STATUS.SUSPECT = false) ∧
        (s.flag d Fd.THM_STATUS.SUSPECT = true → t.flag d Fd.THM_STATUS.SUSPECT =
          !decide ((s.die d).thm.agreeAt.getD s.td0 + max 1 (s.rd d Fd.THM_XCHK.AGREE) * 800000 ≤ s.td0))) ∧
      (∀ i, i < 3 →
        let eff := t.rdS d Fd.THM_READ.EFF
        let set := 8 * (s.rd d (lvl Fd.THM_WARN.SET i) : Int)
        let low := set - 8 * (s.rd d (lvl Fd.THM_WARN.HYS i) : Int)
        let dwell := max 1 (s.rd d (lvl Fd.THM_WARN.DWELL i)) * 80000
        (set ≤ eff → ((s.die d).thm.setAt.getD i none).getD s.td0 + dwell ≤ s.td0 → t.flag d (lvlBit i) = true ∧
          (s.flag d (lvlBit i) = false → t.stuckAt d 0xC (1 + i) = true ∧ (i = 2 → 0x0C0 ∈ (t.die d).flt.present))) ∧
        (set ≤ eff → s.td0 < ((s.die d).thm.setAt.getD i none).getD s.td0 + dwell → t.flag d (lvlBit i) = s.flag d (lvlBit i)) ∧
        (low ≤ eff → eff < set → t.flag d (lvlBit i) = s.flag d (lvlBit i)) ∧
        (eff < low → t.flag d (lvlBit i) =
          (s.flag d (lvlBit i) && decide (s.td0 < ((s.die d).thm.relAt.getD i none).getD s.td0 + dwell)))) ∧
      (0x0C0 ∈ (s.die d).flt.present → 0x0C0 ∈ (t.die d).flt.present) ∧
      (∀ key, ¬(pageKeys 12 key ∨ s.isHead = false ∧ key = ctxKey 1 2) → t.cell d key = s.cell d key) ∧
      (s.lstate d = 0 → s.OnlyKeys t d fun key => pageKeys 12 key ∨ s.isHead = false ∧ key = ctxKey 1 2)) ∧
  (∀ (s : State) (d : Nat) (raws : List Int), s.sane = true → s.td0 % 80000 ≠ 0 → exec (.tempSample d raws) s = .next s) ∧
  (∀ (s : State) (d n : Nat), s.shaped = true → s.sane = true → s.isHead = true → s.on d 7 = true → s.ringMode d = 3 → 1 ≤ n → n ≤ s.nodes d →
    s.nbrDue d n = true → Completes (.neighbourWrite d n) s fun t =>
      (∃ w, (t.head d).remotes = (s.head d).remotes ++ [⟨n, true, nodeAddr Fd.THM_NBR.W, w, false, none⟩] ∧
        (s.reachable d (n - 1) = false → s.reachable d (n + 1) = false → w = 0x80008000#32) ∧
        (∀ k, (k = n - 1 ∧ k ≠ n ∧ s.reachable d (n + 1) = false) ∨ (k = n + 1 ∧ (n = 1 ∨ s.reachable d (n - 1) = false)) →
          s.reachable d k = true → w = s.ctx d k 2 ++ s.ctx d k 2) ∧
        (2 ≤ n → s.reachable d (n - 1) = true → s.reachable d (n + 1) = true → w.toNat =
          ux 16 (max (s.ctx d (n - 1) 2).toInt (s.ctx d (n + 1) 2).toInt) * 65536 +
            ux 16 (((s.ctx d (n - 1) 2).toInt + (s.ctx d (n + 1) 2).toInt) / 2))) ∧
      t.nbrDue d n = false ∧ s.OnlyKeys t d fun _ => False) ∧
  (∀ (s : State) (d n : Nat), s.sane = true → s.nbrDue d n = false → exec (.neighbourWrite d n) s = .next s) ∧
  ∀ (s : State) (d : Nat), s.shaped = true → s.sane = true → s.alive d = true → Completes (.pagePowerUpdate d) s fun t =>
    (∀ p, p < 17 → if s.drawsNothing d p then t.cell d (hdrKey p 0x18) = 0
      else (powerRange s.isHead d p).1 ≤ (t.cell d (hdrKey p 0x18)).toNat ∧
        (t.cell d (hdrKey p 0x18)).toNat ≤ (powerRange s.isHead d p).2) ∧
    (s.isHead = false → t.nodeField 1 = BitVec.ofNat 16 (t.powerSum 0)) ∧
    s.OnlyKeys t d fun key => (∃ p, p < 17 ∧ key = hdrKey p 0x18) ∨ s.isHead = false ∧ key = ctxKey 1 1

/-- 18 R470-R480. -/
def Obligations.memory_slices : Prop :=
  (∀ (s : State) (d : Nat) (c : Bool), s.sized = true → s.sane = true →
    c = (s.testsRun d && !s.throttled d && s.flag d Fd.BIST_CTRL.SLICE_EN && !s.burning && (s.bist d).slice.isNone && s.sliceDue d &&
      !s.criticalBusy d && (s.die d).ep.running.isNone && !s.milestoneNear d) →
    (c = false → exec (.sliceStart d) s = .next s) ∧
    ∀ m j, c = true → s.nextTest d = some (m, j) → Completes (.sliceStart d) s fun t =>
      t.flag d Fd.BIST_STATUS.SLICE_BUSY = true ∧ t.rd d Fd.BIST_STATUS.MACRO = m ∧ t.rd d Fd.BIST_STATUS.SLICE = j ∧
      (t.bist d).slice = some s.td0 ∧ s.macroFailed d m = false ∧
      ((s.bist d).nextMacro < 256 → (s.bist d).nextSlice < 16 → s.macroFailed d (s.bist d).nextMacro = false →
        m = (s.bist d).nextMacro ∧ j = (s.bist d).nextSlice) ∧ s.OnlyKeys t d (· = Fd.BIST_STATUS.W.key 0)) ∧
  (∀ (s : State) (d : Nat) (fails : List FailCell), s.sane = true → (s.bist d).slice = none → exec (.sliceEnd d fails) s = .next s) ∧
  (∀ (s : State) (d m j : Nat) (t0 : Int) (c : Bool) (fails : List FailCell), s.sized = true → s.sane = true → s.alive d = true →
    (s.bist d).slice = some t0 → m = s.rd d Fd.BIST_STATUS.MACRO → j = s.rd d Fd.BIST_STATUS.SLICE →
    c = (decide (t0 + 780 + (s.bist d).lent ≤ s.td0) && fails.all fun f => failFits f j ((s.td0 : Int) - t0 - 780).toNat t0) →
    (c = false → exec (.sliceEnd d fails) s = .next s) ∧
    (c = true → fails = [] → Completes (.sliceEnd d fails) s fun t =>
      t.flag d Fd.BIST_STATUS.SLICE_BUSY = false ∧ t.rd d Fd.SLICE_TIME.LAST_TICKS = min ((s.td0 : Int) - t0).toNat 0xFFFF ∧
      (t.bist d).slice = none ∧ (t.bist d).retest = false ∧
      ((s.bist d).retest = true → t.stuckAt d Sk.BIST.REPAIRED.page Sk.BIST.REPAIRED.bit = true ∧ t.stuckAt d (macroPage m) 30 = true) ∧
      (s.macroFailed d m = false → j < 15 → (t.bist d).nextMacro = m ∧ (t.bist d).nextSlice = j + 1 ∧
        t.rd d Fd.BIST_PASS.PASSES = s.rd d Fd.BIST_PASS.PASSES) ∧
      ((∀ k, m < k → k < 256 → s.macroFailed d k = true) → j = 15 → (t.bist d).nextMacro = 0 ∧ (t.bist d).nextSlice = 0 ∧
        t.rd d Fd.BIST_PASS.PASSES = min (s.rd d Fd.BIST_PASS.PASSES + 1) 0xFFFF ∧
        t.stuckAt d Sk.BIST.PASS_DONE.page Sk.BIST.PASS_DONE.bit = true) ∧
      s.OnlyKeys t d fun key => pageKeys 13 key ∨ stickyKeys (macroPage m) key) ∧
    ∀ words, c = true → fails ≠ [] → words = ((sortBy failFirst fails).map (·.word)).eraseDups → Completes (.sliceEnd d fails) s fun t =>
      t.flag d Fd.BIST_STATUS.SLICE_BUSY = false ∧ (t.bist d).slice = none ∧
      t.rd d Fd.FAIL_COUNT.FAIL_BITS = min (s.rd d Fd.FAIL_COUNT.FAIL_BITS + fails.length) 0xFFFF ∧
      t.rd d Fd.FAIL_COUNT.FAILED_SLICES = min (s.rd d Fd.FAIL_COUNT.FAILED_SLICES + 1) 0xFFFF ∧
      t.stuckAt d Sk.BIST.MEM_FAULT.page Sk.BIST.MEM_FAULT.bit = true ∧ t.stuckAt d (macroPage m) 29 = true ∧
      (∀ f, s.stuckAt d Sk.BIST.MEM_FAULT.page Sk.BIST.MEM_FAULT.bit = false → (sortBy failFirst fails).head? = some f →
        t.rd d Fd.FAIL_LOC.MACRO = m ∧ t.rd d Fd.FAIL_LOC.WORD = f.word ∧ t.rd d Fd.FAIL_LOC.BIT = f.bit ∧
        t.flag d Fd.FAIL_LOC.EXP = f.exp ∧ t.rd d Fd.FAIL_LOC.ELEMENT = f.element ∧ t.rd d Fd.FAIL_T.W = loWord f.tick) ∧
      ((s.bist d).retest = false → s.flag d Fd.BIST_CTRL.REP_MODE = true → s.rd d Fd.MACRO_STAT.ROWS_USED m + words.length ≤ 2 →
        (t.bist d).retest = true ∧
        t.rd d Fd.MACRO_STAT.ROWS_USED m = s.rd d Fd.MACRO_STAT.ROWS_USED m + words.length ∧
        (∀ w, s.rd d Fd.MACRO_STAT.ROWS_USED m = 0 → words.head? = some w → t.rd d Fd.MACRO_STAT.ROW0 m = w) ∧
        (∀ w, s.rd d Fd.MACRO_STAT.ROWS_USED m = 1 → words.head? = some w → t.rd d Fd.MACRO_STAT.ROW1 m = w ∧
          t.rd d Fd.MACRO_STAT.ROW0 m = s.rd d Fd.MACRO_STAT.ROW0 m) ∧
        t.macroFailed d m = s.macroFailed d m) ∧
      ((s.bist d).retest = true ∨ s.flag d Fd.BIST_CTRL.REP_MODE = false → t.macroFailed d m = true ∧ (t.bist d).retest = false ∧
        t.stuckAt d Sk.BIST.UNREPAIRABLE.page Sk.BIST.UNREPAIRABLE.bit = true ∧
        (s.flag d Fd.BIST_CTRL.MEM_FLT = true → 0x0D0 ∈ (t.die d).flt.present)) ∧
      s.OnlyKeys t d fun key => pageKeys 13 key ∨ stickyKeys (macroPage m) key ∨ ∃ f ∈ fails, key ∈ wordKeys m f.word) ∧
  (∀ (s : State) (d m n : Nat), s.sized = true → s.sane = true → s.alive d = true → m < 256 → n = (s.unfused d m).length →
    (s.device = .standstill ∧ s.burning = false ∧ n ≠ 0 ∧ n ≤ (s.freeRepairs d).length → Completes (.fuseBurn d m) s fun t =>
      t.flag d Fd.BIST_STATUS.FUSE_BUSY = true ∧ (t.bist d).burn = some (m, (s.freeRepairs d).zip (s.unfused d m)) ∧ t.burning = true ∧
      s.OnlyKeys t d (· = Fd.BIST_STATUS.W.key 0)) ∧
    (¬(s.device = .standstill ∧ s.burning = false ∧ n ≠ 0 ∧ n ≤ (s.freeRepairs d).length) → Completes (.fuseBurn d m) s fun t =>
      t.stuckAt d Sk.BIST.FUSE_REFUSED.page Sk.BIST.FUSE_REFUSED.bit = true ∧ s.OnlyKeys t d (stickyKeys 13))) ∧
  ∀ (s : State) (d m : Nat) (l : List (Nat × Nat × Nat)), s.sized = true → s.sane = true → s.alive d = true → m < 256 →
    ((s.bist d).burn = none → exec (.fuseDone d) s = .next s) ∧
    ((s.bist d).burn = some (m, l) → l.Pairwise (fun p q => p.1 ≠ q.1) → (∀ p ∈ l, p.1 < 32 ∧ p.2.1 < 4 ∧ p.2.2 < 1024) → Completes (.fuseDone d) s fun t =>
      t.flag d Fd.BIST_STATUS.FUSE_BUSY = false ∧ (t.bist d).burn = none ∧
      t.stuckAt d Sk.BIST.FUSE_DONE.page Sk.BIST.FUSE_DONE.bit = true ∧
      (∀ p ∈ l, s.repairEntry d p.1 = 0 → t.repairEntry d p.1 = m * 4096 + p.2.1 * 1024 + p.2.2) ∧
      (∀ k, (s.sec d).fuses.getLsbD k = true → (t.sec d).fuses.getLsbD k = true) ∧
      t.rd d Fd.BIST_FUSE_STAT.FREE = (t.freeRepairs d).length ∧ s.OnlyKeys t d (pageKeys 13))

/-- 18 R482-R486. -/
def Obligations.engine_test_and_patrol : Prop :=
  (∀ (s : State) (d e i : Nat) (t0 : Int) (rest : List Nat), s.sized = true → s.sane = true → s.testsRun d = true → s.throttled d = false → s.on d 5 = true →
    s.flag d Fd.BIST_CTRL.ENG_EN = true → (s.bist d).eng = none → s.engTarget d = some (e, t0) → e < 6 →
    (s.waitingOn d e = [] → s.critRes d e < (s.freeInst d e).length → s.freeInst d e = i :: rest →
      Completes (.engineTestStart d) s fun t =>
        t.inst d e i = { s.inst d e i with test := true } ∧ (t.bist d).eng = some (e, i) ∧ (t.bist d).engFirst = s.firstIssue d i ∧
        (t.bist d).target = e ∧ (t.bist d).engAt = t0 ∧ t.flag d Fd.BIST_STATUS.ENG_TEST = true ∧
        (∀ k, k ≠ 8 * e + i → (t.die d).le.inst.getD k Inst.idle = (s.die d).le.inst.getD k Inst.idle) ∧
        s.OnlyKeys t d (· = Fd.BIST_STATUS.W.key 0)) ∧
    (s.waitingOn d e ≠ [] ∨ (s.freeInst d e).length ≤ s.critRes d e → exec (.engineTestStart d) s = .next s)) ∧
  (∀ (s : State) (d : Nat), s.sane = true → s.testsRun d = false ∨ s.throttled d = true ∨ s.on d 5 = false ∨ s.flag d Fd.BIST_CTRL.ENG_EN = false ∨
    (s.bist d).eng.isSome = true → exec (.engineTestStart d) s = .next s) ∧
  (∀ (s : State) (d e i n : Nat), s.sized = true → s.sane = true → s.alive d = true → (s.bist d).eng = some (e, i) → e < 6 → i < 8 →
    n = s.testIssues d →
    (s.testCut d = true → Completes (.engineTestYield d) s fun t =>
      (t.bist d).eng = none ∧ (t.inst d e i).test = false ∧ t.flag d Fd.BIST_STATUS.ENG_TEST = false ∧ t.rd d Fd.ENG_ISSUES.ISSUES = n ∧
      (n < 1536 → (t.bist d).again = true ∧ (t.bist d).target = (s.bist d).target ∧
        t.stuckAt d Sk.BIST.INCOMPLETE.page Sk.BIST.INCOMPLETE.bit = true) ∧
      s.OnlyKeys t d (pageKeys 13)) ∧
    (s.testCut d = false → exec (.engineTestYield d) s = .next s)) ∧
  (∀ (s : State) (d issues : Nat) (sig : Word), s.sane = true → s.testIssues d < issues ∨ (s.bist d).eng = none →
    exec (.engineTestEnd d issues sig) s = .next s) ∧
  (∀ (s : State) (d e i issues : Nat) (sig : Word), s.sized = true → s.sane = true → s.alive d = true → (s.bist d).eng = some (e, i) →
    e < 6 → i < 8 → issues ≤ s.testIssues d →
    (Completes (.engineTestEnd d issues sig) s fun t =>
      (t.bist d).eng = none ∧ (t.inst d e i).test = false ∧ t.flag d Fd.BIST_STATUS.ENG_TEST = false ∧
      t.rd d Fd.ENG_ISSUES.ISSUES = issues ∧ t.rd d Fd.ENG_SIG.W = sig.toNat ∧ t.rd d Fd.ENG_STAT.LAST_ENG = e ∧
      t.rd d Fd.ENG_STAT.LAST_INST = i ∧ t.flag d (engBit 8 e) = decide (issues < 1536) ∧ (t.bist d).again = decide (issues < 1536) ∧
      (issues < 1536 → t.stuckAt d Sk.BIST.INCOMPLETE.page Sk.BIST.INCOMPLETE.bit = true ∧
        t.rd d Fd.ENG_STAT.PASSED = s.rd d Fd.ENG_STAT.PASSED ∧ t.rd d Fd.ENG_STAT.FAILED = s.rd d Fd.ENG_STAT.FAILED) ∧
      (issues = 1536 → sig = Config.sigExp → t.flag d (engBit 24 e) = true ∧ e ∉ (t.bist d).failing ∧
        ((∀ k ∈ (s.bist d).failing, k = e) → 0x0D1 ∉ (t.die d).flt.present)) ∧
      (issues = 1536 → sig ≠ Config.sigExp → t.flag d (engBit 16 e) = true ∧ e ∈ (t.bist d).failing ∧
        t.stuckAt d Sk.BIST.SIG_FAIL.page Sk.BIST.SIG_FAIL.bit = true ∧
        (s.flag d Fd.BIST_CTRL.ENG_FLT = true → 0x0D1 ∈ (t.die d).flt.present)) ∧
      s.OnlyKeys t d (pageKeys 13))) ∧
  ∀ (s : State) (d l : Nat) (first second c : Bool), s.sized = true → s.sane = true →
    c = (s.testsRun d && s.dramOn d && s.flag d Fd.BIST_CTRL.PATROL_EN && s.patrolDue d) → l = s.patrolLine d →
    (c = false → exec (.patrolRead d first second) s = .next s) ∧
    (c = true → Completes (.patrolRead d first second) s fun t =>
      t.rd d Fd.PATROL_POS.LINE = (if s.rd d Fd.PATROL_HI.LINE ≤ l then s.rd d Fd.PATROL_LO.LINE else l + 1) ∧
      (t.bist d).patrolAt = some s.td0 ∧
      (if l ∈ (s.die d).recorder.written ∧ first = true then
        t.rd d Fd.PATROL_COUNT.W = s.rd d Fd.PATROL_COUNT.W ∧ s.OnlyKeys t d (· = Fd.PATROL_POS.W.key 0)
      else if l ∈ (s.die d).recorder.written ∧ second = true then
        t.rd d Fd.PATROL_COUNT.SOFT = min (s.rd d Fd.PATROL_COUNT.SOFT + 1) 0xFFFF ∧
        t.rd d Fd.PATROL_COUNT.HARD = s.rd d Fd.PATROL_COUNT.HARD ∧
        t.stuckAt d Sk.BIST.PATROL_SOFT.page Sk.BIST.PATROL_SOFT.bit = true
      else
        t.rd d Fd.PATROL_COUNT.HARD = min (s.rd d Fd.PATROL_COUNT.HARD + 1) 0xFFFF ∧
        t.rd d Fd.PATROL_COUNT.SOFT = s.rd d Fd.PATROL_COUNT.SOFT ∧
        t.rd d Fd.PATROL_ERR.ERR_LINE = l ∧ t.stuckAt d Sk.BIST.PATROL_ERR.page Sk.BIST.PATROL_ERR.bit = true) ∧
      s.OnlyKeys t d (pageKeys 13))

/-- 19 R492, R494-R499. A word of an image meets an enabled slot's program: the misuse of R498. -/
def Obligations.signed_images : Prop :=
  (∀ (s : State) (d : Nat) (type : BitVec 3), s.sized = true → s.sane = true → s.alive d = true →
    (s.rd d Fd.IMG_STAT.STAT = 2 → Completes (.imageStart d type) s fun t =>
      t.stuckAt d Sk.SEC.SEC_BUSY.page Sk.SEC.SEC_BUSY.bit = true ∧ t.rd d Fd.IMG_STAT.W = s.rd d Fd.IMG_STAT.W ∧
      s.OnlyKeys t d (stickyKeys 14)) ∧
    (s.imgBusy d = false → Completes (.imageStart d type) s fun t =>
      (s.loadState = true → t.rd d Fd.IMG_STAT.W = 1 ∧ t.imgWords d = [] ∧ (t.sec d).type = type.toNat) ∧
      (s.loadState = false → t.rd d Fd.IMG_STAT.STAT = 3 ∧ t.rd d Fd.IMG_STAT.RESULT = 9 ∧
        t.stuckAt d Sk.SEC.IMG_FAIL.page Sk.SEC.IMG_FAIL.bit = true) ∧
      s.OnlyKeys t d fun key => key = Fd.IMG_CTRL.W.key 0 ∨ key = Fd.IMG_STAT.W.key 0 ∨ stickyKeys 14 key) ∧
    (s.rd d Fd.IMG_STAT.STAT = 1 → s.loadState = true → Completes (.imageStart d type) s fun t =>
      t.rd d Fd.IMG_STAT.W = 1 ∧ t.imgWords d = [] ∧ (t.sec d).type = type.toNat ∧
      t.stuckAt d Sk.SEC.IMG_FAIL.page Sk.SEC.IMG_FAIL.bit = true)) ∧
  (∀ (s : State) (d n : Nat) (w : Word) (ws : List Word), s.sized = true → s.sane = true → s.alive d = true → n = (s.imgWords d).length →
    ws = s.imgWords d ++ [w] →
    (s.rd d Fd.IMG_STAT.STAT ≠ 1 → exec (.imageWord d w) s = .next s) ∧
    (s.rd d Fd.IMG_STAT.STAT = 1 → n < 44 ∨ 44 + bodyWords ws ≤ n → Completes (.imageWord d w) s fun t =>
      t.imgWords d = ws ∧ t.rd d Fd.IMG_STAT.STAT = (if 44 ≤ n + 1 ∧ n + 1 = wholeWords ws then 2 else 1) ∧
      t.rd d Fd.IMG_STAT.WORDS = min (s.rd d Fd.IMG_STAT.WORDS + 1) 0xFFFFFF ∧ s.OnlyKeys t d (· = Fd.IMG_STAT.W.key 0)) ∧
    ∀ k dead, s.rd d Fd.IMG_STAT.STAT = 1 → 44 ≤ n → n < 44 + bodyWords ws → imgDest (s.sec d).type ws (n - 44) = .cell k dead →
      (dead ≠ 0 → s.progInUse d k = true → Completes (.imageWord d w) s fun t => t.imgWords d = ws ∧ (498, d, 14) ∈ t.misused ∧
        ∃ u, s.OnlyKeys u d (· = Fd.IMG_STAT.W.key 0) ∧ u.Misused t 498 d 14) ∧
      (dead = 0 ∨ s.progInUse d k = false → Completes (.imageWord d w) s fun t =>
        t.imgWords d = ws ∧ t.cell d k = (if dead = 0 then w &&& 0xFFFF#32 else w) ∧ t.rd d Fd.IMG_STAT.STAT = 1 ∧
        s.OnlyKeys t d fun key => key = k ∨ key = Fd.IMG_STAT.W.key 0)) ∧
  (∀ (s : State) (d : Nat), s.sized = true → s.sane = true → s.alive d = true →
    (s.imgBusy d = false → exec (.imageAbort d) s = .next s) ∧
    (s.imgBusy d = true → Completes (.imageAbort d) s fun t =>
      t.rd d Fd.IMG_STAT.STAT = 3 ∧ t.rd d Fd.IMG_STAT.RESULT = 8 ∧ t.imgWords d = [] ∧
      t.stuckAt d Sk.SEC.IMG_FAIL.page Sk.SEC.IMG_FAIL.bit = true ∧
      (∀ i k dead, i < (s.imgWords d).length - 44 → i < bodyWords (s.imgWords d) →
        imgDest (s.sec d).type (s.imgWords d) i = .cell k dead → t.cell d k = dead) ∧
      ((s.sec d).type = 1 → s.OnlyKeys t d fun key => key = Fd.IMG_STAT.W.key 0 ∨ stickyKeys 14 key ∨
        ∃ i dead, i < bodyWords (s.imgWords d) ∧ imgDest 1 (s.imgWords d) i = .cell key dead))) ∧
  (∀ (s : State) (d : Nat) (ws : List Word) (pub : List Byte), s.sized = true → ws = s.imgWords d → pub = imgBytes ws 72 97 →
    s.imgResult d ≠ 0 ∨ hdrNum ws 0 4 = 0x4B4C4431 ∧ hdrNum ws 4 1 = (s.sec d).type ∧ s.usable d (hdrNum ws 5 1) = true ∧
      (Config.sha384 pub).toNat = s.ownerSlot d (hdrNum ws 5 1) ∧ (hdrNum ws 16 8 = 0 ∨ hdrNum ws 16 8 = s.idOf d) ∧
      Config.ecdsaVerify pub (imgBytes ws 0 (176 + imgLen ws)) (imgBytes ws (176 + imgLen ws) 96) = true) ∧
  ∀ (s : State) (d r : Nat) (ws : List Word), s.sized = true → s.sane = true → s.alive d = true → r = s.imgResult d → ws = s.imgWords d →
    (s.rd d Fd.IMG_STAT.STAT ≠ 2 → exec (.imageVerified d) s = .next s) ∧
    (s.rd d Fd.IMG_STAT.STAT = 2 → (s.sec d).type ≠ 3 → Completes (.imageVerified d) s fun t =>
      t.rd d Fd.IMG_STAT.STAT = 3 ∧ t.rd d Fd.IMG_STAT.RESULT = r ∧ t.imgWords d = [] ∧
      if r = 0 then t.stuckAt d Sk.SEC.IMG_OK.page Sk.SEC.IMG_OK.bit = true ∧
        (t.sec d).digest.getD ((s.sec d).type - 1) [] = beBytes 48 (Config.sha384 (imgBytes ws 0 (176 + imgLen ws))).toNat ∧
        s.OnlyKeys t d fun key => key = Fd.IMG_STAT.W.key 0 ∨ stickyKeys 14 key
      else t.stuckAt d Sk.SEC.IMG_FAIL.page Sk.SEC.IMG_FAIL.bit = true ∧ (t.sec d).digest = (s.sec d).digest ∧
        ∀ i k dead, i < ws.length - 44 → i < bodyWords ws → imgDest (s.sec d).type ws i = .cell k dead → t.cell d k = dead) ∧
    (s.rd d Fd.IMG_STAT.STAT = 2 → (s.sec d).type = 3 → exec (.imageVerified d) s =
      if r = 0 then applyEntries d (imgEntries ws) (s.imgEnd d 0) else .next (s.imgEnd d r)) ∧
    ∀ a v k u, agentWrite true (BitVec.ofNat 32 a) v s = (k, .next u) → u.shaped = true → ∃ t, applyEntries d [(a, v)] s = .next t ∧
      (k < 2 → t = u) ∧ (2 ≤ k → u.alive d = true → t.stuckAt d Sk.SEC.CFG_ENTRY_ERR.page Sk.SEC.CFG_ENTRY_ERR.bit = true ∧
        u.OnlyKeys t d (stickyKeys 14))

/-- 19 R491-R493, R500-R507. -/
def Obligations.security_operations : Prop :=
  (∀ (s : State) (d : Nat) (slot : BitVec 2), s.sized = true → s.sane = true → s.alive d = true →
    (d ≠ 0 → (Completes (.attest d) s fun t => (t.sec d).op = (s.sec d).op ∧ s.OnlyKeys t d (· = Fd.OP_CTRL.W.key 0)) ∧
      Completes (.establishKey d slot) s fun t => (t.sec d).op = (s.sec d).op ∧ s.OnlyKeys t d (· = Fd.OP_CTRL.W.key 0)) ∧
    (d = 0 → s.secBusy 0 = true → ∀ c, c = .attest 0 ∨ c = .establishKey 0 slot → Completes c s fun t =>
      t.stuckAt 0 Sk.SEC.SEC_BUSY.page Sk.SEC.SEC_BUSY.bit = true ∧ (t.sec 0).op = (s.sec 0).op ∧
      s.OnlyKeys t 0 fun key => key = Fd.OP_CTRL.W.key 0 ∨ stickyKeys 14 key) ∧
    (d = 0 → s.secBusy 0 = false →
      (Completes (.attest 0) s fun t => t.rd 0 Fd.OP_STAT.STAT = 1 ∧
        (∃ sig : List Byte, sig.length = 96 ∧ (t.sec 0).op = some (1, 0, s.report 0 ++ sig)) ∧
        (s.report 0).take 4 = beBytes 4 0x4B4C4441 ∧
        s.OnlyKeys t 0 fun key => key = Fd.OP_CTRL.W.key 0 ∨ key = Fd.OP_STAT.W.key 0) ∧
      Completes (.establishKey 0 slot) s fun t => t.rd 0 Fd.OP_STAT.STAT = 1 ∧
        (t.sec 0).op = some (2, s.keyResult 0 slot.toNat, s.newKey 0 (s.bufBytes 0 97)) ∧
        (s.usable 0 slot.toNat = false → s.keyResult 0 slot.toNat = 3) ∧
        s.OnlyKeys t 0 fun key => key = Fd.OP_CTRL.W.key 0 ∨ key = Fd.OP_STAT.W.key 0)) ∧
  (∀ (s : State) (d op r : Nat) (key : List Byte), s.sized = true → s.sane = true → s.alive d = true →
    ((s.sec d).op = none → exec (.secOpDone d) s = .next s) ∧
    ((s.sec d).op = some (op, r, key) → r < 16 → key.length ≤ 512 → Completes (.secOpDone d) s fun t =>
      (t.sec d).op = none ∧ t.rd d Fd.OP_STAT.RESULT = r ∧ t.rd d Fd.OP_STAT.STAT = (if r = 0 then 2 else 3) ∧
      (r = 0 → t.stuckAt d Sk.SEC.OP_DONE.page Sk.SEC.OP_DONE.bit = true) ∧
      (r ≠ 0 → t.stuckAt d Sk.SEC.OP_FAIL.page Sk.SEC.OP_FAIL.bit = true) ∧
      (r = 0 ∧ op = 2 → (t.sec d).key = some key ∧ t.lastCounter d = s.rd d Fd.EPOCH.W * 2 ^ 32 ∧
        t.stuckAt d Sk.SEC.KEY_SET.page Sk.SEC.KEY_SET.bit = true) ∧
      (r = 0 → op ≠ 2 → t.bufBytes d key.length = key) ∧
      (¬(r = 0 ∧ op = 2) → (t.sec d).key = (s.sec d).key ∧ t.lastCounter d = s.lastCounter d) ∧ s.OnlyKeys t d (pageKeys 14))) ∧
  (∀ (s : State) (d : Nat), s.sized = true → s.sane = true → s.alive d = true →
    ((s.sec d).key = none ∨ (∃ k, (s.sec d).key = some k ∧
        (s.authTag d ≠ tagOf k (s.authMsg d) ∨ s.authCtr d / 2 ^ 32 ≠ s.rd d Fd.EPOCH.W)) → Completes (.authGo d) s fun t =>
      t.rd d Fd.AUTH_STAT.STAT = 2 ∧ t.stuckAt d Sk.SEC.AUTH_FAIL.page Sk.SEC.AUTH_FAIL.bit = true ∧ t.lastCounter d = s.lastCounter d ∧
      s.OnlyKeys t d fun key => key = Fd.AUTH_STAT.W.key 0 ∨ stickyKeys 14 key) ∧
    ∀ k, (s.sec d).key = some k → s.authTag d = tagOf k (s.authMsg d) → s.authCtr d / 2 ^ 32 = s.rd d Fd.EPOCH.W →
      (s.authCtr d ≤ s.lastCounter d → Completes (.authGo d) s fun t =>
        t.rd d Fd.AUTH_STAT.STAT = 3 ∧ t.stuckAt d Sk.SEC.REPLAY.page Sk.SEC.REPLAY.bit = true ∧ t.lastCounter d = s.lastCounter d ∧
        s.OnlyKeys t d fun key => key = Fd.AUTH_STAT.W.key 0 ∨ stickyKeys 14 key) ∧
      (s.lastCounter d < s.authCtr d →
        (∃ u, u.lastCounter d = s.authCtr d ∧ u.rd d Fd.AUTH_STAT.STAT = 1 ∧
          s.OnlyKeys u d (fun key => key ∈ [Fd.AUTH_STAT.W.key 0, Fd.CTR_LO.W.key 0, Fd.CTR_HI.W.key 0]) ∧
          exec (.authGo d) s = authWrite (BitVec.ofNat 32 (s.rd d Fd.AUTH_ADDR.W)) (BitVec.ofNat 32 (s.rd d Fd.AUTH_DATA.W)) u) ∧
        ∀ e x, e < s.part.dies → x = s.spot (s.rd d Fd.AUTH_ADDR.W) → x = .page e 12 0x28 → s.access x = .done → s.openSpot x = false →
          Completes (.authGo d) s fun t => t.lastCounter d = s.authCtr d ∧
            t.rd e Fd.THM_SHUT.SET = bitsOf (s.rd d Fd.AUTH_DATA.W) 7 0 ∧ t.rd e Fd.THM_SHUT.HYS = bitsOf (s.rd d Fd.AUTH_DATA.W) 15 8 ∧
            s.OnlyOn t fun k key => k = e ∧ key = Fd.THM_SHUT.W.key 0 ∨
              k = d ∧ key ∈ [Fd.AUTH_STAT.W.key 0, Fd.CTR_LO.W.key 0, Fd.CTR_HI.W.key 0])) ∧
  (∀ (s : State) (d : Nat) (slot : BitVec 2) (auth : Bool), s.sized = true → s.sane = true → s.alive d = true →
    (auth = false → s.partOwned = true → Completes (.fuseProgram d slot auth) s fun t =>
      t.stuckAt d 14 31 = true ∧ (t.sec d).burn = (s.sec d).burn ∧ s.OnlyKeys t d (stickyKeys 14)) ∧
    (auth = true ∨ s.partOwned = false → s.loadState = false ∨ s.ownSlot d slot.toNat ≠ 0 → exec (.fuseProgram d slot auth) s = .next s) ∧
    (auth = true ∨ s.partOwned = false → s.loadState = true → s.ownSlot d slot.toNat = 0 →
      (s.secBusy d = true ∨ s.burning = true → Completes (.fuseProgram d slot auth) s fun t =>
        t.stuckAt d Sk.SEC.SEC_BUSY.page Sk.SEC.SEC_BUSY.bit = true ∧ s.OnlyKeys t d (stickyKeys 14)) ∧
      (s.secBusy d = false → s.burning = false → Completes (.fuseProgram d slot auth) s fun t =>
        (t.sec d).burn = some (1, slot.toNat, beNat (s.bufBytes d 48)) ∧ (t.sec d).fuses = (s.sec d).fuses ∧
        s.OnlyKeys t d fun _ => False)) ∧
    (auth = false → Completes (.fuseRevoke d slot auth) s fun t =>
      t.stuckAt d 14 31 = true ∧ (t.sec d).burn = (s.sec d).burn ∧ s.OnlyKeys t d (stickyKeys 14)) ∧
    (auth = true → (∀ k, k < 4 → k ≠ slot.toNat → s.ownUsable d k = false) → s.ownUsable d slot.toNat = true →
      exec (.fuseRevoke d slot auth) s = .next s) ∧
    (auth = true → s.loadState = true → s.ownRevoked d slot.toNat = false →
      (s.ownUsable d slot.toNat = false ∨ ∃ k, k < 4 ∧ k ≠ slot.toNat ∧ s.ownUsable d k = true) → s.secBusy d = false →
      s.burning = false → Completes (.fuseRevoke d slot auth) s fun t =>
        (t.sec d).burn = some (2, slot.toNat, 1) ∧ s.OnlyKeys t d fun _ => False)) ∧
  ∀ (s : State) (d slot v : Nat), s.sized = true → s.sane = true → s.alive d = true → slot < 4 →
    ((s.sec d).burn = none → exec (.fuseOpDone d) s = .next s) ∧
    ((s.sec d).burn = some (1, slot, v) → v < 2 ^ 384 → s.ownSlot d slot = 0 → Completes (.fuseOpDone d) s fun t =>
      t.ownSlot d slot = v ∧ (t.sec d).burn = none ∧ t.stuckAt d Sk.SEC.OP_DONE.page Sk.SEC.OP_DONE.bit = true ∧
      (∀ k, k < 4 → k ≠ slot → t.ownSlot d k = s.ownSlot d k) ∧ (∀ k, k < 4 → t.ownRevoked d k = s.ownRevoked d k) ∧
      s.OnlyKeys t d (stickyKeys 14)) ∧
    ((s.sec d).burn = some (2, slot, 1) → Completes (.fuseOpDone d) s fun t =>
      t.ownRevoked d slot = true ∧ (t.sec d).burn = none ∧ t.stuckAt d Sk.SEC.OP_DONE.page Sk.SEC.OP_DONE.bit = true ∧
      (∀ k, k < 4 → t.ownSlot d k = s.ownSlot d k) ∧ (∀ k, k < 4 → k ≠ slot → t.ownRevoked d k = s.ownRevoked d k) ∧
      (d = 0 → ∀ e, e < s.part.dies → t.revoked e slot = true) ∧
      (∀ e, e ≠ d → t.die e = { s.die e with sec := { (s.die e).sec with copied := (t.sec e).copied } }) ∧
      (d ≠ 0 → ∀ e, e ≠ d → t.die e = s.die e) ∧ s.OnlyOn t fun e key => e = d ∧ stickyKeys 14 key)

/-- 20 R513-R518, R520. -/
def Obligations.streams_and_ledger : Prop :=
  (∀ (s : State) (d : Nat) (words : List (BitVec 16)), s.sized = true → s.sane = true → s.on d 0xF = true → s.flag d Fd.STREAM.EN = true →
    s.td0 % (s.period d * 800) = 0 → (s.die d).recorder.recAt ≠ some (s.td0 : Int) → words = (s.streamWords d).1 →
    (s.throttled d = true → s.gridIndex d s.td0 % 2 = 1 → Completes (.streamRecord d) s fun t =>
      t.rd d Fd.STREAM_COUNTS.THR_DROPS = min (s.rd d Fd.STREAM_COUNTS.THR_DROPS + 1) 0xFFFF ∧
      t.stuckAt d Sk.REC.STREAM_LOST.page Sk.REC.STREAM_LOST.bit = true ∧
      s.OnlyKeys t d fun key => key = Fd.STREAM_COUNTS.W.key 0 ∨ stickyKeys 15 key) ∧
    (s.throttled d = false → s.isHead = true →
      (s.ledgerTakes d s.td0 = false → Completes (.streamRecord d) s fun t => (t.die d).recorder.recAt = some (s.td0 : Int) ∧
        s.OnlyKeys t d fun _ => False) ∧
      (s.ledgerTakes d s.td0 = true → Completes (.streamRecord d) s fun t => ∃ page count head,
        (if (s.die d).recorder.pages = [] ∨ 189 ≤ (s.die d).recorder.count then
          page = (if (s.die d).recorder.pages = [] ∧ (s.die d).recorder.seq = 0 then (s.part3 d 0).1
            else s.nextPage d (s.die d).recorder.page) ∧ count = 0 ∧
          head = some (beBytes 8 s.td0 ++ beBytes 2 (s.period d) ++ [BitVec.ofNat 8 d, 0] ++ beBytes 4 (s.die d).recorder.seq)
        else page = (s.die d).recorder.page ∧ count = (s.die d).recorder.count ∧ head = none) ∧
        (t.die d).recorder.page = page ∧ (t.die d).recorder.count = count + 1 ∧
        t.dramBytes d (page * 3840 + (1 + count / 3) * 60 + count % 3 * 20) 20 =
          [0] ++ beBytes 3 (s.gridIndex d s.td0 % 2 ^ 24) ++ (words.map fun w => beBytes 2 w.toNat).flatten ∧
        (∀ h, head = some h → t.dramBytes d (page * 3840) 16 = h) ∧
        (∀ a, ¬(page * 3840 + (1 + count / 3) * 60 + count % 3 * 20 ≤ a ∧ a < page * 3840 + (1 + count / 3) * 60 + count % 3 * 20 + 20) →
          (head.isSome = true → ¬(page * 3840 ≤ a ∧ a < page * 3840 + 16)) → t.dramByte d a = s.dramByte d a) ∧
        t = { s with dies := t.dies, free := t.free } ∧ (∀ e, e ≠ d → t.die e = s.die e) ∧ ∀ key, t.cell d key = s.cell d key)) ∧
    (s.throttled d = false → s.isHead = false →
      (8 ≤ (s.die 0).recorder.queue.length → Completes (.streamRecord d) s fun t =>
        t.rd 0 Fd.STREAM_COUNTS.LOST = min (s.rd 0 Fd.STREAM_COUNTS.LOST + 1) 0xFFFF ∧
        t.stuckAt 0 Sk.REC.STREAM_LOST.page Sk.REC.STREAM_LOST.bit = true ∧
        s.OnlyKeys t 0 fun key => key = Fd.STREAM_COUNTS.W.key 0 ∨ stickyKeys 15 key) ∧
      ((s.die 0).recorder.queue.length < 8 → s.fillGap = false → Completes (.streamRecord d) s fun t => s.OnlyKeys t 0 (fun _ => False) ∧
        ((s.die 0).recorder.fill.length < 2 → (t.die 0).recorder.fill = (s.die 0).recorder.fill ++ [(s.td0, words)] ∧
          (t.die 0).recorder.queue = (s.die 0).recorder.queue) ∧
        ∀ a b, (s.die 0).recorder.fill = [a, b] → (t.die 0).recorder.fill = [] ∧
          (t.die 0).recorder.queue = (s.die 0).recorder.queue ++
            [capturePayload a.1 (s.die 0).recorder.fillLost (s.die 0).recorder.latched [a.2, b.2, words]]) ∧
      ((s.die 0).recorder.queue.length < 7 → s.fillGap = true → Completes (.streamRecord d) s fun t => s.OnlyKeys t 0 (fun _ => False) ∧
        (t.die 0).recorder.fill = [(s.td0, words)] ∧
        (t.die 0).recorder.queue = (s.die 0).recorder.queue ++
          [capturePayload ((s.die 0).recorder.fill.headD (0, [])).1 (s.die 0).recorder.fillLost (s.die 0).recorder.latched
            ((s.die 0).recorder.fill.map (·.2))]))) ∧
  (∀ (s : State) (d : Nat), s.sane = true → s.on d 0xF = false ∨ s.flag d Fd.STREAM.EN = false ∨ s.td0 % (s.period d * 800) ≠ 0 ∨
      (s.die d).recorder.recAt = some (s.td0 : Int) →
    exec (.streamRecord d) s = .next s) ∧
  (∀ (s : State) (idle : TxBlock) (p : List Byte) (rest : List (List Byte)), s.sized = true → s.sane = true →
    s.nodeFront 2 = none → s.nodeTurn 2 = some idle → (s.die 0).recorder.queue = p :: rest →
    Completes .captureSend s fun t =>
      (∃ x, t.nodeSends s.backRing = some x ∧ x.cls = 2 ∧ x.kind = 0 ∧ x.src = BitVec.ofNat 8 s.number ∧ x.dst = 0 ∧
        x.seq = BitVec.ofNat 8 (nodeSeq s.node.txSeq 2) ∧ x.payload = pad64 p ∧ x.crc = blockCrc x ∧ x.hm = idle.blk.hm) ∧
      (t.die 0).recorder.queue = rest ∧ s.OnlyKeys t 0 fun _ => False) ∧
  (∀ (s : State) (d exp t0 : Nat) (r : Ring) (b : RingBlock), s.sized = true → s.sane = true → s.toHead d b 2 0 = true →
    exp = seqOf (s.head d).rxSeq b.src.toNat 2 → t0 = nearestTo (2 ^ 48) (beNat (slice b.payload 0 6)) s.td0 →
    (goodBlock b = false ∨ 64 ≤ (b.seq.toNat % 128 + 128 - exp % 128) % 128 → Completes (.capture d r b) s fun t =>
      (t.head d).rxSeq = (s.head d).rxSeq ∧ s.OnlyKeys t d fun _ => False) ∧
    (goodBlock b = true → (b.seq.toNat % 128 + 128 - exp % 128) % 128 < 64 → beNat (slice b.payload 6 1) % 4 = 1 → bitOf (beNat (slice b.payload 7 1)) 0 = false →
      s.throttled d = false → s.ledgerTakes d t0 = true → (s.die d).recorder.pages ≠ [] → (s.die d).recorder.count < 189 →
      Completes (.capture d r b) s fun t => ∃ at_,
        at_ = (s.die d).recorder.page * 3840 + (1 + (s.die d).recorder.count / 3) * 60 + (s.die d).recorder.count % 3 * 20 ∧
        t.dramBytes d at_ 4 = [b.src] ++ beBytes 3 (s.gridIndex d t0 % 2 ^ 24) ∧
        (b.payload.length = 64 → t.dramBytes d (at_ + 4) 16 = slice b.payload 8 16) ∧
        (∀ a, ¬(at_ ≤ a ∧ a < at_ + 20) → t.dramByte d a = s.dramByte d a) ∧
        (t.die d).recorder.count = (s.die d).recorder.count + 1 ∧
        t = { s with dies := t.dies } ∧ (∀ e, e ≠ d → t.die e = s.die e) ∧ ∀ key, t.cell d key = s.cell d key)) ∧
  (∀ (s : State) (d : Nat) (on : Bool), s.sized = true → s.sane = true → s.isHead = true → s.alive d = true → Completes (.ledgerEnable d on) s fun t =>
    t.flag d Fd.REC_CTRL.LEDGER_EN = on ∧
    t.lstate d = (if s.on d 0xF = false then s.lstate d else if on = true ∧ s.lstate d = 0 then 1 else if on = false ∧ s.lstate d = 1 then 0 else s.lstate d) ∧
    s.OnlyKeys t d fun key => key = Fd.REC_CTRL.W.key 0 ∨ key = Fd.REC_STATUS.W.key 0) ∧
  (∀ (s : State) (c : BitVec 4), s.sane = true → s.isHead = true → s.on 0 0xF = true →
    exec (.trig c) s = .next { s with trig := s.trig ++ [(s.td0 + 8, c.toNat)] } ∧
    exec .rearm s = .next { s with rearmAt := s.rearmAt ++ [s.td0 + 8] }) ∧
  (∀ (s : State) (t0 : Nat) (rest : List Nat), s.sized = true → s.rearmAt = t0 :: rest → t0 ≤ s.td0 → s.applyRearm.rearmAt = rest ∧
    ∀ d, s.on d 0xF = true → (s.lstate d = 3 → s.applyRearm.lstate d = 1 ∧ (s.applyRearm.die d).recorder.page = (s.die d).recorder.page ∧
        (s.applyRearm.die d).recorder.count = 189 ∧ (s.applyRearm.die d).recorder.seq = 0) ∧
      (s.lstate d ≠ 3 → s.applyRearm.lstate d = s.lstate d ∧
        s.applyRearm.stuckAt d Sk.REC.REARM_REFUSED.page Sk.REC.REARM_REFUSED.bit = true)) ∧
  (∀ (s : State) (t0 c : Nat) (rest : List (Nat × Nat)), s.sized = true → s.sane = true → s.isHead = true → s.alive 0 = true →
    (s.trig = [] ∨ s.trig = (t0, c) :: rest ∧ s.td0 < t0 → exec .ledgerTrigger s = .next s) ∧
    (s.trig = (t0, c) :: rest → t0 ≤ s.td0 → c < 16 → s.rearmAt = [] → Completes .ledgerTrigger s fun t => t.trig = rest ∧
      (∀ d, s.on d 0xF = true → s.lstate d = 1 → t.lstate d = 2 ∧ t.rd d Fd.REC_STATUS.CAP = c ∧ t.trigP d = s.td0 % 2 ^ 64 ∧
        t.stuckAt d Sk.REC.TRIGGERED.page Sk.REC.TRIGGERED.bit = true) ∧
      (∀ d, s.on d 0xF = true → s.lstate d ≠ 1 → t.lstate d = s.lstate d ∧ t.trigP d = s.trigP d ∧
        t.stuckAt d Sk.REC.TRIG_LOST.page Sk.REC.TRIG_LOST.bit = true) ∧
      s.OnlyOn t fun e key => s.on e 0xF = true ∧ pageKeys 15 key)) ∧
  ∀ (s : State) (d : Nat), s.sized = true → s.sane = true → s.isHead = true →
    (s.on d 0xF = false → exec (.ledgerSeal d) s = .next s) ∧
    (s.lstate d ≠ 2 ∨ s.td0 < s.trigP d + s.postTicks d + 80000 → exec (.ledgerSeal d) s = .next s) ∧
    (s.on d 0xF = true → s.lstate d = 2 → s.trigP d + s.postTicks d + 80000 ≤ s.td0 → Completes (.ledgerSeal d) s fun t =>
      t.lstate d = 3 ∧ t.rd d Fd.CAP_LAST.PAGE = (s.die d).recorder.page % 2 ^ 18 ∧
      t.stuckAt d Sk.REC.SEALED.page Sk.REC.SEALED.bit = true ∧
      (∀ p g l rest, (s.die d).recorder.pages.reverse = (p, g, l) :: rest → s.trigP d - s.preTicks d ≤ l →
        (∀ m, (s.die d).recorder.overTo = some m → m < s.trigP d - s.preTicks d) → t.rd d Fd.CAP_FIRST.PAGE = p % 2 ^ 18) ∧
      (∀ p g l rest m, (s.die d).recorder.pages.reverse = (p, g, l) :: rest → (s.die d).recorder.overTo = some m →
        s.trigP d - s.preTicks d ≤ m → s.trigP d - s.preTicks d < s.trigP d → t.rd d Fd.CAP_FIRST.PAGE = p % 2 ^ 18 ∧
          t.stuckAt d Sk.REC.PRE_SHORT.page Sk.REC.PRE_SHORT.bit = true) ∧
      s.OnlyKeys t d (pageKeys 15))

/-- 20 R508-R512, R519. What an unreadable line reads as stays open (log entry 4). -/
def Obligations.dram_window : Prop :=
  (∀ (s : State) (d i b z : Nat) (v : Word), s.sized = true → s.sane = true → s.alive d = true → i < 3 → b = bitsOf v.toNat 29 16 * 16 →
    z = bitsOf v.toNat 13 0 * 16 →
    (s.device ≠ .config ∨ s.isHead = false → exec (.partWrite d i v) s = .next s) ∧
    (s.device = .config → s.isHead = true →
      (z = 0 ∨ b + z ≤ 262144) → (∀ j, j < 3 → j ≠ i → overlap (b, b + z) (s.part3 d j) = false) → Completes (.partWrite d i v) s fun t =>
        t.part3 d i = (b, b + z) ∧ s.OnlyKeys t d (· = Fd.PART.W.key i)) ∧
    (s.device = .config → s.isHead = true →
      (z ≠ 0 ∧ 262144 < b + z ∨ ∃ j, j < 3 ∧ j ≠ i ∧ overlap (b, b + z) (s.part3 d j) = true) → Completes (.partWrite d i v) s fun t =>
        t.stuckAt d Sk.REC.PART_REJECTED.page Sk.REC.PART_REJECTED.bit = true ∧ s.OnlyKeys t d (stickyKeys 15))) ∧
  (∀ (s : State) (d i a : Nat) (first second : Bool), s.sized = true → s.sane = true → s.isHead = true → s.alive d = true → i < 16 → a = s.winAddr d i →
    (s.dramOn d = false → Completes (.windowRead d i first second) s fun t =>
      t.stuckAt d Sk.REC.WIN_REFUSED.page Sk.REC.WIN_REFUSED.bit = true ∧ t.device = s.device ∧
      s.OnlyOn t fun e key => e = d ∧ stickyKeys 15 key) ∧
    (s.dramOn d = true → Completes (.windowRead d i first second) s fun t =>
      t.rd d Fd.WIN_PTR.ADDR = (if i = 15 ∧ s.flag d Fd.REC_CTRL.AUTO = true then (s.rd d Fd.WIN_PTR.ADDR + 64) % 2 ^ 30
        else s.rd d Fd.WIN_PTR.ADDR) ∧
      t.port.marker = 5 ∧
      (s.partOf d a = none → t.port.data = 0 ∧ s.OnlyOn t fun e key => e = d ∧ key = Fd.WIN_PTR.W.key 0) ∧
      (s.partOf d a ≠ none → lineOf a ∈ (s.die d).recorder.written → first = true →
        t.port.data = BitVec.ofNat 32 (beNat (s.dramBytes d a 4)) ∧ s.OnlyOn t fun e key => e = d ∧ key = Fd.WIN_PTR.W.key 0) ∧
      (s.partOf d a ≠ none → lineOf a ∈ (s.die d).recorder.written → first = false → second = true →
        t.port.data = BitVec.ofNat 32 (beNat (s.dramBytes d a 4)) ∧
        t.rd d Fd.LINE_COUNTS.REREAD = min (s.rd d Fd.LINE_COUNTS.REREAD + 1) 0xFFFF) ∧
      (s.partOf d a ≠ none → lineOf a ∉ (s.die d).recorder.written ∨ first = false ∧ second = false →
        t.rd d Fd.LINE_COUNTS.HARD = min (s.rd d Fd.LINE_COUNTS.HARD + 1) 0xFFFF ∧ t.rd d Fd.ERR_LINE.LINE = lineOf a % 2 ^ 24 ∧
        t.stuckAt d Sk.REC.LINE_ERR.page Sk.REC.LINE_ERR.bit = true) ∧
      t.device = s.device ∧ t.pins = s.pins ∧ s.OnlyOn t fun e key => e = d ∧ pageKeys 15 key)) ∧
  ∀ (s : State) (d i a : Nat) (v : Word) (first second ok : Bool), s.sized = true → s.sane = true → s.isHead = true → s.alive d = true → i < 16 →
    a = s.winAddr d i →
    ok = (s.dramOn d && (s.device == .config || s.device == .standstill) && (s.partOf d a == some 1 || s.partOf d a == some 2)) →
    (ok = false → Completes (.windowWrite d i v first second) s fun t =>
      t.stuckAt d Sk.REC.WIN_REFUSED.page Sk.REC.WIN_REFUSED.bit = true ∧ s.OnlyKeys t d (stickyKeys 15)) ∧
    (ok = true → Completes (.windowWrite d i v first second) s fun t =>
      t.dramBytes d a 4 = beBytes 4 v.toNat ∧ lineOf a ∈ (t.die d).recorder.written ∧
      (∀ x, ¬(a ≤ x ∧ x < a + 4) → t.dramByte d x =
        if (lineOf a ∈ (s.die d).recorder.written ∧ (first = true ∨ second = true)) ∨ lineOf x ≠ lineOf a then s.dramByte d x else 0) ∧
      t.rd d Fd.WIN_PTR.ADDR = (if i = 15 ∧ s.flag d Fd.REC_CTRL.AUTO = true then (s.rd d Fd.WIN_PTR.ADDR + 64) % 2 ^ 30
        else s.rd d Fd.WIN_PTR.ADDR) ∧
      t = { s with dies := t.dies, sumPend := t.sumPend } ∧ (∀ e, e ≠ d → t.die e = s.die e) ∧
      ∀ key, ¬pageKeys 15 key → t.cell d key = s.cell d key)

/-- 21 R529-R532. That a waystation that is not enumerated fails with cause 2 is the model's reading (DEDUCED, log entry 75). -/
def Obligations.node_images : Prop :=
  (∀ (s : State) (d : Nat) (c : Bool), s.sized = true → s.sane = true → s.isHead = true → s.alive d = true →
    c = ((s.device == .config || s.device == .standstill) && s.ringMode d == 3 && (s.die d).sec.got4 && (s.die d).nimg.left.isEmpty) →
    (c = false → Completes (.nimgGo d) s fun t =>
      t.rd d Fd.NIMG_STAT.STAT = 3 ∧ (t.die d).nimg = (s.die d).nimg ∧ s.OnlyKeys t d (· = Fd.NIMG_STAT.W.key 0)) ∧
    (c = true → s.rd d Fd.NIMG_SEL.W = 0 → Completes (.nimgGo d) s fun t =>
      t.rd d Fd.NIMG_STAT.STAT = 2 ∧ t.rd d Fd.NIMG_OK.W = 0 ∧ t.rd d Fd.NIMG_FAIL.W = 0 ∧ s.OnlyKeys t d (pageKeys 0)) ∧
    (∀ i, c = true → bitList 32 (s.rd d Fd.NIMG_SEL.W) = [i] → s.nodes d < i + 1 → Completes (.nimgGo d) s fun t =>
      t.rd d Fd.NIMG_STAT.STAT = 2 ∧ t.rd d Fd.NIMG_FAIL.W = 2 ^ i ∧ t.rd d Fd.NIMG_STAT.LAST_CAUSE = 2 ∧
      t.rd d Fd.NIMG_STAT.LAST_WS = i ∧ t.flag d Fd.DIE_STATUS.NIMG_BUSY = false ∧ s.OnlyKeys t d (pageKeys 0)) ∧
    ∀ i a, c = true → bitList 32 (s.rd d Fd.NIMG_SEL.W) = [i] → i + 1 ≤ s.nodes d → a = (s.die d).sec.dest4 + 4 →
      lineOf a ∈ (s.die d).recorder.written → lineOf (a + 55) ∈ (s.die d).recorder.written → Completes (.nimgGo d) s fun t =>
        t.rd d Fd.NIMG_STAT.STAT = 1 ∧ t.rd d Fd.NIMG_OK.W = 0 ∧ t.rd d Fd.NIMG_FAIL.W = 0 ∧
        t.flag d Fd.DIE_STATUS.NIMG_BUSY = true ∧ (t.die d).nimg.left = [⟨i + 1, 0, 56, 0, 0⟩] ∧
        (t.head d).bcQ = (s.head d).bcQ ++ [⟨i + 1, 2, 1, beBytes 4 0 ++ [0, 1] ++ beBytes 2 56 ++ s.dramBytes d a 56, none, 0⟩] ∧
        s.OnlyKeys t d (pageKeys 0)) ∧
  (∀ (s : State) (d : Nat), s.sized = true → s.sane = true → s.isHead = true → s.alive d = true →
    ((s.die d).nimg.left = [] → exec (.nimgAbort d) s = .next s) ∧
    ((s.die d).nimg.left ≠ [] → Completes (.nimgAbort d) s fun t =>
      t.rd d Fd.NIMG_STAT.STAT = 2 ∧ t.rd d Fd.NIMG_STAT.LAST_CAUSE = 5 ∧ t.flag d Fd.DIE_STATUS.NIMG_BUSY = false ∧
      (t.die d).nimg.left = [] ∧
      (∀ e ∈ (s.die d).nimg.left, 1 ≤ e.ws → e.ws ≤ 32 → bitOf (t.rd d Fd.NIMG_FAIL.W) (e.ws - 1) = true) ∧ s.OnlyKeys t d (pageKeys 0))) ∧
  (∀ (s : State) (d n : Nat) (fails : List (Nat × Bool)) (e : NimgWs), s.sized = true → s.sane = true → s.isHead = true → s.alive d = true →
    (s.die d).nimg.left.find? (fun e => e.ws == n) = some e →
    (e.phase = 1 → s.frontBc d n 2 = none → e.polled = 0 ∨ e.polled + 800000 ≤ s.td0 → s.ringMode d = 3 → 1 ≤ n → n ≤ s.nodes d →
      Completes (.nimgPoll d n fails) s fun t =>
        (t.head d).remotes = (s.head d).remotes ++ [⟨n, false, nodeAddr Fd.IMG_STAT.W, 0, false, none⟩] ∧
        (t.die d).nimg.left.find? (fun e => e.ws == n) = some { e with phase := 2, polled := s.td0 } ∧ s.OnlyKeys t d fun _ => False) ∧
    (e.phase = 1 → (s.frontBc d n 2).isSome = true ∨ e.polled ≠ 0 ∧ s.td0 < e.polled + 800000 →
      exec (.nimgPoll d n fails) s = .next s) ∧
    (e.phase = 0 ∨ e.phase = 2 → exec (.nimgPoll d n fails) s = .next s) ∧
    (∀ a, e.phase = 3 → a = (s.innerAt d (s.die d).sec.dest4 e.inner).1 + e.next → lineOf a ∉ (s.die d).recorder.written → 1 ≤ n → n ≤ 32 →
      Completes (.nimgPoll d n fails) s fun t => bitOf (t.rd d Fd.NIMG_FAIL.W) (n - 1) = true ∧ t.rd d Fd.NIMG_STAT.LAST_CAUSE = 4 ∧
        t.rd d Fd.NIMG_STAT.LAST_WS = n - 1 ∧ (∀ o ∈ (t.die d).nimg.left, o.ws ≠ n)) ∧
    ∀ a m, e.phase = 3 → s.ringMode d = 3 → a = (s.innerAt d (s.die d).sec.dest4 e.inner).1 →
      m = min 56 ((s.innerAt d (s.die d).sec.dest4 e.inner).2 - e.next) → 0 < m →
      lineOf (a + e.next) ∈ (s.die d).recorder.written → lineOf (a + e.next + m - 1) ∈ (s.die d).recorder.written → fails = [] →
      e.inner < 16 → Completes (.nimgPoll d n fails) s fun t =>
        t.rd d Fd.NIMG_STAT.INNER = e.inner ∧
        (∃ q, (t.head d).bcQ = (s.head d).bcQ ++ [⟨n, 2, 1, q, none, 0⟩] ∧ q.take 4 = beBytes 4 e.next ∧
          slice q 6 2 = beBytes 2 m ∧ slice q 8 m = s.dramBytes d (a + e.next) m) ∧ s.OnlyKeys t d (· = Fd.NIMG_STAT.W.key 0)) ∧
  ∀ (s : State) (r : Ring) (b : RingBlock) (exp : Nat), s.sized = true → s.sane = true → s.toNode b 2 1 = true → exp = nodeSeq s.node.rxSeq 2 →
    (goodBlock b = false ∨ 64 ≤ (b.seq.toNat % 128 + 128 - exp % 128) % 128 ∨ s.loadState = false ∨
        (s.die 0).clk.boot0 = true → Completes (.image r b) s fun t => (t.sec 0) = (s.sec 0) ∧ s.OnlyKeys t 0 fun _ => False) ∧
    (goodBlock b = true → (b.seq.toNat % 128 + 128 - exp % 128) % 128 < 64 → s.loadState = true → (s.die 0).clk.boot0 = false →
      (bitOf (field8 b 5 1) 0 = true → s.imgBusy 0 = false → field8 b 0 4 = 0 → field8 b 6 2 = 4 → Completes (.image r b) s fun t =>
        t.imgWords 0 = [BitVec.ofNat 32 (field8 b 8 4)] ∧ (t.sec 0).type = field8 b 12 1 % 8 ∧ t.rd 0 Fd.IMG_STAT.STAT = 1 ∧
        t.rd 0 Fd.IMG_STAT.WORDS = 1 ∧ t.node.nextImg = (field8 b 4 1, 4) ∧
        s.OnlyKeys t 0 fun key => key = Fd.IMG_CTRL.W.key 0 ∨ key = Fd.IMG_STAT.W.key 0 ∨ stickyKeys 14 key) ∧
      (bitOf (field8 b 5 1) 0 = false → field8 b 0 4 = s.node.nextImg.2 → field8 b 6 2 = 4 → s.rd 0 Fd.IMG_STAT.STAT = 1 →
        (s.imgWords 0).length < 43 → Completes (.image r b) s fun t =>
          t.imgWords 0 = s.imgWords 0 ++ [BitVec.ofNat 32 (field8 b 8 4)] ∧ t.node.nextImg = (s.node.nextImg.1, s.node.nextImg.2 + 4) ∧
          s.OnlyKeys t 0 (· = Fd.IMG_STAT.W.key 0)) ∧
      (bitOf (field8 b 5 1) 0 = false → field8 b 0 4 ≠ s.node.nextImg.2 → s.imgBusy 0 = true → Completes (.image r b) s fun t =>
        t.rd 0 Fd.IMG_STAT.STAT = 3 ∧ t.rd 0 Fd.IMG_STAT.RESULT = 8 ∧ t.imgWords 0 = []) ∧
      ∀ n k dead ws, bitOf (field8 b 5 1) 0 = false → field8 b 0 4 = s.node.nextImg.2 → field8 b 6 2 = 4 → s.rd 0 Fd.IMG_STAT.STAT = 1 →
        n = (s.imgWords 0).length → ws = s.imgWords 0 ++ [BitVec.ofNat 32 (field8 b 8 4)] → 44 ≤ n → n < 44 + bodyWords ws →
        imgDest (s.sec 0).type ws (n - 44) = .cell k dead → dead ≠ 0 → s.progInUse 0 k = true →
        Completes (.image r b) s fun t => t.imgWords 0 = ws ∧ (498, 0, 14) ∈ t.misused ∧ t.cell 0 k = s.cell 0 k)
end

