-- ==== Sys2Proof/Laws/Cells.lean ====
section
/-! SUPPORT. The word store and the DRAM bytes: a read after a write, and the canonical form kept by every operation. -/

namespace Sys2Proof.Machine

/-! ### Words -/

theorem Cells.find_insert (k j : Nat) (v : Word) (c : Cells) :
    (c.insert k v).find j = if j = k then some v else c.find j := by
  induction c with
  | nil => by_cases h : j = k
           · subst h; simp [Cells.insert, Cells.find]
           · have hk : ¬ k = j := fun e => h e.symm
             simp [Cells.insert, Cells.find, h, hk]
  | cons e t ih =>
    obtain ⟨a, w⟩ := e
    rcases Nat.lt_trichotomy k a with h | h | h
    · have ha := h.ne'
      by_cases hj : j = k
      · subst hj; simp [Cells.insert, Cells.find, h, ha]
      · have hk : ¬ k = j := fun h => hj h.symm
        simp [Cells.insert, Cells.find, h, ha, hj, hk]
    · subst h
      by_cases hj : j = k
      · subst hj; simp [Cells.insert, Cells.find]
      · have hk : ¬ k = j := fun h => hj h.symm
        simp [Cells.insert, Cells.find, hj, hk]
    · have h1 : ¬ k < a := by omega
      have h2 : a ≠ k := by omega
      by_cases hj : a = j
      · subst hj; simp [Cells.insert, Cells.find, h1, h2]
      · simp [Cells.insert, Cells.find, h1, h2, hj, ih]

theorem Cells.find_erase (k j : Nat) (c : Cells) : (c.erase k).find j = if j = k then none else c.find j := by
  unfold Cells.erase
  induction c with
  | nil => simp [Cells.find]
  | cons e t ih =>
    obtain ⟨a, w⟩ := e
    by_cases ha : a = k
    · subst ha
      by_cases hj : j = a
      · subst hj; simpa using ih
      · have : ¬ a = j := fun h => hj h.symm
        simpa [Cells.find, hj, this] using ih
    · by_cases hj : a = j
      · subst hj; simp [ha, Cells.find]
      · simp [ha, Cells.find, hj, ih]

/-- A read after a write gives the value written, and every other key reads as before. -/
theorem Cells.getD_find_put (d : Nat → Word) (k j : Nat) (v : Word) (c : Cells) :
    ((c.put (d k) k v).find j).getD (d j) = if j = k then v else (c.find j).getD (d j) := by
  unfold Cells.put
  split
  · rw [Cells.find_erase]; split
    · simp_all
    · rfl
  · rw [Cells.find_insert]; split <;> rfl

theorem Cells.find_filter (p : Nat → Bool) (k : Nat) (c : Cells) :
    Cells.find k (c.filter fun e => p e.1) = if p k then c.find k else none := by
  induction c with
  | nil => simp [Cells.find]
  | cons e t ih =>
    obtain ⟨a, w⟩ := e
    by_cases ha : a = k
    · subst ha; by_cases hp : p a <;> simp [hp, Cells.find, ih]
    · by_cases hp : p a <;> simp [hp, Cells.find, ha, ih]

theorem Cells.mem_insert {k : Nat} {v : Word} {c : Cells} {e : Nat × Word} (h : e ∈ c.insert k v) : e = (k, v) ∨ e ∈ c := by
  induction c with
  | nil => simpa [Cells.insert] using h
  | cons b t ih =>
    obtain ⟨a, w⟩ := b
    simp only [Cells.insert] at h
    split at h
    · simp only [List.mem_cons] at h ⊢; tauto
    · split at h
      · simp only [List.mem_cons] at h ⊢; tauto
      · rcases List.mem_cons.1 h with h | h
        · exact .inr (h ▸ List.mem_cons_self)
        · exact (ih h).imp id (List.mem_cons_of_mem _)

theorem Cells.sorted_insert {c : Cells} (k : Nat) (v : Word) (h : c.Sorted) : (c.insert k v).Sorted := by
  induction c with
  | nil => simp [Cells.insert, Cells.Sorted]
  | cons b t ih =>
    obtain ⟨a, w⟩ := b
    have ht := List.pairwise_cons.1 h
    rcases Nat.lt_trichotomy k a with hk | hk | hk
    · rw [show Cells.insert k v ((a, w) :: t) = (k, v) :: (a, w) :: t by simp [Cells.insert, hk, hk.ne']]
      refine List.pairwise_cons.2 ⟨fun e he => ?_, h⟩
      rcases List.mem_cons.1 he with rfl | he
      · exact hk
      · exact hk.trans (ht.1 e he)
    · subst hk
      rw [show Cells.insert k v ((k, w) :: t) = (k, v) :: t by simp [Cells.insert]]
      exact List.pairwise_cons.2 ht
    · have h1 : ¬ k < a := by omega
      have h2 : a ≠ k := by omega
      rw [show Cells.insert k v ((a, w) :: t) = (a, w) :: Cells.insert k v t by simp [Cells.insert, h1, h2]]
      refine List.pairwise_cons.2 ⟨fun e he => ?_, ih ht.2⟩
      rcases Cells.mem_insert he with rfl | he
      · exact hk
      · exact ht.1 e he

theorem Cells.canonical_filter {d : Nat → Word} {c : Cells} (p : Nat × Word → Bool) (h : c.Canonical d) :
    Cells.Canonical d (c.filter p) :=
  ⟨h.1.filter p, fun e he => h.2 e (List.mem_filter.1 he).1⟩

/-- A write keeps the canonical form. -/
theorem Cells.canonical_put {d : Nat → Word} {c : Cells} (k : Nat) (v : Word) (h : c.Canonical d) :
    Cells.Canonical d (c.put (d k) k v) := by
  unfold Cells.put
  split
  · exact Cells.canonical_filter _ h
  · refine ⟨Cells.sorted_insert k v h.1, fun e he => ?_⟩
    rcases Cells.mem_insert he with rfl | he
    · assumption
    · exact h.2 e he

theorem Cells.canonical_nil (d : Nat → Word) : Cells.Canonical d [] := ⟨List.Pairwise.nil, by simp⟩

/-! ### DRAM bytes -/

theorem Memory.find_insert (k j : Nat) (v : Byte) (c : List Host.Cell) :
    Memory.find j (Memory.insert k v c) = if j = k then v else Memory.find j c := by
  induction c with
  | nil => by_cases h : j = k
           · subst h; simp [Memory.insert, Memory.find]
           · have hk : ¬ k = j := fun e => h e.symm
             simp [Memory.insert, Memory.find, h, hk]
  | cons e t ih =>
    obtain ⟨a, w⟩ := e
    rcases Nat.lt_trichotomy k a with h | h | h
    · have ha := h.ne'
      by_cases hj : j = k
      · subst hj; simp [Memory.insert, Memory.find, h, ha]
      · have hk : ¬ k = j := fun h => hj h.symm
        simp [Memory.insert, Memory.find, h, ha, hj, hk]
    · subst h
      by_cases hj : j = k
      · subst hj; simp [Memory.insert, Memory.find]
      · have hk : ¬ k = j := fun h => hj h.symm
        simp [Memory.insert, Memory.find, hj, hk]
    · have h1 : ¬ k < a := by omega
      have h2 : a ≠ k := by omega
      by_cases hj : a = j
      · subst hj; simp [Memory.insert, Memory.find, h1, h2]
      · simp [Memory.insert, Memory.find, h1, h2, hj, ih]

theorem Memory.find_erase (k j : Nat) (c : List Host.Cell) :
    Memory.find j (Memory.erase k c) = if j = k then 0 else Memory.find j c := by
  unfold Memory.erase
  induction c with
  | nil => simp [Memory.find]
  | cons e t ih =>
    obtain ⟨a, w⟩ := e
    by_cases ha : a = k
    · subst ha
      by_cases hj : j = a
      · subst hj; simpa using ih
      · have : ¬ a = j := fun h => hj h.symm
        simpa [Memory.find, hj, this] using ih
    · by_cases hj : a = j
      · subst hj; simp [ha, Memory.find]
      · simp [ha, Memory.find, hj, ih]

/-- A byte read after a byte written: the value written there, every other byte as before. -/
theorem Memory.find_put (k j : Nat) (v : Byte) (c : List Host.Cell) :
    Memory.find j (Memory.put k v c) = if j = k then v else Memory.find j c := by
  unfold Memory.put
  split
  · rw [Memory.find_erase]; split <;> simp_all
  · exact Memory.find_insert k j v c

/-- A run of bytes written is what its addresses read; every other byte reads as before. -/
theorem Memory.find_putAll (l : List Byte) (a j : Nat) (c : List Host.Cell) :
    Memory.find j (Memory.putAll a l c) =
      if a ≤ j ∧ j < a + l.length then l.getD (j - a) 0 else Memory.find j c := by
  induction l generalizing a c with
  | nil => rw [if_neg (by simp)]; rfl
  | cons b t ih =>
    simp only [Memory.putAll, ih, Memory.find_put, List.length_cons]
    rcases Nat.lt_trichotomy j a with h | h | h
    · rw [if_neg (by omega), if_neg (by omega), if_neg (by omega)]
    · subst h; simp
    · by_cases h2 : j < a + (t.length + 1)
      · rw [if_pos (by omega), if_pos (by omega), show j - a = (j - (a + 1)) + 1 by omega, List.getD_cons_succ]
      · rw [if_neg (by omega), if_neg (by omega), if_neg (by omega)]

theorem Memory.mem_insert {k : Nat} {v : Byte} {c : List Host.Cell} {e : Host.Cell} (h : e ∈ Memory.insert k v c) :
    e = (k, v) ∨ e ∈ c := by
  induction c with
  | nil => simpa [Memory.insert] using h
  | cons b t ih =>
    obtain ⟨a, w⟩ := b
    simp only [Memory.insert] at h
    split at h
    · simp only [List.mem_cons] at h ⊢; tauto
    · split at h
      · simp only [List.mem_cons] at h ⊢; tauto
      · rcases List.mem_cons.1 h with h | h
        · exact .inr (h ▸ List.mem_cons_self)
        · exact (ih h).imp id (List.mem_cons_of_mem _)

theorem Memory.sorted_insert {c : List Host.Cell} (k : Nat) (v : Byte) (h : c.Pairwise fun p q => p.1 < q.1) :
    (Memory.insert k v c).Pairwise fun p q => p.1 < q.1 := by
  induction c with
  | nil => simp [Memory.insert]
  | cons b t ih =>
    obtain ⟨a, w⟩ := b
    have ht := List.pairwise_cons.1 h
    rcases Nat.lt_trichotomy k a with hk | hk | hk
    · rw [show Memory.insert k v ((a, w) :: t) = (k, v) :: (a, w) :: t by simp [Memory.insert, hk, hk.ne']]
      refine List.pairwise_cons.2 ⟨fun e he => ?_, h⟩
      rcases List.mem_cons.1 he with rfl | he
      · exact hk
      · exact hk.trans (ht.1 e he)
    · subst hk
      rw [show Memory.insert k v ((k, w) :: t) = (k, v) :: t by simp [Memory.insert]]
      exact List.pairwise_cons.2 ht
    · have h1 : ¬ k < a := by omega
      have h2 : a ≠ k := by omega
      rw [show Memory.insert k v ((a, w) :: t) = (a, w) :: Memory.insert k v t by simp [Memory.insert, h1, h2]]
      refine List.pairwise_cons.2 ⟨fun e he => ?_, ih ht.2⟩
      rcases Memory.mem_insert he with rfl | he
      · exact hk
      · exact ht.1 e he

/-- A byte written keeps the canonical form. -/
theorem Memory.wf_put {c : List Host.Cell} (k : Nat) (v : Byte) (h : Memory.wf c) : Memory.wf (Memory.put k v c) := by
  unfold Memory.put
  split
  · exact ⟨h.1.filter _, fun e he => h.2 e (List.mem_filter.1 he).1⟩
  · refine ⟨Memory.sorted_insert k v h.1, fun e he => ?_⟩
    rcases Memory.mem_insert he with rfl | he
    · assumption
    · exact h.2 e he

theorem Memory.wf_putAll (l : List Byte) (a : Nat) {c : List Host.Cell} (h : Memory.wf c) : Memory.wf (Memory.putAll a l c) := by
  induction l generalizing a c with
  | nil => exact h
  | cons b t ih => exact ih (a + 1) (Memory.wf_put a b h)

theorem Memory.wf_nil : Memory.wf [] := ⟨List.Pairwise.nil, by simp⟩

end Sys2Proof.Machine
end

