-- ==== Sys2Proof/Laws/Words.lean ====
section
/-! SUPPORT. Bit fields of a word: what a field reads as after it, or another field, is written. -/

namespace Sys2Proof.Machine

theorem bitsOf_lt (n hi lo : Nat) : bitsOf n hi lo < 2 ^ (hi + 1 - lo) := Nat.mod_lt _ (Nat.two_pow_pos _)

/-- The number a field write leaves: the other bits, and the field's new low bits at its place. -/
theorem setBits_toNat (w : Word) (hi lo v : Nat) (h : hi < 32) (hl : lo ≤ hi) :
    (setBits w hi lo v).toNat = w.toNat - bitsOf w.toNat hi lo * 2 ^ lo + v % 2 ^ (hi + 1 - lo) * 2 ^ lo := by
  have key : w.toNat - bitsOf w.toNat hi lo * 2 ^ lo + v % 2 ^ (hi + 1 - lo) * 2 ^ lo < 2 ^ 32 := by
    have hw := w.isLt
    set n := w.toNat
    have hm : v % 2 ^ (hi + 1 - lo) < 2 ^ (hi + 1 - lo) := Nat.mod_lt _ (Nat.two_pow_pos _)
    have e1 : n = n / 2 ^ lo * 2 ^ lo + n % 2 ^ lo := (Nat.div_add_mod' n _).symm
    have e2 : n / 2 ^ lo = n / 2 ^ lo / 2 ^ (hi + 1 - lo) * 2 ^ (hi + 1 - lo) + bitsOf n hi lo :=
      (Nat.div_add_mod' _ _).symm
    have e3 : n / 2 ^ lo / 2 ^ (hi + 1 - lo) = n / 2 ^ (hi + 1) := by
      rw [Nat.div_div_eq_div_mul, ← Nat.pow_add, show lo + (hi + 1 - lo) = hi + 1 by omega]
    have e4 : n / 2 ^ (hi + 1) < 2 ^ (31 - hi) := by
      rw [Nat.div_lt_iff_lt_mul (Nat.two_pow_pos _), ← Nat.pow_add, show 31 - hi + (hi + 1) = 32 by omega]; exact hw
    have hp : 2 ^ (hi + 1 - lo) * 2 ^ lo = 2 ^ (hi + 1) := by rw [← Nat.pow_add, show hi + 1 - lo + lo = hi + 1 by omega]
    have e5 : n % 2 ^ lo < 2 ^ lo := Nat.mod_lt _ (Nat.two_pow_pos _)
    have e6 : n - bitsOf n hi lo * 2 ^ lo = n / 2 ^ (hi + 1) * 2 ^ (hi + 1) + n % 2 ^ lo := by
      have : n = n / 2 ^ (hi + 1) * 2 ^ (hi + 1) + bitsOf n hi lo * 2 ^ lo + n % 2 ^ lo := by
        conv_lhs => rw [e1, e2, e3, Nat.add_mul, Nat.mul_assoc, hp]
      omega
    rw [e6]
    have e7 : (v % 2 ^ (hi + 1 - lo) + 1) * 2 ^ lo ≤ 2 ^ (hi + 1) := by
      rw [← hp]; exact Nat.mul_le_mul_right _ hm
    have e8 : (n / 2 ^ (hi + 1) + 1) * 2 ^ (hi + 1) ≤ 2 ^ 32 := by
      calc _ ≤ 2 ^ (31 - hi) * 2 ^ (hi + 1) := Nat.mul_le_mul_right _ e4
        _ = 2 ^ 32 := by rw [← Nat.pow_add, show 31 - hi + (hi + 1) = 32 by omega]
    rw [Nat.add_mul] at e7 e8
    omega
  simp only [setBits, BitVec.toNat_ofNat]
  exact Nat.mod_eq_of_lt key

/-- Bits of a word as its numbered bits. -/
theorem testBit_bitsOf (n hi lo i : Nat) : (bitsOf n hi lo).testBit i = (decide (lo + i ≤ hi) && n.testBit (lo + i)) := by
  unfold bitsOf
  rw [Nat.testBit_mod_two_pow, Nat.testBit_div_two_pow, Nat.add_comm i lo]
  congr 1
  simp only [decide_eq_decide]; omega

theorem bitOf_eq (n i : Nat) : bitOf n i = n.testBit i := by
  unfold bitOf; rw [Nat.testBit_eq_decide_div_mod_eq]; rfl

/-- Every bit of a word after a field is written: the field's own from the new value, the others as they were. -/
theorem testBit_setBits (w : Word) (hi lo v i : Nat) (h : hi < 32) (hl : lo ≤ hi) :
    (setBits w hi lo v).toNat.testBit i =
      if lo ≤ i ∧ i ≤ hi then v.testBit (i - lo) else w.toNat.testBit i := by
  have key : (setBits w hi lo v).toNat =
      2 ^ (hi + 1) * (w.toNat / 2 ^ (hi + 1)) + (2 ^ lo * (v % 2 ^ (hi + 1 - lo)) + w.toNat % 2 ^ lo) := by
    rw [setBits_toNat w hi lo v h hl]
    set n := w.toNat
    have e1 : n = n / 2 ^ lo * 2 ^ lo + n % 2 ^ lo := (Nat.div_add_mod' n _).symm
    have e2 : n / 2 ^ lo = n / 2 ^ lo / 2 ^ (hi + 1 - lo) * 2 ^ (hi + 1 - lo) + bitsOf n hi lo :=
      (Nat.div_add_mod' _ _).symm
    have e3 : n / 2 ^ lo / 2 ^ (hi + 1 - lo) = n / 2 ^ (hi + 1) := by
      rw [Nat.div_div_eq_div_mul, ← Nat.pow_add, show lo + (hi + 1 - lo) = hi + 1 by omega]
    have hp : 2 ^ (hi + 1 - lo) * 2 ^ lo = 2 ^ (hi + 1) := by rw [← Nat.pow_add, show hi + 1 - lo + lo = hi + 1 by omega]
    have : n = n / 2 ^ (hi + 1) * 2 ^ (hi + 1) + bitsOf n hi lo * 2 ^ lo + n % 2 ^ lo := by
      conv_lhs => rw [e1, e2, e3, Nat.add_mul, Nat.mul_assoc, hp]
    rw [Nat.mul_comm (2 ^ (hi + 1)), Nat.mul_comm (2 ^ lo) (v % _)]
    omega
  have hm : v % 2 ^ (hi + 1 - lo) < 2 ^ (hi + 1 - lo) := Nat.mod_lt _ (Nat.two_pow_pos _)
  have e5 : w.toNat % 2 ^ lo < 2 ^ lo := Nat.mod_lt _ (Nat.two_pow_pos _)
  have hlow : 2 ^ lo * (v % 2 ^ (hi + 1 - lo)) + w.toNat % 2 ^ lo < 2 ^ (hi + 1) := by
    have hp : 2 ^ lo * 2 ^ (hi + 1 - lo) = 2 ^ (hi + 1) := by rw [← Nat.pow_add, show lo + (hi + 1 - lo) = hi + 1 by omega]
    have : 2 ^ lo * (v % 2 ^ (hi + 1 - lo) + 1) ≤ 2 ^ (hi + 1) := by rw [← hp]; exact Nat.mul_le_mul_left _ hm
    rw [Nat.mul_add] at this; omega
  rw [key, Nat.testBit_two_pow_mul_add _ hlow]
  by_cases hi1 : i < hi + 1
  · rw [if_pos hi1, Nat.testBit_two_pow_mul_add _ e5]
    by_cases hlo : i < lo
    · rw [if_pos hlo, if_neg (by omega), Nat.testBit_mod_two_pow]; simp [hlo]
    · rw [if_neg hlo, if_pos (by omega), Nat.testBit_mod_two_pow]
      simp; omega
  · rw [if_neg hi1, if_neg (by omega), Nat.testBit_div_two_pow]
    congr 1; omega

/-- A field just written reads the low bits of the value. -/
theorem bitsOf_setBits_same (w : Word) (hi lo v : Nat) (h : hi < 32) (hl : lo ≤ hi) :
    bitsOf (setBits w hi lo v).toNat hi lo = v % 2 ^ (hi + 1 - lo) := by
  apply Nat.eq_of_testBit_eq
  intro i
  rw [testBit_bitsOf, testBit_setBits _ _ _ _ _ h hl, Nat.testBit_mod_two_pow]
  by_cases hi1 : lo + i ≤ hi
  · rw [if_pos (by omega)]
    have : i < hi + 1 - lo := by omega
    simp [hi1, this]
  · have : ¬ i < hi + 1 - lo := by omega
    simp [hi1, this]

/-- A field whose bits lie outside the one written reads as before. -/
theorem bitsOf_setBits_other (w : Word) (hi lo v a b : Nat) (h : hi < 32) (hl : lo ≤ hi) (hd : a < lo ∨ hi < b) :
    bitsOf (setBits w hi lo v).toNat a b = bitsOf w.toNat a b := by
  apply Nat.eq_of_testBit_eq
  intro i
  rw [testBit_bitsOf, testBit_bitsOf, testBit_setBits _ _ _ _ _ h hl]
  by_cases hi1 : b + i ≤ a
  · rw [if_neg (by omega)]
  · simp [hi1]

theorem bitOf_setBits (w : Word) (hi lo v i : Nat) (h : hi < 32) (hl : lo ≤ hi) :
    bitOf (setBits w hi lo v).toNat i = if lo ≤ i ∧ i ≤ hi then bitOf v (i - lo) else bitOf w.toNat i := by
  simp only [bitOf_eq]; exact testBit_setBits w hi lo v i h hl

@[simp] theorem bnat_ne_zero (b : Bool) : (bnat b != 0) = b := by cases b <;> rfl

theorem bnat_lt_two (b : Bool) : bnat b < 2 := by cases b <;> decide

@[simp] theorem bnat_mod_two (b : Bool) : bnat b % 2 = bnat b := by cases b <;> rfl

end Sys2Proof.Machine
end

