-- ==== Sys2Proof/Laws/State.lean ====
section
/-! SUPPORT. The named updates of the state: per update and field, what stands after it. An update of one register leaves every
field of State but the dies, and every field of a die but its cells, as it was. -/

namespace Sys2Proof.Machine

variable (s : State) (d e k j i b n v off page : Nat) (w : Word) (f : Die → Die) (g : Fld) (p : Nat → Bool)

/-! ### Names that stand for another update -/

@[simp] theorem State.wrB_eq (b : Bool) : s.wrB d g i b = s.wr d g i (bnat b) := rfl
@[simp] theorem State.wrS_eq (v : Int) : s.wrS d g i v = s.wr d g i (ux (g.hi + 1 - g.lo) v) := rfl
@[simp] theorem State.bump_eq : s.bump d g i n = s.wr d g i (min (s.rd d g i + n) g.max) := rfl
@[simp] theorem State.bumpMod_eq : s.bumpMod d g i n = s.wr d g i ((s.rd d g i + n) % (g.max + 1)) := rfl
@[simp] theorem State.sticky_eq (k : Sticky) : s.sticky d k i = s.stick d k.page (k.bit + i) := rfl
@[simp] theorem State.putCtx_eq (v : BitVec 16) : s.putCtx d n k v = s.putCell d (ctxKey n k) (v.setWidth 32) := rfl
theorem State.flag_eq : s.flag d g i = (s.rd d g i != 0) := rfl

/-! ### Fields of State -/

@[simp] theorem State.onDie_part : (s.onDie d f).part = s.part := rfl
@[simp] theorem State.onDie_device : (s.onDie d f).device = s.device := rfl
@[simp] theorem State.onDie_last : (s.onDie d f).last = s.last := rfl
@[simp] theorem State.onDie_changes : (s.onDie d f).changes = s.changes := rfl
@[simp] theorem State.onDie_arming : (s.onDie d f).arming = s.arming := rfl
@[simp] theorem State.onDie_movedAt : (s.onDie d f).movedAt = s.movedAt := rfl
@[simp] theorem State.onDie_movedBy : (s.onDie d f).movedBy = s.movedBy := rfl
@[simp] theorem State.onDie_cmds : (s.onDie d f).cmds = s.cmds := rfl
@[simp] theorem State.onDie_td0 : (s.onDie d f).td0 = s.td0 := rfl
@[simp] theorem State.onDie_td0Prev : (s.onDie d f).td0Prev = s.td0Prev := rfl
@[simp] theorem State.onDie_fine : (s.onDie d f).fine = s.fine := rfl
@[simp] theorem State.onDie_wall : (s.onDie d f).wall = s.wall := rfl
@[simp] theorem State.onDie_mirrors : (s.onDie d f).mirrors = s.mirrors := rfl
@[simp] theorem State.onDie_fabric : (s.onDie d f).fabric = s.fabric := rfl
@[simp] theorem State.onDie_sum : (s.onDie d f).sum = s.sum := rfl
@[simp] theorem State.onDie_sumPend : (s.onDie d f).sumPend = s.sumPend := rfl
@[simp] theorem State.onDie_port : (s.onDie d f).port = s.port := rfl
@[simp] theorem State.onDie_pins : (s.onDie d f).pins = s.pins := rfl
@[simp] theorem State.onDie_tap : (s.onDie d f).tap = s.tap := rfl
@[simp] theorem State.onDie_pads : (s.onDie d f).pads = s.pads := rfl
@[simp] theorem State.onDie_bus : (s.onDie d f).bus = s.bus := rfl
@[simp] theorem State.onDie_trig : (s.onDie d f).trig = s.trig := rfl
@[simp] theorem State.onDie_rearmAt : (s.onDie d f).rearmAt = s.rearmAt := rfl
@[simp] theorem State.onDie_misused : (s.onDie d f).misused = s.misused := rfl
@[simp] theorem State.onDie_free : (s.onDie d f).free = s.free := rfl
@[simp] theorem State.onDie_pending : (s.onDie d f).pending = s.pending := rfl

@[simp] theorem State.putCell_part : (s.putCell d k w).part = s.part := rfl
@[simp] theorem State.putCell_device : (s.putCell d k w).device = s.device := rfl
@[simp] theorem State.putCell_last : (s.putCell d k w).last = s.last := rfl
@[simp] theorem State.putCell_changes : (s.putCell d k w).changes = s.changes := rfl
@[simp] theorem State.putCell_arming : (s.putCell d k w).arming = s.arming := rfl
@[simp] theorem State.putCell_movedAt : (s.putCell d k w).movedAt = s.movedAt := rfl
@[simp] theorem State.putCell_movedBy : (s.putCell d k w).movedBy = s.movedBy := rfl
@[simp] theorem State.putCell_cmds : (s.putCell d k w).cmds = s.cmds := rfl
@[simp] theorem State.putCell_td0 : (s.putCell d k w).td0 = s.td0 := rfl
@[simp] theorem State.putCell_td0Prev : (s.putCell d k w).td0Prev = s.td0Prev := rfl
@[simp] theorem State.putCell_fine : (s.putCell d k w).fine = s.fine := rfl
@[simp] theorem State.putCell_wall : (s.putCell d k w).wall = s.wall := rfl
@[simp] theorem State.putCell_mirrors : (s.putCell d k w).mirrors = s.mirrors := rfl
@[simp] theorem State.putCell_fabric : (s.putCell d k w).fabric = s.fabric := rfl
@[simp] theorem State.putCell_sum : (s.putCell d k w).sum = s.sum := rfl
@[simp] theorem State.putCell_sumPend : (s.putCell d k w).sumPend = s.sumPend := rfl
@[simp] theorem State.putCell_port : (s.putCell d k w).port = s.port := rfl
@[simp] theorem State.putCell_pins : (s.putCell d k w).pins = s.pins := rfl
@[simp] theorem State.putCell_tap : (s.putCell d k w).tap = s.tap := rfl
@[simp] theorem State.putCell_pads : (s.putCell d k w).pads = s.pads := rfl
@[simp] theorem State.putCell_bus : (s.putCell d k w).bus = s.bus := rfl
@[simp] theorem State.putCell_trig : (s.putCell d k w).trig = s.trig := rfl
@[simp] theorem State.putCell_rearmAt : (s.putCell d k w).rearmAt = s.rearmAt := rfl
@[simp] theorem State.putCell_misused : (s.putCell d k w).misused = s.misused := rfl
@[simp] theorem State.putCell_free : (s.putCell d k w).free = s.free := rfl
@[simp] theorem State.putCell_pending : (s.putCell d k w).pending = s.pending := rfl

@[simp] theorem State.dropCells_part : (s.dropCells d p).part = s.part := rfl
@[simp] theorem State.dropCells_device : (s.dropCells d p).device = s.device := rfl
@[simp] theorem State.dropCells_last : (s.dropCells d p).last = s.last := rfl
@[simp] theorem State.dropCells_changes : (s.dropCells d p).changes = s.changes := rfl
@[simp] theorem State.dropCells_arming : (s.dropCells d p).arming = s.arming := rfl
@[simp] theorem State.dropCells_movedAt : (s.dropCells d p).movedAt = s.movedAt := rfl
@[simp] theorem State.dropCells_movedBy : (s.dropCells d p).movedBy = s.movedBy := rfl
@[simp] theorem State.dropCells_cmds : (s.dropCells d p).cmds = s.cmds := rfl
@[simp] theorem State.dropCells_td0 : (s.dropCells d p).td0 = s.td0 := rfl
@[simp] theorem State.dropCells_td0Prev : (s.dropCells d p).td0Prev = s.td0Prev := rfl
@[simp] theorem State.dropCells_fine : (s.dropCells d p).fine = s.fine := rfl
@[simp] theorem State.dropCells_wall : (s.dropCells d p).wall = s.wall := rfl
@[simp] theorem State.dropCells_mirrors : (s.dropCells d p).mirrors = s.mirrors := rfl
@[simp] theorem State.dropCells_fabric : (s.dropCells d p).fabric = s.fabric := rfl
@[simp] theorem State.dropCells_sum : (s.dropCells d p).sum = s.sum := rfl
@[simp] theorem State.dropCells_sumPend : (s.dropCells d p).sumPend = s.sumPend := rfl
@[simp] theorem State.dropCells_port : (s.dropCells d p).port = s.port := rfl
@[simp] theorem State.dropCells_pins : (s.dropCells d p).pins = s.pins := rfl
@[simp] theorem State.dropCells_tap : (s.dropCells d p).tap = s.tap := rfl
@[simp] theorem State.dropCells_pads : (s.dropCells d p).pads = s.pads := rfl
@[simp] theorem State.dropCells_bus : (s.dropCells d p).bus = s.bus := rfl
@[simp] theorem State.dropCells_trig : (s.dropCells d p).trig = s.trig := rfl
@[simp] theorem State.dropCells_rearmAt : (s.dropCells d p).rearmAt = s.rearmAt := rfl
@[simp] theorem State.dropCells_misused : (s.dropCells d p).misused = s.misused := rfl
@[simp] theorem State.dropCells_free : (s.dropCells d p).free = s.free := rfl
@[simp] theorem State.dropCells_pending : (s.dropCells d p).pending = s.pending := rfl

@[simp] theorem State.wr_part : (s.wr d g i v).part = s.part := rfl
@[simp] theorem State.wr_device : (s.wr d g i v).device = s.device := rfl
@[simp] theorem State.wr_last : (s.wr d g i v).last = s.last := rfl
@[simp] theorem State.wr_changes : (s.wr d g i v).changes = s.changes := rfl
@[simp] theorem State.wr_arming : (s.wr d g i v).arming = s.arming := rfl
@[simp] theorem State.wr_movedAt : (s.wr d g i v).movedAt = s.movedAt := rfl
@[simp] theorem State.wr_movedBy : (s.wr d g i v).movedBy = s.movedBy := rfl
@[simp] theorem State.wr_cmds : (s.wr d g i v).cmds = s.cmds := rfl
@[simp] theorem State.wr_td0 : (s.wr d g i v).td0 = s.td0 := rfl
@[simp] theorem State.wr_td0Prev : (s.wr d g i v).td0Prev = s.td0Prev := rfl
@[simp] theorem State.wr_fine : (s.wr d g i v).fine = s.fine := rfl
@[simp] theorem State.wr_wall : (s.wr d g i v).wall = s.wall := rfl
@[simp] theorem State.wr_mirrors : (s.wr d g i v).mirrors = s.mirrors := rfl
@[simp] theorem State.wr_fabric : (s.wr d g i v).fabric = s.fabric := rfl
@[simp] theorem State.wr_sum : (s.wr d g i v).sum = s.sum := rfl
@[simp] theorem State.wr_sumPend : (s.wr d g i v).sumPend = s.sumPend := rfl
@[simp] theorem State.wr_port : (s.wr d g i v).port = s.port := rfl
@[simp] theorem State.wr_pins : (s.wr d g i v).pins = s.pins := rfl
@[simp] theorem State.wr_tap : (s.wr d g i v).tap = s.tap := rfl
@[simp] theorem State.wr_pads : (s.wr d g i v).pads = s.pads := rfl
@[simp] theorem State.wr_bus : (s.wr d g i v).bus = s.bus := rfl
@[simp] theorem State.wr_trig : (s.wr d g i v).trig = s.trig := rfl
@[simp] theorem State.wr_rearmAt : (s.wr d g i v).rearmAt = s.rearmAt := rfl
@[simp] theorem State.wr_misused : (s.wr d g i v).misused = s.misused := rfl
@[simp] theorem State.wr_free : (s.wr d g i v).free = s.free := rfl
@[simp] theorem State.wr_pending : (s.wr d g i v).pending = s.pending := rfl

@[simp] theorem State.freeN_part : (s.freeN.2).part = s.part := rfl
@[simp] theorem State.freeN_device : (s.freeN.2).device = s.device := rfl
@[simp] theorem State.freeN_last : (s.freeN.2).last = s.last := rfl
@[simp] theorem State.freeN_changes : (s.freeN.2).changes = s.changes := rfl
@[simp] theorem State.freeN_arming : (s.freeN.2).arming = s.arming := rfl
@[simp] theorem State.freeN_movedAt : (s.freeN.2).movedAt = s.movedAt := rfl
@[simp] theorem State.freeN_movedBy : (s.freeN.2).movedBy = s.movedBy := rfl
@[simp] theorem State.freeN_cmds : (s.freeN.2).cmds = s.cmds := rfl
@[simp] theorem State.freeN_td0 : (s.freeN.2).td0 = s.td0 := rfl
@[simp] theorem State.freeN_td0Prev : (s.freeN.2).td0Prev = s.td0Prev := rfl
@[simp] theorem State.freeN_fine : (s.freeN.2).fine = s.fine := rfl
@[simp] theorem State.freeN_wall : (s.freeN.2).wall = s.wall := rfl
@[simp] theorem State.freeN_mirrors : (s.freeN.2).mirrors = s.mirrors := rfl
@[simp] theorem State.freeN_fabric : (s.freeN.2).fabric = s.fabric := rfl
@[simp] theorem State.freeN_sum : (s.freeN.2).sum = s.sum := rfl
@[simp] theorem State.freeN_sumPend : (s.freeN.2).sumPend = s.sumPend := rfl
@[simp] theorem State.freeN_port : (s.freeN.2).port = s.port := rfl
@[simp] theorem State.freeN_pins : (s.freeN.2).pins = s.pins := rfl
@[simp] theorem State.freeN_tap : (s.freeN.2).tap = s.tap := rfl
@[simp] theorem State.freeN_pads : (s.freeN.2).pads = s.pads := rfl
@[simp] theorem State.freeN_bus : (s.freeN.2).bus = s.bus := rfl
@[simp] theorem State.freeN_trig : (s.freeN.2).trig = s.trig := rfl
@[simp] theorem State.freeN_rearmAt : (s.freeN.2).rearmAt = s.rearmAt := rfl
@[simp] theorem State.freeN_misused : (s.freeN.2).misused = s.misused := rfl
@[simp] theorem State.freeN_pending : (s.freeN.2).pending = s.pending := rfl

@[simp] theorem State.freeW_part : (s.freeW.2).part = s.part := rfl
@[simp] theorem State.freeW_device : (s.freeW.2).device = s.device := rfl
@[simp] theorem State.freeW_last : (s.freeW.2).last = s.last := rfl
@[simp] theorem State.freeW_changes : (s.freeW.2).changes = s.changes := rfl
@[simp] theorem State.freeW_arming : (s.freeW.2).arming = s.arming := rfl
@[simp] theorem State.freeW_movedAt : (s.freeW.2).movedAt = s.movedAt := rfl
@[simp] theorem State.freeW_movedBy : (s.freeW.2).movedBy = s.movedBy := rfl
@[simp] theorem State.freeW_cmds : (s.freeW.2).cmds = s.cmds := rfl
@[simp] theorem State.freeW_td0 : (s.freeW.2).td0 = s.td0 := rfl
@[simp] theorem State.freeW_td0Prev : (s.freeW.2).td0Prev = s.td0Prev := rfl
@[simp] theorem State.freeW_fine : (s.freeW.2).fine = s.fine := rfl
@[simp] theorem State.freeW_wall : (s.freeW.2).wall = s.wall := rfl
@[simp] theorem State.freeW_mirrors : (s.freeW.2).mirrors = s.mirrors := rfl
@[simp] theorem State.freeW_fabric : (s.freeW.2).fabric = s.fabric := rfl
@[simp] theorem State.freeW_sum : (s.freeW.2).sum = s.sum := rfl
@[simp] theorem State.freeW_sumPend : (s.freeW.2).sumPend = s.sumPend := rfl
@[simp] theorem State.freeW_port : (s.freeW.2).port = s.port := rfl
@[simp] theorem State.freeW_pins : (s.freeW.2).pins = s.pins := rfl
@[simp] theorem State.freeW_tap : (s.freeW.2).tap = s.tap := rfl
@[simp] theorem State.freeW_pads : (s.freeW.2).pads = s.pads := rfl
@[simp] theorem State.freeW_bus : (s.freeW.2).bus = s.bus := rfl
@[simp] theorem State.freeW_trig : (s.freeW.2).trig = s.trig := rfl
@[simp] theorem State.freeW_rearmAt : (s.freeW.2).rearmAt = s.rearmAt := rfl
@[simp] theorem State.freeW_misused : (s.freeW.2).misused = s.misused := rfl
@[simp] theorem State.freeW_pending : (s.freeW.2).pending = s.pending := rfl

@[simp] theorem State.putSum_part : (s.putSum off w).part = s.part := rfl
@[simp] theorem State.putSum_device : (s.putSum off w).device = s.device := rfl
@[simp] theorem State.putSum_last : (s.putSum off w).last = s.last := rfl
@[simp] theorem State.putSum_changes : (s.putSum off w).changes = s.changes := rfl
@[simp] theorem State.putSum_arming : (s.putSum off w).arming = s.arming := rfl
@[simp] theorem State.putSum_movedAt : (s.putSum off w).movedAt = s.movedAt := rfl
@[simp] theorem State.putSum_movedBy : (s.putSum off w).movedBy = s.movedBy := rfl
@[simp] theorem State.putSum_cmds : (s.putSum off w).cmds = s.cmds := rfl
@[simp] theorem State.putSum_td0 : (s.putSum off w).td0 = s.td0 := rfl
@[simp] theorem State.putSum_td0Prev : (s.putSum off w).td0Prev = s.td0Prev := rfl
@[simp] theorem State.putSum_fine : (s.putSum off w).fine = s.fine := rfl
@[simp] theorem State.putSum_wall : (s.putSum off w).wall = s.wall := rfl
@[simp] theorem State.putSum_mirrors : (s.putSum off w).mirrors = s.mirrors := rfl
@[simp] theorem State.putSum_fabric : (s.putSum off w).fabric = s.fabric := rfl
@[simp] theorem State.putSum_sumPend : (s.putSum off w).sumPend = s.sumPend := rfl
@[simp] theorem State.putSum_port : (s.putSum off w).port = s.port := rfl
@[simp] theorem State.putSum_pins : (s.putSum off w).pins = s.pins := rfl
@[simp] theorem State.putSum_tap : (s.putSum off w).tap = s.tap := rfl
@[simp] theorem State.putSum_pads : (s.putSum off w).pads = s.pads := rfl
@[simp] theorem State.putSum_bus : (s.putSum off w).bus = s.bus := rfl
@[simp] theorem State.putSum_trig : (s.putSum off w).trig = s.trig := rfl
@[simp] theorem State.putSum_rearmAt : (s.putSum off w).rearmAt = s.rearmAt := rfl
@[simp] theorem State.putSum_misused : (s.putSum off w).misused = s.misused := rfl
@[simp] theorem State.putSum_free : (s.putSum off w).free = s.free := rfl
@[simp] theorem State.putSum_pending : (s.putSum off w).pending = s.pending := rfl

@[simp] theorem State.stick_part : (s.stick d page b).part = s.part := by unfold State.stick; dsimp only; split <;> rfl
@[simp] theorem State.stick_device : (s.stick d page b).device = s.device := by unfold State.stick; dsimp only; split <;> rfl
@[simp] theorem State.stick_last : (s.stick d page b).last = s.last := by unfold State.stick; dsimp only; split <;> rfl
@[simp] theorem State.stick_changes : (s.stick d page b).changes = s.changes := by unfold State.stick; dsimp only; split <;> rfl
@[simp] theorem State.stick_arming : (s.stick d page b).arming = s.arming := by unfold State.stick; dsimp only; split <;> rfl
@[simp] theorem State.stick_movedAt : (s.stick d page b).movedAt = s.movedAt := by unfold State.stick; dsimp only; split <;> rfl
@[simp] theorem State.stick_movedBy : (s.stick d page b).movedBy = s.movedBy := by unfold State.stick; dsimp only; split <;> rfl
@[simp] theorem State.stick_cmds : (s.stick d page b).cmds = s.cmds := by unfold State.stick; dsimp only; split <;> rfl
@[simp] theorem State.stick_td0 : (s.stick d page b).td0 = s.td0 := by unfold State.stick; dsimp only; split <;> rfl
@[simp] theorem State.stick_td0Prev : (s.stick d page b).td0Prev = s.td0Prev := by unfold State.stick; dsimp only; split <;> rfl
@[simp] theorem State.stick_fine : (s.stick d page b).fine = s.fine := by unfold State.stick; dsimp only; split <;> rfl
@[simp] theorem State.stick_wall : (s.stick d page b).wall = s.wall := by unfold State.stick; dsimp only; split <;> rfl
@[simp] theorem State.stick_mirrors : (s.stick d page b).mirrors = s.mirrors := by unfold State.stick; dsimp only; split <;> rfl
@[simp] theorem State.stick_fabric : (s.stick d page b).fabric = s.fabric := by unfold State.stick; dsimp only; split <;> rfl
@[simp] theorem State.stick_sum : (s.stick d page b).sum = s.sum := by unfold State.stick; dsimp only; split <;> rfl
@[simp] theorem State.stick_port : (s.stick d page b).port = s.port := by unfold State.stick; dsimp only; split <;> rfl
@[simp] theorem State.stick_pins : (s.stick d page b).pins = s.pins := by unfold State.stick; dsimp only; split <;> rfl
@[simp] theorem State.stick_tap : (s.stick d page b).tap = s.tap := by unfold State.stick; dsimp only; split <;> rfl
@[simp] theorem State.stick_pads : (s.stick d page b).pads = s.pads := by unfold State.stick; dsimp only; split <;> rfl
@[simp] theorem State.stick_bus : (s.stick d page b).bus = s.bus := by unfold State.stick; dsimp only; split <;> rfl
@[simp] theorem State.stick_trig : (s.stick d page b).trig = s.trig := by unfold State.stick; dsimp only; split <;> rfl
@[simp] theorem State.stick_rearmAt : (s.stick d page b).rearmAt = s.rearmAt := by unfold State.stick; dsimp only; split <;> rfl
@[simp] theorem State.stick_misused : (s.stick d page b).misused = s.misused := by unfold State.stick; dsimp only; split <;> rfl
@[simp] theorem State.stick_free : (s.stick d page b).free = s.free := by unfold State.stick; dsimp only; split <;> rfl
@[simp] theorem State.stick_pending : (s.stick d page b).pending = s.pending := by unfold State.stick; dsimp only; split <;> rfl

@[simp] theorem State.sumStick_part : (s.sumStick b).part = s.part := by unfold State.sumStick; dsimp only; split <;> rfl
@[simp] theorem State.sumStick_device : (s.sumStick b).device = s.device := by unfold State.sumStick; dsimp only; split <;> rfl
@[simp] theorem State.sumStick_last : (s.sumStick b).last = s.last := by unfold State.sumStick; dsimp only; split <;> rfl
@[simp] theorem State.sumStick_changes : (s.sumStick b).changes = s.changes := by unfold State.sumStick; dsimp only; split <;> rfl
@[simp] theorem State.sumStick_arming : (s.sumStick b).arming = s.arming := by unfold State.sumStick; dsimp only; split <;> rfl
@[simp] theorem State.sumStick_movedAt : (s.sumStick b).movedAt = s.movedAt := by unfold State.sumStick; dsimp only; split <;> rfl
@[simp] theorem State.sumStick_movedBy : (s.sumStick b).movedBy = s.movedBy := by unfold State.sumStick; dsimp only; split <;> rfl
@[simp] theorem State.sumStick_cmds : (s.sumStick b).cmds = s.cmds := by unfold State.sumStick; dsimp only; split <;> rfl
@[simp] theorem State.sumStick_td0 : (s.sumStick b).td0 = s.td0 := by unfold State.sumStick; dsimp only; split <;> rfl
@[simp] theorem State.sumStick_td0Prev : (s.sumStick b).td0Prev = s.td0Prev := by unfold State.sumStick; dsimp only; split <;> rfl
@[simp] theorem State.sumStick_fine : (s.sumStick b).fine = s.fine := by unfold State.sumStick; dsimp only; split <;> rfl
@[simp] theorem State.sumStick_wall : (s.sumStick b).wall = s.wall := by unfold State.sumStick; dsimp only; split <;> rfl
@[simp] theorem State.sumStick_mirrors : (s.sumStick b).mirrors = s.mirrors := by unfold State.sumStick; dsimp only; split <;> rfl
@[simp] theorem State.sumStick_fabric : (s.sumStick b).fabric = s.fabric := by unfold State.sumStick; dsimp only; split <;> rfl
@[simp] theorem State.sumStick_port : (s.sumStick b).port = s.port := by unfold State.sumStick; dsimp only; split <;> rfl
@[simp] theorem State.sumStick_pins : (s.sumStick b).pins = s.pins := by unfold State.sumStick; dsimp only; split <;> rfl
@[simp] theorem State.sumStick_tap : (s.sumStick b).tap = s.tap := by unfold State.sumStick; dsimp only; split <;> rfl
@[simp] theorem State.sumStick_pads : (s.sumStick b).pads = s.pads := by unfold State.sumStick; dsimp only; split <;> rfl
@[simp] theorem State.sumStick_bus : (s.sumStick b).bus = s.bus := by unfold State.sumStick; dsimp only; split <;> rfl
@[simp] theorem State.sumStick_trig : (s.sumStick b).trig = s.trig := by unfold State.sumStick; dsimp only; split <;> rfl
@[simp] theorem State.sumStick_rearmAt : (s.sumStick b).rearmAt = s.rearmAt := by unfold State.sumStick; dsimp only; split <;> rfl
@[simp] theorem State.sumStick_misused : (s.sumStick b).misused = s.misused := by unfold State.sumStick; dsimp only; split <;> rfl
@[simp] theorem State.sumStick_free : (s.sumStick b).free = s.free := by unfold State.sumStick; dsimp only; split <;> rfl
@[simp] theorem State.sumStick_pending : (s.sumStick b).pending = s.pending := by unfold State.sumStick; dsimp only; split <;> rfl

@[simp] theorem State.raise_part : (s.raise d k).part = s.part := by unfold State.raise; split <;> rfl
@[simp] theorem State.raise_device : (s.raise d k).device = s.device := by unfold State.raise; split <;> rfl
@[simp] theorem State.raise_last : (s.raise d k).last = s.last := by unfold State.raise; split <;> rfl
@[simp] theorem State.raise_changes : (s.raise d k).changes = s.changes := by unfold State.raise; split <;> rfl
@[simp] theorem State.raise_arming : (s.raise d k).arming = s.arming := by unfold State.raise; split <;> rfl
@[simp] theorem State.raise_movedAt : (s.raise d k).movedAt = s.movedAt := by unfold State.raise; split <;> rfl
@[simp] theorem State.raise_movedBy : (s.raise d k).movedBy = s.movedBy := by unfold State.raise; split <;> rfl
@[simp] theorem State.raise_cmds : (s.raise d k).cmds = s.cmds := by unfold State.raise; split <;> rfl
@[simp] theorem State.raise_td0 : (s.raise d k).td0 = s.td0 := by unfold State.raise; split <;> rfl
@[simp] theorem State.raise_td0Prev : (s.raise d k).td0Prev = s.td0Prev := by unfold State.raise; split <;> rfl
@[simp] theorem State.raise_fine : (s.raise d k).fine = s.fine := by unfold State.raise; split <;> rfl
@[simp] theorem State.raise_wall : (s.raise d k).wall = s.wall := by unfold State.raise; split <;> rfl
@[simp] theorem State.raise_mirrors : (s.raise d k).mirrors = s.mirrors := by unfold State.raise; split <;> rfl
@[simp] theorem State.raise_fabric : (s.raise d k).fabric = s.fabric := by unfold State.raise; split <;> rfl
@[simp] theorem State.raise_sum : (s.raise d k).sum = s.sum := by unfold State.raise; split <;> rfl
@[simp] theorem State.raise_sumPend : (s.raise d k).sumPend = s.sumPend := by unfold State.raise; split <;> rfl
@[simp] theorem State.raise_port : (s.raise d k).port = s.port := by unfold State.raise; split <;> rfl
@[simp] theorem State.raise_pins : (s.raise d k).pins = s.pins := by unfold State.raise; split <;> rfl
@[simp] theorem State.raise_tap : (s.raise d k).tap = s.tap := by unfold State.raise; split <;> rfl
@[simp] theorem State.raise_pads : (s.raise d k).pads = s.pads := by unfold State.raise; split <;> rfl
@[simp] theorem State.raise_bus : (s.raise d k).bus = s.bus := by unfold State.raise; split <;> rfl
@[simp] theorem State.raise_trig : (s.raise d k).trig = s.trig := by unfold State.raise; split <;> rfl
@[simp] theorem State.raise_rearmAt : (s.raise d k).rearmAt = s.rearmAt := by unfold State.raise; split <;> rfl
@[simp] theorem State.raise_misused : (s.raise d k).misused = s.misused := by unfold State.raise; split <;> rfl
@[simp] theorem State.raise_free : (s.raise d k).free = s.free := by unfold State.raise; split <;> rfl
@[simp] theorem State.raise_pending : (s.raise d k).pending = s.pending := by unfold State.raise; split <;> rfl

@[simp] theorem State.lower_part : (s.lower d k).part = s.part := rfl
@[simp] theorem State.lower_device : (s.lower d k).device = s.device := rfl
@[simp] theorem State.lower_last : (s.lower d k).last = s.last := rfl
@[simp] theorem State.lower_changes : (s.lower d k).changes = s.changes := rfl
@[simp] theorem State.lower_arming : (s.lower d k).arming = s.arming := rfl
@[simp] theorem State.lower_movedAt : (s.lower d k).movedAt = s.movedAt := rfl
@[simp] theorem State.lower_movedBy : (s.lower d k).movedBy = s.movedBy := rfl
@[simp] theorem State.lower_cmds : (s.lower d k).cmds = s.cmds := rfl
@[simp] theorem State.lower_td0 : (s.lower d k).td0 = s.td0 := rfl
@[simp] theorem State.lower_td0Prev : (s.lower d k).td0Prev = s.td0Prev := rfl
@[simp] theorem State.lower_fine : (s.lower d k).fine = s.fine := rfl
@[simp] theorem State.lower_wall : (s.lower d k).wall = s.wall := rfl
@[simp] theorem State.lower_mirrors : (s.lower d k).mirrors = s.mirrors := rfl
@[simp] theorem State.lower_fabric : (s.lower d k).fabric = s.fabric := rfl
@[simp] theorem State.lower_sum : (s.lower d k).sum = s.sum := rfl
@[simp] theorem State.lower_sumPend : (s.lower d k).sumPend = s.sumPend := rfl
@[simp] theorem State.lower_port : (s.lower d k).port = s.port := rfl
@[simp] theorem State.lower_pins : (s.lower d k).pins = s.pins := rfl
@[simp] theorem State.lower_tap : (s.lower d k).tap = s.tap := rfl
@[simp] theorem State.lower_pads : (s.lower d k).pads = s.pads := rfl
@[simp] theorem State.lower_bus : (s.lower d k).bus = s.bus := rfl
@[simp] theorem State.lower_trig : (s.lower d k).trig = s.trig := rfl
@[simp] theorem State.lower_rearmAt : (s.lower d k).rearmAt = s.rearmAt := rfl
@[simp] theorem State.lower_misused : (s.lower d k).misused = s.misused := rfl
@[simp] theorem State.lower_free : (s.lower d k).free = s.free := rfl
@[simp] theorem State.lower_pending : (s.lower d k).pending = s.pending := rfl

@[simp] theorem State.source_eq (on : Bool) : s.source d k on = if on then s.raise d k else s.lower d k := rfl

@[simp] theorem State.arrive_part : (s.arrive d k n).part = s.part := by unfold State.arrive; split <;> rfl
@[simp] theorem State.arrive_device : (s.arrive d k n).device = s.device := by unfold State.arrive; split <;> rfl
@[simp] theorem State.arrive_last : (s.arrive d k n).last = s.last := by unfold State.arrive; split <;> rfl
@[simp] theorem State.arrive_changes : (s.arrive d k n).changes = s.changes := by unfold State.arrive; split <;> rfl
@[simp] theorem State.arrive_arming : (s.arrive d k n).arming = s.arming := by unfold State.arrive; split <;> rfl
@[simp] theorem State.arrive_movedAt : (s.arrive d k n).movedAt = s.movedAt := by unfold State.arrive; split <;> rfl
@[simp] theorem State.arrive_movedBy : (s.arrive d k n).movedBy = s.movedBy := by unfold State.arrive; split <;> rfl
@[simp] theorem State.arrive_cmds : (s.arrive d k n).cmds = s.cmds := by unfold State.arrive; split <;> rfl
@[simp] theorem State.arrive_td0 : (s.arrive d k n).td0 = s.td0 := by unfold State.arrive; split <;> rfl
@[simp] theorem State.arrive_td0Prev : (s.arrive d k n).td0Prev = s.td0Prev := by unfold State.arrive; split <;> rfl
@[simp] theorem State.arrive_fine : (s.arrive d k n).fine = s.fine := by unfold State.arrive; split <;> rfl
@[simp] theorem State.arrive_wall : (s.arrive d k n).wall = s.wall := by unfold State.arrive; split <;> rfl
@[simp] theorem State.arrive_mirrors : (s.arrive d k n).mirrors = s.mirrors := by unfold State.arrive; split <;> rfl
@[simp] theorem State.arrive_fabric : (s.arrive d k n).fabric = s.fabric := by unfold State.arrive; split <;> rfl
@[simp] theorem State.arrive_sum : (s.arrive d k n).sum = s.sum := by unfold State.arrive; split <;> rfl
@[simp] theorem State.arrive_sumPend : (s.arrive d k n).sumPend = s.sumPend := by unfold State.arrive; split <;> rfl
@[simp] theorem State.arrive_port : (s.arrive d k n).port = s.port := by unfold State.arrive; split <;> rfl
@[simp] theorem State.arrive_pins : (s.arrive d k n).pins = s.pins := by unfold State.arrive; split <;> rfl
@[simp] theorem State.arrive_tap : (s.arrive d k n).tap = s.tap := by unfold State.arrive; split <;> rfl
@[simp] theorem State.arrive_pads : (s.arrive d k n).pads = s.pads := by unfold State.arrive; split <;> rfl
@[simp] theorem State.arrive_bus : (s.arrive d k n).bus = s.bus := by unfold State.arrive; split <;> rfl
@[simp] theorem State.arrive_trig : (s.arrive d k n).trig = s.trig := by unfold State.arrive; split <;> rfl
@[simp] theorem State.arrive_rearmAt : (s.arrive d k n).rearmAt = s.rearmAt := by unfold State.arrive; split <;> rfl
@[simp] theorem State.arrive_misused : (s.arrive d k n).misused = s.misused := by unfold State.arrive; split <;> rfl
@[simp] theorem State.arrive_free : (s.arrive d k n).free = s.free := by unfold State.arrive; split <;> rfl
@[simp] theorem State.arrive_pending : (s.arrive d k n).pending = s.pending := by unfold State.arrive; split <;> rfl

@[simp] theorem State.pulse_part : (s.pulse d k).part = s.part := by unfold State.pulse State.when; dsimp only; split <;> simp
@[simp] theorem State.pulse_device : (s.pulse d k).device = s.device := by unfold State.pulse State.when; dsimp only; split <;> simp
@[simp] theorem State.pulse_last : (s.pulse d k).last = s.last := by unfold State.pulse State.when; dsimp only; split <;> simp
@[simp] theorem State.pulse_changes : (s.pulse d k).changes = s.changes := by unfold State.pulse State.when; dsimp only; split <;> simp
@[simp] theorem State.pulse_arming : (s.pulse d k).arming = s.arming := by unfold State.pulse State.when; dsimp only; split <;> simp
@[simp] theorem State.pulse_movedAt : (s.pulse d k).movedAt = s.movedAt := by unfold State.pulse State.when; dsimp only; split <;> simp
@[simp] theorem State.pulse_movedBy : (s.pulse d k).movedBy = s.movedBy := by unfold State.pulse State.when; dsimp only; split <;> simp
@[simp] theorem State.pulse_cmds : (s.pulse d k).cmds = s.cmds := by unfold State.pulse State.when; dsimp only; split <;> simp
@[simp] theorem State.pulse_td0 : (s.pulse d k).td0 = s.td0 := by unfold State.pulse State.when; dsimp only; split <;> simp
@[simp] theorem State.pulse_td0Prev : (s.pulse d k).td0Prev = s.td0Prev := by unfold State.pulse State.when; dsimp only; split <;> simp
@[simp] theorem State.pulse_fine : (s.pulse d k).fine = s.fine := by unfold State.pulse State.when; dsimp only; split <;> simp
@[simp] theorem State.pulse_wall : (s.pulse d k).wall = s.wall := by unfold State.pulse State.when; dsimp only; split <;> simp
@[simp] theorem State.pulse_mirrors : (s.pulse d k).mirrors = s.mirrors := by unfold State.pulse State.when; dsimp only; split <;> simp
@[simp] theorem State.pulse_fabric : (s.pulse d k).fabric = s.fabric := by unfold State.pulse State.when; dsimp only; split <;> simp
@[simp] theorem State.pulse_sum : (s.pulse d k).sum = s.sum := by unfold State.pulse State.when; dsimp only; split <;> simp
@[simp] theorem State.pulse_sumPend : (s.pulse d k).sumPend = s.sumPend := by unfold State.pulse State.when; dsimp only; split <;> simp
@[simp] theorem State.pulse_port : (s.pulse d k).port = s.port := by unfold State.pulse State.when; dsimp only; split <;> simp
@[simp] theorem State.pulse_pins : (s.pulse d k).pins = s.pins := by unfold State.pulse State.when; dsimp only; split <;> simp
@[simp] theorem State.pulse_tap : (s.pulse d k).tap = s.tap := by unfold State.pulse State.when; dsimp only; split <;> simp
@[simp] theorem State.pulse_pads : (s.pulse d k).pads = s.pads := by unfold State.pulse State.when; dsimp only; split <;> simp
@[simp] theorem State.pulse_bus : (s.pulse d k).bus = s.bus := by unfold State.pulse State.when; dsimp only; split <;> simp
@[simp] theorem State.pulse_trig : (s.pulse d k).trig = s.trig := by unfold State.pulse State.when; dsimp only; split <;> simp
@[simp] theorem State.pulse_rearmAt : (s.pulse d k).rearmAt = s.rearmAt := by unfold State.pulse State.when; dsimp only; split <;> simp
@[simp] theorem State.pulse_misused : (s.pulse d k).misused = s.misused := by unfold State.pulse State.when; dsimp only; split <;> simp
@[simp] theorem State.pulse_free : (s.pulse d k).free = s.free := by unfold State.pulse State.when; dsimp only; split <;> simp
@[simp] theorem State.pulse_pending : (s.pulse d k).pending = s.pending := by unfold State.pulse State.when; dsimp only; split <;> simp

/-! ### The dies -/

@[simp] theorem State.onDie_length : (s.onDie d f).dies.length = s.dies.length := by simp [State.onDie]
@[simp] theorem State.putCell_length : (s.putCell d k w).dies.length = s.dies.length := by simp [State.putCell]
@[simp] theorem State.dropCells_length : (s.dropCells d p).dies.length = s.dies.length := by simp [State.dropCells]
@[simp] theorem State.wr_length : (s.wr d g i v).dies.length = s.dies.length := by simp [State.wr]
@[simp] theorem State.stick_length : (s.stick d page b).dies.length = s.dies.length := by unfold State.stick; dsimp only; split <;> simp
@[simp] theorem State.raise_length : (s.raise d k).dies.length = s.dies.length := by unfold State.raise; split <;> simp
@[simp] theorem State.lower_length : (s.lower d k).dies.length = s.dies.length := by simp [State.lower]
@[simp] theorem State.arrive_length : (s.arrive d k n).dies.length = s.dies.length := by unfold State.arrive; split <;> simp
@[simp] theorem State.pulse_length : (s.pulse d k).dies.length = s.dies.length := by unfold State.pulse State.when; dsimp only; split <;> simp
@[simp] theorem State.freeN_dies : (s.freeN.2).dies = s.dies := rfl
@[simp] theorem State.freeW_dies : (s.freeW.2).dies = s.dies := rfl
@[simp] theorem State.putSum_dies : (s.putSum off w).dies = s.dies := rfl
@[simp] theorem State.sumStick_dies : (s.sumStick b).dies = s.dies := by unfold State.sumStick; dsimp only; split <;> rfl

/-- What die e is after a change to die d. -/
theorem State.die_onDie : (s.onDie d f).die e = if e = d ∧ d < s.dies.length then f (s.die e) else s.die e := by
  unfold State.die State.onDie
  simp only [List.getD_eq_getElem?_getD, List.getElem?_modify]
  by_cases h : e = d
  · subst h
    by_cases hl : e < s.dies.length
    · simp [hl]
    · simp [hl]
  · have : ¬ d = e := fun x => h x.symm
    simp [h, this]

@[simp] theorem State.die_onDie_ne (h : e ≠ d) : (s.onDie d f).die e = s.die e := by simp [State.die_onDie, h]
@[simp] theorem State.die_onDie_same (h : d < s.dies.length) : (s.onDie d f).die d = f (s.die d) := by simp [State.die_onDie, h]
@[simp] theorem State.die_freeN : (s.freeN.2).die = s.die := rfl
@[simp] theorem State.die_freeW : (s.freeW.2).die = s.die := rfl
@[simp] theorem State.die_putSum : (s.putSum off w).die = s.die := rfl
@[simp] theorem State.die_sumStick : (s.sumStick b).die = s.die := by funext e; unfold State.die; rw [State.sumStick_dies]

/-! ### Fields of a die beside its cells -/

@[simp] theorem State.putCell_booted' : ((s.putCell d k w).die e).booted = (s.die e).booted := by unfold State.putCell; rw [State.die_onDie]; split <;> rfl
@[simp] theorem State.putCell_gated' : ((s.putCell d k w).die e).gated = (s.die e).gated := by unfold State.putCell; rw [State.die_onDie]; split <;> rfl
@[simp] theorem State.putCell_hold' : ((s.putCell d k w).die e).hold = (s.die e).hold := by unfold State.putCell; rw [State.die_onDie]; split <;> rfl
@[simp] theorem State.putCell_fab' : ((s.putCell d k w).die e).fab = (s.die e).fab := by unfold State.putCell; rw [State.die_onDie]; split <;> rfl
@[simp] theorem State.putCell_ang' : ((s.putCell d k w).die e).ang = (s.die e).ang := by unfold State.putCell; rw [State.die_onDie]; split <;> rfl
@[simp] theorem State.putCell_trk' : ((s.putCell d k w).die e).trk = (s.die e).trk := by unfold State.putCell; rw [State.die_onDie]; split <;> rfl
@[simp] theorem State.putCell_mfe' : ((s.putCell d k w).die e).mfe = (s.die e).mfe := by unfold State.putCell; rw [State.die_onDie]; split <;> rfl
@[simp] theorem State.putCell_le' : ((s.putCell d k w).die e).le = (s.die e).le := by unfold State.putCell; rw [State.die_onDie]; split <;> rfl
@[simp] theorem State.putCell_ep' : ((s.putCell d k w).die e).ep = (s.die e).ep := by unfold State.putCell; rw [State.die_onDie]; split <;> rfl
@[simp] theorem State.putCell_head' : ((s.putCell d k w).die e).head = (s.die e).head := by unfold State.putCell; rw [State.die_onDie]; split <;> rfl
@[simp] theorem State.putCell_node' : ((s.putCell d k w).die e).node = (s.die e).node := by unfold State.putCell; rw [State.die_onDie]; split <;> rfl
@[simp] theorem State.putCell_bg' : ((s.putCell d k w).die e).bg = (s.die e).bg := by unfold State.putCell; rw [State.die_onDie]; split <;> rfl
@[simp] theorem State.putCell_clk' : ((s.putCell d k w).die e).clk = (s.die e).clk := by unfold State.putCell; rw [State.die_onDie]; split <;> rfl
@[simp] theorem State.putCell_net' : ((s.putCell d k w).die e).net = (s.die e).net := by unfold State.putCell; rw [State.die_onDie]; split <;> rfl
@[simp] theorem State.putCell_saf' : ((s.putCell d k w).die e).saf = (s.die e).saf := by unfold State.putCell; rw [State.die_onDie]; split <;> rfl
@[simp] theorem State.putCell_flt' : ((s.putCell d k w).die e).flt = (s.die e).flt := by unfold State.putCell; rw [State.die_onDie]; split <;> rfl
@[simp] theorem State.putCell_thm' : ((s.putCell d k w).die e).thm = (s.die e).thm := by unfold State.putCell; rw [State.die_onDie]; split <;> rfl
@[simp] theorem State.putCell_bist' : ((s.putCell d k w).die e).bist = (s.die e).bist := by unfold State.putCell; rw [State.die_onDie]; split <;> rfl
@[simp] theorem State.putCell_sec' : ((s.putCell d k w).die e).sec = (s.die e).sec := by unfold State.putCell; rw [State.die_onDie]; split <;> rfl
@[simp] theorem State.putCell_recorder' : ((s.putCell d k w).die e).recorder = (s.die e).recorder := by unfold State.putCell; rw [State.die_onDie]; split <;> rfl
@[simp] theorem State.putCell_nimg' : ((s.putCell d k w).die e).nimg = (s.die e).nimg := by unfold State.putCell; rw [State.die_onDie]; split <;> rfl

@[simp] theorem State.wr_booted' : ((s.wr d g i v).die e).booted = (s.die e).booted := State.putCell_booted' ..
@[simp] theorem State.wr_gated' : ((s.wr d g i v).die e).gated = (s.die e).gated := State.putCell_gated' ..
@[simp] theorem State.wr_hold' : ((s.wr d g i v).die e).hold = (s.die e).hold := State.putCell_hold' ..
@[simp] theorem State.wr_fab' : ((s.wr d g i v).die e).fab = (s.die e).fab := State.putCell_fab' ..
@[simp] theorem State.wr_ang' : ((s.wr d g i v).die e).ang = (s.die e).ang := State.putCell_ang' ..
@[simp] theorem State.wr_trk' : ((s.wr d g i v).die e).trk = (s.die e).trk := State.putCell_trk' ..
@[simp] theorem State.wr_mfe' : ((s.wr d g i v).die e).mfe = (s.die e).mfe := State.putCell_mfe' ..
@[simp] theorem State.wr_le' : ((s.wr d g i v).die e).le = (s.die e).le := State.putCell_le' ..
@[simp] theorem State.wr_ep' : ((s.wr d g i v).die e).ep = (s.die e).ep := State.putCell_ep' ..
@[simp] theorem State.wr_head' : ((s.wr d g i v).die e).head = (s.die e).head := State.putCell_head' ..
@[simp] theorem State.wr_node' : ((s.wr d g i v).die e).node = (s.die e).node := State.putCell_node' ..
@[simp] theorem State.wr_bg' : ((s.wr d g i v).die e).bg = (s.die e).bg := State.putCell_bg' ..
@[simp] theorem State.wr_clk' : ((s.wr d g i v).die e).clk = (s.die e).clk := State.putCell_clk' ..
@[simp] theorem State.wr_net' : ((s.wr d g i v).die e).net = (s.die e).net := State.putCell_net' ..
@[simp] theorem State.wr_saf' : ((s.wr d g i v).die e).saf = (s.die e).saf := State.putCell_saf' ..
@[simp] theorem State.wr_flt' : ((s.wr d g i v).die e).flt = (s.die e).flt := State.putCell_flt' ..
@[simp] theorem State.wr_thm' : ((s.wr d g i v).die e).thm = (s.die e).thm := State.putCell_thm' ..
@[simp] theorem State.wr_bist' : ((s.wr d g i v).die e).bist = (s.die e).bist := State.putCell_bist' ..
@[simp] theorem State.wr_sec' : ((s.wr d g i v).die e).sec = (s.die e).sec := State.putCell_sec' ..
@[simp] theorem State.wr_recorder' : ((s.wr d g i v).die e).recorder = (s.die e).recorder := State.putCell_recorder' ..
@[simp] theorem State.wr_nimg' : ((s.wr d g i v).die e).nimg = (s.die e).nimg := State.putCell_nimg' ..

@[simp] theorem State.dropCells_booted' : ((s.dropCells d p).die e).booted = (s.die e).booted := by unfold State.dropCells; rw [State.die_onDie]; split <;> rfl
@[simp] theorem State.dropCells_gated' : ((s.dropCells d p).die e).gated = (s.die e).gated := by unfold State.dropCells; rw [State.die_onDie]; split <;> rfl
@[simp] theorem State.dropCells_hold' : ((s.dropCells d p).die e).hold = (s.die e).hold := by unfold State.dropCells; rw [State.die_onDie]; split <;> rfl
@[simp] theorem State.dropCells_fab' : ((s.dropCells d p).die e).fab = (s.die e).fab := by unfold State.dropCells; rw [State.die_onDie]; split <;> rfl
@[simp] theorem State.dropCells_ang' : ((s.dropCells d p).die e).ang = (s.die e).ang := by unfold State.dropCells; rw [State.die_onDie]; split <;> rfl
@[simp] theorem State.dropCells_trk' : ((s.dropCells d p).die e).trk = (s.die e).trk := by unfold State.dropCells; rw [State.die_onDie]; split <;> rfl
@[simp] theorem State.dropCells_mfe' : ((s.dropCells d p).die e).mfe = (s.die e).mfe := by unfold State.dropCells; rw [State.die_onDie]; split <;> rfl
@[simp] theorem State.dropCells_le' : ((s.dropCells d p).die e).le = (s.die e).le := by unfold State.dropCells; rw [State.die_onDie]; split <;> rfl
@[simp] theorem State.dropCells_ep' : ((s.dropCells d p).die e).ep = (s.die e).ep := by unfold State.dropCells; rw [State.die_onDie]; split <;> rfl
@[simp] theorem State.dropCells_head' : ((s.dropCells d p).die e).head = (s.die e).head := by unfold State.dropCells; rw [State.die_onDie]; split <;> rfl
@[simp] theorem State.dropCells_node' : ((s.dropCells d p).die e).node = (s.die e).node := by unfold State.dropCells; rw [State.die_onDie]; split <;> rfl
@[simp] theorem State.dropCells_bg' : ((s.dropCells d p).die e).bg = (s.die e).bg := by unfold State.dropCells; rw [State.die_onDie]; split <;> rfl
@[simp] theorem State.dropCells_clk' : ((s.dropCells d p).die e).clk = (s.die e).clk := by unfold State.dropCells; rw [State.die_onDie]; split <;> rfl
@[simp] theorem State.dropCells_net' : ((s.dropCells d p).die e).net = (s.die e).net := by unfold State.dropCells; rw [State.die_onDie]; split <;> rfl
@[simp] theorem State.dropCells_saf' : ((s.dropCells d p).die e).saf = (s.die e).saf := by unfold State.dropCells; rw [State.die_onDie]; split <;> rfl
@[simp] theorem State.dropCells_flt' : ((s.dropCells d p).die e).flt = (s.die e).flt := by unfold State.dropCells; rw [State.die_onDie]; split <;> rfl
@[simp] theorem State.dropCells_thm' : ((s.dropCells d p).die e).thm = (s.die e).thm := by unfold State.dropCells; rw [State.die_onDie]; split <;> rfl
@[simp] theorem State.dropCells_bist' : ((s.dropCells d p).die e).bist = (s.die e).bist := by unfold State.dropCells; rw [State.die_onDie]; split <;> rfl
@[simp] theorem State.dropCells_sec' : ((s.dropCells d p).die e).sec = (s.die e).sec := by unfold State.dropCells; rw [State.die_onDie]; split <;> rfl
@[simp] theorem State.dropCells_recorder' : ((s.dropCells d p).die e).recorder = (s.die e).recorder := by unfold State.dropCells; rw [State.die_onDie]; split <;> rfl
@[simp] theorem State.dropCells_nimg' : ((s.dropCells d p).die e).nimg = (s.die e).nimg := by unfold State.dropCells; rw [State.die_onDie]; split <;> rfl

@[simp] theorem State.stick_booted' : ((s.stick d page b).die e).booted = (s.die e).booted := by
  unfold State.stick; dsimp only; split
  · rfl
  · exact (State.putCell_booted' ..).trans (State.putCell_booted' ..)
@[simp] theorem State.stick_gated' : ((s.stick d page b).die e).gated = (s.die e).gated := by
  unfold State.stick; dsimp only; split
  · rfl
  · exact (State.putCell_gated' ..).trans (State.putCell_gated' ..)
@[simp] theorem State.stick_hold' : ((s.stick d page b).die e).hold = (s.die e).hold := by
  unfold State.stick; dsimp only; split
  · rfl
  · exact (State.putCell_hold' ..).trans (State.putCell_hold' ..)
@[simp] theorem State.stick_fab' : ((s.stick d page b).die e).fab = (s.die e).fab := by
  unfold State.stick; dsimp only; split
  · rfl
  · exact (State.putCell_fab' ..).trans (State.putCell_fab' ..)
@[simp] theorem State.stick_ang' : ((s.stick d page b).die e).ang = (s.die e).ang := by
  unfold State.stick; dsimp only; split
  · rfl
  · exact (State.putCell_ang' ..).trans (State.putCell_ang' ..)
@[simp] theorem State.stick_trk' : ((s.stick d page b).die e).trk = (s.die e).trk := by
  unfold State.stick; dsimp only; split
  · rfl
  · exact (State.putCell_trk' ..).trans (State.putCell_trk' ..)
@[simp] theorem State.stick_mfe' : ((s.stick d page b).die e).mfe = (s.die e).mfe := by
  unfold State.stick; dsimp only; split
  · rfl
  · exact (State.putCell_mfe' ..).trans (State.putCell_mfe' ..)
@[simp] theorem State.stick_le' : ((s.stick d page b).die e).le = (s.die e).le := by
  unfold State.stick; dsimp only; split
  · rfl
  · exact (State.putCell_le' ..).trans (State.putCell_le' ..)
@[simp] theorem State.stick_ep' : ((s.stick d page b).die e).ep = (s.die e).ep := by
  unfold State.stick; dsimp only; split
  · rfl
  · exact (State.putCell_ep' ..).trans (State.putCell_ep' ..)
@[simp] theorem State.stick_head' : ((s.stick d page b).die e).head = (s.die e).head := by
  unfold State.stick; dsimp only; split
  · rfl
  · exact (State.putCell_head' ..).trans (State.putCell_head' ..)
@[simp] theorem State.stick_node' : ((s.stick d page b).die e).node = (s.die e).node := by
  unfold State.stick; dsimp only; split
  · rfl
  · exact (State.putCell_node' ..).trans (State.putCell_node' ..)
@[simp] theorem State.stick_bg' : ((s.stick d page b).die e).bg = (s.die e).bg := by
  unfold State.stick; dsimp only; split
  · rfl
  · exact (State.putCell_bg' ..).trans (State.putCell_bg' ..)
@[simp] theorem State.stick_clk' : ((s.stick d page b).die e).clk = (s.die e).clk := by
  unfold State.stick; dsimp only; split
  · rfl
  · exact (State.putCell_clk' ..).trans (State.putCell_clk' ..)
@[simp] theorem State.stick_net' : ((s.stick d page b).die e).net = (s.die e).net := by
  unfold State.stick; dsimp only; split
  · rfl
  · exact (State.putCell_net' ..).trans (State.putCell_net' ..)
@[simp] theorem State.stick_saf' : ((s.stick d page b).die e).saf = (s.die e).saf := by
  unfold State.stick; dsimp only; split
  · rfl
  · exact (State.putCell_saf' ..).trans (State.putCell_saf' ..)
@[simp] theorem State.stick_flt' : ((s.stick d page b).die e).flt = (s.die e).flt := by
  unfold State.stick; dsimp only; split
  · rfl
  · exact (State.putCell_flt' ..).trans (State.putCell_flt' ..)
@[simp] theorem State.stick_thm' : ((s.stick d page b).die e).thm = (s.die e).thm := by
  unfold State.stick; dsimp only; split
  · rfl
  · exact (State.putCell_thm' ..).trans (State.putCell_thm' ..)
@[simp] theorem State.stick_bist' : ((s.stick d page b).die e).bist = (s.die e).bist := by
  unfold State.stick; dsimp only; split
  · rfl
  · exact (State.putCell_bist' ..).trans (State.putCell_bist' ..)
@[simp] theorem State.stick_sec' : ((s.stick d page b).die e).sec = (s.die e).sec := by
  unfold State.stick; dsimp only; split
  · rfl
  · exact (State.putCell_sec' ..).trans (State.putCell_sec' ..)
@[simp] theorem State.stick_recorder' : ((s.stick d page b).die e).recorder = (s.die e).recorder := by
  unfold State.stick; dsimp only; split
  · rfl
  · exact (State.putCell_recorder' ..).trans (State.putCell_recorder' ..)
@[simp] theorem State.stick_nimg' : ((s.stick d page b).die e).nimg = (s.die e).nimg := by
  unfold State.stick; dsimp only; split
  · rfl
  · exact (State.putCell_nimg' ..).trans (State.putCell_nimg' ..)

@[simp] theorem State.raise_booted' : ((s.raise d k).die e).booted = (s.die e).booted := by
  unfold State.raise; split
  · rfl
  · rw [State.die_onDie]; split <;> rfl
@[simp] theorem State.raise_gated' : ((s.raise d k).die e).gated = (s.die e).gated := by
  unfold State.raise; split
  · rfl
  · rw [State.die_onDie]; split <;> rfl
@[simp] theorem State.raise_hold' : ((s.raise d k).die e).hold = (s.die e).hold := by
  unfold State.raise; split
  · rfl
  · rw [State.die_onDie]; split <;> rfl
@[simp] theorem State.raise_fab' : ((s.raise d k).die e).fab = (s.die e).fab := by
  unfold State.raise; split
  · rfl
  · rw [State.die_onDie]; split <;> rfl
@[simp] theorem State.raise_ang' : ((s.raise d k).die e).ang = (s.die e).ang := by
  unfold State.raise; split
  · rfl
  · rw [State.die_onDie]; split <;> rfl
@[simp] theorem State.raise_trk' : ((s.raise d k).die e).trk = (s.die e).trk := by
  unfold State.raise; split
  · rfl
  · rw [State.die_onDie]; split <;> rfl
@[simp] theorem State.raise_mfe' : ((s.raise d k).die e).mfe = (s.die e).mfe := by
  unfold State.raise; split
  · rfl
  · rw [State.die_onDie]; split <;> rfl
@[simp] theorem State.raise_le' : ((s.raise d k).die e).le = (s.die e).le := by
  unfold State.raise; split
  · rfl
  · rw [State.die_onDie]; split <;> rfl
@[simp] theorem State.raise_ep' : ((s.raise d k).die e).ep = (s.die e).ep := by
  unfold State.raise; split
  · rfl
  · rw [State.die_onDie]; split <;> rfl
@[simp] theorem State.raise_head' : ((s.raise d k).die e).head = (s.die e).head := by
  unfold State.raise; split
  · rfl
  · rw [State.die_onDie]; split <;> rfl
@[simp] theorem State.raise_node' : ((s.raise d k).die e).node = (s.die e).node := by
  unfold State.raise; split
  · rfl
  · rw [State.die_onDie]; split <;> rfl
@[simp] theorem State.raise_bg' : ((s.raise d k).die e).bg = (s.die e).bg := by
  unfold State.raise; split
  · rfl
  · rw [State.die_onDie]; split <;> rfl
@[simp] theorem State.raise_clk' : ((s.raise d k).die e).clk = (s.die e).clk := by
  unfold State.raise; split
  · rfl
  · rw [State.die_onDie]; split <;> rfl
@[simp] theorem State.raise_net' : ((s.raise d k).die e).net = (s.die e).net := by
  unfold State.raise; split
  · rfl
  · rw [State.die_onDie]; split <;> rfl
@[simp] theorem State.raise_saf' : ((s.raise d k).die e).saf = (s.die e).saf := by
  unfold State.raise; split
  · rfl
  · rw [State.die_onDie]; split <;> rfl
@[simp] theorem State.raise_thm' : ((s.raise d k).die e).thm = (s.die e).thm := by
  unfold State.raise; split
  · rfl
  · rw [State.die_onDie]; split <;> rfl
@[simp] theorem State.raise_bist' : ((s.raise d k).die e).bist = (s.die e).bist := by
  unfold State.raise; split
  · rfl
  · rw [State.die_onDie]; split <;> rfl
@[simp] theorem State.raise_sec' : ((s.raise d k).die e).sec = (s.die e).sec := by
  unfold State.raise; split
  · rfl
  · rw [State.die_onDie]; split <;> rfl
@[simp] theorem State.raise_recorder' : ((s.raise d k).die e).recorder = (s.die e).recorder := by
  unfold State.raise; split
  · rfl
  · rw [State.die_onDie]; split <;> rfl
@[simp] theorem State.raise_nimg' : ((s.raise d k).die e).nimg = (s.die e).nimg := by
  unfold State.raise; split
  · rfl
  · rw [State.die_onDie]; split <;> rfl

@[simp] theorem State.lower_booted' : ((s.lower d k).die e).booted = (s.die e).booted := by unfold State.lower; rw [State.die_onDie]; split <;> rfl
@[simp] theorem State.lower_gated' : ((s.lower d k).die e).gated = (s.die e).gated := by unfold State.lower; rw [State.die_onDie]; split <;> rfl
@[simp] theorem State.lower_hold' : ((s.lower d k).die e).hold = (s.die e).hold := by unfold State.lower; rw [State.die_onDie]; split <;> rfl
@[simp] theorem State.lower_fab' : ((s.lower d k).die e).fab = (s.die e).fab := by unfold State.lower; rw [State.die_onDie]; split <;> rfl
@[simp] theorem State.lower_ang' : ((s.lower d k).die e).ang = (s.die e).ang := by unfold State.lower; rw [State.die_onDie]; split <;> rfl
@[simp] theorem State.lower_trk' : ((s.lower d k).die e).trk = (s.die e).trk := by unfold State.lower; rw [State.die_onDie]; split <;> rfl
@[simp] theorem State.lower_mfe' : ((s.lower d k).die e).mfe = (s.die e).mfe := by unfold State.lower; rw [State.die_onDie]; split <;> rfl
@[simp] theorem State.lower_le' : ((s.lower d k).die e).le = (s.die e).le := by unfold State.lower; rw [State.die_onDie]; split <;> rfl
@[simp] theorem State.lower_ep' : ((s.lower d k).die e).ep = (s.die e).ep := by unfold State.lower; rw [State.die_onDie]; split <;> rfl
@[simp] theorem State.lower_head' : ((s.lower d k).die e).head = (s.die e).head := by unfold State.lower; rw [State.die_onDie]; split <;> rfl
@[simp] theorem State.lower_node' : ((s.lower d k).die e).node = (s.die e).node := by unfold State.lower; rw [State.die_onDie]; split <;> rfl
@[simp] theorem State.lower_bg' : ((s.lower d k).die e).bg = (s.die e).bg := by unfold State.lower; rw [State.die_onDie]; split <;> rfl
@[simp] theorem State.lower_clk' : ((s.lower d k).die e).clk = (s.die e).clk := by unfold State.lower; rw [State.die_onDie]; split <;> rfl
@[simp] theorem State.lower_net' : ((s.lower d k).die e).net = (s.die e).net := by unfold State.lower; rw [State.die_onDie]; split <;> rfl
@[simp] theorem State.lower_saf' : ((s.lower d k).die e).saf = (s.die e).saf := by unfold State.lower; rw [State.die_onDie]; split <;> rfl
@[simp] theorem State.lower_thm' : ((s.lower d k).die e).thm = (s.die e).thm := by unfold State.lower; rw [State.die_onDie]; split <;> rfl
@[simp] theorem State.lower_bist' : ((s.lower d k).die e).bist = (s.die e).bist := by unfold State.lower; rw [State.die_onDie]; split <;> rfl
@[simp] theorem State.lower_sec' : ((s.lower d k).die e).sec = (s.die e).sec := by unfold State.lower; rw [State.die_onDie]; split <;> rfl
@[simp] theorem State.lower_recorder' : ((s.lower d k).die e).recorder = (s.die e).recorder := by unfold State.lower; rw [State.die_onDie]; split <;> rfl
@[simp] theorem State.lower_nimg' : ((s.lower d k).die e).nimg = (s.die e).nimg := by unfold State.lower; rw [State.die_onDie]; split <;> rfl

@[simp] theorem State.arrive_booted' : ((s.arrive d k n).die e).booted = (s.die e).booted := by
  unfold State.arrive; split
  · rw [State.die_onDie]; split <;> rfl
  · rfl
@[simp] theorem State.arrive_gated' : ((s.arrive d k n).die e).gated = (s.die e).gated := by
  unfold State.arrive; split
  · rw [State.die_onDie]; split <;> rfl
  · rfl
@[simp] theorem State.arrive_hold' : ((s.arrive d k n).die e).hold = (s.die e).hold := by
  unfold State.arrive; split
  · rw [State.die_onDie]; split <;> rfl
  · rfl
@[simp] theorem State.arrive_fab' : ((s.arrive d k n).die e).fab = (s.die e).fab := by
  unfold State.arrive; split
  · rw [State.die_onDie]; split <;> rfl
  · rfl
@[simp] theorem State.arrive_ang' : ((s.arrive d k n).die e).ang = (s.die e).ang := by
  unfold State.arrive; split
  · rw [State.die_onDie]; split <;> rfl
  · rfl
@[simp] theorem State.arrive_trk' : ((s.arrive d k n).die e).trk = (s.die e).trk := by
  unfold State.arrive; split
  · rw [State.die_onDie]; split <;> rfl
  · rfl
@[simp] theorem State.arrive_mfe' : ((s.arrive d k n).die e).mfe = (s.die e).mfe := by
  unfold State.arrive; split
  · rw [State.die_onDie]; split <;> rfl
  · rfl
@[simp] theorem State.arrive_le' : ((s.arrive d k n).die e).le = (s.die e).le := by
  unfold State.arrive; split
  · rw [State.die_onDie]; split <;> rfl
  · rfl
@[simp] theorem State.arrive_ep' : ((s.arrive d k n).die e).ep = (s.die e).ep := by
  unfold State.arrive; split
  · rw [State.die_onDie]; split <;> rfl
  · rfl
@[simp] theorem State.arrive_head' : ((s.arrive d k n).die e).head = (s.die e).head := by
  unfold State.arrive; split
  · rw [State.die_onDie]; split <;> rfl
  · rfl
@[simp] theorem State.arrive_node' : ((s.arrive d k n).die e).node = (s.die e).node := by
  unfold State.arrive; split
  · rw [State.die_onDie]; split <;> rfl
  · rfl
@[simp] theorem State.arrive_bg' : ((s.arrive d k n).die e).bg = (s.die e).bg := by
  unfold State.arrive; split
  · rw [State.die_onDie]; split <;> rfl
  · rfl
@[simp] theorem State.arrive_clk' : ((s.arrive d k n).die e).clk = (s.die e).clk := by
  unfold State.arrive; split
  · rw [State.die_onDie]; split <;> rfl
  · rfl
@[simp] theorem State.arrive_net' : ((s.arrive d k n).die e).net = (s.die e).net := by
  unfold State.arrive; split
  · rw [State.die_onDie]; split <;> rfl
  · rfl
@[simp] theorem State.arrive_saf' : ((s.arrive d k n).die e).saf = (s.die e).saf := by
  unfold State.arrive; split
  · rw [State.die_onDie]; split <;> rfl
  · rfl
@[simp] theorem State.arrive_thm' : ((s.arrive d k n).die e).thm = (s.die e).thm := by
  unfold State.arrive; split
  · rw [State.die_onDie]; split <;> rfl
  · rfl
@[simp] theorem State.arrive_bist' : ((s.arrive d k n).die e).bist = (s.die e).bist := by
  unfold State.arrive; split
  · rw [State.die_onDie]; split <;> rfl
  · rfl
@[simp] theorem State.arrive_sec' : ((s.arrive d k n).die e).sec = (s.die e).sec := by
  unfold State.arrive; split
  · rw [State.die_onDie]; split <;> rfl
  · rfl
@[simp] theorem State.arrive_recorder' : ((s.arrive d k n).die e).recorder = (s.die e).recorder := by
  unfold State.arrive; split
  · rw [State.die_onDie]; split <;> rfl
  · rfl
@[simp] theorem State.arrive_nimg' : ((s.arrive d k n).die e).nimg = (s.die e).nimg := by
  unfold State.arrive; split
  · rw [State.die_onDie]; split <;> rfl
  · rfl

@[simp] theorem State.pulse_booted' : ((s.pulse d k).die e).booted = (s.die e).booted := by
  unfold State.pulse State.when; dsimp only; split
  · rw [State.arrive_booted', State.die_onDie]; split <;> rfl
  · rw [State.die_onDie]; split <;> rfl
@[simp] theorem State.pulse_gated' : ((s.pulse d k).die e).gated = (s.die e).gated := by
  unfold State.pulse State.when; dsimp only; split
  · rw [State.arrive_gated', State.die_onDie]; split <;> rfl
  · rw [State.die_onDie]; split <;> rfl
@[simp] theorem State.pulse_hold' : ((s.pulse d k).die e).hold = (s.die e).hold := by
  unfold State.pulse State.when; dsimp only; split
  · rw [State.arrive_hold', State.die_onDie]; split <;> rfl
  · rw [State.die_onDie]; split <;> rfl
@[simp] theorem State.pulse_fab' : ((s.pulse d k).die e).fab = (s.die e).fab := by
  unfold State.pulse State.when; dsimp only; split
  · rw [State.arrive_fab', State.die_onDie]; split <;> rfl
  · rw [State.die_onDie]; split <;> rfl
@[simp] theorem State.pulse_ang' : ((s.pulse d k).die e).ang = (s.die e).ang := by
  unfold State.pulse State.when; dsimp only; split
  · rw [State.arrive_ang', State.die_onDie]; split <;> rfl
  · rw [State.die_onDie]; split <;> rfl
@[simp] theorem State.pulse_trk' : ((s.pulse d k).die e).trk = (s.die e).trk := by
  unfold State.pulse State.when; dsimp only; split
  · rw [State.arrive_trk', State.die_onDie]; split <;> rfl
  · rw [State.die_onDie]; split <;> rfl
@[simp] theorem State.pulse_mfe' : ((s.pulse d k).die e).mfe = (s.die e).mfe := by
  unfold State.pulse State.when; dsimp only; split
  · rw [State.arrive_mfe', State.die_onDie]; split <;> rfl
  · rw [State.die_onDie]; split <;> rfl
@[simp] theorem State.pulse_le' : ((s.pulse d k).die e).le = (s.die e).le := by
  unfold State.pulse State.when; dsimp only; split
  · rw [State.arrive_le', State.die_onDie]; split <;> rfl
  · rw [State.die_onDie]; split <;> rfl
@[simp] theorem State.pulse_ep' : ((s.pulse d k).die e).ep = (s.die e).ep := by
  unfold State.pulse State.when; dsimp only; split
  · rw [State.arrive_ep', State.die_onDie]; split <;> rfl
  · rw [State.die_onDie]; split <;> rfl
@[simp] theorem State.pulse_head' : ((s.pulse d k).die e).head = (s.die e).head := by
  unfold State.pulse State.when; dsimp only; split
  · rw [State.arrive_head', State.die_onDie]; split <;> rfl
  · rw [State.die_onDie]; split <;> rfl
@[simp] theorem State.pulse_node' : ((s.pulse d k).die e).node = (s.die e).node := by
  unfold State.pulse State.when; dsimp only; split
  · rw [State.arrive_node', State.die_onDie]; split <;> rfl
  · rw [State.die_onDie]; split <;> rfl
@[simp] theorem State.pulse_bg' : ((s.pulse d k).die e).bg = (s.die e).bg := by
  unfold State.pulse State.when; dsimp only; split
  · rw [State.arrive_bg', State.die_onDie]; split <;> rfl
  · rw [State.die_onDie]; split <;> rfl
@[simp] theorem State.pulse_clk' : ((s.pulse d k).die e).clk = (s.die e).clk := by
  unfold State.pulse State.when; dsimp only; split
  · rw [State.arrive_clk', State.die_onDie]; split <;> rfl
  · rw [State.die_onDie]; split <;> rfl
@[simp] theorem State.pulse_net' : ((s.pulse d k).die e).net = (s.die e).net := by
  unfold State.pulse State.when; dsimp only; split
  · rw [State.arrive_net', State.die_onDie]; split <;> rfl
  · rw [State.die_onDie]; split <;> rfl
@[simp] theorem State.pulse_saf' : ((s.pulse d k).die e).saf = (s.die e).saf := by
  unfold State.pulse State.when; dsimp only; split
  · rw [State.arrive_saf', State.die_onDie]; split <;> rfl
  · rw [State.die_onDie]; split <;> rfl
@[simp] theorem State.pulse_thm' : ((s.pulse d k).die e).thm = (s.die e).thm := by
  unfold State.pulse State.when; dsimp only; split
  · rw [State.arrive_thm', State.die_onDie]; split <;> rfl
  · rw [State.die_onDie]; split <;> rfl
@[simp] theorem State.pulse_bist' : ((s.pulse d k).die e).bist = (s.die e).bist := by
  unfold State.pulse State.when; dsimp only; split
  · rw [State.arrive_bist', State.die_onDie]; split <;> rfl
  · rw [State.die_onDie]; split <;> rfl
@[simp] theorem State.pulse_sec' : ((s.pulse d k).die e).sec = (s.die e).sec := by
  unfold State.pulse State.when; dsimp only; split
  · rw [State.arrive_sec', State.die_onDie]; split <;> rfl
  · rw [State.die_onDie]; split <;> rfl
@[simp] theorem State.pulse_recorder' : ((s.pulse d k).die e).recorder = (s.die e).recorder := by
  unfold State.pulse State.when; dsimp only; split
  · rw [State.arrive_recorder', State.die_onDie]; split <;> rfl
  · rw [State.die_onDie]; split <;> rfl
@[simp] theorem State.pulse_nimg' : ((s.pulse d k).die e).nimg = (s.die e).nimg := by
  unfold State.pulse State.when; dsimp only; split
  · rw [State.arrive_nimg', State.die_onDie]; split <;> rfl
  · rw [State.die_onDie]; split <;> rfl

/-! ### Registers -/

/-- A register read after one is written: its value on the die written, every other register as before. -/
theorem State.cell_putCell (h : d < s.dies.length) : (s.putCell d k w).cell e j = if e = d ∧ j = k then w else s.cell e j := by
  unfold State.cell State.putCell
  rw [State.die_onDie]
  by_cases he : e = d
  · subst he
    rw [if_pos ⟨rfl, h⟩]
    have := Cells.getD_find_put (s.dflt e) k j w (s.die e).cells
    simp only [true_and]
    exact this
  · simp only [he, false_and, if_false]; rfl

@[simp] theorem State.cell_putCell_same (h : d < s.dies.length) : (s.putCell d k w).cell d k = w := by
  simp [State.cell_putCell, h]

@[simp] theorem State.cell_putCell_ne (h : e ≠ d ∨ j ≠ k) : (s.putCell d k w).cell e j = s.cell e j := by
  by_cases hd : d < s.dies.length
  · rw [State.cell_putCell _ _ _ _ _ _ hd, if_neg]; rintro ⟨rfl, rfl⟩; simp at h
  · unfold State.cell State.putCell; rw [State.die_onDie, if_neg (fun c => hd c.2)]; rfl

theorem State.cell_dropCells (h : d < s.dies.length) :
    (s.dropCells d p).cell e j = if e = d ∧ p j then s.dflt d j else s.cell e j := by
  unfold State.cell State.dropCells
  rw [State.die_onDie]
  by_cases he : e = d
  · subst he
    rw [if_pos ⟨rfl, h⟩]
    show (Cells.find j ((s.die e).cells.filter fun c => !p c.1)).getD _ = _
    rw [Cells.find_filter (fun x => !p x)]
    by_cases hp : p j <;> simp [hp] <;> rfl
  · simp only [he, false_and, if_false]; rfl

/-- A change to a die that leaves its cells leaves its registers. -/
@[simp] theorem State.cell_onDie (h : ∀ x, (f x).cells = x.cells) : (s.onDie d f).cell e j = s.cell e j := by
  unfold State.cell; rw [State.die_onDie]; split
  · rw [h]; rfl
  · rfl

@[simp] theorem State.cell_raise : (s.raise d k).cell e j = s.cell e j := by
  unfold State.raise; split
  · rfl
  · exact State.cell_onDie _ _ _ _ _ fun _ => rfl

@[simp] theorem State.cell_lower : (s.lower d k).cell e j = s.cell e j := State.cell_onDie _ _ _ _ _ fun _ => rfl

@[simp] theorem State.cell_arrive : (s.arrive d k n).cell e j = s.cell e j := by
  unfold State.arrive; split
  · exact State.cell_onDie _ _ _ _ _ fun _ => rfl
  · rfl

@[simp] theorem State.cell_pulse : (s.pulse d k).cell e j = s.cell e j := by
  unfold State.pulse State.when; dsimp only; split
  · exact (State.cell_arrive ..).trans (State.cell_onDie _ _ _ _ _ fun _ => rfl)
  · exact State.cell_onDie _ _ _ _ _ fun _ => rfl

@[simp] theorem State.cell_freeN : (s.freeN.2).cell = s.cell := rfl
@[simp] theorem State.cell_freeW : (s.freeW.2).cell = s.cell := rfl
@[simp] theorem State.cell_putSum : (s.putSum off w).cell = s.cell := rfl
@[simp] theorem State.cell_sumStick : (s.sumStick b).cell = s.cell := by
  unfold State.sumStick; dsimp only; split <;> rfl

/-- A sticky bit set changes PAGE_STICKY and STICKY_COUNT of its page and no other register. -/
@[simp] theorem State.cell_stick_ne (h : e ≠ d ∨ j ≠ hdrKey page 0xC ∧ j ≠ hdrKey page 0x10) :
    (s.stick d page b).cell e j = s.cell e j := by
  unfold State.stick
  dsimp only
  split
  · rfl
  · exact (State.cell_putCell_ne _ _ _ _ _ _ (h.imp id And.right)).trans
      (State.cell_putCell_ne _ _ _ _ _ _ (h.imp id And.left))

/-- The sticky bit set stands after it, whatever stood before. -/
@[simp] theorem State.stuckAt_stick_same (h : d < s.dies.length) (hb : b < 32) : (s.stick d page b).stuckAt d page b = true := by
  unfold State.stick
  dsimp only
  split
  · assumption
  · have hk : hdrKey page 0xC ≠ hdrKey page 0x10 := by unfold hdrKey; omega
    have h1 := State.cell_putCell_ne (s.putCell d (hdrKey page 0xC) (setBits (s.cell d (hdrKey page 0xC)) b b 1)) d d
      (hdrKey page 0x10) (hdrKey page 0xC) (BitVec.ofNat 32 (((s.cell d (hdrKey page 0x10)).toNat + 1) % 65536)) (.inr hk)
    have h2 := State.cell_putCell_same s d (hdrKey page 0xC) (setBits (s.cell d (hdrKey page 0xC)) b b 1) h
    have h3 : bitOf (setBits (s.cell d (hdrKey page 0xC)) b b 1).toNat b = true := by
      rw [bitOf_setBits _ _ _ _ _ hb (le_refl b)]; simp [bitOf]
    rw [← h2, ← h1] at h3
    exact h3

/-- A field just written reads the value modulo its width. -/
theorem State.rd_wr_same (h : d < s.dies.length) (hi : g.hi < 32) (hl : g.lo ≤ g.hi) :
    (s.wr d g i v).rd d g i = v % 2 ^ (g.hi + 1 - g.lo) := by
  unfold State.rd State.wr
  rw [State.cell_putCell_same _ _ _ _ h, bitsOf_setBits_same _ _ _ _ hi hl]

/-- A field of another word reads as before. -/
@[simp] theorem State.rd_wr_ne (g' : Fld) (i' : Nat) (h : e ≠ d ∨ g'.key i' ≠ g.key i) :
    (s.wr d g i v).rd e g' i' = s.rd e g' i' := by
  unfold State.rd State.wr; rw [State.cell_putCell_ne _ _ _ _ _ _ h]

/-- A field of the same word beside the bits written reads as before. -/
theorem State.rd_wr_bits (g' : Fld) (i' : Nat) (hk : g'.key i' = g.key i) (hi : g.hi < 32) (hl : g.lo ≤ g.hi)
    (hb : g'.hi < g.lo ∨ g.hi < g'.lo) : (s.wr d g i v).rd e g' i' = s.rd e g' i' := by
  unfold State.rd State.wr
  rw [hk]
  by_cases hd : d < s.dies.length
  · rw [State.cell_putCell _ _ _ _ _ _ hd]
    split
    · rename_i hc; rw [bitsOf_setBits_other _ _ _ _ _ _ hi hl hb, hc.1]
    · rfl
  · unfold State.cell State.putCell; rw [State.die_onDie, if_neg (fun c => hd c.2)]; rfl

@[simp] theorem State.cell_wr_ne (h : e ≠ d ∨ j ≠ g.key i) : (s.wr d g i v).cell e j = s.cell e j :=
  State.cell_putCell_ne _ _ _ _ _ _ h

/-! ### What commands ask of a state -/

theorem State.alive_congr {s t : State} {e : Nat} (h1 : t.device = s.device) (h2 : t.part = s.part)
    (h3 : (t.die e).gated = (s.die e).gated) (h4 : (t.die e).hold = (s.die e).hold) : t.alive e = s.alive e := by
  unfold State.alive; rw [h1, h2, h3, h4]

@[simp] theorem State.alive_wr : (s.wr d g i v).alive e = s.alive e := State.alive_congr (by simp) (by simp) (by simp) (by simp)
@[simp] theorem State.alive_putCell : (s.putCell d k w).alive e = s.alive e :=
  State.alive_congr (by simp) (by simp) (by simp) (by simp)
@[simp] theorem State.alive_stick : (s.stick d page b).alive e = s.alive e :=
  State.alive_congr (by simp) (by simp) (by simp) (by simp)
@[simp] theorem State.alive_raise : (s.raise d k).alive e = s.alive e :=
  State.alive_congr (by simp) (by simp) (by simp) (by simp)
@[simp] theorem State.alive_lower : (s.lower d k).alive e = s.alive e :=
  State.alive_congr (by simp) (by simp) (by simp) (by simp)
@[simp] theorem State.alive_pulse : (s.pulse d k).alive e = s.alive e :=
  State.alive_congr (by simp) (by simp) (by simp) (by simp)

theorem State.lt_of_alive {s : State} {d : Nat} (h : s.alive d = true) : d < s.part.dies := by
  unfold State.alive at h; simp at h; exact h.1.1.2

theorem State.alive_of_on {s : State} {d page : Nat} (h : s.on d page = true) : s.alive d = true := by
  unfold State.on at h; simp at h; exact h.1

/-- On a shaped state an alive die is one that is held. -/
theorem State.lt_length {s : State} {d : Nat} (hs : s.shaped = true) (h : s.alive d = true) : d < s.dies.length := by
  have := State.lt_of_alive h
  unfold State.shaped at hs; simp at hs; omega

theorem State.sane_congr {s t : State} (h : t.misused = s.misused) : t.sane = s.sane := by unfold State.sane; rw [h]

@[simp] theorem State.sane_onDie : (s.onDie d f).sane = s.sane := State.sane_congr (by simp)
@[simp] theorem State.sane_putCell : (s.putCell d k w).sane = s.sane := State.sane_congr (by simp)
@[simp] theorem State.sane_dropCells : (s.dropCells d p).sane = s.sane := State.sane_congr (by simp)
@[simp] theorem State.sane_wr : (s.wr d g i v).sane = s.sane := State.sane_congr (by simp)
@[simp] theorem State.sane_stick : (s.stick d page b).sane = s.sane := State.sane_congr (by simp)
@[simp] theorem State.sane_raise : (s.raise d k).sane = s.sane := State.sane_congr (by simp)
@[simp] theorem State.sane_lower : (s.lower d k).sane = s.sane := State.sane_congr (by simp)
@[simp] theorem State.sane_arrive : (s.arrive d k n).sane = s.sane := State.sane_congr (by simp)
@[simp] theorem State.sane_pulse : (s.pulse d k).sane = s.sane := State.sane_congr (by simp)
@[simp] theorem State.sane_putSum : (s.putSum off w).sane = s.sane := State.sane_congr (by simp)
@[simp] theorem State.sane_sumStick : (s.sumStick b).sane = s.sane := State.sane_congr (by simp)

theorem State.guarded_true (c : Bool) (f : State → State) (hs : s.sane = true) (h : c = true) : s.guarded c f = .next (f s) := by
  simp [State.guarded, State.sanely, hs, h]

theorem State.guarded_false (c : Bool) (f : State → State) (hs : s.sane = true) (h : c = false) : s.guarded c f = .next s := by
  simp [State.guarded, State.sanely, hs, h]

/-- While a misuse stands, a command that is not always carried out is not answered for (00 R14). -/
theorem State.guarded_spoilt (c : Bool) (f : State → State) (hs : s.sane = false) : s.guarded c f = s.spoilt := by
  simp [State.guarded, State.sanely, hs]

@[simp] theorem State.always_true (f : State → State) : s.always true f = .next (f s) := rfl
@[simp] theorem State.always_false (f : State → State) : s.always false f = .next s := rfl

@[simp] theorem Res.bind_next (f : State → Res) : Res.bind (.next s) f = f s := rfl

end Sys2Proof.Machine
end

