-- ==== Sys2Proof/Laws/Frame.lean ====
section
/-! SUPPORT. Frames: which keys of a die the shared operations may change. Each lemma extends a frame by one operation. -/

namespace Sys2Proof.Machine

variable {s t : State} {d : Nat} {P Q : Nat → Prop}

theorem State.OnlyKeys.refl (s : State) (d : Nat) (P : Nat → Prop) : s.OnlyKeys s d P :=
  ⟨rfl, rfl, fun _ _ => rfl, fun _ _ => rfl, rfl⟩

theorem State.OnlyKeys.trans {u : State} (h1 : s.OnlyKeys t d P) (h2 : t.OnlyKeys u d P) : s.OnlyKeys u d P := by
  obtain ⟨a1, b1, c1, d1, e1⟩ := h1
  obtain ⟨a2, b2, c2, d2, e2⟩ := h2
  refine ⟨?_, b2.trans b1, fun e h => (c2 e h).trans (c1 e h), fun k h => (d2 k h).trans (d1 k h), e2.trans e1⟩
  rw [a2, a1]

theorem State.OnlyKeys.mono (h : s.OnlyKeys t d P) (hp : ∀ k, P k → Q k) : s.OnlyKeys t d Q :=
  ⟨h.1, h.2.1, h.2.2.1, fun k hk => h.2.2.2.1 k (fun c => hk (hp k c)), h.2.2.2.2⟩

/-- A change of die d beside its registers and its DRAM. -/
theorem State.OnlyKeys.onDie (h : s.OnlyKeys t d P) (f : Die → Die) (hc : ∀ x, (f x).cells = x.cells)
    (hd : ∀ x, (f x).recorder.dram = x.recorder.dram) : s.OnlyKeys (t.onDie d f) d P := by
  refine h.trans ⟨rfl, State.onDie_length .., fun e he => State.die_onDie_ne _ _ _ _ he,
    fun k _ => State.cell_onDie _ _ _ _ _ hc, ?_⟩
  rw [State.die_onDie]; split
  · exact hd _
  · rfl

theorem State.OnlyKeys.putCell (h : s.OnlyKeys t d P) (k : Nat) (w : Word) (hk : P k) : s.OnlyKeys (t.putCell d k w) d P := by
  refine h.trans ⟨rfl, State.putCell_length .., fun e he => State.die_onDie_ne _ _ _ _ he,
    fun j hj => State.cell_putCell_ne _ _ _ _ _ _ (.inr ?_), ?_⟩
  · rintro rfl; exact hj hk
  · unfold State.putCell; rw [State.die_onDie]; split <;> rfl

theorem State.OnlyKeys.wr (h : s.OnlyKeys t d P) (f : Fld) (i v : Nat) (hk : P (f.key i)) : s.OnlyKeys (t.wr d f i v) d P :=
  h.putCell _ _ hk

theorem State.OnlyKeys.stick (h : s.OnlyKeys t d P) (page b : Nat) (h1 : P (hdrKey page 0xC)) (h2 : P (hdrKey page 0x10)) :
    s.OnlyKeys (t.stick d page b) d P := by
  unfold State.stick
  dsimp only
  split
  · exact h
  · have := (h.putCell _ (setBits (t.cell d (hdrKey page 0xC)) b b 1) h1).putCell _
      (BitVec.ofNat 32 (((t.cell d (hdrKey page 0x10)).toNat + 1) % 65536)) h2
    refine this.trans ⟨rfl, rfl, fun _ _ => rfl, fun _ _ => rfl, rfl⟩

theorem State.OnlyKeys.raise (h : s.OnlyKeys t d P) (n : Nat) : s.OnlyKeys (t.raise d n) d P := by
  unfold State.raise; split
  · exact h
  · exact h.onDie _ (fun _ => rfl) (fun _ => rfl)

theorem State.OnlyKeys.lower (h : s.OnlyKeys t d P) (n : Nat) : s.OnlyKeys (t.lower d n) d P :=
  h.onDie _ (fun _ => rfl) (fun _ => rfl)

theorem State.OnlyKeys.source (h : s.OnlyKeys t d P) (n : Nat) (on : Bool) : s.OnlyKeys (t.source d n on) d P := by
  unfold State.source; split
  · exact h.raise n
  · exact h.lower n

theorem State.OnlyKeys.arrive (h : s.OnlyKeys t d P) (n w : Nat) : s.OnlyKeys (t.arrive d n w) d P := by
  unfold State.arrive; split
  · exact h.onDie _ (fun _ => rfl) (fun _ => rfl)
  · exact h

theorem State.OnlyKeys.pulse (h : s.OnlyKeys t d P) (n : Nat) : s.OnlyKeys (t.pulse d n) d P := by
  unfold State.pulse State.when
  dsimp only
  split
  · refine State.OnlyKeys.arrive (State.OnlyKeys.onDie h _ ?_ ?_) _ _ <;> intro x <;> rfl
  · refine State.OnlyKeys.onDie h _ ?_ ?_ <;> intro x <;> rfl

theorem State.OnlyKeys.freeN (h : s.OnlyKeys t d P) : s.OnlyKeys t.freeN.2 d P :=
  h.trans ⟨rfl, rfl, fun _ _ => rfl, fun _ _ => rfl, rfl⟩

theorem State.OnlyKeys.freeW (h : s.OnlyKeys t d P) : s.OnlyKeys t.freeW.2 d P :=
  h.trans ⟨rfl, rfl, fun _ _ => rfl, fun _ _ => rfl, rfl⟩

theorem State.OnlyKeys.when (h : s.OnlyKeys t d P) (c : Bool) (f : State → State) (hf : s.OnlyKeys (f t) d P) :
    s.OnlyKeys (t.when c f) d P := by
  unfold State.when; split
  · exact hf
  · exact h

theorem State.OnlyKeys.each {α : Type} (l : List α) (f : State → α → State) (h : s.OnlyKeys t d P)
    (hf : ∀ u a, a ∈ l → s.OnlyKeys u d P → s.OnlyKeys (f u a) d P) : s.OnlyKeys (t.each l f) d P := by
  unfold State.each
  induction l generalizing t with
  | nil => exact h
  | cons a l ih => exact ih (hf _ _ List.mem_cons_self h) fun u b hb hu => hf u b (List.mem_cons_of_mem _ hb) hu

end Sys2Proof.Machine
end

