-- ==== Sys2Proof/Laws/Enter.lean ====
section
/-! SUPPORT. A change of the device state (01 R33): what `State.enter` makes of the package, and what of the registers it leaves. -/

namespace Sys2Proof.Machine

/-- From s to t nothing of the package changes but its dies, its pins and the model's two counters; the number of dies, every
byte of DRAM and every key outside P stay. -/
def State.Inner (P : Nat → Nat → Prop) (s t : State) : Prop :=
  t = { s with dies := t.dies, pins := t.pins, sumPend := t.sumPend, free := t.free } ∧ t.dies.length = s.dies.length ∧
  (∀ e key, ¬P e key → t.cell e key = s.cell e key) ∧
  ∀ e, (t.die e).recorder.dram = (s.die e).recorder.dram

variable {s t u : State} {P : Nat → Nat → Prop}

theorem State.Inner.refl (P : Nat → Nat → Prop) (s : State) : State.Inner P s s := ⟨rfl, rfl, fun _ _ _ => rfl, fun _ => rfl⟩

theorem State.Inner.trans (h : State.Inner P s t) (k : State.Inner P t u) : State.Inner P s u := by
  obtain ⟨a1, b1, c1, d1⟩ := h
  obtain ⟨a2, b2, c2, d2⟩ := k
  refine ⟨?_, b2.trans b1, fun e x hx => (c2 e x hx).trans (c1 e x hx), fun e => (d2 e).trans (d1 e)⟩
  rw [a2, a1]

theorem State.Inner.onDie (h : State.Inner P s t) (d : Nat) (f : Die → Die) (hc : ∀ x, (f x).cells = x.cells)
    (hd : ∀ x, (f x).recorder.dram = x.recorder.dram) : State.Inner P s (t.onDie d f) := by
  refine h.trans ⟨rfl, State.onDie_length .., fun e k _ => State.cell_onDie _ _ _ _ _ hc, fun e => ?_⟩
  rw [State.die_onDie]; split
  · exact hd _
  · rfl

theorem State.Inner.putCell (h : State.Inner P s t) (d k : Nat) (w : Word) (hk : P d k) : State.Inner P s (t.putCell d k w) := by
  refine h.trans ⟨rfl, State.putCell_length .., fun e j hj => State.cell_putCell_ne _ _ _ _ _ _ ?_, fun e => ?_⟩
  · by_contra hc
    rw [not_or, not_not, not_not] at hc
    exact hj (hc.1 ▸ hc.2 ▸ hk)
  · unfold State.putCell; rw [State.die_onDie]; split <;> rfl

theorem State.Inner.wr (h : State.Inner P s t) (d : Nat) (f : Fld) (i v : Nat) (hk : P d (f.key i)) :
    State.Inner P s (t.wr d f i v) := h.putCell _ _ _ hk

theorem State.Inner.stick (h : State.Inner P s t) (d page b : Nat) (h1 : P d (hdrKey page 0xC)) (h2 : P d (hdrKey page 0x10)) :
    State.Inner P s (t.stick d page b) := by
  unfold State.stick
  dsimp only
  split
  · exact h
  · exact ((h.putCell _ _ _ h1).putCell _ _ _ h2).trans ⟨rfl, rfl, fun _ _ _ => rfl, fun _ => rfl⟩

theorem State.Inner.raise (h : State.Inner P s t) (d n : Nat) : State.Inner P s (t.raise d n) := by
  unfold State.raise; split
  · exact h
  · exact h.onDie _ _ (fun _ => rfl) (fun _ => rfl)

theorem State.Inner.lower (h : State.Inner P s t) (d n : Nat) : State.Inner P s (t.lower d n) :=
  h.onDie _ _ (fun _ => rfl) (fun _ => rfl)

theorem State.Inner.source (h : State.Inner P s t) (d n : Nat) (on : Bool) : State.Inner P s (t.source d n on) := by
  unfold State.source; split
  · exact h.raise ..
  · exact h.lower ..

/-- A change of the pins alone. -/
theorem State.Inner.pins (h : State.Inner P s t) (p : Pins) : State.Inner P s { t with pins := p } :=
  h.trans ⟨rfl, rfl, fun _ _ _ => rfl, fun _ => rfl⟩

theorem State.Inner.when (h : State.Inner P s t) (c : Bool) (f : State → State)
    (hf : c = true → State.Inner P s (f t)) : State.Inner P s (t.when c f) := by
  unfold State.when; split
  · next hc => exact hf hc
  · exact h

theorem State.Inner.each {α : Type} (l : List α) (f : State → α → State) (h : State.Inner P s t)
    (hf : ∀ v a, a ∈ l → State.Inner P s v → State.Inner P s (f v a)) : State.Inner P s (t.each l f) := by
  unfold State.each
  induction l generalizing t with
  | nil => exact h
  | cons a l ih => exact ih (hf _ _ List.mem_cons_self h) fun v b hb hv => hf v b (List.mem_cons_of_mem _ hb) hv

/-- The keys a change of state may touch: pages DIE, BG, SAF, FLT and a node's own context page. -/
def enterKeys (_ key : Nat) : Prop := key / 0x1000 ∈ [0, 8, 10, 11, 32]

theorem State.Inner.setNodeField (h : State.Inner P s t) (f : Nat) (v : BitVec 16) (hk : P 0 (ctxKey 1 f)) :
    State.Inner P s (t.setNodeField f v) := by
  unfold State.setNodeField; split
  · exact h
  · exact (h.putCell _ _ _ hk).onDie _ _ (fun _ => rfl) (fun _ => rfl)

theorem State.Inner.onLeg (h : State.Inner P s t) (k : Nat) (f : Leg → Leg) : State.Inner P s (t.onLeg k f) :=
  h.onDie _ _ (fun _ => rfl) (fun _ => rfl)

theorem State.Inner.onBridge (h : State.Inner P s t) (b : Nat) (f : Bridge → Bridge) : State.Inner P s (t.onBridge b f) :=
  h.onDie _ _ (fun _ => rfl) (fun _ => rfl)

theorem State.Inner.setGh (h : State.Inner P s t) (k : Nat) (b : Bool) : State.Inner P s (t.setGh k b) := h.pins _
theorem State.Inner.setGl (h : State.Inner P s t) (k : Nat) (b : Bool) : State.Inner P s (t.setGl k b) := h.pins _

theorem State.Inner.endHigh (h : State.Inner P s t) (k : Nat) (i : Int) : State.Inner P s (t.endHigh k i) :=
  h.when _ _ fun _ => h.onLeg _ _

theorem State.Inner.settleFalls (h : State.Inner P s t) (k : Nat) (i : Int) : State.Inner P s (t.settleFalls k i) := by
  unfold State.settleFalls
  dsimp only
  refine State.Inner.when (State.Inner.when h _ _ fun _ => ?_) _ _ fun _ => ?_
  · exact ((h.setGh _ _).onLeg _ _).endHigh _ _
  · exact (((h.when _ _ fun _ => ((h.setGh _ _).onLeg _ _).endHigh _ _).setGl _ _).onLeg _ _).endHigh _ _

theorem State.Inner.settleRise (h : State.Inner P s t) (k : Nat) (u : Bool) (i : Int) : State.Inner P s (t.settleRise k u i) := by
  unfold State.settleRise
  split
  · split
    · unfold State.rise
      dsimp only
      split
      · exact (h.setGh _ _).onLeg _ _
      · exact (h.setGl _ _).onLeg _ _
    · exact h
  · exact h

theorem State.Inner.settle (h : State.Inner P s t) (k : Nat) (i : Int) : State.Inner P s (t.settle k i) :=
  ((h.settleFalls _ _).settleRise _ _ _).settleRise _ _ _

theorem State.Inner.driveLeg (h : State.Inner P s t) (k : Nat) (up lo : Bool) (i : Int) :
    State.Inner P s (t.driveLeg k up lo i) := (h.settle _ _).onLeg _ _

theorem State.Inner.onBg (h : State.Inner P s t) (f : Bg → Bg) : State.Inner P s (t.onBg f) :=
  h.onDie _ _ (fun _ => rfl) (fun _ => rfl)

/-- Keys a change of state touches are closed under what it writes by name. -/
theorem enterKeys_of {d key : Nat} (n : Nat) (h : key / 0x1000 = n) (hn : n ∈ [0, 8, 10, 11, 32]) : enterKeys d key := by
  unfold enterKeys; rw [h]; exact hn

/-- The page of a field's word. -/
theorem Fld.key_page (f : Fld) (i : Nat) (h : f.base + f.stride * i < 0x1000) : f.key i / 0x1000 = f.page := by
  unfold Fld.key; omega

theorem enterKeys_fld {d : Nat} (f : Fld) (i : Nat) (h : f.base + f.stride * i < 0x1000)
    (hp : f.page ∈ [0, 8, 10, 11, 32]) : enterKeys d (f.key i) := enterKeys_of _ (f.key_page i h) hp

theorem enterKeys_hdr {d : Nat} (page off : Nat) (h : off < 0x1000) (hp : page ∈ [0, 8, 10, 11, 32]) :
    enterKeys d (hdrKey page off) := enterKeys_of page (by unfold hdrKey; omega) hp

theorem State.Inner.takeState (h : State.Inner enterKeys s t) (b code : Nat) (i : Int) :
    State.Inner enterKeys s (t.takeState b code i) := by
  unfold State.takeState
  dsimp only
  refine State.Inner.driveLeg (State.Inner.driveLeg (State.Inner.wr (State.Inner.onBridge ?_ _ _) _ _ _ _ ?_) _ _ _ _) _ _ _ _
  · exact h.when _ _ fun _ => h.wr _ _ _ _ (enterKeys_fld _ _ (by simp [znextField]) (by simp [znextField]))
  · exact enterKeys_fld _ _ (by simp [bstateField]) (by simp [bstateField])

theorem State.Inner.takeBlock (h : State.Inner enterKeys s t) (b : Nat) (w : Bool) (i : Int) :
    State.Inner enterKeys s (t.takeBlock b w i) := (h.onBridge _ _).takeState _ _ _

theorem enterKeys_sticky (n : Nat) (hn : n ∈ [0, 8, 10, 11, 32]) (d off : Nat) (h : off < 0x1000) : enterKeys d (hdrKey n off) :=
  enterKeys_hdr n off h hn

theorem State.Inner.makeCurrent (h : State.Inner enterKeys s t) (b : Nat) (m : Manifest) :
    State.Inner enterKeys s (t.makeCurrent b m) := by
  unfold State.makeCurrent
  dsimp only
  split
  · exact h.onBridge _ _
  · split
    · exact (h.onBridge _ _).onBridge _ _
    · exact ((h.onBridge _ _).stick _ _ _ (enterKeys_sticky _ (by decide) _ _ (by decide))
        (enterKeys_sticky _ (by decide) _ _ (by decide))).takeBlock _ _ _

theorem State.Inner.discardCurrent (h : State.Inner enterKeys s t) (b : Nat) : State.Inner enterKeys s (t.discardCurrent b) := by
  unfold State.discardCurrent
  dsimp only
  split
  · exact (h.onBridge _ _).makeCurrent _ _
  · exact h.onBridge _ _

theorem State.Inner.guardSources (h : State.Inner P s t) : State.Inner P s t.guardSources := (h.source _ _ _).source _ _ _

theorem State.Inner.undoTick (h : State.Inner enterKeys s t) (b : Nat) : State.Inner enterKeys s (t.undoTick b) := by
  unfold State.undoTick
  split
  · exact h
  · next u _ =>
    split
    · exact h
    · have h1 : State.Inner enterKeys s (t.wrB 0 (znextField b) 0 u.zNext) :=
        h.wr _ _ _ _ (enterKeys_fld _ _ (by simp [znextField]) (by simp [znextField]))
      have h2 := (h1.when (b == 0) (·.onBg fun g => { g with bypass := u.bypass }) fun _ => h1.onBg _).onBridge b
        fun x => { x with zUpper := u.zUpper, undo := none, src := u.edgeSrc.getD x.src }
      exact (h2.when _ _ fun _ => h2.discardCurrent b).guardSources

theorem State.Inner.blockBridge (h : State.Inner enterKeys s t) (b : Nat) : State.Inner enterKeys s (t.blockBridge b) := by
  have h1 := h.undoTick b
  exact State.Inner.takeBlock (h1.when _ _ fun _ => State.Inner.each _ _ h1 fun _ _ _ hv => hv.onLeg _ _) _ _ _

theorem State.Inner.blockAll (h : State.Inner enterKeys s t) : State.Inner enterKeys s t.blockAll :=
  State.Inner.each _ _ h fun _ _ _ hv => hv.blockBridge _

theorem State.Inner.unblock (h : State.Inner enterKeys s t) : State.Inner enterKeys s t.unblock :=
  State.Inner.each _ _ h fun v b _ hv => by
    split
    · exact hv
    · split
      · split
        · exact hv
        · exact hv.takeState _ _ _
      · split
        · split
          · exact (hv.onBridge _ _).takeState _ _ _
          · exact hv
        · exact hv

theorem State.Inner.safetyOff (h : State.Inner enterKeys s t) : State.Inner enterKeys s t.safetyOff := by
  unfold State.safetyOff
  refine State.Inner.each _ _ (h.pins _) fun v b _ hv => ?_
  exact (hv.wr _ _ _ _ (enterKeys_fld _ _ (by simp) (by simp))).onDie _ _ (fun _ => rfl) (fun _ => rfl)

theorem State.Inner.onSaf (h : State.Inner P s t) (ch : Nat) (f : Saf → Saf) : State.Inner P s (t.onSaf ch f) :=
  h.onDie _ _ (fun _ => rfl) (fun _ => rfl)

theorem State.Inner.safetyStart (h : State.Inner enterKeys s t) (ch : Nat) : State.Inner enterKeys s (t.safetyStart ch) := by
  have h1 := (h.wr ch Fd.SAF_FNSTATE.W 0 0x55555555 (enterKeys_fld _ _ (by simp) (by simp))).wr ch Fd.SAF_STATUS.CLEAR 0 0
    (enterKeys_fld _ _ (by simp) (by simp))
  have h2 := State.Inner.each (List.range 32) (fun s c => (s.wr ch Fd.CONN_STAT.W c 0).wr ch Fd.CONN_SEQ.W c 0) h1
    fun v c hc hv => by
      have hc : c < 32 := List.mem_range.mp hc
      have k1 : enterKeys ch (Fd.CONN_STAT.W.key c) := enterKeys_fld _ _ (show 0xC00 + 0x10 * c < 0x1000 by omega) (by decide)
      have k2 : enterKeys ch (Fd.CONN_SEQ.W.key c) := enterKeys_fld _ _ (show 0xC04 + 0x10 * c < 0x1000 by omega) (by decide)
      exact (hv.wr ch Fd.CONN_STAT.W c 0 k1).wr ch Fd.CONN_SEQ.W c 0 k2
  unfold State.safetyStart
  exact h2.onSaf ch _

theorem State.Inner.safetyTrip (h : State.Inner enterKeys s t) : State.Inner enterKeys s t.safetyTrip :=
  State.Inner.each _ _ h fun _ _ _ hv => hv.source _ _ _

theorem State.Inner.nimgEnd (h : State.Inner enterKeys s t) (d cause : Nat) : State.Inner enterKeys s (t.nimgEnd d cause) := by
  unfold State.nimgEnd
  dsimp only
  split
  · exact h
  · have k : ∀ f : Fld, f.base + f.stride * 0 < 0x1000 → f.page = 0 → enterKeys d (f.key 0) :=
      fun f h hp => enterKeys_fld f 0 h (by rw [hp]; decide)
    have h1 := State.Inner.each (t.die d).nimg.left (fun s e =>
      (((s.wrB d ⟨0x0, 0x40, 1, e.ws - 1, e.ws - 1⟩ 0 true).wr d Fd.NIMG_STAT.LAST_CAUSE 0 cause).wr d Fd.NIMG_STAT.LAST_WS 0 (e.ws - 1)))
      h fun v e _ hv => ((hv.wr d ⟨0x0, 0x40, 1, e.ws - 1, e.ws - 1⟩ 0 _ (k _ (show 0x40 + 1 * 0 < 0x1000 by decide) rfl)).wr d Fd.NIMG_STAT.LAST_CAUSE 0 cause
        (k _ (by decide) rfl)).wr d Fd.NIMG_STAT.LAST_WS 0 _ (k _ (by decide) rfl)
    have h2 := h1.onDie d (fun x => { x with nimg := ⟨[]⟩ }) (fun _ => rfl) (fun _ => rfl)
    exact (h2.wr d Fd.NIMG_STAT.STAT 0 2 (k _ (by decide) rfl)).wr d Fd.DIE_STATUS.NIMG_BUSY 0 _ (k _ (by decide) rfl)

theorem State.Inner.emptyLatch (h : State.Inner enterKeys s t) (d : Nat) :
    State.Inner enterKeys s ((t.emptyLocal d).emptyPackage d) := by
  unfold State.emptyPackage State.emptyLocal
  have k : ∀ (f : Fld), f.base + f.stride * 0 < 0x1000 → f.page = 11 → enterKeys d (f.key 0) :=
    fun f h hp => enterKeys_fld f 0 h (by rw [hp]; decide)
  exact (((((h.wr _ _ _ _ (k _ (by decide) rfl)).wr _ _ _ _ (k _ (by decide) rfl)).wr _ _ _ _ (k _ (by decide) rfl)).wr _ _ _ _
    (k _ (by decide) rfl)).wr _ _ _ _ (k _ (by decide) rfl)).wr _ _ _ _ (k _ (by decide) rfl)

theorem State.Inner.reportState (h : State.Inner enterKeys s t) : State.Inner enterKeys s t.reportState := by
  unfold State.reportState; split
  · exact h
  · exact h.setNodeField _ _ (enterKeys_of 32 (by unfold ctxKey; omega) (by decide))

/-- Everything a change of state does to a part with no load in progress. -/
theorem State.Inner.enter (s : State) (new : DevState) (hl : ∀ d, d < s.part.dies → s.imgBusy d = false) :
    State.Inner enterKeys { s with last := s.device, device := new, changes := s.changes + 1, arming := none, movedAt := some s.td0, movedBy := none } (s.enter new) := by
  unfold State.enter
  dsimp only
  generalize hu : ({ s with last := s.device, device := new, changes := s.changes + 1, arming := none, movedAt := some s.td0, movedBy := none } : State) = u
  have hb : ∀ d, d < s.part.dies → u.imgBusy d = false := by subst hu; exact hl
  have hp : u.part = s.part := by subst hu; rfl
  have h1 : State.Inner enterKeys u (u.sticky 0 Sk.DIE.STATE_CHANGED) :=
    (State.Inner.refl _ u).stick _ _ _ (enterKeys_hdr _ _ (by decide) (by decide)) (enterKeys_hdr _ _ (by decide) (by decide))
  generalize u.sticky 0 Sk.DIE.STATE_CHANGED = v1 at h1 ⊢
  have h2 : State.Inner enterKeys u (v1.when (!new.safetyOn) (·.safetyOff)) := h1.when _ _ fun _ => h1.safetyOff
  generalize v1.when (!new.safetyOn) (·.safetyOff) = v2 at h2 ⊢
  have h3 : State.Inner enterKeys u (v2.when (!s.device.safetyOn && new.safetyOn) fun s => s.each s.channels fun s ch => s.safetyStart ch) :=
    h2.when _ _ fun _ => State.Inner.each _ _ h2 fun _ _ _ hv => hv.safetyStart _
  generalize (v2.when (!s.device.safetyOn && new.safetyOn) fun s => s.each s.channels fun s ch => s.safetyStart ch) = v3 at h3 ⊢
  have h4 := h3.safetyTrip
  generalize v3.safetyTrip = v4 at h4 ⊢
  have h5 : State.Inner enterKeys u (v4.when (new != .config && new != .standstill) fun s => s.each s.dieList fun s d =>
      (s.nimgEnd d 5).when (s.imgBusy d) fun s => s.imgEnd d 8) := by
    refine h4.when _ _ fun _ => State.Inner.each _ _ h4 fun v d hd hv => ?_
    have hbusy : v.imgBusy d = u.imgBusy d := by
      unfold State.imgBusy State.rd
      rw [hv.2.2.1 d _ (by unfold enterKeys; rw [Fld.key_page _ _ (by simp)]; decide)]
    have hd' : d < s.part.dies := by
      have : d < v4.part.dies := List.mem_range.mp hd
      rw [h4.1] at this; exact hp ▸ this
    have : (v.imgBusy d) = false := by rw [hbusy]; exact hb d hd'
    rw [this]
    exact hv.nimgEnd d 5
  generalize (v4.when (new != .config && new != .standstill) fun s => s.each s.dieList fun s d =>
      (s.nimgEnd d 5).when (s.imgBusy d) fun s => s.imgEnd d 8) = v5 at h5 ⊢
  refine State.Inner.reportState ?_
  unfold State.setPermit
  refine State.Inner.pins ?_ _
  split
  · exact State.Inner.each _ _ h5 fun _ _ _ hv => hv.onDie _ _ (fun _ => rfl) (fun _ => rfl)
  · have h6 : State.Inner enterKeys u (v5.when (!new.switching && new != .lockout) fun s => (s.emptyLocal 0).emptyPackage 0) :=
      h5.when _ _ fun _ => h5.emptyLatch 0
    split
    · exact h6.unblock
    · exact h6.blockAll

end Sys2Proof.Machine
end

