-- ==== Sys2Proof/Laws/PerInstr.lean ====
section
/-! SUPPORT. Statements about every command, one lemma per constructor. Ranges: a command that names only what a part has names only what
every larger part has (TEMP_SAMPLE apart from its readings, one for each die of the part it is given to). -/

namespace Sys2Proof.Laws

/-- The number of readings a command carries for the dies of a part, if it carries any (17 R458). -/
def readings : Instr → Option Nat
  | .tempSample _ raws => some raws.length
  | _ => none

variable {a b d : Nat} {p q r : Bool}

theorem within (h : a ≤ b) (w : decide (d < a) = true) : decide (d < b) = true :=
  decide_eq_true (Nat.lt_of_lt_of_le (of_decide_eq_true w) h)

theorem withinPair (h : a ≤ b) (w : decide (d < min a 2) = true) : decide (d < min b 2) = true :=
  decide_eq_true (by have := of_decide_eq_true w; omega)

theorem andThen (h : p = true → q = true) (w : (p && r) = true) : (q && r) = true := by
  cases r
  · rw [Bool.and_false] at w; cases w
  · rw [Bool.and_true] at *; exact h w

/-- A command that is well formed on a part is well formed on every larger part, if its readings are as many as that part's dies. -/
def Ranges.Statement (i : Instr) : Prop :=
  ∀ a b, a ≤ b → (∀ n, readings i = some n → n = b) → i.wf a = true → i.wf b = true

theorem Ranges.suppliesRise (mv : List Nat) : Ranges.Statement (.suppliesRise mv) := fun _ _ _ _ h => h
theorem Ranges.supplyLoss (mv : List Nat) : Ranges.Statement (.supplyLoss mv) := fun _ _ _ _ h => h
theorem Ranges.resetNLow (ns : Nat) : Ranges.Statement (.resetNLow ns) := fun _ _ _ _ h => h
theorem Ranges.resetHoldEnd (mv : List Nat) (role : BitVec 2) (refsel boot0 : Bool) : Ranges.Statement (.resetHoldEnd mv role refsel boot0) := fun _ _ _ _ h => h
theorem Ranges.tpllLocked (d : Nat) : Ranges.Statement (.tpllLocked d) := fun _ _ h _ => within h
theorem Ranges.bootComplete (d : Nat) (links : BitVec 3) : Ranges.Statement (.bootComplete d links) := fun _ _ h _ => within h
theorem Ranges.bootGo : Ranges.Statement .bootGo := fun _ _ _ _ h => h
theorem Ranges.nodeSelfReset (cycles : Nat) : Ranges.Statement (.nodeSelfReset cycles) := fun _ _ _ _ h => h
theorem Ranges.stateCmdConfig : Ranges.Statement .stateCmdConfig := fun _ _ _ _ h => h
theorem Ranges.stateCmdStandstill : Ranges.Statement .stateCmdStandstill := fun _ _ _ _ h => h
theorem Ranges.stateCmdStartup : Ranges.Statement .stateCmdStartup := fun _ _ _ _ h => h
theorem Ranges.stateCmdRun : Ranges.Statement .stateCmdRun := fun _ _ _ _ h => h
theorem Ranges.stateCmdTest : Ranges.Statement .stateCmdTest := fun _ _ _ _ h => h
theorem Ranges.stateCmdRecovery : Ranges.Statement .stateCmdRecovery := fun _ _ _ _ h => h
theorem Ranges.stateCmdOther (target : BitVec 4) : Ranges.Statement (.stateCmdOther target) := fun _ _ _ _ h => h
theorem Ranges.collectorArmApply : Ranges.Statement .collectorArmApply := fun _ _ _ _ h => h
theorem Ranges.readWord (addr : Word) : Ranges.Statement (.readWord addr) := fun _ _ _ _ h => h
theorem Ranges.writeWord (addr data : Word) : Ranges.Statement (.writeWord addr data) := fun _ _ _ _ h => h
theorem Ranges.frameAbort (cmd : Byte) (addr data : Word) (phase : FramePhase) : Ranges.Statement (.frameAbort cmd addr data phase) := fun _ _ _ _ h => h
theorem Ranges.regTimeout (write : Bool) (addr data : Word) : Ranges.Statement (.regTimeout write addr data) := fun _ _ _ _ h => h
theorem Ranges.registerWrite (addr data : Word) : Ranges.Statement (.registerWrite addr data) := fun _ _ _ _ h => h
theorem Ranges.stickyClear (d page : Nat) (mask : Word) : Ranges.Statement (.stickyClear d page mask) := fun _ _ h _ => andThen (within h)
theorem Ranges.softReset (d page : Nat) (value : Word) : Ranges.Statement (.softReset d page value) := fun _ _ h _ => andThen (within h)
theorem Ranges.pageLock (d page : Nat) : Ranges.Statement (.pageLock d page) := fun _ _ h _ => andThen (within h)
theorem Ranges.blockEn (d page : Nat) (on : Bool) : Ranges.Statement (.blockEn d page on) := fun _ _ h _ => andThen (within h)
theorem Ranges.summaryUpdate : Ranges.Statement .summaryUpdate := fun _ _ _ _ h => h
theorem Ranges.fabricSubmission (d port source : Nat) (dst cls : Nat) : Ranges.Statement (.fabricSubmission d port source dst cls) := by
  intro a b h _; simp only [Instr.wf, Bool.and_eq_true, decide_eq_true_eq]; omega
theorem Ranges.fabricTransfer (d : Nat) (what : FabWhich) (how : FabArrival) : Ranges.Statement (.fabricTransfer d what how) := fun _ _ h _ => within h
theorem Ranges.linkDown (d : Nat) (link : FabLink) : Ranges.Statement (.linkDown d link) := fun _ _ h _ => within h
theorem Ranges.resEntryWrite (d i : Nat) (value : Word) : Ranges.Statement (.resEntryWrite d i value) := fun _ _ h _ => andThen (within h)
theorem Ranges.milestoneReached (d : Nat) : Ranges.Statement (.milestoneReached d) := fun _ _ h _ => within h
theorem Ranges.load (d i : Nat) : Ranges.Statement (.load d i) := fun _ _ h _ => andThen (within h)
theorem Ranges.disarm (d i : Nat) : Ranges.Statement (.disarm d i) := fun _ _ h _ => andThen (within h)
theorem Ranges.arm (d i : Nat) : Ranges.Statement (.arm d i) := fun _ _ h _ => andThen (within h)
theorem Ranges.snapSel (d domain : Nat) : Ranges.Statement (.snapSel d domain) := fun _ _ h _ => andThen (within h)
theorem Ranges.domainChange (d domain : Nat) (reg : AdReg) (value : Word) : Ranges.Statement (.domainChange d domain reg value) := fun _ _ h _ => andThen (within h)
theorem Ranges.mirrorRecord (domain : Nat) : Ranges.Statement (.mirrorRecord domain) := fun _ _ _ _ h => h
theorem Ranges.slewEnd (d domain : Nat) : Ranges.Statement (.slewEnd d domain) := fun _ _ h _ => andThen (within h)
theorem Ranges.trackerSample (d c : Nat) : Ranges.Statement (.trackerSample d c) := fun _ _ h _ => andThen (within h)
theorem Ranges.coastLoss (d c : Nat) : Ranges.Statement (.coastLoss d c) := fun _ _ h _ => andThen (within h)
theorem Ranges.locked (d c : Nat) : Ranges.Statement (.locked d c) := fun _ _ h _ => andThen (within h)
theorem Ranges.trackerStandstill (d c : Nat) : Ranges.Statement (.trackerStandstill d c) := fun _ _ h _ => andThen (within h)
theorem Ranges.quadTransition (d c : Nat) (qa qb : Bool) (stable : Nat) : Ranges.Statement (.quadTransition d c qa qb stable) := fun _ _ h _ => andThen (within h)
theorem Ranges.pulseEdge (d c : Nat) (ball : Bool) (stable : Nat) : Ranges.Statement (.pulseEdge d c ball stable) := fun _ _ h _ => andThen (within h)
theorem Ranges.restart (d c : Nat) : Ranges.Statement (.restart d c) := fun _ _ h _ => andThen (within h)
theorem Ranges.sdcCfgWrite (d k : Nat) (value : Word) : Ranges.Statement (.sdcCfgWrite d k value) := fun _ _ h _ => andThen (within h)
theorem Ranges.chEnWrite (d : Nat) (value : Word) : Ranges.Statement (.chEnWrite d value) := fun _ _ h _ => within h
theorem Ranges.channelSettled (d c edge : Nat) (bits : List Samples) : Ranges.Statement (.channelSettled d c edge bits) := fun _ _ h _ => andThen (within h)
theorem Ranges.fastResult (d c edge : Nat) (bits : List Samples) : Ranges.Statement (.fastResult d c edge bits) := fun _ _ h _ => andThen (within h)
theorem Ranges.stuck (d c edge : Nat) (bits : List Samples) : Ranges.Statement (.stuck d c edge bits) := fun _ _ h _ => andThen (within h)
theorem Ranges.instanceGrant (d e : Nat) : Ranges.Statement (.instanceGrant d e) := fun _ _ h _ => andThen (within h)
theorem Ranges.slotEnWrite (d : Nat) (hi : Bool) (value : Word) : Ranges.Statement (.slotEnWrite d hi value) := fun _ _ h _ => within h
theorem Ranges.slotCascWrite (d slot : Nat) (value : Word) : Ranges.Statement (.slotCascWrite d slot value) := fun _ _ h _ => andThen (within h)
theorem Ranges.spsWrite (d slot : Nat) (hi : Bool) (value : Word) : Ranges.Statement (.spsWrite d slot hi value) := fun _ _ h _ => andThen (within h)
theorem Ranges.nop (d e i : Nat) : Ranges.Statement (.nop d e i) := fun _ _ h _ => andThen (andThen (within h))
theorem Ranges.ld (d e i : Nat) : Ranges.Statement (.ld d e i) := fun _ _ h _ => andThen (andThen (within h))
theorem Ranges.ldw (d e i : Nat) : Ranges.Statement (.ldw d e i) := fun _ _ h _ => andThen (andThen (within h))
theorem Ranges.st (d e i : Nat) : Ranges.Statement (.st d e i) := fun _ _ h _ => andThen (andThen (within h))
theorem Ranges.sts (d e i : Nat) : Ranges.Statement (.sts d e i) := fun _ _ h _ => andThen (andThen (within h))
theorem Ranges.movw (d e i : Nat) : Ranges.Statement (.movw d e i) := fun _ _ h _ => andThen (andThen (within h))
theorem Ranges.mac (d e i : Nat) : Ranges.Statement (.mac d e i) := fun _ _ h _ => andThen (andThen (within h))
theorem Ranges.msu (d e i : Nat) : Ranges.Statement (.msu d e i) := fun _ _ h _ => andThen (andThen (within h))
theorem Ranges.mul (d e i : Nat) : Ranges.Statement (.mul d e i) := fun _ _ h _ => andThen (andThen (within h))
theorem Ranges.add (d e i : Nat) : Ranges.Statement (.add d e i) := fun _ _ h _ => andThen (andThen (within h))
theorem Ranges.sub (d e i : Nat) : Ranges.Statement (.sub d e i) := fun _ _ h _ => andThen (andThen (within h))
theorem Ranges.shl (d e i : Nat) : Ranges.Statement (.shl d e i) := fun _ _ h _ => andThen (andThen (within h))
theorem Ranges.shr (d e i : Nat) : Ranges.Statement (.shr d e i) := fun _ _ h _ => andThen (andThen (within h))
theorem Ranges.neg (d e i : Nat) : Ranges.Statement (.neg d e i) := fun _ _ h _ => andThen (andThen (within h))
theorem Ranges.abs (d e i : Nat) : Ranges.Statement (.abs d e i) := fun _ _ h _ => andThen (andThen (within h))
theorem Ranges.lim (d e i : Nat) : Ranges.Statement (.lim d e i) := fun _ _ h _ => andThen (andThen (within h))
theorem Ranges.intg (d e i : Nat) : Ranges.Statement (.intg d e i) := fun _ _ h _ => andThen (andThen (within h))
theorem Ranges.dly (d e i : Nat) : Ranges.Statement (.dly d e i) := fun _ _ h _ => andThen (andThen (within h))
theorem Ranges.sel (d e i : Nat) : Ranges.Statement (.sel d e i) := fun _ _ h _ => andThen (andThen (within h))
theorem Ranges.tab (d e i : Nat) : Ranges.Statement (.tab d e i) := fun _ _ h _ => andThen (andThen (within h))
theorem Ranges.div (d e i : Nat) : Ranges.Statement (.div d e i) := fun _ _ h _ => andThen (andThen (within h))
theorem Ranges.sincos (d e i : Nat) : Ranges.Statement (.sincos d e i) := fun _ _ h _ => andThen (andThen (within h))
theorem Ranges.inp (d e i : Nat) : Ranges.Statement (.inp d e i) := fun _ _ h _ => andThen (andThen (within h))
theorem Ranges.out (d e i : Nat) : Ranges.Statement (.out d e i) := fun _ _ h _ => andThen (andThen (within h))
theorem Ranges.spt (d e i : Nat) : Ranges.Statement (.spt d e i) := fun _ _ h _ => andThen (andThen (within h))
theorem Ranges.flag (d e i : Nat) : Ranges.Statement (.flag d e i) := fun _ _ h _ => andThen (andThen (within h))
theorem Ranges.cmp (d e i : Nat) : Ranges.Statement (.cmp d e i) := fun _ _ h _ => andThen (andThen (within h))
theorem Ranges.brf (d e i : Nat) : Ranges.Statement (.brf d e i) := fun _ _ h _ => andThen (andThen (within h))
theorem Ranges.endRun (d e i : Nat) : Ranges.Statement (.endRun d e i) := fun _ _ h _ => andThen (andThen (within h))
theorem Ranges.invalidInstruction (d e i : Nat) : Ranges.Statement (.invalidInstruction d e i) := fun _ _ h _ => andThen (andThen (within h))
theorem Ranges.planStart (d : Nat) (fails : List (Nat × Bool)) : Ranges.Statement (.planStart d fails) := fun _ _ h _ => within h
theorem Ranges.planEnd (d : Nat) : Ranges.Statement (.planEnd d) := fun _ _ h _ => within h
theorem Ranges.manifestTransfer (d ringSlot : Nat) : Ranges.Statement (.manifestTransfer d ringSlot) := fun _ _ h _ => andThen (within h)
theorem Ranges.ringLinkUp (d : Nat) (r : Ring) (seen : List Sight) : Ranges.Statement (.ringLinkUp d r seen) := fun _ _ h _ => within h
theorem Ranges.ringLinkDown (d : Nat) (r : Ring) (seen : List Sight) : Ranges.Statement (.ringLinkDown d r seen) := fun _ _ h _ => within h
theorem Ranges.ringBreak (d : Nat) (r : Ring) (link : Nat) : Ranges.Statement (.ringBreak d r link) := fun _ _ h _ => andThen (andThen (within h))
theorem Ranges.ringBreakClear (d : Nat) (r : Ring) (link : Nat) : Ranges.Statement (.ringBreakClear d r link) := fun _ _ h _ => andThen (andThen (within h))
theorem Ranges.blockForward (r : Ring) (blk : RingBlock) : Ranges.Statement (.blockForward r blk) := fun _ _ _ _ h => h
theorem Ranges.silent : Ranges.Statement .silent := fun _ _ _ _ h => h
theorem Ranges.ringBlockClear : Ranges.Statement .ringBlockClear := fun _ _ _ _ h => h
theorem Ranges.alert (d : Nat) (blk : RingBlock) : Ranges.Statement (.alert d blk) := fun _ _ h _ => andThen (within h)
theorem Ranges.ackReceived (d : Nat) (ack : BitVec 16) : Ranges.Statement (.ackReceived d ack) := fun _ _ h _ => within h
theorem Ranges.resendTimeout (d n : Nat) (cls : BitVec 2) : Ranges.Statement (.resendTimeout d n cls) := fun _ _ h _ => andThen (andThen (andThen (within h)))
theorem Ranges.syncSend (d : Nat) : Ranges.Statement (.syncSend d) := fun _ _ h _ => within h
theorem Ranges.sync (r : Ring) (blk : RingBlock) (arr : Nat) : Ranges.Statement (.sync r blk arr) := fun _ _ _ _ h => h
theorem Ranges.delaySend (d : Nat) : Ranges.Statement (.delaySend d) := fun _ _ h _ => within h
theorem Ranges.delay (r : Ring) (blk : RingBlock) (arr : Nat) : Ranges.Statement (.delay r blk arr) := fun _ _ _ _ h => h
theorem Ranges.delayReturn (d : Nat) (la lb : Option Nat) : Ranges.Statement (.delayReturn d la lb) := fun _ _ h _ => within h
theorem Ranges.enumGo (d : Nat) : Ranges.Statement (.enumGo d) := fun _ _ h _ => within h
theorem Ranges.enumReturn (d : Nat) (ca cb : Option (Nat × Nat)) : Ranges.Statement (.enumReturn d ca cb) := fun _ _ h _ => within h
theorem Ranges.caravan (r : Ring) (blk : RingBlock) : Ranges.Statement (.caravan r blk) := fun _ _ _ _ h => h
theorem Ranges.caravanFinalise (d : Nat) (cid : Byte) (returned : Nat) (results : List Word) : Ranges.Statement (.caravanFinalise d cid returned results) := fun _ _ h _ => within h
theorem Ranges.setpt (blk : RingBlock) : Ranges.Statement (.setpt blk) := fun _ _ _ _ h => h
theorem Ranges.stateSend (d : Nat) : Ranges.Statement (.stateSend d) := fun _ _ h _ => within h
theorem Ranges.state (blk : RingBlock) : Ranges.Statement (.state blk) := fun _ _ _ _ h => h
theorem Ranges.blockSend (d : Nat) : Ranges.Statement (.blockSend d) := fun _ _ h _ => within h
theorem Ranges.block (blk : RingBlock) : Ranges.Statement (.block blk) := fun _ _ _ _ h => h
theorem Ranges.contextFieldWrite (d n field : Nat) (value : BitVec 16) : Ranges.Statement (.contextFieldWrite d n field value) := fun _ _ h _ => andThen (andThen (andThen (within h)))
theorem Ranges.ctxWrite (r : Ring) (blk : RingBlock) : Ranges.Statement (.ctxWrite r blk) := fun _ _ _ _ h => h
theorem Ranges.ctxDataSend : Ranges.Statement .ctxDataSend := fun _ _ _ _ h => h
theorem Ranges.ctxData (d : Nat) (r : Ring) (blk : RingBlock) : Ranges.Statement (.ctxData d r blk) := fun _ _ h _ => andThen (within h)
theorem Ranges.remoteRead (d n : Nat) : Ranges.Statement (.remoteRead d n) := fun _ _ h _ => andThen (andThen (within h))
theorem Ranges.remoteWrite (d n : Nat) : Ranges.Statement (.remoteWrite d n) := fun _ _ h _ => andThen (andThen (within h))
theorem Ranges.regReq (r : Ring) (blk : RingBlock) : Ranges.Statement (.regReq r blk) := fun _ _ _ _ h => h
theorem Ranges.regRsp (d : Nat) (r : Ring) (blk : RingBlock) : Ranges.Statement (.regRsp d r blk) := fun _ _ h _ => andThen (within h)
theorem Ranges.remoteTimeout (d : Nat) : Ranges.Statement (.remoteTimeout d) := fun _ _ h _ => within h
theorem Ranges.ringModeWrite (d : Nat) (value : Word) : Ranges.Statement (.ringModeWrite d value) := fun _ _ h _ => within h
theorem Ranges.rresWrite (d i : Nat) (value : Word) : Ranges.Statement (.rresWrite d i value) := fun _ _ h _ => andThen (within h)
theorem Ranges.edgeExecute (b : Nat) : Ranges.Statement (.edgeExecute b) := fun _ _ _ _ h => h
theorem Ranges.manifestExpiry (b : Nat) : Ranges.Statement (.manifestExpiry b) := fun _ _ _ _ h => h
theorem Ranges.deadTimeEnd (leg : Nat) : Ranges.Statement (.deadTimeEnd leg) := fun _ _ _ _ h => h
theorem Ranges.dabB1Edge : Ranges.Statement .dabB1Edge := fun _ _ _ _ h => h
theorem Ranges.dabB2Edge : Ranges.Statement .dabB2Edge := fun _ _ _ _ h => h
theorem Ranges.legCrossing (leg : Nat) : Ranges.Statement (.legCrossing leg) := fun _ _ _ _ h => h
theorem Ranges.carrierPeak (leg : Nat) : Ranges.Statement (.carrierPeak leg) := fun _ _ _ _ h => h
theorem Ranges.pinCommand (b : Nat) (p n z : Bool × Nat) : Ranges.Statement (.pinCommand b p n z) := fun _ _ _ _ h => h
theorem Ranges.bgSrcWrite (value : Word) : Ranges.Statement (.bgSrcWrite value) := fun _ _ _ _ h => h
theorem Ranges.trip (leg : Nat) (senses : List Nat) : Ranges.Statement (.trip leg senses) := fun _ _ _ _ h => h
theorem Ranges.endBlank (leg : Nat) (senses : List Nat) : Ranges.Statement (.endBlank leg senses) := fun _ _ _ _ h => h
theorem Ranges.driverTrip (leg : Nat) (low : List Bool) : Ranges.Statement (.driverTrip leg low) := fun _ _ _ _ h => h
theorem Ranges.slowHigh (b : Nat) : Ranges.Statement (.slowHigh b) := fun _ _ _ _ h => h
theorem Ranges.gatesLow (leg : Nat) : Ranges.Statement (.gatesLow leg) := fun _ _ _ _ h => h
theorem Ranges.slowHoldEnd (b : Nat) : Ranges.Statement (.slowHoldEnd b) := fun _ _ _ _ h => h
theorem Ranges.unlock (legs : BitVec 6) (senses : List Nat) (gflt : BitVec 6) : Ranges.Statement (.unlock legs senses gflt) := fun _ _ _ _ h => h
theorem Ranges.referenceLost (d : Nat) (second : Bool) (cycles : Nat) : Ranges.Statement (.referenceLost d second cycles) := fun _ _ h _ => within h
theorem Ranges.referencePresent (d : Nat) (second : Bool) (cycles : Nat) (cdr : Bool) : Ranges.Statement (.referencePresent d second cycles cdr) := fun _ _ h _ => within h
theorem Ranges.holdoverEnd (d : Nat) (pll : Pll) : Ranges.Statement (.holdoverEnd d pll) := fun _ _ h _ => within h
theorem Ranges.refReturn (d : Nat) : Ranges.Statement (.refReturn d) := fun _ _ h _ => within h
theorem Ranges.pllRelock (d : Nat) (pll : Pll) : Ranges.Statement (.pllRelock d pll) := fun _ _ h _ => within h
theorem Ranges.clkGated (d : Nat) (errs : List Int) (still ago : Nat) : Ranges.Statement (.clkGated d errs still ago) := fun _ _ h _ => within h
theorem Ranges.fpllLoss (d : Nat) (errs : List Int) (still : Nat) : Ranges.Statement (.fpllLoss d errs still) := fun _ _ h _ => within h
theorem Ranges.dllLoss (d : Nat) : Ranges.Statement (.dllLoss d) := fun _ _ h _ => within h
theorem Ranges.dllRelock (d : Nat) : Ranges.Statement (.dllRelock d) := fun _ _ h _ => within h
theorem Ranges.update (d : Nat) : Ranges.Statement (.update d) := fun _ _ h _ => within h
theorem Ranges.guardFail (d : Nat) (khz : Nat) : Ranges.Statement (.guardFail d khz) := fun _ _ h _ => within h
theorem Ranges.vtEdge (d : Nat) (tvt fvt : Byte) (tFor fFor : Nat) : Ranges.Statement (.vtEdge d tvt fvt tFor fFor) := fun _ _ h _ => within h
theorem Ranges.netLinkChange (d : Nat) (pcs an : Bool) (speed : Nat) (full : Bool) : Ranges.Statement (.netLinkChange d pcs an speed full) := fun _ _ h _ => withinPair h
theorem Ranges.mdioRead (phy reg : BitVec 5) : Ranges.Statement (.mdioRead phy reg) := fun _ _ _ _ h => h
theorem Ranges.mdioWrite (phy reg : BitVec 5) (data : BitVec 16) : Ranges.Statement (.mdioWrite phy reg data) := fun _ _ _ _ h => h
theorem Ranges.mdioDone (data : BitVec 16) : Ranges.Statement (.mdioDone data) := fun _ _ _ _ h => h
theorem Ranges.frameReceive (d : Nat) (f : EthFrame) : Ranges.Statement (.frameReceive d f) := fun _ _ h _ => withinPair h
theorem Ranges.ptpMessage (d : Nat) (domain : Byte) (fine : Nat) (m : PtpMsg) : Ranges.Statement (.ptpMessage d domain fine m) := fun _ _ h _ => withinPair h
theorem Ranges.arpRequest (d : Nat) : Ranges.Statement (.arpRequest d) := fun _ _ h _ => withinPair h
theorem Ranges.safetyTelegram (d : Nat) : Ranges.Statement (.safetyTelegram d) := fun _ _ h _ => withinPair h
theorem Ranges.managementFrame (d : Nat) : Ranges.Statement (.managementFrame d) := fun _ _ h _ => withinPair h
theorem Ranges.supervisionSend : Ranges.Statement .supervisionSend := fun _ _ _ _ h => h
theorem Ranges.hsrForward (d : Nat) (f : EthFrame) (residence : Nat) : Ranges.Statement (.hsrForward d f residence) := fun _ _ h _ => withinPair h
theorem Ranges.duplicateExpiry (d : Nat) : Ranges.Statement (.duplicateExpiry d) := fun _ _ h _ => withinPair h
theorem Ranges.tdStep (n : Nat) (value : Word) : Ranges.Statement (.tdStep n value) := fun _ _ _ _ h => h
theorem Ranges.syncLoss (n : Nat) : Ranges.Statement (.syncLoss n) := fun _ _ _ _ h => h
theorem Ranges.announceTimeout (d : Nat) : Ranges.Statement (.announceTimeout d) := fun _ _ h _ => withinPair h
theorem Ranges.ppsInEdge (stable : Nat) : Ranges.Statement (.ppsInEdge stable) := fun _ _ _ _ h => h
theorem Ranges.ppsOutRise : Ranges.Statement .ppsOutRise := fun _ _ _ _ h => h
theorem Ranges.ppsOutFall : Ranges.Statement .ppsOutFall := fun _ _ _ _ h => h
theorem Ranges.inputAccept (ch : Nat) (fb : Bool) (i : Nat) (levels : List (Bool × Nat)) : Ranges.Statement (.inputAccept ch fb i levels) := fun _ _ h _ => andThen (withinPair h)
theorem Ranges.resetLong (ch f : Nat) : Ranges.Statement (.resetLong ch f) := fun _ _ h _ => andThen (withinPair h)
theorem Ranges.safetyCycle (ch : Nat) : Ranges.Statement (.safetyCycle ch) := fun _ _ h _ => withinPair h
theorem Ranges.discrepancy (ch f : Nat) (hand2 : Bool) : Ranges.Statement (.discrepancy ch f hand2) := fun _ _ h _ => andThen (withinPair h)
theorem Ranges.testPulse (n : Nat) : Ranges.Statement (.testPulse n) := fun _ _ _ _ h => h
theorem Ranges.inputTest (ch i : Nat) (raw : Bool) : Ranges.Statement (.inputTest ch i raw) := fun _ _ h _ => andThen (withinPair h)
theorem Ranges.outputTestPulse (ch j : Nat) (readback : Bool) : Ranges.Statement (.outputTestPulse ch j readback) := fun _ _ h _ => andThen (withinPair h)
theorem Ranges.readback (ch j : Nat) (level : Bool) : Ranges.Statement (.readback ch j level) := fun _ _ h _ => andThen (withinPair h)
theorem Ranges.feedback (ch j : Nat) : Ranges.Statement (.feedback ch j) := fun _ _ h _ => andThen (withinPair h)
theorem Ranges.crossImage (ch : Nat) : Ranges.Statement (.crossImage ch) := fun _ _ h _ => withinPair h
theorem Ranges.crossImageAbsent (ch : Nat) : Ranges.Statement (.crossImageAbsent ch) := fun _ _ h _ => withinPair h
theorem Ranges.safRstCmd (ch : Nat) (auth : Bool) (value : Word) : Ranges.Statement (.safRstCmd ch auth value) := fun _ _ h _ => withinPair h
theorem Ranges.safConfigWrite (ch : Nat) (offset : Nat) (auth : Bool) (value : Word) : Ranges.Statement (.safConfigWrite ch offset auth value) := fun _ _ h _ => andThen (withinPair h)
theorem Ranges.telegramTake (ch : Nat) : Ranges.Statement (.telegramTake ch) := fun _ _ h _ => withinPair h
theorem Ranges.watchdogExpiry (ch c : Nat) : Ranges.Statement (.watchdogExpiry ch c) := fun _ _ h _ => andThen (withinPair h)
theorem Ranges.degradedEnd (ch c : Nat) : Ranges.Statement (.degradedEnd ch c) := fun _ _ h _ => andThen (withinPair h)
theorem Ranges.localLatch (d : Nat) : Ranges.Statement (.localLatch d) := fun _ _ h _ => within h
theorem Ranges.packageRecord : Ranges.Statement .packageRecord := fun _ _ _ _ h => h
theorem Ranges.clear (d : Nat) : Ranges.Statement (.clear d) := fun _ _ h _ => within h
theorem Ranges.ffReactWrite (d : Nat) (value : Word) : Ranges.Statement (.ffReactWrite d value) := fun _ _ h _ => within h
theorem Ranges.tempSample (d : Nat) (raws : List Int) : Ranges.Statement (.tempSample d raws) := by
  intro a b h hn; have := hn _ rfl; simp only [Instr.wf, Bool.and_eq_true, decide_eq_true_eq] at *; omega
theorem Ranges.neighbourWrite (d n : Nat) : Ranges.Statement (.neighbourWrite d n) := fun _ _ h _ => andThen (andThen (within h))
theorem Ranges.sliceStart (d : Nat) : Ranges.Statement (.sliceStart d) := fun _ _ h _ => within h
theorem Ranges.sliceEnd (d : Nat) (fails : List FailCell) : Ranges.Statement (.sliceEnd d fails) := fun _ _ h _ => within h
theorem Ranges.fuseBurn (d macro_ : Nat) : Ranges.Statement (.fuseBurn d macro_) := fun _ _ h _ => andThen (within h)
theorem Ranges.fuseDone (d : Nat) : Ranges.Statement (.fuseDone d) := fun _ _ h _ => within h
theorem Ranges.engineTestStart (d : Nat) : Ranges.Statement (.engineTestStart d) := fun _ _ h _ => within h
theorem Ranges.engineTestYield (d : Nat) : Ranges.Statement (.engineTestYield d) := fun _ _ h _ => within h
theorem Ranges.engineTestEnd (d : Nat) (issues : Nat) (sig : Word) : Ranges.Statement (.engineTestEnd d issues sig) := fun _ _ h _ => andThen (within h)
theorem Ranges.patrolRead (d : Nat) (first second : Bool) : Ranges.Statement (.patrolRead d first second) := fun _ _ h _ => within h
theorem Ranges.imageStart (d : Nat) (type : BitVec 3) : Ranges.Statement (.imageStart d type) := fun _ _ h _ => within h
theorem Ranges.imageAbort (d : Nat) : Ranges.Statement (.imageAbort d) := fun _ _ h _ => within h
theorem Ranges.imageWord (d : Nat) (word : Word) : Ranges.Statement (.imageWord d word) := fun _ _ h _ => within h
theorem Ranges.imageVerified (d : Nat) : Ranges.Statement (.imageVerified d) := fun _ _ h _ => within h
theorem Ranges.attest (d : Nat) : Ranges.Statement (.attest d) := fun _ _ h _ => within h
theorem Ranges.establishKey (d : Nat) (slot : BitVec 2) : Ranges.Statement (.establishKey d slot) := fun _ _ h _ => within h
theorem Ranges.secOpDone (d : Nat) : Ranges.Statement (.secOpDone d) := fun _ _ h _ => within h
theorem Ranges.authGo (d : Nat) : Ranges.Statement (.authGo d) := fun _ _ h _ => within h
theorem Ranges.fuseProgram (d : Nat) (slot : BitVec 2) (auth : Bool) : Ranges.Statement (.fuseProgram d slot auth) := fun _ _ h _ => within h
theorem Ranges.fuseRevoke (d : Nat) (slot : BitVec 2) (auth : Bool) : Ranges.Statement (.fuseRevoke d slot auth) := fun _ _ h _ => within h
theorem Ranges.fuseOpDone (d : Nat) : Ranges.Statement (.fuseOpDone d) := fun _ _ h _ => within h
theorem Ranges.streamRecord (d : Nat) : Ranges.Statement (.streamRecord d) := fun _ _ h _ => within h
theorem Ranges.captureSend : Ranges.Statement .captureSend := fun _ _ _ _ h => h
theorem Ranges.capture (d : Nat) (r : Ring) (blk : RingBlock) : Ranges.Statement (.capture d r blk) := fun _ _ h _ => andThen (within h)
theorem Ranges.ledgerEnable (d : Nat) (on : Bool) : Ranges.Statement (.ledgerEnable d on) := fun _ _ h _ => within h
theorem Ranges.trig (c : BitVec 4) : Ranges.Statement (.trig c) := fun _ _ _ _ h => h
theorem Ranges.ledgerTrigger : Ranges.Statement .ledgerTrigger := fun _ _ _ _ h => h
theorem Ranges.ledgerSeal (d : Nat) : Ranges.Statement (.ledgerSeal d) := fun _ _ h _ => within h
theorem Ranges.rearm : Ranges.Statement .rearm := fun _ _ _ _ h => h
theorem Ranges.partWrite (d i : Nat) (value : Word) : Ranges.Statement (.partWrite d i value) := fun _ _ h _ => andThen (within h)
theorem Ranges.windowRead (d i : Nat) (first second : Bool) : Ranges.Statement (.windowRead d i first second) := fun _ _ h _ => andThen (within h)
theorem Ranges.windowWrite (d i : Nat) (value : Word) (first second : Bool) : Ranges.Statement (.windowWrite d i value first second) := fun _ _ h _ => andThen (within h)
theorem Ranges.nimgGo (d : Nat) : Ranges.Statement (.nimgGo d) := fun _ _ h _ => within h
theorem Ranges.nimgAbort (d : Nat) : Ranges.Statement (.nimgAbort d) := fun _ _ h _ => within h
theorem Ranges.image (r : Ring) (blk : RingBlock) : Ranges.Statement (.image r blk) := fun _ _ _ _ h => h
theorem Ranges.nimgPoll (d n : Nat) (fails : List (Nat × Bool)) : Ranges.Statement (.nimgPoll d n fails) := fun _ _ h _ => andThen (andThen (within h))
theorem Ranges.stuckClear (d c edge : Nat) (bit : Samples) : Ranges.Statement (.stuckClear d c edge bit) := fun _ _ h _ => andThen (within h)
theorem Ranges.ptpSend (d : Nat) (m : PtpSend) (fine : Nat) : Ranges.Statement (.ptpSend d m fine) := fun _ _ h _ => withinPair h
theorem Ranges.caravanBlockSend (d : Nat) : Ranges.Statement (.caravanBlockSend d) := fun _ _ h _ => within h
theorem Ranges.bcBlockSend (d n : Nat) : Ranges.Statement (.bcBlockSend d n) := fun _ _ h _ => andThen (andThen (within h))
theorem Ranges.pagePowerUpdate (d : Nat) : Ranges.Statement (.pagePowerUpdate d) := fun _ _ h _ => within h

end Sys2Proof.Laws
end

