-- ==== Sys2Proof/Laws/Sound.lean ====
section
/-! SUPPORT. The shared operations keep a state sound: the dies of the part, every store in canonical form. -/

namespace Sys2Proof.Machine

variable {s : State}

theorem State.Sound.congr {t : State} (h : s.Sound) (h1 : t.part = s.part) (h2 : t.sum = s.sum) (h3 : t.dies = s.dies) : t.Sound := by
  have hd : ∀ e, t.die e = s.die e := fun e => by unfold State.die; rw [h3]
  have hf : ∀ e, t.dflt e = s.dflt e := fun e => by unfold State.dflt; rw [h1]
  obtain ⟨a, b, c⟩ := h
  refine ⟨by unfold State.shaped at *; rw [h1, h3]; exact a, by rw [h2]; exact b, fun d hd' => ?_⟩
  unfold State.CanonicalDie
  rw [hd, hf]
  exact c d (h1 ▸ hd')

/-- A change of one die that keeps its stores canonical. -/
theorem State.Sound.onDie (h : s.Sound) (d : Nat) (f : Die → Die)
    (hc : (s.die d).cells.Canonical (s.dflt d) → (f (s.die d)).cells.Canonical (s.dflt d))
    (hm : Memory.wf (s.die d).recorder.dram → Memory.wf (f (s.die d)).recorder.dram) : (s.onDie d f).Sound := by
  obtain ⟨a, b, c⟩ := h
  refine ⟨by unfold State.shaped at *; rw [State.onDie_length]; exact a, b, fun e he => ?_⟩
  have he' : e < s.part.dies := he
  unfold State.CanonicalDie
  rw [State.die_onDie]
  split
  · next hk => obtain ⟨rfl, _⟩ := hk; exact ⟨hc (c e he').1, hm (c e he').2⟩
  · exact c e he'

/-- A change of a die beside its stores. -/
theorem State.Sound.onDie_same (h : s.Sound) (d : Nat) (f : Die → Die) (hc : ∀ x, (f x).cells = x.cells)
    (hm : ∀ x, (f x).recorder.dram = x.recorder.dram) : (s.onDie d f).Sound :=
  h.onDie d f (fun c => by rw [hc]; exact c) (fun c => by rw [hm]; exact c)

theorem State.Sound.putCell (h : s.Sound) (d k : Nat) (w : Word) : (s.putCell d k w).Sound :=
  h.onDie d _ (fun c => Cells.canonical_put k w c) id

theorem State.Sound.dropCells (h : s.Sound) (d : Nat) (p : Nat → Bool) : (s.dropCells d p).Sound :=
  h.onDie d _ (fun c => Cells.canonical_filter _ c) id

theorem State.Sound.wr (h : s.Sound) (d : Nat) (f : Fld) (i v : Nat) : (s.wr d f i v).Sound := h.putCell ..

theorem State.Sound.stick (h : s.Sound) (d page b : Nat) : (s.stick d page b).Sound := by
  unfold State.stick; dsimp only; split
  · exact h
  · exact State.Sound.congr ((h.putCell d _ _).putCell d _ _) rfl rfl rfl

theorem State.Sound.raise (h : s.Sound) (d n : Nat) : (s.raise d n).Sound := by
  unfold State.raise; split
  · exact h
  · exact h.onDie_same _ _ (fun _ => rfl) (fun _ => rfl)

theorem State.Sound.lower (h : s.Sound) (d n : Nat) : (s.lower d n).Sound := h.onDie_same _ _ (fun _ => rfl) (fun _ => rfl)

theorem State.Sound.source (h : s.Sound) (d n : Nat) (on : Bool) : (s.source d n on).Sound := by
  unfold State.source; split
  · exact h.raise ..
  · exact h.lower ..

theorem State.Sound.arrive (h : s.Sound) (d n w : Nat) : (s.arrive d n w).Sound := by
  unfold State.arrive; split
  · exact h.onDie_same _ _ (fun _ => rfl) (fun _ => rfl)
  · exact h

theorem State.Sound.when (h : s.Sound) (c : Bool) (f : State → State) (hf : s.Sound → (f s).Sound) : (s.when c f).Sound := by
  unfold State.when; split
  · exact hf h
  · exact h

theorem State.Sound.pulse (h : s.Sound) (d n : Nat) : (s.pulse d n).Sound := by
  unfold State.pulse
  dsimp only
  refine State.Sound.when (State.Sound.onDie_same h _ _ ?_ ?_) _ _ fun h => h.arrive .. <;> intro x <;> rfl

theorem State.Sound.freeN (h : s.Sound) : s.freeN.2.Sound := h.congr rfl rfl rfl
theorem State.Sound.freeW (h : s.Sound) : s.freeW.2.Sound := h.congr rfl rfl rfl

theorem State.Sound.putSum (h : s.Sound) (off : Nat) (w : Word) : (s.putSum off w).Sound :=
  ⟨h.1, Cells.canonical_put off w h.2.1, h.2.2⟩

theorem State.Sound.sumStick (h : s.Sound) (b : Nat) : (s.sumStick b).Sound := by
  unfold State.sumStick; dsimp only; split
  · exact h
  · exact State.Sound.congr ((h.putSum _ _).putSum _ _) rfl rfl rfl

theorem State.Sound.each {α : Type} (h : s.Sound) (l : List α) (f : State → α → State)
    (hf : ∀ t a, a ∈ l → t.Sound → (f t a).Sound) : (s.each l f).Sound := by
  unfold State.each
  induction l generalizing s with
  | nil => exact h
  | cons a l ih => exact ih (hf _ _ List.mem_cons_self h) fun t b hb => hf t b (List.mem_cons_of_mem _ hb)

/-- A write of bytes to the DRAM keeps its canonical form. -/
theorem State.Sound.dramWrite (h : s.Sound) (d a : Nat) (l : List Byte) : (s.dramWrite d a l).Sound :=
  h.onDie d _ id (fun c => Memory.wf_putAll l a c)

end Sys2Proof.Machine
end

