-- ==== Sys2Proof/Tests/Slice0.lean ====
section
/-! SUPPORT. The model's own tests: the checks of WellFormed refuse ill-formed terms; the spec's worked examples come out as it
gives them; and for every obligation with hypotheses, clause by clause, a concrete state and operands that meet them all together. -/

namespace Sys2Proof.Machine

set_option maxRecDepth 4000
set_option Elab.async false

/-! ### Small states -/

/-- A live part: every die out of its reset hold, in a device state, at a tick. -/
def bench (p : Part) (dev : DevState) (t : Nat) : State :=
  { State.resetOf p with
    device := dev, td0 := t, dies := (State.resetOf p).dies.map fun x => { x with hold := false, booted := true } }

/-- A KLD-2H and a KLD-1C. -/
def hd (dev : DevState) (t : Nat := 0) : State := bench .kld2h dev t
def nd (dev : DevState) (t : Nat := 0) : State := bench .kld1c dev t

/-- A field at a value. -/
def State.fld (s : State) (d : Nat) (f : Fld) (v : Nat) (i : Nat := 0) : State := s.wr d f i v
/-- A word of a die at a key, and a page header's BLOCK_EN and LOCK. -/
def State.word (s : State) (d key : Nat) (w : Word) : State := s.putCell d key w
def State.ben (s : State) (d page : Nat) (v : Nat := 1) : State := s.wr d ⟨page, 4, 0, 0, 0⟩ 0 v
def State.lck (s : State) (d page : Nat) : State := s.wr d ⟨page, 4, 0, 2, 2⟩ 0 1
def State.stk (s : State) (d page bit : Nat) : State := s.wr d ⟨page, 0xC, 0, bit, bit⟩ 0 1
/-- The address of a key of die d. -/
def ad (d key : Nat) : Word := BitVec.ofNat 32 (0x1000000 + 0x100000 * d + key)
/-- Both PLLs of the two dies locked: the ports answer. -/
def State.up (s : State) : State :=
  ((s.fld 0 Fd.CLK_STATUS.FPLL_LOCK 1).fld 0 Fd.CLK_STATUS.TPLL_LOCK 1)
def hdu (dev : DevState) (t : Nat := 0) : State :=
  (hd dev t).up |>.fld 1 Fd.CLK_STATUS.FPLL_LOCK 1 |>.fld 1 Fd.CLK_STATUS.TPLL_LOCK 1 |>.fld 0 (linkFld .row) 1 |>.fld 1 (linkFld .row) 1
def ndu (dev : DevState) (t : Nat := 0) : State := (nd dev t).up
/-- The next state of a command, or the state it stood in. -/
def after (c : Instr) (s : State) : State := match exec c s with
  | .next t => t
  | _ => s
/-- A tracker channel with a source, and a measurement channel running on clock 0. -/
def State.track (s : State) (d c src : Nat) (f : Trk → Trk := id) : State :=
  ((s.ben d 3).fld d Fd.TRK_CFG.SRC src c).onTrk d c fun x => f { x with words := ((s.ben d 3).fld d Fd.TRK_CFG.SRC src c).trkRegs d c, sampled := some (s.td0 - max 64 (s.rd d Fd.TRK_PER.SP c)) }
/-- The channel took its registers as they stand. -/
def State.took (s : State) (d c : Nat) : State := s.onTrk d c fun x => { x with words := s.trkRegs d c }
def State.meas (s : State) (d c : Nat) (f : Mch → Mch := id) : State :=
  (((((s.ben 0 4).ben d 4).fld 0 Fd.SDC_CFG.EN 1).fld 0 Fd.SDC_CFG.DIV 40).onSdc 0 0 fun x => { x with run := true }).fld d Fd.CH_EN.EN (2 ^ c) |>.fld d Fd.CH_CFG.OSR 0 c
    |>.fld d Fd.CH_CFG.FOSR 0 c |>.onMch d c fun x => f { x with edge := 40 }
/-- An instruction word from its fields. -/
def iw (op a ws mode field : Nat) : Word := BitVec.ofNat 32 (op * 2 ^ 26 + a * 2 ^ 24 + ws * 2 ^ 20 + mode * 2 ^ 17 + field)
/-- Slot 5 runs on instance i of engine e, at word 7 of the program, with pages at 100 (state) and 200 (coefficients). -/
def State.runs (s : State) (d e i : Nat) (w : Word) (f : Inst → Inst := id) : State :=
  ((((((s.ben d 5).fld d Fd.SLOT_CTRL.ENGINE e 5).fld d Fd.SLOT_STATE.STATE_BASE 100 5).fld d Fd.SLOT_COEF.BASE_A 200 5).fld d
    Fd.SLOT_STAT.COND 2 5).fld d Fd.SLOT_STAT.INSTANCE i 5).word d (progKey e 7) w |>.onInst d e i fun x =>
      f { x with busy := true, slot := 5, pc := 7, issues := 9, first := s.td0 - 144, acc := [0x123456789, -0x7000000000, 2 ^ 39 - 1, -(2 ^ 39)],
                 w := (List.range 16).map fun k => BitVec.ofNat 16 (0x8000 + 0x1357 * k) }
/-- The ring of die d in a mode, with n waystations and every link up. -/
def State.ring (s : State) (d mode n : Nat) (f : RingHead → RingHead := id) : State :=
  ((((((s.ben d 7).fld d Fd.RING_CTRL.MODE mode).fld d Fd.RING_STATUS.NODES n).word d 0x7028 0xFFFFFFFF#32).word d
    0x702C 0xFFFFFFFF#32).word d 0x7030 3#32).onHead d f
/-- A node numbered n on its ring, trusted, its mode RUN. -/
def State.way (s : State) (n : Nat) (f : RingNode → RingNode := id) : State :=
  (((s.ben 0 7).fld 0 Fd.RING_STATUS.NODES n).fld 0 Fd.RING_STATUS.TRUSTED 1).onNode fun x =>
    f { x with rmode := 3, syncAt := some s.td0, size := 4, linksA := -1, linksB := -1, lastHm := s.td0, rxUp := (true, true) }
/-- A good block. -/
def rb (cls kind src dst seq : Nat) (payload : List Byte) (alert ack : BitVec 16 := 0) : RingBlock :=
  sealBlock ⟨true, true, BitVec.ofNat 2 cls, BitVec.ofNat 4 kind, BitVec.ofNat 8 src, BitVec.ofNat 8 dst, BitVec.ofNat 8 seq,
    alert, ack, pad64 payload, 0, .normal⟩
/-- The same with a wrong CRC. -/
def badCrc (b : RingBlock) : RingBlock := { b with crc := b.crc + 1 }
/-- Bridge b of a node under a source, its guard on; the node in the cell role. -/
def State.brg (s : State) (b src : Nat) (f : Bridge → Bridge := id) : State :=
  ((s.ben 0 8).fld 0 (srcField b) src).onBridge b fun x => f { x with idle := false }
def State.inCell (s : State) : State := s.onDie 0 fun x => { x with clk := { x.clk with role := 1 } }
def State.domAt (s : State) (i : Nat) (src : Nat) (prev pos inc : Int) : State :=
  s.onDie 0 fun x => { x with ang := { x.ang with dom := setAt x.ang.dom i fun y => { y with src := src, prev := prev, pos := pos, inc := inc } } }
def State.pinsAt (s : State) (gh gl : BitVec 6) : State := { s with pins := { s.pins with gh := gh, gl := gl } }
/-- A node with a DAB on domain 3, its angle having just passed half turn h. -/
def dab (h : Int) (f : Bridge → Bridge := id) : State :=
  (((((ndu .run 8200).way 3).inCell.brg 1 2 f).brg 2 2 f).fld 0 Fd.BG_CARR.DAB_DOM 3).domAt 3 1 (h * halfTurn - 5) (h * halfTurn + 10) 15
/-- A node with its bridge 1 in direct leg mode on domain 4. -/
def legs (prev pos : Int) : State :=
  ((((ndu .run 8200).way 3).brg 1 2).fld 0 (legField 1) 1 |>.fld 0 Fd.BG_CARR.LMOD_DOM 4).domAt 4 1 prev pos (pos - prev)
/-- Station port d with its link up. -/
def State.portOn (s : State) (d : Nat) : State := (s.ben d 9).fld d Fd.NET_STATUS.LINK_UP 1
/-- A short good frame of a type. -/
def eth (etype : BitVec 16) : EthFrame := ⟨true, 64, 0, 0xFFFFFFFFFFFF, etype, false, none, 0x0200AABBCC01, some 7, []⟩
/-- An 8-byte entry list of a management frame, and the frame under a key. -/
def mgmtBody (entries : List (Nat × Nat × Nat)) (ctr : Nat) : List Byte :=
  [1, 1, 0xAB, 0xCD, BitVec.ofNat 8 entries.length, 0, 0, 0] ++
    (entries.map fun e => [BitVec.ofNat 8 e.1, 0, 0, 0] ++ beBytes 4 e.2.1 ++ beBytes 4 e.2.2).flatten ++ beBytes 8 ctr
def mgmt (key : List Byte) (entries : List (Nat × Nat × Nat)) (ctr : Nat) : List Byte :=
  mgmtBody entries ctr ++ tagOf key (mgmtBody entries ctr)
def State.keyed (s : State) (key : List Byte) (epoch : Nat) : State := (s.onSec 0 fun x => { x with key := some key }).fld 0 Fd.EPOCH.W epoch
def ranMgmt (b : List Byte) (u : State) : List Byte × State := match mgmtRun (mgmtEntries b) [] u with
  | .next p => p
  | _ => ([], u)
/-- A head with both safety channels enabled and out of lock-out. -/
def sf (dev : DevState) (t : Nat) : State :=
  ((((((hd dev t).ben 0 10).ben 1 10).fld 0 Fd.SAF_STATUS.LOCKOUT 0).fld 1 Fd.SAF_STATUS.LOCKOUT 0).fld 0 Fd.SAF_INFO.LO_CAUSE 0).fld 1 Fd.SAF_INFO.LO_CAUSE 0
/-- An image of a cycle. -/
def img (t si out : Nat) : Image := ⟨t, si, 0, 0, out, false, 0, 0, false, 0, []⟩
/-- Consumer c of a channel, its identity 0xC001 + c, TEXP 20 ms, LEN 4, in a state. -/
def State.takes (s : State) (ch c st : Nat) (f : Conn → Conn := id) : State :=
  (((((s.fld ch Fd.SAF_CONN_EN.W (2 ^ c)).fld ch Fd.CONN_ID.W (0xC001 + c) c).fld ch Fd.CONN_CFG.TEXP 20 c).fld ch Fd.CONN_PER.W 0x40000 c).fld ch
    Fd.CONN_STAT.W st c).onConn ch c f
/-- Sources that arrived at a die and have not met its latch; the bus of a head. -/
def State.arrives (s : State) (d : Nat) (l : List (Nat × Nat)) : State := s.onDie d fun x => { x with flt := { x.flt with arriving := l, present := l.map (·.1) } }
/-- Self-test enabled on a die. -/
def State.tests (s : State) (d : Nat) (f : Bist → Bist := id) : State := (s.ben d 13).onBist d f
/-- The 44 header words of an image: TYPE, slot 0, LEN and the bytes from 24 on. -/
def imgHdr (type len : Nat) (more : List Byte) : List Word :=
  (List.range 44).map fun i => BitVec.ofNat 32 (beNat (slice (beBytes 4 0x4B4C4431 ++ [BitVec.ofNat 8 type, 0, 0, 0] ++ beBytes 4 len ++ List.replicate 12 0 ++
    more ++ List.replicate 152 0) (4 * i) 4))
/-- A load of a type in progress, with the words received. -/
def State.loading (s : State) (d type : Nat) (ws : List Word) (stat : Nat := 1) : State :=
  ((s.ben d 14).fld d Fd.IMG_STAT.STAT stat).onSec d fun x => { x with type := type, words := ws.reverse }
/-- A loop image for engine 2: one program word at 5, one coefficient at 6, one state word at 7. -/
def loopHdr : List Word := imgHdr 1 12 ([2, 0] ++ beBytes 2 5 ++ beBytes 2 1 ++ beBytes 2 6 ++ beBytes 2 1 ++ beBytes 2 7 ++ beBytes 2 1)
/-- Slot 3 is enabled on engine 2 at program word 5. -/
def State.slotOn (s : State) (d : Nat) : State :=
  ((((s.ben d 5).fld d Fd.SLOT_EN_LO.W 8).fld d Fd.SLOT_CTRL.ENGINE 2 3).fld d Fd.SLOT_PROG.PROG_BASE 5 3).onDie d fun x => { x with le := { x.le with en := 8 } }
/-- The tag of a critical command in AUTH_TAG. -/
def State.withTag (s : State) (d : Nat) (tag : List Byte) : State :=
  let w := fun t => BitVec.ofNat 32 (beNat (slice tag (4 * t) 4))
  s.onDie d fun x => { x with cells := (0xE050, w 0) :: (0xE054, w 1) :: (0xE058, w 2) :: (0xE05C, w 3) :: x.cells }
/-- The command key of a die, its EPOCH, and a critical command in AUTH_ADDR to AUTH_CTR. -/
def State.bare (s : State) (d : Nat) (key : List Byte) (addr data ctr : Nat) : State :=
  let s := (((s.onSec d fun x => { x with key := some key }).fld d Fd.EPOCH.W 3).fld d Fd.AUTH_ADDR.W addr).fld d Fd.AUTH_DATA.W data
  (s.fld d Fd.AUTH_CTR_HI.W (ctr / 2 ^ 32)).fld d Fd.AUTH_CTR_LO.W (ctr % 2 ^ 32)
/-- The same with its tag. -/
def State.auth (s : State) (d : Nat) (key : List Byte) (addr data ctr : Nat) : State :=
  (s.bare d key addr data ctr).withTag d (tagOf key ((s.bare d key addr data ctr).authMsg d))
/-- Owner slot k of a die holds v. -/
def State.owns (s : State) (d k v : Nat) : State := s.onSec d fun x => { x with fuses := x.fuses ||| BitVec.ofNat 4096 (v * 2 ^ (1216 + 384 * k)) }
/-- DRAM of a die answers; partition i is pages 16 (1 + i) on. -/
def State.dramUp (s : State) (d : Nat) : State :=
  ((((s.ben d 15).fld d Fd.REC_STATUS.DRAM_OK 1).fld d Fd.PART.W 0x00010001 0).fld d Fd.PART.W 0x00020001 1).fld d Fd.PART.W 0x00030001 2
/-- A stream record is due in the tick. -/
def State.streams (s : State) (d : Nat) : State := ((s.ben d 15).fld d Fd.STREAM.EN 1).fld d Fd.STREAM.PERIOD 5
/-- A transfer from die 0 to die 1 of a class, submitted in a tick and standing in a die's square. -/
def xfer (cls born die : Nat) : FabXfer := ⟨0, 1, 1, cls, born, die, 7, .other⟩
/-- Instance 7 of engine 5 of die 1 is to issue a word, with operands of both signs in its pages and set-points. -/
def looped (w : Word) (f : Inst → Inst := id) : State :=
  ((hdu .run).runs 1 5 7 w fun x => f { x with sp := [0x8100, 0x7F00, 0x0003, 0x7000] }).word 1 (stateKey 104) 0x8000#32 |>.word 1 (stateKey 105) 0x7F12#32
    |>.word 1 (coefKey 204) 0x0003#32 |>.word 1 (coefKey 205) 0x4001#32 |>.word 1 (coefKey 206) 0xA001#32
/-- A transfer of manifests due to the member at ring slot 2, die 0; a planner that holds it, its reservation in entry 3. -/
def sent : MTransfer := ⟨2, 0, ⟨1, 2, [], 3, 4⟩, 5, 1⟩
def sending (entry : Word) : State :=
  ((((hdu .run 300).ben 1 6).ben 1 16).word 1 (Fd.RES_ENTRY.W.key 3) entry).onDie 1 fun x => { x with ep := { x.ep with out := [sent] } }
/-- The IDLE block that passes a node on ring B in a tick. -/
def idleAt (t : Nat) : TxBlock := ⟨.b, rb 3 0 0 0xFF 0 [], t⟩
/-- The upper gate of leg 3 is high since tick 8,184, its normal threshold 40 mV, its override 80 mV. -/
def sensed (t : Nat := 8200) : State :=
  (((ndu .run t).way 3).brg 1 1 |>.pinsAt 0x8 0).word 0 0x803C 0xA4000#32 |>.onLeg 3 fun l => { l with high := some (8184, none) }
/-- Legs 0 and 5 of a node locked, no sense above a threshold. -/
def unlocking : State :=
  ((((ndu .run 8200).way 3).fld 0 (lockField 5) 1 |>.fld 0 (lockField 0) 1).onLeg 5 fun l => { l with hist := [5] }).word 0 0x8030 0xA4000#32 |>.word 0 0x8034 0xA4000#32
    |>.word 0 0x8044 0xA4000#32
/-- The clocks of die 1 have locked and its references are present. -/
def State.ran (s : State) : State := (s.onClk 1 fun c => { c with started := true }).fld 1 Fd.CLK_STATUS.REF0_OK 1
/-- A frame as a port keeps it for its handler. -/
def keptOf (f : EthFrame) (t : Nat) (payload : List Byte := f.payload) : Kept := Kept.mk f.source f.sequence t (f.udp.map fun u => (u.1, u.2.1)) payload
def State.keeps (s : State) (d : Nat) (h : Handler) (payload : List Byte := []) : State :=
  s.onNet d fun n => { n with kept := [(h, keptOf (eth 0x0806) 8 payload)] }
/-- Management requests that reached the register agent. -/
def State.asks (s : State) (d : Nat) (b : List Byte) : State := (s.ben 0 9).onNet 0 fun n => { n with requests := [(d, keptOf (eth 0x88B5) 8 b)] }
/-- A frame with a read and a write, and one with two reads, at the register agent of a head that holds their key. -/
def bothFrame : List Byte := mgmt [1, 2] [(0, 0x1000000, 0), (1, 0x100001C, 5)] 0x300000001
def askedBoth : State := (((hdu .run 9).portOn 1).keyed [1, 2] 3).asks 1 bothFrame
def taken (s : State) : State := ((s.onNet 0 fun n => { n with requests := [] }).wr 0 Fd.CTR_LO.W 0 (loWord 0x300000001)).wr 0 Fd.CTR_HI.W 0 (hiWord 0x300000001)
def bothTaken : State := taken askedBoth
def readsFrame : List Byte := mgmt [1, 2] [(0, 0x1000000, 0), (0, 0x1010004, 0)] 0x300000001
def askedReads : State := (((hdu .run 9).portOn 1).keyed [1, 2] 3).asks 1 readsFrame

/-- A grandmaster, heard on a port; port 1 of a head runs PTP in a state, TD2 follows it. -/
def master : PtpClock := ⟨5, 6, 0x21, 0x4E5D, 7, 0x0011223344556677, 3, 0xABCD⟩
def ptp (t st : Nat) (f : Net → Net := id) : State :=
  (((((hd .run t).portOn 1).fld 0 Fd.PTP_CFG.PORTS 1).setPtpState 1 st).fld 0 Fd.TD_CTRL.SRC 1 1).onNet 1 fun n => f { n with ann := some ⟨master, 37, t⟩, mpd := 5 }
/-- A safety channel ends the sample of a tick with checks. -/
def ends (t : Nat) (l : List SafCheck) (f : Saf → Saf := id) : State := (sf .run t).onSaf 1 fun x => f { x with checks := l }
/-- The two safety channels of a part whose dies are joined; a telegram in the inbox of channel B. -/
def joined (t : Nat) : State := (((sf .run t).fld 0 (linkFld .row) 1).fld 1 (linkFld .row) 1).ben 0 16 |>.ben 1 16
def State.inbox (s : State) (b : List Byte) : State := s.onSaf 1 fun x => { x with inbox := [(5, b)] }
def wrongTlg : List Byte := (telegram 0xC020 1 20 [1, 2, 3, 4]).dropLast ++ [0]
/-- A head whose die 1 holds a key and a command to write die 1's THM_SHUT; and one that has accepted its counter before. -/
def commanded : State := (hdu .run 9).auth 1 [1, 2] 0x110C028 0x12345678 0x300000001
def commandedAgain : State := (((hdu .run 9).fld 1 Fd.CTR_LO.W 1).fld 1 Fd.CTR_HI.W 3).auth 1 [1, 2] 0x110C028 0x12345678 0x300000001
/-- An engine is under self-test since a tick. -/
def testing (t first : Nat) : State := ((((hd .run t).tests 1 fun x => { x with eng := some (5, 7), engFirst := first }).onInst 1 5 7 fun x => { x with test := true }).ben 1 5)
def State.words9 (s : State) (d : Nat) : List (BitVec 16) := (s.streamWords d).1

/-- Does an outcome go on? -/
def isNext {α φ ρ : Type} (o : Host.Outcome α φ ρ) : Bool := match o with
  | .next _ => true
  | _ => false
theorem runs_on {c : Instr} {s : State} (h : isNext (exec c s) = true) : exec c s = .next (after c s) := by
  unfold after; cases hx : exec c s <;> simp_all [isNext]
/-- The state after a step. -/
def stepped (s : State) : State := match step s with
  | .next t => t
  | _ => s
theorem step_on {s : State} (h : isNext (step s) = true) : step s = .next (stepped s) := by
  unfold stepped; cases hx : step s <;> simp_all [isNext]
theorem mgmt_on {b : List Byte} {u : State} (h : isNext (mgmtRun (mgmtEntries b) [] u) = true) :
    mgmtRun (mgmtEntries b) [] u = .next ((ranMgmt b u).1, (ranMgmt b u).2) := by
  unfold ranMgmt; cases hx : mgmtRun (mgmtEntries b) [] u <;> simp_all [isNext]
/-- The state an authenticated write leaves. -/
def written (a : Nat) (v : Word) (s : State) : State := match (agentWrite true (BitVec.ofNat 32 a) v s).2 with
  | .next t => t
  | _ => s
theorem agent_on {a : Nat} {v : Word} {s : State} (h : isNext (agentWrite true (BitVec.ofNat 32 a) v s).2 = true) :
    agentWrite true (BitVec.ofNat 32 a) v s = ((agentWrite true (BitVec.ofNat 32 a) v s).1, .next (written a v s)) := by
  unfold written
  cases hx : agentWrite true (BitVec.ofNat 32 a) v s with
  | mk k r => cases r <;> simp_all [isNext]
theorem beBytes_length (k n : Nat) : (beBytes k n).length = k := by
  induction k generalizing n with
  | zero => rfl
  | succ k ih => simp [beBytes, ih]
theorem tagOf_length (key msg : List Byte) : (tagOf key msg).length = 16 := by
  unfold tagOf hmac; rw [List.length_take, beBytes_length]; rfl
theorem cmdCheck_tag {s : State} {d ctr : Nat} {msg k : List Byte} (hk : (s.sec d).key = some k)
    (he : ctr / 2 ^ 32 = s.rd d Fd.EPOCH.W) : s.cmdCheck d ctr msg (tagOf k msg) = if ctr ≤ s.lastCounter d then 3 else 1 := by
  unfold State.cmdCheck
  simp only [hk]
  rw [he]; simp
/-- A management frame made under the key passes the check, but for its counter. -/
theorem mgmt_check {s : State} {k : List Byte} {es : List (Nat × Nat × Nat)} {ctr : Nat} (hk : (s.sec 0).key = some k)
    (he : ctr / 2 ^ 32 = s.rd 0 Fd.EPOCH.W) (hl : mgmtEnd (mgmt k es ctr) + 8 = (mgmtBody es ctr).length) :
    s.cmdCheck 0 ctr ((mgmt k es ctr).take (mgmtEnd (mgmt k es ctr) + 8)) (slice (mgmt k es ctr) (mgmtEnd (mgmt k es ctr) + 8) 16) =
      if ctr ≤ s.lastCounter 0 then 3 else 1 := by
  rw [hl]
  have h1 : (mgmt k es ctr).take (mgmtBody es ctr).length = mgmtBody es ctr := List.take_left' rfl
  have h2 : slice (mgmt k es ctr) (mgmtBody es ctr).length 16 = tagOf k (mgmtBody es ctr) := by
    unfold slice mgmt
    rw [List.drop_left' rfl, List.take_of_length_le (by rw [tagOf_length])]
  rw [h1, h2, cmdCheck_tag hk he]
/-- Four bytes written as a word read back. -/
theorem bytes_word (a b c e : Byte) : beBytes 4 (bitsOf (BitVec.ofNat 32 (beNat [a, b, c, e])).toNat 31 0) = [a, b, c, e] := by
  have ha := a.isLt; have hb := b.isLt; have hc := c.isLt; have he := e.isLt
  have hn : bitsOf (BitVec.ofNat 32 (beNat [a, b, c, e])).toNat 31 0 = ((a.toNat * 256 + b.toNat) * 256 + c.toNat) * 256 + e.toNat := by
    simp only [bitsOf, beNat, List.foldl, BitVec.toNat_ofNat]; omega
  rw [hn]
  simp only [beBytes, List.nil_append, List.cons_append, List.cons.injEq, and_true]
  refine ⟨?_, ?_, ?_, ?_⟩ <;> (apply BitVec.eq_of_toNat_eq; simp only [BitVec.toNat_ofNat]; omega)
/-- Sixteen bytes written as four words read back. -/
theorem tag_words (l : List Byte) (h : l.length = 16) :
    ([0, 1, 2, 3].flatMap fun t => beBytes 4 (bitsOf (BitVec.ofNat 32 (beNat (slice l (4 * t) 4))).toNat 31 0)) = l := by
  match l, h with
  | [a0, a1, a2, a3, a4, a5, a6, a7, a8, a9, a10, a11, a12, a13, a14, a15], _ =>
    simp only [List.flatMap_cons, List.flatMap_nil, List.append_nil]
    exact congrArg₂ (· ++ ·) (bytes_word ..) (congrArg₂ (· ++ ·) (bytes_word ..) (congrArg₂ (· ++ ·) (bytes_word ..) (bytes_word ..)))
theorem withTag_cell {s : State} {d : Nat} (l : List Byte) (hd : d < s.dies.length) (k : Nat) :
    (s.withTag d l).cell d k = if k = 0xE050 then BitVec.ofNat 32 (beNat (slice l 0 4)) else if k = 0xE054 then BitVec.ofNat 32 (beNat (slice l 4 4))
      else if k = 0xE058 then BitVec.ofNat 32 (beNat (slice l 8 4)) else if k = 0xE05C then BitVec.ofNat 32 (beNat (slice l 12 4)) else s.cell d k := by
  have h : (s.withTag d l).cell d k = (Cells.find k ((0xE050, BitVec.ofNat 32 (beNat (slice l 0 4))) :: (0xE054, BitVec.ofNat 32 (beNat (slice l 4 4))) ::
      (0xE058, BitVec.ofNat 32 (beNat (slice l 8 4))) :: (0xE05C, BitVec.ofNat 32 (beNat (slice l 12 4))) :: (s.die d).cells)).getD (s.dflt d k) := by
    unfold State.withTag State.cell; simp only; rw [State.die_onDie_same (h := hd)]; rfl
  rw [h]
  simp only [Cells.find, eq_comm (a := k)]
  split
  · rfl
  split
  · rfl
  split
  · rfl
  split <;> rfl
theorem withTag_tag {s : State} {d : Nat} {l : List Byte} (hl : l.length = 16) (hd : d < s.dies.length) : (s.withTag d l).authTag d = l := by
  unfold State.authTag State.rd
  refine Eq.trans ?_ (tag_words l hl)
  simp [withTag_cell l hd, Fld.key]
theorem withTag_msg {s : State} {d : Nat} {l : List Byte} (hd : d < s.dies.length) : (s.withTag d l).authMsg d = s.authMsg d := by
  unfold State.authMsg State.authCtr State.rd
  simp [withTag_cell l hd, Fld.key]
theorem auth_tag {s : State} {d addr data ctr : Nat} {key : List Byte} (hd : d < (s.bare d key addr data ctr).dies.length) :
    (s.auth d key addr data ctr).authTag d = tagOf key ((s.auth d key addr data ctr).authMsg d) := by
  unfold State.auth
  rw [withTag_msg hd, withTag_tag (tagOf_length ..) hd]
/-- Is a place in a page other than the recorder's? -/
def onPage (x : Spot) : Bool := match x with
  | .page _ p _ => p != 15
  | _ => false
theorem page_of {x : Spot} (h : onPage x = true) : ∃ die page off, x = .page die page off ∧ page ≠ 15 := by
  cases x <;> simp_all [onPage]
/-- Only ports 0 and 1 run PTP. -/
theorem ptp_due {s : State} (h0 : s.announceDue 0 = false) (h1 : s.announceDue 1 = false) : ∀ p, s.ptpOn p = true → s.announceDue p = false := by
  intro p h
  simp only [State.ptpOn, State.portUp, State.netOn, Bool.and_eq_true, decide_eq_true_eq] at h
  match p, h.1.1.1.2 with
  | 0, _ => exact h0
  | 1, _ => exact h1
/-- The stores and ends of runs due are all die 1's. -/
theorem lone {s : State} (h1 : s.on 1 5 = true) (h0 : s.storesDue 0 = [] ∧ s.endsDue 0 = [])
    (h : ∀ k, s.storesDue (k + 2) = [] ∧ s.endsDue (k + 2) = []) : s.DueOnly 1 :=
  ⟨h1, fun k hk => match k, hk with
    | 0, _ => h0
    | 1, hk => absurd rfl hk
    | k + 2, _ => h k⟩
/-- The entries of a frame of two reads find their places. -/
theorem keyed_entries : ∀ e ∈ mgmtEntries readsFrame, e.op = 0 ∧
    (taken askedReads).access ((taken askedReads).spot e.addr.toNat) = .done ∧ (taken askedReads).openSpot ((taken askedReads).spot e.addr.toNat) = false ∧
    onPage ((taken askedReads).spot e.addr.toNat) = true := by decide +kernel

/-! The spec's worked examples: each on a small state, at most one step. -/

/-- 09 R243: the CRC-32C of the nine ASCII bytes "123456789". -/
theorem test_crc32c_check_value : crc32c [0x31, 0x32, 0x33, 0x34, 0x35, 0x36, 0x37, 0x38, 0x39] = 0xE3069283 := by decide +kernel

/-- The example after 02 R41: the LE page of die 2 and waystation 7's context page on die 1. -/
theorem test_page_addresses : State.reset.spot 0x01205000 = .page 2 5 0 ∧ State.reset.spot 0x01126000 = .page 1 0x26 0 := by decide +kernel

/-- The example of 03 R87: an edge 2^18 units of FRAC ahead at INC 17,592,186 is stamped 976 ticks and 5 eighths later. -/
theorem test_stamp_example : ((hd .run 1000).domAt 0 1 0 (1000 * 2 ^ 48) 17592186).stamp 0 0 (1000 * 2 ^ 32 + 2 ^ 18) = 8 * 1000 + 976 * 8 + 5 := by
  decide +kernel

/-- The example of 10 R281: waystation 7's manifest of one edge to P 128,000 fine units ahead. -/
theorem test_manifest_example : manBytes 7 0 [(false, 1, 128000)] = [0x30, 0x10, 0x21, 0xF4, 0x00] := by decide +kernel

/-- Entry 4 of AD0 as in the boundary cases of 03: position (5000, 0x4000_0000), the entry loaded and armed at the start of the tick. -/
def boundary (long : Bool) (cyc frac tol : Nat) : State :=
  (((hd .run 9).ben 0 2).domAt 0 1 0 ((5000 * 2 ^ 32 + 0x40000000) * 2 ^ 16) (268 * 2 ^ 16)).msApply 0 4
    (.load [BitVec.ofNat 32 ((if long then 2 ^ 29 else 0) + 2 * 2 ^ 16), 0, BitVec.ofNat 32 frac, BitVec.ofNat 32 cyc, 0, BitVec.ofNat 32 tol, 0])
/-- Cases 1 and 2: a short form at or behind the present FRAC takes the next cycle. -/
theorem test_milestone_short_forms :
    (boundary false 0 0x40000000 0).compare 0 4 = 5001 * 2 ^ 32 + 0x40000000 ∧
    (boundary false 0 0x40000001 0).compare 0 4 = 5000 * 2 ^ 32 + 0x40000001 := by decide +kernel
/-- Cases 3 to 6: a late compare is dropped unless its lateness is below TOL. -/
theorem test_milestone_late :
    (boundary true 5000 0x40000000 0).armedList 0 = [] ∧ (boundary true 5000 0x40000000 1).reached 0 4 = true ∧
    (boundary true 5000 0x3FFFFFF0 16).armedList 0 = [] ∧ (boundary true 5000 0x3FFFFFF0 300).reached 0 4 = true := by decide +kernel

/-- 07 R186: with k = 3 an input of -1 interpolates between y0 and y1, here at y0; and a quarter segment on, a quarter of the way. -/
def tabbed (x : BitVec 16) : State := ((((nd .run 9).runs 0 2 0 (iw 0x15 1 3 1 0) fun y => { y with w := List.replicate 16 x }).word 0 (coefKey 200) 3#32).word 0
  (coefKey 201) 1000#32).word 0 (coefKey 202) 2000#32
theorem test_tab_first_segment :
    ((after (.tab 0 2 0) (tabbed 0x8000)).inst 0 2 0).acc.getD 1 0 = 1000 * 65536 ∧
    ((after (.tab 0 2 0) (tabbed 0x8800)).inst 0 2 0).acc.getD 1 0 = 1250 * 65536 := by decide +kernel

/-- The example of 14: offset -11.75 ns with KP 32 and KI 4 leaves the integrator at -47 ns and asks for a trim of 423. -/
def served : State := (((hd .run 9).fld 0 Fd.SERVO.KP 32).fld 0 Fd.SERVO.KI 4).servo 1 (-(47 * 2 ^ 46))
theorem test_servo_example : (served.wallOf 1).integ = -(47 * 2 ^ 48) ∧ served.mirrors.map (·.upd) = [DomUpd.tdTrim 423] := by decide +kernel

/-- The example of 12 R338 with TRIP_N 4 and TRIP_WIN 100 ms: trips at 0, 40 and 99.9 ms before one lock the leg, and the first at 100 ms does not count. -/
theorem test_trip_window :
    (((hd .run 80000000).fld 0 Fd.BG_LOCKCFG.TRIP_N 3).fld 0 Fd.BG_LOCKCFG.TRIP_WIN 100).lockRule [80000000, 32000000, 0] = false ∧
    (((hd .run 79920000).fld 0 Fd.BG_LOCKCFG.TRIP_N 3).fld 0 Fd.BG_LOCKCFG.TRIP_WIN 100).lockRule [79920000, 32000000, 0] = true := by decide +kernel

/-- Step 4 of the example of 17: a reading of -40 degrees beside 104.0 and 108.0 (in 1/8 degree) makes the sensor suspect and the reading 118.0. -/
def sampledDie2 : State := after (.tempSample 2 [832, 800, -320, 864]) (((bench .kld4h .run 80000).fld 0 (linkFld .plus) 1).fld 0 (linkFld .minus) 1)
theorem test_thermal_example : sampledDie2.flag 2 Fd.THM_STATUS.SUSPECT = true ∧ sampledDie2.rd 2 Fd.THM_STATUS.EFF = 944 := by decide +kernel

/-- The example of 08 R224: six cells, keys in volts, dwell 2 us and threshold 10 V in ticks from the window's start; the edges each cell gets. -/
def nlsCells : List CellRun :=
  [(0, 3, 1096), (1, 3, 1104), (2, 1, 1090), (3, 3, 1100), (4, 3, 1112), (5, 1, 1098)].map fun c => ⟨c.1, c.2.1, some (-100000), 0, c.2.2, false, [], false⟩
theorem test_nls_example : (levelPlan nlsCells 2 [(32000, 3), (56000, 4), (56800, 3)] 0 80000 1600 10 false).map (fun c => c.edges.map fun e => (e.angle, e.st)) =
    [[(32000, 1)], [], [], [(56000, 1)], [], [(56800, 3)]] := by decide +kernel

/-- The example of 18: a cell of word 346 of macro 33 fails in M1; FAIL_LOC, and the repair by spare row 0. -/
def sliced : State := (((hdu .run 6000).tests 1).fld 1 Fd.BIST_CTRL.REP_MODE 1).recordFails 1 33 [⟨346, 9, false, 1, 5192⟩]
theorem test_slice_example : sliced.cell 1 0xD02C = BitVec.ofNat 32 (33 * 2 ^ 24 + 346 * 2 ^ 14 + 9 * 2 ^ 8 + 1 * 2 ^ 4) ∧
    sliced.cell 1 0xD030 = 5192 ∧
    (sliced.repairOf 1 33 [(346, 9)]).map (fun u => (u.rd 1 Fd.MACRO_STAT.ROWS_USED 33, u.rd 1 Fd.MACRO_STAT.ROW0 33)) = some (1, 346) := by decide +kernel

/-- The example of 19 R504: the message of a write of THM_XCHK of die 2. -/
theorem test_auth_message : ((hdu .run 9).bare 0 [1] 0x0120C02C 0x800A528F 0x3C9107E500000001).authMsg 0 =
    [0x01, 0x20, 0xC0, 0x2C, 0x80, 0x0A, 0x52, 0x8F, 0x3C, 0x91, 0x07, 0xE5, 0, 0, 0, 1] := by decide +kernel

/-- The example of 15 R404 with DISC_N 400: disagreement from tick 800,000 on passes at 19.95 ms and is a fault at 20.00 ms. -/
def disagreed (t : Nat) : State := (((sf .run t).fld 0 Fd.FN_TIME.DISC_N 400 3).fld 0 Fd.FN_CFG.IN1 1 3).onSaf 0 fun x => { x with
  disc := setAt x.disc 3 fun _ => some (800000, false), hist := [(800000, 1)] }
theorem test_discrepancy_time :
    ((after (.discrepancy 0 3 false) (disagreed (800000 + 399 * 40000))).stuckAt 0 10 Sk.SAF.DISCREPANCY.bit = false) ∧
    ((after (.discrepancy 0 3 false) (disagreed (800000 + 400 * 40000))).stuckAt 0 10 Sk.SAF.DISCREPANCY.bit = true) := by decide +kernel

/-- The example of 01 R13: with STILL 1 ms and the last transition at tick 1,000, standstill comes in tick 801,000 and not before. -/
def turning (t : Nat) : State := (((hd .run t).track 0 1 2 fun x => { x with started := true, tLast := 1000 }).fld 0 Fd.TRK_TIME.STILL 1 1).fld 0 Fd.TRK_STAT.STANDSTILL 0 1 |>.took 0 1
theorem test_standstill_window : (turning 800999).stillDue 0 1 = false ∧ (turning 801000).stillDue 0 1 = true := by decide +kernel

/-- An empty queue is a tick; a command at the front is taken and the rest stays (log entry 6). -/
theorem test_step_takes_the_front : (stepped { hd .run 5 with pending := [.trig 3, .silent] }).pending = [.silent] ∧
    (stepped (hd .run 5)).td0 = 6 := by decide +kernel

/-- No word spells a command: the table gives no bits. -/
theorem test_no_word_spells_a_command : decodeTableWord 32 0x12345678 = none := rfl

/-- A block with 63 payload bytes. -/
def shortBlock : RingBlock := { rb 1 2 0 3 4 [] with payload := List.replicate 63 0 }
/-- Each kind of check refuses an ill-formed term, on a part of four dies: die, page, fabric port and source, table entries, domains, channels,
engine, engine copy, slot, ring slot, ring link, waystation, traffic class, context field, payload length, bridge, leg, station port, wall domain,
safety channel, inputs and read-backs, function, output, consumer, test output, dies sampled, macro, issues, partition, window. -/
theorem test_ill_formed_refused :
    ([.tpllLocked 4, .stickyClear 0 0x15 0, .softReset 4 0 0, .pageLock 0 0x40, .blockEn 4 5 true, .fabricSubmission 0 16 0 1 0,
      .fabricSubmission 0 0 4096 1 0, .fabricSubmission 0 0 0 4 0, .fabricSubmission 0 0 0 1 3, .resEntryWrite 0 32 0, .load 0 1024, .snapSel 0 16, .domainChange 0 8 .cfg 0, .mirrorRecord 11, .slewEnd 0 8,
      .trackerSample 0 4, .sdcCfgWrite 0 4 0, .channelSettled 0 16 0 [], .instanceGrant 0 6, .slotCascWrite 0 64 0, .nop 0 6 0, .nop 0 0 8,
      .manifestTransfer 0 4, .ringBreak 0 .a 0, .ringBreakClear 0 .a 34, .resendTimeout 0 0 1, .resendTimeout 0 33 1, .resendTimeout 0 1 0,
      .contextFieldWrite 0 1 0x3C0 0, .blockForward .a shortBlock, .alert 0 shortBlock, .rresWrite 0 16 0, .edgeExecute 3, .deadTimeEnd 6,
      .netLinkChange 2 true true 1000 true, .tdStep 0 0, .tdStep 4 0, .inputAccept 2 false 0 [], .inputAccept 0 false 16 [], .inputAccept 0 true 8 [],
      .resetLong 0 16, .testPulse 4, .readback 0 8 true, .watchdogExpiry 0 32, .tempSample 0 [0, 0, 0], .fuseBurn 0 256, .engineTestEnd 0 1537 0,
      .partWrite 0 3 0, .windowRead 0 16 true true] : List Instr).all (fun c => !c.wf 4) = true := by decide +kernel
/-- Their neighbours at the ends of the ranges are well-formed. -/
theorem test_well_formed_accepted :
    ([.tpllLocked 3, .stickyClear 0 0x10 0, .fabricSubmission 0 15 4095 3 2, .load 3 1023, .snapSel 0 15, .mirrorRecord 10, .nop 0 5 7, .ringBreak 0 .a 33,
      .resendTimeout 0 32 2, .contextFieldWrite 0 32 0x3BF 0, .blockForward .a (rb 1 2 0 3 4 []), .deadTimeEnd 5, .netLinkChange 1 true true 1000 true, .tdStep 3 0,
      .inputAccept 1 true 7 [], .tempSample 0 [0, 0, 0, 0], .engineTestEnd 0 1536 0, .windowRead 0 15 true true] : List Instr).all (·.wf 4) = true := by
  decide +kernel

/-! ### Every statement's hypotheses are met

For each obligation one theorem: for each of its clauses that has hypotheses, values that meet all of them. -/

theorem test_hypotheses_of_step_runs_the_command_in_front :
    ∃ (s : State), s.pending = [] :=
  ⟨hd .run, by decide +kernel⟩

theorem test_hypotheses_of_commands_leave_queue_and_part :
    (∃ (c : Instr) (s : State), s.sane = true) ∧
    (∃ (c : Instr) (s : State), s.sane = false) ∧
    (∃ (c : Instr) (s t : State), exec c s = .next t) :=
  ⟨⟨.trig 3, hd .run, by decide +kernel⟩,
   ⟨.trig 3, { hd .run with misused := [(176, 0, 5)] }, by decide +kernel⟩,
   ⟨.trig 3, hd .run 5, after (.trig 3) (hd .run 5), runs_on (by decide +kernel)⟩⟩

theorem test_hypotheses_of_step_keeps_sound :
    ∃ (s t : State), s.Sound ∧ step s = .next t :=
  ⟨{ hd .run with pending := [.trig 3] }, _, by unfold State.Sound State.CanonicalDie; decide +kernel, step_on (by decide +kernel)⟩

theorem test_hypotheses_of_step_keeps_sizes :
    ∃ (s t : State), s.sized = true ∧ step s = .next t :=
  ⟨{ hd .run with pending := [.trig 3] }, _, by decide +kernel, step_on (by decide +kernel)⟩

theorem test_hypotheses_of_step_keeps_pins_legal :
    ∃ (s t : State), s.PinsLegal ∧ step s = .next t :=
  ⟨{ hd .run with pending := [.trig 3] }, _, by unfold State.PinsLegal; decide +kernel, step_on (by decide +kernel)⟩

theorem test_hypotheses_of_head_moves_along_the_transition_table :
    (∃ (s t : State), s.isHead = true ∧ s.ArmLegal ∧ step s = .next t ∧ s.pending ≠ []) ∧
    (∃ (s t : State), s.isHead = true ∧ s.ArmLegal ∧ step s = .next t) :=
  ⟨⟨{ hd .standstill 9 with arming := some (.startup, 40), pending := [.stateCmdTest] }, _, by decide +kernel,
    by intro _ _ h; cases h; decide, step_on (by decide +kernel), by decide⟩,
   ⟨hd .run, tick (hd .run), by decide +kernel, (by intro _ _ h; cases h), rfl⟩⟩

theorem test_hypotheses_of_supplies_and_reset_n :
    (∃ (s : State) (mv : List Nat), s.device = .off ∧ powerGood s.isHead mv = true) ∧
    (∃ (s : State) (mv : List Nat), s.device ≠ .off ∧ powerLost s.isHead mv = true) ∧
    (∃ (s : State) (c : Instr), ((∃ ns, 10000 ≤ ns ∧ c = .resetNLow ns ∧ s.device ≠ .off) ∨ (∃ cycles, 20000 ≤ cycles ∧ c = .nodeSelfReset
     cycles ∧ s.isHead = false ∧ (s.die 0).gated = true))) ∧
    (∃ (s : State) (ns : Nat), s.device ≠ .off ∧ ns < 10000) :=
  ⟨⟨{ (hd .off).stk 0 4 3 with device := .off, misused := [(2, 0, 255)] }, [721, 811, 1551, 2901, 981, 521], by decide +kernel⟩,
   ⟨(hd .run).stk 0 4 3, [800, 900, 1530, 3300, 1000, 600], by decide +kernel⟩,
   ⟨(hd .run).stk 0 4 3, .resetNLow 10000, .inl ⟨10000, Nat.le_refl _, rfl, by decide +kernel⟩⟩,
   ⟨(hd .lockout).stk 0 4 3, 9999, by decide +kernel⟩⟩

theorem test_hypotheses_of_reset_hold_to_config :
    (∃ (s : State) (mv : List Nat) (role : BitVec 2) (refsel boot0 : Bool), s.shaped = true ∧ s.device ≠ .off ∧ powerGood s.isHead mv =
     true) ∧
    (∃ (s : State) (d : Nat) (second : Bool), s.shaped = true ∧ s.sane = true ∧ s.guardClock d = true ∧ (s.die d).gated = false ∧ s.device
     ≠ .off ∧ ((d = 0 → s.device = .reset)) ∧ (s.die d).clk.started = false ∧ s.startRef d = some second) ∧
    (∃ (s : State) (d : Nat) (links : BitVec 3), s.shaped = true ∧ s.sane = true ∧ s.alive d = true ∧ (s.die d).clk.started = true ∧
     (s.die d).booted = false ∧ s.roleMismatch = false) ∧
    (∃ (s : State), s.shaped = true ∧ s.sane = true ∧ s.alive 0 = true ∧ s.device = .boot ∧ s.flag 0 Fd.DIE_STATUS.BOOT_HOLD = true) :=
  ⟨⟨State.resetOf .kld2h, [721, 811, 1551, 2901, 981, 521], 3, true, false, by decide +kernel⟩,
   ⟨(hd .reset).fld 0 (refOk false) 1, 0, false, by decide +kernel⟩,
   ⟨((hdu .boot 8000).onDie 1 fun x => { x with clk := { x.clk with started := true }, booted := false }), 1, 7, by decide +kernel⟩,
   ⟨(hd .boot).fld 0 Fd.DIE_STATUS.BOOT_HOLD 1, by decide +kernel⟩⟩

theorem test_hypotheses_of_state_commands :
    (∃ (s : State) (e : Instr × DevState × List DevState), s.sane = true ∧ s.alive 0 = true ∧ e ∈ moveCommands) ∧
    (∃ (s : State) (target : BitVec 4), s.sane = true ∧ s.alive 0 = true) ∧
    (∃ (s : State), s.counts = true) ∧
    (∃ (e : Instr × DevState × List DevState) (s : State), e ∈ moveCommands ∧ s.shaped = true ∧ s.alive 0 = true ∧ s.followsHead = false ∧
     s.arming = none ∧ s.movedAt ≠ some s.td0 ∧ s.recordDue = false ∧ s.cmds = [e.2.1.code] ∧ s.device ∈ e.2.2 ∧ ((s.device = .config → ∀
     d, d < s.part.dies → s.loadsOk d = true))) ∧
    (∃ (s : State) (new : DevState) (t0 : Nat), s.shaped = true ∧ s.sane = true ∧ s.isHead = true ∧ s.alive 0 = true ∧ s.arming = some
     (new, t0) ∧ t0 + 8 ≤ s.td0 ∧ s.recordDue = false) ∧
    (∃ (s : State) (new : DevState) (t0 : Nat), s.shaped = true ∧ s.sane = true ∧ s.isHead = true ∧ s.alive 0 = true ∧ s.arming = some
     (new, t0) ∧ s.td0 < t0 + 8) ∧
    (∃ (s : State) (target : Nat), s.shaped = true ∧ s.alive 0 = true ∧ s.recordDue = false ∧ s.cmds = [target] ∧ ((s.movedAt = some s.td0
     → s.device ≠ .lockout)) ∧ (s.followsHead = true ∨ s.arming ≠ none ∨ s.movedAt = some s.td0 ∨ (∀ e ∈ moveCommands, e.2.1.code = target
     → s.device ∉ e.2.2) ∨ (s.device = .config ∧ ∃ d, d < s.part.dies ∧ s.loadsOk d = false))) ∧
    (∃ (s : State) (target : Nat), s.alive 0 = true ∧ s.cmds = [target] ∧ (s.recordDue = true ∨ (s.followsHead = false ∧ s.arming = none ∧
     s.movedAt = some s.td0 ∧ s.device = .lockout))) :=
  ⟨⟨hd .run 9, (.stateCmdRun, .run, [.startup, .recovery]), by decide +kernel⟩,
   ⟨hd .run 9, 7, by decide +kernel⟩,
   ⟨hd .run 9, by decide +kernel⟩,
   ⟨(.stateCmdStandstill, .standstill, [.config, .startup, .run, .recovery, .test]), { hd .config 9 with cmds := [8] },
    by decide +kernel⟩,
   ⟨{ hd .standstill 9 with arming := some (.test, 1) }, .test, 1, by decide +kernel⟩,
   ⟨{ hd .standstill 8 with arming := some (.test, 1) }, .test, 1, by decide +kernel⟩,
   ⟨{ hd .test 9 with cmds := [5] }, 5, by decide +kernel⟩,
   ⟨{ hd .lockout 9 with movedAt := some 9, cmds := [5] }, 5, by decide +kernel⟩⟩

theorem test_hypotheses_of_unmapped_addresses :
    (∃ (s : State) (addr data : Word), s.sane = true ∧ s.device.live = true ∧ (s.die 0).hold = false ∧ addr.toNat % 4 = 0 ∧ s.spot
     addr.toNat = .nothing) ∧
    (∃ (s : State) (addr data : Word), s.sane = true ∧ s.device.live = true ∧ (s.die 0).hold = false ∧ addr.toNat % 4 = 0 ∧ s.spot
     addr.toNat = .nothing) ∧
    (∃ (s : State) (addr data : Word), s.sane = true ∧ s.device.live = true ∧ (s.die 0).hold = false ∧ addr.toNat % 4 = 0 ∧ s.spot
     addr.toNat = .nothing) ∧
    (∃ (s : State) (a : Nat), 0x1000000 + 0x100000 * s.part.dies ≤ a) ∧
    (∃ (s : State) (a : Nat), s.part.dies = 1 ∧ s.spot a ≠ .nothing) :=
  ⟨⟨hdu .run, 0x1000000#32 + 0x200000#32, 5, by decide +kernel⟩,
   ⟨hdu .run, 0x1000000#32 + 0x200000#32, 5, by decide +kernel⟩,
   ⟨hdu .run, 0x1200000#32, 5, by decide +kernel⟩,
   ⟨hdu .run, 0x1200000, by decide +kernel⟩,
   ⟨ndu .run, 0xFFC, by decide +kernel⟩⟩

theorem test_hypotheses_of_read_frames :
    (∃ (s : State) (addr : Word), s.sane = true ∧ s.device.live = true ∧ (s.die 0).hold = false ∧ addr.toNat % 4 = 0 ∧ s.access (s.spot
     addr.toNat) = .done ∧ s.openSpot (s.spot addr.toNat) = false ∧ s.spot addr.toNat ≠ .nothing ∧ ((∀ d off, s.spot addr.toNat = .page d
     15 off → s.isHead = false ∨ off < 0x400 ∨ 0x440 ≤ off))) ∧
    (∃ (s : State) (addr : Word), s.sane = true ∧ s.device.live = true ∧ (s.die 0).hold = false ∧ addr.toNat % 4 = 0 ∧ (s.access (s.spot
     addr.toNat) = .late ∨ s.access (s.spot addr.toNat) = .lost)) ∧
    (∃ (s : State) (addr data : Word) (c : Instr), s.sane = true ∧ s.device.live = true ∧ (s.die 0).hold = false ∧ ((addr.toNat % 4 ≠ 0 ∧
     (c = .readWord addr ∨ c = .writeWord addr data ∨ ∃ cmd, c = .frameAbort cmd addr data .afterTurnaround)) ∨ (∃ cmd ph, c = .frameAbort
     cmd addr data ph ∧ cmd ≠ 0x0B ∧ cmd ≠ 0x02))) ∧
    (∃ (s : State) (addr data : Word) (cmd : Byte), s.sane = true ∧ s.device.live = true ∧ (s.die 0).hold = false ∧ (cmd = 0x0B ∨ cmd =
     0x02)) ∧
    (∃ (s : State) (addr data : Word), s.sane = true ∧ s.device.live = true ∧ (s.die 0).hold = false) ∧
    (∃ (s : State) (addr data : Word), s.sane = true ∧ s.device.live = true ∧ (s.die 0).hold = false ∧ addr.toNat % 4 = 0) :=
  ⟨⟨hdu .run, 0x0#32, by decide +kernel, by decide +kernel, by decide +kernel, by decide +kernel, by decide +kernel, by decide +kernel,
    by decide +kernel,
    by intro d off h; revert h; simp only [show (hdu .run).spot (0x0#32).toNat = .summary 0 by decide +kernel]; exact nofun⟩,
   ⟨(hdu .run).onDie 1 (fun x => { x with hold := true }), ad 1 0x2000, by decide +kernel⟩,
   ⟨hdu .run, 0x2#32, 5, .readWord 2, by decide +kernel, by decide +kernel, by decide +kernel, .inl ⟨by decide, .inl rfl⟩⟩,
   ⟨hdu .run, 0x4#32, 5, 0x0B, by decide +kernel⟩,
   ⟨hdu .run, 0x4#32, 5, by decide +kernel⟩,
   ⟨hdu .run, ad 1 0x2000, 7, by decide +kernel⟩⟩

theorem test_hypotheses_of_write_frames :
    (∃ (s : State) (addr data : Word) (d : Nat), s.sane = true ∧ s.device.live = true ∧ (s.die 0).hold = false ∧ addr.toNat % 4 = 0 ∧
     (s.spot addr.toNat).die = some d ∧ s.alive d = true ∧ s.access (s.spot addr.toNat) = .done) ∧
    (∃ (s : State) (addr data : Word) (c : Instr), s.sane = true ∧ s.device.live = true ∧ (s.die 0).hold = false ∧ addr.toNat % 4 = 0 ∧
     s.access (s.spot addr.toNat) = .lost ∧ (c = .writeWord addr data ∨ c = .regTimeout true addr data)) ∧
    (∃ (s : State) (addr data : Word) (d key : Nat), s.shaped = true ∧ s.sane = true ∧ s.alive d = true ∧ s.spot addr.toNat = .data d key) ∧
    (∃ (s : State) (addr data : Word) (d page : Nat), s.shaped = true ∧ s.sane = true ∧ s.alive d = true ∧ s.spot addr.toNat = .page d
     page 0x1C) ∧
    (∃ (s : State) (addr data : Word) (d key : Nat), s.shaped = true ∧ s.sane = true ∧ s.alive d = true ∧ s.spot addr.toNat = .program d
     key) ∧
    (∃ (s : State) (addr data : Word) (d page off : Nat), s.shaped = true ∧ s.sane = true ∧ s.alive d = true ∧ s.spot addr.toNat = .page d
     page off ∧ page ≠ 10 ∧ page ≠ 14 ∧ page < 0x20 ∧ 0x20 ≤ off ∧ guardedReg page off = true) :=
  ⟨⟨hdu .run, ad 1 0x201C, 5, 1, by decide +kernel⟩,
   ⟨(hdu .run).onDie 1 (fun x => { x with hold := true }), ad 1 0x2000, 5, .writeWord (ad 1 0x2000) 5, by decide +kernel⟩,
   ⟨hdu .run, ad 1 0xB0004, 0x12345#32, 1, 0xB0004, by decide +kernel⟩,
   ⟨hdu .run, ad 0 0x1001C, 0x12345#32, 0, 16, by decide +kernel⟩,
   ⟨hdu .run, ad 0 0x80000, 1, 0, 0x80000, by decide +kernel⟩,
   ⟨hdu .run, ad 0 0x9028, 1, 0, 9, 0x28, by decide +kernel⟩⟩

theorem test_hypotheses_of_page_headers :
    (∃ (s : State) (d page : Nat) (mask : Word), s.shaped = true ∧ s.sane = true ∧ s.alive d = true ∧ pageThere page = true) ∧
    (∃ (s : State) (d page : Nat), s.shaped = true ∧ s.sane = true ∧ s.alive d = true ∧ pageThere page = true ∧ s.locked d page = false) ∧
    (∃ (s : State) (d page : Nat) (on : Bool), s.sane = true ∧ s.alive d = true ∧ pageThere page = true ∧ s.locked d page = true) ∧
    (∃ (s : State) (d page : Nat) (on : Bool), s.sane = true ∧ s.alive d = true ∧ pageThere page = true ∧ s.locked d page = true) ∧
    (∃ (s : State) (d page : Nat) (on : Bool), s.shaped = true ∧ s.sane = true ∧ s.alive d = true ∧ pageThere page = true ∧ s.locked d
     page = false ∧ s.blockFixed page = false) ∧
    (∃ (s : State) (d page : Nat) (on : Bool), s.shaped = true ∧ s.sane = true ∧ s.alive d = true ∧ pageThere page = true ∧ s.locked d
     page = false ∧ s.blockFixed page = true) ∧
    (∃ (s : State) (d page : Nat) (value : Word), s.shaped = true ∧ s.sane = true ∧ s.alive d = true ∧ pageThere page = true ∧ bitOf
     value.toNat 1 = true) ∧
    (∃ (s : State) (d page : Nat) (value : Word), s.shaped = true ∧ s.alive d = true ∧ pageThere page = true ∧ bitOf value.toNat 1 = true
     ∧ ((∃ rule, (rule, d, page) ∈ s.misused))) ∧
    (∃ (s : State), s.sane = true ∧ s.device.live = true) :=
  ⟨⟨(hdu .run).stk 0 4 3, 0, 4, 0x8#32, by decide +kernel⟩,
   ⟨(hdu .run).ben 1 16, 1, 16, by decide +kernel⟩,
   ⟨(hdu .run).lck 0 5, 0, 5, true, by decide +kernel⟩,
   ⟨(hdu .run).lck 0 5, 0, 5, true, by decide +kernel⟩,
   ⟨hdu .run, 0, 16, true, by decide +kernel⟩,
   ⟨hdu .run, 0, 1, false, by decide +kernel⟩,
   ⟨(((hdu .run).ben 0 11).word 0 0xB01C 7).stk 0 11 3, 0, 11, 2, by decide +kernel⟩,
   ⟨{ (hdu .run).ben 1 16 with misused := [(65, 1, 16), (176, 0, 5)] }, 1, 16, 2, by decide +kernel, by decide +kernel,
    by decide +kernel, by decide +kernel, ⟨65, by decide +kernel⟩⟩,
   ⟨{ hdu .run with sumPend := 5 }, by decide +kernel⟩⟩

theorem test_hypotheses_of_fabric :
    (∃ (s : State) (d port source dst i : Nat), s.shaped = true ∧ s.sane = true ∧ s.isHead = true ∧ s.alive d = true ∧ s.resOf d port
     source = some i ∧ s.blockEn d 0x10 = true ∧ s.sentNow d i < s.rd d Fd.RES_ENTRY.SHARE i) ∧
    (∃ (s : State) (d port source dst cls : Nat), s.sane = true ∧ s.isHead = true ∧ s.alive d = true ∧ (cls = 1 ∨ cls = 2)) ∧
    (∃ (s : State) (d port source dst : Nat), s.shaped = true ∧ s.sane = true ∧ s.isHead = true ∧ s.alive d = true ∧ ((s.resOf d port
     source = none ∨ ∃ i, s.resOf d port source = some i ∧ (s.blockEn d 0x10 = false ∨ s.rd d Fd.RES_ENTRY.SHARE i ≤ s.sentNow d i)))) ∧
    (∃ (slot15 : Bool) (l : List FabXfer) (x : FabXfer), x ∈ slotClass slot15 l) ∧
    (∃ (g : Gate) (now : Nat) (l : List FabXfer) (x y : FabXfer), (∀ y ∈ l, y.born ≤ now) ∧ g.first now l = some x ∧ y ∈ l) ∧
    (∃ (g : Gate) (now : Nat) (l : List FabXfer) (x : FabXfer), (∀ y ∈ l, y.born ≤ now) ∧ g.first now l = some x) ∧
    (∃ (s : State) (d e : Nat) (l : FabLink) (x : FabXfer), s.shaped = true ∧ d < s.part.dies ∧ (s.die d).fab.gates.length = 4 ∧ x.src <
     ((s.gate d (gateIndex l)).ports).length ∧ s.peer d l = some e ∧ s.blockEn d 0x10 = true ∧ s.blockEn e 0x10 = true ∧ s.flag d (linkFld
     l) = true ∧ (s.gate d (gateIndex l)).first s.td0 (slotClass (s.td0 / 5 % 16 == 15) (s.fabric.filter fun y => y.die == d && decide
     (y.ready ≤ s.td0) && (route d y.dst).head? == some (d, e))) = some x) ∧
    (∃ (s : State) (d : Nat) (x : FabXfer), s.shaped = true ∧ s.sane = true ∧ s.isHead = true ∧ s.on d 0x10 = true ∧ s.arrived d = some x
     ∧ x.cls = 0) ∧
    (∃ (s : State) (d : Nat) (x : FabXfer) (slot w v : Nat), s.shaped = true ∧ s.sane = true ∧ s.isHead = true ∧ s.on d 0x10 = true ∧
     s.arrived d = some x ∧ x.what = .setPoints slot [(w, v)] ∧ slot < (s.die d).le.slot.length ∧ w < 4 ∧ w < (s.slot d slot).sp.length) ∧
    (∃ (s : State) (d : Nat) (x : FabXfer) (a n : Nat), s.shaped = true ∧ s.sane = true ∧ s.isHead = true ∧ s.on d 0x10 = true ∧ s.arrived
     d = some x ∧ x.what = .other ∧ x.cls ≠ 0 ∧ route x.src d = [(a, d)] ∧ a < s.part.dies ∧ 0 < n) ∧
    (∃ (s : State) (d : Nat) (x : FabXfer) (a : Nat) (l : FabLink), s.shaped = true ∧ s.sane = true ∧ s.isHead = true ∧ s.on d 0x10 = true
     ∧ s.arrived d = some x ∧ x.cls ≠ 0 ∧ route x.src d = [(a, d)] ∧ a < s.part.dies ∧ s.linkTo a d = some l) ∧
    (∃ (s : State) (d i : Nat), s.shaped = true ∧ s.sane = true ∧ s.isHead = true ∧ s.on d 0x10 = true ∧ ((∃ m ∈ s.mirrors, m.domain = i ∧
     d ∉ m.lost))) ∧
    (∃ (s : State) (d : Nat) (l : FabLink) (e : Nat), s.shaped = true ∧ s.sane = true ∧ s.isHead = true ∧ s.alive d = true ∧ s.peer d l =
     some e ∧ e < s.part.dies) ∧
    (∃ (s : State) (d i : Nat) (value : Word), s.shaped = true ∧ s.sane = true ∧ s.alive d = true ∧ i < 32 ∧ s.locked d 0x10 = false ∧
     s.device ≠ .config) ∧
    (∃ (s : State) (d i : Nat) (value : Word), s.shaped = true ∧ s.sane = true ∧ s.alive d = true ∧ i < 32 ∧ s.locked d 0x10 = false ∧
     s.device = .config ∧ (bitOf value.toNat 31 = false ∨ (bitsOf value.toNat 17 16 ∈ [1, 2] ∧ sharesFit (s.reservations (d, i, value &&&
     0x8703FFFF#32)) d (bitsOf value.toNat 26 24) = true))) ∧
    (∃ (s : State) (d i : Nat) (value : Word), s.shaped = true ∧ s.sane = true ∧ s.alive d = true ∧ i < 32 ∧ s.locked d 0x10 = false ∧
     s.device = .config ∧ bitOf value.toNat 31 = true ∧ (bitsOf value.toNat 17 16 ∈ [0, 3] ∨ sharesFit (s.reservations (d, i, value &&&
     0x8703FFFF#32)) d (bitsOf value.toNat 26 24) = false)) :=
  ⟨⟨(((hdu .run).ben 0 16).word 0 (Fd.RES_ENTRY.W.key 3) 0x80012004#32), 0, 2, 4, 0, 3, by decide +kernel⟩,
   ⟨(((hdu .run).ben 0 16).word 0 (Fd.RES_ENTRY.W.key 3) 0x80012004#32), 0, 2, 4, 1, 2, by decide +kernel⟩,
   ⟨hdu .run, 0, 2, 4, 1, by decide +kernel⟩,
   ⟨true, [xfer 1 0 3, xfer 2 5 3], xfer 2 5 3, by decide +kernel⟩,
   ⟨Gate.zero, 9, [xfer 1 5 3, xfer 1 0 3], xfer 1 0 3, xfer 1 5 3, by decide +kernel⟩,
   ⟨Gate.zero, 9, [xfer 1 5 3, xfer 1 0 3], xfer 1 0 3, by decide +kernel⟩,
   ⟨{ (((hdu .run 40).ben 0 16).ben 1 16) with fabric := [xfer 1 5 0] }, 0, 1, .row, xfer 1 5 0, by decide +kernel⟩,
   ⟨{ ((hdu .run 40).ben 1 16) with fabric := [xfer 0 5 1] }, 1, xfer 0 5 1, by decide +kernel⟩,
   ⟨{ ((hdu .run 40).ben 1 16) with fabric := [{ xfer 1 5 1 with what := .setPoints 63 [(3, 0x1234)] }] }, 1,
    { xfer 1 5 1 with what := .setPoints 63 [(3, 0x1234)] }, 63, 3, 0x1234, by decide +kernel⟩,
   ⟨{ ((hdu .run 40).ben 1 16) with fabric := [xfer 1 5 1] }, 1, xfer 1 5 1, 0, 3, by decide +kernel⟩,
   ⟨{ ((hdu .run 40).ben 1 16) with fabric := [xfer 1 5 1] }, 1, xfer 1 5 1, 0, .row, by decide +kernel⟩,
   ⟨{ ((hdu .run 40).ben 1 16) with mirrors := [⟨2, 50, .hold, []⟩] }, 1, 2, by decide +kernel⟩,
   ⟨hdu .run, 0, .row, 1, by decide +kernel⟩,
   ⟨hdu .run, 0, 31, 0x80012004#32, by decide +kernel⟩,
   ⟨hdu .config, 0, 31, 0x81012004#32, by decide +kernel⟩,
   ⟨hdu .config, 0, 0, 0x81032004#32, by decide +kernel⟩⟩

theorem test_hypotheses_of_ring_tick :
    (∃ (s : State) (d i : Nat), s.device.live = false) ∧
    (∃ (s : State) (d key : Nat), s.device.live = false) ∧
    (∃ (s : State), s.device.live = false) ∧
    (∃ (s : State), s.isHead = true ∧ s.device.live = true ∧ s.shaped = true ∧ s.cmds = [] ∧ s.arming = none ∧ s.bus = []) ∧
    (∃ (s : State), s.isHead = true ∧ s.device.live = true ∧ s.shaped = true ∧ ((s.td0 + 1) % 2 ^ 64) % 800000 ≠ 0) ∧
    (∃ (s : State) (d i : Nat), s.isHead = true ∧ s.device.live = true ∧ s.shaped = true ∧ s.alive d = true ∧ i < (s.die d).ang.dom.length) ∧
    (∃ (s : State), s.isHead = true ∧ s.device.live = true ∧ s.shaped = true) :=
  ⟨⟨State.resetOf .kld2h, 0, 7, by decide +kernel⟩,
   ⟨State.resetOf .kld2h, 1, 0x2008, by decide +kernel⟩,
   ⟨State.resetOf .kld2h, by decide +kernel⟩,
   ⟨hdu .run (2 ^ 64 - 1), by decide +kernel⟩,
   ⟨hdu .run 5, by decide +kernel⟩,
   ⟨hdu .run 5, 1, 7, by decide +kernel⟩,
   ⟨hdu .run 5, by decide +kernel⟩⟩

theorem test_hypotheses_of_milestone_entries :
    (∃ (s : State) (d i : Nat), s.shaped = true ∧ s.sane = true ∧ s.alive d = true ∧ i < 1024) ∧
    (∃ (s : State) (d i : Nat), s.shaped = true ∧ s.sane = true ∧ s.alive d = true ∧ i < 1024) ∧
    (∃ (s : State) (d i : Nat), s.shaped = true ∧ s.sane = true ∧ s.alive d = true ∧ i < 1024) ∧
    (∃ (s : State) (d i : Nat), s.shaped = true ∧ s.alive d = true ∧ (s.die d).ang.reexamine = false ∧ (s.die d).ang.pendOps = [(i,
     .disarm)]) ∧
    (∃ (s : State) (d i : Nat), s.shaped = true ∧ s.alive d = true ∧ (s.die d).ang.reexamine = false ∧ (s.die d).ang.pendOps = [(i, .arm)]
     ∧ s.msArmed d i = false ∧ (8 ≤ s.msDom d i ∨ bitOf (s.ms d i 0) 29 = true) ∧ (s.position d (s.msDom d i)).2 < s.compare d i) ∧
    (∃ (s : State) (d i : Nat) (ws : List Word), s.shaped = true ∧ s.alive d = true ∧ (s.die d).ang.reexamine = false ∧ (s.die
     d).ang.pendOps = [(i, .load ws)] ∧ ws.length = 7) ∧
    (∃ (s : State) (d : Nat), s.sane = true ∧ s.on d 2 = true ∧ s.reachedList d = []) ∧
    (∃ (s : State) (d i : Nat), s.shaped = true ∧ s.sane = true ∧ s.on d 2 = true ∧ s.reachedList d = [i] ∧ s.recur d i = .once ∧
     s.msAction d i ≠ 3 ∧ ¬(s.msAction d i = 4 ∧ bitOf (s.msArg d i) 8 = true)) ∧
    (∃ (s : State) (d i w : Nat) (addr v : Word), s.shaped = true ∧ s.sane = true ∧ s.alive d = true ∧ s.spot addr.toNat = .entry d
     (0xF0000 + 0x20 * i + w) ∧ w < 0x1C ∧ (findReg regsMilestone w).isSome = true ∧ s.msArmed d i = true) ∧
    (∃ (s : State) (d : Nat), s.sane = true) :=
  ⟨⟨hdu .run, 1, 1023, by decide +kernel⟩,
   ⟨hdu .run, 1, 1023, by decide +kernel⟩,
   ⟨hdu .run, 0, 0, by decide +kernel⟩,
   ⟨((hdu .run).word 0 (msKey 5 0) 0x80000000#32).onDie 0 fun x => { x with ang := { x.ang with pendOps := [(5, .disarm)] } }, 0, 5,
    by decide +kernel⟩,
   ⟨((hdu .run 9).word 0 (msKey 5 0) 0x08000000#32 |>.word 0 (msKey 5 3) 10).onDie 0 fun x =>
    { x with ang := { x.ang with pendOps := [(5, .arm)] } }, 0, 5, by decide +kernel⟩,
   ⟨(hdu .run).onDie 0 fun x => { x with ang := { x.ang with pendOps := [(5, .load [1, 2, 3, 4, 5, 6, 7])] } }, 0, 5, [1, 2, 3, 4, 5, 6,
    7], by decide +kernel⟩,
   ⟨(hdu .run).ben 0 2, 0, by decide +kernel⟩,
   ⟨{ ((hdu .run 10).ben 0 2).word 0 (msKey 5 0) 0x88000000#32 |>.word 0 (msKey 5 3) 10 with td0Prev := 9 }, 0, 5, by decide +kernel⟩,
   ⟨(hdu .run).word 0 (msKey 5 0) 0x88060000#32, 0, 5, 4, ad 0 (msKey 5 1), 9, by decide +kernel⟩,
   ⟨(hdu .run).ben 0 2, 0, by decide +kernel⟩⟩

theorem test_hypotheses_of_angle_domains :
    (∃ (s : State) (i : Nat) (reg : AdReg) (value : Word), s.shaped = true ∧ s.sane = true ∧ s.alive 0 = true ∧ i < 8 ∧ i < (s.die
     0).ang.dom.length ∧ i < (s.die 0).ang.anchors.length) ∧
    (∃ (s : State) (d i : Nat) (reg : AdReg) (value : Word), s.sane = true ∧ d ≠ 0) ∧
    (∃ (s : State) (m : Mirror), s.shaped = true ∧ s.sane = true ∧ s.isHead = true ∧ s.alive 0 = true ∧ m.domain < 8 ∧ s.mirrors = [m] ∧
     m.te ≤ s.td0 ∧ (s.dom 0 m.domain).held = none ∧ ((∀ k, k < s.part.dies → m.domain < (s.die k).ang.dom.length))) ∧
    (∃ (s : State) (d i e : Nat) (incs : Int), s.shaped = true ∧ s.sane = true ∧ s.alive d = true ∧ i < (s.die d).ang.dom.length ∧ (s.dom
     d i).slew = some (e, incs) ∧ e ≤ s.td0) ∧
    (∃ (s : State) (d domain : Nat), s.shaped = true ∧ s.sane = true ∧ s.alive d = true ∧ domain < 16) ∧
    (∃ (s : State) (m : Mirror), s.shaped = true ∧ s.mirrors = [m] ∧ m.domain < (s.die 0).ang.dom.length ∧ m.te ≤ s.td0) ∧
    (∃ (s : State) (m : Mirror), s.shaped = true ∧ s.mirrors = [m] ∧ m.domain < (s.die 0).ang.dom.length ∧ s.td0 < m.te) :=
  ⟨⟨hdu .run 100, 7, .nomLo, 5, by decide +kernel⟩,
   ⟨hdu .run, 1, 3, .cfg, 2, by decide +kernel⟩,
   ⟨{ hdu .run 200 with mirrors := [⟨3, 200, .reconfigure 1 5 6 7, [1]⟩] }, ⟨3, 200, .reconfigure 1 5 6 7, [1]⟩, by decide +kernel⟩,
   ⟨(hdu .run 200).onDie 1 fun x => { x with ang := { x.ang with dom := setAt x.ang.dom 7 fun y => { y with slew := some (200, 77) } } },
    1, 7, 200, 77, by decide +kernel⟩,
   ⟨hdu .run 200, 1, 7, by decide +kernel⟩,
   ⟨{ ndu .run 200 with mirrors := [⟨3, 200, .reconfigure 1 5 6 7, []⟩] }, ⟨3, 200, .reconfigure 1 5 6 7, []⟩, by decide +kernel⟩,
   ⟨{ ndu .run 199 with mirrors := [⟨3, 200, .reconfigure 1 5 6 7, []⟩] }, ⟨3, 200, .reconfigure 1 5 6 7, []⟩, by decide +kernel⟩⟩

theorem test_hypotheses_of_tracker_edges :
    (∃ (s : State) (d c : Nat) (qa qb : Bool) (stable : Nat), s.shaped = true ∧ s.sane = true ∧ s.trkSrc d c = 3 ∧ c < (s.die
     d).trk.length ∧ (s.trk d c).qAt ≠ some (s.td0 : Int) ∧ s.filterTicks d c ≤ stable ∧ ((s.trk d c).qa = qa ↔ (s.trk d c).qb ≠ qb)) ∧
    (∃ (s : State) (d c : Nat) (qa qb : Bool) (stable : Nat), s.shaped = true ∧ s.sane = true ∧ s.trkSrc d c = 3 ∧ c < (s.die
     d).trk.length ∧ (s.trk d c).qAt ≠ some (s.td0 : Int) ∧ s.filterTicks d c ≤ stable ∧ (s.trk d c).qa ≠ qa ∧ (s.trk d c).qb ≠ qb) ∧
    (∃ (s : State) (d c : Nat) (qa qb : Bool) (stable : Nat), s.sane = true ∧ (stable < s.filterTicks d c ∨ (s.trk d c).qAt = some (s.td0
     : Int))) ∧
    (∃ (s : State) (d c stable : Nat) (ball : Bool), s.shaped = true ∧ s.sane = true ∧ s.trkSrc d c = 4 ∧ c < (s.die d).trk.length) ∧
    (∃ (s : State) (d c : Nat), s.shaped = true ∧ s.sane = true ∧ s.alive d = true ∧ c < 4 ∧ c < (s.die d).trk.length) :=
  ⟨⟨(ndu .run 50).track 0 3 3, 0, 3, true, false, 0, by decide +kernel⟩,
   ⟨((ndu .run 50).fld 0 Fd.TRK_LINES.QF 255 3).track 0 3 3, 0, 3, true, true, 8000, by decide +kernel⟩,
   ⟨((ndu .run 50).fld 0 Fd.TRK_LINES.QF 255 3).track 0 3 3, 0, 3, true, false, 7999, by decide +kernel⟩,
   ⟨(hdu .run 50).track 0 2 4, 0, 2, 0, false, by decide +kernel⟩,
   ⟨hdu .run 50, 1, 3, by decide +kernel⟩⟩

theorem test_hypotheses_of_tracker_samples :
    (∃ (s : State) (d c : Nat), s.shaped = true ∧ s.sane = true ∧ s.sampleDue d c = true ∧ c < (s.die d).trk.length) ∧
    (∃ (s : State) (d c : Nat), s.sane = true ∧ s.sampleDue d c = false) ∧
    (∃ (s : State) (d c : Nat), s.shaped = true ∧ s.sane = true ∧ s.coastOver d c = true ∧ s.sampleTick d c = true) ∧
    (∃ (s : State) (d c : Nat), s.shaped = true ∧ s.sane = true ∧ s.lockDue d c = true) ∧
    (∃ (s : State) (d c : Nat), s.shaped = true ∧ s.sane = true ∧ s.stillDue d c = true ∧ s.sampleTick d c = true ∧ c < (s.die
     d).trk.length) :=
  ⟨⟨((hdu .run 5000).track 1 2 1).fld 1 Fd.TRK_AMP.FILT_DELAY 100 2, 1, 2, by decide +kernel⟩,
   ⟨(hdu .run 5000).track 1 2 1 (fun x => { x with sampled := some 4999 }), 1, 2, by decide +kernel⟩,
   ⟨((((hdu .run 5000).fld 1 Fd.TRK_TIME.COAST 0 2).fld 1 Fd.TRK_CFG.LOSS_SRC 1 2).track 1 2 1 fun x => { x with coastAt := some 5000 }),
    1, 2, by decide +kernel⟩,
   ⟨(hdu .run 16005000).track 1 2 1 (fun x => { x with lockAt := some 5000 }), 1, 2, by decide +kernel⟩,
   ⟨(((hdu .run 800000).fld 0 Fd.TRK_TIME.STILL 1 2).fld 0 Fd.TRK_STAT.STANDSTILL 0 2).track 0 2 4, 0, 2, by decide +kernel⟩⟩

theorem test_hypotheses_of_front_end_clocks :
    (∃ (s : State) (d k : Nat) (value : Word), s.shaped = true ∧ s.sane = true ∧ s.alive d = true ∧ k < 4 ∧ ¬(s.isHead = true ∧ d = 1) ∧ k
     < (s.die d).mfe.sdc.length) ∧
    (∃ (s : State) (k : Nat) (value : Word), s.sane = true ∧ s.isHead = true) ∧
    (∃ (s : State) (d k div : Nat) (first : Int), s.sized = true ∧ d < s.part.dies ∧ k < 4 ∧ ¬(s.isHead = true ∧ d = 1) ∧ (s.sdc d k).next
     = some (div, first) ∧ (s.td0 : Int) < first) ∧
    (∃ (s : State) (d k div : Nat) (first : Int) (e c : Nat), s.sized = true ∧ d < s.part.dies ∧ k < 4 ∧ ¬(s.isHead = true ∧ d = 1) ∧
     (s.sdc d k).next = some (div, first) ∧ first ≤ s.td0 ∧ e ∈ s.sdcUsers d ∧ e < s.part.dies ∧ c < 16 ∧ s.chOn e c = true ∧ s.rd e
     Fd.CH_CFG.CLK_SEL c = k) ∧
    (∃ (s : State) (d k div : Nat) (first : Int), s.sized = true ∧ d < s.part.dies ∧ k < 4 ∧ ¬(s.isHead = true ∧ d = 1) ∧ (s.sdc d k).next
     = some (div, first) ∧ first ≤ s.td0) ∧
    (∃ (s : State) (d : Nat) (value : Word), s.sized = true ∧ s.sane = true ∧ s.alive d = true ∧ s.hasSdd d = true) ∧
    (∃ (s : State) (d : Nat) (value : Word), s.sane = true ∧ s.hasSdd d = false) :=
  ⟨⟨hdu .run 7, 0, 3, 0x80000528#32, by decide +kernel⟩,
   ⟨hdu .run, 3, 5, by decide +kernel⟩,
   ⟨(hdu .run 9).onSdc 0 3 (fun x => { x with next := some (41, 10) }), 1 - 1, 3, 41, 10, by decide +kernel⟩,
   ⟨((hdu .run 10).meas 1 15).onSdc 0 0 (fun x => { x with next := some (41, 10) }), 0, 0, 41, 10, 1, 15, by decide +kernel⟩,
   ⟨(hdu .run 10).onSdc 0 3 (fun x => { x with next := some (41, 10) }), 0, 3, 41, 10, by decide +kernel⟩,
   ⟨(hdu .run 9).meas 1 15, 1, 0x7FFF#32, by decide +kernel⟩,
   ⟨bench .kld4h .run 0, 2, 0xFFFF#32, by decide +kernel⟩⟩

theorem test_hypotheses_of_front_end_bits :
    (∃ (s : State) (d c edge : Nat) (bits : List Samples), s.shaped = true ∧ s.sane = true ∧ s.chOn d c = true ∧ bits ≠ [] ∧ s.edgesOk d c
     edge bits.length = true ∧ c < (s.die d).mfe.ch.length ∧ 3 * s.osr d c ≤ (s.mch d c).n + bits.length) ∧
    (∃ (s : State) (d c edge : Nat) (b : Samples), s.shaped = true ∧ s.sane = true ∧ s.chOn d c = true ∧ s.edgesOk d c edge 1 = true ∧ c <
     (s.die d).mfe.ch.length ∧ ((s.mch d c).n + 1) % s.fosr d c = 0 ∧ 2 * s.fosr d c ≤ (s.mch d c).n + 1) ∧
    (∃ (s : State) (d c edge : Nat) (bits : List Samples), s.shaped = true ∧ s.sane = true ∧ s.chOn d c = true ∧ c < (s.die
     d).mfe.ch.length ∧ ((bits ≠ [] ∧ s.edgesOk d c edge bits.length = true ∧ 128 ≤ bits.length + (s.mch d c).bits.length ∧ (∃ v,
     (((bits.map vote).reverse ++ (s.mch d c).bits).take 128).all (· == v) = true)) ∨ (bits = [] ∧ s.clockRuns d (s.rd d Fd.CH_CFG.CLK_SEL
     c) = false))) ∧
    (∃ (s : State) (d c edge : Nat) (b : Samples), s.shaped = true ∧ s.sane = true ∧ s.chOn d c = true ∧ s.edgesOk d c edge 1 = true ∧ c <
     (s.die d).mfe.ch.length ∧ (s.mch d c).bits.head? = some (!vote b)) ∧
    (∃ (s : State) (d c edge : Nat) (bits : List Samples) (i : Instr), s.sane = true ∧ bits ≠ [] ∧ s.edgesOk d c edge bits.length = false
     ∧ (i = .channelSettled d c edge bits ∨ i = .fastResult d c edge bits ∨ i = .stuck d c edge bits)) ∧
    (∃ (s : State) (d c : Nat), s.shaped = true ∧ d < s.part.dies ∧ c < 16) :=
  ⟨⟨(hdu .run 100).meas 1 5 (fun x => { x with n := 95, bits := [true] }), 1, 5, 80, [(true, true, false)], by decide +kernel⟩,
   ⟨(hdu .run 100).meas 1 5 (fun x => { x with n := 15, bits := List.replicate 15 true }), 1, 5, 80, (true, false, true),
    by decide +kernel⟩,
   ⟨(hdu .run 100).meas 1 5 (fun x => { x with n := 127, bits := List.replicate 127 true }), 1, 5, 80, [(true, true, false)],
    by decide +kernel⟩,
   ⟨((hdu .run 100).meas 1 5 fun x => { x with n := 128, bits := List.replicate 128 true }).fld 1 Fd.CH_STAT.LIVE 4 5, 1, 5, 80, (false,
    false, true), by decide +kernel⟩,
   ⟨(hdu .run 100).meas 1 5 (fun x => { x with n := 95, bits := [true] }), 1, 5, 79, [(true, true, false)], .stuck 1 5 79 [(true, true,
    false)], by decide +kernel⟩,
   ⟨(hdu .run 100).meas 1 5 fun x => { x with n := 15, bits := List.replicate 15 true }, 1, 5, by decide +kernel⟩⟩

theorem test_hypotheses_of_loop_slots :
    (∃ (s : State) (d : Nat) (hi : Bool) (value : Word), s.shaped = true ∧ s.sane = true ∧ s.alive d = true) ∧
    (∃ (s : State) (d sl : Nat), s.shaped = true ∧ s.alive d = true ∧ sl < 64 ∧ sl < (s.die d).le.slot.length ∧ s.slotEn d sl = false ∧
     (s.leStart d).slotEn d sl = true) ∧
    (∃ (s : State) (d : Nat), s.shaped = true ∧ s.alive d = true) ∧
    (∃ (s : State) (d sl : Nat) (hi : Bool) (value : Word), s.shaped = true ∧ s.sane = true ∧ s.alive d = true ∧ sl < 64 ∧ sl < (s.die
     d).le.slot.length ∧ (s.slot d sl).sp.length = 4) ∧
    (∃ (s : State) (d sl : Nat) (value : Word), s.shaped = true ∧ s.sane = true ∧ s.alive d = true ∧ sl < 64 ∧ sl < (s.die
     d).le.slot.length) ∧
    (∃ (s : State) (d e sl i : Nat), s.shaped = true ∧ s.sane = true ∧ s.on d 5 = true ∧ e < 6 ∧ (s.freeInst d e).head? = some i ∧
     s.nextSlot d e = some sl ∧ (s.die d).le.inst.length = 48) ∧
    (∃ (s : State) (d e : Nat), s.sane = true ∧ (s.nextSlot d e = none ∨ s.freeInst d e = [])) ∧
    (∃ (s : State) (d sl w : Nat) (addr v : Word), s.shaped = true ∧ s.sane = true ∧ s.alive d = true ∧ sl < 64 ∧ w < 0x20 ∧ s.spot
     addr.toNat = .page d 5 (0x100 + 0x20 * sl + w) ∧ s.slotHeld d sl = true ∧ (s.cell d (0x5100 + 0x20 * sl + w) ^^^ v) &&& slotFixed w ≠
     0) ∧
    (∃ (s : State) (d e i : Nat) (c : Instr), s.shaped = true ∧ s.sane = true ∧ s.running d e i = true ∧ s.pcOk d e (s.inst d e i) = false
     ∧ c ∈ loopCommands d e i) ∧
    (∃ (s : State) (d e i : Nat), s.shaped = true ∧ s.sane = true ∧ s.running d e i = true ∧ s.pcOk d e (s.inst d e i) = true ∧ s.pagesOk
     d e (s.inst d e i) (executesAs (s.fetch d e i)) (decodeLoop (s.fetch d e i)) = false) ∧
    (∃ (s : State) (d e i : Nat) (m : Nat × Nat × Nat) (c : Instr), s.misused.head? = some m ∧ c ∈ loopCommands d e i) :=
  ⟨⟨hdu .run, 1, true, 0x80000001#32, by decide +kernel⟩,
   ⟨(hdu .run).fld 0 Fd.SLOT_EN_HI.W 0x80000000 |>.onSlot 0 63 (fun x => { x with casc := 5 }), 0, 63, by decide +kernel⟩,
   ⟨(hdu .run).fld 1 Fd.SLOT_EN_HI.W 0x80000000 |>.fld 1 Fd.SLOT_EN_LO.W 7, 1, by decide +kernel⟩,
   ⟨hdu .run, 1, 63, true, 0x12345678#32, by decide +kernel⟩,
   ⟨(hdu .run).onSlot 1 63 (fun x => { x with casc := 5 }), 1, 63, 0xFFFFFFFF#32, by decide +kernel⟩,
   ⟨((hdu .run).ben 1 5).fld 1 Fd.SLOT_STAT.COND 1 63 |>.fld 1 Fd.SLOT_CTRL.ENGINE 5 63 |>.fld 1 Fd.SLOT_PROG.PROG_BASE 77 63 |>.fld 1
    Fd.SLOT_CTRL.COEF_SEL 1 63, 1, 5, 63, 0, by decide +kernel⟩,
   ⟨hdu .run, 1, 5, by decide +kernel⟩,
   ⟨(hdu .run).fld 0 Fd.SLOT_EN_LO.W 8 |>.onDie 0 (fun x => { x with le := { x.le with en := 8 } }), 0, 3, 4, ad 0 (0x5100 + 0x60 + 4),
    5, by decide +kernel⟩,
   ⟨looped (iw 0 0 3 0 4) (fun x => { x with pc := 8192 }), 1, 5, 7, .mac 1 5 7, by decide +kernel⟩,
   ⟨(looped (iw 1 0 3 0 4)).onDie 1 (fun x => { x with le := { x.le with extents := [⟨5, 0, 100, 2, 2⟩] } }), 1, 5, 7, by decide +kernel⟩,
   ⟨{ hdu .run with misused := [(176, 0, 5)] }, 1, 5, 7, (176, 0, 5), .mac 1 5 7, by decide +kernel⟩⟩

theorem test_hypotheses_of_accumulator_instructions :
    (∃ (s : State) (d e i : Nat) (x : Inst) (w : Word5) (a ws v : Int), s.shaped = true ∧ (s.die d).le.inst.length = 48 ∧ x = s.inst d e i
     ∧ w = decodeLoop (s.fetch d e i) ∧ a = x.accOf w ∧ ws = x.wsOf w ∧ v = (s.operand d x w).toInt ∧ s.Issues d e i .mac) ∧
    (∃ (s : State) (d e i : Nat) (x : Inst) (w : Word5) (a ws v : Int), s.shaped = true ∧ (s.die d).le.inst.length = 48 ∧ x = s.inst d e i
     ∧ w = decodeLoop (s.fetch d e i) ∧ a = x.accOf w ∧ ws = x.wsOf w ∧ v = (s.operand d x w).toInt ∧ s.Issues d e i .msu) ∧
    (∃ (s : State) (d e i : Nat) (x : Inst) (w : Word5) (a ws v : Int), s.shaped = true ∧ (s.die d).le.inst.length = 48 ∧ x = s.inst d e i
     ∧ w = decodeLoop (s.fetch d e i) ∧ a = x.accOf w ∧ ws = x.wsOf w ∧ v = (s.operand d x w).toInt ∧ s.Issues d e i .mul) ∧
    (∃ (s : State) (d e i : Nat) (x : Inst) (w : Word5) (a ws v : Int), s.shaped = true ∧ (s.die d).le.inst.length = 48 ∧ x = s.inst d e i
     ∧ w = decodeLoop (s.fetch d e i) ∧ a = x.accOf w ∧ ws = x.wsOf w ∧ v = (s.operand d x w).toInt ∧ s.Issues d e i .add) ∧
    (∃ (s : State) (d e i : Nat) (x : Inst) (w : Word5) (a ws v : Int), s.shaped = true ∧ (s.die d).le.inst.length = 48 ∧ x = s.inst d e i
     ∧ w = decodeLoop (s.fetch d e i) ∧ a = x.accOf w ∧ ws = x.wsOf w ∧ v = (s.operand d x w).toInt ∧ s.Issues d e i .sub) ∧
    (∃ (s : State) (d e i : Nat) (x : Inst) (w : Word5) (a ws v : Int), s.shaped = true ∧ (s.die d).le.inst.length = 48 ∧ x = s.inst d e i
     ∧ w = decodeLoop (s.fetch d e i) ∧ a = x.accOf w ∧ ws = x.wsOf w ∧ v = (s.operand d x w).toInt ∧ s.Issues d e i .shl) ∧
    (∃ (s : State) (d e i : Nat) (x : Inst) (w : Word5) (a ws v : Int), s.shaped = true ∧ (s.die d).le.inst.length = 48 ∧ x = s.inst d e i
     ∧ w = decodeLoop (s.fetch d e i) ∧ a = x.accOf w ∧ ws = x.wsOf w ∧ v = (s.operand d x w).toInt ∧ s.Issues d e i .shr) ∧
    (∃ (s : State) (d e i : Nat) (x : Inst) (w : Word5) (a ws v : Int), s.shaped = true ∧ (s.die d).le.inst.length = 48 ∧ x = s.inst d e i
     ∧ w = decodeLoop (s.fetch d e i) ∧ a = x.accOf w ∧ ws = x.wsOf w ∧ v = (s.operand d x w).toInt ∧ s.Issues d e i .neg) ∧
    (∃ (s : State) (d e i : Nat) (x : Inst) (w : Word5) (a ws v : Int), s.shaped = true ∧ (s.die d).le.inst.length = 48 ∧ x = s.inst d e i
     ∧ w = decodeLoop (s.fetch d e i) ∧ a = x.accOf w ∧ ws = x.wsOf w ∧ v = (s.operand d x w).toInt ∧ s.Issues d e i .abs) :=
  ⟨⟨looped (iw 8 0 0 0 4), 1, 5, 7, _, _, _, _, _, by decide +kernel, by decide +kernel, rfl, rfl, rfl, rfl, rfl,
    by unfold State.Issues; decide +kernel⟩,
   ⟨looped (iw 9 0 0 0 4), 1, 5, 7, _, _, _, _, _, by decide +kernel, by decide +kernel, rfl, rfl, rfl, rfl, rfl,
    by unfold State.Issues; decide +kernel⟩,
   ⟨looped (iw 10 0 0 0 4), 1, 5, 7, _, _, _, _, _, by decide +kernel, by decide +kernel, rfl, rfl, rfl, rfl, rfl,
    by unfold State.Issues; decide +kernel⟩,
   ⟨looped (iw 11 0 0 0 4), 1, 5, 7, _, _, _, _, _, by decide +kernel, by decide +kernel, rfl, rfl, rfl, rfl, rfl,
    by unfold State.Issues; decide +kernel⟩,
   ⟨looped (iw 12 0 0 0 4), 1, 5, 7, _, _, _, _, _, by decide +kernel, by decide +kernel, rfl, rfl, rfl, rfl, rfl,
    by unfold State.Issues; decide +kernel⟩,
   ⟨looped (iw 13 1 0 3 31), 1, 5, 7, _, _, _, _, _, by decide +kernel, by decide +kernel, rfl, rfl, rfl, rfl, rfl,
    by unfold State.Issues; decide +kernel⟩,
   ⟨looped (iw 14 1 0 3 31), 1, 5, 7, _, _, _, _, _, by decide +kernel, by decide +kernel, rfl, rfl, rfl, rfl, rfl,
    by unfold State.Issues; decide +kernel⟩,
   ⟨looped (iw 15 0 0 0 4), 1, 5, 7, _, _, _, _, _, by decide +kernel, by decide +kernel, rfl, rfl, rfl, rfl, rfl,
    by unfold State.Issues; decide +kernel⟩,
   ⟨looped (iw 16 0 0 0 4), 1, 5, 7, _, _, _, _, _, by decide +kernel, by decide +kernel, rfl, rfl, rfl, rfl, rfl,
    by unfold State.Issues; decide +kernel⟩⟩

theorem test_hypotheses_of_other_instructions :
    (∃ (s : State) (d e i : Nat) (x : Inst) (w : Word5) (a v : Int), s.shaped = true ∧ (s.die d).le.inst.length = 48 ∧ x = s.inst d e i ∧
     w = decodeLoop (s.fetch d e i) ∧ a = x.accOf w ∧ v = (s.operand d x w).toInt ∧ s.Issues d e i .nop) ∧
    (∃ (s : State) (d e i : Nat) (x : Inst) (w : Word5) (a v : Int), s.shaped = true ∧ (s.die d).le.inst.length = 48 ∧ x = s.inst d e i ∧
     w = decodeLoop (s.fetch d e i) ∧ a = x.accOf w ∧ v = (s.operand d x w).toInt ∧ s.Issues d e i .ld) ∧
    (∃ (s : State) (d e i : Nat) (x : Inst) (w : Word5) (a v : Int), s.shaped = true ∧ (s.die d).le.inst.length = 48 ∧ x = s.inst d e i ∧
     w = decodeLoop (s.fetch d e i) ∧ a = x.accOf w ∧ v = (s.operand d x w).toInt ∧ s.Issues d e i .inp) ∧
    (∃ (s : State) (d e i : Nat) (x : Inst) (w : Word5) (a v : Int), s.shaped = true ∧ (s.die d).le.inst.length = 48 ∧ x = s.inst d e i ∧
     w = decodeLoop (s.fetch d e i) ∧ a = x.accOf w ∧ v = (s.operand d x w).toInt ∧ s.Issues d e i .ldw) ∧
    (∃ (s : State) (d e i : Nat) (x : Inst) (w : Word5) (a v : Int), s.shaped = true ∧ (s.die d).le.inst.length = 48 ∧ x = s.inst d e i ∧
     w = decodeLoop (s.fetch d e i) ∧ a = x.accOf w ∧ v = (s.operand d x w).toInt ∧ s.Issues d e i .movw) ∧
    (∃ (s : State) (d e i : Nat) (x : Inst) (w : Word5) (a v : Int), s.shaped = true ∧ (s.die d).le.inst.length = 48 ∧ x = s.inst d e i ∧
     w = decodeLoop (s.fetch d e i) ∧ a = x.accOf w ∧ v = (s.operand d x w).toInt ∧ s.Issues d e i .sel) ∧
    (∃ (s : State) (d e i : Nat) (x : Inst) (w : Word5) (a v : Int), s.shaped = true ∧ (s.die d).le.inst.length = 48 ∧ x = s.inst d e i ∧
     w = decodeLoop (s.fetch d e i) ∧ a = x.accOf w ∧ v = (s.operand d x w).toInt ∧ s.Issues d e i .cmp) ∧
    (∃ (s : State) (d e i : Nat) (x : Inst) (w : Word5) (a v : Int), s.shaped = true ∧ (s.die d).le.inst.length = 48 ∧ x = s.inst d e i ∧
     w = decodeLoop (s.fetch d e i) ∧ a = x.accOf w ∧ v = (s.operand d x w).toInt ∧ s.Issues d e i .brf) ∧
    (∃ (s : State) (d e i : Nat) (x : Inst) (w : Word5) (a v hi : Int), s.shaped = true ∧ (s.die d).le.inst.length = 48 ∧ x = s.inst d e i
     ∧ w = decodeLoop (s.fetch d e i) ∧ a = x.accOf w ∧ v = (s.operand d x w).toInt ∧ s.Issues d e i .lim ∧ hi = (s.operand2 d x w).toInt) ∧
    (∃ (s : State) (d e i : Nat) (x : Inst) (w : Word5) (a v : Int) (p j : Nat) (y0 y1 : Int), s.shaped = true ∧ (s.die d).le.inst.length
     = 48 ∧ x = s.inst d e i ∧ w = decodeLoop (s.fetch d e i) ∧ a = x.accOf w ∧ v = (s.operand d x w).toInt ∧ s.Issues d e i .tab ∧ p =
     (x.wsOf w + 32768).toNat * s.tabSegs d x (offOf w) ∧ j = p / 65536 ∧ y0 = (s.coefAt d x (offOf w + 1 + j)).toInt ∧ y1 = (s.coefAt d x
     (offOf w + 2 + j)).toInt) ∧
    (∃ (s : State) (d e i : Nat) (x : Inst) (w : Word5) (a v : Int), s.shaped = true ∧ (s.die d).le.inst.length = 48 ∧ x = s.inst d e i ∧
     w = decodeLoop (s.fetch d e i) ∧ a = x.accOf w ∧ v = (s.operand d x w).toInt ∧ s.Issues d e i .div) ∧
    (∃ (s : State) (d e i : Nat) (x : Inst) (w : Word5) (a v : Int), s.shaped = true ∧ (s.die d).le.inst.length = 48 ∧ x = s.inst d e i ∧
     w = decodeLoop (s.fetch d e i) ∧ a = x.accOf w ∧ v = (s.operand d x w).toInt ∧ s.Issues d e i .sincos) ∧
    (∃ (s : State) (d e i : Nat) (x : Inst) (w : Word5) (a v : Int), s.shaped = true ∧ (s.die d).le.inst.length = 48 ∧ x = s.inst d e i ∧
     w = decodeLoop (s.fetch d e i) ∧ a = x.accOf w ∧ v = (s.operand d x w).toInt ∧ s.Issues d e i .out) :=
  ⟨⟨looped (iw 0 0 3 0 4), 1, 5, 7, _, _, _, _, by decide +kernel, by decide +kernel, rfl, rfl, rfl, rfl,
    by unfold State.Issues; decide +kernel⟩,
   ⟨looped (iw 1 0 3 0 4), 1, 5, 7, _, _, _, _, by decide +kernel, by decide +kernel, rfl, rfl, rfl, rfl,
    by unfold State.Issues; decide +kernel⟩,
   ⟨looped (iw 24 0 3 6 1), 1, 5, 7, _, _, _, _, by decide +kernel, by decide +kernel, rfl, rfl, rfl, rfl,
    by unfold State.Issues; decide +kernel⟩,
   ⟨looped (iw 2 0 3 0 4), 1, 5, 7, _, _, _, _, by decide +kernel, by decide +kernel, rfl, rfl, rfl, rfl,
    by unfold State.Issues; decide +kernel⟩,
   ⟨looped (iw 5 0 3 0 4), 1, 5, 7, _, _, _, _, by decide +kernel, by decide +kernel, rfl, rfl, rfl, rfl,
    by unfold State.Issues; decide +kernel⟩,
   ⟨looped (iw 20 1 3 0 4), 1, 5, 7, _, _, _, _, by decide +kernel, by decide +kernel, rfl, rfl, rfl, rfl,
    by unfold State.Issues; decide +kernel⟩,
   ⟨looped (iw 28 0 3 0 4), 1, 5, 7, _, _, _, _, by decide +kernel, by decide +kernel, rfl, rfl, rfl, rfl,
    by unfold State.Issues; decide +kernel⟩,
   ⟨looped (iw 29 0 3 3 61445), 1, 5, 7, _, _, _, _, by decide +kernel, by decide +kernel, rfl, rfl, rfl, rfl,
    by unfold State.Issues; decide +kernel⟩,
   ⟨looped (iw 17 0 3 0 4), 1, 5, 7, _, _, _, _, _, by decide +kernel, by decide +kernel, rfl, rfl, rfl, rfl,
    by unfold State.Issues; decide +kernel, rfl⟩,
   ⟨looped (iw 21 0 3 1 4), 1, 5, 7, _, _, _, _, _, _, _, _, by decide +kernel, by decide +kernel, rfl, rfl, rfl, rfl,
    by unfold State.Issues; decide +kernel, rfl, rfl, rfl, rfl⟩,
   ⟨looped (iw 22 0 3 0 4), 1, 5, 7, _, _, _, _, by decide +kernel, by decide +kernel, rfl, rfl, rfl, rfl,
    by unfold State.Issues; decide +kernel⟩,
   ⟨looped (iw 23 0 3 0 4), 1, 5, 7, _, _, _, _, by decide +kernel, by decide +kernel, rfl, rfl, rfl, rfl,
    by unfold State.Issues; decide +kernel⟩,
   ⟨looped (iw 25 0 3 5 959), 1, 5, 7, _, _, _, _, by decide +kernel, by decide +kernel, rfl, rfl, rfl, rfl,
    by unfold State.Issues; decide +kernel⟩⟩

theorem test_hypotheses_of_storing_instructions :
    (∃ (s : State) (d e i : Nat) (x : Inst) (w : Word5) (a : Int) (k : Nat), s.shaped = true ∧ (s.die d).le.inst.length = 48 ∧ x = s.inst
     d e i ∧ w = decodeLoop (s.fetch d e i) ∧ a = x.accOf w ∧ k = s.stateBase d x + bitsOf w.field 14 0 ∧ s.Issues d e i .st) ∧
    (∃ (s : State) (d e i : Nat) (x : Inst) (w : Word5) (a : Int) (k : Nat), s.shaped = true ∧ (s.die d).le.inst.length = 48 ∧ x = s.inst
     d e i ∧ w = decodeLoop (s.fetch d e i) ∧ a = x.accOf w ∧ k = s.stateBase d x + bitsOf w.field 14 0 ∧ s.Issues d e i .sts) ∧
    (∃ (s : State) (d e i : Nat) (x : Inst) (w : Word5) (a : Int) (k : Nat), s.shaped = true ∧ (s.die d).le.inst.length = 48 ∧ x = s.inst
     d e i ∧ w = decodeLoop (s.fetch d e i) ∧ a = x.accOf w ∧ k = s.stateBase d x + bitsOf w.field 14 0 ∧ s.Issues d e i .dly) ∧
    (∃ (s : State) (d e i : Nat) (x : Inst) (w : Word5) (a : Int) (k : Nat), s.shaped = true ∧ (s.die d).le.inst.length = 48 ∧ x = s.inst
     d e i ∧ w = decodeLoop (s.fetch d e i) ∧ a = x.accOf w ∧ k = s.stateBase d x + bitsOf w.field 14 0 ∧ s.Issues d e i .flag) ∧
    (∃ (s : State) (d e i : Nat) (x : Inst) (w : Word5) (a : Int) (k : Nat) (v t r : Int), s.shaped = true ∧ (s.die d).le.inst.length = 48
     ∧ x = s.inst d e i ∧ w = decodeLoop (s.fetch d e i) ∧ a = x.accOf w ∧ k = s.stateBase d x + bitsOf w.field 14 0 ∧ s.Issues d e i .spt
     ∧ v = (s.stateAt d x (bitsOf w.field 14 0)).toInt ∧ t = (x.sp.getD (bitsOf w.field 16 15) 0).toInt ∧ r = min 32767 (x.wsOf w).natAbs) ∧
    (∃ (s : State) (d e i : Nat) (x : Inst) (w : Word5) (a : Int) (k : Nat) (r : Int × Bool), s.shaped = true ∧ (s.die d).le.inst.length =
     48 ∧ x = s.inst d e i ∧ w = decodeLoop (s.fetch d e i) ∧ a = x.accOf w ∧ k = s.stateBase d x + bitsOf w.field 14 0 ∧ s.Issues d e i
     .intg ∧ r = integrate ((s.stateAt d x (bitsOf w.field 14 0)).toInt * 2 ^ 16 + (s.stateAt d x (bitsOf w.field 14 0 + 1)).toNat + a)
     (x.ws2Of w) (x.wsOf w)) ∧
    (∃ (s : State) (d : Nat) (x : Store), s.shaped = true ∧ s.DueOnly d ∧ s.storesDue d = [x] ∧ s.endsDue d = [] ∧ ((∀ h ∈ (s.die
     d).le.hostW, h.1 = x.addr → h.2 + 2 < x.tick))) ∧
    (∃ (s : State) (d : Nat) (x : Store), s.shaped = true ∧ s.DueOnly d ∧ s.storesDue d = [x] ∧ s.endsDue d = [] ∧ ((∃ h ∈ (s.die
     d).le.hostW, h.1 = x.addr ∧ x.tick ≤ h.2 + 2))) ∧
    (∃ (s : State) (d : Nat) (x : Store), s.shaped = true ∧ s.DueOnly d ∧ s.storesDue d = [x] ∧ s.endsDue d = []) ∧
    (∃ (s : State) (d : Nat) (x y : Store), s.shaped = true ∧ s.DueOnly d ∧ s.storesDue d = [x, y] ∧ s.endsDue d = [] ∧ x.slot ≠ y.slot) :=
  ⟨⟨looped (iw 3 1 4 0 4), 1, 5, 7, _, _, _, _, by decide +kernel, by decide +kernel, rfl, rfl, rfl, rfl,
    by unfold State.Issues; decide +kernel⟩,
   ⟨looped (iw 4 1 4 0 4), 1, 5, 7, _, _, _, _, by decide +kernel, by decide +kernel, rfl, rfl, rfl, rfl,
    by unfold State.Issues; decide +kernel⟩,
   ⟨looped (iw 19 1 4 0 4), 1, 5, 7, _, _, _, _, by decide +kernel, by decide +kernel, rfl, rfl, rfl, rfl,
    by unfold State.Issues; decide +kernel⟩,
   ⟨looped (iw 27 1 4 0 4) fun x => { x with v := true, n := true }, 1, 5, 7, _, _, _, _, by decide +kernel, by decide +kernel, rfl, rfl,
    rfl, rfl, by unfold State.Issues; decide +kernel⟩,
   ⟨looped (iw 26 1 4 0 4), 1, 5, 7, _, _, _, _, _, _, _, by decide +kernel, by decide +kernel, rfl, rfl, rfl, rfl,
    by unfold State.Issues; decide +kernel, rfl, rfl, rfl⟩,
   ⟨looped (iw 18 1 4 0 4), 1, 5, 7, _, _, _, _, _, by decide +kernel, by decide +kernel, rfl, rfl, rfl, rfl,
    by unfold State.Issues; decide +kernel, rfl⟩,
   ⟨(hdu .run 96).ben 1 5 |>.onDie 1 (fun x => { x with le := { x.le with stores := [⟨94, 5, 104, 0x8123⟩] } }), 1, ⟨94, 5, 104, 0x8123⟩,
    by decide +kernel, lone (by decide +kernel) (by decide +kernel) (fun _ => ⟨rfl, rfl⟩), by decide +kernel⟩,
   ⟨(hdu .run 96).ben 1 5 |>.onDie 1 (fun x => { x with le := { x.le with stores := [⟨94, 5, 104, 0x8123⟩], hostW := [(104, 93)] } }), 1,
    ⟨94, 5, 104, 0x8123⟩, by decide +kernel, lone (by decide +kernel) (by decide +kernel) (fun _ => ⟨rfl, rfl⟩), by decide +kernel⟩,
   ⟨(hdu .run 96).ben 1 5 |>.onDie 1 (fun x => { x with le := { x.le with stores := [⟨94, 5, 104, 0x8123⟩] } }), 1, ⟨94, 5, 104, 0x8123⟩,
    by decide +kernel, lone (by decide +kernel) (by decide +kernel) (fun _ => ⟨rfl, rfl⟩), by decide +kernel⟩,
   ⟨(hdu .run 96).ben 1 5 |>.onDie 1 (fun x => { x with le := { x.le with stores := [⟨94, 5, 104, 0x8123⟩, ⟨94, 6, 104, 7⟩] } }), 1, ⟨94,
    5, 104, 0x8123⟩, ⟨94, 6, 104, 7⟩, by decide +kernel, lone (by decide +kernel) (by decide +kernel) (fun _ => ⟨rfl, rfl⟩),
    by decide +kernel⟩⟩

theorem test_hypotheses_of_end_of_run :
    (∃ (s : State) (d e i : Nat) (c : Instr), s.shaped = true ∧ (s.die d).le.inst.length = 48 ∧ s.Issues d e i .stop ∧ ((c = .endRun d e i
     ∧ isInvalid (s.fetch d e i) = false ∨ c = .invalidInstruction d e i ∧ isInvalid (s.fetch d e i) = true))) ∧
    (∃ (s : State) (d e i : Nat) (x : Inst), s.shaped = true ∧ (s.die d).le.inst.length = 48 ∧ e < 6 ∧ i < 8 ∧ x = s.inst d e i ∧
     s.DueOnly d ∧ s.storesDue d = [] ∧ s.endsDue d = [(e, i)]) :=
  ⟨⟨looped (iw 63 0 0 0 0), 1, 5, 7, .endRun 1 5 7, by decide +kernel, by decide +kernel, by unfold State.Issues; decide +kernel,
    by decide +kernel⟩,
   ⟨looped (iw 63 0 0 0 0) (fun x => { x with ending := true, first := -160 }), 1, 5, 7, _, by decide +kernel, by decide +kernel,
    by decide +kernel, by decide +kernel, rfl, lone (by decide +kernel) (by decide +kernel) (fun _ => ⟨rfl, rfl⟩), by decide +kernel⟩⟩

theorem test_hypotheses_of_edge_planner :
    (∃ (s : State) (d : Nat) (q : PReq) (fails : List (Nat × Bool)), s.shaped = true ∧ s.sane = true ∧ s.isHead = true ∧ s.on d 6 = true ∧
     (s.die d).ep.asked = some q ∧ (s.die d).ep.running = none ∧ (s.membersIn d = true ∨ q.swapAt + 256 ≤ s.td0) ∧ s.epRole d = 1) ∧
    (∃ (s : State) (d : Nat) (q : PReq) (fails : List (Nat × Bool)), s.shaped = true ∧ s.sane = true ∧ s.isHead = true ∧ s.on d 6 = true ∧
     (s.die d).ep.asked = some q ∧ (s.die d).ep.running = none ∧ (s.membersIn d = true ∨ q.swapAt + 256 ≤ s.td0) ∧ s.epRole d ≠ 1) ∧
    (∃ (s : State) (d : Nat) (fails : List (Nat × Bool)), s.sane = true ∧ ((s.die d).ep.asked = none ∨ (s.die d).ep.running ≠ none ∨
     (s.membersIn d = false ∧ ∀ q, (s.die d).ep.asked = some q → s.td0 < q.swapAt + 256))) ∧
    (∃ (s : State) (d : Nat) (x : Running), s.shaped = true ∧ s.sane = true ∧ s.isHead = true ∧ s.on d 6 = true ∧ (s.die d).ep.running =
     some x ∧ x.nAct ≤ 128) ∧
    (∃ (s : State) (d r : Nat) (m : MTransfer), s.shaped = true ∧ s.sane = true ∧ s.isHead = true ∧ s.on d 6 = true ∧ (s.die
     d).ep.out.find? (fun t => t.slot == r) = some m ∧ s.blockEn d 0x10 = true ∧ ((∃ i, s.names d m.die i)) ∧ ((∀ i, s.names d m.die i →
     s.sentNow d i < s.rd d Fd.RES_ENTRY.SHARE i))) ∧
    (∃ (s : State) (d r : Nat) (m : MTransfer), s.shaped = true ∧ s.sane = true ∧ s.isHead = true ∧ s.on d 6 = true ∧ (s.die
     d).ep.out.find? (fun t => t.slot == r) = some m ∧ s.blockEn d 0x10 = true ∧ ((∃ i, s.names d m.die i ∧ s.rd d Fd.RES_ENTRY.SHARE i ≤
     s.sentNow d i))) ∧
    (∃ (s : State) (d r : Nat) (m : MTransfer), s.shaped = true ∧ s.sane = true ∧ s.isHead = true ∧ s.on d 6 = true ∧ (s.die
     d).ep.out.find? (fun t => t.slot == r) = some m ∧ ((∀ i, ¬s.names d m.die i) ∨ s.blockEn d 0x10 = false)) ∧
    (∃ (s : State) (d r : Nat), s.sane = true ∧ (∀ m ∈ (s.die d).ep.out, m.slot ≠ r)) :=
  ⟨⟨((hdu .run 300).ben 1 6).fld 1 Fd.EP_CFG.ROLE 1 |>.fld 1 Fd.EP_WIN.W 0x1000 |>.fld 1 Fd.EP_GROUP.W 0x81 |>.onDie 1 (fun x =>
    { x with ep := { x.ep with asked := some ⟨0x100000, 0x900000, 44⟩ } }), 1, ⟨0x100000, 0x900000, 44⟩, [], by decide +kernel⟩,
   ⟨((hdu .run 300).ben 1 6).onDie 1 (fun x => { x with ep := { x.ep with asked := some ⟨0x100000, 0x900000, 44⟩ } }), 1, ⟨0x100000,
    0x900000, 44⟩, [], by decide +kernel⟩,
   ⟨(hdu .run 300).ben 1 6, 1, [], by decide +kernel⟩,
   ⟨((hdu .run 300).ben 1 6).onDie 1 (fun x =>
    { x with ep := { x.ep with running := some ⟨0x100, 0x900, 100, 3, 20, 0, [⟨5, [⟨false, 1, 0x200⟩], 1, some 0x200, true⟩, ⟨6, [], 0, none, false⟩], 1, true, some 5, true⟩, waiting := some ⟨1, 2, 3⟩ } }),
    1, ⟨0x100, 0x900, 100, 3, 20, 0, [⟨5, [⟨false, 1, 0x200⟩], 1, some 0x200, true⟩, ⟨6, [], 0, none, false⟩], 1, true, some 5, true⟩,
    by decide +kernel⟩,
   ⟨sending 0x80011001#32, 1, 2, sent, by decide +kernel, by decide +kernel, by decide +kernel, by decide +kernel, by decide +kernel,
    by decide +kernel, ⟨3, by unfold State.names; decide +kernel⟩,
    by intro i h; have hi := h.1; revert h; unfold State.names; revert i; decide +kernel⟩,
   ⟨sending 0x80001001#32, 1, 2, sent, by decide +kernel, by decide +kernel, by decide +kernel, by decide +kernel, by decide +kernel,
    by decide +kernel, ⟨3, by unfold State.names; decide +kernel⟩⟩,
   ⟨sending 0#32, 1, 2, sent, by decide +kernel, by decide +kernel, by decide +kernel, by decide +kernel, by decide +kernel, .inl
    (by intro i h; have hi := h.1; revert h; unfold State.names; revert i; decide +kernel)⟩,
   ⟨hdu .run, 1, 2, by decide +kernel⟩⟩

theorem test_hypotheses_of_ring_links :
    (∃ (s : State) (d : Nat) (r : Ring) (seen : List Sight), s.shaped = true ∧ s.on d 7 = true ∧ (64 ≤ seen.length ∧ (∀ x ∈ seen.take 64,
     x = .good ∨ x = .stomped true) ∧ s.rxIsUp d r = false)) ∧
    (∃ (s : State) (d : Nat) (r : Ring) (seen : List Sight), s.shaped = true ∧ s.on d 7 = true ∧ s.rxIsUp d r = true ∧ ((∃ x ∈ seen.head?,
     x = .noLock ∨ x = .noSignal) ∨ (8 ≤ seen.length ∧ ∀ x ∈ seen.take 8, x ≠ .good ∧ x ≠ .stomped true))) ∧
    (∃ (s : State) (d : Nat) (r : Ring) (seen : List Sight), s.shaped = true ∧ s.on d 7 = true ∧ (s.rxIsUp d r = true ∨ comesUp seen =
     false)) ∧
    (∃ (s : State) (d : Nat) (r : Ring) (seen : List Sight), s.shaped = true ∧ s.on d 7 = true ∧ (s.rxIsUp d r = false ∨ goesDown seen =
     false)) ∧
    (∃ (s : State) (r : Ring), s.shaped = true ∧ s.isHead = false ∧ s.on 0 7 = true ∧ s.rxIsUp 0 r = false ∧ s.td0 % 128 = 0 ∧ ((∀ x ∈
     s.node.tx, x.ring = r → x.tick ≠ s.td0))) ∧
    (∃ (s : State) (d k : Nat) (r : Ring), s.shaped = true ∧ s.isHead = true ∧ s.ringMode d ≠ 0 ∧ 1 ≤ k ∧ k ≤ 33) ∧
    (∃ (s : State) (d k : Nat) (r : Ring), s.shaped = true ∧ s.sane = true ∧ s.isHead = true ∧ s.ringMode d ≠ 0 ∧ 1 ≤ k ∧ k ≤ 33 ∧
     s.breakOver d r k = true) ∧
    (∃ (s : State) (d k : Nat) (r : Ring), s.shaped = true ∧ s.sane = true ∧ s.isHead = true ∧ s.ringMode d ≠ 0 ∧ 1 ≤ k ∧ k ≤ 33 ∧
     s.breakOver d r k = false) :=
  ⟨⟨(hdu .run 500).ben 1 7, 1, .b, List.replicate 63 .good ++ [.stomped true, .badCrc], by decide +kernel⟩,
   ⟨(hdu .run 500).ring 1 3 4 (fun h => { h with rxUp := (true, true) }), 1, .b, List.replicate 7 .badCrc ++ [.stomped false],
    by decide +kernel⟩,
   ⟨(hdu .run 500).ben 1 7, 1, .b, List.replicate 63 .good, by decide +kernel⟩,
   ⟨(hdu .run 500).ring 1 3 4 (fun h => { h with rxUp := (true, true) }), 1, .b, List.replicate 7 .badCrc, by decide +kernel⟩,
   ⟨((ndu .run 512).way 3).onNode (fun n => { n with rxUp := (true, false) }), .b, by decide +kernel⟩,
   ⟨(hdu .run 500).ring 1 3 4, 1, 33, .b, by decide +kernel⟩,
   ⟨(hdu .run 800500).ring 1 1 4 (fun h => { h with breakB := [(32, 500)] }) |>.fld 1 (linkFld2 .b 32) 0, 1, 32, .b, by decide +kernel⟩,
   ⟨(hdu .run 800499).ring 1 1 4 (fun h => { h with breakB := [(32, 500)] }), 1, 32, .b, by decide +kernel⟩⟩

theorem test_hypotheses_of_waystation_passes :
    (∃ (s : State) (r : Ring) (b : RingBlock), s.shaped = true ∧ s.sane = true ∧ s.isHead = false ∧ s.on 0 7 = true ∧ s.rxIsUp 0 r = true
     ∧ goodBlock b = false) ∧
    (∃ (s : State) (r : Ring) (b : RingBlock), s.shaped = true ∧ s.sane = true ∧ s.isHead = false ∧ s.on 0 7 = true ∧ s.rxIsUp 0 r = true
     ∧ goodBlock b = true) ∧
    (∃ (s : State) (r : Ring) (b : RingBlock), s.sane = true ∧ s.rxIsUp 0 r = false) ∧
    (∃ (s : State), s.sized = true ∧ s.silentDue = true) ∧
    (∃ (s : State), s.shaped = true ∧ s.sane = true ∧ s.isHead = false ∧ s.alive 0 = true ∧ s.ringBlock = true ∧ s.flag 0
     Fd.RING_STATUS.SILENT = false ∧ s.trusted = true ∧ s.node.stateSeen = true) ∧
    (∃ (s : State) (d n : Nat) (src : Byte) (b : RingBlock), s.shaped = true ∧ s.sane = true ∧ s.isHead = true ∧ s.on d 7 = true ∧
     goodBlock b = true ∧ b.sa = true ∧ bitOf b.alert.toNat 15 = true ∧ n = bitsOf b.alert.toNat 12 8 + 1 ∧ src = BitVec.ofNat 8
     b.alert.toNat ∧ ((∃ e ∈ (s.head d).alerts, e.1 = n ∧ e.2.1 = src))) ∧
    (∃ (s : State) (d n : Nat) (src : Byte) (b : RingBlock), s.shaped = true ∧ s.sane = true ∧ s.isHead = true ∧ s.on d 7 = true ∧
     goodBlock b = true ∧ b.sa = true ∧ bitOf b.alert.toNat 15 = true ∧ n = bitsOf b.alert.toNat 12 8 + 1 ∧ src = BitVec.ofNat 8
     b.alert.toNat ∧ ((¬∃ e ∈ (s.head d).alerts, e.1 = n ∧ e.2.1 = src))) :=
  ⟨⟨(ndu .run 512).way 3, .a, badCrc (rb 0 6 0 0xFE 5 []), by decide +kernel⟩,
   ⟨(ndu .run 512).way 3, .a, rb 0 6 0 0xFE 5 [1, 2, 3], by decide +kernel⟩,
   ⟨(ndu .run 512).ben 0 7, .a, rb 0 6 0 0xFE 5 [], by decide +kernel⟩,
   ⟨((ndu .run 16000).way 3 (fun n => { n with lastHm := 0 })).ben 0 8 |>.onDie 0 (fun x =>
    { x with bg := { x.bg with bridge := x.bg.bridge.map fun b => { b with cur := some ⟨1, [], 9⟩ } } }), by decide +kernel⟩,
   ⟨((ndu .run 16000).way 3 (fun n => { n with silentAt := some 9, stateSeen := true })).ben 0 8, by decide +kernel⟩,
   ⟨((hdu .run 512).ring 1 3 4 (fun h => { h with alerts := [(3, 0x42, 5)] })), 1, 3, 0x42, rb 0 0 0 0xFE 5 [] 0x8242, by decide +kernel⟩,
   ⟨((hdu .run 512).ring 1 3 4 (fun h => { h with alerts := [(3, 0x42, 5)] })), 1, 32, 0x42, rb 0 0 0 0xFE 5 [] 0x9F42,
    by decide +kernel⟩⟩

theorem test_hypotheses_of_head_sends :
    (∃ (s : State) (d : Nat), s.shaped = true ∧ s.sane = true ∧ s.slotOpen d = true ∧ s.syncDue d = true ∧ s.firstBlockDue d = false ∧
     s.carries d = false) ∧
    (∃ (s : State) (d : Nat), s.shaped = true ∧ s.sane = true ∧ s.slotOpen d = true ∧ s.delayDue d = true ∧ s.syncDue d = false ∧
     s.blockDue d = false ∧ s.carries d = false) ∧
    (∃ (s : State) (d code at_ : Nat) (rest : List (Nat × Nat)), s.shaped = true ∧ s.sane = true ∧ s.slotOpen d = true ∧ s.stateDue d =
     true ∧ s.syncDue d = false ∧ s.delayDue d = false ∧ s.blockDue d = false ∧ s.assigned d = none ∧ (s.head d).stateOut = (code, at_) ::
     rest) ∧
    (∃ (s : State) (d : Nat) (b : BlockTx), s.shaped = true ∧ s.sane = true ∧ s.slotOpen d = true ∧ s.blockDue d = true ∧ (s.head
     d).blockOut = some b ∧ (s.firstBlockDue d = true ∨ (s.syncDue d = false ∧ s.carries d = false))) ∧
    (∃ (s : State) (d : Nat) (a : SlotAsg), s.shaped = true ∧ s.sane = true ∧ s.slotOpen d = true ∧ s.assigned d = some a ∧ s.ringMode d =
     3 ∧ s.firstBlockDue d = false) ∧
    (∃ (s : State) (d : Nat), s.shaped = true ∧ s.sane = true ∧ s.slotOpen d = true ∧ s.assigned d = none ∧ s.enumDue d = true ∧
     s.blockDue d = false ∧ s.syncDue d = false ∧ s.delayDue d = false ∧ s.stateDue d = false) ∧
    (∃ (s : State) (d : Nat), s.sane = true ∧ s.slotOpen d = false) ∧
    (∃ (s : State) (d : Nat), s.sane = true ∧ s.slotOpen d = false) ∧
    (∃ (s : State) (d : Nat), s.sane = true ∧ s.slotOpen d = false) ∧
    (∃ (s : State) (d : Nat), s.sane = true ∧ s.slotOpen d = false) ∧
    (∃ (s : State) (d : Nat), s.sane = true ∧ s.slotOpen d = false) :=
  ⟨⟨(hdu .run 8192).ring 1 3 4 (fun h => { h with lastSync := 1, lastDelay := 1, acks := [(.a, 7), (.b, 8)] }), 1, by decide +kernel⟩,
   ⟨(hdu .run 1024).ring 1 2 4 (fun h => { h with lastSync := 1, lastDelay := 0, dseq := 255 }), 1, by decide +kernel⟩,
   ⟨(hdu .run 1024).ring 1 2 4 (fun h => { h with lastSync := 1, lastDelay := 1, stateOut := [(5, 1008), (4, 9)] }), 1, 5, 1008, [(4,
    9)], by decide +kernel⟩,
   ⟨(hdu .run 1024).ring 1 3 4 (fun h =>
    { h with lastSync := 0, lastDelay := 1, blockOut := some ⟨0x123, 55, 4, 1000⟩, slots := [⟨1024, 5, 3, []⟩, ⟨1536, 4, 0, []⟩] }), 1,
    ⟨0x123, 55, 4, 1000⟩, by decide +kernel⟩,
   ⟨(hdu .run 1024).ring 1 3 4 (fun h => { h with lastSync := 1, lastDelay := 1, slots := [⟨1024, 5, 3, [1, 2]⟩, ⟨1536, 6, 0, []⟩] }), 1,
    ⟨1024, 5, 3, [1, 2]⟩, by decide +kernel⟩,
   ⟨(hdu .run 1024).ring 1 2 4 (fun h => { h with lastSync := 1, lastDelay := 1, enumWait := [9] }), 1, by decide +kernel⟩,
   ⟨(hdu .run 1025).ring 1 3 4, 1, by decide +kernel⟩,
   ⟨(hdu .run 1025).ring 1 3 4, 1, by decide +kernel⟩,
   ⟨(hdu .run 1025).ring 1 3 4, 1, by decide +kernel⟩,
   ⟨(hdu .run 1025).ring 1 3 4, 1, by decide +kernel⟩,
   ⟨(ndu .run 1024), 0, by decide +kernel⟩⟩

theorem test_hypotheses_of_head_receives :
    (∃ (s : State) (d : Nat) (q : Byte) (a b : Nat), s.shaped = true ∧ s.sane = true ∧ s.isHead = true ∧ s.on d 7 = true ∧ (s.head
     d).delayOut = some q ∧ (s.stampAt d a + s.stampAt d b) / 2 < 65536) ∧
    (∃ (s : State) (d : Nat) (q : Byte) (la lb : Option Nat), s.shaped = true ∧ s.sane = true ∧ s.isHead = true ∧ s.on d 7 = true ∧
     (s.head d).delayOut = some q ∧ (la = none ∨ lb = none)) ∧
    (∃ (s : State) (d : Nat), s.shaped = true ∧ s.sane = true ∧ s.isHead = true ∧ s.alive d = true ∧ s.rd d Fd.RING_CTRL.MODE = 3) ∧
    (∃ (s : State) (d : Nat), s.shaped = true ∧ s.sane = true ∧ s.isHead = true ∧ s.alive d = true ∧ s.rd d Fd.RING_CTRL.MODE ≠ 3 ∧
     s.ringMode d = 2 ∧ s.ringWhole d .a = true ∧ s.ringWhole d .b = true) ∧
    (∃ (s : State) (d : Nat), s.shaped = true ∧ s.sane = true ∧ s.isHead = true ∧ s.alive d = true ∧ s.rd d Fd.RING_CTRL.MODE ≠ 3 ∧
     ¬(s.ringMode d = 2 ∧ s.ringWhole d .a = true ∧ s.ringWhole d .b = true)) ∧
    (∃ (s : State) (d : Nat) (ca cb : Option (Nat × Nat)), s.shaped = true ∧ s.sane = true ∧ s.isHead = true ∧ s.on d 7 = true ∧ (s.head
     d).enumOut ≠ 0) ∧
    (∃ (s : State) (d returned : Nat) (cid : Byte) (c : Caravan) (results : List Word), s.shaped = true ∧ s.sane = true ∧ s.isHead = true
     ∧ s.on d 7 = true ∧ (s.head d).caravans.find? (fun c => c.cid == cid) = some c ∧ returned < 2 * c.blocks ∧ s.td0 < c.lastStart +
     16000) ∧
    (∃ (s : State) (d returned : Nat) (cid : Byte) (c : Caravan) (results : List Word), s.shaped = true ∧ s.sane = true ∧ s.isHead = true
     ∧ s.on d 7 = true ∧ (s.head d).caravans.find? (fun c => c.cid == cid) = some c ∧ (2 * c.blocks ≤ returned ∨ c.lastStart + 16000 ≤
     s.td0) ∧ c.blocks ≤ 15) :=
  ⟨⟨(hdu .run 1024).ring 1 3 4 (fun h => { h with delayOut := some 255 }), 1, 255, 65536, 65535, by decide +kernel⟩,
   ⟨(hdu .run 1024).ring 1 3 4 (fun h => { h with delayOut := some 255 }), 1, 255, none, some 65535, by decide +kernel⟩,
   ⟨(hdu .run 1024).ring 1 3 4, 1, by decide +kernel⟩,
   ⟨(hdu .run 1024).ring 1 2 4, 1, by decide +kernel⟩,
   ⟨(hdu .run 1024).ring 1 2 4 |>.fld 1 (linkFld2 .a 33) 0, 1, by decide +kernel⟩,
   ⟨(hdu .run 1024).ring 1 2 4 (fun h => { h with enumOut := 2 }), 1, some (32, 5), some (6, 32), by decide +kernel⟩,
   ⟨(hdu .run 16023).ring 1 3 4 (fun h => { h with caravans := [⟨7, 2, 5, 24⟩] }), 1, 3, 7, ⟨7, 2, 5, 24⟩, [1], by decide +kernel⟩,
   ⟨(hdu .run 16024).ring 1 3 4 (fun h => { h with caravans := [⟨7, 2, 0x80000005, 24⟩] }), 1, 3, 7, ⟨7, 2, 0x80000005, 24⟩, [1],
    by decide +kernel⟩⟩

theorem test_hypotheses_of_node_hears :
    (∃ (s : State) (r : Ring) (b : RingBlock) (arr : Nat), s.shaped = true ∧ s.sane = true ∧ s.hearsA b 0 = true ∧ s.node.syncSeq = some
     b.seq ∧ s.node.syncIdx = field8 b 0 8 / 8000) ∧
    (∃ (s : State) (r : Ring) (b : RingBlock) (arr : Nat), s.shaped = true ∧ s.sane = true ∧ s.hearsA b 0 = true ∧ ¬(s.node.syncSeq = some
     b.seq ∧ s.node.syncIdx = field8 b 0 8 / 8000)) ∧
    (∃ (s : State) (r : Ring) (b : RingBlock) (arr : Nat) (rr e : Int), s.shaped = true ∧ s.sane = true ∧ s.hearsA b 0 = true ∧
     ¬(s.node.syncSeq = some b.seq ∧ s.node.syncIdx = field8 b 0 8 / 8000) ∧ field8 b 8 2 = 0xFFFF ∧ s.node.l = none ∧ DevState.ofCode
     (field8 b 11 1 % 16) = some s.device ∧ ofPair r (s.node.ra, s.node.rb) = some rr ∧ e = (field8 b 0 8 : Int) * 8 + rr - s.stampAt 0
     arr ∧ satS 16 e = e) ∧
    (∃ (s : State) (b : RingBlock) (q : Byte) (arrA arrB : Nat) (a c : Int), s.shaped = true ∧ s.sane = true ∧ s.hearsA b 1 = true ∧ q =
     BitVec.ofNat 8 (field8 b 0 1) ∧ a = s.stampAt 0 arrA ∧ c = s.stampAt 0 arrB ∧ ((∀ x, s.node.dOpen = some x → x.1 ≠ q))) ∧
    (∃ (s : State) (b : RingBlock) (q : Byte) (arrA arrB : Nat) (a c : Int), s.shaped = true ∧ s.sane = true ∧ s.hearsA b 1 = true ∧ q =
     BitVec.ofNat 8 (field8 b 0 1) ∧ a = s.stampAt 0 arrA ∧ c = s.stampAt 0 arrB ∧ ((∀ x, s.node.dOpen = some x → x.1 ≠ q))) ∧
    (∃ (s : State) (b : RingBlock) (q : Byte) (arrA arrB : Nat) (a c : Int), s.shaped = true ∧ s.sane = true ∧ s.hearsA b 1 = true ∧ q =
     BitVec.ofNat 8 (field8 b 0 1) ∧ a = s.stampAt 0 arrA ∧ c = s.stampAt 0 arrB ∧ satS 16 ((c : Int) - a) = (c : Int) - a ∧ s.node.dOpen
     = some (q, some a, none)) ∧
    (∃ (s : State) (b : RingBlock) (q : Byte) (arrA arrB : Nat) (a c : Int), s.shaped = true ∧ s.sane = true ∧ s.hearsA b 1 = true ∧ q =
     BitVec.ofNat 8 (field8 b 0 1) ∧ a = s.stampAt 0 arrA ∧ c = s.stampAt 0 arrB ∧ satS 16 ((c : Int) - a) = (c : Int) - a ∧ s.node.dOpen
     = some (q, none, some c)) ∧
    (∃ (s : State) (b : RingBlock) (code : Nat), s.shaped = true ∧ s.sane = true ∧ s.hearsA b 3 = true ∧ code = field8 b 0 1 % 16 ∧ ((∃ e
     ∈ s.node.got, e.1 = b.seq ∧ (s.td0 : Int) < e.2 + 16000))) ∧
    (∃ (s : State) (b : RingBlock) (code : Nat), s.shaped = true ∧ s.sane = true ∧ s.hearsA b 3 = true ∧ code = field8 b 0 1 % 16 ∧ ((¬∃ e
     ∈ s.node.got, e.1 = b.seq ∧ (s.td0 : Int) < e.2 + 16000)) ∧ (code < 3 ∨ s.device = .boot ∨ DevState.ofCode code = none ∨
     DevState.ofCode code = some s.device)) ∧
    (∃ (s : State) (b : RingBlock) (code : Nat) (new : DevState), s.shaped = true ∧ s.sane = true ∧ s.hearsA b 3 = true ∧ code = field8 b
     0 1 % 16 ∧ ((¬∃ e ∈ s.node.got, e.1 = b.seq ∧ (s.td0 : Int) < e.2 + 16000)) ∧ DevState.ofCode code = some new ∧ 3 ≤ code ∧ s.device ≠
     .boot ∧ new ≠ s.device ∧ ((s.device = .config → s.loadsOk 0 = true))) ∧
    (∃ (s : State) (b : RingBlock), s.sized = true ∧ s.hearsA b 2 = true ∧ ((∃ e ∈ s.node.got, e.1 = b.seq ∧ (s.td0 : Int) < e.2 + 16000))) ∧
    (∃ (s : State) (b : RingBlock), s.sized = true ∧ s.hearsA b 2 = true ∧ ((¬∃ e ∈ s.node.got, e.1 = b.seq ∧ (s.td0 : Int) < e.2 +
     16000))) :=
  ⟨⟨(ndu .run 8200).way 3 (fun n => { n with syncSeq := some 5, syncIdx := 1 }), .a, rb 0 0 0 0xFE 5 (beBytes 8 8192), 9,
    by decide +kernel⟩,
   ⟨(ndu .run 8200).way 3 (fun n => { n with syncSeq := some 5, syncIdx := 0, ra := some 77, timeSet := true }), .a, rb 0 0 0 0xFE 5
    (beBytes 8 8192 ++ [0, 100, 3, 6, 9] ++ beBytes 5 0x1FFFFFFFF ++ beBytes 5 5 ++ [3]), 66000, by decide +kernel⟩,
   ⟨((ndu .run 8200).way 3 (fun n => { n with syncSeq := some 5, syncIdx := 0, syncAt := some 3, ra := some 77, timeSet := true })).fld 0
    Fd.RING_STATUS.TRUSTED 0 |>.fld 0 Fd.NODE_TIME.AGREE 1, .a, rb 0 0 0 0xFE 6 (beBytes 8 8192 ++ [255, 255, 3, 5, 9]), 8192 * 8 + 77 +
    15, 77, _, by decide +kernel, by decide +kernel, by decide +kernel, by decide +kernel, by decide +kernel, by decide +kernel,
    by decide +kernel, by decide +kernel, rfl, by decide +kernel⟩,
   ⟨(ndu .run 8200).way 3, rb 0 1 0 0xFE 6 [9], 9, 1000, 900, _, _, by decide +kernel, by decide +kernel, by decide +kernel,
    by decide +kernel, rfl, rfl, by decide +kernel⟩,
   ⟨(ndu .run 8200).way 3, rb 0 1 0 0xFE 6 [9], 9, 1000, 900, _, _, by decide +kernel, by decide +kernel, by decide +kernel,
    by decide +kernel, rfl, rfl, by decide +kernel⟩,
   ⟨(ndu .run 8200).way 3 (fun n => { n with dOpen := some (9, some 40000, none) }), rb 0 1 0 0xFE 6 [9], 9, 40000, 7232, _, _,
    by decide +kernel, by decide +kernel, by decide +kernel, by decide +kernel, rfl, rfl, by decide +kernel⟩,
   ⟨(ndu .run 8200).way 3 (fun n => { n with dOpen := some (9, none, some 7232) }), rb 0 1 0 0xFE 6 [9], 9, 40000, 7232, _, _,
    by decide +kernel, by decide +kernel, by decide +kernel, by decide +kernel, rfl, rfl, by decide +kernel⟩,
   ⟨(ndu .run 8200).way 3 (fun n => { n with got := [(6, 8000)] }), rb 0 3 0 0xFE 6 [5], 5, by decide +kernel⟩,
   ⟨(ndu .run 8200).way 3 (fun n => { n with silentAt := some 8 }), rb 0 3 0 0xFE 6 [5], 5, by decide +kernel⟩,
   ⟨(ndu .config 8200).way 3, rb 0 3 0 0xFE 6 [5], 5, .run, by decide +kernel⟩,
   ⟨(ndu .run 8200).way 3 (fun n => { n with got := [(6, 8000)] }), rb 0 2 0 0xFE 6 [5], by decide +kernel⟩,
   ⟨(ndu .run 8200).way 3, rb 0 2 0 0xFE 6 ([0xF1, 0x23] ++ beBytes 8 8000), by decide +kernel⟩⟩

theorem test_hypotheses_of_caravans_and_set_points :
    (∃ (s : State) (r : Ring) (b : RingBlock) (m : Nat × Nat × Bool × List MEdge) (cid : Byte) (base : Int), s.shaped = true ∧ s.sane =
     true ∧ s.hearsA b 5 = true ∧ s.number ≠ 0 ∧ s.trusted = true ∧ s.device.switching = true ∧ manifestsOf b = [m] ∧ m.1 = s.number ∧
     s.manifestOk m = true ∧ cid = BitVec.ofNat 8 (field8 b 0 1) ∧ base = (nearestTo (2 ^ 40) (field8 b 2 5) s.td0 : Nat) * 8 ∧ m.2.1 <
     (s.die 0).bg.bridge.length ∧ (s.node.cids.filter fun e => decide ((s.td0 : Int) < e.2.2 + 16000)).any (fun e => e.1 == cid && e.2.1
     == m.2.1) = false ∧ (((s.bridge m.2.1).cur = none → ∀ e ∈ m.2.2.2, ((s.td0 : Int) + 16) * 8 ≤ base + e.stamp))) ∧
    (∃ (s : State) (r : Ring) (b : RingBlock) (m : Nat × Nat × Bool × List MEdge) (cid : Byte) (base : Int), s.shaped = true ∧ s.sane =
     true ∧ s.hearsA b 5 = true ∧ s.number ≠ 0 ∧ s.trusted = true ∧ s.device.switching = true ∧ manifestsOf b = [m] ∧ m.1 = s.number ∧
     s.manifestOk m = true ∧ cid = BitVec.ofNat 8 (field8 b 0 1) ∧ base = (nearestTo (2 ^ 40) (field8 b 2 5) s.td0 : Nat) * 8 ∧ m.2.1 <
     (s.die 0).bg.bridge.length ∧ (s.node.cids.filter fun e => decide ((s.td0 : Int) < e.2.2 + 16000)).any (fun e => e.1 == cid && e.2.1
     == m.2.1) = true) ∧
    (∃ (s : State) (r : Ring) (b : RingBlock), s.shaped = true ∧ s.sane = true ∧ s.hearsA b 5 = true ∧ (s.number = 0 ∨ s.trusted = false ∨
     s.device.switching = false)) ∧
    (∃ (s : State) (b : RingBlock), s.shaped = true ∧ s.sane = true ∧ s.hearsA b 6 = true ∧ ((∃ e ∈ s.node.got, e.1 = b.seq ∧ (s.td0 :
     Int) < e.2 + 16000))) ∧
    (∃ (s : State) (b : RingBlock), s.shaped = true ∧ s.sane = true ∧ s.hearsA b 6 = true ∧ ((¬∃ e ∈ s.node.got, e.1 = b.seq ∧ (s.td0 :
     Int) < e.2 + 16000)) ∧ s.number ≠ 0 ∧ field8 b 0 1 = 1 ∧ field8 b 1 5 / 2 ^ 35 % 32 + 1 ≠ s.number) ∧
    (∃ (s : State) (b : RingBlock) (f : Nat) (v : BitVec 16), s.shaped = true ∧ s.sane = true ∧ s.hearsA b 6 = true ∧ ((¬∃ e ∈ s.node.got,
     e.1 = b.seq ∧ (s.td0 : Int) < e.2 + 16000)) ∧ s.number ≠ 0 ∧ field8 b 0 1 = 1 ∧ f = field8 b 1 5 / 65536 % 4096 ∧ v = BitVec.ofNat 16
     (field8 b 1 5) ∧ field8 b 1 5 / 2 ^ 35 % 32 + 1 = s.number ∧ isDown f = true ∧ f ≠ 8) :=
  ⟨⟨((ndu .run 8200).way 3).fld 0 (srcField 0) 1 |>.ben 0 8, .a, rb 0 5 0 0xFE 6 ([9, 0] ++ beBytes 5 9000 ++ [0, 0, 50, 1, 0x10, 0x10,
    0x20, 0, 7]), (3, 0, true, [⟨false, 1, 7⟩]), 9, 72000, by decide +kernel⟩,
   ⟨((ndu .run 8200).way 3 (fun n => { n with cids := [(9, 0, 8000)] })).fld 0 (srcField 0) 1 |>.ben 0 8, .a, rb 0 5 0 0xFE 6 ([9, 0] ++
    beBytes 5 9000 ++ [0, 0, 50, 1, 0x10, 0x10, 0x20, 0, 7]), (3, 0, true, [⟨false, 1, 7⟩]), 9, 72000, by decide +kernel⟩,
   ⟨((ndu .standstill 8200).way 3).fld 0 (srcField 0) 1 |>.ben 0 8, .a, rb 0 5 0 0xFE 6 ([9, 0] ++ beBytes 5 9000 ++ [0, 0, 50, 1, 0x10,
    0x10, 0x20, 0, 7]), by decide +kernel⟩,
   ⟨(ndu .run 8200).way 3 (fun n => { n with got := [(6, 8000)] }), rb 0 6 0 0xFE 6 ([1] ++ beBytes 5 ((2 * 8 * 0x1000 + 0x85) *
    0x100000000 / 0x10000)), by decide +kernel⟩,
   ⟨(ndu .run 8200).way 3, rb 0 6 0 0xFE 6 ([1] ++ beBytes 5 (4 * 2 ^ 35 + 0x85 * 65536 + 0x1234)), by decide +kernel⟩,
   ⟨(ndu .run 8200).way 3, rb 0 6 0 0xFE 6 ([1] ++ beBytes 5 (2 * 2 ^ 35 + 0x85 * 65536 + 0x1234)), 0x85, 0x1234, by decide +kernel⟩⟩

theorem test_hypotheses_of_class_b_and_c :
    (∃ (s : State) (d n cls : Nat) (b : BcBlock) (r : Ring) (delay : Nat), s.shaped = true ∧ s.sane = true ∧ s.isHead = true ∧ s.ringMode
     d = 3 ∧ s.td0 % 128 = 0 ∧ 1 ≤ n ∧ n ≤ s.nodes d ∧ s.slotOwed d = false ∧ s.shorter d n = some (r, delay) ∧ s.classNow d r = some cls
     ∧ s.frontBc d n cls = some b ∧ b.sent = none ∧ s.slotTaken d r = false) ∧
    (∃ (s : State) (d n : Nat) (b : BcBlock) (cls : Nat) (idle : TxBlock), s.shaped = true ∧ s.sane = true ∧ (cls = 1 ∨ cls = 2) ∧
     s.nodeTurn cls = some idle ∧ s.nodeFront cls = some b ∧ b.sent = none) ∧
    (∃ (s : State) (d n : Nat), s.sane = true ∧ s.isHead = true ∧ (s.ringMode d ≠ 3 ∨ s.td0 % 128 ≠ 0 ∨ n = 0 ∨ s.nodes d < n ∨ s.slotOwed
     d = true ∨ s.shorter d n = none)) ∧
    (∃ (s : State) (d n cls : Nat) (b : BcBlock) (ack : BitVec 16) (t0 : Int), s.shaped = true ∧ s.sane = true ∧ s.isHead = true ∧ s.on d
     7 = true ∧ n = bitsOf ack.toNat 11 7 + 1 ∧ cls = (if bitOf ack.toNat 12 then 2 else 1) ∧ s.frontBc d n cls = some b ∧ b.sent = some
     t0 ∧ bitOf ack.toNat 13 = false ∧ bitsOf ack.toNat 15 14 = 1 ∧ bitsOf ack.toNat 6 0 = seqOf (s.head d).txSeq n cls) ∧
    (∃ (s : State) (d n cls : Nat) (b : BcBlock) (ack : BitVec 16) (t0 : Int), s.shaped = true ∧ s.sane = true ∧ s.isHead = true ∧ s.on d
     7 = true ∧ n = bitsOf ack.toNat 11 7 + 1 ∧ cls = (if bitOf ack.toNat 12 then 2 else 1) ∧ s.frontBc d n cls = some b ∧ b.sent = some
     t0 ∧ bitOf ack.toNat 13 = false ∧ bitsOf ack.toNat 15 14 = 2 ∧ b.resends < 3) ∧
    (∃ (s : State) (d n cls : Nat) (b : BcBlock) (ack : BitVec 16) (t0 : Int), s.shaped = true ∧ s.sane = true ∧ s.isHead = true ∧ s.on d
     7 = true ∧ n = bitsOf ack.toNat 11 7 + 1 ∧ cls = (if bitOf ack.toNat 12 then 2 else 1) ∧ s.frontBc d n cls = some b ∧ b.sent = some
     t0 ∧ bitOf ack.toNat 13 = false ∧ bitsOf ack.toNat 15 14 = 2 ∧ 3 ≤ b.resends ∧ cls = 1 ∧ b.kind = 0) ∧
    (∃ (s : State) (cls : Nat) (b : BcBlock) (ack : BitVec 16) (t0 : Int), s.shaped = true ∧ s.sane = true ∧ s.isHead = false ∧ s.on 0 7 =
     true ∧ s.number = bitsOf ack.toNat 11 7 + 1 ∧ cls = (if bitOf ack.toNat 12 then 2 else 1) ∧ s.nodeFront cls = some b ∧ b.sent = some
     t0 ∧ bitOf ack.toNat 13 = true ∧ bitsOf ack.toNat 15 14 = 1 ∧ bitsOf ack.toNat 6 0 = nodeSeq s.node.txSeq cls) ∧
    (∃ (s : State) (cls : Nat) (b : BcBlock) (ack : BitVec 16) (t0 : Int), s.shaped = true ∧ s.sane = true ∧ s.isHead = false ∧ s.on 0 7 =
     true ∧ s.number = bitsOf ack.toNat 11 7 + 1 ∧ cls = (if bitOf ack.toNat 12 then 2 else 1) ∧ s.nodeFront cls = some b ∧ b.sent = some
     t0 ∧ bitOf ack.toNat 13 = true ∧ bitsOf ack.toNat 15 14 = 2 ∧ b.resends < 3) ∧
    (∃ (s : State) (d n : Nat) (cls : BitVec 2) (b : BcBlock) (t0 : Int), s.shaped = true ∧ s.sane = true ∧ s.on d 7 = true ∧ (if s.isHead
     then s.frontBc d n cls.toNat else s.nodeFront cls.toNat) = some b ∧ b.sent = some t0 ∧ s.td0 < t0 + 12800) ∧
    (∃ (s : State) (d n : Nat) (cls : BitVec 2) (b : BcBlock) (t0 : Int), s.shaped = true ∧ s.sane = true ∧ s.on d 7 = true ∧ (if s.isHead
     then s.frontBc d n cls.toNat else s.nodeFront cls.toNat) = some b ∧ b.sent = some t0 ∧ t0 + 12800 ≤ s.td0 ∧ b.resends < 3) ∧
    (∃ (s : State) (d n : Nat) (cls : BitVec 2) (b : BcBlock) (t0 : Int), s.shaped = true ∧ s.sane = true ∧ s.on d 7 = true ∧ (if s.isHead
     then s.frontBc d n cls.toNat else s.nodeFront cls.toNat) = some b ∧ b.sent = some t0 ∧ t0 + 12800 ≤ s.td0 ∧ 3 ≤ b.resends ∧ s.isHead
     = true ∧ cls = 1 ∧ b.kind = 0) ∧
    (∃ (s : State) (d n : Nat) (cls : BitVec 2) (b : BcBlock) (t0 : Int), s.shaped = true ∧ s.sane = true ∧ s.on d 7 = true ∧ (if s.isHead
     then s.frontBc d n cls.toNat else s.nodeFront cls.toNat) = some b ∧ b.sent = some t0 ∧ t0 + 12800 ≤ s.td0 ∧ 3 ≤ b.resends ∧ s.isHead
     = false) :=
  ⟨⟨(hdu .run 1280).ring 1 3 4 (fun h =>
    { h with bcQ := [⟨4, 1, 0, pad64 [7], none, 1⟩, ⟨4, 1, 2, pad64 [8], none, 0⟩], txSeq := [(4, 1, 127)], acks := [(.b, 5)] }), 1, 4, 1,
    ⟨4, 1, 0, pad64 [7], none, 1⟩, .a, 0, by decide +kernel⟩,
   ⟨(ndu .run 1920).way 3 (fun h =>
    { h with tx := [idleAt 1920], bcQ := [⟨0, 2, 0, pad64 [7], none, 1⟩, ⟨0, 1, 1, pad64 [8], none, 0⟩] }), 0, 3, ⟨0, 1, 1, pad64 [8],
    none, 0⟩, 1, idleAt 1920, by decide +kernel⟩,
   ⟨(hdu .run 1281).ring 1 3 4, 1, 4, by decide +kernel⟩,
   ⟨(hdu .run 1280).ring 1 3 4 (fun h =>
    { h with bcQ := [⟨4, 1, 0, pad64 [7], some 9, 1⟩, ⟨4, 1, 2, pad64 [8], none, 0⟩], txSeq := [(4, 1, 127)], acks := [(.b, 5)] }), 1, 4,
    1, ⟨4, 1, 0, pad64 [7], some 9, 1⟩, 0x41FF, 9, by decide +kernel⟩,
   ⟨(hdu .run 1280).ring 1 3 4 (fun h =>
    { h with bcQ := [⟨4, 1, 0, pad64 [7], some 9, 2⟩, ⟨4, 1, 2, pad64 [8], none, 0⟩], txSeq := [(4, 1, 127)], acks := [(.b, 5)] }), 1, 4,
    1, ⟨4, 1, 0, pad64 [7], some 9, 2⟩, 0x81FF, 9, by decide +kernel⟩,
   ⟨(hdu .run 1280).ring 1 3 4 (fun h =>
    { h with bcQ := [⟨4, 1, 0, pad64 [7], some 9, 3⟩, ⟨4, 1, 2, pad64 [8], none, 0⟩], txSeq := [(4, 1, 127)], acks := [(.b, 5)] }), 1, 4,
    1, ⟨4, 1, 0, pad64 [7], some 9, 3⟩, 0x81FF, 9, by decide +kernel⟩,
   ⟨(ndu .run 1920).way 3 (fun h => { h with bcQ := [⟨0, 1, 1, pad64 [8], some 5, 0⟩], txSeq := [(1, 127)] }), 1, ⟨0, 1, 1, pad64 [8],
    some 5, 0⟩, 0x617F, 5, by decide +kernel⟩,
   ⟨(ndu .run 1920).way 3 (fun h => { h with bcQ := [⟨0, 2, 1, pad64 [8], some 5, 2⟩], txSeq := [(1, 127)] }), 2, ⟨0, 2, 1, pad64 [8],
    some 5, 2⟩, 0xB17F, 5, by decide +kernel⟩,
   ⟨(hdu .run 12808).ring 1 3 4 (fun h => { h with bcQ := [⟨4, 1, 0, pad64 [7], some 9, 3⟩] }), 1, 4, 1, ⟨4, 1, 0, pad64 [7], some 9, 3⟩,
    9, by decide +kernel⟩,
   ⟨(hdu .run 12809).ring 1 3 4 (fun h => { h with bcQ := [⟨4, 1, 0, pad64 [7], some 9, 2⟩] }), 1, 4, 1, ⟨4, 1, 0, pad64 [7], some 9, 2⟩,
    9, by decide +kernel⟩,
   ⟨(hdu .run 12809).ring 1 3 4 (fun h => { h with bcQ := [⟨4, 1, 0, pad64 [7], some 9, 3⟩] }), 1, 4, 1, ⟨4, 1, 0, pad64 [7], some 9, 3⟩,
    9, by decide +kernel⟩,
   ⟨(ndu .run 12809).way 3 (fun h => { h with bcQ := [⟨4, 2, 0, pad64 [7], some 9, 3⟩] }), 0, 4, 2, ⟨4, 2, 0, pad64 [7], some 9, 3⟩, 9,
    by decide +kernel⟩⟩

theorem test_hypotheses_of_context_fields :
    (∃ (s : State) (d n f : Nat) (v : BitVec 16), s.shaped = true ∧ s.sane = true ∧ s.alive d = true ∧ s.isHead = true ∧ isDown f = true ∧
     1 ≤ n ∧ n ≤ s.nodes d) ∧
    (∃ (s : State) (d n f : Nat) (v : BitVec 16), s.shaped = true ∧ s.sane = true ∧ s.alive d = true ∧ s.isHead = false ∧ isUp f = true) ∧
    (∃ (s : State) (d n f : Nat) (v : BitVec 16), s.shaped = true ∧ s.sane = true ∧ s.alive d = true ∧ (s.isHead = true ∧ (isDown f =
     false ∨ n = 0 ∨ s.nodes d < n) ∨ s.isHead = false ∧ (isUp f = false ∨ n ≠ 1))) ∧
    (∃ (s : State) (r : Ring) (b : RingBlock) (exp f : Nat) (v : BitVec 16), s.shaped = true ∧ s.sane = true ∧ s.toNode b 1 0 = true ∧ exp
     = nodeSeq s.node.rxSeq 1 ∧ goodBlock b = true ∧ (b.seq.toNat % 128 + 128 - exp % 128) % 128 < 64 ∧ entries4 b = [(f, v)] ∧ isDown f =
     true ∧ f ≠ 8) ∧
    (∃ (s : State) (r : Ring) (b : RingBlock) (exp : Nat), s.shaped = true ∧ s.sane = true ∧ s.toNode b 1 0 = true ∧ exp = nodeSeq
     s.node.rxSeq 1 ∧ (goodBlock b = false ∨ 64 ≤ (b.seq.toNat % 128 + 128 - exp % 128) % 128)) ∧
    (∃ (s : State) (idle : TxBlock) (fs : List Nat), s.shaped = true ∧ s.sane = true ∧ s.nodeFront 1 = none ∧ s.nodeTurn 1 = some idle ∧
     fs = (sortBy (fun a b => decide (a ≤ b)) s.node.upQ).take 15) ∧
    (∃ (s : State) (d exp : Nat) (r : Ring) (b : RingBlock) (f : Nat) (v : BitVec 16), s.shaped = true ∧ s.sane = true ∧ s.toHead d b 1 1
     = true ∧ exp = seqOf (s.head d).rxSeq b.src.toNat 1 ∧ goodBlock b = true ∧ (b.seq.toNat % 128 + 128 - exp % 128) % 128 < 64 ∧
     entries4 b = [(f, v)] ∧ isUp f = true) ∧
    (∃ (s : State) (d exp : Nat) (r : Ring) (b : RingBlock), s.shaped = true ∧ s.sane = true ∧ s.toHead d b 1 1 = true ∧ exp = seqOf
     (s.head d).rxSeq b.src.toNat 1 ∧ (goodBlock b = false ∨ 64 ≤ (b.seq.toNat % 128 + 128 - exp % 128) % 128)) :=
  ⟨⟨(hdu .run 1280).ring 1 3 32, 1, 32, 0x17F, 0x1234, by decide +kernel⟩,
   ⟨(ndu .run 1280).way 3, 0, 1, 0x10, 0x1234, by decide +kernel⟩,
   ⟨(ndu .run 1280).way 3, 0, 1, 0x80, 7, by decide +kernel⟩,
   ⟨(ndu .run 1280).way 3 (fun n => { n with rxSeq := [(1, 127)] }), .b, rb 1 0 0 3 127 (pack4 [(0x17F, 0x1234)]), 127, 0x17F, 0x1234,
    by decide +kernel⟩,
   ⟨(ndu .run 1280).way 3 (fun n => { n with rxSeq := [(1, 127)] }), .b, badCrc (rb 1 0 0 3 128 (pack4 [(7, 0x1234)])), 127,
    by decide +kernel⟩,
   ⟨(ndu .run 1920).way 3 (fun h => { h with tx := [idleAt 1920], upQ := [0x18F, 0, 4] }), idleAt 1920, _, by decide +kernel,
    by decide +kernel, by decide +kernel, by decide +kernel, rfl⟩,
   ⟨(hdu .run 1280).ring 1 3 32 (fun h => { h with rxSeq := [(32, 1, 5)] }), 1, 5, .b, rb 1 1 32 0 6 (pack4 [(0x18F, 0x1234)]), 0x18F,
    0x1234, by decide +kernel⟩,
   ⟨(hdu .run 1280).ring 1 3 32 (fun h => { h with rxSeq := [(32, 1, 5)] }), 1, 5, .b, rb 1 1 32 0 4 (pack4 [(0x18F, 0x1234)]),
    by decide +kernel⟩⟩

theorem test_hypotheses_of_remote_accesses :
    (∃ (s : State) (d n : Nat) (write : Bool) (c : Instr), s.shaped = true ∧ s.sane = true ∧ s.isHead = true ∧ s.alive d = true ∧ c = (if
     write then .remoteWrite d n else .remoteRead d n) ∧ s.ringMode d = 3 ∧ 1 ≤ n ∧ n ≤ s.nodes d ∧ (s.head d).remotes = []) ∧
    (∃ (s : State) (d n : Nat) (write : Bool) (c : Instr), s.shaped = true ∧ s.sane = true ∧ s.isHead = true ∧ s.alive d = true ∧ c = (if
     write then .remoteWrite d n else .remoteRead d n) ∧ (s.ringMode d ≠ 3 ∨ n = 0 ∨ s.nodes d < n) ∧ (∀ r ∈ (s.head d).remotes, r.host =
     false)) ∧
    (∃ (s : State) (d n : Nat) (write : Bool) (c : Instr), s.shaped = true ∧ s.sane = true ∧ s.isHead = true ∧ s.alive d = true ∧ c = (if
     write then .remoteWrite d n else .remoteRead d n) ∧ ((∃ r ∈ (s.head d).remotes, r.host = true))) ∧
    (∃ (s u : State) (r : Ring) (b : RingBlock) (exp : Nat) (addr data : Word), s.shaped = true ∧ s.sane = true ∧ s.toNode b 1 2 = true ∧
     exp = nodeSeq s.node.rxSeq 1 ∧ u = (s.nodeReceive r b).2 ∧ addr = BitVec.ofNat 32 (field8 b 1 4) ∧ data = BitVec.ofNat 32 (field8 b 5
     4) ∧ goodBlock b = true ∧ (b.seq.toNat % 128 + 128 - exp % 128) % 128 < 64 ∧ field8 b 0 1 = 0 ∧ u.access (u.spot addr.toNat) = .done
     ∧ u.openSpot (u.spot addr.toNat) = false ∧ u.spot addr.toNat ≠ .nothing) ∧
    (∃ (s u : State) (r : Ring) (b : RingBlock) (exp : Nat) (addr data : Word) (v : State), s.shaped = true ∧ s.sane = true ∧ s.toNode b 1
     2 = true ∧ exp = nodeSeq s.node.rxSeq 1 ∧ u = (s.nodeReceive r b).2 ∧ addr = BitVec.ofNat 32 (field8 b 1 4) ∧ data = BitVec.ofNat 32
     (field8 b 5 4) ∧ goodBlock b = true ∧ (b.seq.toNat % 128 + 128 - exp % 128) % 128 < 64 ∧ field8 b 0 1 ≠ 0 ∧ u.access (u.spot
     addr.toNat) = .done ∧ (u.spot addr.toNat).die = some 0 ∧ u.alive 0 = true ∧ exec (.registerWrite addr data) (u.lendSpot (u.spot
     addr.toNat)) = .next v) ∧
    (∃ (s u : State) (r : Ring) (b : RingBlock) (exp : Nat) (addr data : Word), s.shaped = true ∧ s.sane = true ∧ s.toNode b 1 2 = true ∧
     exp = nodeSeq s.node.rxSeq 1 ∧ u = (s.nodeReceive r b).2 ∧ addr = BitVec.ofNat 32 (field8 b 1 4) ∧ data = BitVec.ofNat 32 (field8 b 5
     4) ∧ goodBlock b = true ∧ (b.seq.toNat % 128 + 128 - exp % 128) % 128 < 64) ∧
    (∃ (s u : State) (r : Ring) (b : RingBlock) (exp : Nat) (addr data : Word), s.shaped = true ∧ s.sane = true ∧ s.toNode b 1 2 = true ∧
     exp = nodeSeq s.node.rxSeq 1 ∧ u = (s.nodeReceive r b).2 ∧ addr = BitVec.ofNat 32 (field8 b 1 4) ∧ data = BitVec.ofNat 32 (field8 b 5
     4) ∧ (goodBlock b = false ∨ 64 ≤ (b.seq.toNat % 128 + 128 - exp % 128) % 128)) ∧
    (∃ (s : State) (d : Nat) (r : Ring) (b : RingBlock) (e : Remote), s.shaped = true ∧ s.sane = true ∧ s.toHead d b 1 3 = true ∧
     goodBlock b = true ∧ b.seq.toNat % 128 = seqOf (s.head d).rxSeq b.src.toNat 1 ∧ (s.head d).remotes = [e] ∧ e.host = true ∧ e.n =
     b.src.toNat ∧ field8 b 1 4 = e.addr.toNat) ∧
    (∃ (s : State) (d : Nat) (r : Ring) (b : RingBlock) (e : Remote), s.shaped = true ∧ s.sane = true ∧ s.toHead d b 1 3 = true ∧
     goodBlock b = true ∧ b.seq.toNat % 128 = seqOf (s.head d).rxSeq b.src.toNat 1 ∧ (s.head d).remotes = [e] ∧ e.host = true ∧ ¬(e.n =
     b.src.toNat ∧ field8 b 1 4 = e.addr.toNat)) ∧
    (∃ (s : State) (d t0 : Nat) (e : Remote), s.shaped = true ∧ s.sane = true ∧ s.isHead = true ∧ s.on d 7 = true ∧ (s.head d).remotes =
     [e] ∧ e.host = true ∧ e.ackAt = some t0 ∧ s.td0 < t0 + 200000) ∧
    (∃ (s : State) (d t0 : Nat) (e : Remote), s.shaped = true ∧ s.sane = true ∧ s.isHead = true ∧ s.on d 7 = true ∧ (s.head d).remotes =
     [e] ∧ e.host = true ∧ e.ackAt = some t0 ∧ t0 + 200000 ≤ s.td0) :=
  ⟨⟨((hdu .run 1280).ring 1 3 32).fld 1 Fd.RMT_ADDR.W 0x1000000 |>.fld 1 Fd.RMT_DATA.W 0x55AA55AA, 1, 32, true, .remoteWrite 1 32,
    by decide +kernel⟩,
   ⟨(hdu .run 1280).ring 1 3 32, 1, 33, false, .remoteRead 1 33, by decide +kernel⟩,
   ⟨(hdu .run 1280).ring 1 3 32 (fun h => { h with remotes := [⟨3, true, 0, 0, true, none⟩] }), 1, 3, true, .remoteWrite 1 3,
    by decide +kernel⟩,
   ⟨(ndu .run 1280).way 3, _, .a, rb 1 2 0 3 0 ([0] ++ beBytes 4 0x1000000), 0, _, _, by decide +kernel, by decide +kernel,
    by decide +kernel, by decide +kernel, rfl, rfl, rfl, by decide +kernel⟩,
   ⟨(ndu .run 1280).way 3, _, .a, rb 1 2 0 3 5 ([1] ++ beBytes 4 0x100001C ++ beBytes 4 5), 0, _, _, _, by decide +kernel,
    by decide +kernel, by decide +kernel, by decide +kernel, rfl, rfl, rfl, by decide +kernel, by decide +kernel, by decide +kernel,
    by decide +kernel, by decide +kernel, by decide +kernel, runs_on (by decide +kernel)⟩,
   ⟨(ndu .run 1280).way 3, _, .a, rb 1 2 0 3 1 ([0] ++ beBytes 4 0x1000000), 0, _, _, by decide +kernel, by decide +kernel,
    by decide +kernel, by decide +kernel, rfl, rfl, rfl, by decide +kernel⟩,
   ⟨(ndu .run 1280).way 3, _, .a, badCrc (rb 1 2 0 3 2 ([0] ++ beBytes 4 0x1000000)), 0, _, _, by decide +kernel, by decide +kernel,
    by decide +kernel, by decide +kernel, rfl, rfl, rfl, by decide +kernel⟩,
   ⟨(hdu .run 1280).ring 1 3 32 (fun h => { h with remotes := [⟨32, false, 0x1000000, 0, true, none⟩] }), 1, .b, rb 1 3 32 0 0 ([0] ++
    beBytes 4 0x1000000 ++ beBytes 4 0x12345678), ⟨32, false, 0x1000000, 0, true, none⟩, by decide +kernel⟩,
   ⟨(hdu .run 1280).ring 1 3 32 (fun h => { h with remotes := [⟨31, false, 0x1000000, 0, true, none⟩] }), 1, .b, rb 1 3 32 0 0 ([0] ++
    beBytes 4 0x1000000 ++ beBytes 4 0x12345678), ⟨31, false, 0x1000000, 0, true, none⟩, by decide +kernel⟩,
   ⟨(hdu .run 200008).ring 1 3 32 (fun h => { h with remotes := [⟨31, false, 0x1000000, 0, true, some 9⟩] }), 1, 9, ⟨31, false,
    0x1000000, 0, true, some 9⟩, by decide +kernel⟩,
   ⟨(hdu .run 200009).ring 1 3 32 (fun h => { h with remotes := [⟨31, false, 0x1000000, 0, true, some 9⟩] }), 1, 9, ⟨31, false,
    0x1000000, 0, true, some 9⟩, by decide +kernel⟩⟩

theorem test_hypotheses_of_ring_mode_and_reservations :
    (∃ (s : State) (d : Nat) (value : Word), s.shaped = true ∧ s.sane = true ∧ s.alive d = true ∧ s.isHead = false) ∧
    (∃ (s : State) (d : Nat) (value : Word), s.shaped = true ∧ s.sane = true ∧ s.alive d = true ∧ s.isHead = true ∧ bitOf value.toNat 31 =
     false) ∧
    (∃ (s : State) (d i : Nat) (value : Word), s.shaped = true ∧ s.sane = true ∧ s.alive d = true ∧ i < 16 ∧ s.device = .config ∧ ((bitOf
     value.toNat 31 = false ∨ 1 ≤ bitsOf value.toNat 19 16 ∧ bitsOf value.toNat 19 16 ≤ 8))) ∧
    (∃ (s : State) (d i : Nat) (value : Word), s.shaped = true ∧ s.sane = true ∧ s.alive d = true ∧ i < 16 ∧ (s.device ≠ .config ∨ bitOf
     value.toNat 31 = true ∧ (bitsOf value.toNat 19 16 = 0 ∨ 8 < bitsOf value.toNat 19 16))) :=
  ⟨⟨ndu .run, 0, 3, by decide +kernel⟩,
   ⟨(hdu .run 1280).ring 1 3 32 (fun h =>
    { h with remotes := [⟨31, false, 0, 0, true, some 9⟩], bcQ := [⟨4, 1, 0, [], none, 0⟩], slots := [⟨2048, 4, 0, []⟩, ⟨2560, 5, 0, []⟩] }),
    1, 2, by decide +kernel⟩,
   ⟨hdu .config, 1, 15, 0x80080000#32, by decide +kernel⟩,
   ⟨hdu .config, 1, 15, 0x80090000#32, by decide +kernel⟩⟩

theorem test_hypotheses_of_bridge_commands :
    (∃ (s : State) (b : Nat) (m : Manifest) (e : MEdge) (rest : List MEdge), s.sized = true ∧ s.pathOn = true ∧ b < 3 ∧ s.lateDue b = none
     ∧ (s.bridge b).cur = some m ∧ s.edgeDue b = some (e, rest) ∧ s.heldNow b = false ∧ s.bridgeBlocked b = false) ∧
    (∃ (s : State) (b : Nat) (m : Manifest) (e : MEdge) (rest : List MEdge), s.sized = true ∧ s.pathOn = true ∧ b < 3 ∧ s.lateDue b = none
     ∧ (s.bridge b).cur = some m ∧ s.edgeDue b = some (e, rest) ∧ s.nodeBlocked = true ∧ s.heldNow b = false) ∧
    (∃ (s : State) (b : Nat) (m : Manifest) (e : MEdge) (rest : List MEdge), s.sized = true ∧ s.pathOn = true ∧ b < 3 ∧ s.lateDue b = none
     ∧ (s.bridge b).cur = some m ∧ s.edgeDue b = some (e, rest) ∧ s.heldNow b = true ∧ (s.bridge b).next = none) ∧
    (∃ (s : State) (b : Nat) (e : MEdge), s.sized = true ∧ s.pathOn = true ∧ b < 3 ∧ s.lateDue b = some e ∧ s.heldNow b = false ∧
     s.bridgeBlocked b = false) ∧
    (∃ (s : State) (b : Nat) (m : Manifest), s.sized = true ∧ s.pathOn = true ∧ b < 3 ∧ (s.bridge b).cur = some m ∧ s.due m.expiry = false) ∧
    (∃ (s : State) (b : Nat) (m : Manifest), s.sized = true ∧ s.pathOn = true ∧ b < 3 ∧ (s.bridge b).cur = some m ∧ s.due m.expiry = true
     ∧ s.heldNow b = false ∧ (s.bridge b).next = none) ∧
    (∃ (s : State) (b : Nat) (m n : Manifest), s.sized = true ∧ s.pathOn = true ∧ b < 3 ∧ (s.bridge b).cur = some m ∧ s.due m.expiry =
     true ∧ s.heldNow b = false ∧ (s.bridge b).next = some n) ∧
    (∃ (s : State) (k : Nat) (r : Int), s.sized = true ∧ k < 6 ∧ s.pathOn = true ∧ (s.leg k).upFall = none ∧ (s.leg k).loFall = none ∧
     s.riseAt k true = some r ∧ r ≤ s.tickEnd) ∧
    (∃ (s : State) (k : Nat) (r : Int), s.sized = true ∧ k < 6 ∧ s.pathOn = true ∧ (s.leg k).upFall = none ∧ (s.leg k).loFall = none ∧
     s.riseAt k false = some r ∧ r ≤ s.tickEnd ∧ ((∀ q, s.riseAt k true = some q → s.tickEnd < q))) ∧
    (∃ (s : State) (k : Nat), s.sized = true ∧ k < 6 ∧ s.pathOn = true ∧ (s.leg k).upFall = none ∧ (s.leg k).loFall = none ∧ ((∀ upper r,
     s.riseAt k upper = some r → s.tickEnd < r))) ∧
    (∃ (s : State) (k : Nat) (r : Int), s.sized = true ∧ k < 6 ∧ s.riseAt k true = some r) ∧
    (∃ (s : State) (k : Nat) (r : Int), s.sized = true ∧ k < 6 ∧ s.riseAt k false = some r) ∧
    (∃ (s : State) (k : Nat) (f : Int), s.sized = true ∧ k < 6 ∧ (s.leg k).upFall = some f ∧ f ≤ s.tickEnd ∧ (s.leg k).upRise = none) ∧
    (∃ (s : State) (k : Nat) (f : Int), s.sized = true ∧ k < 6 ∧ (s.leg k).loFall = some f ∧ f ≤ s.tickEnd ∧ (s.leg k).loRise = none) ∧
    (∃ (s : State) (b : Nat) (p n z : Bool × Nat) (c : Pnz), s.sized = true ∧ s.pathOn = true ∧ b < 3 ∧ c = ⟨s.accept (s.bridge b).pin.p
     p, s.accept (s.bridge b).pin.n n, s.accept (s.bridge b).pin.z z⟩ ∧ (c = (s.bridge b).pin ∨ s.source4 b ≠ .pins)) ∧
    (∃ (s : State) (b : Nat) (p n z : Bool × Nat) (c : Pnz), s.sized = true ∧ s.pathOn = true ∧ b < 3 ∧ c = ⟨s.accept (s.bridge b).pin.p
     p, s.accept (s.bridge b).pin.n n, s.accept (s.bridge b).pin.z z⟩ ∧ c ≠ (s.bridge b).pin ∧ s.source4 b = .pins ∧ s.bridgeBlocked b =
     false) ∧
    (∃ (s : State) (b : Nat) (p n z : Bool × Nat) (c : Pnz), s.sized = true ∧ s.pathOn = true ∧ b < 3 ∧ c = ⟨s.accept (s.bridge b).pin.p
     p, s.accept (s.bridge b).pin.n n, s.accept (s.bridge b).pin.z z⟩ ∧ c ≠ (s.bridge b).pin ∧ s.source4 b = .pins ∧ s.nodeBlocked = true) ∧
    (∃ (s : State) (value : Word), s.sized = true ∧ s.sane = true ∧ s.alive 0 = true) :=
  ⟨⟨((ndu .run 8200).way 3).brg 0 1 (fun x => { x with cur := some ⟨9, [⟨true, 1, 65600⟩, ⟨false, 0, 66000⟩], 70000⟩ }), 0, ⟨9, [⟨true,
    1, 65600⟩, ⟨false, 0, 66000⟩], 70000⟩, ⟨true, 1, 65600⟩, [⟨false, 0, 66000⟩], by decide +kernel⟩,
   ⟨((ndu .standstill 8200).way 3).brg 2 1 (fun x => { x with cur := some ⟨9, [⟨true, 1, 65607⟩], 70000⟩ }) |>.pinsAt 0x30 0, 2, ⟨9,
    [⟨true, 1, 65607⟩], 70000⟩, ⟨true, 1, 65607⟩, [], by decide +kernel⟩,
   ⟨(((ndu .run 8200).way 3).brg 0 1 (fun x => { x with cur := some ⟨9, [⟨true, 1, 65600⟩], 70000⟩ })).onLeg 1 (fun l =>
    { l with tripAt := some 8200, heldAt := some 8200 }), 0, ⟨9, [⟨true, 1, 65600⟩], 70000⟩, ⟨true, 1, 65600⟩, [], by decide +kernel⟩,
   ⟨((ndu .run 8200).way 3).brg 0 1 (fun x => { x with cur := some ⟨9, [], 70000⟩, lateAt := some (8200, ⟨true, 2, 44⟩) }), 0, ⟨true, 2,
    44⟩, by decide +kernel⟩,
   ⟨((ndu .run 8200).way 3).brg 0 1 (fun x => { x with cur := some ⟨9, [], 65608⟩ }), 0, ⟨9, [], 65608⟩, by decide +kernel⟩,
   ⟨((ndu .run 8200).way 3).brg 0 1 (fun x => { x with cur := some ⟨9, [], 65607⟩ }) |>.pinsAt 1 2, 0, ⟨9, [], 65607⟩, by decide +kernel⟩,
   ⟨((ndu .run 8200).way 3).brg 0 1 (fun x =>
    { x with cur := some ⟨9, [], 65607⟩, next := some ⟨10, [⟨true, 2, 65500⟩, ⟨false, 1, 65606⟩, ⟨true, 3, 65607⟩], 70000⟩ }) |>.pinsAt 1
    2, 0, ⟨9, [], 65607⟩, ⟨10, [⟨true, 2, 65500⟩, ⟨false, 1, 65606⟩, ⟨true, 3, 65607⟩], 70000⟩, by decide +kernel⟩,
   ⟨((ndu .run 8200).way 3).onLeg 5 (fun l => { l with up := true, loLowAt := 64000, upRise := some 65600 }), 5, 65600,
    by decide +kernel⟩,
   ⟨((ndu .run 8200).way 3).onLeg 0 (fun l => { l with lo := true, upLowAt := 63000, loRise := some 65000 }), 0, 65000,
    by decide +kernel⟩,
   ⟨(((ndu .run 8200).way 3).onLeg 5 (fun l => { l with fallAt := some 8201 })).pinsAt 0x3F 0, 5, by decide +kernel⟩,
   ⟨((ndu .run 8200).way 3).onLeg 5 (fun l => { l with up := true, loLowAt := 65590, upRise := some 65600 }), 5, ((((ndu .run 8200).way
    3).onLeg 5 (fun l => { l with up := true, loLowAt := 65590, upRise := some 65600 })).riseAt 5 true).get!, by decide +kernel⟩,
   ⟨((ndu .run 8200).way 3).onLeg 0 (fun l => { l with lo := true, upLowAt := 63000, loRise := some 65000 }), 0, 65000,
    by decide +kernel⟩,
   ⟨(((ndu .run 8200).way 3).onLeg 5 (fun l => { l with upFall := some 65607 })).pinsAt 0x3F 0, 5, 65607, by decide +kernel⟩,
   ⟨(((ndu .run 8200).way 3).onLeg 5 (fun l => { l with loFall := some 65607 })).pinsAt 0 0x3F, 5, 65607, by decide +kernel⟩,
   ⟨(((ndu .lockout 8200).way 3).brg 1 2).pinsAt 0xC 0, 1, (true, 16), (true, 0), (false, 0), _, by decide +kernel, by decide +kernel,
    by decide +kernel, rfl, by decide +kernel⟩,
   ⟨((ndu .run 8200).way 3).brg 1 3, 1, (true, 16), (true, 16), (false, 0), _, by decide +kernel, by decide +kernel, by decide +kernel,
    rfl, by decide +kernel⟩,
   ⟨(((ndu .lockout 8200).way 3).brg 1 3).pinsAt 0xC 0, 1, (true, 16), (false, 0), (false, 0), _, by decide +kernel, by decide +kernel,
    by decide +kernel, rfl, by decide +kernel⟩,
   ⟨(((ndu .run 8200).way 3).brg 1 3).pinsAt 0xC 0, 0x07030102#32, by decide +kernel⟩⟩

theorem test_hypotheses_of_modulators :
    (∃ (s : State) (x : Domain) (h dir phi inst : Int), s.sized = true ∧ s.dabOn = true ∧ x = s.dom 0 (s.rd 0 Fd.BG_CARR.DAB_DOM) ∧ x.src
     = 1 ∧ halfCrossed x.prev x.pos = some h ∧ dir = (if 0 ≤ x.inc then 1 else -1) ∧ phi = dabShift (s.nodeField 0x10) ∧ inst = x.crossing
     s.td0 (h * halfTurn) ∧ s.bridgeBlocked 1 = false ∧ (s.bridge 1).idle = false) ∧
    (∃ (s : State) (x : Domain) (h dir phi inst : Int), s.sized = true ∧ s.dabOn = true ∧ x = s.dom 0 (s.rd 0 Fd.BG_CARR.DAB_DOM) ∧ x.src
     = 1 ∧ halfCrossed x.prev x.pos = some h ∧ dir = (if 0 ≤ x.inc then 1 else -1) ∧ phi = dabShift (s.nodeField 0x10) ∧ inst = x.crossing
     s.td0 (h * halfTurn) ∧ s.bridgeBlocked 1 = false ∧ s.bridgeBlocked 2 = false ∧ (s.bridge 1).idle = true) ∧
    (∃ (s : State) (x : Domain) (h dir phi inst : Int), s.sized = true ∧ s.dabOn = true ∧ x = s.dom 0 (s.rd 0 Fd.BG_CARR.DAB_DOM) ∧ x.src
     = 1 ∧ halfCrossed x.prev x.pos = some h ∧ dir = (if 0 ≤ x.inc then 1 else -1) ∧ phi = dabShift (s.nodeField 0x10) ∧ inst = x.crossing
     s.td0 (h * halfTurn) ∧ s.nodeBlocked = true) ∧
    (∃ (s : State) (x : Domain), s.dabOn = true ∧ x = s.dom 0 (s.rd 0 Fd.BG_CARR.DAB_DOM) ∧ halfCrossed x.prev x.pos = none) ∧
    (∃ (s : State) (x : Domain) (p : Int) (c : Pnz), s.sized = true ∧ s.dabOn = true ∧ (s.bridge 2).owe = some (p, c) ∧ x = s.dom 0 (s.rd
     0 Fd.BG_CARR.DAB_DOM) ∧ ((0 ≤ x.inc ∧ x.pos < p ∨ x.inc < 0 ∧ p < x.pos))) ∧
    (∃ (s : State) (x : Domain) (p : Int) (c : Pnz), s.sized = true ∧ s.dabOn = true ∧ (s.bridge 2).owe = some (p, c) ∧ x = s.dom 0 (s.rd
     0 Fd.BG_CARR.DAB_DOM) ∧ ((0 ≤ x.inc ∧ p ≤ x.pos ∨ x.inc < 0 ∧ x.pos ≤ p)) ∧ s.bridgeBlocked 2 = false ∧ (s.bridge 2).idle = false) ∧
    (∃ (s : State) (x : Domain) (p : Int) (c : Pnz), s.sized = true ∧ s.dabOn = true ∧ (s.bridge 2).owe = some (p, c) ∧ x = s.dom 0 (s.rd
     0 Fd.BG_CARR.DAB_DOM) ∧ ((0 ≤ x.inc ∧ p ≤ x.pos ∨ x.inc < 0 ∧ x.pos ≤ p)) ∧ s.nodeBlocked = true) ∧
    (∃ (s : State) (k : Nat) (c : Int) (up lo : Bool), s.sized = true ∧ s.legModeOn k = true ∧ c =
     (match s.boundaryNow k with | some (b, _) => if (s.leg k).peakAt = some (s.td0 : Int) then carrier (s.carrierPos k (s.dom 0 (s.rd 0 Fd.BG_CARR.LMOD_DOM)).pos) else if b % 2 = 0 then 2 ^ 46 else -(2 ^ 46) | none => carrier (s.carrierPos k (s.dom 0 (s.rd 0 Fd.BG_CARR.LMOD_DOM)).pos))
     ∧ up = decide (c < (s.leg k).hk.toInt * 2 ^ 31) ∧ lo = decide ((s.leg k).lk.toInt * 2 ^ 31 ≤ c) ∧ up = (s.leg k).srcUp ∧ lo = (s.leg
     k).srcLo) ∧
    (∃ (s : State) (k : Nat) (c : Int) (up lo : Bool), s.sized = true ∧ s.legModeOn k = true ∧ c =
     (match s.boundaryNow k with | some (b, _) => if (s.leg k).peakAt = some (s.td0 : Int) then carrier (s.carrierPos k (s.dom 0 (s.rd 0 Fd.BG_CARR.LMOD_DOM)).pos) else if b % 2 = 0 then 2 ^ 46 else -(2 ^ 46) | none => carrier (s.carrierPos k (s.dom 0 (s.rd 0 Fd.BG_CARR.LMOD_DOM)).pos))
     ∧ up = decide (c < (s.leg k).hk.toInt * 2 ^ 31) ∧ lo = decide ((s.leg k).lk.toInt * 2 ^ 31 ≤ c) ∧ ¬(up = (s.leg k).srcUp ∧ lo =
     (s.leg k).srcLo)) ∧
    (∃ (s : State) (k : Nat), s.sized = true ∧ s.legModeOn k = true ∧ (s.boundaryNow k = none ∨ (s.leg k).peakAt = some (s.td0 : Int))) ∧
    (∃ (s : State) (k : Nat) (b i c : Int), s.sized = true ∧ s.legModeOn k = true ∧ s.boundaryNow k = some (b, i) ∧ (s.leg k).peakAt ≠
     some (s.td0 : Int) ∧ c = (if b % 2 = 0 then 2 ^ 46 else -(2 ^ 46) : Int)) :=
  ⟨⟨dab 4, _, 4, _, _, _, by decide +kernel, by decide +kernel, rfl, by decide +kernel, by decide +kernel, rfl, rfl, rfl,
    by decide +kernel⟩,
   ⟨dab 4 (fun x => { x with idle := true }), _, 4, _, _, _, by decide +kernel, by decide +kernel, rfl, by decide +kernel,
    by decide +kernel, rfl, rfl, rfl, by decide +kernel⟩,
   ⟨(dab 5).onNode (fun n => { n with silentAt := some 5 }), _, 5, _, _, _, by decide +kernel, by decide +kernel, rfl, by decide +kernel,
    by decide +kernel, rfl, rfl, rfl, by decide +kernel⟩,
   ⟨(dab 5).domAt 3 1 6 7 1, _, by decide +kernel, rfl, by decide +kernel⟩,
   ⟨dab 5 (fun x => { x with owe := some (5 * halfTurn + 11, ⟨true, false, false⟩) }), _, 5 * halfTurn + 11, ⟨true, false, false⟩,
    by decide +kernel, by decide +kernel, by decide +kernel, rfl, by decide +kernel⟩,
   ⟨dab 5 (fun x => { x with owe := some (5 * halfTurn + 10, ⟨true, false, false⟩) }), _, 5 * halfTurn + 10, ⟨true, false, false⟩,
    by decide +kernel, by decide +kernel, by decide +kernel, rfl, by decide +kernel⟩,
   ⟨(dab 5 (fun x => { x with owe := some (5 * halfTurn + 10, ⟨true, false, false⟩) })).onNode (fun n => { n with silentAt := some 5 }),
    _, 5 * halfTurn + 10, ⟨true, false, false⟩, by decide +kernel, by decide +kernel, by decide +kernel, rfl, by decide +kernel⟩,
   ⟨(legs (2 ^ 33) (2 ^ 33 + 4)).onLeg 2 (fun l => { l with lk := 0x7FFF }), 2, _, _, _, by decide +kernel, by decide +kernel, rfl, rfl,
    rfl, rfl, rfl⟩,
   ⟨(legs 5 (2 ^ 47 - 5)).onLeg 2 (fun l => { l with hk := 0, lk := 0x4000 }), 2, _, _, _, by decide +kernel, by decide +kernel, rfl,
    rfl, rfl, by decide +kernel⟩,
   ⟨legs 5 10, 2, by decide +kernel⟩,
   ⟨(legs (2 ^ 48 - 1) (2 ^ 48)).putCtx 0 1 0x15 0x4000, 2, 2, (((legs (2 ^ 48 - 1) (2 ^ 48)).putCtx 0 1 0x15 0x4000).boundaryNow
    2).get!.2, _, by decide +kernel, by decide +kernel, by decide +kernel, by decide +kernel, rfl⟩⟩

theorem test_hypotheses_of_bridge_guard :
    (∃ (s : State) (c : Instr) (k cause : Nat) (senses : List Nat) (low : List Bool), s.sized = true ∧ s.guardOn = true ∧ k < 6 ∧
     s.trippedNow k = false ∧ (∀ j, (s.leg j).freed = none) ∧ ((senses ≠ [] ∧ cause = s.tripCause k senses ∧ cause ≠ 0 ∧ (c = .trip k
     senses ∨ c = .endBlank k senses ∧ s.blankOver k = true)) ∨ (cause = 4 ∧ c = .driverTrip k low ∧ s.lowCount k low = 4 ∧ bitOf (s.rd 0
     Fd.BG_GCFG.GFLT_EN) k = true))) ∧
    (∃ (s : State) (k : Nat) (a : Int) (senses : List Nat), (s.leg k).high = some (a, none) ∧ a + 16 ≤ s.td0 ∧ senses.length = 16 ∧ ((∀ i
     : Nat, i < 16 → s.asserted k false ((s.td0 : Int) - 1 - i) (senses.getD i 0) = true)) ∧ s.blanked k = false ∧ s.asserted k true
     (s.td0 - 1) (senses.getD 0 0) = false) ∧
    (∃ (s : State) (k v : Nat) (rest : List Nat), s.sized = true ∧ s.guardOn = true ∧ k < 6 ∧ s.tripCause k (v :: rest) = 0) ∧
    (∃ (s : State) (k v : Nat) (rest : List Nat), s.sized = true ∧ s.guardOn = true ∧ k < 6 ∧ s.trippedNow k = true) ∧
    (∃ (s : State) (k v : Nat) (rest : List Nat), s.sized = true ∧ s.guardOn = true ∧ k < 6) ∧
    (∃ (s : State) (k v : Nat) (rest : List Nat), s.sized = true ∧ s.guardOn = true ∧ k < 6 ∧ s.blankOver k = false) ∧
    (∃ (s : State) (k : Nat) (low : List Bool), s.sized = true ∧ s.guardOn = true ∧ k < 6 ∧ (s.lowCount k low ≠ 4 ∨ bitOf (s.rd 0
     Fd.BG_GCFG.GFLT_EN) k = false)) ∧
    (∃ (s : State) (b : Nat) (t0 : Int), s.sized = true ∧ s.pathOn = true ∧ b < 3 ∧ (s.bridge b).slowAt = some t0 ∧ t0 ≤ s.td0) ∧
    (∃ (s : State) (b : Nat) (t0 : Int), s.sized = true ∧ s.pathOn = true ∧ b < 3 ∧ (s.bridge b).slowEnd = some t0 ∧ t0 ≤ s.td0) ∧
    (∃ (s : State) (b : Nat) (t0 : Int), s.sized = true ∧ s.pathOn = true ∧ b < 3 ∧ (s.bridge b).slowAt = some t0 ∧ s.td0 < t0) ∧
    (∃ (s : State) (b : Nat) (t0 : Int), s.sized = true ∧ s.pathOn = true ∧ b < 3 ∧ (s.bridge b).slowEnd = some t0 ∧ s.td0 < t0) ∧
    (∃ (s : State) (k : Nat) (t0 : Int), s.sized = true ∧ s.pathOn = true ∧ k < 6 ∧ (s.leg k).fallAt = some t0 ∧ t0 ≤ s.td0) ∧
    (∃ (s : State) (k : Nat) (t0 : Int), s.sized = true ∧ s.pathOn = true ∧ k < 6 ∧ (s.leg k).fallAt = some t0 ∧ s.td0 < t0) ∧
    (∃ (s : State) (legs gflt : BitVec 6) (senses : List Nat) (sensed : Nat → Bool), s.sized = true ∧ s.pathOn = true ∧ (∀ k, sensed k =
     (s.asserted k false s.td0 (senses.getD k 0) || s.asserted k true s.td0 (senses.getD k 0) || bitOf gflt.toNat k))) :=
  ⟨⟨sensed, .trip 3 (List.replicate 16 40), 3, 2, List.replicate 16 40, [], by decide +kernel, by decide +kernel, by decide +kernel,
    by decide +kernel, by intro j; rcases j with _ | _ | _ | _ | _ | _ | j <;> rfl, .inl (by decide +kernel)⟩,
   ⟨sensed, 3, 8184, List.replicate 16 40, by decide +kernel⟩,
   ⟨sensed, 3, 39, List.replicate 15 40, by decide +kernel⟩,
   ⟨(sensed).onLeg 3 (fun l => { l with heldAt := some 8200, own := true, ownAt := some 8200 }), 3, 39, [], by decide +kernel⟩,
   ⟨sensed, 3, 0, [], by decide +kernel⟩,
   ⟨sensed, 3, 39, [], by decide +kernel⟩,
   ⟨(((ndu .run 8200).way 3).brg 1 1).fld 0 Fd.BG_GCFG.GFLT_EN 32, 5, [true, true, true], by decide +kernel⟩,
   ⟨((ndu .run 8200).way 3).brg 2 1 (fun x => { x with slowAt := some 8200 }), 2, 8200, by decide +kernel⟩,
   ⟨((ndu .run 8200).way 3).brg 2 1 (fun x => { x with slowEnd := some 8200 }), 2, 8200, by decide +kernel⟩,
   ⟨((ndu .run 8200).way 3).brg 2 1 (fun x => { x with slowAt := some 8201 }), 2, 8201, by decide +kernel⟩,
   ⟨((ndu .run 8200).way 3).brg 2 1 (fun x => { x with slowEnd := some 8201 }), 2, 8201, by decide +kernel⟩,
   ⟨(((ndu .run 8200).way 3).onLeg 5 (fun l => { l with fallAt := some 8200 })).pinsAt 0x3F 0, 5, 8200, by decide +kernel⟩,
   ⟨(((ndu .run 8200).way 3).onLeg 5 (fun l => { l with fallAt := some 8201 })).pinsAt 0x3F 0, 5, 8201, by decide +kernel⟩,
   ⟨unlocking, 0x23, 1, [0, 0, 0, 0, 0, 0], fun k => Bool.or (Bool.or (unlocking.asserted k false unlocking.td0 ([0, 0, 0, 0, 0, 0].getD
    k 0)) (unlocking.asserted k true unlocking.td0 ([0, 0, 0, 0, 0, 0].getD k 0))) (bitOf (1#6).toNat k), by decide +kernel,
    by decide +kernel, fun _ => rfl⟩⟩

theorem test_hypotheses_of_references :
    (∃ (s : State) (d n : Nat) (second : Bool), s.shaped = true ∧ s.guardClock d = true ∧ n < 3) ∧
    (∃ (s : State) (d n : Nat) (second : Bool), s.shaped = true ∧ s.guardClock d = true ∧ 3 ≤ n) ∧
    (∃ (s : State) (d n : Nat) (second cdr : Bool), s.shaped = true ∧ s.sane = true ∧ s.guardClock d = true ∧ (n < 64 ∨ cdr = false ∧ 2 ≤
     s.refCode second)) ∧
    (∃ (s : State) (d n : Nat) (second cdr : Bool), s.shaped = true ∧ s.sane = true ∧ s.guardClock d = true ∧ 64 ≤ n ∧ (cdr = true ∨
     s.refCode second < 2)) ∧
    (∃ (s : State) (d : Nat), s.shaped = true ∧ s.sane = true ∧ s.alive d = true ∧ d = 0 ∧ s.flag 0 (refOk s.prefSecond) = true ∧
     s.refSecond 0 ≠ s.prefSecond) ∧
    (∃ (s : State) (d : Nat), s.shaped = true ∧ s.sane = true ∧ s.alive d = true ∧ (d ≠ 0 ∨ s.flag 0 (refOk s.prefSecond) = false ∨
     s.refSecond 0 = s.prefSecond)) ∧
    (∃ (s : State) (d n : Nat) (t0 : Int), s.shaped = true ∧ s.alive d = true ∧ (s.die d).clk.holdT = some (t0, n) ∧ (s.td0 : Int) < t0 +
     n) ∧
    (∃ (s : State) (d n : Nat) (t0 : Int), s.shaped = true ∧ s.alive d = true ∧ (s.die d).clk.holdT = some (t0, n) ∧ t0 + n ≤ s.td0) ∧
    (∃ (s : State) (d n : Nat) (t0 : Int), s.shaped = true ∧ s.alive d = true ∧ (s.die d).clk.holdF = some (t0, n) ∧ (s.td0 : Int) < t0 +
     n) ∧
    (∃ (s : State) (d n : Nat) (t0 : Int), s.shaped = true ∧ s.alive d = true ∧ (s.die d).clk.holdF = some (t0, n) ∧ t0 + n ≤ s.td0) ∧
    (∃ (s : State) (d : Nat), s.shaped = true ∧ s.sane = true ∧ s.alive d = true ∧ (s.die d).clk.started = true ∧ s.flag d (refOk
     (s.refSecond d)) = true ∧ (s.die d).clk.holdT = none) ∧
    (∃ (s : State) (d : Nat), s.shaped = true ∧ s.sane = true ∧ s.alive d = true ∧ (s.die d).clk.started = true ∧ s.flag d (refOk
     (s.refSecond d)) = true ∧ (s.die d).clk.holdF = none ∧ (s.die d).clk.fgated = false) ∧
    (∃ (s : State) (d : Nat), s.shaped = true ∧ s.sane = true ∧ s.alive d = true ∧ (s.die d).clk.started = true ∧ s.flag d (refOk
     (s.refSecond d)) = true ∧ (s.die d).clk.holdF = none ∧ (s.die d).clk.fgated = true) :=
  ⟨⟨hdu .run 5, 0, 2, false, by decide +kernel⟩,
   ⟨(hdu .run 5).fld 0 Fd.CLK_STATUS.REF1_OK 1 |>.fld 1 Fd.CLK_STATUS.REF0_OK 0 |>.fld 1 Fd.CLK_STATUS.REF1_OK 0, 0, 3, false,
    by decide +kernel⟩,
   ⟨hdu .run 5, 0, 63, false, true, by decide +kernel⟩,
   ⟨(hdu .run 99).onClk 1 (fun c => { c with holdT := some (90, 10), holdF := some (90, 9) }), 0, 64, true, true, by decide +kernel⟩,
   ⟨((hdu .run 99).onClk 0 (fun c => { c with refsel := true })).fld 0 Fd.CLK_STATUS.REF1_OK 1, 0, by decide +kernel⟩,
   ⟨(hdu .run 99), 1, by decide +kernel⟩,
   ⟨(hdu .run 99).onClk 1 (fun c => { c with holdT := some (90, 10), holdF := some (90, 9) }), 1, 10, 90, by decide +kernel⟩,
   ⟨(hdu .run 99).onClk 1 (fun c => { c with holdT := some (90, 9), holdF := some (90, 9) }), 1, 9, 90, by decide +kernel⟩,
   ⟨(hdu .run 98).onClk 1 (fun c => { c with holdT := some (90, 10), holdF := some (90, 9) }), 1, 9, 90, by decide +kernel⟩,
   ⟨(hdu .run 99).onClk 1 (fun c => { c with holdT := some (90, 9), holdF := some (90, 9) }), 1, 9, 90, by decide +kernel⟩,
   ⟨(hd .run).ran, 1, by decide +kernel⟩,
   ⟨(hd .run).ran, 1, by decide +kernel⟩,
   ⟨(((hd .run).ran).onClk 1 (fun c => { c with fgated := true })).raise 1 0x11, 1, by decide +kernel⟩⟩

theorem test_hypotheses_of_clock_losses :
    (∃ (s : State) (d still ago : Nat) (errs : List Int), s.shaped = true ∧ s.alive d = true ∧ lossOf errs still = none) ∧
    (∃ (s : State) (d still ago : Nat) (errs : List Int) (cause : LossCause), s.shaped = true ∧ s.alive d = true ∧ lossOf errs still =
     some cause) ∧
    (∃ (s : State) (d still ago : Nat) (errs : List Int) (cause : LossCause), s.shaped = true ∧ s.alive d = true ∧ lossOf errs still =
     some cause) ∧
    (∃ (s : State) (d still : Nat) (errs : List Int), s.shaped = true ∧ s.alive d = true ∧ (s.die d).clk.fgated = false ∧ lossOf errs
     still = none) ∧
    (∃ (s : State) (d still : Nat) (errs : List Int), s.shaped = true ∧ s.alive d = true ∧ (s.die d).clk.fgated = false ∧ lossOf errs
     still ≠ none) ∧
    (∃ (s : State) (d : Nat), s.shaped = true ∧ s.alive d = true) ∧
    (∃ (s : State) (d : Nat), s.shaped = true ∧ s.sane = true ∧ s.alive d = true ∧ (s.die d).clk.started = true) ∧
    (∃ (s : State) (d : Nat), s.shaped = true ∧ s.sane = true ∧ s.alive d = true ∧ (s.die d).clk.started = false) ∧
    (∃ (s : State) (d : Nat), s.shaped = true ∧ s.sane = true ∧ s.alive d = true ∧ s.updateBad d = true) ∧
    (∃ (s : State) (d : Nat), s.shaped = true ∧ s.sane = true ∧ s.alive d = true ∧ s.updateBad d = false) ∧
    (∃ (s : State) (d : Nat) (new : List Word), s.shaped = true ∧ s.sane = true ∧ s.alive d = true ∧ s.td0 % 32 = 0 ∧ (s.die d).clk.update
     = some new ∧ bitOf (new.getD 3 0).toNat 31 = true ∧ (s.die d).clk.spread = none) ∧
    (∃ (s : State) (d : Nat) (new : List Word), s.shaped = true ∧ s.sane = true ∧ s.alive d = true ∧ s.td0 % 32 = 0 ∧ (s.die d).clk.update
     = some new ∧ (new.getD 4 0).toNat ≠ s.inForce d 4) ∧
    (∃ (s : State) (d : Nat) (new : List Word), s.shaped = true ∧ s.sane = true ∧ s.alive d = true ∧ s.td0 % 32 = 0 ∧ (s.die d).clk.update
     = some new) ∧
    (∃ (s : State) (d khz : Nat), s.shaped = true ∧ s.sane = true ∧ s.alive d = true) ∧
    (∃ (s : State) (d tFor fFor : Nat) (tvt fvt : Byte), s.shaped = true ∧ s.sane = true ∧ s.alive d = true) :=
  ⟨⟨hd .run 9, 0, 2, 5, [700, 700, -700], by decide +kernel⟩,
   ⟨{ hdu .run 9 with pins := ⟨true, true, true, 0, 0, 0, 5, 7, 3⟩ }, 0, 0, 0, [5, 700, 700, -700, 626], .lockLost, by decide +kernel⟩,
   ⟨hd .run 9, 0, 3, 5, [], .stopped, by decide +kernel⟩,
   ⟨(hdu .run 99).onClk 1 (fun c => { c with holdT := some (90, 10), holdF := some (90, 9) }), 1, 2, [625, 700, 700, 700],
    by decide +kernel⟩,
   ⟨hdu .run 9, 1, 3, [], by decide +kernel⟩,
   ⟨hdu .run 9, 1, by decide +kernel⟩,
   ⟨((hdu .run 9).ran).raise 1 0x012, 1, by decide +kernel⟩,
   ⟨hd .run 9, 1, by decide +kernel⟩,
   ⟨(hdu .run 9).fld 1 Fd.TPLL_SH.N 3, 1, by decide +kernel⟩,
   ⟨((hdu .run 9).onClk 1 fun c => { c with applied := (hdu .run 9).shadows 1 }).fld 1 { Fd.SPREAD_SH.W with hi := 31, lo := 31 } 1, 1,
    by decide +kernel⟩,
   ⟨(hdu .run 96).onClk 1 (fun c => { c with update := some [1, 2, 3, 0x80000000#32, 99], applied := [1, 2, 3, 4, 5] }), 1, [1, 2, 3,
    0x80000000#32, 99], by decide +kernel⟩,
   ⟨(hdu .run 96).onClk 1 (fun c => { c with update := some [1, 2, 3, 0x80000000#32, 99], applied := [1, 2, 3, 4, 5] }), 1, [1, 2, 3,
    0x80000000#32, 99], by decide +kernel⟩,
   ⟨(hdu .run 96).onClk 1 (fun c => { c with update := some [1, 2, 3, 0x80000000#32, 99], applied := [1, 2, 3, 4, 5] }), 1, [1, 2, 3,
    0x80000000#32, 99], by decide +kernel⟩,
   ⟨hdu .run 9, 1, 70000, by decide +kernel⟩,
   ⟨hdu .run 9, 1, 800000, 799999, 15, 239, by decide +kernel⟩⟩

theorem test_hypotheses_of_station_ports :
    (∃ (s : State) (d speed : Nat) (pcs an full : Bool), s.shaped = true ∧ s.sane = true ∧ s.netOn d = true) ∧
    (∃ (s : State) (phy reg : BitVec 5) (data : BitVec 16) (write : Bool) (c : Instr), s.shaped = true ∧ s.sane = true ∧ s.isHead = true ∧
     s.alive 0 = true ∧ c = (if write then .mdioWrite phy reg data else .mdioRead phy reg) ∧ s.flag 0 Fd.NET_STATUS.MDIO_BUSY = false) ∧
    (∃ (s : State) (phy reg : BitVec 5) (data : BitVec 16) (write : Bool) (c : Instr), s.shaped = true ∧ s.sane = true ∧ s.isHead = true ∧
     s.alive 0 = true ∧ c = (if write then .mdioWrite phy reg data else .mdioRead phy reg) ∧ s.flag 0 Fd.NET_STATUS.MDIO_BUSY = true) ∧
    (∃ (s : State) (phy reg : BitVec 5) (data : BitVec 16) (write : Bool) (c : Instr) (m : Nat × Bool × BitVec 5 × BitVec 5 × BitVec 16),
     s.shaped = true ∧ s.sane = true ∧ s.isHead = true ∧ s.alive 0 = true ∧ c = (if write then .mdioWrite phy reg data else .mdioRead phy
     reg) ∧ (s.net 0).mdio = some m ∧ s.td0 < m.1 + 20480) ∧
    (∃ (s : State) (phy reg : BitVec 5) (data : BitVec 16) (write : Bool) (c : Instr) (m : Nat × Bool × BitVec 5 × BitVec 5 × BitVec 16),
     s.shaped = true ∧ s.sane = true ∧ s.isHead = true ∧ s.alive 0 = true ∧ c = (if write then .mdioWrite phy reg data else .mdioRead phy
     reg) ∧ (s.net 0).mdio = some m ∧ m.1 + 20480 ≤ s.td0) ∧
    (∃ (s : State) (d : Nat) (f : EthFrame), s.shaped = true ∧ s.sane = true ∧ s.portUp d = true ∧ (f.fcsOk = false ∨ f.length < 64 ∨ 1522
     < f.length)) ∧
    (∃ (s : State) (d : Nat) (f : EthFrame), s.shaped = true ∧ s.sane = true ∧ s.portUp d = true ∧ f.fcsOk = true ∧ 64 ≤ f.length ∧
     f.length ≤ 1522 ∧ (s.takesDst d f = false ∨ 1 < f.tags ∨ s.netMode = 2 ∧ f.source = s.macOf 0)) ∧
    (∃ (s : State) (d : Nat) (f : EthFrame), s.shaped = true ∧ s.sane = true ∧ s.portUp d = true ∧ f.fcsOk = true ∧ 64 ≤ f.length ∧
     f.length ≤ 1522 ∧ s.takesDst d f = true ∧ f.tags ≤ 1 ∧ ¬(s.netMode = 2 ∧ f.source = s.macOf 0) ∧ s.frameKind d f = .other) ∧
    (∃ (s : State) (d : Nat) (f : EthFrame), s.shaped = true ∧ s.sane = true ∧ s.portUp d = true ∧ f.fcsOk = true ∧ 64 ≤ f.length ∧
     f.length ≤ 1522 ∧ s.takesDst d f = true ∧ f.tags ≤ 1 ∧ ¬(s.netMode = 2 ∧ f.source = s.macOf 0) ∧ (s.frameKind d f = .ptp ∨
     s.frameKind d f = .supervision)) ∧
    (∃ (s : State) (d : Nat) (f : EthFrame) (h : Handler) (k : Kept), s.shaped = true ∧ s.sane = true ∧ s.portUp d = true ∧ f.fcsOk = true
     ∧ 64 ≤ f.length ∧ f.length ≤ 1522 ∧ s.takesDst d f = true ∧ f.tags ≤ 1 ∧ ¬(s.netMode = 2 ∧ f.source = s.macOf 0) ∧ (s.frameKind d f =
     .arp ∧ h = Handler.arp ∨ s.frameKind d f = .safety ∧ h = .safety ∨ s.frameKind d f = .management ∧ h = .management) ∧ k = Kept.mk
     f.source f.sequence s.td0 (f.udp.map fun u => (u.1, u.2.1)) f.payload ∧ (s.netMode = 0 ∨ f.sequence = none ∨ (∃ q, f.sequence = some
     q ∧ (s.net 0).dups.find? (fun e => e.1 == f.source && e.2.1 == q && decide (s.td0 < e.2.2.2 + dupTicks)) = none))) ∧
    (∃ (s : State) (d : Nat) (f : EthFrame) (h : Handler) (k : Kept) (q : BitVec 16) (e : BitVec 48 × BitVec 16 × Nat × Nat), s.shaped =
     true ∧ s.sane = true ∧ s.portUp d = true ∧ f.fcsOk = true ∧ 64 ≤ f.length ∧ f.length ≤ 1522 ∧ s.takesDst d f = true ∧ f.tags ≤ 1 ∧
     ¬(s.netMode = 2 ∧ f.source = s.macOf 0) ∧ (s.frameKind d f = .arp ∧ h = Handler.arp ∨ s.frameKind d f = .safety ∧ h = .safety ∨
     s.frameKind d f = .management ∧ h = .management) ∧ k = Kept.mk f.source f.sequence s.td0 (f.udp.map fun u => (u.1, u.2.1)) f.payload
     ∧ s.netMode ≠ 0 ∧ f.sequence = some q ∧ (s.net 0).dups.find? (fun e => e.1 == f.source && e.2.1 == q && decide (s.td0 < e.2.2.2 +
     dupTicks)) = some e ∧ ¬(d = 0 ∧ e.2.2.1 = 1 ∧ e.2.2.2 = s.td0)) ∧
    (∃ (s : State) (d : Nat) (f : EthFrame) (h : Handler) (k : Kept) (q : BitVec 16) (e : BitVec 48 × BitVec 16 × Nat × Nat), s.shaped =
     true ∧ s.sane = true ∧ s.portUp d = true ∧ f.fcsOk = true ∧ 64 ≤ f.length ∧ f.length ≤ 1522 ∧ s.takesDst d f = true ∧ f.tags ≤ 1 ∧
     ¬(s.netMode = 2 ∧ f.source = s.macOf 0) ∧ (s.frameKind d f = .arp ∧ h = Handler.arp ∨ s.frameKind d f = .safety ∧ h = .safety ∨
     s.frameKind d f = .management ∧ h = .management) ∧ k = Kept.mk f.source f.sequence s.td0 (f.udp.map fun u => (u.1, u.2.1)) f.payload
     ∧ s.netMode ≠ 0 ∧ f.sequence = some q ∧ (s.net 0).dups.find? (fun e => e.1 == f.source && e.2.1 == q && decide (s.td0 < e.2.2.2 +
     dupTicks)) = some e ∧ d = 0 ∧ e.2.2.1 = 1 ∧ e.2.2.2 = s.td0) ∧
    (∃ (s : State) (d : Nat) (k : Kept) (u : State), s.shaped = true ∧ s.sane = true ∧ s.portUp d = true ∧ s.takeKept d .arp = some (k, u)) ∧
    (∃ (s : State) (d : Nat) (k : Kept) (u : State), s.shaped = true ∧ s.sane = true ∧ s.portUp d = true ∧ s.takeKept d .arp = some (k, u)) ∧
    (∃ (s : State) (d : Nat), s.shaped = true ∧ s.sane = true ∧ s.portUp d = true ∧ s.takeKept d .arp = none) ∧
    (∃ (s : State) (d : Nat) (k : Kept) (u : State), s.shaped = true ∧ s.sane = true ∧ s.portUp d = true ∧ s.takeKept d .safety = some (k,
     u)) ∧
    (∃ (s : State) (d : Nat), s.shaped = true ∧ s.sane = true ∧ s.portUp d = true ∧ s.takeKept d .safety = none) ∧
    (∃ (s : State), s.shaped = true ∧ s.sane = true ∧ s.netOn 0 = true ∧ s.netMode ≠ 0 ∧ (s.net 0).lastLife + s.rd 0 Fd.RED_CFG.LIFE_MS *
     800000 ≤ s.td0) ∧
    (∃ (s : State), s.shaped = true ∧ s.sane = true ∧ s.netOn 0 = true ∧ s.netMode ≠ 0 ∧ s.td0 < (s.net 0).lastLife + s.rd 0
     Fd.RED_CFG.LIFE_MS * 800000) ∧
    (∃ (s : State) (d res : Nat) (f : EthFrame), s.shaped = true ∧ s.sane = true ∧ s.portUp d = true ∧ s.netMode = 2 ∧ f.fcsOk = true ∧
     f.source ≠ s.macOf 0 ∧ f.dst ≠ s.macOf 0) ∧
    (∃ (s : State) (d res : Nat) (f : EthFrame), s.shaped = true ∧ s.sane = true ∧ s.portUp d = true ∧ s.netMode = 2 ∧ (f.fcsOk = false ∨
     f.source = s.macOf 0 ∨ f.dst = s.macOf 0)) ∧
    (∃ (s : State) (d : Nat), s.shaped = true ∧ s.sane = true ∧ s.isHead = true ∧ d < 2 ∧ s.alive d = true) :=
  ⟨⟨(hd .run 9).portOn 0, 0, 1000, true, true, true, by decide +kernel⟩,
   ⟨hd .run 9, 3, 31, 0xBEEF, true, .mdioWrite 3 31 0xBEEF, by decide +kernel⟩,
   ⟨(hd .run 9).fld 0 Fd.NET_STATUS.MDIO_BUSY 1, 3, 31, 0xBEEF, true, .mdioWrite 3 31 0xBEEF, by decide +kernel⟩,
   ⟨((hd .run 9).fld 0 Fd.NET_STATUS.MDIO_BUSY 1).onNet 0 (fun n => { n with mdio := some (0, false, 3, 31, 0) }), 3, 31, 0xBEEF, true,
    .mdioWrite 3 31 0xBEEF, (0, false, 3, 31, 0), by decide +kernel⟩,
   ⟨((hd .run 20480).fld 0 Fd.NET_STATUS.MDIO_BUSY 1).onNet 0 (fun n => { n with mdio := some (0, false, 3, 31, 0) }), 3, 31, 0xBEEF,
    false, .mdioRead 3 31, (0, false, 3, 31, 0), by decide +kernel⟩,
   ⟨(hd .run 9).portOn 1, 1, { eth 0x88F7 with length := 63 }, by decide +kernel⟩,
   ⟨(hd .run 9).portOn 1, 1, { eth 0x88F7 with tags := 2 }, by decide +kernel⟩,
   ⟨(hd .run 9).portOn 1, 1, { eth 0x1234 with length := 1522 }, by decide +kernel⟩,
   ⟨((hd .run 9).portOn 1).fld 0 Fd.NET_CFG.MODE 1, 1, eth 0x88F7, by decide +kernel⟩,
   ⟨(((hd .run 9).portOn 1).ben 1 16).fld 0 Fd.NET_CFG.MODE 1, 1, eth 0x88B5, .management, _, by decide +kernel, by decide +kernel,
    by decide +kernel, by decide +kernel, by decide +kernel, by decide +kernel, by decide +kernel, by decide +kernel, by decide +kernel,
    by decide +kernel, rfl, .inr (.inr ⟨7, by decide +kernel⟩)⟩,
   ⟨(((hd .run 320000008).portOn 1).fld 0 Fd.NET_CFG.MODE 1).onNet 0 (fun n => { n with dups := [(0x0200AABBCC01, 7, 0, 9)] }), 1, eth
    0x88B5, .management, _, 7, (0x0200AABBCC01, 7, 0, 9), by decide +kernel, by decide +kernel, by decide +kernel, by decide +kernel,
    by decide +kernel, by decide +kernel, by decide +kernel, by decide +kernel, by decide +kernel, by decide +kernel, rfl,
    by decide +kernel⟩,
   ⟨(((hd .run 9).portOn 0).fld 0 Fd.NET_CFG.MODE 1).onNet 0 (fun n => { n with dups := [(0x0200AABBCC01, 7, 1, 9)] }), 0, eth 0x88B5,
    .management, _, 7, (0x0200AABBCC01, 7, 1, 9), by decide +kernel, by decide +kernel, by decide +kernel, by decide +kernel,
    by decide +kernel, by decide +kernel, by decide +kernel, by decide +kernel, by decide +kernel, by decide +kernel, rfl,
    by decide +kernel⟩,
   ⟨(((hd .run 9).portOn 1).portOn 0).fld 1 Fd.IP_ADDR.W 0x0A000001 |>.keeps 1 .arp, 1, keptOf (eth 0x0806) 8 [], (((hd .run 9).portOn
    1).portOn 0).fld 1 Fd.IP_ADDR.W 0x0A000001 |>.keeps 1 .arp |>.onNet 1 (fun n => { n with kept := [] }), by decide +kernel⟩,
   ⟨(((hd .run 9).portOn 1).portOn 0).fld 1 Fd.IP_ADDR.W 0x0A000001 |>.keeps 1 .arp, 1, keptOf (eth 0x0806) 8 [], (((hd .run 9).portOn
    1).portOn 0).fld 1 Fd.IP_ADDR.W 0x0A000001 |>.keeps 1 .arp |>.onNet 1 (fun n => { n with kept := [] }), by decide +kernel⟩,
   ⟨((((hd .run 9).portOn 1).fld 0 Fd.PTP_CFG.PORTS 1).setPtpState 1 6), 1, by decide +kernel⟩,
   ⟨((hd .run 9).portOn 1).ben 1 16 |>.keeps 1 .safety [1, 2, 3], 1, keptOf (eth 0x0806) 8 [1, 2, 3], ((hd .run 9).portOn 1).ben 1 16
    |>.keeps 1 .safety [1, 2, 3] |>.onNet 1 (fun n => { n with kept := [] }), by decide +kernel⟩,
   ⟨((((hd .run 9).portOn 1).fld 0 Fd.PTP_CFG.PORTS 1).setPtpState 1 6), 1, by decide +kernel⟩,
   ⟨(((hd .run 1600000).portOn 0).portOn 1).fld 0 Fd.NET_CFG.MODE 1 |>.fld 0 Fd.RED_CFG.LIFE_MS 2, by decide +kernel⟩,
   ⟨(((hd .run 1599999).portOn 0).portOn 1).fld 0 Fd.NET_CFG.MODE 1 |>.fld 0 Fd.RED_CFG.LIFE_MS 2, by decide +kernel⟩,
   ⟨(((hd .run 9).portOn 0).portOn 1).fld 0 Fd.NET_CFG.MODE 2, 1, 500, eth 0x9999, by decide +kernel⟩,
   ⟨((hd .run 9).portOn 1).fld 0 Fd.NET_CFG.MODE 2, 1, 500, { eth 0x9999 with fcsOk := false }, by decide +kernel⟩,
   ⟨(hd .run 320000009).onNet 0 (fun n => { n with dups := [(1, 7, 1, 10), (2, 7, 1, 9)] }), 1, by decide +kernel⟩⟩

theorem test_hypotheses_of_management_frames :
    (∃ (s : State) (d ctr : Nat) (b : List Byte) (k : Kept) (rest : List (Nat × Kept)) (e : Nat), s.shaped = true ∧ s.sane = true ∧
     s.alive 0 = true ∧ s.blockEn 0 9 = true ∧ (s.net 0).requests = (d, k) :: rest ∧ b = k.payload ∧ ctr = beNat (slice b (mgmtEnd b) 8) ∧
     e ≠ d) ∧
    (∃ (s : State) (d ctr : Nat) (b : List Byte) (k : Kept) (rest : List (Nat × Kept)), s.shaped = true ∧ s.sane = true ∧ s.alive 0 = true
     ∧ s.blockEn 0 9 = true ∧ (s.net 0).requests = (d, k) :: rest ∧ b = k.payload ∧ ctr = beNat (slice b (mgmtEnd b) 8) ∧ d < s.part.dies
     ∧ mgmtForm b = false) ∧
    (∃ (s : State) (d ctr : Nat) (b : List Byte) (k : Kept) (rest : List (Nat × Kept)), s.shaped = true ∧ s.sane = true ∧ s.alive 0 = true
     ∧ s.blockEn 0 9 = true ∧ (s.net 0).requests = (d, k) :: rest ∧ b = k.payload ∧ ctr = beNat (slice b (mgmtEnd b) 8) ∧ d < s.part.dies
     ∧ mgmtForm b = true ∧ s.cmdCheck 0 ctr (b.take (mgmtEnd b + 8)) (slice b (mgmtEnd b + 8) 16) = 2) ∧
    (∃ (s : State) (d ctr : Nat) (b : List Byte) (k : Kept) (rest : List (Nat × Kept)), s.shaped = true ∧ s.sane = true ∧ s.alive 0 = true
     ∧ s.blockEn 0 9 = true ∧ (s.net 0).requests = (d, k) :: rest ∧ b = k.payload ∧ ctr = beNat (slice b (mgmtEnd b) 8) ∧ d < s.part.dies
     ∧ mgmtForm b = true ∧ s.cmdCheck 0 ctr (b.take (mgmtEnd b + 8)) (slice b (mgmtEnd b + 8) 16) = 3) ∧
    (∃ (s : State) (d ctr : Nat) (b : List Byte) (k : Kept) (rest : List (Nat × Kept)) (u : State) (done : List Byte) (v : State) (key
     body : List Byte), s.shaped = true ∧ s.sane = true ∧ s.alive 0 = true ∧ s.blockEn 0 9 = true ∧ (s.net 0).requests = (d, k) :: rest ∧
     b = k.payload ∧ ctr = beNat (slice b (mgmtEnd b) 8) ∧ mgmtForm b = true ∧ s.cmdCheck 0 ctr (b.take (mgmtEnd b + 8)) (slice b (mgmtEnd
     b + 8) 16) = 1 ∧ u = ((s.onNet 0 fun n => { n with requests := rest }).wr 0 Fd.CTR_LO.W 0 (loWord ctr)).wr 0 Fd.CTR_HI.W 0 (hiWord
     ctr) ∧ mgmtRun (mgmtEntries b) [] u = .next (done, v) ∧ (u.sec 0).key = some key ∧ body = [1, 0x81] ++ slice b 2 6 ++ done ++ slice b
     (mgmtEnd b) 8) ∧
    (∃ (s : State) (d ctr : Nat) (b : List Byte) (k : Kept) (rest : List (Nat × Kept)) (u : State), s.shaped = true ∧ s.sane = true ∧
     s.alive 0 = true ∧ s.blockEn 0 9 = true ∧ (s.net 0).requests = (d, k) :: rest ∧ b = k.payload ∧ ctr = beNat (slice b (mgmtEnd b) 8) ∧
     mgmtForm b = true ∧ s.cmdCheck 0 ctr (b.take (mgmtEnd b + 8)) (slice b (mgmtEnd b + 8) 16) = 1 ∧ u = ((s.onNet 0 fun n =>
     { n with requests := rest }).wr 0 Fd.CTR_LO.W 0 (loWord ctr)).wr 0 Fd.CTR_HI.W 0 (hiWord ctr) ∧ s.portUp d = true ∧ ((∀ e ∈
     mgmtEntries b, e.op = 0 ∧ u.access (u.spot e.addr.toNat) = .done ∧ u.openSpot (u.spot e.addr.toNat) = false ∧ ∃ die page off, u.spot
     e.addr.toNat = .page die page off ∧ page ≠ 15))) :=
  ⟨⟨((hdu .run 9).portOn 1).asks 1 [1, 1, 0, 0, 33, 0, 0, 0], 1, _, _, keptOf (eth 0x88B5) 8 [1, 1, 0, 0, 33, 0, 0, 0], [], 0,
    by decide +kernel, by decide +kernel, by decide +kernel, by decide +kernel, by decide +kernel, rfl, rfl, by decide +kernel⟩,
   ⟨((hdu .run 9).portOn 1).asks 1 [1, 1, 0, 0, 33, 0, 0, 0], 1, _, _, keptOf (eth 0x88B5) 8 [1, 1, 0, 0, 33, 0, 0, 0], [],
    by decide +kernel, by decide +kernel, by decide +kernel, by decide +kernel, by decide +kernel, rfl, rfl, by decide +kernel⟩,
   ⟨((hdu .run 9).portOn 1).asks 1 (mgmt [1, 2] [(0, 0x1000000, 0)] 0x300000001), 1, 0x300000001, mgmt [1, 2] [(0, 0x1000000, 0)]
    0x300000001, keptOf (eth 0x88B5) 8 (mgmt [1, 2] [(0, 0x1000000, 0)] 0x300000001), [], by decide +kernel, by decide +kernel,
    by decide +kernel, by decide +kernel, rfl, rfl, by decide +kernel, by decide +kernel, by decide +kernel, rfl⟩,
   ⟨((((hdu .run 9).portOn 1).keyed [1, 2] 3).fld 0 Fd.CTR_LO.W 1 |>.fld 0 Fd.CTR_HI.W 3).asks 1 (mgmt [1, 2] [(0, 0x1000000, 0)]
    0x300000001), 1, 0x300000001, mgmt [1, 2] [(0, 0x1000000, 0)] 0x300000001, keptOf (eth 0x88B5) 8 (mgmt [1, 2] [(0, 0x1000000, 0)]
    0x300000001), [], by decide +kernel, by decide +kernel, by decide +kernel, by decide +kernel, rfl, rfl, by decide +kernel,
    by decide +kernel, by decide +kernel, (mgmt_check rfl (by decide +kernel) (by decide +kernel)).trans (by decide +kernel)⟩,
   ⟨askedBoth, 1, 0x300000001, bothFrame, keptOf (eth 0x88B5) 8 bothFrame, [], bothTaken, (ranMgmt bothFrame bothTaken).1, (ranMgmt
    bothFrame bothTaken).2, [1, 2], _, by decide +kernel, by decide +kernel, by decide +kernel, by decide +kernel, rfl, rfl,
    by decide +kernel, by decide +kernel, (mgmt_check rfl (by decide +kernel) (by decide +kernel)).trans (by decide +kernel), rfl, mgmt_on
    (by decide +kernel), rfl, rfl⟩,
   ⟨askedReads, 1, 0x300000001, readsFrame, keptOf (eth 0x88B5) 8 readsFrame, [], taken askedReads, by decide +kernel, by decide +kernel,
    by decide +kernel, by decide +kernel, rfl, rfl, by decide +kernel, by decide +kernel, (mgmt_check rfl (by decide +kernel)
    (by decide +kernel)).trans (by decide +kernel), rfl, by decide +kernel, fun e he => ⟨(keyed_entries e he).1, (keyed_entries e he).2.1,
    (keyed_entries e he).2.2.1, page_of (keyed_entries e he).2.2.2⟩⟩⟩

theorem test_hypotheses_of_ptp_messages :
    (∃ (s : State) (d fine : Nat) (dom : Byte) (m : PtpMsg), s.sized = true ∧ s.sane = true ∧ s.ptpOn d = true ∧ dom.toNat ≠ s.rd 0
     Fd.PTP_CFG.DOMAIN) ∧
    (∃ (s : State) (d fine : Nat) (dom : Byte) (m : PtpMsg) (clock : PtpClock) (utc : BitVec 16), s.sized = true ∧ s.sane = true ∧ s.ptpOn
     d = true ∧ dom.toNat = s.rd 0 Fd.PTP_CFG.DOMAIN ∧ ((∀ p, s.ptpOn p = true → s.announceDue p = false)) ∧ m = .announce clock utc) ∧
    (∃ (s : State) (d fine : Nat) (dom : Byte) (m : PtpMsg) (sender : BitVec 80) (seq : BitVec 16) (o : Nat) (c : Int) (n : Nat) (trip off
     : Int), s.sized = true ∧ s.sane = true ∧ s.ptpOn d = true ∧ dom.toNat = s.rd 0 Fd.PTP_CFG.DOMAIN ∧ ((∀ p, s.ptpOn p = true →
     s.announceDue p = false)) ∧ s.fromMaster d sender = true ∧ s.ptpDom = some n ∧ n ≤ s.wall.length ∧ ((m = .sync sender seq false o c ∧
     trip = s.ingress d fine - ns48 o - corr48 c ∨ ∃ t0 c0, m = .followUp sender seq o c ∧ (s.net d).syncIn = some (seq, t0, c0) ∧ trip =
     t0 - ns48 o - c0 - corr48 c)) ∧ off = trip - (s.net d).mpd) ∧
    (∃ (s : State) (d fine : Nat) (dom : Byte) (m : PtpMsg) (sender : BitVec 80) (seq : BitVec 16) (o : Nat) (c : Int), s.sized = true ∧
     s.sane = true ∧ s.ptpOn d = true ∧ dom.toNat = s.rd 0 Fd.PTP_CFG.DOMAIN ∧ ((∀ p, s.ptpOn p = true → s.announceDue p = false)) ∧ m =
     .sync sender seq true o c ∧ s.fromMaster d sender = true) ∧
    (∃ (s : State) (d fine : Nat) (dom : Byte) (m : PtpMsg) (seq : BitVec 16) (r : Nat) (c t1 twice : Int), s.sized = true ∧ s.sane = true
     ∧ s.ptpOn d = true ∧ dom.toNat = s.rd 0 Fd.PTP_CFG.DOMAIN ∧ ((∀ p, s.ptpOn p = true → s.announceDue p = false)) ∧ s.requestAt d seq =
     some t1 ∧ ((s.flag 0 Fd.PTP_CFG.P2P = true ∧ m = .pdelayResp seq false r c ∧ twice = s.ingress d fine - t1 - corr48 c ∨ s.flag 0
     Fd.PTP_CFG.P2P = false ∧ s.ptpState d = 9 ∧ m = .delayResp seq r c ∧ (∃ trip, (s.net d).syncTrip = some trip ∧ twice = trip + ns48 r
     - t1 - corr48 c)))) ∧
    (∃ (s : State) (d fine : Nat) (dom : Byte) (m : PtpMsg) (turn : Nat), s.sized = true ∧ s.sane = true ∧ s.ptpOn d = true ∧ dom.toNat =
     s.rd 0 Fd.PTP_CFG.DOMAIN ∧ ((∀ p, s.ptpOn p = true → s.announceDue p = false)) ∧ m = .pdelayReq turn ∧ s.flag 0 Fd.PTP_CFG.P2P = true) ∧
    (∃ (s : State) (d fine : Nat) (dom : Byte) (m : PtpMsg), s.sized = true ∧ s.sane = true ∧ s.ptpOn d = true ∧ dom.toNat = s.rd 0
     Fd.PTP_CFG.DOMAIN ∧ ((∀ p, s.ptpOn p = true → s.announceDue p = false)) ∧ m = .delayReq ∧ s.flag 0 Fd.PTP_CFG.P2P = false ∧
     s.ptpState d = 6) ∧
    (∃ (s : State) (d fine : Nat) (dom : Byte) (m : PtpMsg), s.sized = true ∧ s.sane = true ∧ s.ptpOn d = true ∧ dom.toNat = s.rd 0
     Fd.PTP_CFG.DOMAIN ∧ ((∀ p, s.ptpOn p = true → s.announceDue p = false)) ∧ m = .unsupported) ∧
    (∃ (s : State) (d : Nat), s.sized = true ∧ s.sane = true ∧ s.ptpOn d = true ∧ s.announceDue d = false) ∧
    (∃ (s : State) (d : Nat), s.sized = true ∧ s.sane = true ∧ s.ptpOn d = true ∧ s.announceDue d = true) ∧
    (∃ (s : State) (d fine : Nat) (m : PtpSend), s.sized = true ∧ s.sane = true ∧ s.ptpOn d = true ∧ s.ptpSends d m = true ∧ (s.net
     d).lastSend.getD (ptpIndex m) 0 + s.ptpInterval m ≤ s.td0) ∧
    (∃ (s : State) (d fine : Nat) (m : PtpSend), s.sized = true ∧ s.sane = true ∧ s.ptpOn d = true ∧ s.ptpSends d m = true ∧ s.td0 <
     (s.net d).lastSend.getD (ptpIndex m) 0 + s.ptpInterval m) :=
  ⟨⟨ptp 9 9, 1, 3, 1, .unsupported, by decide +kernel⟩,
   ⟨ptp 9 9, 1, 3, 0, _, { master with gm := 9 }, 38, by decide +kernel, by decide +kernel, by decide +kernel, by decide +kernel, ptp_due
    (by decide +kernel) (by decide +kernel), rfl⟩,
   ⟨(ptp 9 9).fld 0 Fd.SERVO2.STEP_THR 0, 1, 3, 0, .sync 0xABCD 7 false 1000 (-300), 0xABCD, 7, 1000, -300, 2, (ptp 9 9).ingress 1 3 -
    ns48 1000 - corr48 (-300), _, by decide +kernel, by decide +kernel, by decide +kernel, by decide +kernel, ptp_due (by decide +kernel)
    (by decide +kernel), by decide +kernel, by decide +kernel, by decide +kernel, .inl (by decide +kernel), rfl⟩,
   ⟨ptp 9 9, 1, 3, 0, _, 0xABCD, 7, 1000, -300, by decide +kernel, by decide +kernel, by decide +kernel, by decide +kernel, ptp_due
    (by decide +kernel) (by decide +kernel), rfl, by decide +kernel⟩,
   ⟨(ptp 9 9 (fun n => { n with reqOut := some (7, 11) })).fld 0 Fd.PTP_CFG.P2P 1, 1, 3, 0, .pdelayResp 7 false 1000 2, 7, 1000, 2, 11,
    (ptp 9 9).ingress 1 3 - 11 - corr48 2, by decide +kernel, by decide +kernel, by decide +kernel, by decide +kernel, ptp_due
    (by decide +kernel) (by decide +kernel), by decide +kernel, .inl (by decide +kernel)⟩,
   ⟨(ptp 9 6).fld 0 Fd.PTP_CFG.P2P 1, 1, 3, 0, .pdelayReq 4000, 4000, by decide +kernel, by decide +kernel, by decide +kernel,
    by decide +kernel, ptp_due (by decide +kernel) (by decide +kernel), by decide +kernel⟩,
   ⟨(ptp 9 6).fld 0 Fd.PTP_CFG.P2P 0, 1, 3, 0, .delayReq, by decide +kernel, by decide +kernel, by decide +kernel, by decide +kernel,
    ptp_due (by decide +kernel) (by decide +kernel), by decide +kernel⟩,
   ⟨ptp 9 9, 1, 3, 0, .unsupported, by decide +kernel, by decide +kernel, by decide +kernel, by decide +kernel, ptp_due
    (by decide +kernel) (by decide +kernel), by decide +kernel⟩,
   ⟨ptp 9 9, 1, by decide +kernel⟩,
   ⟨(ptp 9 9 (fun n => n)).onNet 1 (fun n => { n with ann := none }) |> fun s => { s with td0 := 16000000000 }, 1, by decide +kernel⟩,
   ⟨(ptp 8000000000 6).fld 0 Fd.PTP_CFG.P2P 1, 1, 3, .pdelayReq, by decide +kernel⟩,
   ⟨ptp 9 6, 1, 3, .sync, by decide +kernel⟩⟩

theorem test_hypotheses_of_wall_time :
    (∃ (s : State) (n : Nat) (value : Word), s.sized = true ∧ s.sane = true ∧ s.isHead = true ∧ s.alive 0 = true ∧ 1 ≤ n ∧ n ≤ 3 ∧ bitOf
     value.toNat 31 = false) ∧
    (∃ (s : State) (n : Nat) (value : Word), s.sized = true ∧ s.sane = true ∧ s.isHead = true ∧ s.alive 0 = true ∧ 1 ≤ n ∧ n ≤ 3 ∧ bitOf
     value.toNat 31 = true ∧ s.inFlight (n + 7) = false ∧ (s.wallOf n).nextOk ≤ s.td0 + 1 ∧ (s.wallOf n).lastUpd ≠ some s.td0) ∧
    (∃ (s : State) (n : Nat) (value : Word), s.sized = true ∧ s.sane = true ∧ s.isHead = true ∧ s.alive 0 = true ∧ 1 ≤ n ∧ n ≤ 3 ∧ bitOf
     value.toNat 31 = true ∧ s.inFlight (n + 7) = true ∧ (s.wallOf n).lastUpd ≠ some s.td0) ∧
    (∃ (s : State) (n t0 : Nat), s.sized = true ∧ s.sane = true ∧ s.netOn 0 = true ∧ 1 ≤ n ∧ n ≤ 3 ∧ s.tdSrc n ≠ 0 ∧ (s.wallOf n).hold =
     false ∧ (s.wallOf n).lastUpd = some t0 ∧ s.td0 < t0 + max 1 (s.rd 0 Fd.SERVO2.SYNC_TO) * 800000000) ∧
    (∃ (s : State) (n t0 : Nat), s.sized = true ∧ s.sane = true ∧ s.netOn 0 = true ∧ 1 ≤ n ∧ n ≤ 3 ∧ s.tdSrc n ≠ 0 ∧ (s.wallOf n).hold =
     false ∧ (s.wallOf n).lastUpd = some t0 ∧ t0 + max 1 (s.rd 0 Fd.SERVO2.SYNC_TO) * 800000000 ≤ s.td0) ∧
    (∃ (s : State) (stable tick : Nat), s.sized = true ∧ s.sane = true ∧ s.netOn 0 = true ∧ tick = s.td0 - s.ppsFilter ∧ stable <
     s.ppsFilter) ∧
    (∃ (s : State) (stable tick : Nat), s.sized = true ∧ s.sane = true ∧ s.netOn 0 = true ∧ tick = s.td0 - s.ppsFilter ∧ s.ppsFilter ≤
     stable) ∧
    (∃ (s : State) (stable tick : Nat), s.sized = true ∧ s.sane = true ∧ s.netOn 0 = true ∧ tick = s.td0 - s.ppsFilter) ∧
    (∃ (s : State) (n : Nat), s.sized = true ∧ n = s.rd 0 Fd.PPS_CFG.OUT_SEL ∧ s.ppsOutOn = true ∧ (s.wallOf n).prev / (10 ^ 9 * 2 ^ 48) <
     (s.wallOf n).time / (10 ^ 9 * 2 ^ 48) ∧ n ≠ 0) ∧
    (∃ (s : State) (n : Nat), s.sized = true ∧ n = s.rd 0 Fd.PPS_CFG.OUT_SEL ∧ s.ppsOutOn = true ∧ ((s.wallOf n).time / (10 ^ 9 * 2 ^ 48)
     ≤ (s.wallOf n).prev / (10 ^ 9 * 2 ^ 48) ∨ n = 0)) ∧
    (∃ (s : State) (i : Int), s.shaped = true ∧ s.sane = true ∧ s.ppsOutOn = true ∧ (s.net 0).ppsRise = some i ∧ i / 8 ≤ s.td0) ∧
    (∃ (s : State) (i : Int), s.shaped = true ∧ s.sane = true ∧ s.ppsOutOn = true ∧ (s.net 0).ppsRise = some i ∧ (s.td0 : Int) < i / 8) ∧
    (∃ (s : State) (i : Int), s.shaped = true ∧ s.sane = true ∧ s.ppsOutOn = true ∧ (s.net 0).ppsHigh = some i ∧ i / 8 + max 1 (s.rd 0
     Fd.PPS_CFG.WIDTH) * 800000 ≤ s.td0) ∧
    (∃ (s : State) (i : Int), s.shaped = true ∧ s.sane = true ∧ s.ppsOutOn = true ∧ (s.net 0).ppsHigh = some i ∧ (s.td0 : Int) < i / 8 +
     max 1 (s.rd 0 Fd.PPS_CFG.WIDTH) * 800000) :=
  ⟨⟨hd .run 9, 3, 0x40000002, by decide +kernel⟩,
   ⟨((hd .run 9).fld 0 Fd.TD_SET_NS.W 0xFFFFFFFF 2).fld 0 Fd.TD_SET_SEC_LO.W 5 2, 3, 0xC0000001, by decide +kernel⟩,
   ⟨{ ((hd .run 9).fld 0 Fd.TD_SET_NS.W 7 0) with mirrors := [⟨8, 100, .tdTrim 5, []⟩] }, 1, 0x80000000, by decide +kernel⟩,
   ⟨(((hd .run 2400000008).ben 0 9).fld 0 Fd.SERVO2.SYNC_TO 3).fld 0 Fd.TD_CTRL.SRC 2 1 |>.onWall 2 (fun w =>
    { w with lastUpd := some 9 }), 2, 9, by decide +kernel⟩,
   ⟨(((hd .run 2400000009).ben 0 9).fld 0 Fd.SERVO2.SYNC_TO 3).fld 0 Fd.TD_CTRL.SRC 2 1 |>.fld 0 Fd.SERVO2.LOSS_FLT 1 |>.onWall 2 (fun w
    => { w with lastUpd := some 9 }), 2, 9, by decide +kernel⟩,
   ⟨(hd .run 8200).fld 0 Fd.PPS_CFG.PPS_FLT 251, 7999, _, by decide +kernel, by decide +kernel, by decide +kernel, rfl,
    by decide +kernel⟩,
   ⟨(((hd .run 800000000).ben 0 9).fld 0 Fd.TD_CTRL.SRC 2 1).fld 0 Fd.PPS_CFG.PPS_FLT 3 |>.onWall 2 (fun w =>
    { w with time := 10 ^ 9 * 2 ^ 48 * 3 + 77 }), 96, _, by decide +kernel, by decide +kernel, by decide +kernel, rfl, by decide +kernel⟩,
   ⟨(hd .run 8200).fld 0 Fd.PPS_CFG.PPS_FLT 251, 7999, _, by decide +kernel, by decide +kernel, by decide +kernel, rfl⟩,
   ⟨(((hd .run 800000000).ben 0 9).fld 0 Fd.PPS_CFG.OUT_SEL 2).onWall 2 (fun w =>
    { w with prev := 10 ^ 9 * 2 ^ 48 * 3 - 1, time := 10 ^ 9 * 2 ^ 48 * 3 }), 2, by decide +kernel⟩,
   ⟨(((hd .run 800000000).ben 0 9).fld 0 Fd.PPS_CFG.OUT_SEL 2).onWall 2 (fun w =>
    { w with prev := 10 ^ 9 * 2 ^ 48 * 3, time := 10 ^ 9 * 2 ^ 48 * 3 + 5 }), 2, by decide +kernel⟩,
   ⟨((hd .run 800009).ben 0 9).onNet 0 (fun n => { n with ppsRise := some 6400079 }), 6400079, by decide +kernel⟩,
   ⟨((hd .run 800009).ben 0 9).onNet 0 (fun n => { n with ppsRise := some 6400080 }), 6400080, by decide +kernel⟩,
   ⟨((hd .run 800009).ben 0 9).fld 0 Fd.PPS_CFG.WIDTH 0 |>.onNet 0 (fun n => { n with ppsHigh := some 72 }), 72, by decide +kernel⟩,
   ⟨((hd .run 800008).ben 0 9).fld 0 Fd.PPS_CFG.WIDTH 1 |>.onNet 0 (fun n => { n with ppsHigh := some 72 }), 72, by decide +kernel⟩⟩

theorem test_hypotheses_of_safety_inputs :
    (∃ (s : State) (ch i k n : Nat) (fb v : Bool) (levels : List (Bool × Nat)), s.sized = true ∧ s.chanOn ch = true ∧ s.atSample = true ∧
     i < (if fb then 8 else 16) ∧ k = (if fb then 16 + i else i) ∧ v = filtered (s.glitchTicks ch fb i) (s.flag ch ⟨0xA, 0x38, 1, k, k⟩)
     levels ∧ n = (if ((s.saf ch).run.getD k (false, 0)).1 = v then ((s.saf ch).run.getD k (false, 0)).2 + 1 else 1) ∧ (s.saf
     ch).rawAt.getD k none ≠ some s.td0) ∧
    (∃ (s : State) (ch i k n : Nat) (fb v : Bool) (levels : List (Bool × Nat)), s.sized = true ∧ s.chanOn ch = true ∧ s.atSample = true ∧
     i < (if fb then 8 else 16) ∧ k = (if fb then 16 + i else i) ∧ v = filtered (s.glitchTicks ch fb i) (s.flag ch ⟨0xA, 0x38, 1, k, k⟩)
     levels ∧ n = (if ((s.saf ch).run.getD k (false, 0)).1 = v then ((s.saf ch).run.getD k (false, 0)).2 + 1 else 1) ∧ (s.saf
     ch).rawAt.getD k none = some s.td0) ∧
    (∃ (s : State) (ch f t0 : Nat), s.sized = true ∧ s.evaluates ch = true ∧ s.atSample = true ∧ f < 16 ∧ (s.saf ch).longDone.getD f true
     = false ∧ (s.saf ch).rise.getD f none = some t0 ∧ s.td0 < t0 + 4000000000) ∧
    (∃ (s : State) (ch f t0 : Nat), s.sized = true ∧ s.evaluates ch = true ∧ s.atSample = true ∧ f < 16 ∧ (s.saf ch).longDone.getD f true
     = false ∧ (s.saf ch).rise.getD f none = some t0 ∧ t0 + 4000000000 ≤ s.td0) ∧
    (∃ (s : State) (ch f t0 k : Nat) (hand2 fault : Bool), s.sized = true ∧ s.evaluates ch = true ∧ s.atSample = true ∧ f < 16 ∧ k = (if
     hand2 then 16 + f else f) ∧ (s.saf ch).disc.getD k none = some (t0, fault) ∧ t0 < s.td0 ∧ s.fnPair ch f (s.viewAt ch (s.td0 - 1))
     hand2 ≠ 2) ∧
    (∃ (s : State) (ch f t0 k : Nat) (hand2 fault : Bool), s.sized = true ∧ s.evaluates ch = true ∧ s.atSample = true ∧ f < 16 ∧ k = (if
     hand2 then 16 + f else f) ∧ (s.saf ch).disc.getD k none = some (t0, fault) ∧ t0 < s.td0 ∧ s.fnPair ch f (s.viewAt ch (s.td0 - 1))
     hand2 = 2 ∧ fault = false ∧ t0 + s.discTicks ch f ≤ s.td0) ∧
    (∃ (s : State) (ch f t0 k : Nat) (hand2 fault : Bool), s.sized = true ∧ s.evaluates ch = true ∧ s.atSample = true ∧ f < 16 ∧ k = (if
     hand2 then 16 + f else f) ∧ (s.saf ch).disc.getD k none = some (t0, fault) ∧ t0 < s.td0 ∧ s.fnPair ch f (s.viewAt ch (s.td0 - 1))
     hand2 = 2 ∧ (fault = true ∨ s.td0 < t0 + s.discTicks ch f)) ∧
    (∃ (s : State) (n : Nat), s.sized = true ∧ s.evaluates 0 = true ∧ s.blockEn 0 0xA = true ∧ n < 4 ∧ s.tpEn 0 n = true ∧ s.tpTick 0 n 0
     = true) ∧
    (∃ (s : State) (n : Nat), s.sized = true ∧ s.evaluates 0 = true ∧ s.blockEn 0 0xA = true ∧ n < 4 ∧ s.tpEn 0 n = true ∧ s.tpTick 0 n 0
     = false) ∧
    (∃ (s : State) (ch i : Nat) (found : Bool), s.readsBack ch i = true) ∧
    (∃ (s : State) (ch i n : Nat) (found : Bool), s.sized = true ∧ s.evaluates ch = true ∧ s.blockEn ch 0xA = true ∧ i < 16 ∧ n = s.rd ch
     Fd.IN_CFG.TSRC i ∧ 1 ≤ n ∧ n ≤ 4 ∧ s.tpEn ch (n - 1) = true ∧ s.ofCurtain ch i = false ∧ s.readsBack ch i = false ∧ s.tpTick ch (n -
     1) (s.tpW ch - 1) = true ∧ s.rawNow ch i found = true) ∧
    (∃ (s : State) (ch i n : Nat) (found : Bool), s.sized = true ∧ s.evaluates ch = true ∧ s.blockEn ch 0xA = true ∧ i < 16 ∧ n = s.rd ch
     Fd.IN_CFG.TSRC i ∧ 1 ≤ n ∧ n ≤ 4 ∧ s.tpEn ch (n - 1) = true ∧ s.ofCurtain ch i = false ∧ s.readsBack ch i = false ∧ s.tpTick ch (n -
     1) (s.tpW ch - 1) = true ∧ s.rawNow ch i found = false) :=
  ⟨⟨(sf .run 40000).fld 1 Fd.IN_CFG.GF 250 3 |>.onSaf 1 (fun x => { x with run := setAt x.run 3 fun _ => (true, 9) }), 1, 3, _, _, false,
    _, [(true, 8000), (false, 7999)], by decide +kernel, by decide +kernel, by decide +kernel, by decide +kernel, rfl, rfl, rfl,
    by decide +kernel⟩,
   ⟨(sf .run 40000).onSaf 1 (fun x => { x with rawAt := setAt x.rawAt 3 fun _ => some 40000 }), 1, 3, _, _, false, _, [(true, 100000)],
    by decide +kernel, by decide +kernel, by decide +kernel, by decide +kernel, rfl, rfl, rfl, by decide +kernel⟩,
   ⟨(sf .run 4000040000).onSaf 1 (fun x => { x with rise := setAt x.rise 15 fun _ => some 80000 }), 1, 15, 80000, by decide +kernel⟩,
   ⟨(sf .run 4000080000).onSaf 1 (fun x => { x with rise := setAt x.rise 15 fun _ => some 80000 }), 1, 15, 80000, by decide +kernel⟩,
   ⟨((((sf .run 120000).onSaf 1 (fun x => { x with disc := setAt x.disc 31 fun _ => some (40000, false) })).fld 1 Fd.FN_TIME.DISC_N 2
    15).onSaf 1 (fun x => { x with hist := [(40000, 0)] })).fld 1 Fd.FN_CFG.IN3 1 15, 1, 15, 40000, 31, true, false, by decide +kernel⟩,
   ⟨((((sf .run 120000).onSaf 1 (fun x => { x with disc := setAt x.disc 31 fun _ => some (40000, false) })).fld 1 Fd.FN_TIME.DISC_N 2
    15).onSaf 1 (fun x => { x with hist := [(40000, 1)] })).fld 1 Fd.FN_CFG.IN3 1 15, 1, 15, 40000, 31, true, false, by decide +kernel⟩,
   ⟨((((sf .run 80000).onSaf 1 (fun x => { x with disc := setAt x.disc 15 fun _ => some (40000, false) })).fld 1 Fd.FN_TIME.DISC_N 2
    15).onSaf 1 (fun x => { x with hist := [(40000, 1)] })).fld 1 Fd.FN_CFG.IN1 1 15, 1, 15, 40000, 15, false, false, by decide +kernel⟩,
   ⟨((sf .run 14000000).fld 0 Fd.SAF_TEST.TP_EN 15).fld 0 Fd.SAF_TEST.TP_PER 10, 3, by decide +kernel⟩,
   ⟨((sf .run 6040000).fld 0 Fd.SAF_TEST.TP_EN 15).fld 0 Fd.SAF_TEST.TP_PER 10, 3, by decide +kernel⟩,
   ⟨((sf .run 6120000).fld 1 Fd.OUT_MAP.RB_SRC 1 7).fld 1 Fd.OUT_MAP.RB_IN_B 15 7, 1, 15, true, by decide +kernel⟩,
   ⟨(((sf .run 6120000).fld 1 Fd.SAF_TEST.TP_EN 8).fld 1 Fd.SAF_TEST.TP_PER 10).fld 1 Fd.SAF_TEST.TP_W 4 |>.fld 1 Fd.IN_CFG.TSRC 4 15, 1,
    15, 4, true, by decide +kernel⟩,
   ⟨(((sf .run 6120000).fld 1 Fd.SAF_TEST.TP_EN 8).fld 1 Fd.SAF_TEST.TP_PER 10).fld 1 Fd.SAF_TEST.TP_W 4 |>.fld 1 Fd.IN_CFG.TSRC 4 15, 1,
    15, 4, false, by decide +kernel⟩⟩

theorem test_hypotheses_of_safety_outputs :
    (∃ (s : State) (ch j : Nat) (rb ball : Bool), s.sized = true ∧ s.evaluates ch = true ∧ j < 8 ∧ s.darkOf ch j = none ∧ s.otTick ch j =
     true ∧ s.outCmd ch j = true ∧ s.flag ch Fd.OUT_MAP.TEST_EN j = true ∧ (s.saf ch).outAt.getD j none ≠ some s.td0) ∧
    (∃ (s : State) (ch j : Nat) (rb ball : Bool), s.sized = true ∧ s.evaluates ch = true ∧ j < 8 ∧ s.darkOf ch j = none ∧ (s.otTick ch j =
     false ∨ s.outCmd ch j = false ∨ s.flag ch Fd.OUT_MAP.TEST_EN j = false)) ∧
    (∃ (s : State) (ch j : Nat) (rb ball : Bool) (t0 : Nat) (ok : Bool), s.sized = true ∧ s.evaluates ch = true ∧ j < 8 ∧ s.darkOf ch j =
     some (t0, ok) ∧ s.td0 = t0 + (s.otW ch - 1) * sampleTicks ∧ rb = s.readbackOf ch j ball) ∧
    (∃ (s : State) (ch j : Nat) (rb ball : Bool) (t0 : Nat) (ok : Bool), s.sized = true ∧ s.evaluates ch = true ∧ j < 8 ∧ s.darkOf ch j =
     some (t0, ok) ∧ s.td0 ≠ t0 + (s.otW ch - 1) * sampleTicks) ∧
    (∃ (s : State) (ch j : Nat) (level ball : Bool), s.sized = true ∧ s.evaluates ch = true ∧ s.atSample = true ∧ j < 8 ∧ level =
     s.readbackOf ch j ball) ∧
    (∃ (s : State) (ch j : Nat), s.sized = true ∧ s.evaluates ch = true ∧ s.atSample = true ∧ j < 8 ∧ s.flag ch Fd.FB_CFG.FB_EN j = true) ∧
    (∃ (s : State) (ch j : Nat), s.sized = true ∧ s.evaluates ch = true ∧ s.atSample = true ∧ j < 8 ∧ s.flag ch Fd.FB_CFG.FB_EN j = false) ∧
    (∃ (s t : State) (ch j : Nat) (level : Bool) (t0 : Nat) (ok : Bool), s.sized = true ∧ s.evaluates ch = true ∧ j < 8 ∧ t = s.endSample
     ch ∧ (s.saf ch).checks = [.dark j level] ∧ s.darkOf ch j = some (t0, ok) ∧ ok = true ∧ level = true) ∧
    (∃ (s t : State) (ch j : Nat) (level : Bool) (t0 : Nat) (ok : Bool), s.sized = true ∧ s.evaluates ch = true ∧ j < 8 ∧ t = s.endSample
     ch ∧ (s.saf ch).checks = [.dark j level] ∧ s.darkOf ch j = some (t0, ok) ∧ (ok = false ∨ level = false)) ∧
    (∃ (s t : State) (ch j : Nat) (level : Bool) (t0 : Nat) (ok : Bool), s.sized = true ∧ s.evaluates ch = true ∧ j < 8 ∧ t = s.endSample
     ch ∧ (s.saf ch).checks = [.dark j level] ∧ s.darkOf ch j = some (t0, ok)) ∧
    (∃ (s t : State) (ch j : Nat) (level : Bool), s.sized = true ∧ s.evaluates ch = true ∧ j < 8 ∧ t = s.endSample ch ∧ (s.saf ch).checks
     = [.readback j level] ∧ ((∃ t0, (s.saf ch).lvlAt.getD j none = some t0 ∧ s.td0 < t0 + sampleTicks))) ∧
    (∃ (s t : State) (ch j : Nat) (level : Bool), s.sized = true ∧ s.evaluates ch = true ∧ j < 8 ∧ t = s.endSample ch ∧ (s.saf ch).checks
     = [.readback j level] ∧ ((∀ t0, (s.saf ch).lvlAt.getD j none = some t0 → t0 + sampleTicks ≤ s.td0)) ∧ level = s.outBall ch j) ∧
    (∃ (s t : State) (ch j : Nat) (level : Bool), s.sized = true ∧ s.evaluates ch = true ∧ j < 8 ∧ t = s.endSample ch ∧ (s.saf ch).checks
     = [.readback j level] ∧ ((∀ t0, (s.saf ch).lvlAt.getD j none = some t0 → t0 + sampleTicks ≤ s.td0)) ∧ level ≠ s.outBall ch j) ∧
    (∃ (s t : State) (ch j : Nat) (level : Bool), s.sized = true ∧ s.evaluates ch = true ∧ j < 8 ∧ t = s.endSample ch ∧ (s.saf ch).checks
     = [.readback j level]) ∧
    (∃ (s t : State) (ch j : Nat) (level : Bool) (t0 : Nat), s.sized = true ∧ s.evaluates ch = true ∧ j < 8 ∧ t = s.endSample ch ∧ (s.saf
     ch).checks = [.feedback j] ∧ (s.saf ch).outAt.getD j none = some t0 ∧ bitOf (s.accepted ch) (16 + j) = s.outCmd ch j ∧ t0 + limited
     10 500 (s.rd ch Fd.FB_CFG.EDM_MS j) * 800000 ≤ s.td0) ∧
    (∃ (s t : State) (ch j : Nat) (level : Bool) (t0 : Nat), s.sized = true ∧ s.evaluates ch = true ∧ j < 8 ∧ t = s.endSample ch ∧ (s.saf
     ch).checks = [.feedback j] ∧ (s.saf ch).outAt.getD j none = some t0 ∧ (bitOf (s.accepted ch) (16 + j) ≠ s.outCmd ch j ∨ s.td0 < t0 +
     limited 10 500 (s.rd ch Fd.FB_CFG.EDM_MS j) * 800000)) ∧
    (∃ (s t : State) (ch j : Nat) (level : Bool) (t0 : Nat), s.sized = true ∧ s.evaluates ch = true ∧ j < 8 ∧ t = s.endSample ch ∧ (s.saf
     ch).checks = [.feedback j] ∧ (s.saf ch).outAt.getD j none = some t0) ∧
    (∃ (s t : State) (ch j : Nat) (level : Bool), s.sized = true ∧ s.evaluates ch = true ∧ j < 8 ∧ t = s.endSample ch ∧ (s.saf ch).checks
     = [.ask] ∧ s.inLockout ch = true ∧ s.resetAllowed ch = true) ∧
    (∃ (s t : State) (ch j : Nat) (level : Bool), s.sized = true ∧ s.evaluates ch = true ∧ j < 8 ∧ t = s.endSample ch ∧ (s.saf ch).checks
     = [.ask] ∧ s.inLockout ch = true ∧ s.resetAllowed ch = false) ∧
    (∃ (s t : State) (ch j : Nat) (level : Bool), s.sized = true ∧ s.evaluates ch = true ∧ j < 8 ∧ t = s.endSample ch ∧ (s.saf ch).checks
     = [.ask] ∧ s.inLockout ch = true) :=
  ⟨⟨{ ((sf .run 150000000).fld 1 Fd.SAF_STATUS.OUT_ON 0x80).fld 1 Fd.OUT_MAP.TEST_EN 1 7 with pins := { (sf .run 0).pins with sob := 0x80, soa := 0x80 } },
    1, 7, true, true, by decide +kernel⟩,
   ⟨((sf .run 150000001).fld 1 Fd.SAF_STATUS.OUT_ON 0x80), 1, 7, true, true, by decide +kernel⟩,
   ⟨((sf .run 120000).fld 1 Fd.SAF_TEST.OT_W 3).onSaf 1 (fun x => { x with dark := setAt x.dark 7 fun _ => some (40000, true) }), 1, 7,
    true, true, 40000, true, by decide +kernel⟩,
   ⟨((sf .run 80000).fld 1 Fd.SAF_TEST.OT_W 3).onSaf 1 (fun x => { x with dark := setAt x.dark 7 fun _ => some (40000, true) }), 1, 7,
    true, true, 40000, true, by decide +kernel⟩,
   ⟨sf .run 120000, 1, 7, _, true, by decide +kernel, by decide +kernel, by decide +kernel, by decide +kernel, rfl⟩,
   ⟨(((sf .run 8040000).fld 1 Fd.FB_CFG.EDM_MS 10 7).fld 1 Fd.FB_CFG.FB_EN 1 7).onSaf 1 (fun x =>
    { x with outAt := setAt x.outAt 7 fun _ => some 40000 }), 1, 7, by decide +kernel⟩,
   ⟨sf .run 8000000, 1, 7, by decide +kernel⟩,
   ⟨ends 120000 [.dark 7 true] (fun x => { x with dark := setAt x.dark 7 fun _ => some (40000, true) }), _, 1, 7, true, 40000, true,
    by decide +kernel, by decide +kernel, by decide +kernel, rfl, by decide +kernel⟩,
   ⟨ends 120000 [.dark 7 true] (fun x => { x with dark := setAt x.dark 7 fun _ => some (40000, false) }), _, 1, 7, true, 40000, false,
    by decide +kernel, by decide +kernel, by decide +kernel, rfl, by decide +kernel⟩,
   ⟨ends 120000 [.dark 7 true] (fun x => { x with dark := setAt x.dark 7 fun _ => some (40000, true) }), _, 1, 7, true, 40000, true,
    by decide +kernel, by decide +kernel, by decide +kernel, rfl, by decide +kernel⟩,
   ⟨ends 120000 [.readback 7 true] (fun x => { x with lvlAt := setAt x.lvlAt 7 fun _ => some 80001 }), _, 1, 7, true, by decide +kernel,
    by decide +kernel, by decide +kernel, rfl, by decide +kernel, ⟨80001, by decide +kernel⟩⟩,
   ⟨ends 120000 [.readback 7 false] (fun x => { x with mism := setAt x.mism 7 fun _ => 1 }), _, 1, 7, false, by decide +kernel,
    by decide +kernel, by decide +kernel, rfl, by decide +kernel⟩,
   ⟨ends 120000 [.readback 7 true] (fun x => { x with mism := setAt x.mism 7 fun _ => 1 }), _, 1, 7, true, by decide +kernel,
    by decide +kernel, by decide +kernel, rfl, by decide +kernel⟩,
   ⟨ends 120000 [.readback 7 true] (fun x => { x with mism := setAt x.mism 7 fun _ => 1 }), _, 1, 7, true, by decide +kernel,
    by decide +kernel, by decide +kernel, rfl, by decide +kernel⟩,
   ⟨(ends 8040000 [.feedback 7] (fun x => { x with outAt := setAt x.outAt 7 fun _ => some 40000 })).fld 1 Fd.FB_CFG.EDM_MS 10 7, _, 1, 7,
    true, 40000, by decide +kernel, by decide +kernel, by decide +kernel, rfl, by decide +kernel⟩,
   ⟨(ends 8039999 [.feedback 7] (fun x => { x with outAt := setAt x.outAt 7 fun _ => some 40000 })).fld 1 Fd.FB_CFG.EDM_MS 10 7, _, 1, 7,
    true, 40000, by decide +kernel, by decide +kernel, by decide +kernel, rfl, by decide +kernel⟩,
   ⟨(ends 8040000 [.feedback 7] (fun x => { x with outAt := setAt x.outAt 7 fun _ => some 40000 })).fld 1 Fd.FB_CFG.EDM_MS 10 7, _, 1, 7,
    true, 40000, by decide +kernel, by decide +kernel, by decide +kernel, rfl, by decide +kernel⟩,
   ⟨(ends 5 [.ask]).fld 1 Fd.SAF_STATUS.LOCKOUT 1, _, 1, 7, true, by decide +kernel, by decide +kernel, by decide +kernel, rfl,
    by decide +kernel⟩,
   ⟨(ends 5 [.ask]).fld 1 Fd.SAF_STATUS.LOCKOUT 1 |>.fld 1 Fd.FB_CFG.FB_EN 1 7, _, 1, 7, true, by decide +kernel, by decide +kernel,
    by decide +kernel, rfl, by decide +kernel⟩,
   ⟨(ends 5 [.ask]).fld 1 Fd.SAF_STATUS.LOCKOUT 1, _, 1, 7, true, by decide +kernel, by decide +kernel, by decide +kernel, rfl,
    by decide +kernel⟩⟩

theorem test_hypotheses_of_safety_cycles :
    (∃ (s u : State) (ch : Nat), s.sized = true ∧ s.evaluates ch = true ∧ s.atBoundary = true ∧ (s.saf ch).cycleAt < s.td0 ∧ u =
     (s.showSig ch).when (decide ((s.saf ch).cycleAt + 800 ≤ s.td0)) (·.imageAbsent ch)) ∧
    (∃ (s : State) (ch : Nat), s.joins (1 - ch) ch = false) ∧
    (∃ (s : State) (ch : Nat) (p o : Image), s.sized = true ∧ s.evaluates ch = true ∧ s.joins (1 - ch) ch = true ∧ (s.saf (1 - ch)).own =
     some p ∧ (s.saf ch).own = some o ∧ ((∀ q, (s.saf ch).peer = some q → q.tick ≠ p.tick))) ∧
    (∃ (s : State) (ch : Nat), s.sized = true ∧ s.evaluates ch = true ∧ (s.saf ch).cycleAt + 800 ≤ s.td0 ∧ (s.saf ch).own.isSome = true ∧
     (s.saf ch).met = false) ∧
    (∃ (s : State) (ch : Nat), s.sized = true ∧ s.evaluates ch = true ∧ (s.saf ch).cycleAt + 800 ≤ s.td0 ∧ ((s.saf ch).own = none ∨ (s.saf
     ch).met = true)) ∧
    (∃ (s : State) (ch : Nat) (value : Word), s.sized = true ∧ s.sane = true ∧ s.chanOn ch = true) ∧
    (∃ (s : State) (ch : Nat) (value : Word), s.sized = true ∧ s.sane = true ∧ s.chanOn ch = true ∧ s.evaluates ch = true ∧ bitsOf
     value.toNat 15 0 = 0x5A5A ∧ s.flag ch Fd.SAF_LORST.CMD_EN = true) ∧
    (∃ (s : State) (ch : Nat) (value : Word), s.sized = true ∧ s.sane = true ∧ s.chanOn ch = true ∧ s.evaluates ch = true ∧ (bitsOf
     value.toNat 15 0 ≠ 0x5A5A ∨ s.flag ch Fd.SAF_LORST.CMD_EN = false)) ∧
    (∃ (s : State) (ch off : Nat) (value : Word), s.sized = true ∧ s.sane = true ∧ s.chanOn ch = true ∧ safConfigOff off = true) ∧
    (∃ (s : State) (ch off : Nat) (value : Word), s.sized = true ∧ s.sane = true ∧ s.chanOn ch = true ∧ safConfigOff off = true ∧ s.device
     ≠ .config ∧ s.device ≠ .standstill) ∧
    (∃ (s : State) (ch off : Nat) (value : Word) (r : RegDef), s.sized = true ∧ s.sane = true ∧ s.chanOn ch = true ∧ safConfigOff off =
     true ∧ (s.device = .config ∨ s.device = .standstill) ∧ findReg regsSaf off = some r) :=
  ⟨⟨sf .run 600000, _, 1, by decide +kernel, by decide +kernel, by decide +kernel, by decide +kernel, rfl⟩,
   ⟨sf .run 400000, 1, by decide +kernel⟩,
   ⟨((joined 400799).onSaf 0 (fun x => { x with own := some (img 400000 1 0) })).onSaf 1 (fun x =>
    { x with own := some (img 400000 0 0), peer := some (img 200000 5 5), diff := 2, met := false }), 1, img 400000 1 0, img 400000 0 0,
    by decide +kernel⟩,
   ⟨(sf .run 400800).onSaf 1 (fun x =>
    { x with own := some (img 400000 0 0), peer := some (img 200000 0 0), cycleAt := 400000, met := false }), 1, by decide +kernel⟩,
   ⟨(sf .run 4000040000).onSaf 1 (fun x => { x with rise := setAt x.rise 15 fun _ => some 80000 }), 1, by decide +kernel⟩,
   ⟨sf .config 5, 1, 0x5A5A, by decide +kernel⟩,
   ⟨(sf .run 5).fld 1 Fd.SAF_LORST.CMD_EN 1, 1, 0x5A5A, by decide +kernel⟩,
   ⟨(sf .run 5).fld 1 Fd.SAF_LORST.CMD_EN 1, 1, 0x5A5B, by decide +kernel⟩,
   ⟨sf .config 5, 1, 0x204, 0xFFFFFFFF, by decide +kernel⟩,
   ⟨sf .run 5, 1, 0x204, 0xFFFFFFFF, by decide +kernel⟩,
   ⟨sf .standstill 5, 1, 0x204, 0xFFFFFFFF, (findReg regsSaf 0x204).getD ⟨0, 0, 0, 0, 0, 0, 0, 0⟩, by decide +kernel⟩⟩

theorem test_hypotheses_of_safety_connections :
    (∃ (s : State) (ch : Nat), s.evaluates ch = true ∧ s.atSample = true ∧ ((s.saf ch).inbox.find? fun e => decide (e.1 + 1600 ≤ s.td0)) =
     none) ∧
    (∃ (s : State) (ch : Nat) (e : Nat × List Byte), s.sized = true ∧ s.evaluates ch = true ∧ s.atSample = true ∧ ((s.saf ch).inbox.find?
     fun e => decide (e.1 + 1600 ≤ s.td0)) = some e ∧ (List.range 32).find? (fun c => s.consumer ch c && s.rd ch Fd.CONN_ID.W c == tlgCid
     e.2) = none) ∧
    (∃ (s : State) (ch c st : Nat) (e : Nat × List Byte) (b : List Byte), s.sized = true ∧ s.evaluates ch = true ∧ s.atSample = true ∧
     ((s.saf ch).inbox.find? fun e => decide (e.1 + 1600 ≤ s.td0)) = some e ∧ b = e.2 ∧ st = s.connState ch c ∧ (List.range 32).find? (fun
     c => s.consumer ch c && s.rd ch Fd.CONN_ID.W c == tlgCid b) = some c ∧ ((st = 1 → s.td0 < (s.conn ch c).tv + s.texp ch c * 800000)) ∧
     ((st = 2 → s.td0 < (s.conn ch c).td + s.degTicks ch c)) ∧ tlgGood b = false) ∧
    (∃ (s : State) (ch c st : Nat) (e : Nat × List Byte) (b : List Byte), s.sized = true ∧ s.evaluates ch = true ∧ s.atSample = true ∧
     ((s.saf ch).inbox.find? fun e => decide (e.1 + 1600 ≤ s.td0)) = some e ∧ b = e.2 ∧ st = s.connState ch c ∧ (List.range 32).find? (fun
     c => s.consumer ch c && s.rd ch Fd.CONN_ID.W c == tlgCid b) = some c ∧ ((st = 1 → s.td0 < (s.conn ch c).tv + s.texp ch c * 800000)) ∧
     ((st = 2 → s.td0 < (s.conn ch c).td + s.degTicks ch c)) ∧ tlgGood b = true ∧ (tlgTexp b ≠ s.texp ch c ∨ tlgLen b ≠ s.wantLen ch c)) ∧
    (∃ (s : State) (ch c st : Nat) (e : Nat × List Byte) (b : List Byte), s.sized = true ∧ s.evaluates ch = true ∧ s.atSample = true ∧
     ((s.saf ch).inbox.find? fun e => decide (e.1 + 1600 ≤ s.td0)) = some e ∧ b = e.2 ∧ st = s.connState ch c ∧ (List.range 32).find? (fun
     c => s.consumer ch c && s.rd ch Fd.CONN_ID.W c == tlgCid b) = some c ∧ ((st = 1 → s.td0 < (s.conn ch c).tv + s.texp ch c * 800000)) ∧
     ((st = 2 → s.td0 < (s.conn ch c).td + s.degTicks ch c)) ∧ tlgGood b = true ∧ tlgTexp b = s.texp ch c ∧ tlgLen b = s.wantLen ch c ∧
     (st = 0 ∨ st = 2) ∧ (s.conn ch c).first = false) ∧
    (∃ (s : State) (ch c st : Nat) (e : Nat × List Byte) (b : List Byte), s.sized = true ∧ s.evaluates ch = true ∧ s.atSample = true ∧
     ((s.saf ch).inbox.find? fun e => decide (e.1 + 1600 ≤ s.td0)) = some e ∧ b = e.2 ∧ st = s.connState ch c ∧ (List.range 32).find? (fun
     c => s.consumer ch c && s.rd ch Fd.CONN_ID.W c == tlgCid b) = some c ∧ ((st = 1 → s.td0 < (s.conn ch c).tv + s.texp ch c * 800000)) ∧
     ((st = 2 → s.td0 < (s.conn ch c).td + s.degTicks ch c)) ∧ tlgGood b = true ∧ tlgTexp b = s.texp ch c ∧ tlgLen b = s.wantLen ch c ∧ 1
     ≤ (tlgSeq b + 2 ^ 32 - s.rd ch Fd.CONN_SEQ.W c) % 2 ^ 32 ∧ (tlgSeq b + 2 ^ 32 - s.rd ch Fd.CONN_SEQ.W c) % 2 ^ 32 < 32 ∧ (st = 0 ∨ st
     = 2) ∧ (s.conn ch c).first = true) ∧
    (∃ (s : State) (ch c st : Nat) (e : Nat × List Byte) (b : List Byte), s.sized = true ∧ s.evaluates ch = true ∧ s.atSample = true ∧
     ((s.saf ch).inbox.find? fun e => decide (e.1 + 1600 ≤ s.td0)) = some e ∧ b = e.2 ∧ st = s.connState ch c ∧ (List.range 32).find? (fun
     c => s.consumer ch c && s.rd ch Fd.CONN_ID.W c == tlgCid b) = some c ∧ ((st = 1 → s.td0 < (s.conn ch c).tv + s.texp ch c * 800000)) ∧
     ((st = 2 → s.td0 < (s.conn ch c).td + s.degTicks ch c)) ∧ tlgGood b = true ∧ tlgTexp b = s.texp ch c ∧ tlgLen b = s.wantLen ch c ∧ 1
     ≤ (tlgSeq b + 2 ^ 32 - s.rd ch Fd.CONN_SEQ.W c) % 2 ^ 32 ∧ (tlgSeq b + 2 ^ 32 - s.rd ch Fd.CONN_SEQ.W c) % 2 ^ 32 < 32 ∧ st = 1) ∧
    (∃ (s : State) (ch c : Nat), s.sized = true ∧ s.evaluates ch = true ∧ s.atSample = true ∧ s.consumer ch c = true ∧ s.connState ch c =
     1 ∧ (s.conn ch c).tv + s.texp ch c * 800000 ≤ s.td0) ∧
    (∃ (s : State) (ch c : Nat), s.sized = true ∧ s.evaluates ch = true ∧ s.atSample = true ∧ s.consumer ch c = true ∧ (s.connState ch c ≠
     1 ∨ s.td0 < (s.conn ch c).tv + s.texp ch c * 800000)) ∧
    (∃ (s : State) (ch c : Nat), s.sized = true ∧ s.evaluates ch = true ∧ s.atSample = true ∧ s.consumer ch c = true ∧ s.connState ch c =
     2 ∧ (s.conn ch c).td + s.degTicks ch c ≤ s.td0) ∧
    (∃ (s : State) (ch c : Nat), s.sized = true ∧ s.evaluates ch = true ∧ s.atSample = true ∧ s.consumer ch c = true ∧ (s.connState ch c ≠
     2 ∨ s.td0 < (s.conn ch c).td + s.degTicks ch c)) :=
  ⟨⟨((sf .run 8000000).takes 1 31 2 (fun x => { x with td := 40000 })).fld 1 Fd.CONN_CFG.DEG_T 1 31, 1, by decide +kernel⟩,
   ⟨((sf .run 80000).takes 1 31 1).inbox (telegram 5 1 20 [1, 2, 3, 4]), 1, (5, telegram 5 1 20 [1, 2, 3, 4]), by decide +kernel⟩,
   ⟨((sf .run 80000).takes 1 31 1).inbox wrongTlg, 1, 31, _, (5, wrongTlg), _, by decide +kernel, by decide +kernel, by decide +kernel,
    by decide +kernel, rfl, rfl, by decide +kernel⟩,
   ⟨((sf .run 80000).takes 1 31 1).inbox (telegram 0xC020 1 21 [1, 2, 3, 4]), 1, 31, _, (5, telegram 0xC020 1 21 [1, 2, 3, 4]), _,
    by decide +kernel, by decide +kernel, by decide +kernel, by decide +kernel, rfl, rfl, by decide +kernel⟩,
   ⟨((sf .run 80000).takes 1 31 0).inbox (telegram 0xC020 0xFFFFFFFF 20 [1, 2, 3, 4]), 1, 31, _, (5, telegram 0xC020 0xFFFFFFFF 20 [1, 2,
    3, 4]), _, by decide +kernel, by decide +kernel, by decide +kernel, by decide +kernel, rfl, rfl, by decide +kernel⟩,
   ⟨(((sf .run 80000).takes 1 31 0 fun x => { x with first := true }).fld 1 Fd.CONN_SEQ.W 0xFFFFFFFF 31).inbox (telegram 0xC020 30 20 [1,
    2, 3, 4]), 1, 31, _, (5, telegram 0xC020 30 20 [1, 2, 3, 4]), _, by decide +kernel, by decide +kernel, by decide +kernel,
    by decide +kernel, rfl, rfl, by decide +kernel⟩,
   ⟨(((sf .run 80000).takes 1 31 1).fld 1 Fd.CONN_SEQ.W 5 31).inbox (telegram 0xC020 36 20 [1, 2, 3, 4]), 1, 31, _, (5, telegram 0xC020
    36 20 [1, 2, 3, 4]), _, by decide +kernel, by decide +kernel, by decide +kernel, by decide +kernel, rfl, rfl, by decide +kernel,
    by decide +kernel, by decide +kernel, by decide +kernel, by decide +kernel, by decide +kernel, by decide +kernel, by decide +kernel,
    rfl⟩,
   ⟨(sf .run 16040000).takes 1 31 1 (fun x => { x with tv := 40000 }), 1, 31, by decide +kernel⟩,
   ⟨(sf .run 16000000).takes 1 31 1 (fun x => { x with tv := 40000 }), 1, 31, by decide +kernel⟩,
   ⟨((sf .run 8040000).takes 1 31 2 (fun x => { x with td := 40000 })).fld 1 Fd.CONN_CFG.DEG_T 1 31, 1, 31, by decide +kernel⟩,
   ⟨((sf .run 8000000).takes 1 31 2 (fun x => { x with td := 40000 })).fld 1 Fd.CONN_CFG.DEG_T 1 31, 1, 31, by decide +kernel⟩⟩

theorem test_hypotheses_of_fault_latches :
    (∃ (s : State) (d : Nat) (a : Nat × Nat) (arr : List (Nat × Nat)), s.shaped = true ∧ s.alive d = true ∧ s.armed = true ∧ ((s.isHead =
     false → s.sized = true)) ∧ arr = (s.die d).flt.arriving ∧ a ∈ arr ∧ (∀ x ∈ arr, before a x = true) ∧ a.1 < 4096 ∧ a.2 < 64 ∧ s.flag d
     Fd.LOC_SRC.VALID = true ∧ s.latchedNow d a = true) ∧
    (∃ (s : State) (d : Nat) (a : Nat × Nat) (arr : List (Nat × Nat)), s.shaped = true ∧ s.alive d = true ∧ s.armed = true ∧ ((s.isHead =
     false → s.sized = true)) ∧ arr = (s.die d).flt.arriving ∧ a ∈ arr ∧ (∀ x ∈ arr, before a x = true) ∧ a.1 < 4096 ∧ a.2 < 64 ∧ s.flag d
     Fd.LOC_SRC.VALID = true ∧ s.latchedNow d a = false) ∧
    (∃ (s : State) (d : Nat) (a : Nat × Nat) (arr : List (Nat × Nat)), s.shaped = true ∧ s.alive d = true ∧ s.armed = true ∧ ((s.isHead =
     false → s.sized = true)) ∧ arr = (s.die d).flt.arriving ∧ a ∈ arr ∧ (∀ x ∈ arr, before a x = true) ∧ a.1 < 4096 ∧ a.2 < 64 ∧ s.flag d
     Fd.LOC_SRC.VALID = false) ∧
    (∃ (s : State) (d : Nat), (s.alive d = false ∨ s.armed = false ∨ (s.die d).flt.arriving = [])) ∧
    (∃ (s : State), s.shaped = true ∧ s.isHead = true ∧ s.alive 0 = true ∧ (∀ e ∈ s.bus, s.td0 < e.2.tick + 8)) ∧
    (∃ (s : State) (r : Record) (recs : List Record), s.shaped = true ∧ s.isHead = true ∧ s.alive 0 = true ∧ recs = ((s.bus.filter fun e
     => decide (e.2.tick + 8 ≤ s.td0)).filter fun e => s.alive e.1).map (·.2) ∧ r ∈ recs ∧ (∀ x ∈ recs, r.first x = true) ∧ r.code < 4096
     ∧ r.ws < 64 ∧ s.flag 0 Fd.FF_SRC.VALID = true) ∧
    (∃ (s : State) (r : Record) (recs : List Record), s.shaped = true ∧ s.isHead = true ∧ s.alive 0 = true ∧ recs = ((s.bus.filter fun e
     => decide (e.2.tick + 8 ≤ s.td0)).filter fun e => s.alive e.1).map (·.2) ∧ r ∈ recs ∧ (∀ x ∈ recs, r.first x = true) ∧ r.code < 4096
     ∧ r.ws < 64 ∧ s.flag 0 Fd.FF_SRC.VALID = false) ∧
    (∃ (s : State), s.shaped = true ∧ s.sane = true ∧ s.alive 0 = true ∧ s.followsHead = false ∧ (s.anySource = true ∨ (s.die
     0).flt.noClear = true)) ∧
    (∃ (s : State), s.shaped = true ∧ s.sane = true ∧ s.alive 0 = true ∧ s.followsHead = false ∧ s.anySource = false ∧ (s.die
     0).flt.noClear = false) ∧
    (∃ (s : State) (d : Nat), s.sane = true ∧ (d ≠ 0 ∨ s.followsHead = true)) ∧
    (∃ (s : State) (d : Nat) (v : Word), s.shaped = true ∧ s.sane = true ∧ s.alive d = true ∧ d ≠ 0) ∧
    (∃ (s : State) (d : Nat) (v : Word), s.shaped = true ∧ s.sane = true ∧ s.alive d = true ∧ d = 0 ∧ s.device = .config) ∧
    (∃ (s : State) (d : Nat) (v : Word), s.shaped = true ∧ s.sane = true ∧ s.alive d = true ∧ d = 0 ∧ s.device ≠ .config) :=
  ⟨⟨((hd .run 9).arrives 1 [(0x1C1, 3), (0x1C0, 63), (0x1C0, 64 - 1)]).fld 1 Fd.LOC_SRC.VALID 1 |>.fld 1 Fd.LOC_SRC.CODE 0xFFF |>.fld 1
    Fd.LOC_T_LO.W 9 |> fun s => { s with bus := [(1, ⟨0xFFF, 0, 9⟩)] }, 1, (0x1C0, 63), _, by decide +kernel, by decide +kernel,
    by decide +kernel, by decide +kernel, rfl, by decide +kernel⟩,
   ⟨((hd .run 9).arrives 1 [(0x1C1, 3), (0x1C0, 63), (0x1C0, 64 - 1)]).fld 1 Fd.LOC_SRC.VALID 1, 1, (0x1C0, 63), _, by decide +kernel,
    by decide +kernel, by decide +kernel, by decide +kernel, rfl, by decide +kernel⟩,
   ⟨((hd .run 9).arrives 1 [(0x1C1, 3), (0x1C0, 63)]), 1, (0x1C0, 63), [(0x1C1, 3), (0x1C0, 63)], by decide +kernel⟩,
   ⟨(hd .standstill 9).arrives 1 [(0x1C1, 3)], 1, by decide +kernel⟩,
   ⟨{ hd .run 9 with bus := [(1, ⟨0x1C0, 63, 2⟩)] }, by decide +kernel⟩,
   ⟨{ (hd .lockout 9).fld 0 Fd.FF_SRC.VALID 1 with bus := [(1, ⟨0x1C0, 63, 1⟩), (0, ⟨0x0C0, 0, 2⟩)] }, ⟨0x1C0, 63, 1⟩, [⟨0x1C0, 63, 1⟩],
    by decide +kernel⟩,
   ⟨{ (hd .run 9).ring 1 3 2 with bus := [(1, ⟨0x1C0, 63, 0⟩), (0, ⟨0x0C0, 0, 1⟩), (0, ⟨0x0C1, 0, 2⟩)] }, ⟨0x1C0, 63, 0⟩, _,
    by decide +kernel, by decide +kernel, by decide +kernel, rfl, by decide +kernel⟩,
   ⟨(hd .lockout 9).arrives 1 [(0x1C1, 3)], by decide +kernel⟩,
   ⟨((hd .lockout 9).fld 1 Fd.LOC_SRC.VALID 1).fld 0 Fd.FF_SRC.VALID 1, by decide +kernel⟩,
   ⟨(ndu .run 9).way 3, 0, by decide +kernel⟩,
   ⟨hd .config 9, 1, 0xFFFFFFFF, by decide +kernel⟩,
   ⟨hd .config 9, 0, 0xFFFAFFFB, by decide +kernel⟩,
   ⟨hd .standstill 9, 0, 0xFFFFFFFF, by decide +kernel⟩⟩

theorem test_hypotheses_of_thermal_and_power :
    (∃ (s : State) (d : Nat) (raws : List Int) (raw : Int) (nb : Option Int × Option Int), s.sized = true ∧ s.sane = true ∧ s.alive d =
     true ∧ s.td0 % 80000 = 0 ∧ raw = satS 16 (raws.getD d 0) ∧ nb = s.neighbours d raws) ∧
    (∃ (s : State) (d : Nat) (raws : List Int), s.sane = true ∧ s.td0 % 80000 ≠ 0) ∧
    (∃ (s : State) (d n : Nat), s.shaped = true ∧ s.sane = true ∧ s.isHead = true ∧ s.on d 7 = true ∧ s.ringMode d = 3 ∧ 1 ≤ n ∧ n ≤
     s.nodes d ∧ s.nbrDue d n = true) ∧
    (∃ (s : State) (d n : Nat), s.sane = true ∧ s.nbrDue d n = false) ∧
    (∃ (s : State) (d : Nat), s.shaped = true ∧ s.sane = true ∧ s.alive d = true) :=
  ⟨⟨hd .run 80000, 1, [200, 210], 210, _, by decide +kernel, by decide +kernel, by decide +kernel, by decide +kernel, by decide +kernel,
    rfl⟩,
   ⟨hd .run 80001, 1, [200, 210], by decide +kernel⟩,
   ⟨((hd .run 9).ring 1 3 3), 1, 3, by decide +kernel⟩,
   ⟨((hd .run 7999999).ring 1 3 3).onHead 1 (fun h => { h with nbrSent := [(3, 0)] }), 1, 3, by decide +kernel⟩,
   ⟨((hd .run 9).ring 1 3 3), 1, by decide +kernel⟩⟩

theorem test_hypotheses_of_memory_slices :
    (∃ (s : State) (d : Nat) (c : Bool), s.sized = true ∧ s.sane = true ∧ c = (s.testsRun d && !s.throttled d && s.flag d
     Fd.BIST_CTRL.SLICE_EN && !s.burning && (s.bist d).slice.isNone && s.sliceDue d && !s.criticalBusy d && (s.die d).ep.running.isNone &&
     !s.milestoneNear d) ∧ c = false) ∧
    (∃ (s : State) (d : Nat) (c : Bool) (m j : Nat), s.sized = true ∧ s.sane = true ∧ c = (s.testsRun d && !s.throttled d && s.flag d
     Fd.BIST_CTRL.SLICE_EN && !s.burning && (s.bist d).slice.isNone && s.sliceDue d && !s.criticalBusy d && (s.die d).ep.running.isNone &&
     !s.milestoneNear d) ∧ c = true ∧ s.nextTest d = some (m, j)) ∧
    (∃ (s : State) (d : Nat) (fails : List FailCell), s.sane = true ∧ (s.bist d).slice = none) ∧
    (∃ (s : State) (d m j : Nat) (t0 : Int) (c : Bool) (fails : List FailCell), s.sized = true ∧ s.sane = true ∧ s.alive d = true ∧
     (s.bist d).slice = some t0 ∧ m = s.rd d Fd.BIST_STATUS.MACRO ∧ j = s.rd d Fd.BIST_STATUS.SLICE ∧ c = (decide (t0 + 780 + (s.bist
     d).lent ≤ s.td0) && fails.all fun f => failFits f j ((s.td0 : Int) - t0 - 780).toNat t0) ∧ c = false) ∧
    (∃ (s : State) (d m j : Nat) (t0 : Int) (c : Bool) (fails : List FailCell), s.sized = true ∧ s.sane = true ∧ s.alive d = true ∧
     (s.bist d).slice = some t0 ∧ m = s.rd d Fd.BIST_STATUS.MACRO ∧ j = s.rd d Fd.BIST_STATUS.SLICE ∧ c = (decide (t0 + 780 + (s.bist
     d).lent ≤ s.td0) && fails.all fun f => failFits f j ((s.td0 : Int) - t0 - 780).toNat t0) ∧ c = true ∧ fails = []) ∧
    (∃ (s : State) (d m j : Nat) (t0 : Int) (c : Bool) (fails : List FailCell) (words : List Nat), s.sized = true ∧ s.sane = true ∧
     s.alive d = true ∧ (s.bist d).slice = some t0 ∧ m = s.rd d Fd.BIST_STATUS.MACRO ∧ j = s.rd d Fd.BIST_STATUS.SLICE ∧ c = (decide (t0 +
     780 + (s.bist d).lent ≤ s.td0) && fails.all fun f => failFits f j ((s.td0 : Int) - t0 - 780).toNat t0) ∧ c = true ∧ fails ≠ [] ∧
     words = ((sortBy failFirst fails).map (·.word)).eraseDups) ∧
    (∃ (s : State) (d m n : Nat), s.sized = true ∧ s.sane = true ∧ s.alive d = true ∧ m < 256 ∧ n = (s.unfused d m).length ∧ s.device =
     .standstill ∧ s.burning = false ∧ n ≠ 0 ∧ n ≤ (s.freeRepairs d).length) ∧
    (∃ (s : State) (d m n : Nat), s.sized = true ∧ s.sane = true ∧ s.alive d = true ∧ m < 256 ∧ n = (s.unfused d m).length ∧ ¬(s.device =
     .standstill ∧ s.burning = false ∧ n ≠ 0 ∧ n ≤ (s.freeRepairs d).length)) ∧
    (∃ (s : State) (d m : Nat) (l : List (Nat × Nat × Nat)), s.sized = true ∧ s.sane = true ∧ s.alive d = true ∧ m < 256 ∧ (s.bist d).burn
     = none) ∧
    (∃ (s : State) (d m : Nat) (l : List (Nat × Nat × Nat)), s.sized = true ∧ s.sane = true ∧ s.alive d = true ∧ m < 256 ∧ (s.bist d).burn
     = some (m, l) ∧ l.Pairwise (fun p q => p.1 ≠ q.1) ∧ (∀ p ∈ l, p.1 < 32 ∧ p.2.1 < 4 ∧ p.2.2 < 1024)) :=
  ⟨⟨(hd .run 9).fld 1 Fd.THM_STATUS.THROTTLE 1, 1, false, by decide +kernel⟩,
   ⟨((hd .run 9).tests 1 fun x => { x with nextMacro := 255, nextSlice := 15 }).fld 1 Fd.BIST_CTRL.SLICE_EN 1, 1, true, 255, 15,
    by decide +kernel⟩,
   ⟨hd .standstill 9, 1, [], by decide +kernel⟩,
   ⟨((hd .run 788).tests 1 fun x => { x with slice := some 9 }).fld 1 Fd.BIST_STATUS.MACRO 7, 1, 7, 0, 9, false, [], by decide +kernel⟩,
   ⟨(((hd .run 789).tests 1 fun x => { x with slice := some 9, retest := true }).fld 1 Fd.BIST_STATUS.MACRO 7).fld 1 Fd.BIST_STATUS.SLICE
    3, 1, 7, 3, 9, true, [], by decide +kernel⟩,
   ⟨(((hd .run 789).tests 1 fun x => { x with slice := some 9 }).fld 1 Fd.BIST_STATUS.MACRO 31).fld 1 Fd.BIST_STATUS.SLICE 15 |>.fld 1
    Fd.BIST_CTRL.REP_MODE 1, 1, 31, 15, 9, true, [⟨1023, 63, false, 5, 9 + marchAt 5 63⟩], [1023], by decide +kernel⟩,
   ⟨(hd .standstill 9).fld 1 Fd.MACRO_STAT.ROWS_USED 2 31, 1, 31, 2, by decide +kernel⟩,
   ⟨(hd .run 9).fld 1 Fd.MACRO_STAT.ROWS_USED 2 31, 1, 31, 2, by decide +kernel⟩,
   ⟨hd .standstill 9, 1, 31, [], by decide +kernel⟩,
   ⟨(((hd .standstill 9).fld 1 Fd.MACRO_STAT.ROWS_USED 2 31).fld 1 Fd.MACRO_STAT.ROW1 1023 31).tests 1 (fun x =>
    { x with burn := some (31, [(30, 0, 5), (31, 1, 1023)]) }), 1, 31, [(30, 0, 5), (31, 1, 1023)], by decide +kernel⟩⟩

theorem test_hypotheses_of_engine_test_and_patrol :
    (∃ (s : State) (d e i : Nat) (t0 : Int) (rest : List Nat), s.sized = true ∧ s.sane = true ∧ s.testsRun d = true ∧ s.throttled d =
     false ∧ s.on d 5 = true ∧ s.flag d Fd.BIST_CTRL.ENG_EN = true ∧ (s.bist d).eng = none ∧ s.engTarget d = some (e, t0) ∧ e < 6 ∧
     s.waitingOn d e = [] ∧ s.critRes d e < (s.freeInst d e).length ∧ s.freeInst d e = i :: rest) ∧
    (∃ (s : State) (d e i : Nat) (t0 : Int) (rest : List Nat), s.sized = true ∧ s.sane = true ∧ s.testsRun d = true ∧ s.throttled d =
     false ∧ s.on d 5 = true ∧ s.flag d Fd.BIST_CTRL.ENG_EN = true ∧ (s.bist d).eng = none ∧ s.engTarget d = some (e, t0) ∧ e < 6 ∧
     (s.waitingOn d e ≠ [] ∨ (s.freeInst d e).length ≤ s.critRes d e)) ∧
    (∃ (s : State) (d : Nat), s.sane = true ∧ (s.testsRun d = false ∨ s.throttled d = true ∨ s.on d 5 = false ∨ s.flag d
     Fd.BIST_CTRL.ENG_EN = false ∨ (s.bist d).eng.isSome = true)) ∧
    (∃ (s : State) (d e i n : Nat), s.sized = true ∧ s.sane = true ∧ s.alive d = true ∧ (s.bist d).eng = some (e, i) ∧ e < 6 ∧ i < 8 ∧ n =
     s.testIssues d ∧ s.testCut d = true) ∧
    (∃ (s : State) (d e i n : Nat), s.sized = true ∧ s.sane = true ∧ s.alive d = true ∧ (s.bist d).eng = some (e, i) ∧ e < 6 ∧ i < 8 ∧ n =
     s.testIssues d ∧ s.testCut d = false) ∧
    (∃ (s : State) (d issues : Nat) (sig : Word), s.sane = true ∧ (s.testIssues d < issues ∨ (s.bist d).eng = none)) ∧
    (∃ (s : State) (d e i issues : Nat) (sig : Word), s.sized = true ∧ s.sane = true ∧ s.alive d = true ∧ (s.bist d).eng = some (e, i) ∧ e
     < 6 ∧ i < 8 ∧ issues ≤ s.testIssues d) ∧
    (∃ (s : State) (d l : Nat) (first second c : Bool), s.sized = true ∧ s.sane = true ∧ c = (s.testsRun d && s.dramOn d && s.flag d
     Fd.BIST_CTRL.PATROL_EN && s.patrolDue d) ∧ l = s.patrolLine d ∧ c = false) ∧
    (∃ (s : State) (d l : Nat) (first second c : Bool), s.sized = true ∧ s.sane = true ∧ c = (s.testsRun d && s.dramOn d && s.flag d
     Fd.BIST_CTRL.PATROL_EN && s.patrolDue d) ∧ l = s.patrolLine d ∧ c = true) :=
  ⟨⟨((hd .run 80000000).tests 1 fun x => { x with target := 0 }).ben 1 5 |>.fld 1 Fd.BIST_CTRL.ENG_EN 1 |>.fld 1 Fd.BIST_PACE.ENG_PER 100
    |>.fld 1 Fd.ENG_CFG.CRIT_RES 0 |>.onInst 1 1 0 (fun x => { x with busy := true }), 1, 1, 1, 80000000, [2, 3, 4, 5, 6, 7],
    by decide +kernel⟩,
   ⟨((hd .run 80000000).tests 1 fun x => { x with target := 0 }).ben 1 5 |>.fld 1 Fd.BIST_CTRL.ENG_EN 1 |>.fld 1 Fd.BIST_PACE.ENG_PER 100
    |>.fld 1 Fd.ENG_CFG.CRIT_RES 0x70 |>.onInst 1 1 0 (fun x => { x with busy := true }), 1, 1, 1, 80000000, [], by decide +kernel⟩,
   ⟨(hd .run 80000000).tests 1 (fun x => { x with eng := some (5, 7) }), 1, by decide +kernel⟩,
   ⟨(testing 99 20).ben 1 5 0, 1, 5, 7, _, by decide +kernel, by decide +kernel, by decide +kernel, by decide +kernel, by decide +kernel,
    by decide +kernel, rfl, by decide +kernel⟩,
   ⟨testing 99 20, 1, 5, 7, _, by decide +kernel, by decide +kernel, by decide +kernel, by decide +kernel, by decide +kernel,
    by decide +kernel, rfl, by decide +kernel⟩,
   ⟨testing 99 20, 1, 1536, 5, by decide +kernel⟩,
   ⟨testing 99999 0, 1, 5, 7, 1535, 5, by decide +kernel⟩,
   ⟨(hd .run 9).tests 1, 1, 0, true, true, false, by decide +kernel⟩,
   ⟨((hd .run 9).tests 1).ben 1 15 |>.fld 1 Fd.REC_STATUS.DRAM_OK 1 |>.fld 1 Fd.BIST_CTRL.PATROL_EN 1 |>.fld 1 Fd.PATROL_LO.LINE 4 |>.fld
    1 Fd.PATROL_HI.LINE 6 |>.onRec 1 (fun r => { r with written := [4, 6] }), 1, 4, true, true, true, by decide +kernel⟩⟩

theorem test_hypotheses_of_signed_images :
    (∃ (s : State) (d : Nat) (type : BitVec 3), s.sized = true ∧ s.sane = true ∧ s.alive d = true ∧ s.rd d Fd.IMG_STAT.STAT = 2) ∧
    (∃ (s : State) (d : Nat) (type : BitVec 3), s.sized = true ∧ s.sane = true ∧ s.alive d = true ∧ s.imgBusy d = false) ∧
    (∃ (s : State) (d : Nat) (type : BitVec 3), s.sized = true ∧ s.sane = true ∧ s.alive d = true ∧ s.rd d Fd.IMG_STAT.STAT = 1 ∧
     s.loadState = true) ∧
    (∃ (s : State) (d n : Nat) (w : Word) (ws : List Word), s.sized = true ∧ s.sane = true ∧ s.alive d = true ∧ n = (s.imgWords d).length
     ∧ ws = s.imgWords d ++ [w] ∧ s.rd d Fd.IMG_STAT.STAT ≠ 1) ∧
    (∃ (s : State) (d n : Nat) (w : Word) (ws : List Word), s.sized = true ∧ s.sane = true ∧ s.alive d = true ∧ n = (s.imgWords d).length
     ∧ ws = s.imgWords d ++ [w] ∧ s.rd d Fd.IMG_STAT.STAT = 1 ∧ (n < 44 ∨ 44 + bodyWords ws ≤ n)) ∧
    (∃ (s : State) (d n : Nat) (w : Word) (ws : List Word) (k : Nat) (dead : Word), s.sized = true ∧ s.sane = true ∧ s.alive d = true ∧ n
     = (s.imgWords d).length ∧ ws = s.imgWords d ++ [w] ∧ s.rd d Fd.IMG_STAT.STAT = 1 ∧ 44 ≤ n ∧ n < 44 + bodyWords ws ∧ imgDest (s.sec
     d).type ws (n - 44) = .cell k dead ∧ dead ≠ 0 ∧ s.progInUse d k = true) ∧
    (∃ (s : State) (d n : Nat) (w : Word) (ws : List Word) (k : Nat) (dead : Word), s.sized = true ∧ s.sane = true ∧ s.alive d = true ∧ n
     = (s.imgWords d).length ∧ ws = s.imgWords d ++ [w] ∧ s.rd d Fd.IMG_STAT.STAT = 1 ∧ 44 ≤ n ∧ n < 44 + bodyWords ws ∧ imgDest (s.sec
     d).type ws (n - 44) = .cell k dead ∧ (dead = 0 ∨ s.progInUse d k = false)) ∧
    (∃ (s : State) (d : Nat), s.sized = true ∧ s.sane = true ∧ s.alive d = true ∧ s.imgBusy d = false) ∧
    (∃ (s : State) (d : Nat), s.sized = true ∧ s.sane = true ∧ s.alive d = true ∧ s.imgBusy d = true) ∧
    (∃ (s : State) (d : Nat) (ws : List Word) (pub : List Byte), s.sized = true ∧ ws = s.imgWords d ∧ pub = imgBytes ws 72 97) ∧
    (∃ (s : State) (d r : Nat) (ws : List Word), s.sized = true ∧ s.sane = true ∧ s.alive d = true ∧ r = s.imgResult d ∧ ws = s.imgWords d
     ∧ s.rd d Fd.IMG_STAT.STAT ≠ 2) ∧
    (∃ (s : State) (d r : Nat) (ws : List Word), s.sized = true ∧ s.sane = true ∧ s.alive d = true ∧ r = s.imgResult d ∧ ws = s.imgWords d
     ∧ s.rd d Fd.IMG_STAT.STAT = 2 ∧ (s.sec d).type ≠ 3) ∧
    (∃ (s : State) (d r : Nat) (ws : List Word), s.sized = true ∧ s.sane = true ∧ s.alive d = true ∧ r = s.imgResult d ∧ ws = s.imgWords d
     ∧ s.rd d Fd.IMG_STAT.STAT = 2 ∧ (s.sec d).type = 3) ∧
    (∃ (s : State) (d r : Nat) (ws : List Word) (a : Nat) (v : Word) (k : Nat) (u : State), s.sized = true ∧ s.sane = true ∧ s.alive d =
     true ∧ r = s.imgResult d ∧ ws = s.imgWords d ∧ agentWrite true (BitVec.ofNat 32 a) v s = (k, .next u) ∧ u.shaped = true) :=
  ⟨⟨(hd .config 9).loading 1 1 [] 2, 1, 4, by decide +kernel⟩,
   ⟨(hd .standstill 9), 1, 4, by decide +kernel⟩,
   ⟨(hd .config 9).loading 1 1 [5], 1, 4, by decide +kernel⟩,
   ⟨hd .config 9, 1, 0, 5, [5], by decide +kernel⟩,
   ⟨(hd .config 9).loading 1 1 (loopHdr.take 43), 1, 43, 5, loopHdr.take 43 ++ [5], by decide +kernel⟩,
   ⟨((hd .config 9).loading 1 1 loopHdr).slotOn 1, 1, 44, 5, loopHdr ++ [5], progKey 2 5, 0xFC000000, by decide +kernel⟩,
   ⟨((hd .config 9).loading 1 1 loopHdr), 1, 44, 5, loopHdr ++ [5], progKey 2 5, 0xFC000000, by decide +kernel⟩,
   ⟨hd .config 9, 1, by decide +kernel⟩,
   ⟨((hd .config 9).loading 1 1 (loopHdr ++ [1, 2])).word 1 (progKey 2 5) 9, 1, by decide +kernel⟩,
   ⟨(hd .config 9).loading 1 1 [] 2, 1, [], [], by decide +kernel⟩,
   ⟨(hd .config 9).loading 1 1 [] 1, 1, 1, [], by decide +kernel⟩,
   ⟨((hd .config 9).loading 1 1 (loopHdr ++ List.replicate 27 7) 2), 1, 3, _, by decide +kernel, by decide +kernel, by decide +kernel,
    by decide +kernel, rfl, by decide +kernel⟩,
   ⟨((hd .config 9).loading 1 3 (imgHdr 3 8 [0, 1]) 2), 1, 3, imgHdr 3 8 [0, 1], by decide +kernel⟩,
   ⟨hdu .config 9, 1, _, _, 0x100D0024, 5, _, _, by decide +kernel, by decide +kernel, by decide +kernel, rfl, rfl, agent_on
    (by decide +kernel), by decide +kernel⟩⟩

theorem test_hypotheses_of_security_operations :
    (∃ (s : State) (d : Nat) (slot : BitVec 2), s.sized = true ∧ s.sane = true ∧ s.alive d = true ∧ d ≠ 0) ∧
    (∃ (s : State) (d : Nat) (slot : BitVec 2), s.sized = true ∧ s.sane = true ∧ s.alive d = true ∧ d ≠ 0) ∧
    (∃ (s : State) (d : Nat) (slot : BitVec 2) (c : Instr), s.sized = true ∧ s.sane = true ∧ s.alive d = true ∧ d = 0 ∧ s.secBusy 0 = true
     ∧ (c = .attest 0 ∨ c = .establishKey 0 slot)) ∧
    (∃ (s : State) (d : Nat) (slot : BitVec 2), s.sized = true ∧ s.sane = true ∧ s.alive d = true ∧ d = 0 ∧ s.secBusy 0 = false) ∧
    (∃ (s : State) (d : Nat) (slot : BitVec 2), s.sized = true ∧ s.sane = true ∧ s.alive d = true ∧ d = 0 ∧ s.secBusy 0 = false) ∧
    (∃ (s : State) (d op r : Nat) (key : List Byte), s.sized = true ∧ s.sane = true ∧ s.alive d = true ∧ (s.sec d).op = none) ∧
    (∃ (s : State) (d op r : Nat) (key : List Byte), s.sized = true ∧ s.sane = true ∧ s.alive d = true ∧ (s.sec d).op = some (op, r, key)
     ∧ r < 16 ∧ key.length ≤ 512) ∧
    (∃ (s : State) (d : Nat), s.sized = true ∧ s.sane = true ∧ s.alive d = true ∧ ((s.sec d).key = none ∨ (∃ k, (s.sec d).key = some k ∧
     (s.authTag d ≠ tagOf k (s.authMsg d) ∨ s.authCtr d / 2 ^ 32 ≠ s.rd d Fd.EPOCH.W)))) ∧
    (∃ (s : State) (d : Nat) (k : List Byte), s.sized = true ∧ s.sane = true ∧ s.alive d = true ∧ (s.sec d).key = some k ∧ s.authTag d =
     tagOf k (s.authMsg d) ∧ s.authCtr d / 2 ^ 32 = s.rd d Fd.EPOCH.W ∧ s.authCtr d ≤ s.lastCounter d) ∧
    (∃ (s : State) (d : Nat) (k : List Byte) (e : Nat) (x : Spot), s.sized = true ∧ s.sane = true ∧ s.alive d = true ∧ (s.sec d).key =
     some k ∧ s.authTag d = tagOf k (s.authMsg d) ∧ s.authCtr d / 2 ^ 32 = s.rd d Fd.EPOCH.W ∧ s.lastCounter d < s.authCtr d ∧ e <
     s.part.dies ∧ x = s.spot (s.rd d Fd.AUTH_ADDR.W) ∧ x = .page e 12 0x28 ∧ s.access x = .done ∧ s.openSpot x = false) ∧
    (∃ (s : State) (d : Nat) (k : List Byte), s.sized = true ∧ s.sane = true ∧ s.alive d = true ∧ (s.sec d).key = some k ∧ s.authTag d =
     tagOf k (s.authMsg d) ∧ s.authCtr d / 2 ^ 32 = s.rd d Fd.EPOCH.W ∧ s.lastCounter d < s.authCtr d) ∧
    (∃ (s : State) (d : Nat) (slot : BitVec 2) (auth : Bool), s.sized = true ∧ s.sane = true ∧ s.alive d = true ∧ auth = false ∧
     s.partOwned = true) ∧
    (∃ (s : State) (d : Nat) (slot : BitVec 2) (auth : Bool), s.sized = true ∧ s.sane = true ∧ s.alive d = true ∧ (auth = true ∨
     s.partOwned = false) ∧ (s.loadState = false ∨ s.ownSlot d slot.toNat ≠ 0)) ∧
    (∃ (s : State) (d : Nat) (slot : BitVec 2) (auth : Bool), s.sized = true ∧ s.sane = true ∧ s.alive d = true ∧ (auth = true ∨
     s.partOwned = false) ∧ s.loadState = true ∧ s.ownSlot d slot.toNat = 0 ∧ (s.secBusy d = true ∨ s.burning = true)) ∧
    (∃ (s : State) (d : Nat) (slot : BitVec 2) (auth : Bool), s.sized = true ∧ s.sane = true ∧ s.alive d = true ∧ (auth = true ∨
     s.partOwned = false) ∧ s.loadState = true ∧ s.ownSlot d slot.toNat = 0 ∧ s.secBusy d = false ∧ s.burning = false) ∧
    (∃ (s : State) (d : Nat) (slot : BitVec 2) (auth : Bool), s.sized = true ∧ s.sane = true ∧ s.alive d = true ∧ auth = false) ∧
    (∃ (s : State) (d : Nat) (slot : BitVec 2) (auth : Bool), s.sized = true ∧ s.sane = true ∧ s.alive d = true ∧ auth = true ∧ ((∀ k, k <
     4 → k ≠ slot.toNat → s.ownUsable d k = false)) ∧ s.ownUsable d slot.toNat = true) ∧
    (∃ (s : State) (d : Nat) (slot : BitVec 2) (auth : Bool), s.sized = true ∧ s.sane = true ∧ s.alive d = true ∧ auth = true ∧
     s.loadState = true ∧ s.ownRevoked d slot.toNat = false ∧ ((s.ownUsable d slot.toNat = false ∨ ∃ k, k < 4 ∧ k ≠ slot.toNat ∧
     s.ownUsable d k = true)) ∧ s.secBusy d = false ∧ s.burning = false) ∧
    (∃ (s : State) (d slot v : Nat), s.sized = true ∧ s.sane = true ∧ s.alive d = true ∧ slot < 4 ∧ (s.sec d).burn = none) ∧
    (∃ (s : State) (d slot v : Nat), s.sized = true ∧ s.sane = true ∧ s.alive d = true ∧ slot < 4 ∧ (s.sec d).burn = some (1, slot, v) ∧ v
     < 2 ^ 384 ∧ s.ownSlot d slot = 0) ∧
    (∃ (s : State) (d slot v : Nat), s.sized = true ∧ s.sane = true ∧ s.alive d = true ∧ slot < 4 ∧ (s.sec d).burn = some (2, slot, 1)) :=
  ⟨⟨hd .run 9, 1, 3, by decide +kernel⟩,
   ⟨hd .run 9, 1, 3, by decide +kernel⟩,
   ⟨(hd .run 9).loading 0 1 [] 2, 0, 3, .attest 0, by decide +kernel⟩,
   ⟨hd .run 9, 0, 3, by decide +kernel⟩,
   ⟨(hd .run 9).owns 0 3 5, 0, 2, by decide +kernel⟩,
   ⟨hd .run 9, 0, 0, 0, [], by decide +kernel⟩,
   ⟨((hd .run 9).fld 0 Fd.EPOCH.W 6).onSec 0 (fun x => { x with op := some (2, 0, [1, 2]) }), 0, 2, 0, [1, 2], by decide +kernel⟩,
   ⟨hdu .run 9, 1, by decide +kernel⟩,
   ⟨commandedAgain, 1, [1, 2], by decide +kernel, by decide +kernel, by decide +kernel, rfl, auth_tag (by decide +kernel),
    by decide +kernel⟩,
   ⟨commanded, 1, [1, 2], 1, .page 1 12 0x28, by decide +kernel, by decide +kernel, by decide +kernel, rfl, auth_tag (by decide +kernel),
    by decide +kernel⟩,
   ⟨commanded, 1, [1, 2], by decide +kernel, by decide +kernel, by decide +kernel, rfl, auth_tag (by decide +kernel), by decide +kernel⟩,
   ⟨(hd .config 9).owns 0 3 5, 1, 2, false, by decide +kernel⟩,
   ⟨(hd .config 9).owns 0 3 5, 0, 3, true, by decide +kernel⟩,
   ⟨(hd .config 9).onSec 1 (fun x => { x with burn := some (1, 2, 3) }), 0, 3, false, by decide +kernel⟩,
   ⟨((hd .config 9).owns 0 2 5).fld 0 Fd.BUF.W 0x12345678 11, 0, 3, true, by decide +kernel⟩,
   ⟨(hd .config 9), 1, 2, false, by decide +kernel⟩,
   ⟨(hd .config 9).owns 0 3 5, 0, 3, true, by decide +kernel⟩,
   ⟨((hd .config 9).owns 0 3 5).owns 0 2 7, 0, 3, true, by decide +kernel⟩,
   ⟨hd .config 9, 1, 3, 0, by decide +kernel⟩,
   ⟨((hd .config 9).owns 1 2 9).onSec 1 (fun x => { x with burn := some (1, 3, 2 ^ 384 - 1) }), 1, 3, 2 ^ 384 - 1, by decide +kernel⟩,
   ⟨((hd .config 9).owns 1 3 9).onSec 1 (fun x => { x with burn := some (2, 3, 1) }), 1, 3, 1, by decide +kernel⟩⟩

theorem test_hypotheses_of_streams_and_ledger :
    (∃ (s : State) (d : Nat) (words : List (BitVec 16)), s.sized = true ∧ s.sane = true ∧ s.on d 0xF = true ∧ s.flag d Fd.STREAM.EN = true
     ∧ s.td0 % (s.period d * 800) = 0 ∧ (s.die d).recorder.recAt ≠ some (s.td0 : Int) ∧ words = (s.streamWords d).1 ∧ s.throttled d = true
     ∧ s.gridIndex d s.td0 % 2 = 1) ∧
    (∃ (s : State) (d : Nat) (words : List (BitVec 16)), s.sized = true ∧ s.sane = true ∧ s.on d 0xF = true ∧ s.flag d Fd.STREAM.EN = true
     ∧ s.td0 % (s.period d * 800) = 0 ∧ (s.die d).recorder.recAt ≠ some (s.td0 : Int) ∧ words = (s.streamWords d).1 ∧ s.throttled d =
     false ∧ s.isHead = true ∧ s.ledgerTakes d s.td0 = false) ∧
    (∃ (s : State) (d : Nat) (words : List (BitVec 16)), s.sized = true ∧ s.sane = true ∧ s.on d 0xF = true ∧ s.flag d Fd.STREAM.EN = true
     ∧ s.td0 % (s.period d * 800) = 0 ∧ (s.die d).recorder.recAt ≠ some (s.td0 : Int) ∧ words = (s.streamWords d).1 ∧ s.throttled d =
     false ∧ s.isHead = true ∧ s.ledgerTakes d s.td0 = true) ∧
    (∃ (s : State) (d : Nat) (words : List (BitVec 16)), s.sized = true ∧ s.sane = true ∧ s.on d 0xF = true ∧ s.flag d Fd.STREAM.EN = true
     ∧ s.td0 % (s.period d * 800) = 0 ∧ (s.die d).recorder.recAt ≠ some (s.td0 : Int) ∧ words = (s.streamWords d).1 ∧ s.throttled d =
     false ∧ s.isHead = false ∧ 8 ≤ (s.die 0).recorder.queue.length) ∧
    (∃ (s : State) (d : Nat) (words : List (BitVec 16)), s.sized = true ∧ s.sane = true ∧ s.on d 0xF = true ∧ s.flag d Fd.STREAM.EN = true
     ∧ s.td0 % (s.period d * 800) = 0 ∧ (s.die d).recorder.recAt ≠ some (s.td0 : Int) ∧ words = (s.streamWords d).1 ∧ s.throttled d =
     false ∧ s.isHead = false ∧ (s.die 0).recorder.queue.length < 8 ∧ s.fillGap = false) ∧
    (∃ (s : State) (d : Nat) (words : List (BitVec 16)), s.sized = true ∧ s.sane = true ∧ s.on d 0xF = true ∧ s.flag d Fd.STREAM.EN = true
     ∧ s.td0 % (s.period d * 800) = 0 ∧ (s.die d).recorder.recAt ≠ some (s.td0 : Int) ∧ words = (s.streamWords d).1 ∧ s.throttled d =
     false ∧ s.isHead = false ∧ (s.die 0).recorder.queue.length < 7 ∧ s.fillGap = true) ∧
    (∃ (s : State) (d : Nat), s.sane = true ∧ (s.on d 0xF = false ∨ s.flag d Fd.STREAM.EN = false ∨ s.td0 % (s.period d * 800) ≠ 0 ∨
     (s.die d).recorder.recAt = some (s.td0 : Int))) ∧
    (∃ (s : State) (idle : TxBlock) (p : List Byte) (rest : List (List Byte)), s.sized = true ∧ s.sane = true ∧ s.nodeFront 2 = none ∧
     s.nodeTurn 2 = some idle ∧ (s.die 0).recorder.queue = p :: rest) ∧
    (∃ (s : State) (d exp t0 : Nat) (r : Ring) (b : RingBlock), s.sized = true ∧ s.sane = true ∧ s.toHead d b 2 0 = true ∧ exp = seqOf
     (s.head d).rxSeq b.src.toNat 2 ∧ t0 = nearestTo (2 ^ 48) (beNat (slice b.payload 0 6)) s.td0 ∧ (goodBlock b = false ∨ 64 ≤
     (b.seq.toNat % 128 + 128 - exp % 128) % 128)) ∧
    (∃ (s : State) (d exp t0 : Nat) (r : Ring) (b : RingBlock), s.sized = true ∧ s.sane = true ∧ s.toHead d b 2 0 = true ∧ exp = seqOf
     (s.head d).rxSeq b.src.toNat 2 ∧ t0 = nearestTo (2 ^ 48) (beNat (slice b.payload 0 6)) s.td0 ∧ goodBlock b = true ∧ (b.seq.toNat %
     128 + 128 - exp % 128) % 128 < 64 ∧ beNat (slice b.payload 6 1) % 4 = 1 ∧ bitOf (beNat (slice b.payload 7 1)) 0 = false ∧ s.throttled
     d = false ∧ s.ledgerTakes d t0 = true ∧ (s.die d).recorder.pages ≠ [] ∧ (s.die d).recorder.count < 189) ∧
    (∃ (s : State) (d : Nat) (on : Bool), s.sized = true ∧ s.sane = true ∧ s.isHead = true ∧ s.alive d = true) ∧
    (∃ (s : State) (c : BitVec 4), s.sane = true ∧ s.isHead = true ∧ s.on 0 0xF = true) ∧
    (∃ (s : State) (c : BitVec 4), s.sane = true ∧ s.isHead = true ∧ s.on 0 0xF = true) ∧
    (∃ (s : State) (t0 : Nat) (rest : List Nat) (d : Nat), s.sized = true ∧ s.rearmAt = t0 :: rest ∧ t0 ≤ s.td0 ∧ s.on d 0xF = true ∧
     s.lstate d = 3) ∧
    (∃ (s : State) (t0 : Nat) (rest : List Nat) (d : Nat), s.sized = true ∧ s.rearmAt = t0 :: rest ∧ t0 ≤ s.td0 ∧ s.on d 0xF = true ∧
     s.lstate d ≠ 3) ∧
    (∃ (s : State) (t0 : Nat) (rest : List Nat), s.sized = true ∧ s.rearmAt = t0 :: rest ∧ t0 ≤ s.td0) ∧
    (∃ (s : State) (t0 c : Nat) (rest : List (Nat × Nat)), s.sized = true ∧ s.sane = true ∧ s.isHead = true ∧ s.alive 0 = true ∧ (s.trig =
     [] ∨ s.trig = (t0, c) :: rest ∧ s.td0 < t0)) ∧
    (∃ (s : State) (t0 c : Nat) (rest : List (Nat × Nat)), s.sized = true ∧ s.sane = true ∧ s.isHead = true ∧ s.alive 0 = true ∧ s.trig =
     (t0, c) :: rest ∧ t0 ≤ s.td0 ∧ c < 16 ∧ s.rearmAt = []) ∧
    (∃ (s : State) (d : Nat), s.sized = true ∧ s.sane = true ∧ s.isHead = true ∧ s.on d 0xF = false) ∧
    (∃ (s : State) (d : Nat), s.sized = true ∧ s.sane = true ∧ s.isHead = true ∧ (s.lstate d ≠ 2 ∨ s.td0 < s.trigP d + s.postTicks d +
     80000)) ∧
    (∃ (s : State) (d : Nat), s.sized = true ∧ s.sane = true ∧ s.isHead = true ∧ s.on d 0xF = true ∧ s.lstate d = 2 ∧ s.trigP d +
     s.postTicks d + 80000 ≤ s.td0) :=
  ⟨⟨((hd .run 12000).streams 1).fld 1 Fd.THM_STATUS.THROTTLE 1, 1, _, by decide +kernel, by decide +kernel, by decide +kernel,
    by decide +kernel, by decide +kernel, by decide +kernel, rfl, by decide +kernel⟩,
   ⟨((hd .run 12000).streams 1), 1, _, by decide +kernel, by decide +kernel, by decide +kernel, by decide +kernel, by decide +kernel,
    by decide +kernel, rfl, by decide +kernel⟩,
   ⟨(((hd .run 12000).streams 1).dramUp 1).fld 1 Fd.REC_STATUS.LSTATE 1 |>.fld 1 Fd.REC_CTRL.LEDGER_EN 1, 1, _, by decide +kernel,
    by decide +kernel, by decide +kernel, by decide +kernel, by decide +kernel, by decide +kernel, rfl, by decide +kernel⟩,
   ⟨((nd .run 12000).streams 0).onRec 0 (fun r => { r with queue := List.replicate 8 [1] }), 0, _, by decide +kernel, by decide +kernel,
    by decide +kernel, by decide +kernel, by decide +kernel, by decide +kernel, rfl, by decide +kernel⟩,
   ⟨((nd .run 12000).streams 0).onRec 0 (fun r => { r with queue := List.replicate 7 [1] }), 0, _, by decide +kernel, by decide +kernel,
    by decide +kernel, by decide +kernel, by decide +kernel, by decide +kernel, rfl, by decide +kernel⟩,
   ⟨((nd .run 12000).streams 0).onRec 0 (fun r => { r with fill := [(4000, [1])], queue := List.replicate 6 [1] }), 0, _,
    by decide +kernel, by decide +kernel, by decide +kernel, by decide +kernel, by decide +kernel, by decide +kernel, rfl,
    by decide +kernel⟩,
   ⟨((hd .run 12001).streams 1), 1, by decide +kernel⟩,
   ⟨((ndu .run 12000).way 3 fun n => { n with tx := [idleAt 12000] }).onRec 0 (fun r => { r with queue := [[1, 2], [3]] }), idleAt 12000,
    [1, 2], [[3]], by decide +kernel⟩,
   ⟨(hdu .run 12000).ring 1 3 5, 1, 0, 0, .a, badCrc (rb 2 0 5 0 0 (capturePayload 0 false false [[1]])), by decide +kernel⟩,
   ⟨(((hdu .run 12000).ring 1 3 5).dramUp 1).fld 1 Fd.REC_STATUS.LSTATE 1 |>.fld 1 Fd.REC_CTRL.LEDGER_EN 1 |>.fld 1 Fd.STREAM.PERIOD 5
    |>.onRec 1 (fun r => { r with pages := [(31, 4000, 8000)], page := 31, seq := 16, count := 188 }), 1, 0, 8000, .b, rb 2 0 5 0 0
    (capturePayload 8000 false false [[1, 2, 3, 4, 5, 6, 7, 8]]), by decide +kernel⟩,
   ⟨hd .config 9, 1, true, by decide +kernel⟩,
   ⟨hd .run 9 |>.ben 0 15, 15, by decide +kernel⟩,
   ⟨hd .run 9 |>.ben 0 15, 15, by decide +kernel⟩,
   ⟨{ (hd .run 9).fld 1 Fd.REC_STATUS.LSTATE 3 with rearmAt := [9, 11] }, 9, [11], 1, by decide +kernel⟩,
   ⟨{ (hd .run 9).fld 1 Fd.REC_STATUS.LSTATE 2 with rearmAt := [9, 11] }, 9, [11], 1, by decide +kernel⟩,
   ⟨{ (hd .run 9).fld 1 Fd.REC_STATUS.LSTATE 2 with rearmAt := [9, 11] }, 9, [11], by decide +kernel⟩,
   ⟨{ hd .run 9 with trig := [(10, 5)] }, 10, 5, [], by decide +kernel⟩,
   ⟨{ (hd .run 9).fld 1 Fd.REC_STATUS.LSTATE 1 with trig := [(9, 15), (9, 3)] }, 9, 15, [(9, 3)], by decide +kernel⟩,
   ⟨(hd .config 9).ben 1 15 0, 1, by decide +kernel⟩,
   ⟨((hd .run 80000).fld 1 Fd.REC_STATUS.LSTATE 2).fld 1 Fd.TRIG_T_LO.W 1, 1, by decide +kernel⟩,
   ⟨(((hd .run 160001).fld 1 Fd.REC_STATUS.LSTATE 2).fld 1 Fd.TRIG_T_LO.W 1).fld 0 Fd.CAP_CFG.W 0x00000001 0, 1, by decide +kernel⟩⟩

theorem test_hypotheses_of_dram_window :
    (∃ (s : State) (d i b z : Nat) (v : Word), s.sized = true ∧ s.sane = true ∧ s.alive d = true ∧ i < 3 ∧ b = bitsOf v.toNat 29 16 * 16 ∧
     z = bitsOf v.toNat 13 0 * 16 ∧ (s.device ≠ .config ∨ s.isHead = false)) ∧
    (∃ (s : State) (d i b z : Nat) (v : Word), s.sized = true ∧ s.sane = true ∧ s.alive d = true ∧ i < 3 ∧ b = bitsOf v.toNat 29 16 * 16 ∧
     z = bitsOf v.toNat 13 0 * 16 ∧ s.device = .config ∧ s.isHead = true ∧ ((z = 0 ∨ b + z ≤ 262144)) ∧ ((∀ j, j < 3 → j ≠ i → overlap (b,
     b + z) (s.part3 d j) = false))) ∧
    (∃ (s : State) (d i b z : Nat) (v : Word), s.sized = true ∧ s.sane = true ∧ s.alive d = true ∧ i < 3 ∧ b = bitsOf v.toNat 29 16 * 16 ∧
     z = bitsOf v.toNat 13 0 * 16 ∧ s.device = .config ∧ s.isHead = true ∧ ((z ≠ 0 ∧ 262144 < b + z ∨ ∃ j, j < 3 ∧ j ≠ i ∧ overlap (b, b +
     z) (s.part3 d j) = true))) ∧
    (∃ (s : State) (d i a : Nat) (first second : Bool), s.sized = true ∧ s.sane = true ∧ s.isHead = true ∧ s.alive d = true ∧ i < 16 ∧ a =
     s.winAddr d i ∧ s.dramOn d = false) ∧
    (∃ (s : State) (d i a : Nat) (first second : Bool), s.sized = true ∧ s.sane = true ∧ s.isHead = true ∧ s.alive d = true ∧ i < 16 ∧ a =
     s.winAddr d i ∧ s.dramOn d = true) ∧
    (∃ (s : State) (d i a : Nat) (v : Word) (first second ok : Bool), s.sized = true ∧ s.sane = true ∧ s.isHead = true ∧ s.alive d = true
     ∧ i < 16 ∧ a = s.winAddr d i ∧ ok = (s.dramOn d && (s.device == .config || s.device == .standstill) && (s.partOf d a == some 1 ||
     s.partOf d a == some 2)) ∧ ok = false) ∧
    (∃ (s : State) (d i a : Nat) (v : Word) (first second ok : Bool), s.sized = true ∧ s.sane = true ∧ s.isHead = true ∧ s.alive d = true
     ∧ i < 16 ∧ a = s.winAddr d i ∧ ok = (s.dramOn d && (s.device == .config || s.device == .standstill) && (s.partOf d a == some 1 ||
     s.partOf d a == some 2)) ∧ ok = true) :=
  ⟨⟨hd .run 9, 1, 2, 16, 16, 0x00010001, by decide +kernel⟩,
   ⟨hd .config 9, 1, 2, 262128, 16, 0x3FFF0001, by decide +kernel⟩,
   ⟨hd .config 9, 1, 2, 262128, 32, 0x3FFF0002, by decide +kernel⟩,
   ⟨hd .config 9, 1, 15, 60, true, true, by decide +kernel⟩,
   ⟨(((hd .run 9).dramUp 1).fld 1 Fd.WIN_PTR.ADDR (16 * 3840)).fld 1 Fd.REC_CTRL.AUTO 1 |>.onRec 1 (fun r =>
    { r with written := [1025], dram := [(61500, 7), (61503, 9)] }), 1, 15, 61500, false, true, by decide +kernel⟩,
   ⟨(((hd .config 9).dramUp 1).fld 1 Fd.WIN_PTR.ADDR (16 * 3840)), 1, 14, 61496, 5, false, true, false, by decide +kernel⟩,
   ⟨(((hd .standstill 9).dramUp 1).fld 1 Fd.WIN_PTR.ADDR (32 * 3840)) |>.fld 1 Fd.REC_CTRL.AUTO 1 |>.onRec 1 (fun r =>
    { r with dram := [(122939, 7), (122940, 9)] }), 1, 15, 122940, 0x12003456, false, true, true, by decide +kernel⟩⟩

theorem test_hypotheses_of_node_images :
    (∃ (s : State) (d : Nat) (c : Bool), s.sized = true ∧ s.sane = true ∧ s.isHead = true ∧ s.alive d = true ∧ c = ((s.device == .config
     || s.device == .standstill) && s.ringMode d == 3 && (s.die d).sec.got4 && (s.die d).nimg.left.isEmpty) ∧ c = false) ∧
    (∃ (s : State) (d : Nat) (c : Bool), s.sized = true ∧ s.sane = true ∧ s.isHead = true ∧ s.alive d = true ∧ c = ((s.device == .config
     || s.device == .standstill) && s.ringMode d == 3 && (s.die d).sec.got4 && (s.die d).nimg.left.isEmpty) ∧ c = true ∧ s.rd d
     Fd.NIMG_SEL.W = 0) ∧
    (∃ (s : State) (d : Nat) (c : Bool) (i : Nat), s.sized = true ∧ s.sane = true ∧ s.isHead = true ∧ s.alive d = true ∧ c = ((s.device ==
     .config || s.device == .standstill) && s.ringMode d == 3 && (s.die d).sec.got4 && (s.die d).nimg.left.isEmpty) ∧ c = true ∧ bitList
     32 (s.rd d Fd.NIMG_SEL.W) = [i] ∧ s.nodes d < i + 1) ∧
    (∃ (s : State) (d : Nat) (c : Bool) (i a : Nat), s.sized = true ∧ s.sane = true ∧ s.isHead = true ∧ s.alive d = true ∧ c = ((s.device
     == .config || s.device == .standstill) && s.ringMode d == 3 && (s.die d).sec.got4 && (s.die d).nimg.left.isEmpty) ∧ c = true ∧
     bitList 32 (s.rd d Fd.NIMG_SEL.W) = [i] ∧ i + 1 ≤ s.nodes d ∧ a = (s.die d).sec.dest4 + 4 ∧ lineOf a ∈ (s.die d).recorder.written ∧
     lineOf (a + 55) ∈ (s.die d).recorder.written) ∧
    (∃ (s : State) (d : Nat), s.sized = true ∧ s.sane = true ∧ s.isHead = true ∧ s.alive d = true ∧ (s.die d).nimg.left = []) ∧
    (∃ (s : State) (d : Nat), s.sized = true ∧ s.sane = true ∧ s.isHead = true ∧ s.alive d = true ∧ (s.die d).nimg.left ≠ []) ∧
    (∃ (s : State) (d n : Nat) (fails : List (Nat × Bool)) (e : NimgWs), s.sized = true ∧ s.sane = true ∧ s.isHead = true ∧ s.alive d =
     true ∧ (s.die d).nimg.left.find? (fun e => e.ws == n) = some e ∧ e.phase = 1 ∧ s.frontBc d n 2 = none ∧ (e.polled = 0 ∨ e.polled +
     800000 ≤ s.td0) ∧ s.ringMode d = 3 ∧ 1 ≤ n ∧ n ≤ s.nodes d) ∧
    (∃ (s : State) (d n : Nat) (fails : List (Nat × Bool)) (e : NimgWs), s.sized = true ∧ s.sane = true ∧ s.isHead = true ∧ s.alive d =
     true ∧ (s.die d).nimg.left.find? (fun e => e.ws == n) = some e ∧ e.phase = 1 ∧ ((s.frontBc d n 2).isSome = true ∨ e.polled ≠ 0 ∧
     s.td0 < e.polled + 800000)) ∧
    (∃ (s : State) (d n : Nat) (fails : List (Nat × Bool)) (e : NimgWs), s.sized = true ∧ s.sane = true ∧ s.isHead = true ∧ s.alive d =
     true ∧ (s.die d).nimg.left.find? (fun e => e.ws == n) = some e ∧ (e.phase = 0 ∨ e.phase = 2)) ∧
    (∃ (s : State) (d n : Nat) (fails : List (Nat × Bool)) (e : NimgWs) (a : Nat), s.sized = true ∧ s.sane = true ∧ s.isHead = true ∧
     s.alive d = true ∧ (s.die d).nimg.left.find? (fun e => e.ws == n) = some e ∧ e.phase = 3 ∧ a = (s.innerAt d (s.die d).sec.dest4
     e.inner).1 + e.next ∧ lineOf a ∉ (s.die d).recorder.written ∧ 1 ≤ n ∧ n ≤ 32) ∧
    (∃ (s : State) (d n : Nat) (fails : List (Nat × Bool)) (e : NimgWs) (a m : Nat), s.sized = true ∧ s.sane = true ∧ s.isHead = true ∧
     s.alive d = true ∧ (s.die d).nimg.left.find? (fun e => e.ws == n) = some e ∧ e.phase = 3 ∧ s.ringMode d = 3 ∧ a = (s.innerAt d (s.die
     d).sec.dest4 e.inner).1 ∧ m = min 56 ((s.innerAt d (s.die d).sec.dest4 e.inner).2 - e.next) ∧ 0 < m ∧ lineOf (a + e.next) ∈ (s.die
     d).recorder.written ∧ lineOf (a + e.next + m - 1) ∈ (s.die d).recorder.written ∧ fails = [] ∧ e.inner < 16) ∧
    (∃ (s : State) (r : Ring) (b : RingBlock) (exp : Nat), s.sized = true ∧ s.sane = true ∧ s.toNode b 2 1 = true ∧ exp = nodeSeq
     s.node.rxSeq 2 ∧ (goodBlock b = false ∨ 64 ≤ (b.seq.toNat % 128 + 128 - exp % 128) % 128 ∨ s.loadState = false ∨ (s.die 0).clk.boot0
     = true)) ∧
    (∃ (s : State) (r : Ring) (b : RingBlock) (exp : Nat), s.sized = true ∧ s.sane = true ∧ s.toNode b 2 1 = true ∧ exp = nodeSeq
     s.node.rxSeq 2 ∧ goodBlock b = true ∧ (b.seq.toNat % 128 + 128 - exp % 128) % 128 < 64 ∧ s.loadState = true ∧ (s.die 0).clk.boot0 =
     false ∧ bitOf (field8 b 5 1) 0 = true ∧ s.imgBusy 0 = false ∧ field8 b 0 4 = 0 ∧ field8 b 6 2 = 4) ∧
    (∃ (s : State) (r : Ring) (b : RingBlock) (exp : Nat), s.sized = true ∧ s.sane = true ∧ s.toNode b 2 1 = true ∧ exp = nodeSeq
     s.node.rxSeq 2 ∧ goodBlock b = true ∧ (b.seq.toNat % 128 + 128 - exp % 128) % 128 < 64 ∧ s.loadState = true ∧ (s.die 0).clk.boot0 =
     false ∧ bitOf (field8 b 5 1) 0 = false ∧ field8 b 0 4 = s.node.nextImg.2 ∧ field8 b 6 2 = 4 ∧ s.rd 0 Fd.IMG_STAT.STAT = 1 ∧
     (s.imgWords 0).length < 43) ∧
    (∃ (s : State) (r : Ring) (b : RingBlock) (exp : Nat), s.sized = true ∧ s.sane = true ∧ s.toNode b 2 1 = true ∧ exp = nodeSeq
     s.node.rxSeq 2 ∧ goodBlock b = true ∧ (b.seq.toNat % 128 + 128 - exp % 128) % 128 < 64 ∧ s.loadState = true ∧ (s.die 0).clk.boot0 =
     false ∧ bitOf (field8 b 5 1) 0 = false ∧ field8 b 0 4 ≠ s.node.nextImg.2 ∧ s.imgBusy 0 = true) ∧
    (∃ (s : State) (r : Ring) (b : RingBlock) (exp n k : Nat) (dead : Word) (ws : List Word), s.sized = true ∧ s.sane = true ∧ s.toNode b
     2 1 = true ∧ exp = nodeSeq s.node.rxSeq 2 ∧ goodBlock b = true ∧ (b.seq.toNat % 128 + 128 - exp % 128) % 128 < 64 ∧ s.loadState =
     true ∧ (s.die 0).clk.boot0 = false ∧ bitOf (field8 b 5 1) 0 = false ∧ field8 b 0 4 = s.node.nextImg.2 ∧ field8 b 6 2 = 4 ∧ s.rd 0
     Fd.IMG_STAT.STAT = 1 ∧ n = (s.imgWords 0).length ∧ ws = s.imgWords 0 ++ [BitVec.ofNat 32 (field8 b 8 4)] ∧ 44 ≤ n ∧ n < 44 +
     bodyWords ws ∧ imgDest (s.sec 0).type ws (n - 44) = .cell k dead ∧ dead ≠ 0 ∧ s.progInUse 0 k = true) :=
  ⟨⟨hd .config 9, 1, false, by decide +kernel⟩,
   ⟨((hd .standstill 9).ring 1 3 5).onSec 1 (fun x => { x with got4 := true }), 1, true, by decide +kernel⟩,
   ⟨(((hd .standstill 9).ring 1 3 5).onSec 1 (fun x => { x with got4 := true })).fld 1 Fd.NIMG_SEL.W 32, 1, true, 5, by decide +kernel⟩,
   ⟨(((hd .standstill 9).ring 1 3 5).onSec 1 (fun x => { x with got4 := true, dest4 := 600 })).fld 1 Fd.NIMG_SEL.W 16 |>.onRec 1 (fun r
    => { r with written := [10] }), 1, true, 4, 604, by decide +kernel⟩,
   ⟨hd .config 9, 1, by decide +kernel⟩,
   ⟨(hd .config 9).onDie 1 (fun x => { x with nimg := ⟨[⟨1, 0, 0, 0, 0⟩, ⟨32, 1, 2, 1, 5⟩]⟩ }), 1, by decide +kernel⟩,
   ⟨((hd .config 800009).ring 1 3 5).onDie 1 (fun x => { x with nimg := ⟨[⟨1, 0, 0, 0, 0⟩, ⟨5, 1, 2, 1, 9⟩]⟩ }), 1, 5, [], ⟨5, 1, 2, 1,
    9⟩, by decide +kernel⟩,
   ⟨((hd .config 800008).ring 1 3 5).onDie 1 (fun x => { x with nimg := ⟨[⟨1, 0, 0, 0, 0⟩, ⟨5, 1, 2, 1, 9⟩]⟩ }), 1, 5, [], ⟨5, 1, 2, 1,
    9⟩, by decide +kernel⟩,
   ⟨((hd .config 800008).ring 1 3 5).onDie 1 (fun x => { x with nimg := ⟨[⟨1, 0, 0, 0, 0⟩, ⟨5, 1, 2, 2, 9⟩]⟩ }), 1, 5, [], ⟨5, 1, 2, 2,
    9⟩, by decide +kernel⟩,
   ⟨(((hd .config 800008).ring 1 3 5).onDie 1 (fun x => { x with nimg := ⟨[⟨1, 0, 0, 0, 0⟩, ⟨5, 0, 0, 3, 9⟩]⟩ })).onSec 1 (fun x =>
    { x with got4 := true, dest4 := 600 }), 1, 5, [], ⟨5, 0, 0, 3, 9⟩, _, by decide +kernel, by decide +kernel, by decide +kernel,
    by decide +kernel, by decide +kernel, by decide +kernel, rfl, by decide +kernel⟩,
   ⟨(((hd .config 800008).ring 1 3 5).onDie 1 (fun x => { x with nimg := ⟨[⟨1, 0, 0, 0, 0⟩, ⟨5, 0, 0, 3, 9⟩]⟩ })).onSec 1 (fun x =>
    { x with got4 := true, dest4 := 600 }) |>.onRec 1 (fun r => { r with written := [10, 11, 12, 13] }), 1, 5, [], ⟨5, 0, 0, 3, 9⟩, _, _,
    by decide +kernel, by decide +kernel, by decide +kernel, by decide +kernel, by decide +kernel, by decide +kernel, by decide +kernel,
    rfl, rfl, by decide +kernel⟩,
   ⟨(ndu .run 9).way 3, .a, rb 2 1 0 3 0 (beBytes 4 0 ++ [0, 1] ++ beBytes 2 4 ++ [0x4B, 0x4C, 0x44, 0x31, 1]), _, by decide +kernel,
    by decide +kernel, by decide +kernel, rfl, by decide +kernel⟩,
   ⟨(ndu .config 9).way 3, .b, rb 2 1 0 3 0 (beBytes 4 0 ++ [0, 1] ++ beBytes 2 4 ++ [0x4B, 0x4C, 0x44, 0x31, 1]), _, by decide +kernel,
    by decide +kernel, by decide +kernel, rfl, by decide +kernel⟩,
   ⟨((ndu .config 9).way 3 fun n => { n with nextImg := (0, 4) }).loading 0 1 [5], .a, rb 2 1 0 3 0 (beBytes 4 4 ++ [0, 0] ++ beBytes 2 4
    ++ [0x4B, 0x4C, 0x44, 0x31, 1]), _, by decide +kernel, by decide +kernel, by decide +kernel, rfl, by decide +kernel⟩,
   ⟨((ndu .config 9).way 3 fun n => { n with nextImg := (0, 8) }).loading 0 1 [5], .b, rb 2 1 0 3 0 (beBytes 4 4 ++ [0, 0] ++ beBytes 2 4
    ++ [0x4B, 0x4C, 0x44, 0x31, 1]), _, by decide +kernel, by decide +kernel, by decide +kernel, rfl, by decide +kernel⟩,
   ⟨(((ndu .config 9).way 3 fun n => { n with nextImg := (0, 176) }).loading 0 1 loopHdr).slotOn 0, .a, rb 2 1 0 3 0 (beBytes 4 176 ++
    [0, 0] ++ beBytes 2 4 ++ [0x4B, 0x4C, 0x44, 0x31, 1]), _, _, progKey 2 5, 0xFC000000, _, by decide +kernel, by decide +kernel,
    by decide +kernel, rfl, by decide +kernel, by decide +kernel, by decide +kernel, by decide +kernel, by decide +kernel,
    by decide +kernel, by decide +kernel, by decide +kernel, rfl, rfl, by decide +kernel⟩⟩

end Sys2Proof.Machine
end

/-! ## What every command and every tick keeps -/

namespace Sys2Proof.Machine

variable {s t u : State} {α : Type}

/-- From s to t the part, the queue and the number of dies stay, and a sound state stays sound. -/
structure State.Keeps (s t : State) : Prop where
  part : t.part = s.part
  pending : t.pending = s.pending
  length : t.dies.length = s.dies.length
  sound : s.Sound → t.Sound

namespace State.Keeps

theorem refl (s : State) : s.Keeps s := ⟨rfl, rfl, rfl, id⟩

theorem trans (h : s.Keeps t) (k : t.Keeps u) : s.Keeps u :=
  ⟨k.part.trans h.part, k.pending.trans h.pending, k.length.trans h.length, k.sound ∘ h.sound⟩

/-- A change of the package beside its part, its queue, its summary page and its dies. -/
theorem congr (h : s.Keeps t) (h1 : u.part = t.part) (h2 : u.pending = t.pending) (h3 : u.sum = t.sum)
    (h4 : u.dies = t.dies) : s.Keeps u :=
  h.trans ⟨h1, h2, congrArg List.length h4, fun hs => hs.congr h1 h3 h4⟩

/-- A change of one die beside its registers and its DRAM. -/
theorem onDie {d : Nat} {f : Die → Die} (h : s.Keeps t) (hc : ∀ x, (f x).cells = x.cells)
    (hm : ∀ x, (f x).recorder.dram = x.recorder.dram) : s.Keeps (t.onDie d f) :=
  h.trans ⟨rfl, rfl, State.onDie_length .., fun hs => hs.onDie_same d f hc hm⟩

/-- A change of one die beside its registers that keeps its DRAM canonical. -/
theorem onDieDram {d : Nat} {f : Die → Die} (h : s.Keeps t) (hc : ∀ x, (f x).cells = x.cells)
    (hm : ∀ x, Memory.wf (f x).recorder.dram) : s.Keeps (t.onDie d f) :=
  h.trans ⟨rfl, rfl, State.onDie_length .., fun hs => hs.onDie d f (fun c => by rw [hc]; exact c) fun _ => hm _⟩

theorem putCell {d key : Nat} {w : Word} (h : s.Keeps t) : s.Keeps (t.putCell d key w) :=
  h.trans ⟨rfl, rfl, State.putCell_length .., fun hs => hs.putCell ..⟩

theorem dropCells {d : Nat} {p : Nat → Bool} (h : s.Keeps t) : s.Keeps (t.dropCells d p) :=
  h.trans ⟨rfl, rfl, State.dropCells_length .., fun hs => hs.dropCells d p⟩

theorem putSum {off : Nat} {w : Word} (h : s.Keeps t) : s.Keeps (t.putSum off w) :=
  h.trans ⟨rfl, rfl, rfl, fun hs => hs.putSum off w⟩

/-- Words of the summary page that return to their reset values. -/
theorem dropSum {p : Nat × Word → Bool} (h : s.Keeps t) : s.Keeps { t with sum := t.sum.filter p } :=
  h.trans ⟨rfl, rfl, rfl, fun hs => ⟨hs.1, Cells.canonical_filter p hs.2.1, hs.2.2⟩⟩

theorem dramWrite {d a : Nat} {l : List Byte} (h : s.Keeps t) : s.Keeps (t.dramWrite d a l) :=
  h.trans ⟨rfl, rfl, State.onDie_length .., fun hs => hs.dramWrite d a l⟩

theorem ite {c : Prop} [Decidable c] (h : s.Keeps t) (k : s.Keeps u) : s.Keeps (if c then t else u) := by
  split
  · exact h
  · exact k

theorem snd {β : Type} {b : β} (h : s.Keeps t) : s.Keeps (b, t).2 := h

theorem when {c : Bool} {f : State → State} (h : s.Keeps t) (hf : ∀ v, s.Keeps v → s.Keeps (f v)) : s.Keeps (t.when c f) :=
  .ite (hf t h) h

theorem each {l : List α} {f : State → α → State} (h : s.Keeps t) (hf : ∀ v a, a ∈ l → s.Keeps v → s.Keeps (f v a)) :
    s.Keeps (t.each l f) := by
  unfold State.each
  induction l generalizing t with
  | nil => exact h
  | cons a l ih => exact ih (hf _ _ List.mem_cons_self h) fun v b hb hv => hf v b (List.mem_cons_of_mem _ hb) hv

theorem iteSnd {β : Type} {c : Prop} [Decidable c] {a b : β × State} (h : s.Keeps a.2) (k : s.Keeps b.2) :
    s.Keeps (if c then a else b).2 := by
  split
  · exact h
  · exact k

/-- A fold that carries a state in its result. -/
theorem foldl {β : Type} {p : β → State} {l : List α} {f : β → α → β} {r : β} (h : s.Keeps (p r))
    (hf : ∀ x a, s.Keeps (p x) → s.Keeps (p (f x a))) : s.Keeps (p (l.foldl f r)) := by
  induction l generalizing r with
  | nil => exact h
  | cons a l ih => exact ih (hf r a h)

end State.Keeps
end Sys2Proof.Machine

namespace Sys2Proof.Machine
variable {s t u : State}

/-! #### What the operations of Machine/Ops keep -/

theorem State.Keeps.applyStraps {d : Nat} {p : Nat → Bool} (h : s.Keeps t) : s.Keeps (t.applyStraps d p) := by
  unfold State.applyStraps
  exact .ite (.each h fun _ _ _ h => h.putCell) h

theorem State.Keeps.wr {d : Nat} {f : Fld} {i v : Nat} (h : s.Keeps t) : s.Keeps (t.wr d f i v) := h.putCell

theorem State.Keeps.wrB {d : Nat} {f : Fld} {i : Nat} {b : Bool} (h : s.Keeps t) : s.Keeps (t.wrB d f i b) := h.wr

theorem State.Keeps.wrS {d : Nat} {f : Fld} {i : Nat} {v : Int} (h : s.Keeps t) : s.Keeps (t.wrS d f i v) := h.wr

theorem State.Keeps.bump {d : Nat} {f : Fld} {i n : Nat} (h : s.Keeps t) : s.Keeps (t.bump d f i n) := h.wr

theorem State.Keeps.bumpMod {d : Nat} {f : Fld} {i n : Nat} (h : s.Keeps t) : s.Keeps (t.bumpMod d f i n) := h.wr

theorem State.Keeps.stick {d page bit : Nat} (h : s.Keeps t) : s.Keeps (t.stick d page bit) := by
  unfold State.stick
  exact .ite h (.congr h.putCell.putCell rfl rfl rfl rfl)

theorem State.Keeps.sticky {d : Nat} {k : Sticky} {i : Nat} (h : s.Keeps t) : s.Keeps (t.sticky d k i) :=
  h.stick

theorem State.Keeps.sumStick {bit : Nat} (h : s.Keeps t) : s.Keeps (t.sumStick bit) := by
  unfold State.sumStick
  exact .ite h (.congr h.putSum.putSum rfl rfl rfl rfl)

theorem State.Keeps.freeN (h : s.Keeps t) : s.Keeps (t.freeN).2 := by
  unfold State.freeN
  exact .snd (.congr h rfl rfl rfl rfl)

theorem State.Keeps.freeW (h : s.Keeps t) : s.Keeps (t.freeW).2 := by
  unfold State.freeW
  exact .snd (.congr h rfl rfl rfl rfl)

theorem State.Keeps.misuse {rule d page : Nat} (h : s.Keeps t) : s.Keeps (t.misuse rule d page) := by
  unfold State.misuse
  dsimp only
  exact .each (.congr h rfl rfl rfl rfl) fun _ _ _ h => by
      split
      · exact h.putCell
      · exact h

theorem State.Keeps.endMisuse {d page : Nat} (h : s.Keeps t) : s.Keeps (t.endMisuse d page) := by
  unfold State.endMisuse
  exact .congr h rfl rfl rfl rfl

/-! #### What the operations of Machine/Signals keep -/

theorem State.Keeps.raise {d pi : Nat} (h : s.Keeps t) : s.Keeps (t.raise d pi) := by
  unfold State.raise
  exact .ite h (h.onDie (fun _ => rfl) (fun _ => rfl))

theorem State.Keeps.lower {d pi : Nat} (h : s.Keeps t) : s.Keeps (t.lower d pi) := by
  unfold State.lower
  exact h.onDie (fun _ => rfl) (fun _ => rfl)

theorem State.Keeps.source {d pi : Nat} {on : Bool} (h : s.Keeps t) : s.Keeps (t.source d pi on) := by
  unfold State.source
  exact .ite h.raise h.lower

theorem State.Keeps.arrive {d code ws : Nat} (h : s.Keeps t) : s.Keeps (t.arrive d code ws) := by
  unfold State.arrive
  exact .ite (h.onDie (fun _ => rfl) (fun _ => rfl)) h

theorem State.Keeps.pulse {d pi : Nat} (h : s.Keeps t) : s.Keeps (t.pulse d pi) := by
  unfold State.pulse
  exact .when (h.onDie (fun _ => rfl) (fun _ => rfl)) fun _ h => h.arrive

theorem State.Keeps.armCollectors (h : s.Keeps t) : s.Keeps t.armCollectors := by
  unfold State.armCollectors
  exact h.each fun _ _ _ h => h.onDie (fun _ => rfl) (fun _ => rfl)

theorem State.Keeps.putCtx {d n field : Nat} {v : BitVec 16} (h : s.Keeps t) : s.Keeps (t.putCtx d n field v) := h.putCell

theorem State.Keeps.setNodeField {field : Nat} {v : BitVec 16} (h : s.Keeps t) : s.Keeps (t.setNodeField field v) := by
  unfold State.setNodeField
  exact .ite h (h.putCtx.onDie (fun _ => rfl) (fun _ => rfl))

/-! #### What the operations of Machine/Bridge keep -/

theorem State.Keeps.onBg {f : Bg → Bg} (h : s.Keeps t) : s.Keeps (t.onBg f) := by
  unfold State.onBg
  exact h.onDie (fun _ => rfl) (fun _ => rfl)

theorem State.Keeps.onBridge {b : Nat} {f : Bridge → Bridge} (h : s.Keeps t) : s.Keeps (t.onBridge b f) :=
  h.onBg

theorem State.Keeps.onLeg {k : Nat} {f : Leg → Leg} (h : s.Keeps t) : s.Keeps (t.onLeg k f) := h.onBg

theorem State.Keeps.setGh {k : Nat} {b : Bool} (h : s.Keeps t) : s.Keeps (t.setGh k b) := by
  unfold State.setGh
  exact .congr h rfl rfl rfl rfl

theorem State.Keeps.setGl {k : Nat} {b : Bool} (h : s.Keeps t) : s.Keeps (t.setGl k b) := by
  unfold State.setGl
  exact .congr h rfl rfl rfl rfl

theorem State.Keeps.guardSources (h : s.Keeps t) : s.Keeps t.guardSources := h.source.source

theorem State.Keeps.endHigh {k : Nat} {inst : Int} (h : s.Keeps t) : s.Keeps (t.endHigh k inst) := by
  unfold State.endHigh
  exact h.when fun _ h => h.onLeg

theorem State.Keeps.settleFalls {k : Nat} {i : Int} (h : s.Keeps t) : s.Keeps (t.settleFalls k i) := by
  unfold State.settleFalls
  exact .when (h.when fun _ h => h.setGh.onLeg.endHigh) fun _ h => h.setGl.onLeg.endHigh

theorem State.Keeps.rise {k : Nat} {upper : Bool} {r : Int} (h : s.Keeps t) : s.Keeps (t.rise k upper r) := by
  unfold State.rise
  exact .onLeg (.ite h.setGh h.setGl)

theorem State.Keeps.settleRise {k : Nat} {upper : Bool} {i : Int} (h : s.Keeps t) : s.Keeps (t.settleRise k upper i) := by
  unfold State.settleRise
  split
  · exact .ite h.rise h
  · exact h

theorem State.Keeps.settle {k : Nat} {i : Int} (h : s.Keeps t) : s.Keeps (t.settle k i) := h.settleFalls.settleRise.settleRise

theorem State.Keeps.freeRise {k : Nat} {upper : Bool} (h : s.Keeps t) : s.Keeps (t.freeRise k upper) := by
  unfold State.freeRise
  split
  · exact .ite h.settleRise h
  · exact h

theorem State.Keeps.gateTick (h : s.Keeps t) : s.Keeps t.gateTick := by
  unfold State.gateTick
  extract_lets +onlyGivenNames t1 due t2
  have h1 : s.Keeps t1 := h.each fun _ _ _ h => h.settleFalls.freeRise.freeRise
  have h2 : s.Keeps t2 := h1.onBg
  clear_value t2
  split
  · exact h2.congr rfl rfl rfl rfl
  · exact h2

theorem State.Keeps.driveLeg {k : Nat} {up lo : Bool} {inst : Int} (h : s.Keeps t) : s.Keeps (t.driveLeg k up lo inst) := by
  unfold State.driveLeg
  exact h.settle.onLeg

theorem State.Keeps.keepUndo {b : Nat} {edge : Bool} (h : s.Keeps t) : s.Keeps (t.keepUndo b edge) := by
  unfold State.keepUndo
  exact h.onBridge

theorem State.Keeps.takeState {b code : Nat} {inst : Int} (h : s.Keeps t) : s.Keeps (t.takeState b code inst) := by
  unfold State.takeState
  exact .driveLeg (.driveLeg (.wr (.onBridge (h.when fun _ h => h.wrB))))

theorem State.Keeps.takeBlock {b : Nat} {wait : Bool} {inst : Int} (h : s.Keeps t) : s.Keeps (t.takeBlock b wait inst) :=
  h.onBridge.takeState

theorem State.Keeps.legsWait {b w : Nat} (h : s.Keeps t) : s.Keeps (t.legsWait b w) := by
  unfold State.legsWait
  exact h.each fun _ _ _ h => h.onLeg

theorem State.Keeps.makeCurrent {b : Nat} {m : Manifest} (h : s.Keeps t) : s.Keeps (t.makeCurrent b m) := by
  unfold State.makeCurrent
  dsimp only
  split
  · exact h.onBridge
  · exact .ite h.onBridge.onBridge h.onBridge.sticky.takeBlock

theorem State.Keeps.discardCurrent {b : Nat} (h : s.Keeps t) : s.Keeps (t.discardCurrent b) := by
  unfold State.discardCurrent
  dsimp only
  split
  · exact h.onBridge.makeCurrent
  · exact h.onBridge

theorem State.Keeps.undoTick {b : Nat} (h : s.Keeps t) : s.Keeps (t.undoTick b) := by
  unfold State.undoTick
  split
  · exact h
  · exact .ite h (.guardSources (.when (.onBridge (h.wrB.when fun _ h => h.onBg)) fun _ h => h.discardCurrent))

theorem State.Keeps.blockBridge {b : Nat} (h : s.Keeps t) : s.Keeps (t.blockBridge b) := by
  unfold State.blockBridge
  exact .takeBlock (h.undoTick.when fun _ h => h.legsWait)

theorem State.Keeps.blockAll (h : s.Keeps t) : s.Keeps t.blockAll := by
  unfold State.blockAll
  exact h.each fun _ _ _ h => h.blockBridge

theorem State.Keeps.dropManifests (h : s.Keeps t) : s.Keeps t.dropManifests := by
  unfold State.dropManifests
  exact h.each fun _ _ _ h => h.onBridge

theorem State.Keeps.noteConflict {b : Nat} {c : Pnz} (h : s.Keeps t) : s.Keeps (t.noteConflict b c) := by
  unfold State.noteConflict
  exact .guardSources (h.onBridge.when fun _ h => h.sticky.bump)

theorem State.Keeps.clearHold {k : Nat} (h : s.Keeps t) : s.Keeps (t.clearHold k) := by
  unfold State.clearHold
  split
  · exact h
  · exact .ite h h.onLeg.lower

theorem State.Keeps.clearHolds {legs : List Nat} (h : s.Keeps t) : s.Keeps (t.clearHolds legs) := by
  unfold State.clearHolds
  exact .ite (h.each fun _ _ _ h => h.clearHold) h

theorem State.Keeps.bridgeCmd {b : Nat} {c : Pnz} {resume : Bool} {inst : Int} (h : s.Keeps t) : s.Keeps (t.bridgeCmd b c resume inst) := by
  unfold State.bridgeCmd
  extract_lets +onlyGivenNames _ _ t2
  have h2 : s.Keeps t2 := h.keepUndo.noteConflict.when fun _ h => h.clearHolds
  exact .ite h2.takeState (.ite h2.takeState h2.onBridge.takeState)

theorem State.Keeps.noteShoot {k : Nat} {up lo : Bool} (h : s.Keeps t) : s.Keeps (t.noteShoot k up lo) := by
  unfold State.noteShoot
  exact .guardSources (h.onLeg.when fun _ h => h.sticky.bump)

theorem State.Keeps.legCmd {k : Nat} {up lo : Bool} {inst : Int} (h : s.Keeps t) : s.Keeps (t.legCmd k up lo inst) := by
  unfold State.legCmd
  exact .ite (.driveLeg (h.noteShoot.when fun _ h => h.clearHolds)) (.driveLeg (h.noteShoot.when fun _ h => h.clearHolds))

theorem State.Keeps.setBypass {mark : Bool} {inst : Int} (h : s.Keeps t) : s.Keeps (t.setBypass mark inst) := h.onBg

theorem State.Keeps.edge {b : Nat} {e : MEdge} {inst : Int} (h : s.Keeps t) : s.Keeps (t.edge b e inst) := by
  unfold State.edge
  exact .onBridge (.bridgeCmd (h.keepUndo.when fun _ h => h.setBypass))

theorem State.Keeps.unblock (h : s.Keeps t) : s.Keeps t.unblock := by
  unfold State.unblock
  exact h.each fun _ _ _ h => by
      split
      · exact h
      · split
        · exact .ite h h.takeState
        · split
          · exact .ite h.onBridge.takeState h
          · exact h

theorem State.Keeps.followPins (h : s.Keeps t) : s.Keeps t.followPins := by
  unfold State.followPins
  split
  · exact .ite (h.onBg.each fun _ _ _ h => .ite h.takeState h) h
  · exact h

theorem State.Keeps.acceptManifest {b : Nat} {m : Manifest} (h : s.Keeps t) : s.Keeps (t.acceptManifest b m) := by
  unfold State.acceptManifest
  split
  · exact h.makeCurrent
  · exact .onBridge (h.when fun _ h => h.sticky)

/-! #### What the operations of Machine/Cell keep -/

theorem State.Keeps.opEdgeExecute {b : Nat} (h : s.Keeps t) : s.Keeps (opEdgeExecute b t) := by
  unfold Machine.opEdgeExecute
  split
  · exact h.discardCurrent
  · split
    · exact h.onBridge.edge
    · split
      · exact h
      · exact h.onBridge.edge

theorem State.Keeps.opManifestExpiry {b : Nat} (h : s.Keeps t) : s.Keeps (opManifestExpiry b t) := by
  unfold Machine.opManifestExpiry
  split
  · exact h
  · split
    · exact h
    · split
      · exact h.opEdgeExecute
      · dsimp only
        split
        · exact .takeBlock (.onBridge (h.each fun _ _ _ h => h.opEdgeExecute))
        · split
          · exact .onBridge (h.each fun _ _ _ h => h.opEdgeExecute)
          · exact .edge (.onBridge (h.each fun _ _ _ h => h.opEdgeExecute))

theorem State.Keeps.opDeadTimeEnd {k : Nat} (h : s.Keeps t) : s.Keeps (opDeadTimeEnd k t) := h.settle

theorem State.Keeps.opDabB1Edge (h : s.Keeps t) : s.Keeps (opDabB1Edge t) := by
  unfold Machine.opDabB1Edge
  dsimp only
  split
  · exact h
  · exact .onBridge (h.bridgeCmd.when fun _ h => h.onBridge.bridgeCmd)

theorem State.Keeps.opDabB2Edge (h : s.Keeps t) : s.Keeps (opDabB2Edge t) := by
  unfold Machine.opDabB2Edge
  dsimp only
  split
  · exact h
  · exact .ite h h.onBridge.bridgeCmd

theorem State.Keeps.legPiece {k : Nat} {i c0 c1 inc : Int} (h : s.Keeps t) : s.Keeps (t.legPiece k i c0 c1 inc) := by
  unfold State.legPiece
  exact .ite h (.ite h.legCmd (.ite h.legCmd (.ite h.legCmd.legCmd h.legCmd.legCmd)))

theorem State.Keeps.opLegCrossing {k : Nat} (h : s.Keeps t) : s.Keeps (opLegCrossing k t) := by
  unfold Machine.opLegCrossing
  dsimp only
  split
  · exact h.legPiece
  · exact .ite h.legPiece h.legPiece

theorem State.Keeps.opCarrierPeak {k : Nat} (h : s.Keeps t) : s.Keeps (opCarrierPeak k t) := by
  unfold Machine.opCarrierPeak
  split
  · exact h
  · exact .ite h h.opLegCrossing.onLeg.legCmd

theorem State.Keeps.opPinCommand {b : Nat} {p n z : Bool × Nat} (h : s.Keeps t) : s.Keeps (opPinCommand b p n z t) := by
  unfold Machine.opPinCommand
  exact .ite h.onBridge h.onBridge.bridgeCmd

theorem State.Keeps.opBgSrc {value : Word} (h : s.Keeps t) : s.Keeps (opBgSrc value t) := by
  unfold Machine.opBgSrc
  exact h.putCell.each fun _ _ _ h => .ite h h.onBridge.noteShoot.noteShoot.noteConflict.legsWait.takeBlock

/-! #### What the operations of Machine/Guard keep -/

theorem State.Keeps.tripRecord {k cause : Nat} (h : s.Keeps t) : s.Keeps (t.tripRecord k cause) := by
  unfold State.tripRecord
  exact .wrB (.ite (.wr (.wr (.wr (h.when fun _ h => h.wr.onBg)))) h)

theorem State.Keeps.holdLeg {k : Nat} {fall : Int} (h : s.Keeps t) : s.Keeps (t.holdLeg k fall) := by
  unfold State.holdLeg
  exact h.onLeg.when fun _ h => h.raise

theorem State.Keeps.tripLeg {k cause : Nat} (h : s.Keeps t) : s.Keeps (t.tripLeg k cause) := by
  unfold State.tripLeg
  exact .ite h.tripRecord (.raise (.when (.onBridge (.each (h.sticky.bump.tripRecord.onLeg.each fun _ _ _ h => h.holdLeg)
    fun _ _ _ h => h.undoTick.takeBlock)) fun _ h => h.wrB.sticky.raise))

theorem State.Keeps.showSense {k : Nat} {t' : Int} {sense : Nat} (h : s.Keeps t) : s.Keeps (t.showSense k t' sense) := h.wrB.wrB

theorem State.Keeps.opComparators {k : Nat} {senses : List Nat} (h : s.Keeps t) : s.Keeps (opComparators k senses t) := by
  unfold Machine.opComparators
  split
  · exact h
  · exact .ite h.showSense h.showSense.tripLeg

theorem State.Keeps.setSlow {b : Nat} {on : Bool} (h : s.Keeps t) : s.Keeps (t.setSlow b on) := by
  unfold State.setSlow
  exact .wrB (.congr h rfl rfl rfl rfl)

theorem State.Keeps.opSlowHigh {b : Nat} (h : s.Keeps t) : s.Keeps (opSlowHigh b t) := by
  unfold Machine.opSlowHigh
  exact .ite h.onBridge.setSlow h

theorem State.Keeps.opGatesLow {k : Nat} (h : s.Keeps t) : s.Keeps (opGatesLow k t) := by
  unfold Machine.opGatesLow
  split
  · exact h
  · exact .ite h h.onLeg.settleFalls

theorem State.Keeps.opSlowHoldEnd {b : Nat} (h : s.Keeps t) : s.Keeps (opSlowHoldEnd b t) := by
  unfold Machine.opSlowHoldEnd
  exact .ite h.onBridge.setSlow h

theorem State.Keeps.opUnlock {legs : Nat} (h : s.Keeps t) : s.Keeps (opUnlock legs t) := by
  unfold Machine.opUnlock
  exact .when (h.each fun _ _ _ h => .ite h (.ite h.sticky h.wrB.onLeg)) fun _ h => h.lower

theorem State.Keeps.opBgLeg {k : Nat} {old : Word} (h : s.Keeps t) : s.Keeps (opBgLeg k old t) := by
  unfold Machine.opBgLeg
  exact h.onLeg.when fun _ h => h.sticky

theorem State.Keeps.opBgGcfg {old : Nat} (h : s.Keeps t) : s.Keeps (opBgGcfg old t) := by
  unfold Machine.opBgGcfg
  exact .guardSources (h.each fun _ _ _ h => h.when fun _ h => h.onLeg)

theorem State.Keeps.opGuardOff (h : s.Keeps t) : s.Keeps (opGuardOff t) := h.blockAll

theorem State.Keeps.opGuardReset (h : s.Keeps t) : s.Keeps (opGuardReset t) := by
  unfold Machine.opGuardReset
  exact .onDie (.onBg (h.dropManifests.each fun _ _ _ h => h.takeBlock)) (fun _ => rfl) (fun _ => rfl)

/-! #### What the operations of Machine/Measure keep -/

theorem State.Keeps.onMch {d c : Nat} {f : Mch → Mch} (h : s.Keeps t) : s.Keeps (t.onMch d c f) := by
  unfold State.onMch
  exact h.onDie (fun _ => rfl) (fun _ => rfl)

theorem State.Keeps.onSdc {d k : Nat} {f : Sdc → Sdc} (h : s.Keeps t) : s.Keeps (t.onSdc d k f) := by
  unfold State.onSdc
  exact h.onDie (fun _ => rfl) (fun _ => rfl)

theorem State.Keeps.holdCh {d c : Nat} (h : s.Keeps t) : s.Keeps (t.holdCh d c) := by
  unfold State.holdCh
  exact .ite h (h.onDie (fun _ => rfl) (fun _ => rfl))

theorem State.Keeps.chSource {d c : Nat} (h : s.Keeps t) : s.Keeps (t.chSource d c) := h.source

theorem State.Keeps.setLive {d c live : Nat} (h : s.Keeps t) : s.Keeps (t.setLive d c live) := h.wr.wrB.chSource

theorem State.Keeps.setCond {d c n : Nat} {v : Bool} (h : s.Keeps t) : s.Keeps (t.setCond d c n v) := by
  unfold State.setCond
  exact .ite h.setLive.sticky.wr h.setLive

theorem State.Keeps.setSettled {d c : Nat} {v : Bool} (h : s.Keeps t) : s.Keeps (t.setSettled d c v) := h.wrB.wrB

theorem State.Keeps.chStop {d c : Nat} (h : s.Keeps t) : s.Keeps (t.chStop d c) := h.onMch.setSettled.wr.setLive

theorem State.Keeps.stoppedClock {d c : Nat} (h : s.Keeps t) : s.Keeps (t.stoppedClock d c) := by
  unfold State.stoppedClock
  exact h.when fun _ h => h.setCond

theorem State.Keeps.chRestart {d c : Nat} (h : s.Keeps t) : s.Keeps (t.chRestart d c) := by
  unfold State.chRestart
  exact .ite h h.onMch.setSettled.wr.wr.setLive.stoppedClock

theorem State.Keeps.opSdcCfg {d k : Nat} {value : Word} (h : s.Keeps t) : s.Keeps (opSdcCfg d k value t) := by
  unfold Machine.opSdcCfg
  exact .ite h (.ite h.putCell.onSdc (h.putCell.onSdc.each fun _ _ _ h => h.each fun _ _ _ h => h.stoppedClock))

theorem State.Keeps.newGrid {d k : Nat} (h : s.Keeps t) : s.Keeps (t.newGrid d k) := by
  unfold State.newGrid
  split
  · exact h
  · exact .ite h (h.onSdc.each fun _ _ _ h => h.each fun _ _ _ h => h.chRestart)

theorem State.Keeps.mfeStart {d : Nat} (h : s.Keeps t) : s.Keeps (t.mfeStart d) := by
  unfold State.mfeStart
  extract_lets +onlyGivenNames _ _ t2
  have h2 : s.Keeps t2 := .each (h.onDie (fun _ => rfl) (fun _ => rfl)) fun _ _ _ h => h.chSource
  exact .ite h2 (h2.each fun _ _ _ h => h.newGrid)

theorem State.Keeps.opChEn {d : Nat} {value : Word} (h : s.Keeps t) : s.Keeps (opChEn d value t) := by
  unfold Machine.opChEn
  exact .ite h (h.wr.each fun _ _ _ h => .ite h.chRestart (.ite h.chStop h))

theorem State.Keeps.opChWrite {d c : Nat} {write : State → State} (h : s.Keeps t) (hw : ∀ v, s.Keeps v → s.Keeps (write v)) :
    s.Keeps (opChWrite d c write t) := by
  unfold Machine.opChWrite
  exact .when (hw _ h.holdCh) fun _ h => h.chRestart

theorem State.Keeps.opMfeEn {d : Nat} {on : Bool} (h : s.Keeps t) : s.Keeps (opMfeEn d on t) := by
  unfold Machine.opMfeEn
  exact .when (h.each fun _ _ _ h => .ite h.chRestart h.chStop) fun _ h => h.each fun _ _ _ h => .ite h.stoppedClock (h.when
    fun _ h => h.chRestart)

theorem State.Keeps.opMfeReset {d : Nat} (h : s.Keeps t) : s.Keeps (opMfeReset d t) := by
  unfold Machine.opMfeReset
  exact .when (.each (h.onDie (fun _ => rfl) (fun _ => rfl)) fun _ _ _ h => h.lower) fun _ h => h.each fun _ _ _ h => h.stoppedClock

theorem State.Keeps.fastStep {d c : Nat} (h : s.Keeps t) : s.Keeps (t.fastStep d c) := by
  unfold State.fastStep
  dsimp only
  exact .ite h (.ite (.when (.ite (h.wrS.onMch.when fun _ h => h.setCond) h.wrS.onMch.setCond) fun _ h => h.setCond) (.setCond
    (.ite (h.wrS.onMch.when fun _ h => h.setCond) h.wrS.onMch.setCond)))

theorem State.Keeps.takeBit {d c : Nat} {b : Bool} (h : s.Keeps t) : s.Keeps (t.takeBit d c b) := by
  unfold State.takeBit
  exact .when (.when (.ite h.onMch.setCond (.ite h.onMch.setCond h.onMch)) fun _ h => h.fastStep) fun _ h => h.setSettled

theorem State.Keeps.opBits {d c edge : Nat} {bits : List Samples} (h : s.Keeps t) : s.Keeps (opBits d c edge bits t) := by
  unfold Machine.opBits
  exact h.when fun _ h => .onMch (h.each fun _ _ _ h => h.takeBit)

theorem State.Keeps.latchFields {d c : Nat} {y : BitVec 16} (h : s.Keeps t) : s.Keeps (t.latchFields d c y) := by
  unfold State.latchFields
  exact .ite h (h.setNodeField.when fun _ h => h.setNodeField)

theorem State.Keeps.latch {d c : Nat} (h : s.Keeps t) : s.Keeps (t.latch d c) := by
  unfold State.latch
  dsimp only
  split
  · exact h.wr.wr.latchFields
  · split
    · exact h.wr.wr.latchFields.onMch.wr
    · exact .ite (h.wr.wr.latchFields.onMch.bump.when fun _ h => h.setCond) h.wr.wr.latchFields.onMch.wr.setCond

theorem State.Keeps.latchGroups {d : Nat} {groups : List Nat} (h : s.Keeps t) : s.Keeps (t.latchGroups d groups) := by
  unfold State.latchGroups
  exact h.each fun _ _ _ h => h.latch

/-! #### What the operations of Machine/Fabric keep -/

theorem State.Keeps.opResEntry {d i : Nat} {value : Word} (h : s.Keeps t) : s.Keeps (opResEntry d i value t) := by
  unfold Machine.opResEntry
  exact .ite h (.ite h.sticky (.ite h.putCell (.ite h.sticky h.putCell)))

theorem State.Keeps.refuseA {d : Nat} {entry : Option Nat} (h : s.Keeps t) : s.Keeps (t.refuseA d entry) := by
  unfold State.refuseA
  dsimp only
  split
  · exact h.sticky.bump.wr.wr
  · exact h.sticky.bump.wr

theorem State.Keeps.tryShare {d : Nat} {entry : Option Nat} (h : s.Keeps t) : s.Keeps (t.tryShare d entry).2 := by
  unfold State.tryShare
  split
  · exact .snd h.refuseA
  · split
    · exact .snd h.refuseA
    · exact .snd (h.onDie (fun _ => rfl) (fun _ => rfl))

theorem State.Keeps.launch {d port dst cls : Nat} {what : FabPayload} (h : s.Keeps t) : s.Keeps (t.launch d port dst cls what) := by
  unfold State.launch
  exact .congr h rfl rfl rfl rfl

theorem State.Keeps.submitUnder {d port : Nat} {entry : Option Nat} {what : FabPayload} (h : s.Keeps t) :
    s.Keeps (t.submitUnder d port entry what).2 := by
  unfold State.submitUnder
  exact .snd (h.tryShare.when fun _ h => h.launch)

theorem State.Keeps.submitA {d port source : Nat} {what : FabPayload} (h : s.Keeps t) : s.Keeps (t.submitA d port source what).2 := by
  unfold State.submitA
  exact h.submitUnder

theorem State.Keeps.submitTo {d port source dest : Nat} {what : FabPayload} (h : s.Keeps t) :
    s.Keeps (t.submitTo d port source dest what).2 := by
  unfold State.submitTo
  exact h.submitUnder

theorem State.Keeps.endDown {d : Nat} {l : FabLink} (h : s.Keeps t) : s.Keeps (t.endDown d l) := by
  unfold State.endDown
  exact h.wrB.sticky.when fun _ h => h.raise

theorem State.Keeps.opLinkDown {d : Nat} {l : FabLink} (h : s.Keeps t) : s.Keeps (opLinkDown d l t) := by
  unfold Machine.opLinkDown
  split
  · exact h
  · exact h.endDown.endDown

theorem State.Keeps.allLinksDown {d : Nat} (h : s.Keeps t) : s.Keeps (t.allLinksDown d) := by
  unfold State.allLinksDown
  exact h.each fun _ _ _ h => h.opLinkDown

theorem State.Keeps.noteGrant {d g : Nat} {x : FabXfer} (h : s.Keeps t) : s.Keeps (t.noteGrant d g x) := by
  unfold State.noteGrant
  exact h.onDie (fun _ => rfl) (fun _ => rfl)

theorem State.Keeps.gateSlot {d : Nat} {l : FabLink} (h : s.Keeps t) : s.Keeps (t.gateSlot d l) := by
  unfold State.gateSlot
  split
  · exact h
  · split
    · exact h
    · dsimp only
      split
      · exact h
      · exact .noteGrant (.congr h rfl rfl rfl rfl)

theorem State.Keeps.fabricSlot (h : s.Keeps t) : s.Keeps t.fabricSlot := by
  unfold State.fabricSlot
  exact .ite h (h.each fun _ _ _ h => h.each fun _ _ _ h => h.gateSlot)

theorem State.Keeps.resentOver {hop : Nat × Nat} {n : Nat} (h : s.Keeps t) : s.Keeps (t.resentOver hop n) := by
  unfold State.resentOver
  exact h.when fun _ h => h.each fun _ _ _ h => h.sticky.bump

theorem State.Keeps.lostA {d : Nat} (h : s.Keeps t) : s.Keeps (t.lostA d) := h.sticky.pulse

theorem State.Keeps.outcome {x : FabXfer} {how : FabArrival} (h : s.Keeps t) : s.Keeps (t.outcome x how).2 := by
  unfold State.outcome
  dsimp only
  split
  · exact .snd (h.when fun _ h => h.each fun _ _ _ h => h.resentOver)
  · exact .snd h.lostA
  · split
    · exact .snd h
    · exact .snd (by
        split
        · exact .opLinkDown (.resentOver (h.when fun _ h => h.each fun _ _ _ h => h.resentOver))
        · exact .resentOver (h.when fun _ h => h.each fun _ _ _ h => h.resentOver))

theorem State.Keeps.takeArrived {d : Nat} {x : FabXfer} (h : s.Keeps t) : s.Keeps (t.takeArrived d x) := by
  unfold State.takeArrived
  exact .noteGrant (.congr h rfl rfl rfl rfl)

theorem State.Keeps.loseMirror {d i : Nat} (h : s.Keeps t) : s.Keeps (t.loseMirror d i) := by
  unfold State.loseMirror
  split
  · exact h
  · exact .lostA (.congr h rfl rfl rfl rfl)

theorem State.Keeps.opFabEn {d : Nat} {on : Bool} (h : s.Keeps t) : s.Keeps (opFabEn d on t) := by
  unfold Machine.opFabEn
  exact .ite (h.when fun _ h => h.raise) h.lower

theorem State.Keeps.opFabReset {d : Nat} (h : s.Keeps t) : s.Keeps (opFabReset d t) := by
  unfold Machine.opFabReset
  exact h.onDie (fun _ => rfl) (fun _ => rfl)

/-! #### What the operations of Machine/Angle keep -/

theorem State.Keeps.onDom {d i : Nat} {f : Domain → Domain} (h : s.Keeps t) : s.Keeps (t.onDom d i f) := by
  unfold State.onDom
  exact h.onDie (fun _ => rfl) (fun _ => rfl)

theorem State.Keeps.applyDom {d i : Nat} {u' : DomUpd} (h : s.Keeps t) : s.Keeps (t.applyDom d i u') := h.onDom

theorem State.Keeps.submitDom {i : Nat} {u' : DomUpd} {ts : Nat} (h : s.Keeps t) : s.Keeps (t.submitDom i u' ts) := by
  unfold State.submitDom
  exact .ite h.onDom (.congr h.onDom rfl rfl rfl rfl)

theorem State.Keeps.changeDom {i : Nat} {u' : DomUpd} {ts : Nat} (h : s.Keeps t) : s.Keeps (t.changeDom i u' ts) := by
  unfold State.changeDom
  exact .ite h.submitDom (.ite (.congr h rfl rfl rfl rfl) h.applyDom)

theorem State.Keeps.nodeChanges (h : s.Keeps t) : s.Keeps t.nodeChanges := by
  unfold State.nodeChanges
  exact .each (.congr h rfl rfl rfl rfl) fun _ _ _ h => h.applyDom

theorem State.Keeps.opDomainChange {d i : Nat} {reg : AdReg} {value : Word} (h : s.Keeps t) : s.Keeps (opDomainChange d i reg value t) := by
  unfold Machine.opDomainChange
  exact .ite h (.when (h.putCell.when fun _ h => h.onDie (fun _ => rfl) (fun _ => rfl)) fun _ h => h.changeDom)

theorem State.Keeps.mirrorSkew {k : Nat} (h : s.Keeps t) : s.Keeps (t.mirrorSkew k) := h.sticky.pulse

theorem State.Keeps.submitWall {n : Nat} {u' : DomUpd} {ts : Nat} (h : s.Keeps t) : s.Keeps (t.submitWall n u' ts) := by
  unfold State.submitWall
  exact .ite (.congr h rfl rfl rfl rfl) (.congr h rfl rfl rfl rfl)

theorem State.Keeps.applyWall {n : Nat} {u' : DomUpd} {lost : List Nat} (h : s.Keeps t) : s.Keeps (t.applyWall n u' lost) := by
  unfold State.applyWall
  extract_lets +onlyGivenNames _ _ _ t2
  have h2 : s.Keeps t2 := .each (.congr h rfl rfl rfl rfl) fun _ _ _ h => .when (h.onDie (fun _ => rfl) (fun _ => rfl))
    fun _ h => h.mirrorSkew
  split
  · exact h2.submitWall
  · exact h2

theorem State.Keeps.opMirrorRecord {i : Nat} (h : s.Keeps t) : s.Keeps (opMirrorRecord i t) := by
  unfold Machine.opMirrorRecord
  split
  · exact h
  · dsimp only
    split
    · exact .applyWall (.congr h rfl rfl rfl rfl)
    · split
      · exact .submitDom (.onDom (.each (.applyDom (.congr h rfl rfl rfl rfl)) fun _ _ _ h => h.onDom.when fun _ h => h.mirrorSkew))
      · exact .each (.applyDom (.congr h rfl rfl rfl rfl)) fun _ _ _ h => h.onDom.when fun _ h => h.mirrorSkew

theorem State.Keeps.putMs {d i w v : Nat} (h : s.Keeps t) : s.Keeps (t.putMs d i w v) := h.putCell

theorem State.Keeps.setArmed {d i : Nat} {b : Bool} (h : s.Keeps t) : s.Keeps (t.setArmed d i b) := h.putCell

theorem State.Keeps.putCompare {d i : Nat} {c : Int} (h : s.Keeps t) : s.Keeps (t.putCompare d i c) := by
  unfold State.putCompare
  exact h.putMs.putMs.putMs

theorem State.Keeps.setOrigin {d i : Nat} {c : Int} {j : Nat} (h : s.Keeps t) : s.Keeps (t.setOrigin d i c j) := by
  unfold State.setOrigin
  exact h.onDie (fun _ => rfl) (fun _ => rfl)

theorem State.Keeps.strictMiss {d i : Nat} (h : s.Keeps t) : s.Keeps (t.strictMiss d i) := by
  unfold State.strictMiss
  exact h.when fun _ h => h.sticky.pulse

theorem State.Keeps.moveOn {d i : Nat} {p : Int} (h : s.Keeps t) : s.Keeps (t.moveOn d i p).2 := by
  unfold State.moveOn
  exact .snd h.putCompare.setOrigin

theorem State.Keeps.dropLate {d i : Nat} {p : Int} (h : s.Keeps t) : s.Keeps (t.dropLate d i p) := by
  unfold State.dropLate
  exact .ite h.sticky.wr.strictMiss.bump.setArmed h.sticky.wr.strictMiss.moveOn.bump

theorem State.Keeps.fireLate {d i : Nat} {p : Int} (h : s.Keeps t) : s.Keeps (t.fireLate d i p) := by
  unfold State.fireLate
  exact .when (h.onDie (fun _ => rfl) (fun _ => rfl)) fun _ h => h.sticky.wr.bump.strictMiss.setOrigin

theorem State.Keeps.examine {d i : Nat} (h : s.Keeps t) : s.Keeps (t.examine d i) := by
  unfold State.examine
  exact .ite h (.ite h (.ite h.fireLate h.dropLate))

theorem State.Keeps.resolveEntry {d i : Nat} (h : s.Keeps t) : s.Keeps (t.resolveEntry d i) := by
  unfold State.resolveEntry
  exact h.when fun _ h => h.putCompare.setOrigin

theorem State.Keeps.armEntry {d i : Nat} (h : s.Keeps t) : s.Keeps (t.armEntry d i) := by
  unfold State.armEntry
  exact .examine (.setOrigin (h.setArmed.when fun _ h => h.putCompare))

theorem State.Keeps.msApply {d i : Nat} {o : MsOp} (h : s.Keeps t) : s.Keeps (t.msApply d i o) := by
  unfold State.msApply
  split
  · exact .armEntry (h.each fun _ _ _ h => h.putCell)
  · exact h.setArmed
  · exact .ite h h.armEntry

theorem State.Keeps.msStart {d : Nat} (h : s.Keeps t) : s.Keeps (t.msStart d) := by
  unfold State.msStart
  exact .when (.each (h.onDie (fun _ => rfl) (fun _ => rfl)) fun _ _ _ h => h.msApply) fun _ h => h.each
    fun _ _ _ h => h.resolveEntry.examine

theorem State.Keeps.opMsArm {d i : Nat} {o : MsOp} (h : s.Keeps t) : s.Keeps (opMsArm d i o t) := by
  unfold Machine.opMsArm
  exact h.onDie (fun _ => rfl) (fun _ => rfl)

theorem State.Keeps.fired {d i : Nat} (h : s.Keeps t) : s.Keeps (t.fired d i) := by
  unfold State.fired
  extract_lets +onlyGivenNames _ t2
  have h2 : s.Keeps t2 := h.putMs.onDie (fun _ => rfl) (fun _ => rfl)
  exact .ite h2.setArmed (.ite h2.moveOn h2.moveOn.sticky.wr.bump.strictMiss)

theorem State.Keeps.msPin {d arg : Nat} (h : s.Keeps t) : s.Keeps (t.msPin d arg) := by
  unfold State.msPin
  exact .ite h (.congr h rfl rfl rfl rfl)

theorem State.Keeps.opSnapSel {d domain : Nat} (h : s.Keeps t) : s.Keeps (opSnapSel d domain t) := by
  unfold Machine.opSnapSel
  exact .ite h.wr.wr.wr.wr.wr.wr.wr (.ite h.wr.wr.wr.wr.wr.wr.wr (.ite h.wr.wr.wr.wr.wr.wr.wr h.wr.wr))

theorem State.Keeps.opAngReset {d : Nat} (h : s.Keeps t) : s.Keeps (opAngReset d t) := by
  unfold Machine.opAngReset
  extract_lets +onlyGivenNames _ t2
  have h2 : s.Keeps t2 := h.dropCells.onDie (fun _ => rfl) (fun _ => rfl)
  exact .ite h2 (h2.each fun _ _ _ h => h.changeDom)

/-! #### What the operations of Machine/Tracker keep -/

theorem State.Keeps.onTrk {d c : Nat} {f : Trk → Trk} (h : s.Keeps t) : s.Keeps (t.onTrk d c f) := by
  unfold State.onTrk
  exact h.onDie (fun _ => rfl) (fun _ => rfl)

theorem State.Keeps.standStill {d c : Nat} (h : s.Keeps t) : s.Keeps (t.standStill d c) := by
  unfold State.standStill
  exact h.onTrk.wrB.wr.wr

theorem State.Keeps.transition {d c : Nat} {back : Bool} (h : s.Keeps t) : s.Keeps (t.transition d c back) := by
  unfold State.transition
  exact .wrB (.wrB (.onTrk (h.when fun _ h => h.standStill)))

theorem State.Keeps.illegalStep {d c : Nat} (h : s.Keeps t) : s.Keeps (t.illegalStep d c) := h.bump.sticky

theorem State.Keeps.opQuadTransition {d c : Nat} {qa qb : Bool} (h : s.Keeps t) : s.Keeps (opQuadTransition d c qa qb t) := by
  unfold Machine.opQuadTransition
  exact .ite h.onTrk (.ite h.onTrk.onTrk h.onTrk.onTrk.transition)

theorem State.Keeps.goodSincos {d c : Nat} (h : s.Keeps t) : s.Keeps (t.goodSincos d c) := by
  unfold State.goodSincos
  exact .onTrk (h.when fun _ h => h.transition)

theorem State.Keeps.goodCount {d c m : Nat} (h : s.Keeps t) : s.Keeps (t.goodCount d c m) := by
  unfold State.goodCount
  exact h.onTrk

theorem State.Keeps.enterWindow {d c : Nat} {ts : Int} (h : s.Keeps t) : s.Keeps (t.enterWindow d c ts) := by
  unfold State.enterWindow
  exact h.onTrk

theorem State.Keeps.goodGrid {d c dt : Nat} (h : s.Keeps t) : s.Keeps (t.goodGrid d c dt) := by
  unfold State.goodGrid
  exact .ite h.onTrk (h.onTrk.when fun _ h => h.wrB)

theorem State.Keeps.setLoss {d c : Nat} (h : s.Keeps t) : s.Keeps (t.setLoss d c) := by
  unfold State.setLoss
  exact .ite h h.wrB.sticky

theorem State.Keeps.lossSource {d c : Nat} (h : s.Keeps t) : s.Keeps (t.lossSource d c) := h.source

theorem State.Keeps.trkDue {d c : Nat} (h : s.Keeps t) : s.Keeps (t.trkDue d c) := by
  unfold State.trkDue
  exact .lossSource (.when (.when (h.when fun _ h => h.setLoss) fun _ h => h.wrB) fun _ h => h.standStill)

theorem State.Keeps.countUpdate {d c : Nat} {ts : Int} (h : s.Keeps t) : s.Keeps (t.countUpdate d c ts) := by
  unfold State.countUpdate
  exact .ite h.onTrk (.ite h.onTrk (h.onTrk.each fun _ _ _ h => h.changeDom))

theorem State.Keeps.trkRestart {d c : Nat} (h : s.Keeps t) : s.Keeps (t.trkRestart d c) := by
  unfold State.trkRestart
  exact h.onTrk.wr.wr.wr

theorem State.Keeps.opRestart {d c : Nat} (h : s.Keeps t) : s.Keeps (opRestart d c t) := h.onTrk

theorem State.Keeps.opAtrEn {d : Nat} {on : Bool} (h : s.Keeps t) : s.Keeps (opAtrEn d on t) := by
  unfold Machine.opAtrEn
  exact h.each fun _ _ _ h => .ite h.opRestart h.onTrk.lower

theorem State.Keeps.opAtrReset {d : Nat} (h : s.Keeps t) : s.Keeps (opAtrReset d t) := by
  unfold Machine.opAtrReset
  exact .each (h.onDie (fun _ => rfl) (fun _ => rfl)) fun _ _ _ h => h.lower

theorem State.Keeps.showSample {d c : Nat} {ts speed : Int} {mag : Nat} (h : s.Keeps t) : s.Keeps (t.showSample d c ts speed mag) := by
  unfold State.showSample
  exact h.wr.wr.wr.wr.wr.wr.wr.wr

theorem State.Keeps.badSample {d c : Nat} {j : Judged} {dt : Nat} (h : s.Keeps t) : s.Keeps (t.badSample d c j dt) := by
  unfold State.badSample
  exact .ite (.when (.wrB (.wrB (.onTrk (h.when fun _ h => h.illegalStep)))) fun _ h => h.sticky) (.when (.onTrk (h.when
    fun _ h => h.illegalStep)) fun _ h => h.setLoss)

theorem State.Keeps.goodSample {d c : Nat} {ts : Int} {dt : Nat} (h : s.Keeps t) : s.Keeps (t.goodSample d c ts dt) := by
  unfold State.goodSample
  dsimp only
  split
  · exact h.onTrk.goodGrid.onTrk.when fun _ h => h.wrB.wrB
  · exact .onTrk (.enterWindow (.ite h.onTrk.goodSincos h.onTrk.goodCount))

theorem State.Keeps.takeWords {d c : Nat} (h : s.Keeps t) : s.Keeps (t.takeWords d c).2 := by
  unfold State.takeWords
  exact .snd (h.onTrk.when fun _ h => h.trkRestart)

theorem State.Keeps.sampleNow {d c dt : Nat} (h : s.Keeps t) : s.Keeps (t.sampleNow d c dt).2 := by
  unfold State.sampleNow
  exact .snd (.trkDue (.showSample (.when (.onTrk (.ite h.goodSample h.badSample)) fun _ h => h.standStill)))

theorem State.Keeps.opTrackerSample {d c : Nat} (h : s.Keeps t) : s.Keeps (opTrackerSample d c t) := by
  unfold Machine.opTrackerSample
  exact .ite h.takeWords.onTrk.lossSource (.when (h.takeWords.sampleNow.when fun _ h => h.each fun _ _ _ h => h.changeDom)
    fun _ h => h.countUpdate)

/-! #### What the operations of Machine/Operands keep -/

theorem State.Keeps.onInst {d e i : Nat} {f : Inst → Inst} (h : s.Keeps t) : s.Keeps (t.onInst d e i f) := by
  unfold State.onInst
  exact h.onDie (fun _ => rfl) (fun _ => rfl)

theorem State.Keeps.putState {d : Nat} {x : Inst} {off : Nat} {v : BitVec 16} (h : s.Keeps t) : s.Keeps (t.putState d x off v) :=
  h.putCell

/-! #### What the operations of Machine/Recorder keep -/

/-- A change of the recorder beside its DRAM. -/
theorem State.Keeps.onRec {d : Nat} {f : Rec → Rec} (h : s.Keeps t) (hf : ∀ r, (f r).dram = r.dram) : s.Keeps (t.onRec d f) :=
  h.onDie (fun _ => rfl) (fun _ => hf _)

theorem State.Keeps.lineRead {d line : Nat} {first second : Bool} (h : s.Keeps t) : s.Keeps (t.lineRead d line first second).2 := by
  unfold State.lineRead
  dsimp only
  split
  · exact .snd h
  · split
    · exact .snd h.bump
    · exact .snd h.bump.wr.sticky

theorem State.Keeps.opPart {d i : Nat} {value : Word} (h : s.Keeps t) : s.Keeps (opPart d i value t) := by
  unfold Machine.opPart
  exact .ite h (.ite h.sticky h.putCell)

theorem State.Keeps.winStep {d i : Nat} (h : s.Keeps t) : s.Keeps (t.winStep d i) := by
  unfold State.winStep
  exact h.when fun _ h => h.wr

theorem State.Keeps.opWinRead {d i : Nat} {first second : Bool} (h : s.Keeps t) : s.Keeps (opWinRead d i first second t).2 := by
  unfold Machine.opWinRead
  dsimp only
  split
  · exact .snd h.sticky
  · split
    · exact .snd h.winStep
    · split
      · exact .snd h.lineRead.winStep
      · exact .snd (.congr h.lineRead.winStep rfl rfl rfl rfl)

theorem State.Keeps.opWinWrite {d i : Nat} {value : Word} {first second : Bool} (h : s.Keeps t) :
    s.Keeps (opWinWrite d i value first second t) := by
  unfold Machine.opWinWrite
  exact .ite h.sticky (.winStep (.dramWrite (.ite h.lineRead h.lineRead.dramWrite)))

theorem State.Keeps.setL {d v : Nat} (h : s.Keeps t) : s.Keeps (t.setL d v) := h.wr

theorem State.Keeps.beginPage {d grid : Nat} (h : s.Keeps t) : s.Keeps (t.beginPage d grid) := by
  unfold State.beginPage
  exact h.dramWrite.onRec (fun _ => rfl)

theorem State.Keeps.ledgerStore {d type src grid : Nat} {words : List (BitVec 16)} (h : s.Keeps t) :
    s.Keeps (t.ledgerStore d type src grid words) := by
  unfold State.ledgerStore
  exact .ite h (.onRec (.when (.dramWrite (.ite h.beginPage h)) fun _ h => h.dramWrite) (fun _ => rfl))

theorem State.Keeps.markThrottled {d : Nat} (h : s.Keeps t) : s.Keeps (t.markThrottled d) := by
  unfold State.markThrottled
  exact h.when fun _ h => h.dramWrite

theorem State.Keeps.ledgerMark {d : Nat} {code : BitVec 16} (h : s.Keeps t) : s.Keeps (t.ledgerMark d code) := h.ledgerStore

theorem State.Keeps.ledgerTrig {d c : Nat} (h : s.Keeps t) : s.Keeps (t.ledgerTrig d c) := by
  unfold State.ledgerTrig
  exact .ite h.setL.wr.wr.wr.sticky h.sticky

theorem State.Keeps.rearmDie {d : Nat} (h : s.Keeps t) : s.Keeps (t.rearmDie d) := by
  unfold State.rearmDie
  exact .ite (h.setL.onRec (fun _ => rfl)) h.sticky

theorem State.Keeps.applyRearm (h : s.Keeps t) : s.Keeps t.applyRearm := by
  unfold State.applyRearm
  split
  · exact h
  · exact .ite h (.each (.congr h rfl rfl rfl rfl) fun _ _ _ h => h.when fun _ h => h.rearmDie)

theorem State.Keeps.reactTrig {d c : Nat} (h : s.Keeps t) : s.Keeps (t.reactTrig d c) := by
  unfold State.reactTrig
  exact .ite h.wr.sticky h.ledgerTrig

theorem State.Keeps.opLedgerTrigger (h : s.Keeps t) : s.Keeps (opLedgerTrigger t) := by
  unfold Machine.opLedgerTrigger
  split
  · exact h
  · exact .ite h (.each (.congr h.applyRearm rfl rfl rfl rfl) fun _ _ _ h => h.when fun _ h => h.ledgerTrig)

theorem State.Keeps.opTrig {c : Nat} (h : s.Keeps t) : s.Keeps (opTrig c t) := by
  unfold Machine.opTrig
  exact .congr h rfl rfl rfl rfl

theorem State.Keeps.opRearm (h : s.Keeps t) : s.Keeps (opRearm t) := by
  unfold Machine.opRearm
  exact .congr h rfl rfl rfl rfl

theorem State.Keeps.opLedgerEn {d : Nat} {on : Bool} (h : s.Keeps t) : s.Keeps (opLedgerEn d on t) := by
  unfold Machine.opLedgerEn
  extract_lets +onlyGivenNames t1
  have h1 : s.Keeps t1 := h.wrB
  exact .ite h1 (.ite (.ite (h1.setL.onRec (fun _ => rfl)) h1) (.ite h1.setL h1))

theorem State.Keeps.opLedgerSeal {d : Nat} (h : s.Keeps t) : s.Keeps (opLedgerSeal d t) := by
  unfold Machine.opLedgerSeal
  exact .ite h (h.setL.wr.wr.sticky.when fun _ h => h.sticky)

theorem State.Keeps.endLedger (h : s.Keeps t) : s.Keeps t.endLedger := by
  unfold State.endLedger
  exact .ite h (.each (h.each fun _ _ _ h => h.opLedgerTrigger) fun _ _ _ h => h.when fun _ h => h.opLedgerSeal)

theorem State.Keeps.streamWord {d w : Nat} (h : s.Keeps t) : s.Keeps (t.streamWord d w).2 := by
  unfold State.streamWord
  dsimp only
  split
  · split
    · exact .snd h
    · exact .snd h.freeW
  · exact .snd h
  · exact .snd h
  · exact .snd h

theorem State.Keeps.streamWords {d : Nat} (h : s.Keeps t) : s.Keeps (t.streamWords d).2 :=
  .foldl (p := Prod.snd) h fun _ _ h => h.streamWord

theorem State.Keeps.closeFill (h : s.Keeps t) : s.Keeps t.closeFill := by
  unfold State.closeFill
  exact h.onRec (fun _ => rfl)

theorem State.Keeps.loseRecord (h : s.Keeps t) : s.Keeps t.loseRecord := by
  unfold State.loseRecord
  exact h.bump.sticky.onRec (fun _ => rfl)

theorem State.Keeps.nodeRecord {words : List (BitVec 16)} (h : s.Keeps t) : s.Keeps (t.nodeRecord words) := by
  unfold State.nodeRecord
  exact .ite h.loseRecord (.ite (.loseRecord (h.when fun _ h => h.closeFill)) (.when (.onRec (h.when fun _ h => h.closeFill)
    (fun _ => rfl)) fun _ h => h.closeFill))

theorem State.Keeps.opStreamRecord {d : Nat} (h : s.Keeps t) : s.Keeps (opStreamRecord d t) := by
  unfold Machine.opStreamRecord
  exact .ite h.bump.sticky (.ite h.streamWords.ledgerStore h.streamWords.nodeRecord)

theorem State.Keeps.storeCapture {d n : Nat} {p : List Byte} (h : s.Keeps t) : s.Keeps (t.storeCapture d n p) := by
  unfold State.storeCapture
  exact .each (h.when fun _ h => h.ledgerStore) fun _ _ _ h => .ite h.bump.sticky h.ledgerStore

theorem State.Keeps.dramLost {d : Nat} (h : s.Keeps t) : s.Keeps (t.dramLost d) :=
  h.sticky.setL.wrB.onDieDram (fun _ => rfl) fun _ => ⟨List.Pairwise.nil, fun _ he => absurd he List.not_mem_nil⟩

theorem State.Keeps.opRecReset {d : Nat} (h : s.Keeps t) : s.Keeps (opRecReset d t) := by
  unfold Machine.opRecReset
  exact h.onRec (fun _ => rfl)

/-! #### What the operations of Machine/Loop keep -/

theorem State.Keeps.onSlot {d sl : Nat} {f : Slot → Slot} (h : s.Keeps t) : s.Keeps (t.onSlot d sl f) := by
  unfold State.onSlot
  exact h.onDie (fun _ => rfl) (fun _ => rfl)

theorem State.Keeps.setCondition {d sl c : Nat} (h : s.Keeps t) : s.Keeps (t.setCondition d sl c) := h.wr

theorem State.Keeps.missTick {d sl : Nat} (h : s.Keeps t) : s.Keeps (t.missTick d sl) := by
  unfold State.missTick
  exact h.bump.bump.bump.wr.sticky.when fun _ h => h.wr.sticky.pulse

theorem State.Keeps.judgeTick {d sl : Nat} (h : s.Keeps t) : s.Keeps (t.judgeTick d sl) := by
  unfold State.judgeTick
  exact .ite h.setCondition.wr.onSlot h.missTick

theorem State.Keeps.throttleTick {d sl : Nat} (h : s.Keeps t) : s.Keeps (t.throttleTick d sl) := by
  unfold State.throttleTick
  exact .ite (.ite h.onSlot.bump h.onSlot.judgeTick) h.onSlot.judgeTick

theorem State.Keeps.tickSlot {fuel d sl : Nat} (h : s.Keeps t) : s.Keeps (t.tickSlot fuel d sl) := by
  induction fuel generalizing t d sl with
  | zero => exact h
  | succ fuel ih =>
    unfold State.tickSlot
    exact .ite h (h.onSlot.throttleTick.each fun _ _ _ h => .ite (ih h.onSlot) h.onSlot)

theorem State.Keeps.spPend {d sl w rank : Nat} {v : BitVec 16} (h : s.Keeps t) : s.Keeps (t.spPend d sl w rank v) := h.onSlot

theorem State.Keeps.setActive {d sl w : Nat} {v : BitVec 16} (h : s.Keeps t) : s.Keeps (t.setActive d sl w v) := h.wr

theorem State.Keeps.onSp {d sl w : Nat} {f : SpWord → SpWord} (h : s.Keeps t) : s.Keeps (t.onSp d sl w f) :=
  h.onSlot

theorem State.Keeps.boundary {d sl : Nat} (h : s.Keeps t) : s.Keeps (t.boundary d sl) := by
  unfold State.boundary
  exact h.each fun _ _ _ h => by
      dsimp only
      split
      · exact h.setActive.onSp
      · exact .ite h.setActive.onSp h

theorem State.Keeps.swapSet {d sl : Nat} (h : s.Keeps t) : s.Keeps (t.swapSet d sl) := by
  unfold State.swapSet
  exact h.each fun _ _ _ h => h.setActive.onSp

theorem State.Keeps.opSps {d sl : Nat} {hi : Bool} {value : Word} (h : s.Keeps t) : s.Keeps (opSps d sl hi value t) := by
  unfold Machine.opSps
  exact h.wr.spPend.spPend

theorem State.Keeps.opSpWord {d sl w : Nat} {v : BitVec 16} (h : s.Keeps t) : s.Keeps (opSpWord d sl w v t) := by
  unfold Machine.opSpWord
  exact h.wr.spPend

theorem State.Keeps.opSlotEn {d : Nat} {hi : Bool} {value : Word} (h : s.Keeps t) : s.Keeps (opSlotEn d hi value t) := h.wr

theorem State.Keeps.leStart {d : Nat} (h : s.Keeps t) : s.Keeps (t.leStart d) := by
  unfold State.leStart
  exact .ite h (.each (h.onDie (fun _ => rfl) (fun _ => rfl)) fun _ _ _ h => .ite h.onSlot (.ite h.setCondition h))

theorem State.Keeps.opSlotCasc {d sl : Nat} {value : Word} (h : s.Keeps t) : s.Keeps (opSlotCasc d sl value t) := h.wr.onSlot

theorem State.Keeps.grant {d e i sl : Nat} (h : s.Keeps t) : s.Keeps (t.grant d e i sl) := by
  unfold State.grant
  exact h.setCondition.wr.boundary.onInst

theorem State.Keeps.onBist {d : Nat} {f : Bist → Bist} (h : s.Keeps t) : s.Keeps (t.onBist d f) := by
  unfold State.onBist
  exact h.onDie (fun _ => rfl) (fun _ => rfl)

theorem State.Keeps.showTest {d e i issues : Nat} {sig : Word} (h : s.Keeps t) : s.Keeps (t.showTest d e i issues sig) := by
  unfold State.showTest
  exact h.onInst.wrB.wr.wr.wr.wr.wrB

theorem State.Keeps.endTest {d issues : Nat} {sig : Word} (h : s.Keeps t) : s.Keeps (t.endTest d issues sig) := by
  unfold State.endTest
  split
  · exact h
  · exact .ite h.showTest.onBist.sticky (.ite (h.showTest.onBist.wrB.onBist.when fun _ h => h.lower)
      (h.showTest.onBist.wrB.sticky.onBist.when fun _ h => h.raise))

theorem State.Keeps.cutTest {d : Nat} (h : s.Keeps t) : s.Keeps (t.cutTest d) := by
  unfold State.cutTest
  exact .ite h h.freeW.endTest

theorem State.Keeps.opEngineYield {d : Nat} (h : s.Keeps t) : s.Keeps (opEngineYield d t) := by
  unfold Machine.opEngineYield
  exact h.when fun _ h => h.cutTest

theorem State.Keeps.startSlot {d sl : Nat} (h : s.Keeps t) : s.Keeps (t.startSlot d sl) := by
  unfold State.startSlot
  exact .ite h (.ite h.tickSlot.opEngineYield h.sticky)

theorem State.Keeps.leStop {d : Nat} (h : s.Keeps t) : s.Keeps (t.leStop d) := by
  unfold State.leStop
  exact .each (h.onDie (fun _ => rfl) (fun _ => rfl)) fun _ _ _ h => h.when fun _ h => h.setCondition

theorem State.Keeps.opLeReset {d : Nat} (h : s.Keeps t) : s.Keeps (opLeReset d t) := by
  unfold Machine.opLeReset
  exact h.onDie (fun _ => rfl) (fun _ => rfl)

/-! #### What the operations of Machine/SecImage keep -/

theorem State.Keeps.onSec {d : Nat} {f : Sec → Sec} (h : s.Keeps t) : s.Keeps (t.onSec d f) := by
  unfold State.onSec
  exact h.onDie (fun _ => rfl) (fun _ => rfl)

theorem State.Keeps.imgPut {d : Nat} {x : ImgDest} {w : Word} (h : s.Keeps t) : s.Keeps (t.imgPut d x w) := by
  unfold State.imgPut
  split
  · exact h.putCell
  · exact h.when fun _ h => h.dramWrite
  · exact h

theorem State.Keeps.imgZero {d : Nat} (h : s.Keeps t) : s.Keeps (t.imgZero d) := by
  unfold State.imgZero
  dsimp only
  exact h.each fun _ _ _ h => by
      split
      · exact h.putCell
      · exact h.when fun _ h => h.dramWrite
      · exact h

theorem State.Keeps.imgEnd {d result : Nat} (h : s.Keeps t) : s.Keeps (t.imgEnd d result) := by
  unfold State.imgEnd
  exact .when (.onSec (.sticky (.wr (.wr (h.when fun _ h => h.imgZero))))) fun _ h => h.onDie (fun _ => rfl) (fun _ => rfl)

theorem State.Keeps.opImgStart {d type : Nat} (h : s.Keeps t) : s.Keeps (opImgStart d type t) := by
  unfold Machine.opImgStart
  split
  · exact h.sticky
  · extract_lets +onlyGivenNames _ t2
    have h2 : s.Keeps t2 := .onSec (.wr (.wr (h.when fun _ h => h.imgEnd)))
    exact .ite h2.wr h2.imgEnd

theorem State.Keeps.opImgAbort {d : Nat} (h : s.Keeps t) : s.Keeps (opImgAbort d t) := by
  unfold Machine.opImgAbort
  exact .ite h.imgEnd h

/-! #### What the operations of Machine/Device keep -/

theorem State.Keeps.reportState (h : s.Keeps t) : s.Keeps t.reportState := by
  unfold State.reportState
  exact .ite h h.setNodeField

theorem State.Keeps.setPermit (h : s.Keeps t) : s.Keeps t.setPermit := by
  unfold State.setPermit
  exact .congr h rfl rfl rfl rfl

theorem State.Keeps.emptyLocal {d : Nat} (h : s.Keeps t) : s.Keeps (t.emptyLocal d) := h.wr.wr.wr

theorem State.Keeps.emptyPackage {d : Nat} (h : s.Keeps t) : s.Keeps (t.emptyPackage d) := h.wr.wr.wr

theorem State.Keeps.nimgEnd {d cause : Nat} (h : s.Keeps t) : s.Keeps (t.nimgEnd d cause) := by
  unfold State.nimgEnd
  exact .ite h (.wrB (.wr (.onDie (h.each fun _ _ _ h => h.wrB.wr.wr) (fun _ => rfl) (fun _ => rfl))))

theorem State.Keeps.onSaf {ch : Nat} {f : Saf → Saf} (h : s.Keeps t) : s.Keeps (t.onSaf ch f) := by
  unfold State.onSaf
  exact h.onDie (fun _ => rfl) (fun _ => rfl)

theorem State.Keeps.safetyOff (h : s.Keeps t) : s.Keeps t.safetyOff := by
  unfold State.safetyOff
  exact .each (.congr h rfl rfl rfl rfl) fun _ _ _ h => h.wr.onSaf

theorem State.Keeps.safetyStart {ch : Nat} (h : s.Keeps t) : s.Keeps (t.safetyStart ch) := by
  unfold State.safetyStart
  exact .onSaf (h.wr.wr.each fun _ _ _ h => h.wr.wr)

theorem State.Keeps.safetyTrip (h : s.Keeps t) : s.Keeps t.safetyTrip := by
  unfold State.safetyTrip
  exact h.each fun _ _ _ h => h.source

theorem State.Keeps.enter {new : DevState} (h : s.Keeps t) : s.Keeps (t.enter new) := by
  unfold State.enter
  extract_lets +onlyGivenNames _ t1 _ _ _ _ t6 t7 t8
  have h1 : s.Keeps t1 := .congr h rfl rfl rfl rfl
  have h6 : s.Keeps t6 := .when (.safetyTrip (.when (.when h1.sticky fun _ h => h.safetyOff) fun _ h => h.each
    fun _ _ _ h => h.safetyStart)) fun _ h => h.each fun _ _ _ h => h.nimgEnd.when fun _ h => h.imgEnd
  have h7 : s.Keeps t7 := h6.when fun _ h => h.emptyLocal.emptyPackage
  have h8 : s.Keeps t8 := .ite (h6.each fun _ _ _ h => h.onDie (fun _ => rfl) (fun _ => rfl)) (.ite h7.unblock h7.blockAll)
  exact h8.setPermit.reportState

theorem State.Keeps.lockOutDevice (h : s.Keeps t) : s.Keeps t.lockOutDevice := by
  unfold State.lockOutDevice
  split
  · split
    · exact h.setPermit
    · extract_lets +onlyGivenNames t1
      have h1 : s.Keeps t1 := h.each fun _ _ _ h => h.onDie (fun _ => rfl) (fun _ => rfl)
      have h2 : s.Keeps (t1.enter .lockout) := h1.enter
      generalize t1.enter .lockout = t2 at h2 ⊢
      exact h2.congr rfl rfl rfl rfl
  · exact h.enter

/-! #### What the operations of Machine/Fault keep -/

theorem State.Keeps.overflow {d n : Nat} (h : s.Keeps t) : s.Keeps (t.overflow d n) := by
  unfold State.overflow
  exact .ite h h.wrB.bump.sticky

theorem State.Keeps.writeRecord {d : Nat} {src lo hi : Fld} {r : Record} (h : s.Keeps t) : s.Keeps (t.writeRecord d src lo hi r) :=
  h.wr.wr.wr

theorem State.Keeps.nodeLatch {arrived : List (Nat × Nat)} (h : s.Keeps t) : s.Keeps (t.nodeLatch arrived) := by
  unfold State.nodeLatch
  extract_lets +onlyGivenNames _ _ t3
  have h3 : s.Keeps t3 := .when (h.dropManifests.blockAll.when fun _ h => h.onDie (fun _ => rfl) (fun _ => rfl))
    fun _ h => h.onRec (fun _ => rfl)
  exact .ite h3.reportState.lockOutDevice h3.reportState.setPermit

theorem State.Keeps.reportLate {arrived : List (Nat × Nat)} (h : s.Keeps t) : s.Keeps (t.reportLate arrived) := by
  unfold State.reportLate
  exact h.when fun _ h => h.onDie (fun _ => rfl) (fun _ => rfl)

theorem State.Keeps.opLocalLatch {d : Nat} (h : s.Keeps t) : s.Keeps (opLocalLatch d t) := by
  unfold Machine.opLocalLatch
  extract_lets +onlyGivenNames _ t1
  have h1 : s.Keeps t1 := h.onDie (fun _ => rfl) (fun _ => rfl)
  split
  · exact h1
  · exact .ite (.ite (.congr h1.writeRecord.overflow rfl rfl rfl rfl) h1.writeRecord.overflow.writeRecord.reportLate)
      (.ite h1.overflow.reportLate (.ite
      (.congr h1.writeRecord.bump.sticky.overflow rfl rfl rfl rfl) h1.writeRecord.bump.sticky.overflow.writeRecord.nodeLatch))

theorem State.Keeps.wantBlock {d code ticks : Nat} (h : s.Keeps t) : s.Keeps (t.wantBlock d code ticks) := by
  unfold State.wantBlock
  exact h.when fun _ h => h.onDie (fun _ => rfl) (fun _ => rfl)

theorem State.Keeps.react {r : Record} (h : s.Keeps t) : s.Keeps (t.react r) := by
  unfold State.react
  extract_lets +onlyGivenNames _ t2
  have h2 : s.Keeps t2 := .when (h.each fun _ _ _ h => h.when fun _ h => h.wantBlock) fun _ h => h.applyRearm.each
    fun _ _ _ h => h.when fun _ h => h.reactTrig
  exact .ite h2.lockOutDevice h2.setPermit

theorem State.Keeps.opPackageRecord (h : s.Keeps t) : s.Keeps (opPackageRecord t) := by
  unfold Machine.opPackageRecord
  dsimp only
  split
  · exact .congr h rfl rfl rfl rfl
  · exact .ite (.each (.congr h rfl rfl rfl rfl) fun _ _ _ h => h.overflow) (.react (.each (.congr h rfl rfl rfl rfl)
      fun _ _ _ h => h.writeRecord.sticky.overflow))

theorem State.Keeps.opClear {d : Nat} (h : s.Keeps t) : s.Keeps (opClear d t) := by
  unfold Machine.opClear
  split
  · exact h
  · split
    · exact h.sticky
    · extract_lets +onlyGivenNames t1
      have h1 : s.Keeps t1 := h.each fun _ _ _ h => .wr (.wrB (h.emptyLocal.emptyPackage.onDie (fun _ => rfl) (fun _ => rfl)))
      exact .ite h1.enter h1.setPermit

theorem State.Keeps.opFfReact {d : Nat} {value : Word} (h : s.Keeps t) : s.Keeps (opFfReact d value t) := by
  unfold Machine.opFfReact
  exact .ite h (.ite h.sticky h.wr.wr)

/-! #### What the operations of Machine/Clock keep -/

theorem State.Keeps.onClk {d : Nat} {f : Clk → Clk} (h : s.Keeps t) : s.Keeps (t.onClk d f) := by
  unfold State.onClk
  exact h.onDie (fun _ => rfl) (fun _ => rfl)

theorem State.Keeps.untrust (h : s.Keeps t) : s.Keeps t.untrust := by
  unfold State.untrust
  exact .ite h.wrB.wr.sticky.dropManifests.blockAll.reportState h.wr

theorem State.Keeps.rephase {d : Nat} {second : Bool} (h : s.Keeps t) : s.Keeps (t.rephase d second) := by
  unfold State.rephase
  exact h.wr.wrB.wrB.sticky

theorem State.Keeps.loseRef {k : Nat} {second : Bool} (h : s.Keeps t) : s.Keeps (t.loseRef k second) := by
  unfold State.loseRef
  exact .ite h (.ite h.rephase.sticky h.onClk.wrB.wrB.sticky)

theorem State.Keeps.endHold {k : Nat} {second : Bool} (h : s.Keeps t) : s.Keeps (t.endHold k second) := by
  unfold State.endHold
  exact .when (.when (.when (h.when fun _ h => h.onClk.wrB) fun _ h => h.onClk.wrB) fun _ h => h.rephase) fun _ h => h.untrust

theorem State.Keeps.opRefReturn {d : Nat} (h : s.Keeps t) : s.Keeps (opRefReturn d t) := by
  unfold Machine.opRefReturn
  exact .ite (h.each fun _ _ _ h => h.rephase) h

theorem State.Keeps.lockBand {d : Nat} {tab : Fld → Fld} {lo hi : Nat} {cap lock : Fld} (h : s.Keeps t) :
    s.Keeps (t.lockBand d tab lo hi cap lock) := by
  unfold State.lockBand
  dsimp only
  split
  · exact h.wrB.wr
  · exact h.wrB.freeN.wr.when fun _ h => h.sticky

theorem State.Keeps.lockTpll {d : Nat} (h : s.Keeps t) : s.Keeps (t.lockTpll d) := h.lockBand

theorem State.Keeps.lockFpll {d : Nat} (h : s.Keeps t) : s.Keeps (t.lockFpll d) := h.lockBand

theorem State.Keeps.forceOutputs {d : Nat} (h : s.Keeps t) : s.Keeps (t.forceOutputs d) := by
  unfold State.forceOutputs
  exact .congr h rfl rfl rfl rfl

theorem State.Keeps.opGate {d : Nat} {cause : LossCause} {last : Nat} (h : s.Keeps t) : s.Keeps (opGate d cause last t) := by
  unfold Machine.opGate
  extract_lets +onlyGivenNames _ _ _ t4
  have h4 : s.Keeps t4 := .each (h.forceOutputs.wr.wr.wr.onDie (fun _ => rfl) (fun _ => rfl)) fun _ _ _ h => h.onDie
    (fun _ => rfl) (fun _ => rfl)
  split
  · exact h4
  · split
    · exact h4.raise
    · extract_lets +onlyGivenNames t5
      have h5 : s.Keeps t5 := h4.each fun _ _ _ h => h.sticky.wantBlock
      exact .ite h5 h5.lockOutDevice

theorem State.Keeps.opFpllLoss {d : Nat} (h : s.Keeps t) : s.Keeps (opFpllLoss d t) := by
  unfold Machine.opFpllLoss
  exact .ite (.dramLost (.allLinksDown (.congr h.onClk.wrB.wrB.sticky.raise rfl rfl rfl rfl))) h.onClk.wrB.wrB.sticky.raise

theorem State.Keeps.opUpdate {d : Nat} (h : s.Keeps t) : s.Keeps (opUpdate d t) := by
  unfold Machine.opUpdate
  exact .ite h.sticky h.onClk.wrB

theorem State.Keeps.applyUpdate {d : Nat} (h : s.Keeps t) : s.Keeps (t.applyUpdate d) := by
  unfold State.applyUpdate
  split
  · exact h
  · exact h.onClk.wrB

theorem State.Keeps.nextTriangle {d : Nat} (h : s.Keeps t) : s.Keeps (t.nextTriangle d) := by
  unfold State.nextTriangle
  split
  · exact h
  · exact .ite h h.onClk

theorem State.Keeps.detect {d : Nat} (h : s.Keeps t) : s.Keeps (t.detect d) := by
  unfold State.detect
  exact h.nextTriangle.when fun _ h => h.onClk.applyUpdate

/-! #### What the operations of Machine/RingBlocks keep -/

theorem State.Keeps.onHead {d : Nat} {f : RingHead → RingHead} (h : s.Keeps t) : s.Keeps (t.onHead d f) := by
  unfold State.onHead
  exact h.onDie (fun _ => rfl) (fun _ => rfl)

theorem State.Keeps.onNode {f : RingNode → RingNode} (h : s.Keeps t) : s.Keeps (t.onNode f) := by
  unfold State.onNode
  exact h.onDie (fun _ => rfl) (fun _ => rfl)

theorem State.Keeps.judgeRoutes {d : Nat} (h : s.Keeps t) : s.Keeps (t.judgeRoutes d) := by
  unfold State.judgeRoutes
  exact .source (h.when fun _ h => h.sticky)

theorem State.Keeps.setLink {d : Nat} {r : Ring} {k : Nat} {up : Bool} (h : s.Keeps t) : s.Keeps (t.setLink d r k up) := by
  unfold State.setLink
  exact .ite h h.wrB.sticky.judgeRoutes

theorem State.Keeps.headIdle {d : Nat} {r : Ring} (h : s.Keeps t) : s.Keeps (t.headIdle d r) := by
  unfold State.headIdle
  exact .ite h h.onHead

theorem State.Keeps.headTx {d : Nat} {r : Ring} {b : RingBlock} (h : s.Keeps t) : s.Keeps (t.headTx d r b) := by
  unfold State.headTx
  exact h.headIdle.onHead

theorem State.Keeps.sendA {d kind : Nat} {payload : List Byte} (h : s.Keeps t) : s.Keeps (t.sendA d kind payload) := by
  unfold State.sendA
  exact h.headTx.headTx.onHead

theorem State.Keeps.nodeTx {ring : Ring} {b : RingBlock} (h : s.Keeps t) : s.Keeps (t.nodeTx ring b) := h.onNode

theorem State.Keeps.nodeReplace {ring : Ring} {b : RingBlock} (h : s.Keeps t) : s.Keeps (t.nodeReplace ring b) :=
  h.onNode

theorem State.Keeps.refuseRing {d : Nat} (h : s.Keeps t) : s.Keeps (t.refuseRing d) := h.sticky.bump

theorem State.Keeps.submitRing {d port source kind : Nat} {cid : Byte} {blocks : List (List Byte × List Nat)} (h : s.Keeps t) :
    s.Keeps (t.submitRing d port source kind cid blocks).2 := by
  unfold State.submitRing
  exact .iteSnd (.snd h.onHead) (.snd h.refuseRing)

theorem State.Keeps.queueBc {d n cls kind : Nat} {payload : List Byte} (h : s.Keeps t) : s.Keeps (t.queueBc d n cls kind payload) := by
  unfold State.queueBc
  exact h.when fun _ h => h.onHead

theorem State.Keeps.onFront {d n cls : Nat} {f : BcBlock → BcBlock} (h : s.Keeps t) : s.Keeps (t.onFront d n cls f) :=
  h.onHead

theorem State.Keeps.closeBc {d : Nat} {b : BcBlock} (h : s.Keeps t) : s.Keeps (t.closeBc d b) := h.onHead

theorem State.Keeps.discardBc {d : Nat} (h : s.Keeps t) : s.Keeps (t.discardBc d) := by
  unfold State.discardBc
  exact .onHead (h.each fun _ _ _ h => h.closeBc)

theorem State.Keeps.headReceive {d : Nat} {ring : Ring} {b : RingBlock} (h : s.Keeps t) : s.Keeps (t.headReceive d ring b).2 := by
  unfold State.headReceive
  exact .snd h.onHead

theorem State.Keeps.nodeReceive {ring : Ring} {b : RingBlock} (h : s.Keeps t) : s.Keeps (t.nodeReceive ring b).2 := by
  unfold State.nodeReceive
  exact .snd h.onNode

theorem State.Keeps.nodeQueue {cls kind : Nat} {payload : List Byte} (h : s.Keeps t) : s.Keeps (t.nodeQueue cls kind payload) :=
  h.onNode

theorem State.Keeps.nodeInsert {cls : Nat} (h : s.Keeps t) : s.Keeps (t.nodeInsert cls) := by
  unfold State.nodeInsert
  split
  · exact .ite h h.nodeReplace.onNode
  · exact h

/-! #### What the operations of Machine/RingLink keep -/

theorem State.Keeps.insertAlert {r : Ring} {b : RingBlock} (h : s.Keeps t) : s.Keeps (t.insertAlert r b).2 := by
  unfold State.insertAlert
  dsimp only
  split
  · exact .snd h
  · split
    · exact .snd h
    · exact .snd h.onNode

theorem State.Keeps.insertAck {r : Ring} {b : RingBlock} (h : s.Keeps t) : s.Keeps (t.insertAck r b).2 := by
  unfold State.insertAck
  split
  · exact .snd h
  · split
    · exact .snd h
    · exact .snd h.onNode

theorem State.Keeps.sendBreak {r : Ring} (h : s.Keeps t) : s.Keeps (t.sendBreak r) := by
  unfold State.sendBreak
  exact .ite h h.insertAlert.insertAck.nodeTx

theorem State.Keeps.openSlots (h : s.Keeps t) : s.Keeps t.openSlots := by
  unfold State.openSlots
  exact .ite h (.ite (h.each fun _ _ _ h => h.headIdle.headIdle) h.sendBreak.sendBreak)

theorem State.Keeps.opRingLinkUp {d : Nat} {r : Ring} (h : s.Keeps t) : s.Keeps (opRingLinkUp d r t) := by
  unfold Machine.opRingLinkUp
  exact .ite h.onHead h.onNode

theorem State.Keeps.opRingLinkDown {d : Nat} {r : Ring} (h : s.Keeps t) : s.Keeps (opRingLinkDown d r t) := by
  unfold Machine.opRingLinkDown
  exact .ite h.onHead.setLink h.onNode.sendBreak

theorem State.Keeps.opRingBreak {d : Nat} {r : Ring} {k : Nat} (h : s.Keeps t) : s.Keeps (opRingBreak d r k t) := by
  unfold Machine.opRingBreak
  exact h.onHead.setLink

theorem State.Keeps.opRingBreakClear {d : Nat} {r : Ring} {k : Nat} (h : s.Keeps t) : s.Keeps (opRingBreakClear d r k t) := by
  unfold Machine.opRingBreakClear
  exact h.onHead.setLink

theorem State.Keeps.judgeLost {fuel : Nat} (h : s.Keeps t) : s.Keeps (t.judgeLost fuel) := by
  induction fuel generalizing t with
  | zero => exact h
  | succ fuel ih =>
    unfold State.judgeLost
    split
    · exact h
    · extract_lets +onlyGivenNames _ passed
      exact .ite h (ih (.when h.onNode fun _ h => h.sticky.bump))

theorem State.Keeps.seenA {r : Ring} {q : Byte} (h : s.Keeps t) : s.Keeps (t.seenA r q) := h.onNode.judgeLost

theorem State.Keeps.heard (h : s.Keeps t) : s.Keeps t.heard := by
  unfold State.heard
  exact .ite h.onNode.wrB.lower.reportState h.onNode

theorem State.Keeps.opEnumPass {r : Ring} {b : RingBlock} (h : s.Keeps t) : s.Keeps (opEnumPass r b t).2 := by
  unfold Machine.opEnumPass
  split
  · dsimp only
    split
    · exact .snd h.wr
    · exact .snd h.wr
  · exact .snd h

theorem State.Keeps.opForward {r : Ring} {b : RingBlock} (h : s.Keeps t) : s.Keeps (opForward r b t) := by
  unfold Machine.opForward
  split
  · exact h.nodeTx
  · extract_lets +onlyGivenNames _ t2 e t3
    have h2 : s.Keeps t2 := .when (h.when fun _ h => h.heard) fun _ h => h.seenA
    have h3 : s.Keeps t3 := .iteSnd h2.opEnumPass h2
    exact .ite h3.nodeTx h3.insertAlert.insertAck.nodeTx

theorem State.Keeps.opSilent (h : s.Keeps t) : s.Keeps (opSilent t) := by
  unfold Machine.opSilent
  exact h.wrB.sticky.raise.onNode.sticky.dropManifests.blockAll.reportState

theorem State.Keeps.opRingBlockClear (h : s.Keeps t) : s.Keeps (opRingBlockClear t) := h.onNode.unblock.reportState

theorem State.Keeps.opAlert {d : Nat} {b : RingBlock} (h : s.Keeps t) : s.Keeps (opAlert d b t) := by
  unfold Machine.opAlert
  exact .ite h h.onHead.stick.sticky.arrive

/-! #### What the operations of Machine/RingTime keep -/

theorem State.Keeps.moveTo {new : DevState} (h : s.Keeps t) : s.Keeps (t.moveTo new) := by
  unfold State.moveTo
  exact h.enter.when fun _ h => h.armCollectors

theorem State.Keeps.takeNamed {code : Nat} (h : s.Keeps t) : s.Keeps (t.takeNamed code) := by
  unfold State.takeNamed
  split
  · exact h
  · split
    · exact h
    · exact .ite h (.ite h.reportState h.moveTo)

theorem State.Keeps.newCopy {q : Byte} (h : s.Keeps t) : s.Keeps (t.newCopy q).2 := by
  unfold State.newCopy
  dsimp only
  split
  · exact .snd h
  · exact .snd h.onNode

theorem State.Keeps.opState {b : RingBlock} (h : s.Keeps t) : s.Keeps (opState b t) := by
  unfold Machine.opState
  exact .ite h.newCopy h.newCopy.onNode.takeNamed

theorem State.Keeps.takeLockout (h : s.Keeps t) : s.Keeps t.takeLockout := by
  unfold State.takeLockout
  exact .ite h h.moveTo

theorem State.Keeps.opBlock {b : RingBlock} (h : s.Keeps t) : s.Keeps (opBlock b t) := by
  unfold Machine.opBlock
  exact .ite h.newCopy h.newCopy.wr.wr.wr.wr.dropManifests.blockAll.takeLockout

theorem State.Keeps.routes (h : s.Keeps t) : s.Keeps t.routes := by
  unfold State.routes
  split
  · exact h
  · split
    · exact h
    · exact h.onNode.wrS.wrS.setNodeField.setNodeField.when fun _ h => h.untrust

theorem State.Keeps.opDelay {r : Ring} {b : RingBlock} {at_ : Nat} (h : s.Keeps t) : s.Keeps (opDelay r b at_ t) := by
  unfold Machine.opDelay
  dsimp only
  split
  · exact h.onNode.wr.wrS
  · exact h.onNode

theorem State.Keeps.trust (h : s.Keeps t) : s.Keeps t.trust := h.wrB.onBg.reportState

theorem State.Keeps.showError {e : Int} (h : s.Keeps t) : s.Keeps (t.showError e) := by
  unfold State.showError
  dsimp only
  exact .setNodeField (.wr (by
      split
      · exact .snd h
      · exact .snd h.freeW))

theorem State.Keeps.takeError {e : Int} {follows : Bool} (h : s.Keeps t) : s.Keeps (t.takeError e follows) := by
  unfold State.takeError
  exact .ite (.ite h.showError.onNode (h.showError.onNode.wr.when fun _ h => h.trust)) h.showError.onNode

theorem State.Keeps.opSync {r : Ring} {b : RingBlock} {at_ : Nat} (h : s.Keeps t) : s.Keeps (opSync r b at_ t) := by
  unfold Machine.opSync
  dsimp only
  split
  · exact h
  · split
    · exact h.onNode.routes.takeNamed.takeError
    · exact h.onNode.routes.takeNamed.when fun _ h => h.wr

theorem State.Keeps.moveTime {e : Int} (h : s.Keeps t) : s.Keeps (t.moveTime e) := by
  unfold State.moveTime
  exact .onDie (.congr h rfl rfl rfl rfl) (fun _ => rfl) (fun _ => rfl)

theorem State.Keeps.applyAdjust (h : s.Keeps t) : s.Keeps t.applyAdjust := by
  unfold State.applyAdjust
  split
  · exact h
  · exact .ite h (.ite h.onNode.moveTime.onNode.untrust.wr h.onNode.moveTime)

theorem State.Keeps.opSyncSend {d : Nat} (h : s.Keeps t) : s.Keeps (opSyncSend d t) := by
  unfold Machine.opSyncSend
  exact h.onHead.sendA

theorem State.Keeps.opDelaySend {d : Nat} (h : s.Keeps t) : s.Keeps (opDelaySend d t) := by
  unfold Machine.opDelaySend
  exact h.onHead.sendA

theorem State.Keeps.opDelayReturn {d : Nat} {la lb : Option Nat} (h : s.Keeps t) : s.Keeps (opDelayReturn d la lb t) := by
  unfold Machine.opDelayReturn
  split
  · exact h
  · dsimp only
    split
    · exact h.onHead.wr.wr
    · exact h.onHead

theorem State.Keeps.opStateSend {d : Nat} (h : s.Keeps t) : s.Keeps (opStateSend d t) := by
  unfold Machine.opStateSend
  split
  · exact h
  · exact h.onHead.sendA

theorem State.Keeps.opBlockSend {d : Nat} (h : s.Keeps t) : s.Keeps (opBlockSend d t) := by
  unfold Machine.opBlockSend
  split
  · exact h
  · exact .sendA (.onHead (h.when fun _ h => h.onHead))

theorem State.Keeps.opEnumReturn {d : Nat} {ca cb : Option (Nat × Nat)} (h : s.Keeps t) : s.Keeps (opEnumReturn d ca cb t) := by
  unfold Machine.opEnumReturn
  dsimp only
  split
  · exact .ite h.onHead.wr.judgeRoutes h.onHead.sticky
  · exact h.onHead.sticky

/-! #### What the operations of Machine/RingMsg keep -/

theorem State.Keeps.takeDown {f : Nat} {v : BitVec 16} (h : s.Keeps t) : s.Keeps (t.takeDown f v) := by
  unfold State.takeDown
  exact .ite h (.when (h.putCtx.when fun _ h => h.routes) fun _ h => h.opSpWord)

theorem State.Keeps.opContext {d n field : Nat} {v : BitVec 16} (h : s.Keeps t) : s.Keeps (opContext d n field v t) := by
  unfold Machine.opContext
  exact .ite (.ite h.putCtx.onHead h) (.ite h.setNodeField h)

theorem State.Keeps.nimgLeave {d ws : Nat} (h : s.Keeps t) : s.Keeps (t.nimgLeave d ws) := by
  unfold State.nimgLeave
  exact .ite (.wrB (.wr (h.onDie (fun _ => rfl) (fun _ => rfl)))) (h.onDie (fun _ => rfl) (fun _ => rfl))

theorem State.Keeps.nimgFail {d ws cause : Nat} (h : s.Keeps t) : s.Keeps (t.nimgFail d ws cause) := by
  unfold State.nimgFail
  exact .ite h h.wrB.wr.wr.onHead.nimgLeave

theorem State.Keeps.linesOk {d at_ n : Nat} {fails : List (Nat × Bool)} (h : s.Keeps t) : s.Keeps (t.linesOk d at_ n fails).2 := by
  unfold State.linesOk
  dsimp only
  split
  · exact h.lineRead
  · exact h.lineRead.lineRead

theorem State.Keeps.nimgQueue {d ws : Nat} {fails : List (Nat × Bool)} (h : s.Keeps t) : s.Keeps (t.nimgQueue d ws fails) := by
  unfold State.nimgQueue
  split
  · exact h
  · exact .ite h.linesOk.nimgFail (h.linesOk.wr.queueBc.onDie (fun _ => rfl) (fun _ => rfl))

theorem State.Keeps.opNimgGo {d : Nat} (h : s.Keeps t) : s.Keeps (opNimgGo d t) := by
  unfold Machine.opNimgGo
  exact .ite h.wr (.ite h.wr.wr.wr.wr (.each (h.wr.wr.wr.wr.wrB.onDie (fun _ => rfl) (fun _ => rfl))
    fun _ _ _ h => .ite h.nimgQueue h.nimgFail))

theorem State.Keeps.nimgAnswer {d ws w : Nat} (h : s.Keeps t) : s.Keeps (t.nimgAnswer d ws w) := by
  unfold State.nimgAnswer
  split
  · exact h
  · exact .ite (h.onDie (fun _ => rfl) (fun _ => rfl)) (.ite h.wr.nimgFail (.ite h.wr.wrB.nimgLeave (h.wr.onDie (fun _ => rfl)
      (fun _ => rfl))))

theorem State.Keeps.startRemote {d : Nat} (h : s.Keeps t) : s.Keeps (t.startRemote d) := by
  unfold State.startRemote
  split
  · exact h
  · exact h.queueBc

theorem State.Keeps.tellRemote {d : Nat} {r : Remote} {ok : Bool} {data : Nat} (h : s.Keeps t) : s.Keeps (t.tellRemote d r ok data) := by
  unfold State.tellRemote
  exact .ite (.when (h.wr.when fun _ h => h.sticky) fun _ h => h.wr) (.ite h (.ite h.nimgAnswer h.nimgFail))

theorem State.Keeps.endRemote {d : Nat} {ok : Bool} {data : Nat} (h : s.Keeps t) : s.Keeps (t.endRemote d ok data) := by
  unfold State.endRemote
  split
  · exact h
  · exact h.onHead.tellRemote.startRemote

theorem State.Keeps.askRemote {d : Nat} {r : Remote} (h : s.Keeps t) : s.Keeps (t.askRemote d r) := by
  unfold State.askRemote
  exact .ite h.tellRemote (.when (h.onHead.when fun _ h => h.wr) fun _ h => h.startRemote)

theorem State.Keeps.opRemote {d n : Nat} {write : Bool} (h : s.Keeps t) : s.Keeps (opRemote d n write t) := by
  unfold Machine.opRemote
  exact .ite h h.askRemote

theorem State.Keeps.opRegRsp {d : Nat} {ring : Ring} {b : RingBlock} (h : s.Keeps t) : s.Keeps (opRegRsp d ring b t) := by
  unfold Machine.opRegRsp
  dsimp only
  split
  · exact h.headReceive
  · split
    · exact .ite h.headReceive.endRemote h.headReceive
    · exact h.headReceive

theorem State.Keeps.opNimgPoll {d n : Nat} {fails : List (Nat × Bool)} (h : s.Keeps t) : s.Keeps (opNimgPoll d n fails t) := by
  unfold Machine.opNimgPoll
  split
  · exact h
  · exact .ite h.nimgQueue (.ite (.askRemote (h.onDie (fun _ => rfl) (fun _ => rfl))) h)

theorem State.Keeps.opNeighbour {d n : Nat} (h : s.Keeps t) : s.Keeps (opNeighbour d n t) := by
  unfold Machine.opNeighbour
  exact h.askRemote.onHead

theorem State.Keeps.formCtx {d n : Nat} (h : s.Keeps t) : s.Keeps (t.formCtx d n) := by
  unfold State.formCtx
  exact .ite h h.onHead.queueBc

theorem State.Keeps.sendFront {d n cls : Nat} {r : Ring} (h : s.Keeps t) : s.Keeps (t.sendFront d n cls r) := by
  unfold State.sendFront
  split
  · exact h.onFront.headTx
  · exact h

theorem State.Keeps.opBcSend {d n : Nat} (h : s.Keeps t) : s.Keeps (opBcSend d n t) := by
  unfold Machine.opBcSend
  split
  · exact h
  · split
    · exact h
    · exact .ite h.formCtx.sendFront h

theorem State.Keeps.dropBc {d : Nat} {b : BcBlock} (h : s.Keeps t) : s.Keeps (t.dropBc d b) := by
  unfold State.dropBc
  exact .ite h.closeBc.sticky.bump.nimgFail (.ite h.closeBc.sticky.bump.stick (.ite h.closeBc.sticky.bump.endRemote h.closeBc.sticky.bump))

theorem State.Keeps.resend {d : Nat} {b : BcBlock} (h : s.Keeps t) : s.Keeps (t.resend d b) := by
  unfold State.resend
  exact .ite h.dropBc h.onFront

theorem State.Keeps.acked {d : Nat} {b : BcBlock} (h : s.Keeps t) : s.Keeps (t.acked d b) := by
  unfold State.acked
  extract_lets +onlyGivenNames t1
  have h1 : s.Keeps t1 := h.closeBc
  split
  · split
    · exact .ite h1.nimgQueue h1
    · exact h1
  · exact .ite h1.onHead h1

theorem State.Keeps.opHeadAck {d : Nat} {ack : BitVec 16} (h : s.Keeps t) : s.Keeps (opHeadAck d ack t) := by
  unfold Machine.opHeadAck
  dsimp only
  split
  · exact h
  · exact .ite h (.ite (.ite h.acked h) (.ite h.resend h))

theorem State.Keeps.nodeClose {b : BcBlock} (h : s.Keeps t) : s.Keeps (t.nodeClose b) := h.onNode

theorem State.Keeps.nodeResend {b : BcBlock} (h : s.Keeps t) : s.Keeps (t.nodeResend b) := by
  unfold State.nodeResend
  exact .ite h.nodeClose.sticky.bump h.onNode

theorem State.Keeps.opNodeAck {ack : BitVec 16} (h : s.Keeps t) : s.Keeps (opNodeAck ack t) := by
  unfold Machine.opNodeAck
  dsimp only
  split
  · exact h
  · exact .ite h (.ite (.ite h.nodeClose h) (.ite h.nodeResend h))

theorem State.Keeps.opCtxWrite {ring : Ring} {b : RingBlock} (h : s.Keeps t) : s.Keeps (opCtxWrite ring b t) := by
  unfold Machine.opCtxWrite
  exact .ite (h.nodeReceive.each fun _ _ _ h => h.takeDown) h.nodeReceive

theorem State.Keeps.opCtxDataSend (h : s.Keeps t) : s.Keeps (opCtxDataSend t) := by
  unfold Machine.opCtxDataSend
  exact .ite h.nodeInsert (.ite h (h.nodeQueue.onNode.nodeInsert.when fun _ h => h.setNodeField))

theorem State.Keeps.opCtxData {d : Nat} {ring : Ring} {b : RingBlock} (h : s.Keeps t) : s.Keeps (opCtxData d ring b t) := by
  unfold Machine.opCtxData
  exact .ite (h.headReceive.each fun _ _ _ h => h.when fun _ h => h.putCtx) h.headReceive

theorem State.Keeps.opSetpt {b : RingBlock} (h : s.Keeps t) : s.Keeps (opSetpt b t) := by
  unfold Machine.opSetpt
  exact .ite h.newCopy (h.newCopy.each fun _ _ _ h => h.when fun _ h => h.takeDown)

theorem State.Keeps.opCaravan {r : Ring} {b : RingBlock} (h : s.Keeps t) : s.Keeps (opCaravan r b t) := by
  unfold Machine.opCaravan
  extract_lets +onlyGivenNames _ _ _ _ _ _ _ t2
  have h2 : s.Keeps t2 := .ite (h.onNode.each fun _ _ _ h => .ite h h.onNode.acceptManifest) h.onNode
  split
  · exact h2
  · split
    · exact .ite h2.nodeReplace h2
    · exact h2

theorem State.Keeps.opCaravanBlockSend {d : Nat} (h : s.Keeps t) : s.Keeps (opCaravanBlockSend d t) := by
  unfold Machine.opCaravanBlockSend
  split
  · exact h.onHead.sendA
  · exact h.onHead.sendA

theorem State.Keeps.opFinalise {d : Nat} {c : Caravan} {results : List Word} (h : s.Keeps t) : s.Keeps (opFinalise d c results t) := by
  unfold Machine.opFinalise
  exact .ite h.onHead.wr.wr.wr.wr (h.onHead.wr.wr.wr.wr.sticky.each fun _ _ _ h => h.stick)

theorem State.Keeps.opCaptureSend (h : s.Keeps t) : s.Keeps (opCaptureSend t) := by
  unfold Machine.opCaptureSend
  split
  · exact h.nodeInsert
  · split
    · exact h
    · exact .ite h (.nodeInsert (.nodeQueue (h.onRec (fun _ => rfl))))

theorem State.Keeps.opCapture {d : Nat} {ring : Ring} {b : RingBlock} (h : s.Keeps t) : s.Keeps (opCapture d ring b t) := by
  unfold Machine.opCapture
  exact .ite h.headReceive.storeCapture h.headReceive

theorem State.Keeps.modeChange {d old new : Nat} (h : s.Keeps t) : s.Keeps (t.modeChange d old new) := by
  unfold State.modeChange
  exact .when (.when (.when (.when (h.nimgEnd.when fun _ h => h.discardBc.onHead.each fun _ _ _ h => h.endRemote)
    fun _ h => h.onHead) fun _ h => h.onHead) fun _ h => h.each fun _ _ _ h => h.setLink.setLink) fun _ h => h.onHead

theorem State.Keeps.opMode {d mode : Nat} (h : s.Keeps t) : s.Keeps (opMode d mode t) := by
  unfold Machine.opMode
  exact .ite h.wr h.wr.modeChange

theorem State.Keeps.opRres {d i : Nat} {value : Word} (h : s.Keeps t) : s.Keeps (opRres d i value t) := by
  unfold Machine.opRres
  exact .ite h.sticky (.ite h.sticky h.putCell)

theorem State.Keeps.opRingReset {d : Nat} (h : s.Keeps t) : s.Keeps (opRingReset d t) := by
  unfold Machine.opRingReset
  exact .ite h.discardBc.onHead.opMode (.onNode (.when (h.each fun _ _ _ h => h.nodeClose) fun _ h => h.onRec (fun _ => rfl)))

theorem State.Keeps.opRingEn {on : Bool} (h : s.Keeps t) : s.Keeps (opRingEn on t) := by
  unfold Machine.opRingEn
  exact .ite h (.ite (.ite h.onNode h.onNode.sticky.dropManifests.blockAll.reportState) h.wrB.lower.onNode.unblock.reportState)

/-! #### What the operations of Machine/LoopEnd keep -/

theorem State.Keeps.releaseRemote {d slot : Nat} {outs : List (OutDest × BitVec 16)} (h : s.Keeps t) :
    s.Keeps (t.releaseRemote d slot outs) := by
  unfold State.releaseRemote
  exact h.each fun _ _ _ h => h.submitTo

theorem State.Keeps.releaseRing {d slot : Nat} {outs : List (OutDest × BitVec 16)} (h : s.Keeps t) :
    s.Keeps (t.releaseRing d slot outs) := by
  unfold State.releaseRing
  exact .ite h (.ite h.refuseRing (.ite (h.submitRing.each fun _ _ _ h => h.putCtx) h.submitRing))

theorem State.Keeps.releaseNode {outs : List (OutDest × BitVec 16)} (h : s.Keeps t) : s.Keeps (t.releaseNode outs) := by
  unfold State.releaseNode
  exact h.each fun _ _ _ h => by
      split
      · exact h.when fun _ h => h.setNodeField
      · exact h

theorem State.Keeps.releaseLocal {d : Nat} {outs : List (OutDest × BitVec 16)} (h : s.Keeps t) : s.Keeps (t.releaseLocal d outs) := by
  unfold State.releaseLocal
  exact h.each fun _ _ _ h => by
      split
      · exact h.spPend
      · exact h.wr
      · exact h

theorem State.Keeps.runEnds {d e i : Nat} {x : Inst} (h : s.Keeps t) : s.Keeps (t.runEnds d e i x) := by
  unfold State.runEnds
  exact h.wr.wr.setCondition.onInst

theorem State.Keeps.release {d e i : Nat} (h : s.Keeps t) : s.Keeps (t.release d e i) := by
  unfold State.release
  exact .runEnds (.ite h.releaseLocal.releaseRemote.releaseRing h.releaseLocal.releaseRemote.releaseNode)

theorem State.Keeps.commit {d : Nat} {t' : Store} (h : s.Keeps t) : s.Keeps (t.commit d t') := by
  unfold State.commit
  exact .ite h h.putCell

theorem State.Keeps.leComplete (h : s.Keeps t) : s.Keeps t.leComplete := by
  unfold State.leComplete
  exact .each (h.each fun _ _ _ h => h.misuse) fun _ _ _ h => .each (.onDie (h.each fun _ _ _ h => h.commit) (fun _ => rfl)
    (fun _ => rfl)) fun _ _ _ h => h.release

/-! #### What the operations of Machine/Planner keep -/

theorem State.Keeps.onEp {d : Nat} {f : Ep → Ep} (h : s.Keeps t) : s.Keeps (t.onEp d f) := by
  unfold State.onEp
  exact h.onDie (fun _ => rfl) (fun _ => rfl)

theorem State.Keeps.judgeRole {d : Nat} (h : s.Keeps t) : s.Keeps (t.judgeRole d) := by
  unfold State.judgeRole
  exact h.when fun _ h => h.sticky

theorem State.Keeps.takeCfg {d : Nat} (h : s.Keeps t) : s.Keeps (t.takeCfg d) := h.onEp

theorem State.Keeps.copyRefs {d : Nat} (h : s.Keeps t) : s.Keeps (t.copyRefs d) := by
  unfold State.copyRefs
  exact h.each fun _ _ _ h => h.wr

theorem State.Keeps.fromBlock {d : Nat} {p : Nat → Bool} (h : s.Keeps t) : s.Keeps (t.fromBlock d p) := by
  unfold State.fromBlock
  exact h.onEp

theorem State.Keeps.askPlan {d : Nat} {r : PReq} (h : s.Keeps t) : s.Keeps (t.askPlan d r) := by
  unfold State.askPlan
  exact .ite (.onEp (h.when fun _ h => h.sticky)) (.onEp (h.when fun _ h => h.sticky))

theorem State.Keeps.memberSend {d : Nat} (h : s.Keeps t) : s.Keeps (t.memberSend d) := by
  unfold State.memberSend
  exact .ite h h.submitTo.submitTo

theorem State.Keeps.opSwapRefs {d : Nat} {cmp : Option (Int × Int)} (h : s.Keeps t) : s.Keeps (opSwapRefs d cmp t) := by
  unfold Machine.opSwapRefs
  split
  · exact h
  · extract_lets +onlyGivenNames _ t2
    have h2 : s.Keeps t2 := h.copyRefs.judgeRole.when fun _ h => h.takeCfg
    split
    · split
      · exact .fromBlock (h2.each fun _ _ _ h => h.wr)
      · split
        · exact h2.askPlan
        · exact h2
    · exact h2.memberSend
    · exact h2

theorem State.Keeps.takeMembers {d : Nat} (h : s.Keeps t) : s.Keeps (t.takeMembers d) := by
  unfold State.takeMembers
  exact h.when fun _ h => h.sticky

theorem State.Keeps.pattern {d e : Nat} {fails : List (Nat × Bool)} (h : s.Keeps t) : s.Keeps (t.pattern d e fails).2 := by
  unfold State.pattern
  extract_lets +onlyGivenNames _ _ lines r
  have hr : s.Keeps r.2 := .foldl (p := Prod.snd) h fun _ _ h => h.lineRead
  exact .iteSnd hr hr

theorem State.Keeps.chooseEntry {d : Nat} {sq sh a : Int} {n : Nat} {fails : List (Nat × Bool)} (h : s.Keeps t) :
    s.Keeps (t.chooseEntry d sq sh a n fails) := by
  unfold State.chooseEntry
  extract_lets +onlyGivenNames _ cand put
  have hput : ∀ v e p, s.Keeps v → s.Keeps (put v e p) := fun _ _ _ h => h.wr.wr.onEp
  clear_value put cand
  cases cand with
  | none => exact h
  | some e =>
    refine .ite h ?_
    dsimp only
    split
    · exact h.pattern.sticky
    · exact hput _ _ _ h.pattern
    · exact .ite (hput _ _ _ h.pattern) h.pattern

theorem State.Keeps.plan {d : Nat} {q : PReq} {fails : List (Nat × Bool)} (h : s.Keeps t) : s.Keeps (t.plan d q fails) := by
  unfold State.plan
  extract_lets +onlyGivenNames _ _ _ _ _ _ _ _ _ _ _ _ _ _ _ _ _ nls _ s2 _ out outs
  have hout : s.Keeps out.2.2 := by
    unfold out
    split
    · exact h
    · split
      · exact h
      · have h2 : s.Keeps s2 := h.chooseEntry
        split
        · exact h2
        · exact h2
      · exact h
  exact .onEp (hout.each fun _ _ _ h => h.wr.wr)

theorem State.Keeps.opPlanStart {d : Nat} {fails : List (Nat × Bool)} (h : s.Keeps t) : s.Keeps (opPlanStart d fails t) := by
  unfold Machine.opPlanStart
  split
  · exact h
  · exact .ite h (.ite h.judgeRole.takeCfg.onEp h.judgeRole.takeCfg.onEp.takeMembers.plan)

theorem State.Keeps.opPlanEnd {d : Nat} (h : s.Keeps t) : s.Keeps (opPlanEnd d t) := by
  unfold Machine.opPlanEnd
  split
  · exact h
  · extract_lets +onlyGivenNames _ _ _ t3
    have h3 : s.Keeps t3 := h.wr.wr.bumpMod.wr.each fun _ _ _ h => by
      split
      · exact h.wr.wr
      · exact h.wr
    dsimp only
    exact .onEp (by
        split
        · exact .when (.wr (.sticky (h3.when fun _ h => h.sticky))) fun _ h => h.pulse
        · exact h3.when fun _ h => h.sticky)

theorem State.Keeps.opManifestTransfer {d r : Nat} (h : s.Keeps t) : s.Keeps (opManifestTransfer d r t) := by
  unfold Machine.opManifestTransfer
  split
  · exact h
  · exact .ite h h.submitTo.onEp

theorem State.Keeps.memberTake {d : Nat} {t' : MTransfer} (h : s.Keeps t) : s.Keeps (t.memberTake d t') := h.onEp

theorem State.Keeps.plannerTake {d src : Nat} {f : Member → Member} (h : s.Keeps t) : s.Keeps (t.plannerTake d src f) := by
  unfold State.plannerTake
  split
  · exact h
  · exact h.onEp

theorem State.Keeps.opDeliver {d : Nat} {x : FabXfer} (h : s.Keeps t) : s.Keeps (opDeliver d x t) := by
  unfold Machine.opDeliver
  split
  · exact h.each fun _ _ _ h => h.when fun _ h => h.spPend
  · exact h.judgeRole.plannerTake
  · exact h.judgeRole.plannerTake
  · exact h.judgeRole.when fun _ h => h.memberTake
  · exact h.onDie (fun _ => rfl) (fun _ => rfl)
  · exact h.onDie (fun _ => rfl) (fun _ => rfl)
  · exact h

theorem State.Keeps.notSent {d : Nat} (h : s.Keeps t) : s.Keeps (t.notSent d) := by
  unfold State.notSent
  exact h.fromBlock

theorem State.Keeps.missed {d : Nat} {bit : Sticky} (h : s.Keeps t) : s.Keeps (t.missed d bit) := by
  unfold State.missed
  exact .notSent (h.sticky.bump.when fun _ h => h.pulse)

theorem State.Keeps.enterCaravan {d blocks last : Nat} {addr : Word} (h : s.Keeps t) : s.Keeps (t.enterCaravan d blocks last addr) :=
  h.onHead

theorem State.Keeps.emitPlan {d entry : Nat} {p : Plan} (h : s.Keeps t) : s.Keeps (t.emitPlan d entry p) := by
  unfold State.emitPlan
  dsimp only
  split
  · exact h.notSent
  · split
    · exact h.missed
    · split
      · exact h.sticky.notSent
      · split
        · exact h.fromBlock.submitRing.enterCaravan
        · exact h.fromBlock.submitRing.notSent

theorem State.Keeps.emitNewest {d entry : Nat} (h : s.Keeps t) : s.Keeps (t.emitNewest d entry) := by
  unfold State.emitNewest
  split
  · exact h
  · split
    · exact h.missed
    · exact .emitPlan (h.onEp.when fun _ h => h.sticky.notSent)

theorem State.Keeps.emitHost {d entry b : Nat} (h : s.Keeps t) : s.Keeps (t.emitHost d entry b) := by
  unfold State.emitHost
  dsimp only
  split
  · exact h
  · split
    · exact h
    · split
      · exact h.sticky
      · split
        · exact h.submitRing.enterCaravan
        · exact h.submitRing

theorem State.Keeps.opEmit {d i arg : Nat} (h : s.Keeps t) : s.Keeps (opEmit d i arg t) := by
  unfold Machine.opEmit
  exact .ite h (.ite h.emitNewest (.ite h.emitHost h.sticky))

theorem State.Keeps.opEpReset {d : Nat} (h : s.Keeps t) : s.Keeps (opEpReset d t) := h.onEp

/-! #### What the operations of Machine/Milestone keep -/

theorem State.Keeps.msSwap {d i : Nat} (h : s.Keeps t) : s.Keeps (t.msSwap d i) := by
  unfold State.msSwap
  exact .ite h.fired.swapSet h.fired.opSwapRefs

theorem State.Keeps.msMark {d i : Nat} (h : s.Keeps t) : s.Keeps (t.msMark d i) := by
  unfold State.msMark
  exact h.fired.when fun _ h => h.ledgerMark

theorem State.Keeps.msFire {d i : Nat} (h : s.Keeps t) : s.Keeps (t.msFire d i) := by
  unfold State.msFire
  split
  · exact h.fired.startSlot
  · exact h.fired.opEmit
  · exact h.msSwap
  · exact h.msMark
  · exact h.fired.msPin
  · exact h.fired

theorem State.Keeps.msLatch {d : Nat} {is : List Nat} (h : s.Keeps t) : s.Keeps (t.msLatch d is) := by
  unfold State.msLatch
  exact .when (h.each fun _ _ _ h => h.fired) fun _ h => h.latchGroups

theorem State.Keeps.opMilestones {d : Nat} (h : s.Keeps t) : s.Keeps (opMilestones d t) := by
  unfold Machine.opMilestones
  exact .each (.each (.each (.each (.msLatch (h.each fun _ _ _ h => h.msFire)) fun _ _ _ h => h.msFire)
    fun _ _ _ h => h.msFire) fun _ _ _ h => h.msFire) fun _ _ _ h => h.msFire

/-! #### What the operations of Machine/Net keep -/

theorem State.Keeps.onNet {d : Nat} {f : Net → Net} (h : s.Keeps t) : s.Keeps (t.onNet d f) := by
  unfold State.onNet
  exact h.onDie (fun _ => rfl) (fun _ => rfl)

theorem State.Keeps.txFrame {d : Nat} {t' : NetTx} {tag : Bool} {red : optParam (Option RedTag) none} (h : s.Keeps t) :
    s.Keeps (t.txFrame d t' tag red) := by
  unfold State.txFrame
  exact h.when fun _ h => h.onNet

theorem State.Keeps.sendFrame {d : Nat} {t' : NetTx} (h : s.Keeps t) : s.Keeps (t.sendFrame d t') := by
  unfold State.sendFrame
  exact .ite h.txFrame (.onNet (h.each fun _ _ _ h => h.txFrame))

theorem State.Keeps.setPtpState {d st : Nat} (h : s.Keeps t) : s.Keeps (t.setPtpState d st) := h.wr.wr

theorem State.Keeps.netDown {d : Nat} (h : s.Keeps t) : s.Keeps (t.netDown d) := by
  unfold State.netDown
  exact h.wrB.setPtpState.when fun _ h => h.sticky

theorem State.Keeps.opMdio {write : Bool} {phy reg : BitVec 5} {data : BitVec 16} (h : s.Keeps t) :
    s.Keeps (opMdio write phy reg data t) := by
  unfold Machine.opMdio
  exact .ite h h.wrB.onNet

theorem State.Keeps.dropCopy {f : EthFrame} (h : s.Keeps t) : s.Keeps (t.dropCopy f) := by
  unfold State.dropCopy
  extract_lets +onlyGivenNames _ t1
  have h1 : s.Keeps t1 := h.onNet
  exact h1.congr rfl rfl rfl rfl

theorem State.Keeps.duplicate {d : Nat} {f : EthFrame} (h : s.Keeps t) : s.Keeps (t.duplicate d f).2 := by
  unfold State.duplicate
  split
  · exact .snd h
  · split
    · exact .snd h.onNet
    · split
      · exact .snd h.onNet.bump.dropCopy
      · exact .snd h.bump

theorem State.Keeps.keepFrame {d : Nat} {h' : Handler} {f : EthFrame} (h : s.Keeps t) : s.Keeps (t.keepFrame d h' f) := by
  unfold State.keepFrame
  dsimp only
  exact h.duplicate.when fun _ h => by
      split
      · exact .ite h.onNet (h.when fun _ h => h.launch)
      · exact h.onNet

theorem State.Keeps.onWall {n : Nat} {f : Wall → Wall} (h : s.Keeps t) : s.Keeps (t.onWall n f) := by
  unfold State.onWall
  exact .congr h rfl rfl rfl rfl

theorem State.Keeps.changeTrim {n : Nat} {v : Int} (h : s.Keeps t) : s.Keeps (t.changeTrim n v) := by
  unfold State.changeTrim
  exact .submitWall (h.when fun _ h => h.sticky)

theorem State.Keeps.showHold (h : s.Keeps t) : s.Keeps t.showHold := by
  unfold State.showHold
  exact h.wr.source

theorem State.Keeps.openQuot {num den : Int} (h : s.Keeps t) : s.Keeps (t.openQuot num den).2 := by
  unfold State.openQuot
  split
  · exact .snd h
  · exact .snd h.freeN

theorem State.Keeps.enterHold {n : Nat} (h : s.Keeps t) : s.Keeps (t.enterHold n) := h.onWall.sticky.showHold

theorem State.Keeps.servo {n : Nat} {o : Int} (h : s.Keeps t) : s.Keeps (t.servo n o) := by
  unfold State.servo
  extract_lets +onlyGivenNames _ _ t3
  have h3 : s.Keeps t3 := .showHold (.onWall (h.when fun _ h => h.enterHold))
  exact .ite h3.openQuot.wrS.onWall (.ite h3.openQuot.wrS.onWall.submitWall.sticky h3.openQuot.wrS.onWall.openQuot.changeTrim)

theorem State.Keeps.hostStep {n : Nat} {rel : Bool} (h : s.Keeps t) : s.Keeps (t.hostStep n rel) := by
  unfold State.hostStep
  exact .sticky (.submitWall (.onWall (.ite (.onWall (.congr h rfl rfl rfl rfl)) h)))

theorem State.Keeps.opTdCtrl {n : Nat} {value : Word} (h : s.Keeps t) : s.Keeps (opTdCtrl n value t) := by
  unfold Machine.opTdCtrl
  exact .when (h.when fun _ h => h.wr.onWall.showHold) fun _ h => h.hostStep

theorem State.Keeps.opTdTrim {n : Nat} {value : Word} (h : s.Keeps t) : s.Keeps (opTdTrim n value t) := by
  unfold Machine.opTdTrim
  exact .ite h.changeTrim h

theorem State.Keeps.reportGm {a : Announce} (h : s.Keeps t) : s.Keeps (t.reportGm a) := by
  unfold State.reportGm
  exact h.wr.wr.wr.wr.when fun _ h => h.sticky

theorem State.Keeps.bmca {timed : Option Nat} (h : s.Keeps t) : s.Keeps (t.bmca timed) := by
  unfold State.bmca
  dsimp only
  split
  · split
    · exact .reportGm (h.each fun _ _ _ h => h.setPtpState)
    · exact h.each fun _ _ _ h => h.setPtpState
  · exact h.each fun _ _ _ h => h.setPtpState

theorem State.Keeps.expireAnnounce {d : Nat} (h : s.Keeps t) : s.Keeps (t.expireAnnounce d) := by
  unfold State.expireAnnounce
  exact .ite h.onNet.bmca h

theorem State.Keeps.takeSync {d : Nat} {trip : Int} (h : s.Keeps t) : s.Keeps (t.takeSync d trip) := by
  unfold State.takeSync
  dsimp only
  split
  · exact h.onNet.servo
  · exact h.onNet

theorem State.Keeps.takeDelay {d : Nat} {twice : Int} (h : s.Keeps t) : s.Keeps (t.takeDelay d twice) := by
  unfold State.takeDelay
  exact h.onNet.when fun _ h => h.openQuot.wrS

theorem State.Keeps.opPtp {d fine : Nat} {m : PtpMsg} (h : s.Keeps t) : s.Keeps (opPtp d fine m t) := by
  unfold Machine.opPtp
  dsimp only
  split
  · exact .ite h (.ite h.onNet h.takeSync)
  · split
    · exact .ite h.takeSync h
    · exact h
  · exact h.onNet.bmca
  · exact h.when fun _ h => h.txFrame
  · split
    · exact .ite h (.ite h.onNet h.takeDelay)
    · exact h
  · split
    · exact .ite h.takeDelay h
    · exact h
  · exact h.when fun _ h => h.txFrame
  · split
    · exact .ite h.takeDelay h
    · exact h
  · exact h

theorem State.Keeps.ppsTick (h : s.Keeps t) : s.Keeps t.ppsTick := by
  unfold State.ppsTick
  split
  · exact h.onNet
  · exact h

theorem State.Keeps.opPpsCfg (h : s.Keeps t) : s.Keeps (opPpsCfg t) := by
  unfold Machine.opPpsCfg
  exact .ite (.onNet (.congr h rfl rfl rfl rfl)) h

theorem State.Keeps.discStep (h : s.Keeps t) : s.Keeps t.discStep := by
  unfold State.discStep
  exact .ite (h.when fun _ h => h.sticky) (.each (.congr (.when (.wrB (.wrS (h.when fun _ h => h.sticky)))
    fun _ h => h.sticky) rfl rfl rfl rfl) fun _ _ _ h => h.onDie (fun _ => rfl) (fun _ => rfl))

theorem State.Keeps.opNetReset {d : Nat} (h : s.Keeps t) : s.Keeps (opNetReset d t) := by
  unfold Machine.opNetReset
  exact .ite h.setPtpState.onNet (h.setPtpState.onNet.each fun _ _ _ h => h.onWall)

/-! #### What the operations of Machine/SafetyFn keep -/

theorem State.Keeps.safFault {ch : Nat} {k : Sticky} {cause place : Nat} (h : s.Keeps t) : s.Keeps (t.safFault ch k cause place) :=
  h.sticky.onSaf

theorem State.Keeps.lockOut {ch : Nat} {f : SafFault} (h : s.Keeps t) : s.Keeps (t.lockOut ch f) := by
  unfold State.lockOut
  exact .ite h h.wrB.wr.wr.sticky

theorem State.Keeps.setBall {ch j : Nat} {b : Bool} (h : s.Keeps t) : s.Keeps (t.setBall ch j b) := by
  unfold State.setBall
  exact .ite h (.onSaf (.congr h rfl rfl rfl rfl))

theorem State.Keeps.outputsOff {ch : Nat} (h : s.Keeps t) : s.Keeps (t.outputsOff ch) := by
  unfold State.outputsOff
  exact .ite (.congr (h.wr.onSaf.each fun _ _ _ h => h.setBall) rfl rfl rfl rfl) (h.wr.onSaf.each fun _ _ _ h => h.setBall)

theorem State.Keeps.noteView {ch : Nat} (h : s.Keeps t) : s.Keeps (t.noteView ch) := by
  unfold State.noteView
  exact h.onSaf

theorem State.Keeps.settlePair {ch f : Nat} {hand2 : Bool} (h : s.Keeps t) : s.Keeps (t.settlePair ch f hand2) := by
  unfold State.settlePair
  dsimp only
  split
  · exact .ite h.onSaf h
  · exact h

theorem State.Keeps.judgePair {ch f : Nat} {hand2 : Bool} (h : s.Keeps t) : s.Keeps (t.judgePair ch f hand2) := by
  unfold State.judgePair
  dsimp only
  split
  · exact .ite h.safFault.onSaf h
  · exact h

theorem State.Keeps.trackPair {ch f : Nat} {hand2 : Bool} (h : s.Keeps t) : s.Keeps (t.trackPair ch f hand2) := by
  unfold State.trackPair
  exact .ite h.settlePair.onSaf (.ite h.settlePair.onSaf h.settlePair.judgePair)

theorem State.Keeps.askReset {ch : Nat} (h : s.Keeps t) : s.Keeps (t.askReset ch) := by
  unfold State.askReset
  exact .ite h h.onSaf

theorem State.Keeps.answerReset {ch : Nat} (h : s.Keeps t) : s.Keeps (t.answerReset ch) := by
  unfold State.answerReset
  exact .ite h.onSaf h.sticky

theorem State.Keeps.resetPulse {ch f : Nat} {up : Bool} (h : s.Keeps t) : s.Keeps (t.resetPulse ch f up) := by
  unfold State.resetPulse
  split
  · exact h.onSaf
  · split
    · exact h
    · exact .ite h.onSaf.sticky (.ite (h.onSaf.onSaf.when fun _ h => h.askReset) (h.onSaf.when fun _ h => h.sticky))

theorem State.Keeps.opInput {ch : Nat} {fb : Bool} {i : Nat} {levels : List (Bool × Nat)} (h : s.Keeps t) :
    s.Keeps (opInput ch fb i levels t) := by
  unfold Machine.opInput
  extract_lets +onlyGivenNames _ _ _ _ _ _ t3
  have h3 : s.Keeps t3 := .noteView (h.wrB.onSaf.when fun _ h => h.wrB)
  split
  · exact h3
  · extract_lets +onlyGivenNames t4
    have h4 : s.Keeps t4 := h3.each fun _ _ _ h => h.trackPair.trackPair
    exact .ite h4 (h4.each fun _ _ _ h => h.resetPulse)

theorem State.Keeps.driveTp (h : s.Keeps t) : s.Keeps t.driveTp := by
  unfold State.driveTp
  exact .congr h rfl rfl rfl rfl

theorem State.Keeps.endDark {ch : Nat} {now : Bool} (h : s.Keeps t) : s.Keeps (t.endDark ch now) := by
  unfold State.endDark
  exact h.each fun _ _ _ h => by
      split
      · exact h
      · exact .ite h.onSaf.setBall h

theorem State.Keeps.judgeReadback {ch j : Nat} {level : Bool} (h : s.Keeps t) : s.Keeps (t.judgeReadback ch j level) := by
  unfold State.judgeReadback
  exact .ite h (.ite h.onSaf (h.onSaf.when fun _ h => h.safFault))

theorem State.Keeps.judgeFeedback {ch j : Nat} (h : s.Keeps t) : s.Keeps (t.judgeFeedback ch j) := by
  unfold State.judgeFeedback
  split
  · exact h
  · exact h.when fun _ h => h.safFault

theorem State.Keeps.judgeCheck {ch : Nat} {k : SafCheck} (h : s.Keeps t) : s.Keeps (t.judgeCheck ch k) := by
  unfold State.judgeCheck
  split
  · exact h.judgeReadback
  · exact h.judgeFeedback
  · exact h.when fun _ h => h.safFault
  · exact h.when fun _ h => h.answerReset

theorem State.Keeps.endSample {ch : Nat} (h : s.Keeps t) : s.Keeps (t.endSample ch) := by
  unfold State.endSample
  exact .ite h (h.onSaf.when fun _ h => h.each fun _ _ _ h => h.judgeCheck)

theorem State.Keeps.setFn {ch f st : Nat} (h : s.Keeps t) : s.Keeps (t.setFn ch f st) := by
  unfold State.setFn
  exact h.wr.wrB.when fun _ h => h.sticky

theorem State.Keeps.twoHand {ch f t' v : Nat} (h : s.Keeps t) : s.Keeps (t.twoHand ch f t' v) := by
  unfold State.twoHand
  dsimp only
  split
  · exact .ite h h.onSaf.setFn
  · exact .ite h.onSaf.setFn h
  · split
    · exact h.onSaf
    · split
      · split
        · exact h.onSaf.setFn
        · exact .ite h.onSaf.setFn h.onSaf.sticky.setFn
      · exact .ite h.onSaf (.ite (.ite h.onSaf h.onSaf.setFn) h)

theorem State.Keeps.advanceFns {ch t' : Nat} (h : s.Keeps t) : s.Keeps (t.advanceFns ch t') := by
  unfold State.advanceFns
  dsimp only
  exact h.each fun _ _ _ h => by
      split
      · exact h.setFn
      · exact h.setFn
      · exact h.twoHand
      · exact h.setFn
      · exact h.setFn

theorem State.Keeps.showSig {ch : Nat} (h : s.Keeps t) : s.Keeps (t.showSig ch) := by
  unfold State.showSig
  dsimp only
  split
  · exact h.wr.wrB
  · exact h.wr

theorem State.Keeps.endLockout {ch : Nat} (h : s.Keeps t) : s.Keeps (t.endLockout ch) := by
  unfold State.endLockout
  exact .onSaf (.sticky (.wr (.wr (.wrB (.each (h.each fun _ _ _ h => h.when fun _ h => h.setFn) fun _ _ _ h => h.when
    fun _ h => h.wr.onSaf)))))

theorem State.Keeps.takeResets {ch : Nat} {entered : Bool} (h : s.Keeps t) : s.Keeps (t.takeResets ch entered) := by
  unfold State.takeResets
  exact .ite h.endLockout (h.each fun _ _ _ h => h.when fun _ h => h.setFn)

theorem State.Keeps.command {ch j : Nat} {on : Bool} (h : s.Keeps t) : s.Keeps (t.command ch j on) := by
  unfold State.command
  split
  · exact h
  · dsimp only
    split
    · exact h.wrB.onSaf.setBall
    · exact .ite h.wrB.onSaf.onSaf.setBall (.ite h.wrB.onSaf h.wrB.onSaf.onSaf)

theorem State.Keeps.lockAll {ch : Nat} {fs : List SafFault} (h : s.Keeps t) : s.Keeps (t.lockAll ch fs) := by
  unfold State.lockAll
  split
  · exact h
  · exact h.lockOut

theorem State.Keeps.evalCycle {ch : Nat} (h : s.Keeps t) : s.Keeps (t.evalCycle ch) := by
  unfold State.evalCycle
  exact .endDark (.each (.takeResets (h.lockAll.each fun _ _ _ h => h.advanceFns)) fun _ _ _ h => h.command)

theorem State.Keeps.formImage {ch : Nat} {prod : List (Nat × List Byte)} (h : s.Keeps t) : s.Keeps (t.formImage ch prod) := by
  unfold State.formImage
  exact h.onSaf

theorem State.Keeps.endCycle {ch : Nat} (h : s.Keeps t) : s.Keeps (t.endCycle ch) := by
  unfold State.endCycle
  exact .safetyTrip (.onSaf (h.bumpMod.when fun _ h => h.sticky))

theorem State.Keeps.crossFault {ch : Nat} (h : s.Keeps t) : s.Keeps (t.crossFault ch) := h.sticky.onSaf

theorem State.Keeps.imageAbsent {ch : Nat} (h : s.Keeps t) : s.Keeps (t.imageAbsent ch) := by
  unfold State.imageAbsent
  exact .ite h h.wrB.onSaf.crossFault

theorem State.Keeps.showPeer {ch : Nat} {p : Image} {ok : Bool} (h : s.Keeps t) : s.Keeps (t.showPeer ch p ok) := by
  unfold State.showPeer
  exact h.wr.wrB.wrB.wrB.wr.wr.when fun _ h => h.sticky

theorem State.Keeps.compareImages {ch : Nat} {o p : Image} (h : s.Keeps t) : s.Keeps (t.compareImages ch o p) := by
  unfold State.compareImages
  exact .ite h.onSaf (h.onSaf.when fun _ h => h.crossFault)

theorem State.Keeps.opSafRst {ch : Nat} {value : Word} (h : s.Keeps t) : s.Keeps (opSafRst ch value t) := by
  unfold Machine.opSafRst
  exact .ite h (.ite h.sticky h.sticky.askReset)

theorem State.Keeps.opSafConfig {ch off : Nat} {value : Word} (h : s.Keeps t) : s.Keeps (opSafConfig ch off value t) := by
  unfold Machine.opSafConfig
  exact .ite h.sticky h.putCell.showSig.onSaf

theorem State.Keeps.opSafUnauth {ch off : Nat} (h : s.Keeps t) : s.Keeps (opSafUnauth ch off t) := by
  unfold Machine.opSafUnauth
  exact h.stick.when fun _ h => h.sticky

theorem State.Keeps.opSafStop {ch : Nat} {soft : Bool} (h : s.Keeps t) : s.Keeps (opSafStop ch soft t) := h.outputsOff.lockOut.onSaf

/-! #### What the operations of Machine/SafetyLayer keep -/

theorem State.Keeps.onConn {ch c : Nat} {f : Conn → Conn} (h : s.Keeps t) : s.Keeps (t.onConn ch c f) :=
  h.onSaf

theorem State.Keeps.enterConn {ch c st : Nat} (h : s.Keeps t) : s.Keeps (t.enterConn ch c st) := h.wr.onConn.noteView

theorem State.Keeps.opSafetyCycle {ch : Nat} (h : s.Keeps t) : s.Keeps (opSafetyCycle ch t) := by
  unfold Machine.opSafetyCycle
  exact .endCycle (.formImage (.evalCycle (h.showSig.when fun _ h => h.imageAbsent)))

theorem State.Keeps.sentTelegram {c t' : Nat} {b : List Byte} (h : s.Keeps t) : s.Keeps (t.sentTelegram c t' b) := by
  unfold State.sentTelegram
  exact h.each fun _ _ _ h => h.wr.wr.onConn

theorem State.Keeps.produce {o p : Image} (h : s.Keeps t) : s.Keeps (t.produce o p) := by
  unfold State.produce
  exact h.each fun _ _ _ h => by
      dsimp only
      split
      · exact .ite h.sendFrame.sentTelegram h.sticky
      · exact h.sticky

theorem State.Keeps.opCrossImage {ch : Nat} (h : s.Keeps t) : s.Keeps (opCrossImage ch t) := by
  unfold Machine.opCrossImage
  split
  · exact h
  · split
    · exact h
    · dsimp only
      split
      · exact .ite h.onSaf.showPeer (.ite (h.onSaf.showPeer.onSaf.compareImages.when fun _ h => h.produce) h.onSaf.showPeer.imageAbsent)
      · exact h.onSaf.showPeer

theorem State.Keeps.endDegraded {ch c : Nat} (h : s.Keeps t) : s.Keeps (t.endDegraded ch c) := by
  unfold State.endDegraded
  exact .ite h.enterConn.safFault h

theorem State.Keeps.watchdog {ch c : Nat} (h : s.Keeps t) : s.Keeps (t.watchdog ch c) := by
  unfold State.watchdog
  exact .ite (.ite h.enterConn.bump.sticky.onConn.endDegraded h.enterConn.bump.sticky.onConn) h

theorem State.Keeps.validTelegram {ch c : Nat} {b : List Byte} (h : s.Keeps t) : s.Keeps (t.validTelegram ch c b) := by
  unfold State.validTelegram
  exact .ite h.wr.onConn.enterConn h.wr.onConn.noteView

theorem State.Keeps.checkTelegram {ch c : Nat} {b : List Byte} (h : s.Keeps t) : s.Keeps (t.checkTelegram ch c b) := by
  unfold State.checkTelegram
  exact .ite h.bump.sticky (.ite h.enterConn.safFault (.ite h.validTelegram (.ite h (.ite h.validTelegram h.bump.sticky))))

theorem State.Keeps.opTelegram {ch : Nat} {b : List Byte} (h : s.Keeps t) : s.Keeps (opTelegram ch b t) := by
  unfold Machine.opTelegram
  split
  · exact h.sticky
  · exact h.watchdog.endDegraded.checkTelegram

/-! #### What the operations of Machine/SelfTest keep -/

theorem State.Keeps.burnFuse {d lo v : Nat} (h : s.Keeps t) : s.Keeps (t.burnFuse d lo v) := by
  unfold State.burnFuse
  exact h.onDie (fun _ => rfl) (fun _ => rfl)

theorem State.Keeps.showFree {d : Nat} (h : s.Keeps t) : s.Keeps (t.showFree d) := h.wr

theorem State.Keeps.applyFused {d : Nat} (h : s.Keeps t) : s.Keeps (t.applyFused d) := by
  unfold State.applyFused
  refine .showFree (h.each fun v i _ h => ?_)
  extract_lets e m v1
  have h1 : s.Keeps v1 := h.when fun _ h => h.wrB
  split
  · exact h1.wr.wr
  · exact h1.wr.wr
  · exact h1.wr.wrB
  · exact h1

theorem State.Keeps.opFuseBurn {d m : Nat} (h : s.Keeps t) : s.Keeps (opFuseBurn d m t) := by
  unfold Machine.opFuseBurn
  exact .ite h.sticky h.wrB.onBist

theorem State.Keeps.opFuseDone {d : Nat} (h : s.Keeps t) : s.Keeps (opFuseDone d t) := by
  unfold Machine.opFuseDone
  split
  · exact h
  · exact .showFree (.sticky (.onBist (.wrB (h.each fun _ _ _ h => h.burnFuse))))

theorem State.Keeps.lend {d : Nat} {keys : List Nat} (h : s.Keeps t) : s.Keeps (t.lend d keys) := by
  unfold State.lend
  exact .ite h.onBist h

theorem State.Keeps.lendEngines {d : Nat} (h : s.Keeps t) : s.Keeps (t.lendEngines d) := by
  unfold State.lendEngines
  exact .ite h h.lend

theorem State.Keeps.scramble {d m w : Nat} (h : s.Keeps t) : s.Keeps (t.scramble d m w) := by
  unfold State.scramble
  exact h.each fun _ _ _ h => h.freeW.putCell

theorem State.Keeps.openSlice {d m j : Nat} (h : s.Keeps t) : s.Keeps (t.openSlice d m j) := by
  unfold State.openSlice
  exact h.each fun _ _ _ h => h.scramble

theorem State.Keeps.failMacro {d m : Nat} (h : s.Keeps t) : s.Keeps (t.failMacro d m) := by
  unfold State.failMacro
  exact h.wrB.sticky.stick.when fun _ h => h.raise

theorem State.Keeps.recordFails {d m : Nat} {fails : List FailCell} (h : s.Keeps t) : s.Keeps (t.recordFails d m fails) := by
  unfold State.recordFails
  dsimp only
  exact .stick (.sticky (.bump (by
      split
      · exact h.bump
      · exact .ite h.bump h.bump.putCell.putCell)))

theorem State.Keeps.passOn {d m j : Nat} (h : s.Keeps t) : s.Keeps (t.passOn d m j) := by
  unfold State.passOn
  dsimp only
  split
  · exact h.onBist.onBist
  · exact h.onBist.bump.wr.sticky.onBist

/-- A repair writes the MACRO_STAT of its macro. -/
theorem State.Keeps.repairOf {d m : Nat} {cells : List (Nat × Nat)} (h : s.Keeps t) (hu : t.repairOf d m cells = some u) : s.Keeps u := by
  unfold State.repairOf at hu
  dsimp only at hu
  split at hu
  · obtain rfl := Option.some.inj hu
    exact .wr (h.each fun _ _ _ h => h.wr)
  · split at hu
    · split at hu
      · cases hu
      · obtain rfl := Option.some.inj hu
        exact h.wr.wrB
    · cases hu
theorem State.Keeps.opSliceEnd {d : Nat} {fails : List FailCell} (h : s.Keeps t) : s.Keeps (opSliceEnd d fails t) := by
  unfold Machine.opSliceEnd
  split
  · exact h
  · dsimp only
    split
    · exact h
    · split
      · exact .passOn (h.wrB.wr.onBist.when fun _ h => h.sticky.stick)
      · have h1 : ∀ l f, s.Keeps (((t.wrB d Fd.BIST_STATUS.SLICE_BUSY 0 false).wr d Fd.SLICE_TIME.LAST_TICKS 0 l).onBist d f) :=
          fun _ _ => h.wrB.wr.onBist
        split
        · rename_i hfix
          split at hfix
          · cases hfix
          · exact .onBist (State.Keeps.repairOf (h.wrB.wr.onBist.recordFails.each fun _ _ _ h => h.scramble) hfix)
        · exact .passOn (.failMacro (h.wrB.wr.onBist.recordFails.each fun _ _ _ h => h.scramble))

theorem State.Keeps.opBistCtrl {d : Nat} (h : s.Keeps t) : s.Keeps (opBistCtrl d t) := by
  unfold Machine.opBistCtrl
  exact .when (h.when fun _ h => h.raise) fun _ h => h.raise

theorem State.Keeps.opBistReset {d : Nat} (h : s.Keeps t) : s.Keeps (opBistReset d t) := h.onBist

theorem State.Keeps.endTests {d : Nat} (h : s.Keeps t) : s.Keeps (t.endTests d) := by
  unfold State.endTests
  exact h.opEngineYield.when fun _ h => h.opFuseDone

/-! #### What the operations of Machine/Security keep -/

theorem State.Keeps.putBuf {d : Nat} {bytes : List Byte} (h : s.Keeps t) : s.Keeps (t.putBuf d bytes) := by
  unfold State.putBuf
  exact h.each fun _ _ _ h => h.wr

theorem State.Keeps.beginOp {d op result : Nat} {out : List Byte} (h : s.Keeps t) : s.Keeps (t.beginOp d op result out) :=
  h.wr.onSec

theorem State.Keeps.opAttest {d : Nat} (h : s.Keeps t) : s.Keeps (opAttest d t) := by
  unfold Machine.opAttest
  exact .ite h.wr (.ite h.wr.sticky h.wr.freeN.beginOp)

theorem State.Keeps.opEstablishKey {d slot : Nat} (h : s.Keeps t) : s.Keeps (opEstablishKey d slot t) := by
  unfold Machine.opEstablishKey
  exact .ite h.wr.wr (.ite h.wr.wr.sticky h.wr.wr.beginOp)

theorem State.Keeps.setKey {d : Nat} {k : List Byte} (h : s.Keeps t) : s.Keeps (t.setKey d k) := by
  unfold State.setKey
  exact h.onSec.wr.wr.sticky

theorem State.Keeps.cmdJudge {d ctr verdict : Nat} (h : s.Keeps t) : s.Keeps (t.cmdJudge d ctr verdict) := by
  unfold State.cmdJudge
  split
  · exact h.wr.wr
  · exact h.sticky
  · exact h.sticky

theorem State.Keeps.beginBurn {d op slot value : Nat} (h : s.Keeps t) : s.Keeps (t.beginBurn d op slot value) := by
  unfold State.beginBurn
  exact .ite h.sticky h.onSec

theorem State.Keeps.opFuseProgram {d slot : Nat} {auth : Bool} (h : s.Keeps t) : s.Keeps (opFuseProgram d slot auth t) := by
  unfold Machine.opFuseProgram
  exact .ite h.stick (.ite h h.beginBurn)

theorem State.Keeps.opFuseRevoke {d slot : Nat} {auth : Bool} (h : s.Keeps t) : s.Keeps (opFuseRevoke d slot auth t) := by
  unfold Machine.opFuseRevoke
  exact .ite h.stick (.ite h h.beginBurn)

theorem State.Keeps.revokeCopies {slot : Nat} (h : s.Keeps t) : s.Keeps (t.revokeCopies slot) := by
  unfold State.revokeCopies
  exact h.each fun _ _ _ h => h.onSec

theorem State.Keeps.opFuseOpDone {d : Nat} (h : s.Keeps t) : s.Keeps (opFuseOpDone d t) := by
  unfold Machine.opFuseOpDone
  split
  · exact h
  · exact .sticky (.onSec (h.burnFuse.when fun _ h => h.revokeCopies))

theorem State.Keeps.endBurn {d : Nat} (h : s.Keeps t) : s.Keeps (t.endBurn d) := by
  unfold State.endBurn
  exact h.when fun _ h => h.opFuseOpDone

theorem State.Keeps.opSecReset {d : Nat} (h : s.Keeps t) : s.Keeps (opSecReset d t) := by
  unfold Machine.opSecReset
  exact .onSec (h.when fun _ h => h.imgEnd)

/-! #### What the operations of Machine/Startup keep -/

theorem State.Keeps.openSlices {old : State} {l : List Nat} (h : s.Keeps t) : s.Keeps (t.openSlices old l) := by
  unfold State.openSlices
  exact h.each fun _ _ _ h => h.openSlice

/-- The dies of a part after a reset: what remains of their registers is canonical, and their DRAM is empty. -/
theorem State.Sound.of_toReset {powerUp : Bool} (h : s.Sound) (h1 : t.part = s.part) (h2 : t.sum = [])
    (h3 : t.dies = s.dies.map (Die.toReset powerUp)) : t.Sound := by
  obtain ⟨hn, -, hc⟩ := h
  refine ⟨by unfold State.shaped at *; rw [h1, h3, List.length_map]; exact hn, by rw [h2]; exact Cells.canonical_nil _, fun d hd => ?_⟩
  have hl : d < s.dies.length := by rw [of_decide_eq_true hn]; exact h1 ▸ hd
  have hdie : t.die d = (s.die d).toReset powerUp := by
    unfold State.die
    rw [h3, List.getD_eq_getElem _ _ (by rwa [List.length_map]), List.getElem_map, List.getD_eq_getElem _ _ hl]
  have hcells := (hc d (h1 ▸ hd)).1
  unfold State.CanonicalDie State.dflt at *
  rw [hdie, h1]
  refine ⟨?_, ⟨List.Pairwise.nil, fun _ he => absurd he List.not_mem_nil⟩⟩
  show Cells.Canonical _ (if powerUp then [] else _)
  split
  · exact Cells.canonical_nil _
  · exact Cells.canonical_filter _ hcells
theorem State.Keeps.resetAll {new : DevState} {powerUp : Bool} (h : s.Keeps t) : s.Keeps (t.resetAll new powerUp) := by
  have h1 : ∀ v : State, v.part = t.part → v.pending = t.pending → v.sum = [] → v.dies = t.dies.map (Die.toReset powerUp) → s.Keeps v :=
    fun v hp hq hs hd => h.trans ⟨hp, hq, by rw [hd, List.length_map], fun ht => ht.of_toReset hp hs hd⟩
  unfold State.resetAll
  exact .ite (h1 _ rfl rfl rfl rfl) (.openSlices (h1 _ rfl rfl rfl rfl))

theorem State.Keeps.lowerPins {d : Nat} (h : s.Keeps t) : s.Keeps (t.lowerPins d) := by
  unfold State.lowerPins
  exact .ite (.congr h rfl rfl rfl rfl) (.ite (.congr h rfl rfl rfl rfl) h)

theorem State.Keeps.toReset {d : Nat} {powerUp : Bool} (h : s.Keeps t) : s.Keeps (t.onDie d (Die.toReset powerUp)) := by
  refine h.trans ⟨rfl, rfl, State.onDie_length .., fun hs => hs.onDie d _ (fun hc => ?_) fun _ => ?_⟩
  · show Cells.Canonical _ (if powerUp then [] else _)
    split
    · exact Cells.canonical_nil _
    · exact Cells.canonical_filter _ hc
  · exact ⟨List.Pairwise.nil, fun _ he => absurd he List.not_mem_nil⟩

/-- A summary page of fewer words is as canonical. -/
theorem State.Keeps.sumOf (h : s.Keeps t) (h1 : u.part = t.part) (h2 : u.pending = t.pending) (h3 : u.dies = t.dies)
    (h4 : Cells.Canonical sumDflt t.sum → Cells.Canonical sumDflt u.sum) : s.Keeps u := by
  have h5 : s.Keeps { t with sum := u.sum } := h.trans ⟨rfl, rfl, rfl, fun hs => ⟨hs.1, h4 hs.2.1, hs.2.2⟩⟩
  exact h5.congr h1 h2 rfl h3

theorem State.Keeps.shortPulse (h : s.Keeps t) : s.Keeps t.shortPulse := by
  unfold State.shortPulse
  extract_lets +onlyGivenNames r hit t1 t2 t3
  have h1 : s.Keeps t1 := h.freeN.each fun _ _ _ h => h.toReset.lowerPins
  have h2 : s.Keeps t2 := by
    refine h1.sumOf rfl rfl rfl fun hc => ?_
    show Cells.Canonical _ (if hit.isEmpty then _ else _)
    split
    · exact hc
    · exact Cells.canonical_filter _ hc
  have h3 : s.Keeps t3 := .ite (h2.sumOf rfl rfl rfl fun _ => Cells.canonical_nil _) h2
  exact h3.openSlices

theorem State.Keeps.endHold1 {d : Nat} (h : s.Keeps t) : s.Keeps (t.endHold1 d) := by
  unfold State.endHold1
  exact .onClk (.applyStraps (h.onDie (fun _ => rfl) (fun _ => rfl)))

theorem State.Keeps.enterBoot {d : Nat} (h : s.Keeps t) : s.Keeps (t.enterBoot d) := by
  unfold State.enterBoot
  exact .when (.onDie (.ite (.congr h rfl rfl rfl rfl) h) (fun _ => rfl) (fun _ => rfl)) fun _ h => h.sticky

theorem State.Keeps.trainLinks {d : Nat} {links : BitVec 3} (h : s.Keeps t) : s.Keeps (t.trainLinks d links) := by
  unfold State.trainLinks
  exact h.each fun _ _ _ h => .ite h (.ite h.wrB h.sticky.raise)

theorem State.Keeps.drawEpoch (h : s.Keeps t) : s.Keeps t.drawEpoch := by
  unfold State.drawEpoch
  exact h.freeN.wr

theorem State.Keeps.bootDie {d : Nat} {links : BitVec 3} (h : s.Keeps t) : s.Keeps (t.bootDie d links) := by
  unfold State.bootDie
  exact .onDie (.wrB (.wr (.when (.ite (.drawEpoch (h.applyFused.when fun _ h => h.onSec)) (h.applyFused.when
    fun _ h => h.onSec)) fun _ h => h.trainLinks.wrB))) (fun _ => rfl) (fun _ => rfl)

theorem State.Keeps.holdBoot {on : Bool} (h : s.Keeps t) : s.Keeps (t.holdBoot on) := by
  unfold State.holdBoot
  exact h.each fun _ _ _ h => h.wrB

theorem State.Keeps.opBootGo (h : s.Keeps t) : s.Keeps (opBootGo t) := by
  unfold Machine.opBootGo
  exact .ite h.holdBoot.enter h

theorem State.Keeps.refuseState (h : s.Keeps t) : s.Keeps t.refuseState := h.sticky

theorem State.Keeps.armTo {new : DevState} (h : s.Keeps t) : s.Keeps (t.armTo new) := by
  unfold State.armTo
  exact .ite (.armCollectors (.congr h rfl rfl rfl rfl)) (.ite h.armCollectors.opLocalLatch.lockOutDevice h.enter)

theorem State.Keeps.opStateCmd {target : Nat} (h : s.Keeps t) : s.Keeps (opStateCmd target t) := by
  unfold Machine.opStateCmd
  split
  · exact h.refuseState
  · split
    · exact .ite h h.refuseState
    · split
      · exact h.refuseState
      · exact .ite h.refuseState (.ite h.armTo h.enter)

theorem State.Keeps.opStateCmdWrite {target : Nat} (h : s.Keeps t) : s.Keeps (opStateCmdWrite target t) := by
  unfold Machine.opStateCmdWrite
  exact .congr h rfl rfl rfl rfl

theorem State.Keeps.takeCmd {target : Nat} (h : s.Keeps t) : s.Keeps (t.takeCmd target) := by
  unfold State.takeCmd
  exact .ite h (.ite h.opStateCmd (.congr h.opStateCmd rfl rfl rfl rfl))

theorem State.Keeps.takeCmds (h : s.Keeps t) : s.Keeps t.takeCmds := by
  unfold State.takeCmds
  exact .when (.congr h rfl rfl rfl rfl) fun _ h => h.each fun _ _ _ h => h.takeCmd

theorem State.Keeps.opCollectorArm (h : s.Keeps t) : s.Keeps (opCollectorArm t) := by
  unfold Machine.opCollectorArm
  split
  · exact h
  · exact .ite h (.congr h.enter rfl rfl rfl rfl)

theorem State.Keeps.endFaults (h : s.Keeps t) : s.Keeps t.endFaults := by
  unfold State.endFaults
  exact .when (h.each fun _ _ _ h => h.opLocalLatch) fun _ h => h.opPackageRecord.opCollectorArm

/-! #### What the operations of Machine/Thermal keep -/

theorem State.Keeps.onThm {d : Nat} {f : Thm → Thm} (h : s.Keeps t) : s.Keeps (t.onThm d f) := by
  unfold State.onThm
  exact h.onDie (fun _ => rfl) (fun _ => rfl)

theorem State.Keeps.showSensor {d : Nat} (h : s.Keeps t) : s.Keeps (t.showSensor d) := h.source

theorem State.Keeps.judge {d : Nat} {fails : Bool} (h : s.Keeps t) : s.Keeps (t.judge d fails) := by
  unfold State.judge
  exact .ite (.showSensor (h.onThm.wrB.when fun _ h => h.sticky.bump)) (.ite (.ite h.onThm.wrB.lower h.onThm) h)

theorem State.Keeps.throttleFrom {d : Nat} (h : s.Keeps t) : s.Keeps (t.throttleFrom d) := by
  unfold State.throttleFrom
  exact .markThrottled (h.onDie (fun _ => rfl) (fun _ => rfl))

theorem State.Keeps.enterLevel {d i : Nat} (h : s.Keeps t) : s.Keeps (t.enterLevel d i) := by
  unfold State.enterLevel
  extract_lets +onlyGivenNames _ t2
  have h2 : s.Keeps t2 := .stick (.wrB (h.when fun _ h => h.throttleFrom))
  split
  · exact h2.bump
  · exact h2.raise
  · exact h2

theorem State.Keeps.level {d : Nat} {eff : Int} {i : Nat} (h : s.Keeps t) : s.Keeps (t.level d eff i) := by
  unfold State.level
  extract_lets +onlyGivenNames _ _ _ _ a b t1 held
  have h1 : s.Keeps t1 := h.onThm
  clear_value t1 a b
  split
  · exact .ite h1.enterLevel h1
  · exact .ite h1.wrB h1
  · exact h1

theorem State.Keeps.opTempSample {d : Nat} {raws : List Int} (h : s.Keeps t) : s.Keeps (opTempSample d raws t) := by
  unfold Machine.opTempSample
  extract_lets +onlyGivenNames _ _ _ _ _ _ _ t4
  have h4 : s.Keeps t4 := .level (.level (.level (.judge (h.onThm.when fun _ h => h.sticky))))
  exact .ite h4.onThm.wrS.wrS.wrS.wrS.wrS.wrS h4.onThm.wrS.wrS.wrS.wrS.setNodeField

theorem State.Keeps.opThmReset {d shut : Nat} (h : s.Keeps t) : s.Keeps (opThmReset d shut t) := h.onThm.wr.lower

/-! #### What the operations of Machine/PageCtrl keep -/

theorem State.Keeps.dropPage {d page : Nat} (h : s.Keeps t) : s.Keeps (t.dropPage d page) := by
  unfold State.dropPage
  exact h.dropCells.applyStraps

theorem State.Keeps.safReset {d : Nat} (h : s.Keeps t) : s.Keeps (t.safReset d) := by
  unfold State.safReset
  exact .ite h h.safetyStart.outputsOff.lockOut.onSaf

theorem State.Keeps.recReset {d : Nat} (h : s.Keeps t) : s.Keeps (t.recReset d) := by
  unfold State.recReset
  exact h.wr.opRecReset.wr

theorem State.Keeps.netReset {d : Nat} (h : s.Keeps t) : s.Keeps (t.netReset d) := by
  unfold State.netReset
  exact .ite h.wrB.opNetReset (h.wrB.opNetReset.each fun _ _ _ h => .congr h rfl rfl rfl rfl)

theorem State.Keeps.bistReset {d : Nat} (h : s.Keeps t) : s.Keeps (t.bistReset d) := h.cutTest.dropPage.opBistReset.showFree

theorem State.Keeps.softReset {d page : Nat} (h : s.Keeps t) : s.Keeps (t.softReset d page) := by
  unfold State.softReset
  split
  · exact h.nimgEnd.dropPage
  · exact h.dropPage.opAngReset
  · exact h.dropPage.opAtrReset
  · exact h.dropPage.opMfeReset
  · exact h.dropPage.opLeReset
  · exact h.dropPage.opEpReset
  · exact h.opRingReset.dropPage.when fun _ h => h.wr
  · exact .ite h.dropPage h.dropPage.opGuardReset
  · exact h.dropPage.netReset
  · exact h.dropPage.safReset
  · exact h.dropPage.opThmReset
  · exact h.bistReset
  · exact h.opSecReset.dropPage
  · exact h.dropPage.recReset
  · exact h.dropPage.opFabReset
  · exact h.dropPage

theorem State.Keeps.blockTurn {d page : Nat} {on : Bool} (h : s.Keeps t) : s.Keeps (t.blockTurn d page on) := by
  unfold State.blockTurn
  split
  · exact .ite (h.onDie (fun _ => rfl) (fun _ => rfl)) h
  · exact h.opAtrEn
  · exact h.opMfeEn
  · exact .ite h h.leStop
  · exact .ite h.opRingEn (.ite h.modeChange h.modeChange)
  · exact .ite h h.opGuardOff
  · exact .ite h h.netDown
  · exact .ite h h.opSafStop
  · exact .ite h.opLedgerEn h
  · exact .ite h.opFabEn h
  · exact h

theorem State.Keeps.opPageCtrl {d page : Nat} {value : Word} (h : s.Keeps t) : s.Keeps (opPageCtrl d page value t) := by
  unfold Machine.opPageCtrl
  extract_lets +onlyGivenNames _ _ _ _ t2
  have h2 : s.Keeps t2 := .when (h.when fun _ h => h.softReset.endMisuse) fun _ h => h.putCell
  exact .ite h2 h2.blockTurn

theorem State.Keeps.opSumCtrl {value : Word} (h : s.Keeps t) : s.Keeps (opSumCtrl value t) := by
  unfold Machine.opSumCtrl
  exact .when (h.when fun _ h => h.dropSum) fun _ h => h.putSum

theorem State.Keeps.opStickyClear {d page : Nat} {mask : Word} (h : s.Keeps t) : s.Keeps (opStickyClear d page mask t) := by
  unfold Machine.opStickyClear
  exact .when (h.putCell.each fun _ _ _ h => h.stick) fun _ h => h.each fun _ _ _ h => h.wr

theorem State.Keeps.opSumSticky {mask : Word} (h : s.Keeps t) : s.Keeps (opSumSticky mask t) := h.putSum

/-! #### What the operations of Machine/Bus keep -/

theorem State.Keeps.guardReject {d page off : Nat} {v : Word} (h : s.Keeps t) : s.Keeps (t.guardReject d page off v) := by
  unfold State.guardReject
  exact .ite h.opSafUnauth (.ite h.opFuseProgram h.stick)

theorem State.Keeps.plainWrite {d page off : Nat} {v : Word} (h : s.Keeps t) : s.Keeps (t.plainWrite d page off v) := by
  unfold State.plainWrite
  split
  · exact h
  · exact h.putCell

theorem State.Keeps.opMsArmWord {d : Nat} {v : Word} (h : s.Keeps t) : s.Keeps (opMsArmWord d v t) := by
  unfold Machine.opMsArmWord
  dsimp only
  split
  · exact h.opMsArm
  · exact h.opMsArm
  · exact h.opMsArm
  · exact h

theorem State.Keeps.writeHeader {d page off : Nat} {v : Word} (h : s.Keeps t) : s.Keeps (writeHeader d page off v t) := by
  unfold Machine.writeHeader
  split
  · exact h.opPageCtrl
  · exact h.opStickyClear
  · exact h.putCell
  · exact h

theorem State.Keeps.writeSummary {off : Nat} {v : Word} (h : s.Keeps t) : s.Keeps (writeSummary off v t) := by
  unfold Machine.writeSummary
  split
  · exact h.opSumCtrl
  · exact h.opSumSticky
  · exact h.putSum
  · exact h.putSum
  · exact h

theorem State.Keeps.addrErr {x : Spot} (h : s.Keeps t) : s.Keeps (t.addrErr x) := by
  unfold State.addrErr
  exact h.when fun _ h => h.sumStick

theorem State.Keeps.lendSpot {a : Spot} (h : s.Keeps t) : s.Keeps (t.lendSpot a) := by
  unfold State.lendSpot
  split
  · exact h.lend
  · exact h.lend
  · exact h.lend
  · exact h

theorem State.Keeps.hostData {d key : Nat} {v : Word} (h : s.Keeps t) : s.Keeps (t.hostData d key v) := by
  unfold State.hostData
  exact h.putCell.when fun _ h => h.onDie (fun _ => rfl) (fun _ => rfl)

theorem State.Keeps.readAt {addr : Word} (h : s.Keeps t) : s.Keeps (readAt addr t).2 := by
  unfold Machine.readAt
  dsimp only
  split
  · exact h.freeW
  · split
    · split
      · exact h.opWinRead
      · exact .snd h
    · exact .snd h

/-! #### What the operations of Machine/Access keep -/

theorem State.Keeps.answer {data : Word} {marker : BitVec 4} (h : s.Keeps t) : s.Keeps (t.answer data marker) := by
  unfold State.answer
  exact .congr h rfl rfl rfl rfl

theorem State.Keeps.frameErr (h : s.Keeps t) : s.Keeps t.frameErr := h.sumStick

/-- What the port agent reads leaves (R44-R47). -/
theorem State.Keeps.agentRead {addr : Word} (h : s.Keeps t) : s.Keeps (agentRead addr t).2.2 := by
  unfold Machine.agentRead
  dsimp only
  split
  · exact h.addrErr.lendSpot.readAt
  · exact h
  · exact h.sumStick
theorem State.Keeps.opReadWord {addr : Word} (h : s.Keeps t) : s.Keeps (opReadWord addr t) := by
  unfold Machine.opReadWord
  exact .ite h (.ite h.frameErr h.agentRead.answer)

theorem State.Keeps.unanswered {old : State} (h : s.Keeps t) : s.Keeps (old.unanswered t) :=
  .congr h rfl rfl rfl rfl

theorem State.Keeps.mgmtReject {d : Nat} (h : s.Keeps t) : s.Keeps (t.mgmtReject d) := h.sticky

theorem State.Keeps.powerPage {d page : Nat} (h : s.Keeps t) : s.Keeps (t.powerPage d page) := by
  unfold State.powerPage
  exact .ite h.putCell h.freeN.putCell

theorem State.Keeps.opPower {d : Nat} (h : s.Keeps t) : s.Keeps (opPower d t) := by
  unfold Machine.opPower
  exact .ite (h.each fun _ _ _ h => h.powerPage) (.setNodeField (h.each fun _ _ _ h => h.powerPage))

/-! #### What the operations of Machine/Tap keep -/

theorem State.Keeps.padTick (h : s.Keeps t) : s.Keeps t.padTick := by
  unfold State.padTick
  exact .congr h rfl rfl rfl rfl

theorem State.Keeps.captureCells (h : s.Keeps t) : s.Keeps t.captureCells.2 := by
  refine .foldl (p := Prod.snd) h fun x a h => ?_
  dsimp only
  split
  · exact h
  · exact h.freeN

theorem State.Keeps.onTap {f : Tap → Tap} (h : s.Keeps t) : s.Keeps (t.onTap f) := by
  unfold State.onTap
  exact .congr h rfl rfl rfl rfl

theorem State.Keeps.tapEdge {tms tdi : Bool} (h : s.Keeps t) : s.Keeps (t.tapEdge tms tdi) := by
  unfold State.tapEdge
  dsimp only
  exact .onTap (by
      split
      · exact .ite h.captureCells.onTap h.onTap
      · exact h.onTap
      · exact h.onTap
      · exact h.onTap
      · exact h)

theorem State.Keeps.tapTake {i : TapIn} (h : s.Keeps t) : s.Keeps (t.tapTake i) := by
  unfold State.tapTake
  split
  · exact h.onTap
  · exact h.tapEdge.onTap

theorem State.Keeps.tapTick (h : s.Keeps t) : s.Keeps t.tapTick := by
  unfold State.tapTick
  split
  · exact .ite h.onTap.tapTake h.onTap
  · exact h.onTap

/-! #### What the operations of Machine/Tick keep -/

theorem State.Keeps.dieStart {d : Nat} (h : s.Keeps t) : s.Keeps (t.dieStart d) := h.msStart.leStart

theorem State.Keeps.advanceDie {d : Nat} (h : s.Keeps t) : s.Keeps (t.advanceDie d) := by
  unfold State.advanceDie
  exact h.onDie (fun _ => rfl) (fun _ => rfl)

theorem State.Keeps.endPulses (h : s.Keeps t) : s.Keeps t.endPulses := by
  unfold State.endPulses
  exact .driveTp (.when (h.each fun _ _ _ h => h.when fun _ h => h.endDark) fun _ h => h.onSaf)

theorem State.Keeps.tick (h : s.Keeps t) : s.Keeps (tick t) := by
  unfold Machine.tick
  extract_lets +onlyGivenNames _ t2 t3 live t4 t5 t6 t7 t8 t9 t10 t11 t12
  have h2 : s.Keeps t2 := .each (h.when fun _ h => h.tapTick.padTick) fun _ _ _ h => h.endSample
  have h5 : s.Keeps t5 := (h2.endFaults.endLedger.each fun _ _ _ h => h.endTests.endBurn).each fun _ _ _ h => h.dieStart
  have h7 : s.Keeps t7 := .each (.congr h5 rfl rfl rfl rfl) fun _ _ _ h => h.advanceDie.detect
  have h10 : s.Keeps t10 := (h7.leComplete.takeCmds.fabricSlot.each
    fun _ _ _ h => h.mfeStart.lendEngines).applyRearm.endPulses.openSlots.ppsTick
  have h12 : s.Keeps t12 := (h10.when fun _ h => h.gateTick.followPins).when fun _ h => h.nodeChanges.applyAdjust
  exact .ite h2 (h12.when fun _ h => h.discStep)

/-! #### What the operations of Machine/Step keep -/

theorem State.Keeps.takeKept {d : Nat} {p : Handler} {k : Kept} (h : s.Keeps t) (hu : t.takeKept d p = some (k, u)) : s.Keeps u := by
  unfold State.takeKept at hu
  obtain ⟨e, -, he⟩ := Option.map_eq_some_iff.1 hu
  cases he
  exact h.onNet


end Sys2Proof.Machine

namespace Sys2Proof.Machine
variable {s t u : State}

/-! ### Operations that may end a command

Within a command every operation answers a next state; the faults of the model come from the misuse that stands, at the front of `exec`. -/

/-- A result that is a next state, to which s keeps what `State.Keeps` names. -/
def State.Answers (s : State) (r : Res) : Prop := ∃ u, r = .next u ∧ s.Keeps u

/-- A register's own effect, if it has one, answers. -/
def State.MayAnswer (s : State) (o : Option Res) : Prop := ∀ r, o = some r → s.Answers r

/-- A command answers, or it faults under the misuse that stands first. -/
def State.Ends (s : State) (r : Res) : Prop := s.Answers r ∨ ∃ m, s.misused.head? = some m ∧ r = .fault (.misuse m.1)

namespace State.Answers

variable {r r' : Res}

theorem next (h : s.Keeps t) : s.Answers (.next t) := ⟨t, rfl, h⟩

theorem ite {c : Prop} [Decidable c] (h : s.Answers r) (k : s.Answers r') : s.Answers (if c then r else r') := by
  split
  · exact h
  · exact k

theorem bind {f : State → Res} (h : s.Answers r) (hf : ∀ v, s.Keeps v → s.Answers (f v)) : s.Answers (Res.bind r f) := by
  obtain ⟨v, rfl, hv⟩ := h
  exact hf v hv

theorem eachRes {α : Type} {f : State → α → Res} {l : List α} (hf : ∀ v a, s.Keeps v → s.Answers (f v a)) (h : s.Keeps t) :
    s.Answers (eachRes f l t) := by
  induction l generalizing t with
  | nil => exact .next h
  | cons a l ih => exact (hf t a h).bind fun v hv => ih hv

theorem setInst {d e i n : Nat} {x : Inst} (h : s.Keeps t) : s.Answers (t.setInst d e i n x) := .next h.onInst

theorem storeState {d e i n off : Nat} {x y : Inst} {vals : List (BitVec 16)} (h : s.Keeps t) :
    s.Answers (t.storeState d e i n x y off vals) := setInst (h.onDie (fun _ => rfl) (fun _ => rfl))

theorem opEnd {d e i : Nat} (h : s.Keeps t) : s.Answers (opEnd d e i t) := .next h.onInst

theorem opImgWord {d : Nat} {w : Word} (h : s.Keeps t) : s.Answers (opImgWord d w t) := by
  unfold Machine.opImgWord
  refine .ite (.next h) ?_
  extract_lets _ t1 _ x clash
  have h1 : s.Keeps t1 := h.onSec.bump
  exact .ite (.next h1.misuse) (.next (h1.imgPut.when fun _ h => h.wr))

theorem takeImage {b : RingBlock} (h : s.Keeps t) : s.Answers (takeImage b t) := by
  unfold Machine.takeImage
  extract_lets _ t1 t2
  have h1 : s.Keeps t1 := .ite h.opImgStart.onNode h
  exact .ite (.next h1.opImgAbort) (eachRes (fun _ _ h => opImgWord h) h1.onNode)

theorem opImage {r : Ring} {b : RingBlock} (h : s.Keeps t) : s.Answers (opImage r b t) :=
  .ite (takeImage h.nodeReceive) (.next h.nodeReceive)

theorem opEnumGo {d : Nat} (h : s.Keeps t) : s.Answers (opEnumGo d t) :=
  .ite (.next h.misuse) (.ite (.next h.onHead) (.next h.sticky))

theorem opRingCtrl {d : Nat} {v : Word} (h : s.Keeps t) : s.Answers (opRingCtrl d v t) :=
  .ite (.next h) (.ite (opEnumGo h.opMode) (.next h.opMode))

end State.Answers

namespace State.MayAnswer

variable {r : Res} {o o' : Option Res}

theorem none : s.MayAnswer none := fun _ h => nomatch h

theorem some (h : s.Answers r) : s.MayAnswer (some r) := by
  rintro _ ⟨⟩
  exact h

theorem next (h : s.Keeps t) : s.MayAnswer (.some (.next t)) := .some (.next h)

theorem ite {c : Prop} [Decidable c] (h : s.MayAnswer o) (k : s.MayAnswer o') : s.MayAnswer (if c then o else o') := by
  split
  · exact h
  · exact k

variable {d off : Nat} {v : Word}

theorem writeDie (h : s.Keeps t) : s.MayAnswer (writeDie d off v t) := by
  unfold Machine.writeDie
  split
  · exact .next (.ite h.opStateCmdWrite h)
  · exact .next (.ite h.opBootGo h)
  · exact .next (.ite ((h.when fun _ h => h.nimgEnd).when fun _ h => h.opNimgGo) h)
  · exact .ite .none (.next h)
  · exact .none

theorem writeClk (h : s.Keeps t) : s.MayAnswer (writeClk d off v t) :=
  .ite (.next ((h.plainWrite.when fun _ h => h.opUpdate).when fun _ h => h.opRefReturn)) .none

theorem writeAng (h : s.Keeps t) : s.MayAnswer (writeAng d off v t) := by
  refine .ite (.next h.opSnapSel) (.ite (.next h.opMsArmWord) (.ite ?_ .none))
  split
  · exact .next h.opDomainChange
  · exact .next h

theorem writeAtr (h : s.Keeps t) : s.MayAnswer (writeAtr d off v t) := by
  unfold Machine.writeAtr
  refine .ite .none ?_
  split
  · exact .next (.ite h.opRestart h)
  · exact .none

theorem writeMfe (h : s.Keeps t) : s.MayAnswer (writeMfe d off v t) :=
  .ite (.next h.opSdcCfg) (.ite (.next h.opChEn) (.ite (.next (h.opChWrite fun _ h => h.plainWrite)) .none))

theorem writeLe (h : s.Keeps t) : s.MayAnswer (writeLe d off v t) :=
  .ite (.next h.opSlotEn) (.ite (.next h.opSlotEn)
    (.ite (.ite (.next h.misuse) (.ite (.next h.opSlotCasc) .none)) (.ite (.next h.opSps) .none)))

theorem writeRing (h : s.Keeps t) : s.MayAnswer (writeRing d off v t) :=
  .ite (.some (.opRingCtrl h)) (.ite (.ite (.next h) (.ite (.next h.misuse) .none))
    (.ite (.next (.ite h.opRemote h)) (.ite (.next h.opRres) .none)))

theorem writeBg (h : s.Keeps t) : s.MayAnswer (writeBg d off v t) :=
  .ite .none (.ite (.next h.opBgSrc) (.ite (.next h.opUnlock) (.ite (.next h.plainWrite.opBgLeg) (.ite
    (.next h.plainWrite.opBgGcfg) .none))))

theorem writeNet (h : s.Keeps t) : s.MayAnswer (writeNet d off v t) := by
  refine .ite (.ite (.next h.plainWrite) .none) (.ite (.next (.ite h.opMdio h)) (.ite .none (.ite (.next h)
    (.ite (.next h.plainWrite.opPpsCfg) (.ite (.next h.plainWrite.showHold) (.ite ?_ .none))))))
  split
  · exact .next h.opTdCtrl
  · exact .next h.opTdTrim
  · exact .none

theorem writeSaf (h : s.Keeps t) : s.MayAnswer (writeSaf d off v t) :=
  .ite (.ite .none (.next h)) (.ite .none (.ite (.next h.opSafRst) (.ite (.next h.opSafConfig) .none)))

theorem writeFlt (h : s.Keeps t) : s.MayAnswer (writeFlt d off v t) := by
  unfold Machine.writeFlt
  split
  · exact .next (.ite h.opClear h)
  · exact .next h.opFfReact
  · exact .none

theorem writeThm (h : s.Keeps t) : s.MayAnswer (writeThm d off v t) :=
  .ite (.next h.plainWrite.showSensor) (.ite .none (.ite (.next h) (.next h.plainWrite.onThm)))

theorem writeBist (h : s.Keeps t) : s.MayAnswer (writeBist d off v t) := by
  unfold Machine.writeBist
  split
  · exact .next h.plainWrite.opBistCtrl
  · exact .next (.ite h.opFuseBurn h)
  · exact .ite .none (.next h)
  · exact .ite .none (.next h)
  · exact .none

theorem writeSec (h : s.Keeps t) : s.MayAnswer (writeSec d off v t) := by
  unfold Machine.writeSec
  split
  · exact .next ((h.plainWrite.when fun _ h => h.opImgAbort).when fun _ h => h.opImgStart)
  · exact .some (.opImgWord h)
  · refine .next (.ite h.plainWrite ?_)
    split
    · exact h.plainWrite.opAttest
    · exact h.plainWrite.opEstablishKey
    · exact h.plainWrite
  · refine .next (.ite h ?_)
    split
    · exact h.opFuseProgram
    · exact h.opFuseRevoke
    · exact h
  · exact .none

theorem writeRec (h : s.Keeps t) : s.MayAnswer (writeRec d off v t) :=
  .ite (.ite .none (.next h)) (.ite (.next ((h.plainWrite.opLedgerEn.when fun _ h => h.opTrig).when fun _ h => h.opRearm))
    (.ite (.next h.opPart) (.ite (.next h.opWinWrite) .none)))

theorem writeFab (h : s.Keeps t) : s.MayAnswer (writeFab d off v t) := .ite (.next h.opResEntry) .none

theorem writeSpecial {page : Nat} (h : s.Keeps t) : s.MayAnswer (writeSpecial d page off v t) := by
  unfold Machine.writeSpecial
  split
  · exact writeDie h
  · exact writeClk h
  · exact writeAng h
  · exact writeAtr h
  · exact writeMfe h
  · exact writeLe h
  · exact writeRing h
  · exact writeBg h
  · exact writeNet h
  · exact writeSaf h
  · exact writeFlt h
  · exact writeThm h
  · exact writeBist h
  · exact writeSec h
  · exact writeRec h
  · exact writeFab h
  · exact .none

end State.MayAnswer

/-! ### Writes at the register agent -/

namespace State.Answers

theorem writeReg {d page off : Nat} {v : Word} (h : s.Keeps t) : s.Answers (writeReg d page off v t) := by
  unfold Machine.writeReg
  split
  · next hr => exact State.MayAnswer.writeSpecial h _ hr
  · exact .next h.plainWrite

theorem writeEntry {d key : Nat} {v : Word} (h : s.Keeps t) : s.Answers (writeEntry d key v t) := by
  unfold Machine.writeEntry
  dsimp only
  split
  · exact .next h
  · exact .ite (.next h) (.ite (.next h.misuse) (.next h.putCell))

theorem throughAgent {write : State → Res} {addr : Word} (h : s.Keeps t) (hw : ∀ v, s.Keeps v → s.Answers (write v)) :
    s.Answers (throughAgent write addr t) := by
  unfold Machine.throughAgent
  dsimp only
  split
  · exact hw _ h.addrErr.lendSpot
  · exact (hw _ h.lendSpot).bind fun _ h => .next h.sumStick
  · exact .next h.sumStick
  · exact .next h

theorem writeSpot {auth : Bool} {x : Spot} {v : Word} {go : Nat → State → Res} (h : s.Keeps t)
    (hg : ∀ d, s.Answers (go d t)) : s.Answers (writeSpot auth x v go t) := by
  refine .ite (.next h) ?_
  split
  · exact .next h
  · exact .next h.writeSummary
  · exact .next h.stick
  · exact .next h.hostData
  · exact writeEntry h
  · exact .ite (.next h.writeHeader) (.ite (.next (.ite h h.opContext))
      (.ite (.next h.guardReject) (.ite (.ite (hg _) (.next h)) (writeReg h))))

theorem authGo {write : Word → Word → State → Res} {d : Nat} (h : s.Keeps t) (hw : ∀ a w v, s.Keeps v → s.Answers (write a w v)) :
    s.Answers (authGo write d t) := .ite (hw _ _ _ h.cmdJudge.wr) (.next h.cmdJudge.wr)

theorem writeAt {n : Nat} {auth : Bool} {addr v : Word} (h : s.Keeps t) : s.Answers (writeAt n auth addr v t) := by
  induction n generalizing t auth addr v with
  | zero => exact writeSpot h fun _ => .next h
  | succ n ih => exact writeSpot h fun _ => authGo h fun _ _ _ h => throughAgent h fun _ h => ih h

theorem agentWrite {auth : Bool} {addr v : Word} (h : s.Keeps t) : s.Answers (agentWrite auth addr v t).2 :=
  throughAgent h fun _ h => writeAt h

variable {addr data : Word}

theorem opWriteWord (h : s.Keeps t) : s.Answers (opWriteWord addr data t) :=
  .ite (.next h) (.ite (.next h.frameErr) ((agentWrite h).bind fun _ h => .next h.answer))

theorem opFrameAbort {cmd : Byte} {phase : FramePhase} (h : s.Keeps t) : s.Answers (opFrameAbort cmd addr data phase t) := by
  refine .ite (.next h) (.ite (.next h.frameErr) ?_)
  split
  · exact .next h
  · exact .ite (.next h.opReadWord.unanswered) ((opWriteWord h).bind fun _ h => .next h.unanswered)

theorem opRegTimeout {write : Bool} (h : s.Keeps t) : s.Answers (opRegTimeout write addr data t) :=
  .ite (.next h) (.ite ((agentWrite h).bind fun _ h => .next h.sumStick.answer) (.next h.agentRead.sumStick.answer))

theorem opRegisterWrite (h : s.Keeps t) : s.Answers (opRegisterWrite addr data t) := by
  unfold Machine.opRegisterWrite
  split
  · exact .ite (writeAt h) (.next h)
  · exact .ite (writeAt h) (.next h)

theorem authWrite (h : s.Keeps t) : s.Answers (authWrite addr data t) := agentWrite h

theorem applyEntries {d : Nat} {l : List (Nat × Word)} (h : s.Keeps t) : s.Answers (applyEntries d l t) := by
  induction l generalizing t with
  | nil => exact .next h
  | cons e l ih => exact (agentWrite h).bind fun _ h => ih (h.when fun _ h => h.sticky)

theorem opImageVerified {d : Nat} (h : s.Keeps t) : s.Answers (opImageVerified d t) :=
  .ite (.next h) (.ite (applyEntries h.imgEnd) (.next h.imgEnd))

/-- The entries of a management frame, executed in order, answer. -/
theorem mgmtRun {l : List MgmtEntry} {done : List Byte} (h : s.Keeps t) :
    ∃ out u, mgmtRun l done t = .next (out, u) ∧ s.Keeps u := by
  induction l generalizing done t with
  | nil => exact ⟨done, t, rfl, h⟩
  | cons e l ih =>
    unfold Machine.mgmtRun
    split
    · exact ih h.agentRead
    · split
      · obtain ⟨v, hr, hv⟩ := agentWrite (auth := true) (addr := e.addr) (v := e.data) h
        dsimp only
        rw [hr]
        exact ih hv
      · exact ih h.freeN

theorem opManagement {d : Nat} {k : Kept} (h : s.Keeps t) : s.Answers (opManagement d k t) := by
  refine .ite (.next h.mgmtReject) (.ite (.next h.cmdJudge.mgmtReject) ?_)
  obtain ⟨out, v, hr, hv⟩ := mgmtRun (l := mgmtEntries k.payload) (done := []) (h.cmdJudge
    (d := 0) (ctr := beNat (slice k.payload (mgmtEnd k.payload) 8))
    (verdict := t.cmdCheck 0 (beNat (slice k.payload (mgmtEnd k.payload) 8)) (k.payload.take (mgmtEnd k.payload + 8))
      (slice k.payload (mgmtEnd k.payload + 8) 16)))
  rw [hr]
  exact .next hv.sendFrame

theorem opRegReq {r : Ring} {b : RingBlock} (h : s.Keeps t) : s.Answers (opRegReq r b t) :=
  .ite (.next h.nodeReceive) (.ite (.next h.nodeReceive.agentRead.nodeQueue)
    ((agentWrite h.nodeReceive).bind fun _ h => .next h.nodeQueue))

end State.Answers

/-! ### How a command ends -/

namespace State.Ends

variable {r r' : Res} {c : Bool} {f : State → State}

theorem of (h : s.Answers r) : s.Ends r := .inl h

theorem next (h : s.Keeps t) : s.Ends (.next t) := of (.next h)

theorem spoilt (h : s.sane = false) : s.Ends s.spoilt := by
  unfold State.sane at h
  unfold State.spoilt
  cases hm : s.misused with
  | nil => simp [hm] at h
  | cons m l => exact .inr ⟨m, by rw [hm]; rfl, rfl⟩

theorem ite {c : Prop} [Decidable c] (h : s.Ends r) (k : s.Ends r') : s.Ends (if c then r else r') := by
  split
  · exact h
  · exact k

theorem sanely (h : s.Answers r) : s.Ends (s.sanely r) := by
  unfold State.sanely
  split
  · exact of h
  · next hs => exact spoilt (by simpa using hs)

theorem guarded (hf : s.Keeps s → s.Keeps (f s)) : s.Ends (s.guarded c f) := sanely (.next (.ite (hf (.refl s)) (.refl s)))

theorem always (hf : s.Keeps s → s.Keeps (f s)) : s.Ends (s.always c f) := next (.ite (hf (.refl s)) (.refl s))

/-- An instruction of a loop program. -/
theorem issue {d e i : Nat} {op : LoopOp} {f : Inst → Word5 → Res} (hf : ∀ x w, s.Answers (f x w)) : s.Ends (s.issue d e i op f) := by
  unfold State.issue
  dsimp only
  split
  · next hs => exact spoilt (by simpa using hs)
  · have h : s.Keeps s := .refl s
    exact of (.ite (.next h) (.ite (.next h.misuse) (.ite (.next h) (.ite (.next h.misuse) (hf _ _)))))

theorem accOp {d e i : Nat} {op : LoopOp} {f : Inst → Word5 → Int → Inst} : s.Ends (s.accOp d e i op f) :=
  issue fun _ _ => .setInst (.refl s)

/-- A write that the host may send while a misuse stands. -/
theorem maySend {addr data : Word} (h : s.Answers r) : s.Ends (if s.maySend addr data then r else s.spoilt) := by
  split
  · exact of h
  · next hs =>
    unfold State.maySend at hs
    exact spoilt (by simp_all)

end State.Ends
end Sys2Proof.Machine

namespace Sys2Proof.Machine
variable {s t u : State}

namespace State.Ends

theorem execSuppliesRise {mv : List Nat} : s.Ends (execSuppliesRise mv s) := .always fun h => h.resetAll

theorem execSupplyLoss {mv : List Nat} : s.Ends (execSupplyLoss mv s) := .always fun h => h.resetAll

theorem execResetNLow {ns : Nat} : s.Ends (execResetNLow ns s) := .always fun h => .ite h.resetAll h.shortPulse

theorem execResetHoldEnd {mv : List Nat} {role : BitVec 2} {refsel boot0 : Bool} :
    s.Ends (execResetHoldEnd mv role refsel boot0 s) := .always fun h => by
  extract_lets +onlyGivenNames _ _ t2
  have h2 : s.Keeps t2 := .each (h.each fun _ _ _ h => h.onClk) fun _ _ _ h => h.endHold1
  exact .ite (.congr h2 rfl rfl rfl rfl) h2

theorem execTpllLocked {d : Nat} : s.Ends (execTpllLocked d s) := .guarded fun h => by
  split
  · exact h
  · exact h.wr.onClk.lockTpll.lockFpll.wrB.enterBoot

theorem execBootComplete {d : Nat} {links : BitVec 3} : s.Ends (execBootComplete d links s) :=
  .guarded fun h => .ite h.bootDie (.ite h.bootDie.holdBoot h.bootDie.enter)

theorem execBootGo : s.Ends (execBootGo s) := .guarded fun h => h.opBootGo

theorem execNodeSelfReset {cycles : Nat} : s.Ends (execNodeSelfReset cycles s) := .always fun h => h.resetAll

theorem execStateCmdConfig : s.Ends (execStateCmdConfig s) := .guarded fun h => h.opStateCmdWrite

theorem execStateCmdStandstill : s.Ends (execStateCmdStandstill s) := .guarded fun h => h.opStateCmdWrite

theorem execStateCmdStartup : s.Ends (execStateCmdStartup s) := .guarded fun h => h.opStateCmdWrite

theorem execStateCmdRun : s.Ends (execStateCmdRun s) := .guarded fun h => h.opStateCmdWrite

theorem execStateCmdTest : s.Ends (execStateCmdTest s) := .guarded fun h => h.opStateCmdWrite

theorem execStateCmdRecovery : s.Ends (execStateCmdRecovery s) := .guarded fun h => h.opStateCmdWrite

theorem execStateCmdOther {target : BitVec 4} : s.Ends (execStateCmdOther target s) := .guarded fun h => h.opStateCmdWrite

theorem execCollectorArmApply : s.Ends (execCollectorArmApply s) := .guarded fun h => h.opCollectorArm

theorem execReadWord {addr : Word} : s.Ends (execReadWord addr s) := .sanely (.next (.opReadWord (.refl s)))

theorem execWriteWord {addr data : Word} : s.Ends (execWriteWord addr data s) := .maySend (.opWriteWord (.refl s))

theorem execFrameAbort {cmd : Byte} {addr data : Word} {phase : FramePhase} : s.Ends (execFrameAbort cmd addr data phase s) :=
  .maySend (.opFrameAbort (.refl s))

theorem execRegTimeout {write : Bool} {addr data : Word} : s.Ends (execRegTimeout write addr data s) := .maySend (.opRegTimeout (.refl s))

theorem execRegisterWrite {addr data : Word} : s.Ends (execRegisterWrite addr data s) := .maySend (.opRegisterWrite (.refl s))

theorem execStickyClear {d page : Nat} {mask : Word} : s.Ends (execStickyClear d page mask s) := .guarded fun h => h.opStickyClear

theorem execSoftReset {d page : Nat} {value : Word} : s.Ends (execSoftReset d page value s) :=
  .ite (.next (.opPageCtrl (.refl s))) (.guarded fun h => h.opPageCtrl)

theorem execPageLock {d page : Nat} : s.Ends (execPageLock d page s) := .guarded fun h => h.opPageCtrl

theorem execBlockEn {d page : Nat} {on : Bool} : s.Ends (execBlockEn d page on s) := .guarded fun h => h.opPageCtrl

theorem execSummaryUpdate : s.Ends (execSummaryUpdate s) := .guarded fun h => .congr h.putSum rfl rfl rfl rfl

theorem execFabricSubmission {d port : Nat} {source dst cls : Nat} :
    s.Ends (execFabricSubmission d port source dst cls s) := .guarded fun h => by
  split
  · exact h.submitA
  · exact h.when fun _ h => h.launch
  · exact h.when fun _ h => h.launch
  · exact h

theorem execFabricTransfer {d : Nat} {what : FabWhich} {how : FabArrival} : s.Ends (execFabricTransfer d what how s) := .guarded fun h => by
  split
  · exact .ite h.loseMirror h
  · split
    · exact h
    · exact .ite h (h.takeArrived.outcome.when fun _ h => h.opDeliver)

theorem execLinkDown {d : Nat} {link : FabLink} : s.Ends (execLinkDown d link s) := .guarded fun h => h.opLinkDown

theorem execResEntryWrite {d i : Nat} {value : Word} : s.Ends (execResEntryWrite d i value s) := .guarded fun h => h.opResEntry

theorem execMilestoneReached {d : Nat} : s.Ends (execMilestoneReached d s) := .guarded fun h => h.opMilestones

theorem execLoad {d i : Nat} : s.Ends (execLoad d i s) := .guarded fun h => h.opMsArm

theorem execDisarm {d i : Nat} : s.Ends (execDisarm d i s) := .guarded fun h => h.opMsArm

theorem execArm {d i : Nat} : s.Ends (execArm d i s) := .guarded fun h => h.opMsArm

theorem execSnapSel {d domain : Nat} : s.Ends (execSnapSel d domain s) := .guarded fun h => h.opSnapSel

theorem execDomainChange {d domain : Nat} {reg : AdReg} {value : Word} : s.Ends (execDomainChange d domain reg value s) :=
  .guarded fun h => h.opDomainChange

theorem execMirrorRecord {domain : Nat} : s.Ends (execMirrorRecord domain s) := .guarded fun h => h.opMirrorRecord

theorem execSlewEnd {d domain : Nat} : s.Ends (execSlewEnd d domain s) := .guarded fun h => h.onDom

theorem execTrackerSample {d c : Nat} : s.Ends (execTrackerSample d c s) := .guarded fun h => h.opTrackerSample

theorem execCoastLoss {d c : Nat} : s.Ends (execCoastLoss d c s) := .guarded fun h => h.setLoss.lossSource

theorem execLocked {d c : Nat} : s.Ends (execLocked d c s) := .guarded fun h => h.wrB

theorem execTrackerStandstill {d c : Nat} : s.Ends (execTrackerStandstill d c s) := .guarded fun h => h.standStill

theorem execQuadTransition {d c : Nat} {qa qb : Bool} {stable : Nat} : s.Ends (execQuadTransition d c qa qb stable s) :=
  .guarded fun h => h.opQuadTransition

theorem execPulseEdge {d c : Nat} {ball : Bool} {stable : Nat} : s.Ends (execPulseEdge d c ball stable s) :=
  .guarded fun h => h.onTrk.transition

theorem execRestart {d c : Nat} : s.Ends (execRestart d c s) := .guarded fun h => h.opRestart

theorem execSdcCfgWrite {d k : Nat} {value : Word} : s.Ends (execSdcCfgWrite d k value s) := .guarded fun h => h.opSdcCfg

theorem execChEnWrite {d : Nat} {value : Word} : s.Ends (execChEnWrite d value s) := .guarded fun h => h.opChEn

theorem execChannelSettled {d c edge : Nat} {bits : List Samples} : s.Ends (execChannelSettled d c edge bits s) :=
  .guarded fun h => h.opBits

theorem execFastResult {d c edge : Nat} {bits : List Samples} : s.Ends (execFastResult d c edge bits s) := .guarded fun h => h.opBits

theorem execStuck {d c edge : Nat} {bits : List Samples} : s.Ends (execStuck d c edge bits s) := by
  unfold Machine.execStuck
  exact .guarded fun h => h.opBits.stoppedClock

theorem execInstanceGrant {d e : Nat} : s.Ends (execInstanceGrant d e s) := .guarded fun h => by
  split
  · exact h.grant
  · exact h

theorem execSlotEnWrite {d : Nat} {hi : Bool} {value : Word} : s.Ends (execSlotEnWrite d hi value s) := .guarded fun h => h.opSlotEn

theorem execSlotCascWrite {d slot : Nat} {value : Word} : s.Ends (execSlotCascWrite d slot value s) := .guarded fun h => h.opSlotCasc

theorem execSpsWrite {d slot : Nat} {hi : Bool} {value : Word} : s.Ends (execSpsWrite d slot hi value s) := .guarded fun h => h.opSps

theorem execNop {d e i : Nat} : s.Ends (execNop d e i s) := .issue fun _ _ => .setInst (.refl s)

theorem execLd {d e i : Nat} : s.Ends (execLd d e i s) := .accOp

theorem execLdw {d e i : Nat} : s.Ends (execLdw d e i s) := .issue fun _ _ => .setInst (.refl s)

theorem execSt {d e i : Nat} : s.Ends (execSt d e i s) := .issue fun _ _ => .storeState (.refl s)

theorem execSts {d e i : Nat} : s.Ends (execSts d e i s) := .issue fun _ _ => .storeState (.refl s)

theorem execMovw {d e i : Nat} : s.Ends (execMovw d e i s) := .issue fun _ _ => .setInst (.refl s)

theorem execMac {d e i : Nat} : s.Ends (execMac d e i s) := .accOp

theorem execMsu {d e i : Nat} : s.Ends (execMsu d e i s) := .accOp

theorem execMul {d e i : Nat} : s.Ends (execMul d e i s) := .accOp

theorem execAdd {d e i : Nat} : s.Ends (execAdd d e i s) := .accOp

theorem execSub {d e i : Nat} : s.Ends (execSub d e i s) := .accOp

theorem execShl {d e i : Nat} : s.Ends (execShl d e i s) := .issue fun _ _ => .setInst (.refl s)

theorem execShr {d e i : Nat} : s.Ends (execShr d e i s) := .issue fun _ _ => .setInst (.refl s)

theorem execNeg {d e i : Nat} : s.Ends (execNeg d e i s) := .issue fun _ _ => .setInst (.refl s)

theorem execAbs {d e i : Nat} : s.Ends (execAbs d e i s) := .issue fun _ _ => .setInst (.refl s)

theorem execLim {d e i : Nat} : s.Ends (execLim d e i s) := .issue fun _ _ => .setInst (.refl s)

theorem execIntg {d e i : Nat} : s.Ends (execIntg d e i s) := .issue fun _ _ => .storeState (.refl s)

theorem execDly {d e i : Nat} : s.Ends (execDly d e i s) := .issue fun _ _ => .storeState (.refl s)

theorem execSel {d e i : Nat} : s.Ends (execSel d e i s) := .accOp

theorem execTab {d e i : Nat} : s.Ends (execTab d e i s) := .issue fun _ _ => .setInst (.refl s)

theorem execDiv {d e i : Nat} : s.Ends (execDiv d e i s) := .accOp

theorem execSincos {d e i : Nat} : s.Ends (execSincos d e i s) := .issue fun _ _ => .setInst (.refl s)

theorem execInp {d e i : Nat} : s.Ends (execInp d e i s) := .accOp

theorem execOut {d e i : Nat} : s.Ends (execOut d e i s) := by
  refine .issue fun _ _ => ?_
  extract_lets
  split
  · exact .setInst (.refl s)
  · exact .setInst (.refl s)

theorem execSpt {d e i : Nat} : s.Ends (execSpt d e i s) := .issue fun _ _ => .storeState (.refl s)

theorem execFlag {d e i : Nat} : s.Ends (execFlag d e i s) := .issue fun _ _ => .storeState (.refl s)

theorem execCmp {d e i : Nat} : s.Ends (execCmp d e i s) := .accOp

theorem execBrf {d e i : Nat} : s.Ends (execBrf d e i s) := .issue fun _ _ => .setInst (.refl s)

theorem execEndRun {d e i : Nat} : s.Ends (execEndRun d e i s) := .issue fun _ _ => .ite (.next (.refl s)) (.opEnd (.refl s))

theorem execInvalidInstruction {d e i : Nat} : s.Ends (execInvalidInstruction d e i s) :=
  .issue fun _ _ => .ite (.opEnd (.refl s)) (.next (.refl s))

theorem execPlanStart {d : Nat} {fails : List (Nat × Bool)} : s.Ends (execPlanStart d fails s) := .guarded fun h => h.opPlanStart

theorem execPlanEnd {d : Nat} : s.Ends (execPlanEnd d s) := .guarded fun h => h.opPlanEnd

theorem execManifestTransfer {d ringSlot : Nat} : s.Ends (execManifestTransfer d ringSlot s) := .guarded fun h => h.opManifestTransfer

theorem execRingLinkUp {d : Nat} {r : Ring} {seen : List Sight} : s.Ends (execRingLinkUp d r seen s) := .always fun h => h.opRingLinkUp

theorem execRingLinkDown {d : Nat} {r : Ring} {seen : List Sight} : s.Ends (execRingLinkDown d r seen s) :=
  .always fun h => h.opRingLinkDown

theorem execRingBreak {d : Nat} {r : Ring} {link : Nat} : s.Ends (execRingBreak d r link s) := .always fun h => h.opRingBreak

theorem execRingBreakClear {d : Nat} {r : Ring} {link : Nat} : s.Ends (execRingBreakClear d r link s) :=
  .guarded fun h => h.opRingBreakClear

theorem execBlockForward {r : Ring} {blk : RingBlock} : s.Ends (execBlockForward r blk s) := .guarded fun h => h.opForward

theorem execSilent : s.Ends (execSilent s) := .always fun h => h.opSilent

theorem execRingBlockClear : s.Ends (execRingBlockClear s) := .guarded fun h => h.opRingBlockClear

theorem execAlert {d : Nat} {blk : RingBlock} : s.Ends (execAlert d blk s) := .guarded fun h => h.opAlert

theorem execAckReceived {d : Nat} {ack : BitVec 16} : s.Ends (execAckReceived d ack s) := .guarded fun h => .ite h.opHeadAck h.opNodeAck

theorem execResendTimeout {d n : Nat} {cls : BitVec 2} : s.Ends (execResendTimeout d n cls s) := .guarded fun h => by
  split
  · exact h
  · split
    · exact h
    · exact .ite h (.ite h.resend h.nodeResend)

theorem execSyncSend {d : Nat} : s.Ends (execSyncSend d s) := .guarded fun h => h.opSyncSend

theorem execSync {r : Ring} {blk : RingBlock} {arr : Nat} : s.Ends (execSync r blk arr s) := .guarded fun h => h.opSync

theorem execDelaySend {d : Nat} : s.Ends (execDelaySend d s) := .guarded fun h => h.opDelaySend

theorem execDelay {r : Ring} {blk : RingBlock} {arr : Nat} : s.Ends (execDelay r blk arr s) := .guarded fun h => h.opDelay

theorem execDelayReturn {d : Nat} {la lb : Option Nat} : s.Ends (execDelayReturn d la lb s) := .guarded fun h => h.opDelayReturn

theorem execEnumGo {d : Nat} : s.Ends (execEnumGo d s) := .sanely (.ite (.opEnumGo (.refl s)) (.next (.refl s)))

theorem execEnumReturn {d : Nat} {ca cb : Option (Nat × Nat)} : s.Ends (execEnumReturn d ca cb s) := .guarded fun h => h.opEnumReturn

theorem execCaravan {r : Ring} {blk : RingBlock} : s.Ends (execCaravan r blk s) := .guarded fun h => h.opCaravan

theorem execCaravanFinalise {d : Nat} {cid : Byte} {returned : Nat} {results : List Word} :
    s.Ends (execCaravanFinalise d cid returned results s) := .guarded fun h => by
  split
  · exact h
  · exact .ite h h.opFinalise

theorem execSetpt {blk : RingBlock} : s.Ends (execSetpt blk s) := .guarded fun h => h.opSetpt

theorem execStateSend {d : Nat} : s.Ends (execStateSend d s) := .guarded fun h => h.opStateSend

theorem execState {blk : RingBlock} : s.Ends (execState blk s) := .guarded fun h => h.opState

theorem execBlockSend {d : Nat} : s.Ends (execBlockSend d s) := .guarded fun h => h.opBlockSend

theorem execBlock {blk : RingBlock} : s.Ends (execBlock blk s) := .always fun h => h.opBlock

theorem execContextFieldWrite {d n field : Nat} {value : BitVec 16} : s.Ends (execContextFieldWrite d n field value s) :=
  .guarded fun h => h.opContext

theorem execCtxWrite {r : Ring} {blk : RingBlock} : s.Ends (execCtxWrite r blk s) := .guarded fun h => h.opCtxWrite

theorem execCtxDataSend : s.Ends (execCtxDataSend s) := .guarded fun h => h.opCtxDataSend

theorem execCtxData {d : Nat} {r : Ring} {blk : RingBlock} : s.Ends (execCtxData d r blk s) := .guarded fun h => h.opCtxData

theorem execRemoteRead {d n : Nat} : s.Ends (execRemoteRead d n s) := .guarded fun h => h.opRemote

theorem execRemoteWrite {d n : Nat} : s.Ends (execRemoteWrite d n s) := .guarded fun h => h.opRemote

theorem execRegReq {r : Ring} {blk : RingBlock} : s.Ends (execRegReq r blk s) := .sanely (.ite (.opRegReq (.refl s)) (.next (.refl s)))

theorem execRegRsp {d : Nat} {r : Ring} {blk : RingBlock} : s.Ends (execRegRsp d r blk s) := .guarded fun h => h.opRegRsp

theorem execRemoteTimeout {d : Nat} : s.Ends (execRemoteTimeout d s) := .guarded fun h => by
  split
  · split
    · exact .ite h.endRemote h
    · exact h
  · exact h

theorem execRingModeWrite {d : Nat} {value : Word} : s.Ends (execRingModeWrite d value s) :=
  .sanely (.ite (.opRingCtrl (.refl s)) (.next (.refl s)))

theorem execRresWrite {d i : Nat} {value : Word} : s.Ends (execRresWrite d i value s) := .guarded fun h => h.opRres

theorem execEdgeExecute {b : Nat} : s.Ends (execEdgeExecute b s) := .always fun h => h.opEdgeExecute

theorem execManifestExpiry {b : Nat} : s.Ends (execManifestExpiry b s) := .always fun h => h.opManifestExpiry

theorem execDeadTimeEnd {leg : Nat} : s.Ends (execDeadTimeEnd leg s) := .always fun h => h.opDeadTimeEnd

theorem execDabB1Edge : s.Ends (execDabB1Edge s) := .always fun h => h.opDabB1Edge

theorem execDabB2Edge : s.Ends (execDabB2Edge s) := .always fun h => h.opDabB2Edge

theorem execLegCrossing {leg : Nat} : s.Ends (execLegCrossing leg s) := .always fun h => h.opLegCrossing

theorem execCarrierPeak {leg : Nat} : s.Ends (execCarrierPeak leg s) := .always fun h => h.opCarrierPeak

theorem execPinCommand {b : Nat} {p n z : Bool × Nat} : s.Ends (execPinCommand b p n z s) := .always fun h => h.opPinCommand

theorem execBgSrcWrite {value : Word} : s.Ends (execBgSrcWrite value s) := .guarded fun h => h.opBgSrc

theorem execTrip {leg : Nat} {senses : List Nat} : s.Ends (execTrip leg senses s) := .always fun h => h.opComparators

theorem execEndBlank {leg : Nat} {senses : List Nat} : s.Ends (execEndBlank leg senses s) := .always fun h => h.opComparators

theorem execDriverTrip {leg : Nat} {low : List Bool} : s.Ends (execDriverTrip leg low s) := .always fun h => h.wrB.when fun _ h => h.tripLeg

theorem execSlowHigh {b : Nat} : s.Ends (execSlowHigh b s) := .always fun h => h.opSlowHigh

theorem execGatesLow {leg : Nat} : s.Ends (execGatesLow leg s) := .always fun h => h.opGatesLow

theorem execSlowHoldEnd {b : Nat} : s.Ends (execSlowHoldEnd b s) := .always fun h => h.opSlowHoldEnd

theorem execUnlock {legs : BitVec 6} {senses : List Nat} {gflt : BitVec 6} : s.Ends (execUnlock legs senses gflt s) :=
  .always fun h => .opUnlock (h.each fun _ _ _ h => h.showSense.wrB)

theorem execReferenceLost {d : Nat} {second : Bool} {cycles : Nat} : s.Ends (execReferenceLost d second cycles s) :=
  .always fun h => h.each fun _ _ _ h => h.wrB.loseRef

theorem execReferencePresent {d : Nat} {second : Bool} {cycles : Nat} {cdr : Bool} : s.Ends (execReferencePresent d second cycles cdr s) :=
  .guarded fun h => h.each fun _ _ _ h => h.wrB.endHold

theorem execHoldoverEnd {d : Nat} {pll : Pll} :
    s.Ends (execHoldoverEnd d pll s) := .always fun h => by
  dsimp only
  split
  · exact .ite h.opGate h
  · exact .ite h.opFpllLoss h

theorem execRefReturn {d : Nat} : s.Ends (execRefReturn d s) := .guarded fun h => h.opRefReturn

theorem execPllRelock {d : Nat} {pll : Pll} : s.Ends (execPllRelock d pll s) := .guarded fun h => by
  split
  · exact .ite h h.wrB
  · exact .ite h (.ite (h.onClk.lockFpll.sticky.lower.when fun _ h => h.wrB) h.wrB)

theorem execClkGated {d : Nat} {errs : List Int} {still ago : Nat} :
    s.Ends (execClkGated d errs still ago s) := .always fun h => by
  split
  · exact h.opGate
  · exact h.opGate
  · exact h

theorem execFpllLoss {d : Nat} {errs : List Int} {still : Nat} : s.Ends (execFpllLoss d errs still s) := .always fun h => h.opFpllLoss

theorem execDllLoss {d : Nat} : s.Ends (execDllLoss d s) := .always fun h => h.wrB.sticky.raise

theorem execDllRelock {d : Nat} : s.Ends (execDllRelock d s) := .guarded fun h => h.wrB.lower

theorem execUpdate {d : Nat} : s.Ends (execUpdate d s) := .guarded fun h => h.opUpdate

theorem execGuardFail {d khz : Nat} : s.Ends (execGuardFail d khz s) := .guarded fun h => .ite h.wr.wrB.lower h.wr.wrB.sticky.raise

theorem execVtEdge {d : Nat} {tvt fvt : Byte} {tFor fFor : Nat} : s.Ends (execVtEdge d tvt fvt tFor fFor s) :=
  .guarded fun h => h.wr.wr.when fun _ h => h.sticky

theorem execNetLinkChange {d : Nat} {pcs an : Bool} {speed : Nat} {full : Bool} : s.Ends (execNetLinkChange d pcs an speed full s) :=
  .guarded fun h => .ite (.ite h.wrB h.wrB.wrB.setPtpState.onNet) (h.wrB.netDown.when fun _ h => h.sticky)

theorem execMdioRead {phy reg : BitVec 5} : s.Ends (execMdioRead phy reg s) := .guarded fun h => h.opMdio

theorem execMdioWrite {phy reg : BitVec 5} {data : BitVec 16} : s.Ends (execMdioWrite phy reg data s) := .guarded fun h => h.opMdio

theorem execMdioDone {data : BitVec 16} : s.Ends (execMdioDone data s) := .guarded fun h => by
  split
  · exact h
  · exact .ite h (.ite h.wrB.onNet h.wrB.onNet.wr)

theorem execFrameReceive {d : Nat} {f : EthFrame} : s.Ends (execFrameReceive d f s) := .guarded fun h => by
  split
  · exact h.sticky
  · split
    · exact h
    · split
      · exact h.bump
      · exact h
      · exact h
      · exact h.keepFrame
      · exact h.keepFrame
      · exact h.keepFrame

theorem execPtpMessage {d : Nat} {domain : Byte} {fine : Nat} {m : PtpMsg} : s.Ends (execPtpMessage d domain fine m s) :=
  .guarded fun h => h.expireAnnounce.expireAnnounce.opPtp

theorem execArpRequest {d : Nat} : s.Ends (execArpRequest d s) := .guarded fun h => by
  split
  · exact h
  · next hk => exact (h.takeKept hk).sendFrame

theorem execSafetyTelegram {d : Nat} : s.Ends (execSafetyTelegram d s) := .guarded fun h => by
  split
  · exact h
  · next hk => exact .when ((h.takeKept hk).onDie (fun _ => rfl) (fun _ => rfl)) fun _ h => h.launch

theorem execManagementFrame {d : Nat} : s.Ends (execManagementFrame d s) := by
  refine .sanely ?_
  split
  · exact .ite (.opManagement (State.Keeps.refl s).onNet) (.next (.refl s))
  · exact .next (.refl s)

theorem execSupervisionSend : s.Ends (execSupervisionSend s) := .guarded fun h => h.txFrame.txFrame.onNet

theorem execHsrForward {d : Nat} {f : EthFrame} {residence : Nat} : s.Ends (execHsrForward d f residence s) := .guarded fun h => h.txFrame

theorem execDuplicateExpiry {d : Nat} : s.Ends (execDuplicateExpiry d s) := .guarded fun h => h.onNet

theorem execTdStep {n : Nat} {value : Word} : s.Ends (execTdStep n value s) := .guarded fun h => h.opTdCtrl

theorem execSyncLoss {n : Nat} : s.Ends (execSyncLoss n s) := .guarded fun h => h.enterHold

theorem execAnnounceTimeout {d : Nat} : s.Ends (execAnnounceTimeout d s) := .guarded fun h => h.expireAnnounce

theorem execPpsInEdge {stable : Nat} : s.Ends (execPpsInEdge stable s) := .guarded fun h => h.wr.wr.onNet.each fun _ _ _ h => h.servo

theorem execPpsOutRise : s.Ends (execPpsOutRise s) := .guarded fun h => by
  split
  · exact h
  · exact .ite h (.onNet (.congr h rfl rfl rfl rfl))

theorem execPpsOutFall : s.Ends (execPpsOutFall s) := .guarded fun h => by
  split
  · exact h
  · exact .ite h (.onNet (.congr h rfl rfl rfl rfl))

theorem execInputAccept {ch : Nat} {fb : Bool} {i : Nat} {levels : List (Bool × Nat)} : s.Ends (execInputAccept ch fb i levels s) :=
  .always fun h => h.opInput

theorem execResetLong {ch f : Nat} :
    s.Ends (execResetLong ch f s) := .always fun h => by
  split
  · exact h
  · exact .ite h h.sticky.onSaf

theorem execSafetyCycle {ch : Nat} : s.Ends (execSafetyCycle ch s) := .always fun h => h.opSafetyCycle

theorem execDiscrepancy {ch f : Nat} {hand2 : Bool} : s.Ends (execDiscrepancy ch f hand2 s) := .always fun h => h.settlePair.judgePair

theorem execTestPulse {n : Nat} : s.Ends (execTestPulse n s) := .always fun h => h.onSaf.driveTp

theorem execInputTest {ch i : Nat} {raw : Bool} : s.Ends (execInputTest ch i raw s) := .always fun h => h.when fun _ h => h.safFault

theorem execOutputTestPulse {ch j : Nat} {readback : Bool} :
    s.Ends (execOutputTestPulse ch j readback s) := .always fun h => by
  dsimp only
  split
  · exact .ite h.onSaf.setBall h
  · exact .ite h.wrB.onSaf h

theorem execReadback {ch j : Nat} {level : Bool} : s.Ends (execReadback ch j level s) := .always fun h => h.wrB.onSaf

theorem execFeedback {ch j : Nat} : s.Ends (execFeedback ch j s) := .always fun h => h.onSaf

theorem execCrossImage {ch : Nat} : s.Ends (execCrossImage ch s) := .always fun h => h.opCrossImage

theorem execCrossImageAbsent {ch : Nat} : s.Ends (execCrossImageAbsent ch s) := .always fun h => h.imageAbsent

theorem execSafRstCmd {ch : Nat} {auth : Bool} {value : Word} : s.Ends (execSafRstCmd ch auth value s) :=
  .guarded fun h => .ite h.opSafRst h.opSafUnauth

theorem execSafConfigWrite {ch offset : Nat} {auth : Bool} {value : Word} : s.Ends (execSafConfigWrite ch offset auth value s) :=
  .guarded fun h => .ite h.opSafConfig h.opSafUnauth

theorem execTelegramTake {ch : Nat} :
    s.Ends (execTelegramTake ch s) := .always fun h => by
  split
  · exact h
  · exact h.onSaf.opTelegram

theorem execWatchdogExpiry {ch c : Nat} : s.Ends (execWatchdogExpiry ch c s) := .always fun h => h.watchdog

theorem execDegradedEnd {ch c : Nat} : s.Ends (execDegradedEnd ch c s) := .always fun h => h.endDegraded

theorem execLocalLatch {d : Nat} : s.Ends (execLocalLatch d s) := .always fun h => h.opLocalLatch

theorem execPackageRecord : s.Ends (execPackageRecord s) := .always fun h => h.opPackageRecord

theorem execClear {d : Nat} : s.Ends (execClear d s) := .guarded fun h => h.opClear

theorem execFfReactWrite {d : Nat} {value : Word} : s.Ends (execFfReactWrite d value s) := .guarded fun h => h.opFfReact

theorem execTempSample {d : Nat} {raws : List Int} : s.Ends (execTempSample d raws s) := .guarded fun h => h.opTempSample

theorem execNeighbourWrite {d n : Nat} : s.Ends (execNeighbourWrite d n s) := .guarded fun h => h.opNeighbour

theorem execSliceStart {d : Nat} : s.Ends (execSliceStart d s) := .guarded fun h => by
  split
  · exact h
  · exact h.wrB.wr.wr.onBist

theorem execSliceEnd {d : Nat} {fails : List FailCell} : s.Ends (execSliceEnd d fails s) := .guarded fun h => h.opSliceEnd

theorem execFuseBurn {d macro_ : Nat} : s.Ends (execFuseBurn d macro_ s) := .guarded fun h => h.opFuseBurn

theorem execFuseDone {d : Nat} : s.Ends (execFuseDone d s) := .guarded fun h => h.opFuseDone

theorem execEngineTestStart {d : Nat} : s.Ends (execEngineTestStart d s) := .guarded fun h => by
  split
  · exact h
  · split
    · exact h
    · split
      · exact h
      · exact h.onInst.wrB.onBist

theorem execEngineTestYield {d : Nat} : s.Ends (execEngineTestYield d s) := .guarded fun h => h.opEngineYield

theorem execEngineTestEnd {d issues : Nat} {sig : Word} : s.Ends (execEngineTestEnd d issues sig s) := .guarded fun h => h.endTest

theorem execPatrolRead {d : Nat} {first second : Bool} : s.Ends (execPatrolRead d first second s) :=
  .guarded fun h => .onBist (.wr (.ite h (.ite h.bump.sticky h.bump.wr.sticky)))

theorem execImageStart {d : Nat} {type : BitVec 3} : s.Ends (execImageStart d type s) := .guarded fun h => h.opImgStart

theorem execImageAbort {d : Nat} : s.Ends (execImageAbort d s) := .guarded fun h => h.opImgAbort

theorem execImageWord {d : Nat} {word : Word} : s.Ends (execImageWord d word s) := .sanely (.ite (.opImgWord (.refl s)) (.next (.refl s)))

theorem execImageVerified {d : Nat} : s.Ends (execImageVerified d s) := .sanely (.ite (.opImageVerified (.refl s)) (.next (.refl s)))

theorem execAttest {d : Nat} : s.Ends (execAttest d s) := .guarded fun h => h.opAttest

theorem execEstablishKey {d : Nat} {slot : BitVec 2} : s.Ends (execEstablishKey d slot s) := .guarded fun h => h.opEstablishKey

theorem execSecOpDone {d : Nat} : s.Ends (execSecOpDone d s) := .guarded fun h => by
  split
  · exact h
  · exact .ite (.ite h.wr.onSec.wr.sticky.setKey h.wr.onSec.wr.sticky.putBuf) h.wr.onSec.wr.sticky

theorem execAuthGo {d : Nat} : s.Ends (execAuthGo d s) := .sanely (.ite (.authGo (.refl s) fun _ _ _ h => .authWrite h) (.next (.refl s)))

theorem execFuseProgram {d : Nat} {slot : BitVec 2} {auth : Bool} : s.Ends (execFuseProgram d slot auth s) :=
  .guarded fun h => h.opFuseProgram

theorem execFuseRevoke {d : Nat} {slot : BitVec 2} {auth : Bool} : s.Ends (execFuseRevoke d slot auth s) := .guarded fun h => h.opFuseRevoke

theorem execFuseOpDone {d : Nat} : s.Ends (execFuseOpDone d s) := .guarded fun h => h.opFuseOpDone

theorem execStreamRecord {d : Nat} : s.Ends (execStreamRecord d s) := .guarded fun h => .opStreamRecord (h.onRec (fun _ => rfl))

theorem execCaptureSend : s.Ends (execCaptureSend s) := .guarded fun h => h.opCaptureSend

theorem execCapture {d : Nat} {r : Ring} {blk : RingBlock} : s.Ends (execCapture d r blk s) := .guarded fun h => h.opCapture

theorem execLedgerEnable {d : Nat} {on : Bool} : s.Ends (execLedgerEnable d on s) := .guarded fun h => h.opLedgerEn

theorem execTrig {c : BitVec 4} : s.Ends (execTrig c s) := .guarded fun h => h.opTrig

theorem execLedgerTrigger : s.Ends (execLedgerTrigger s) := .guarded fun h => h.opLedgerTrigger

theorem execLedgerSeal {d : Nat} : s.Ends (execLedgerSeal d s) := .guarded fun h => h.opLedgerSeal

theorem execRearm : s.Ends (execRearm s) := .guarded fun h => h.opRearm

theorem execPartWrite {d i : Nat} {value : Word} : s.Ends (execPartWrite d i value s) := .guarded fun h => h.opPart

theorem execWindowRead {d i : Nat} {first second : Bool} : s.Ends (execWindowRead d i first second s) :=
  .guarded fun h => .congr h.opWinRead rfl rfl rfl rfl

theorem execWindowWrite {d i : Nat} {value : Word} {first second : Bool} : s.Ends (execWindowWrite d i value first second s) :=
  .guarded fun h => h.opWinWrite

theorem execNimgGo {d : Nat} : s.Ends (execNimgGo d s) := .guarded fun h => h.opNimgGo

theorem execNimgAbort {d : Nat} : s.Ends (execNimgAbort d s) := .guarded fun h => h.nimgEnd

theorem execImage {r : Ring} {blk : RingBlock} : s.Ends (execImage r blk s) := .sanely (.ite (.opImage (.refl s)) (.next (.refl s)))

theorem execNimgPoll {d n : Nat} {fails : List (Nat × Bool)} : s.Ends (execNimgPoll d n fails s) := .guarded fun h => h.opNimgPoll

theorem execStuckClear {d c edge : Nat} {bit : Samples} : s.Ends (execStuckClear d c edge bit s) := .guarded fun h => h.opBits

theorem execPtpSend {d : Nat} {m : PtpSend} {fine : Nat} : s.Ends (execPtpSend d m fine s) := by
  unfold Machine.execPtpSend
  exact .guarded fun h => h.txFrame.onNet

theorem execCaravanBlockSend {d : Nat} : s.Ends (execCaravanBlockSend d s) := .guarded fun h => h.opCaravanBlockSend

theorem execBcBlockSend {d n : Nat} : s.Ends (execBcBlockSend d n s) :=
  .ite (.guarded fun h => h.opBcSend) (.guarded fun h => h.nodeInsert.nodeInsert)

theorem execPagePowerUpdate {d : Nat} : s.Ends (execPagePowerUpdate d s) := .guarded fun h => h.opPower

end State.Ends

/-- Every command answers, but for the faults of a misuse that stands. -/
theorem exec_ends (c : Instr) (s : State) : s.Ends (exec c s) := by
  cases c with
  | suppliesRise mv => exact .execSuppliesRise
  | supplyLoss mv => exact .execSupplyLoss
  | resetNLow ns => exact .execResetNLow
  | resetHoldEnd mv role refsel boot0 => exact .execResetHoldEnd
  | tpllLocked d => exact .execTpllLocked
  | bootComplete d links => exact .execBootComplete
  | bootGo => exact .execBootGo
  | nodeSelfReset cycles => exact .execNodeSelfReset
  | stateCmdConfig => exact .execStateCmdConfig
  | stateCmdStandstill => exact .execStateCmdStandstill
  | stateCmdStartup => exact .execStateCmdStartup
  | stateCmdRun => exact .execStateCmdRun
  | stateCmdTest => exact .execStateCmdTest
  | stateCmdRecovery => exact .execStateCmdRecovery
  | stateCmdOther target => exact .execStateCmdOther
  | collectorArmApply => exact .execCollectorArmApply
  | readWord addr => exact .execReadWord
  | writeWord addr data => exact .execWriteWord
  | frameAbort cmd addr data phase => exact .execFrameAbort
  | regTimeout write addr data => exact .execRegTimeout
  | registerWrite addr data => exact .execRegisterWrite
  | stickyClear d page mask => exact .execStickyClear
  | softReset d page value => exact .execSoftReset
  | pageLock d page => exact .execPageLock
  | blockEn d page on => exact .execBlockEn
  | summaryUpdate => exact .execSummaryUpdate
  | fabricSubmission d port source dst cls => exact .execFabricSubmission
  | fabricTransfer d what how => exact .execFabricTransfer
  | linkDown d link => exact .execLinkDown
  | resEntryWrite d ix value => exact .execResEntryWrite
  | milestoneReached d => exact .execMilestoneReached
  | load d ix => exact .execLoad
  | disarm d ix => exact .execDisarm
  | arm d ix => exact .execArm
  | snapSel d domain => exact .execSnapSel
  | domainChange d domain reg value => exact .execDomainChange
  | mirrorRecord domain => exact .execMirrorRecord
  | slewEnd d domain => exact .execSlewEnd
  | trackerSample d c => exact .execTrackerSample
  | coastLoss d c => exact .execCoastLoss
  | locked d c => exact .execLocked
  | trackerStandstill d c => exact .execTrackerStandstill
  | quadTransition d c qa qb stable => exact .execQuadTransition
  | pulseEdge d c ball stable => exact .execPulseEdge
  | restart d c => exact .execRestart
  | sdcCfgWrite d k value => exact .execSdcCfgWrite
  | chEnWrite d value => exact .execChEnWrite
  | channelSettled d c edge bits => exact .execChannelSettled
  | fastResult d c edge bits => exact .execFastResult
  | stuck d c edge bits => exact .execStuck
  | instanceGrant d e => exact .execInstanceGrant
  | slotEnWrite d hi value => exact .execSlotEnWrite
  | slotCascWrite d slot value => exact .execSlotCascWrite
  | spsWrite d slot hi value => exact .execSpsWrite
  | nop d e ix => exact .execNop
  | ld d e ix => exact .execLd
  | ldw d e ix => exact .execLdw
  | st d e ix => exact .execSt
  | sts d e ix => exact .execSts
  | movw d e ix => exact .execMovw
  | mac d e ix => exact .execMac
  | msu d e ix => exact .execMsu
  | mul d e ix => exact .execMul
  | add d e ix => exact .execAdd
  | sub d e ix => exact .execSub
  | shl d e ix => exact .execShl
  | shr d e ix => exact .execShr
  | neg d e ix => exact .execNeg
  | abs d e ix => exact .execAbs
  | lim d e ix => exact .execLim
  | intg d e ix => exact .execIntg
  | dly d e ix => exact .execDly
  | sel d e ix => exact .execSel
  | tab d e ix => exact .execTab
  | div d e ix => exact .execDiv
  | sincos d e ix => exact .execSincos
  | inp d e ix => exact .execInp
  | out d e ix => exact .execOut
  | spt d e ix => exact .execSpt
  | flag d e ix => exact .execFlag
  | cmp d e ix => exact .execCmp
  | brf d e ix => exact .execBrf
  | endRun d e ix => exact .execEndRun
  | invalidInstruction d e ix => exact .execInvalidInstruction
  | planStart d fails => exact .execPlanStart
  | planEnd d => exact .execPlanEnd
  | manifestTransfer d ringSlot => exact .execManifestTransfer
  | ringLinkUp d r seen => exact .execRingLinkUp
  | ringLinkDown d r seen => exact .execRingLinkDown
  | ringBreak d r link => exact .execRingBreak
  | ringBreakClear d r link => exact .execRingBreakClear
  | blockForward r blk => exact .execBlockForward
  | silent => exact .execSilent
  | ringBlockClear => exact .execRingBlockClear
  | alert d blk => exact .execAlert
  | ackReceived d ack => exact .execAckReceived
  | resendTimeout d n cls => exact .execResendTimeout
  | syncSend d => exact .execSyncSend
  | sync r blk arr => exact .execSync
  | delaySend d => exact .execDelaySend
  | delay r blk arr => exact .execDelay
  | delayReturn d la lb => exact .execDelayReturn
  | enumGo d => exact .execEnumGo
  | enumReturn d ca cb => exact .execEnumReturn
  | caravan r blk => exact .execCaravan
  | caravanFinalise d cid returned results => exact .execCaravanFinalise
  | setpt blk => exact .execSetpt
  | stateSend d => exact .execStateSend
  | state blk => exact .execState
  | blockSend d => exact .execBlockSend
  | block blk => exact .execBlock
  | contextFieldWrite d n field value => exact .execContextFieldWrite
  | ctxWrite r blk => exact .execCtxWrite
  | ctxDataSend => exact .execCtxDataSend
  | ctxData d r blk => exact .execCtxData
  | remoteRead d n => exact .execRemoteRead
  | remoteWrite d n => exact .execRemoteWrite
  | regReq r blk => exact .execRegReq
  | regRsp d r blk => exact .execRegRsp
  | remoteTimeout d => exact .execRemoteTimeout
  | ringModeWrite d value => exact .execRingModeWrite
  | rresWrite d ix value => exact .execRresWrite
  | edgeExecute b => exact .execEdgeExecute
  | manifestExpiry b => exact .execManifestExpiry
  | deadTimeEnd leg => exact .execDeadTimeEnd
  | dabB1Edge => exact .execDabB1Edge
  | dabB2Edge => exact .execDabB2Edge
  | legCrossing leg => exact .execLegCrossing
  | carrierPeak leg => exact .execCarrierPeak
  | pinCommand b p n z => exact .execPinCommand
  | bgSrcWrite value => exact .execBgSrcWrite
  | trip leg senses => exact .execTrip
  | endBlank leg senses => exact .execEndBlank
  | driverTrip leg low => exact .execDriverTrip
  | slowHigh b => exact .execSlowHigh
  | gatesLow leg => exact .execGatesLow
  | slowHoldEnd b => exact .execSlowHoldEnd
  | unlock legs senses gflt => exact .execUnlock
  | referenceLost d second cycles => exact .execReferenceLost
  | referencePresent d second cycles cdr => exact .execReferencePresent
  | holdoverEnd d pll => exact .execHoldoverEnd
  | refReturn d => exact .execRefReturn
  | pllRelock d pll => exact .execPllRelock
  | clkGated d errs still ago => exact .execClkGated
  | fpllLoss d errs still => exact .execFpllLoss
  | dllLoss d => exact .execDllLoss
  | dllRelock d => exact .execDllRelock
  | update d => exact .execUpdate
  | guardFail d khz => exact .execGuardFail
  | vtEdge d tvt fvt tFor fFor => exact .execVtEdge
  | netLinkChange d pcs an speed full => exact .execNetLinkChange
  | mdioRead phy reg => exact .execMdioRead
  | mdioWrite phy reg data => exact .execMdioWrite
  | mdioDone data => exact .execMdioDone
  | frameReceive d f => exact .execFrameReceive
  | ptpMessage d domain fine m => exact .execPtpMessage
  | arpRequest d => exact .execArpRequest
  | safetyTelegram d => exact .execSafetyTelegram
  | managementFrame d => exact .execManagementFrame
  | supervisionSend => exact .execSupervisionSend
  | hsrForward d f residence => exact .execHsrForward
  | duplicateExpiry d => exact .execDuplicateExpiry
  | tdStep n value => exact .execTdStep
  | syncLoss n => exact .execSyncLoss
  | announceTimeout d => exact .execAnnounceTimeout
  | ppsInEdge stable => exact .execPpsInEdge
  | ppsOutRise => exact .execPpsOutRise
  | ppsOutFall => exact .execPpsOutFall
  | inputAccept ch fb ix levels => exact .execInputAccept
  | resetLong ch f => exact .execResetLong
  | safetyCycle ch => exact .execSafetyCycle
  | discrepancy ch f hand2 => exact .execDiscrepancy
  | testPulse n => exact .execTestPulse
  | inputTest ch ix raw => exact .execInputTest
  | outputTestPulse ch j readback => exact .execOutputTestPulse
  | readback ch j level => exact .execReadback
  | feedback ch j => exact .execFeedback
  | crossImage ch => exact .execCrossImage
  | crossImageAbsent ch => exact .execCrossImageAbsent
  | safRstCmd ch auth value => exact .execSafRstCmd
  | safConfigWrite ch offset auth value => exact .execSafConfigWrite
  | telegramTake ch => exact .execTelegramTake
  | watchdogExpiry ch c => exact .execWatchdogExpiry
  | degradedEnd ch c => exact .execDegradedEnd
  | localLatch d => exact .execLocalLatch
  | packageRecord => exact .execPackageRecord
  | clear d => exact .execClear
  | ffReactWrite d value => exact .execFfReactWrite
  | tempSample d raws => exact .execTempSample
  | neighbourWrite d n => exact .execNeighbourWrite
  | sliceStart d => exact .execSliceStart
  | sliceEnd d fails => exact .execSliceEnd
  | fuseBurn d macro_ => exact .execFuseBurn
  | fuseDone d => exact .execFuseDone
  | engineTestStart d => exact .execEngineTestStart
  | engineTestYield d => exact .execEngineTestYield
  | engineTestEnd d issues sig => exact .execEngineTestEnd
  | patrolRead d first second => exact .execPatrolRead
  | imageStart d type => exact .execImageStart
  | imageAbort d => exact .execImageAbort
  | imageWord d word => exact .execImageWord
  | imageVerified d => exact .execImageVerified
  | attest d => exact .execAttest
  | establishKey d slot => exact .execEstablishKey
  | secOpDone d => exact .execSecOpDone
  | authGo d => exact .execAuthGo
  | fuseProgram d slot auth => exact .execFuseProgram
  | fuseRevoke d slot auth => exact .execFuseRevoke
  | fuseOpDone d => exact .execFuseOpDone
  | streamRecord d => exact .execStreamRecord
  | captureSend => exact .execCaptureSend
  | capture d r blk => exact .execCapture
  | ledgerEnable d on => exact .execLedgerEnable
  | trig c => exact .execTrig
  | ledgerTrigger => exact .execLedgerTrigger
  | ledgerSeal d => exact .execLedgerSeal
  | rearm => exact .execRearm
  | partWrite d ix value => exact .execPartWrite
  | windowRead d ix first second => exact .execWindowRead
  | windowWrite d ix value first second => exact .execWindowWrite
  | nimgGo d => exact .execNimgGo
  | nimgAbort d => exact .execNimgAbort
  | image r blk => exact .execImage
  | nimgPoll d n fails => exact .execNimgPoll
  | stuckClear d c edge bit => exact .execStuckClear
  | ptpSend d m fine => exact .execPtpSend
  | caravanBlockSend d => exact .execCaravanBlockSend
  | bcBlockSend d n => exact .execBcBlockSend
  | pagePowerUpdate d => exact .execPagePowerUpdate

/-- While no misuse stands every command answers. -/
theorem exec_answers (c : Instr) (hs : s.sane = true) : s.Answers (exec c s) := by
  obtain h | ⟨m, hm, -⟩ := exec_ends c s
  · exact h
  · rw [List.isEmpty_iff.1 hs] at hm
    cases hm

/-- What a command answers keeps what every command keeps. -/
theorem exec_keeps {c : Instr} (h : exec c s = .next t) : s.Keeps t := by
  obtain ⟨u, hu, k⟩ | ⟨m, -, hm⟩ := exec_ends c s
  · cases h.symm.trans hu
    exact k
  · cases h.symm.trans hm

end Sys2Proof.Machine

section

open Sys2Proof Sys2Proof.Machine

/-- Settles O1: the queue's front is what `step` matches on. -/
theorem stepRunsTheCommandInFront : Obligations.step_runs_the_command_in_front := by
  unfold Obligations.step_runs_the_command_in_front
  refine ⟨fun c rest s => rfl, fun s hs => ?_⟩
  unfold step
  rw [hs]

/-- Settles O2: every command ends as `exec_ends` says, and what it answers keeps the queue and the part. -/
theorem commandsLeaveQueueAndPart : Obligations.commands_leave_queue_and_part := by
  unfold Obligations.commands_leave_queue_and_part
  refine ⟨fun c s hs => ?_, fun c s _ => ?_, fun c s t h => ?_, fun s => ?_⟩
  · obtain ⟨t, ht, -⟩ := exec_answers c hs
    exact ⟨t, ht⟩
  · obtain ⟨t, ht, -⟩ | hm := exec_ends c s
    · exact .inl ⟨t, ht⟩
    · exact .inr hm
  · have k := exec_keeps h
    exact ⟨k.pending, k.part, k.length⟩
  · have k : s.Keeps (tick s) := .tick (.refl s)
    exact ⟨k.pending, k.part, k.length⟩

/-- Settles O3: the command in front and the tick each keep a sound state sound. -/
theorem stepKeepsSound : Obligations.step_keeps_sound := by
  unfold Obligations.step_keeps_sound
  intro s t hs h
  unfold step at h
  split at h
  · cases h
    exact (State.Keeps.tick (.refl s)).sound hs
  · exact (exec_keeps h).sound (hs.congr rfl rfl rfl)

end

section

open Sys2Proof Sys2Proof.Machine

namespace Sys2Proof.Machine

/-- A node in CONFIG, in the last tick before an UPDATE instant, with an update of no word waiting. -/
def updatedToNothing : State :=
  { State.resetOf .kld1c with
    device := .config, td0 := 31
    dies := [{ Die.zero with hold := false, clk := { Die.zero.clk with update := some [] } }] }

theorem updatedToNothing_sized : updatedToNothing.sized = true := by decide +kernel

theorem tick_updatedToNothing_not_sized : (tick updatedToNothing).sized = false := by decide +kernel

end Sys2Proof.Machine

/-- Refutes O4: the five words in force are replaced by as many as wait, and nothing in `sized` says how many wait; where none waits,
the tick that takes the update leaves a table of no entry. -/
theorem not_stepKeepsSizes : ¬ Obligations.step_keeps_sizes := by
  unfold Obligations.step_keeps_sizes
  intro h
  have hsized := h updatedToNothing _ updatedToNothing_sized rfl
  rw [tick_updatedToNothing_not_sized] at hsized
  cases hsized

end

section

open Sys2Proof Sys2Proof.Machine

namespace Sys2Proof.Machine

/-- A head in CONFIG whose collectors were armed eight ticks ago for a move to OFF, with a domain that advances by 1. -/
def armedForOff : State :=
  { State.resetOf .kld2h with
    device := .config, td0 := 8, arming := some (.off, 0)
    dies := List.replicate 2 { Die.zero with hold := false, ang := { Ang.zero with dom := [{ Domain.zero with inc := 1 }] } } }

theorem dom_tick_armedForOff : (tick armedForOff).dom 0 0 ≠ (armedForOff.dom 0 0).advance 9 := by decide +kernel

end Sys2Proof.Machine

/-- Refutes O16: the state that is armed for is entered at the start of the tick, before the domains advance. Where it is OFF, no die
is alive when they would, and they stand still. -/
theorem not_ringTick : ¬ Obligations.ring_tick := by
  unfold Obligations.ring_tick
  rintro ⟨-, h⟩
  obtain ⟨-, -, -, -, hdom⟩ := h armedForOff rfl rfl (by decide +kernel)
  exact dom_tick_armedForOff (hdom 0 0 (by decide +kernel) (by decide +kernel))

end

section

open Sys2Proof Sys2Proof.Machine

/-! ## Writes of the register port -/

namespace Sys2Proof.Machine

variable {s t : State} {d : Nat} {addr data : Word}

/-! ### The place an address names -/

/-- Where an address leads depends on the part alone. -/
theorem State.spot_congr (h : t.part = s.part) (a : Nat) : t.spot a = s.spot a := by
  unfold State.spot
  rw [h]

theorem State.gated_of_alive (h : s.alive d = true) : (s.die d).gated = false := by
  unfold State.alive at h
  simp at h
  exact h.1.2

/-- No content of an alive die is open. -/
theorem State.openSpot_of_alive {x : Spot} (ha : s.alive d = true) (hx : x.die = some d) : s.openSpot x = false := by
  have hg := State.gated_of_alive ha
  cases x <;> cases hx <;> simp [State.openSpot, hg]

/-- An access that lends its tick to a slice under test changes that count alone. -/
theorem State.lendSpot_eq (s : State) (x : Spot) :
    s.lendSpot x = s ∨ ∃ d f, s.lendSpot x = s.onBist d f := by
  have hl : ∀ d l, s.lend d l = s ∨ ∃ e f, s.lend d l = s.onBist e f := fun d l => by
    unfold State.lend
    dsimp only
    split
    · exact .inr ⟨_, _, rfl⟩
    · exact .inl rfl
  cases x with
  | program d key => exact hl ..
  | data d key => exact hl ..
  | entry d key => exact hl ..
  | _ => exact .inl rfl

theorem State.alive_lendSpot (x : Spot) : (s.lendSpot x).alive d = s.alive d := by
  obtain h | ⟨e, f, h⟩ := s.lendSpot_eq x
  · rw [h]
  · rw [h]
    refine State.alive_congr rfl rfl ?_ ?_
    all_goals
      unfold State.onBist
      rw [State.die_onDie]
      split
      · rfl
      · rfl

theorem State.sane_lendSpot (x : Spot) : (s.lendSpot x).sane = s.sane := by
  obtain h | ⟨e, f, h⟩ := s.lendSpot_eq x
  · rw [h]
  · rw [h]
    rfl

theorem State.part_lendSpot (x : Spot) : (s.lendSpot x).part = s.part := by
  obtain h | ⟨e, f, h⟩ := s.lendSpot_eq x
  · rw [h]
  · rw [h]
    rfl

/-! ### REGISTER_WRITE, by the place written -/

theorem State.maySend_of_sane (h : s.sane = true) : s.maySend addr data = true := by
  unfold State.maySend
  rw [h]
  rfl

theorem exec_registerWrite (hs : s.sane = true) (hd : (s.spot addr.toNat).die = some d) (ha : s.alive d = true) :
    exec (.registerWrite addr data) s = writeAt authDepth false addr data s := by
  show (if s.maySend addr data then opRegisterWrite addr data s else s.spoilt) = _
  rw [if_pos (State.maySend_of_sane hs)]
  unfold opRegisterWrite
  rw [hd]
  exact if_pos ha

/-- A host write to an alive die is made at the place its address names. -/
theorem exec_registerWrite_spot {x : Spot} (hs : s.sane = true) (hx : s.spot addr.toNat = x) (hd : x.die = some d)
    (ha : s.alive d = true) : ∃ go, exec (.registerWrite addr data) s = writeSpot false x data go s := by
  subst hx
  exact ⟨_, exec_registerWrite hs hd ha⟩

variable {auth : Bool} {v : Word} {go : Nat → State → Res} {key page off : Nat}

theorem writeSpot_program (ha : s.alive d = true) : writeSpot auth (.program d key) v go s = .next (s.stick d 5 31) :=
  if_neg (by simp [State.openSpot_of_alive (x := .program d key) ha rfl])

theorem writeSpot_data (ha : s.alive d = true) :
    writeSpot auth (.data d key) v go s = .next (s.hostData d key (v &&& 0xFFFF#32)) :=
  if_neg (by simp [State.openSpot_of_alive (x := .data d key) ha rfl])

theorem writeSpot_page (ha : s.alive d = true) : writeSpot auth (.page d page off) v go s =
    if off < 0x20 then .next (writeHeader d page off v s)
    else if 0x20 ≤ page then .next (if off < 0x100 then s else opContext d (page - 0x1F) ((off - 0x100) / 4) (v.setWidth 16) s)
    else if !auth && guardedReg page off then .next (s.guardReject d page off v)
    else if page = 14 && off = 0x60 then (if bitOf v.toNat 31 then go d s else .next s)
    else writeReg d page off v s :=
  if_neg (by simp [State.openSpot_of_alive (x := .page d page off) ha rfl])

/-- A word of coefficient or state memory takes the value, and nothing else of the registers moves. -/
theorem State.hostData_frame (hd : d < s.dies.length) :
    (s.hostData d key v).cell d key = v ∧ s.OnlyKeys (s.hostData d key v) d (· = key) := by
  unfold State.hostData
  have hk := (State.OnlyKeys.refl s d (· = key)).putCell key v rfl
  refine ⟨?_, hk.when _ _ (hk.onDie _ (fun _ => rfl) (fun _ => rfl))⟩
  unfold State.when
  split
  · refine (State.cell_onDie (s.putCell d key v) d d key _ ?_).trans (State.cell_putCell_same _ _ _ _ hd)
    exact fun _ => rfl
  · exact State.cell_putCell_same _ _ _ _ hd

theorem State.stick_frame (hd : d < s.dies.length) {b : Nat} (hb : b < 32) :
    (s.stick d page b).stuckAt d page b = true ∧ s.OnlyKeys (s.stick d page b) d (stickyKeys page) :=
  ⟨State.stuckAt_stick_same _ _ _ _ hd hb, (State.OnlyKeys.refl ..).stick _ _ (.inl rfl) (.inr rfl)⟩

/-! ### Bits of the summary page -/

theorem State.sumCell_putSum (off k : Nat) (w : Word) : (s.putSum off w).sumCell k = if k = off then w else s.sumCell k :=
  Cells.getD_find_put sumDflt off k w s.sum

/-- The summary bit set stands after it. -/
theorem State.bitOf_sumStick {b : Nat} (hb : b < 32) : bitOf ((s.sumStick b).sumCell 0xC).toNat b = true := by
  unfold State.sumStick
  dsimp only
  split
  · assumption
  · show bitOf (((s.putSum 0xC _).putSum 0x10 _).sumCell 0xC).toNat b = true
    rw [State.sumCell_putSum, if_neg (by decide), State.sumCell_putSum, if_pos rfl, bitOf_setBits _ _ _ _ _ hb (le_refl b)]
    simp [bitOf]

/-! ### WRITE_WORD and REG_TIMEOUT, by how the access is answered -/

theorem exec_writeWord (hs : s.sane = true) (hl : s.device.live = true) (hh : (s.die 0).hold = false) (h4 : addr.toNat % 4 = 0) :
    exec (.writeWord addr data) s = Res.bind (agentWrite false addr data s).2 fun t =>
      .next (t.answer t.port.data (if (agentWrite false addr data s).1 = 1 then 0xA else 5)) := by
  show (if s.maySend addr data then opWriteWord addr data s else s.spoilt) = _
  rw [if_pos (State.maySend_of_sane hs)]
  unfold opWriteWord
  rw [if_neg (by simp [hl, hh]), if_neg (by simp [h4])]

theorem exec_regTimeout_write (hs : s.sane = true) (hl : s.device.live = true) (hh : (s.die 0).hold = false)
    (h4 : addr.toNat % 4 = 0) :
    exec (.regTimeout true addr data) s = Res.bind (agentWrite false addr data s).2 fun t =>
      .next ((t.sumStick 1).answer t.port.data 0xA) := by
  show (if s.maySend addr data then opRegTimeout true addr data s else s.spoilt) = _
  rw [if_pos (State.maySend_of_sane hs)]
  unfold opRegTimeout
  rw [if_neg (by simp [hl, hh, h4]), if_pos rfl]

/-- A write that is carried out in time, at a place of a die. -/
theorem agentWrite_done (hd : (s.spot addr.toNat).die = some d) (h : s.access (s.spot addr.toNat) = .done) :
    (agentWrite auth addr v s).1 ≠ 1 ∧
    (agentWrite auth addr v s).2 = writeAt authDepth auth addr v (s.lendSpot (s.spot addr.toNat)) := by
  have hn : s.addrErr (s.spot addr.toNat) = s := by
    cases hx : s.spot addr.toNat with
    | nothing => rw [hx] at hd; cases hd
    | _ => rfl
  refine ⟨?_, ?_⟩
  · show s.writeStatus auth _ v ≠ 1
    unfold State.writeStatus
    rw [h, if_neg (by simp)]
    split
    · decide
    · decide
    · split
      · decide
      · split <;> decide
    · decide
  · show throughAgent _ addr s = _
    unfold throughAgent
    dsimp only
    rw [h]
    dsimp only
    rw [hn]

/-- A write towards a die that is not reached times out, and is not made. -/
theorem agentWrite_lost (h : s.access (s.spot addr.toNat) = .lost) :
    agentWrite auth addr v s = (1, .next (s.sumStick 1)) := by
  unfold agentWrite throughAgent State.writeStatus
  dsimp only
  rw [h]
  rfl

end Sys2Proof.Machine

/-- Settles O13, place by place: a frame that is carried out is the register write with the port's answer. -/
theorem writeFrames : Obligations.write_frames := by
  unfold Obligations.write_frames
  refine ⟨fun s addr data d hs hl hh h4 hd ha hacc => ?_, fun s addr data c hs hl hh h4 hacc hc => ?_,
    fun s addr data d key hsh hs ha hx => ?_, fun s addr data d page hsh hs ha hx => ?_, fun s addr data d key hsh hs ha hx => ?_,
    fun s addr data d page off hsh hs ha hx h10 h14 hp hoff hg => ?_⟩
  · have hspot := State.spot_congr (State.part_lendSpot (s := s) (s.spot addr.toNat)) addr.toNat
    obtain ⟨hst, hw⟩ := agentWrite_done (auth := false) (v := data) hd hacc
    obtain ⟨u, hu, -⟩ := State.Answers.writeAt (n := authDepth) (auth := false) (addr := addr) (v := data) (.refl (s.lendSpot
      (s.spot addr.toNat)))
    refine ⟨u, ?_, ?_, ?_⟩
    · rw [exec_registerWrite (by rw [State.sane_lendSpot]; exact hs) (by rw [hspot]; exact hd) (by rw [State.alive_lendSpot]; exact ha), hu]
    · rw [exec_writeWord hs hl hh h4, hw, hu, Res.bind_next, if_neg hst]
      rfl
    · exact ⟨(u.sumStick 1).answer u.port.data 0xA, (exec_regTimeout_write hs hl hh h4).trans (by rw [hw, hu, Res.bind_next]),
        State.sumStick_dies .., rfl, State.bitOf_sumStick (by decide)⟩
  · have hw := agentWrite_lost (auth := false) (v := data) hacc
    rcases hc with rfl | rfl
    · exact ⟨(s.sumStick 1).answer (s.sumStick 1).port.data 0xA, (exec_writeWord hs hl hh h4).trans (by rw [hw, Res.bind_next, if_pos rfl]),
        rfl, State.bitOf_sumStick (by decide), State.sumStick_dies ..⟩
    · exact ⟨((s.sumStick 1).sumStick 1).answer (s.sumStick 1).port.data 0xA,
        (exec_regTimeout_write hs hl hh h4).trans (by rw [hw, Res.bind_next]), rfl, State.bitOf_sumStick (by decide),
        (State.sumStick_dies ..).trans (State.sumStick_dies ..)⟩
  · obtain ⟨go, h⟩ := exec_registerWrite_spot (data := data) hs hx rfl ha
    exact ⟨_, h.trans (writeSpot_data ha), State.hostData_frame (State.lt_length hsh ha)⟩
  · obtain ⟨go, h⟩ := exec_registerWrite_spot (data := data) hs hx rfl ha
    exact ⟨s.putCell d (hdrKey page 0x1C) data, h.trans (writeSpot_page ha), State.cell_putCell_same _ _ _ _ (State.lt_length hsh ha),
      (State.OnlyKeys.refl ..).putCell _ _ rfl⟩
  · obtain ⟨go, h⟩ := exec_registerWrite_spot (data := data) hs hx rfl ha
    exact ⟨_, h.trans (writeSpot_program ha), State.stick_frame (State.lt_length hsh ha) (by decide)⟩
  · obtain ⟨go, h⟩ := exec_registerWrite_spot (data := data) hs hx rfl ha
    have hr : s.guardReject d page off data = s.stick d page 31 := by
      unfold State.guardReject
      rw [if_neg (by simp [h10]), if_neg (by simp [h14])]
    refine ⟨_, h.trans ((writeSpot_page ha).trans ?_), State.stick_frame (State.lt_length hsh ha) (by decide)⟩
    rw [if_neg (by omega), if_neg (by omega), if_pos (by simp [hg]), hr]

end

section

open Sys2Proof Sys2Proof.Machine

/-! ## The loop engines: slots, set-points and dispatch -/

namespace Sys2Proof.Machine

variable {s t u : State} {d sl : Nat}

/-! ### Rules of the operations on slots and set-point words -/

/-- A word field holds what is written to it. -/
theorem setBits_word (w v : Word) : setBits w 31 0 v.toNat = v := by
  apply BitVec.eq_of_toNat_eq
  rw [setBits_toNat _ _ _ _ (by decide) (by decide)]
  have hw := w.isLt
  have hv := v.isLt
  simp only [bitsOf]
  omega

theorem State.cell_wr_word {f : Fld} {i : Nat} {v : Word} (hd : d < s.dies.length) (hi : f.hi = 31) (hl : f.lo = 0) :
    (s.wr d f i v.toNat).cell d (f.key i) = v := by
  unfold State.wr
  rw [State.cell_putCell_same _ _ _ _ hd, hi, hl, setBits_word]

theorem State.slot_wr {f : Fld} {i v k : Nat} : (s.wr d f i v).slot d k = s.slot d k := by
  unfold State.slot
  rw [State.wr_le']

theorem State.slot_onSlot {k : Nat} {f : Slot → Slot} (hd : d < s.dies.length) (hs : sl < (s.die d).le.slot.length) :
    (s.onSlot d sl f).slot d k = if k = sl then f (s.slot d k) else s.slot d k := by
  unfold State.slot State.onSlot setAt
  rw [State.die_onDie_same _ _ _ hd]
  simp only [List.getD_eq_getElem?_getD, List.getElem?_modify]
  by_cases hk : sl = k
  · subst hk
    simp [List.getElem?_eq_getElem hs]
  · simp [hk, Ne.symm hk]

theorem State.length_onSlot {f : Slot → Slot} : ((s.onSlot d sl f).die d).le.slot.length = (s.die d).le.slot.length := by
  unfold State.onSlot setAt
  rw [State.die_onDie]
  split
  · exact List.length_modify ..
  · rfl

theorem State.en_onSlot {f : Slot → Slot} : ((s.onSlot d sl f).die d).le.en = (s.die d).le.en := by
  unfold State.onSlot
  rw [State.die_onDie]
  split
  · rfl
  · rfl

theorem State.OnlyKeys.onSlot {P : Nat → Prop} {f : Slot → Slot} (h : s.OnlyKeys t d P) : s.OnlyKeys (t.onSlot d sl f) d P :=
  h.onDie _ (fun _ => rfl) (fun _ => rfl)

theorem State.cell_onSlot {e key : Nat} {f : Slot → Slot} : (s.onSlot d sl f).cell e key = s.cell e key :=
  State.cell_onDie _ _ _ _ _ fun _ => rfl

/-- A change of one set-point word of a slot is seen at that word alone. -/
theorem State.spWord_onSp {w k : Nat} {f : SpWord → SpWord} (hd : d < s.dies.length) (hs : sl < (s.die d).le.slot.length) :
    (s.onSp d sl w f).spWord d sl k = if k = w ∧ w < (s.slot d sl).sp.length then f (s.spWord d sl k) else s.spWord d sl k := by
  unfold State.spWord State.onSp
  rw [State.slot_onSlot hd hs, if_pos rfl]
  unfold setAt
  simp only [List.getD_eq_getElem?_getD, List.getElem?_modify]
  by_cases hk : w = k
  · subst hk
    by_cases hw : w < (s.slot d sl).sp.length
    · simp [hw]
    · simp [hw]
  · simp [hk, Ne.symm hk]

theorem State.spPend_eq {w rank : Nat} {v : BitVec 16} :
    s.spPend d sl w rank v = s.onSp d sl w fun p => p.write s.td0 rank v := rfl

/-- What every element of a list keeps holds after all. -/
theorem State.each_keeps {α : Type} {l : List α} {f : State → α → State} {P : State → Prop} (h : P s)
    (hP : ∀ v b, P v → P (f v b)) : P (s.each l f) := by
  unfold State.each
  induction l generalizing s with
  | nil => exact h
  | cons b l ih => exact ih (hP s b h)

/-- What one element of a list brings about, and every other keeps, holds after all. -/
theorem State.each_brings {α : Type} {l : List α} {f : State → α → State} {a : α} {P Q : State → Prop} (ha : a ∈ l) (h : P s)
    (hP : ∀ v b, P v → P (f v b)) (hQ : ∀ v b, P v → Q v → Q (f v b)) (hb : ∀ v, P v → Q (f v a)) : Q (s.each l f) := by
  have hk : ∀ (l : List α) v, P v → Q v → Q (v.each l f) := fun l v hp hq =>
    (State.each_keeps (P := fun v => P v ∧ Q v) ⟨hp, hq⟩ fun v b h => ⟨hP v b h.1, hQ v b h.1 h.2⟩).2
  induction l generalizing s with
  | nil => cases ha
  | cons b l ih =>
    rcases List.mem_cons.1 ha with rfl | ha
    · exact hk l _ (hP s a h) (hb s h)
    · exact ih ha (hP s b h)

/-! ### The start of a tick -/

/-- What the start of a tick does to a slot whose enable has changed from `old` to `new` (06 R158). -/
def State.leTurn (s : State) (d new old sl : Nat) : State :=
  if bitOf new sl && !bitOf old sl then s.onSlot d sl fun x => { x with casc := 0 }
  else if !bitOf new sl && bitOf old sl && s.cond d sl == 1 then s.setCondition d sl 0
  else s

/-- The enables take the value of their registers at the start of a tick. -/
def State.takeEnables (s : State) (d new : Nat) : State :=
  if new = (s.die d).le.en then s
  else (s.onDie d fun x => { x with le := { x.le with en := new } }).each slots fun v k => v.leTurn d new (s.die d).le.en k

theorem State.leStart_eq (s : State) (d : Nat) :
    s.leStart d = s.takeEnables d (s.rd d Fd.SLOT_EN_LO.W + s.rd d Fd.SLOT_EN_HI.W * 2 ^ 32) := by
  unfold State.leStart State.takeEnables
  rfl

/-- A die whose enables in force and number of slots are given. -/
def State.HasEnables (s : State) (d en n : Nat) : Prop :=
  d < s.dies.length ∧ (s.die d).le.en = en ∧ (s.die d).le.slot.length = n

theorem State.HasEnables.leTurn {en n new old k : Nat} (h : s.HasEnables d en n) : (s.leTurn d new old k).HasEnables d en n := by
  obtain ⟨hd, he, hn⟩ := h
  unfold State.leTurn
  split
  · exact ⟨by rwa [State.onSlot, State.onDie_length], State.en_onSlot.trans he, State.length_onSlot.trans hn⟩
  · split
    · exact ⟨by rwa [State.setCondition, State.wr_length], by rw [State.setCondition, State.wr_le']; exact he,
        by rw [State.setCondition, State.wr_le']; exact hn⟩
    · exact ⟨hd, he, hn⟩

theorem State.casc_leTurn {en n new old k : Nat} (h : s.HasEnables d en n) (hc : (s.slot d sl).casc = 0) :
    ((s.leTurn d new old k).slot d sl).casc = 0 := by
  obtain ⟨hd, -, hn⟩ := h
  unfold State.leTurn
  split
  · by_cases hk : k < (s.die d).le.slot.length
    · rw [State.slot_onSlot hd hk]
      split
      · rfl
      · exact hc
    · unfold State.slot State.onSlot setAt
      rw [State.die_onDie_same _ _ _ hd]
      simp only
      rw [List.modify_eq_self (by omega)]
      exact hc
  · split
    · rw [State.setCondition, State.slot_wr]
      exact hc
    · exact hc

theorem State.takeEnables_spec {new : Nat} (hd : d < s.dies.length) :
    ((s.takeEnables d new).die d).le.en = new ∧
    ∀ sl, sl < 64 → s.slotEn d sl = false → (s.takeEnables d new).slotEn d sl = true → sl < (s.die d).le.slot.length →
      ((s.takeEnables d new).slot d sl).casc = 0 := by
  unfold State.takeEnables
  split
  · next hn =>
    refine ⟨hn.symm, fun sl _ h0 h1 => ?_⟩
    rw [h0] at h1
    cases h1
  · have h0 : (s.onDie d fun x => { x with le := { x.le with en := new } }).HasEnables d new (s.die d).le.slot.length := by
      refine ⟨by rwa [State.onDie_length], ?_, ?_⟩
      · rw [State.die_onDie_same _ _ _ hd]
      · rw [State.die_onDie_same _ _ _ hd]
    generalize (s.onDie d fun x => { x with le := { x.le with en := new } }) = v at h0 ⊢
    have hend : (v.each slots fun v k => v.leTurn d new (s.die d).le.en k).HasEnables d new (s.die d).le.slot.length :=
      State.each_keeps (P := fun v => v.HasEnables d new (s.die d).le.slot.length) h0 fun _ _ h => h.leTurn
    refine ⟨hend.2.1, fun sl h64 hoff hon hl => ?_⟩
    unfold State.slotEn at hoff hon
    rw [hend.2.1] at hon
    refine State.each_brings (P := fun v => v.HasEnables d new (s.die d).le.slot.length) (Q := fun v => (v.slot d sl).casc = 0)
      (List.mem_range.2 h64) h0 (fun _ _ h => h.leTurn) (fun _ _ h hc => State.casc_leTurn h hc) fun v h => ?_
    unfold State.leTurn
    rw [if_pos (by simp [hoff, hon]), State.slot_onSlot h.1 (by rw [h.2.2]; exact hl), if_pos rfl]

/-! ### Writes of set-point words -/

theorem State.spWord_wr {f : Fld} {i v w : Nat} : (s.wr d f i v).spWord d sl w = s.spWord d sl w := by
  unfold State.spWord
  rw [State.slot_wr]

theorem SpWord.val_write {x : SpWord} {now : Int} {rank : Nat} {v : BitVec 16} (h : x.rank ≤ rank) :
    (x.write now rank v).val = v ∧ (x.write now rank v).mark = true := by
  unfold SpWord.write
  split
  · rw [if_neg (by omega)]
    exact ⟨rfl, rfl⟩
  · exact ⟨rfl, rfl⟩

/-- A write of a slot's set-point register stores the shadow and makes both its words pending (07 R194). -/
theorem opSps_spec {hi : Bool} {value : Word} (hd : d < s.dies.length) (hl : sl < (s.die d).le.slot.length)
    (h4 : (s.slot d sl).sp.length = 4) :
    (opSps d sl hi value s).cell d ((if hi then Fd.SPS_HI.W else Fd.SPS_LO.W).key sl) = value ∧
    (∀ w, w = (if hi then 2 else 0) →
      (opSps d sl hi value s).spWord d sl w = (s.spWord d sl w).write s.td0 2 (value.setWidth 16) ∧
      (opSps d sl hi value s).spWord d sl (w + 1) = (s.spWord d sl (w + 1)).write s.td0 2 (BitVec.ofNat 16 (value.toNat / 65536))) ∧
    (∀ k, k ≠ sl → (opSps d sl hi value s).slot d k = s.slot d k) ∧
    s.OnlyKeys (opSps d sl hi value s) d (· = (if hi then Fd.SPS_HI.W else Fd.SPS_LO.W).key sl) := by
  generalize hf : (if hi then Fd.SPS_HI.W else Fd.SPS_LO.W) = f
  have hf1 : f.hi = 31 ∧ f.lo = 0 := by subst hf; cases hi <;> exact ⟨rfl, rfl⟩
  have hw : ∃ w, (if hi then 2 else 0) = w ∧ w + 1 < 4 := ⟨_, rfl, by split <;> decide⟩
  obtain ⟨w, hwe, hw4⟩ := hw
  have he : opSps d sl hi value s = (((s.wr d f sl value.toNat).spPend d sl w 2 (value.setWidth 16)).spPend d sl (w + 1) 2
      (BitVec.ofNat 16 (value.toNat / 65536))) := by
    unfold opSps
    rw [hf, hwe]
  rw [he]
  simp only [State.spPend_eq]
  generalize hu : s.wr d f sl value.toNat = u
  have hud : d < u.dies.length := by subst hu; rwa [State.wr_length]
  have hul : sl < (u.die d).le.slot.length := by subst hu; rwa [State.wr_le']
  have hus : u.slot d = s.slot d := by subst hu; exact funext fun _ => State.slot_wr
  have huw : u.spWord d sl = s.spWord d sl := by subst hu; exact funext fun _ => State.spWord_wr
  have hut : u.td0 = s.td0 := by subst hu; rfl
  generalize hv : u.onSp d sl w (fun p => p.write u.td0 2 (value.setWidth 16)) = v
  have hvd : d < v.dies.length := by subst hv; rwa [State.onSp, State.onSlot, State.onDie_length]
  have hvl : sl < (v.die d).le.slot.length := by subst hv; rw [State.onSp, State.length_onSlot]; exact hul
  have hvt : v.td0 = s.td0 := by subst hv; exact hut
  have hvn : (v.slot d sl).sp.length = 4 := by
    subst hv
    rw [State.onSp, State.slot_onSlot hud hul, if_pos rfl, hus]
    exact (List.length_modify ..).trans h4
  refine ⟨?_, fun w' hw' => ?_, fun k hk => ?_, ?_⟩
  · rw [State.onSp, State.cell_onSlot]
    subst hv
    rw [State.onSp, State.cell_onSlot]
    subst hu
    exact State.cell_wr_word hd hf1.1 hf1.2
  · obtain rfl : w' = w := hw'.trans hwe
    constructor
    · rw [State.spWord_onSp hvd hvl, if_neg (by omega)]
      subst hv
      rw [State.spWord_onSp hud hul, if_pos ⟨rfl, by rw [hus]; omega⟩, huw, hut]
    · rw [State.spWord_onSp hvd hvl, if_pos ⟨rfl, by omega⟩, hvt]
      subst hv
      rw [State.spWord_onSp hud hul, if_neg (by omega), huw]
  · rw [State.onSp, State.slot_onSlot hvd hvl, if_neg hk]
    subst hv
    rw [State.onSp, State.slot_onSlot hud hul, if_neg hk, hus]
  · subst hv hu
    exact (((State.OnlyKeys.refl s d (· = f.key sl)).wr f sl value.toNat rfl).onSlot).onSlot

theorem opSlotCasc_spec {value : Word} (hd : d < s.dies.length) (hl : sl < (s.die d).le.slot.length) :
    (opSlotCasc d sl value s).cell d (Fd.SLOT_CASC.W.key sl) = value &&& 0x803F00FF#32 ∧
    ((opSlotCasc d sl value s).slot d sl).casc = 0 ∧ (∀ k, k ≠ sl → (opSlotCasc d sl value s).slot d k = s.slot d k) ∧
    s.OnlyKeys (opSlotCasc d sl value s) d (· = Fd.SLOT_CASC.W.key sl) := by
  unfold opSlotCasc
  have hl' : sl < ((s.wr d Fd.SLOT_CASC.W sl (value &&& 0x803F00FF#32).toNat).die d).le.slot.length := by rwa [State.wr_le']
  have hd' : d < (s.wr d Fd.SLOT_CASC.W sl (value &&& 0x803F00FF#32).toNat).dies.length := by rwa [State.wr_length]
  refine ⟨?_, ?_, fun k hk => ?_, ?_⟩
  · rw [State.cell_onSlot]
    exact State.cell_wr_word hd rfl rfl
  · rw [State.slot_onSlot hd' hl', if_pos rfl]
  · rw [State.slot_onSlot hd' hl', if_neg hk, State.slot_wr]
  · exact State.OnlyKeys.onSlot ((State.OnlyKeys.refl s d (· = Fd.SLOT_CASC.W.key sl)).wr _ _ _ rfl)

/-! ### The boundary of a slot: its set-point words come into force (07 R196) -/

/-- From s to t nothing of the package beside die d changes, of its registers only those P names, and of its loop engines
neither the instances nor the order of their turns. -/
structure State.SlotFrame (P : Nat → Prop) (s t : State) (d : Nat) : Prop where
  only : s.OnlyKeys t d P
  find : ∀ key, ¬P key → (t.die d).cells.find key = (s.die d).cells.find key
  inst : (t.die d).le.inst = (s.die d).le.inst
  turn0 : (t.die d).le.turn0 = (s.die d).le.turn0

theorem Cells.find_put_ne {k j : Nat} {w : Word} {dflt : Word} {c : Cells} (h : j ≠ k) : (c.put dflt k w).find j = c.find j := by
  unfold Cells.put
  split
  · rw [Cells.find_erase, if_neg h]
  · rw [Cells.find_insert, if_neg h]

namespace State.SlotFrame

variable {P Q : Nat → Prop}

theorem refl (P : Nat → Prop) (s : State) (d : Nat) : State.SlotFrame P s s d := ⟨.refl .., fun _ _ => rfl, rfl, rfl⟩

theorem trans (h : State.SlotFrame P s t d) (k : State.SlotFrame P t u d) : State.SlotFrame P s u d :=
  ⟨h.only.trans k.only, fun key hk => (k.find key hk).trans (h.find key hk), k.inst.trans h.inst, k.turn0.trans h.turn0⟩

theorem mono (h : State.SlotFrame P s t d) (hp : ∀ k, P k → Q k) : State.SlotFrame Q s t d :=
  ⟨h.only.mono hp, fun key hk => h.find key fun c => hk (hp key c), h.inst, h.turn0⟩

theorem wr {f : Fld} {i v : Nat} (h : State.SlotFrame P s t d) (hk : P (f.key i)) : State.SlotFrame P s (t.wr d f i v) d := by
  refine h.trans ⟨(State.OnlyKeys.refl ..).wr f i v hk, fun key hn => ?_, by rw [State.wr_le'], by rw [State.wr_le']⟩
  unfold State.wr State.putCell
  rw [State.die_onDie]
  split
  · exact Cells.find_put_ne fun he => hn (he ▸ hk)
  · rfl

theorem onSp {w : Nat} {f : SpWord → SpWord} (h : State.SlotFrame P s t d) : State.SlotFrame P s (t.onSp d sl w f) d := by
  refine h.trans ⟨(State.OnlyKeys.refl ..).onSlot, fun key _ => ?_, ?_, ?_⟩
  all_goals
    unfold State.onSp State.onSlot
    rw [State.die_onDie]
    split
    · rfl
    · rfl

theorem cell (h : State.SlotFrame P s t d) {key : Nat} (hk : ¬P key) : t.cell d key = s.cell d key := by
  obtain ⟨-, -, -, hc, -⟩ := h.only
  exact hc key hk

theorem rd (h : State.SlotFrame P s t d) {f : Fld} {i : Nat} (hk : ¬P (f.key i)) : t.rd d f i = s.rd d f i := by
  unfold State.rd
  rw [h.cell hk]

theorem device (h : State.SlotFrame P s t d) : t.device = s.device := by rw [h.only.1]
theorem td0 (h : State.SlotFrame P s t d) : t.td0 = s.td0 := by rw [h.only.1]
theorem length (h : State.SlotFrame P s t d) : t.dies.length = s.dies.length := h.only.2.1

end State.SlotFrame

/-- The registers of the set-point words in force of a slot. -/
def spaKeys (sl key : Nat) : Prop := key = Fd.SPA_LO.W.key sl ∨ key = Fd.SPA_HI.W.key sl

theorem spaKeys_spaFld (w sl : Nat) : spaKeys sl ((spaFld w).key sl) := by
  unfold spaFld
  split
  · exact .inl rfl
  · exact .inl rfl
  · exact .inr rfl
  · exact .inr rfl

/-- What word w of a slot is after its boundary: the value of the source it follows, or what the tick before left pending. -/
def State.wordTaken (s : State) (d sl w : Nat) : BitVec 16 :=
  match (if s.device.follows then s.followSrc d sl w else none) with
  | some src => s.followValue d src
  | none => if ((s.spWord d sl w).before s.td0).2 then ((s.spWord d sl w).before s.td0).1 else s.spActive d sl w

/-- The boundary at word w. -/
def State.takeWord (s : State) (d sl w : Nat) : State :=
  let p := (s.spWord d sl w).before s.td0
  match (if s.device.follows then s.followSrc d sl w else none) with
  | some src => (s.setActive d sl w (s.followValue d src)).onSp d sl w fun x => x.taken s.td0
  | none => if p.2 then (s.setActive d sl w p.1).onSp d sl w fun x => x.taken s.td0 else s

theorem State.boundary_eq (s : State) (d sl : Nat) : s.boundary d sl = s.each [0, 1, 2, 3] fun v w => v.takeWord d sl w := rfl

theorem State.spWord_onSp_ne {w k : Nat} {f : SpWord → SpWord} (hk : k ≠ w) : (s.onSp d sl w f).spWord d sl k = s.spWord d sl k := by
  by_cases hd : d < s.dies.length
  · by_cases hs : sl < (s.die d).le.slot.length
    · rw [State.spWord_onSp hd hs, if_neg fun h => hk h.1]
    · unfold State.spWord State.slot State.onSp State.onSlot setAt
      rw [State.die_onDie_same _ _ _ hd]
      simp only
      rw [List.modify_eq_self (by omega)]
  · unfold State.spWord State.slot State.onSp State.onSlot
    rw [State.die_onDie, if_neg fun h => hd h.2]

/-- Word w of a slot in force: the half of a register. -/
theorem spaFld_eq {w : Nat} (hw : w < 4) : spaFld w = ⟨0x5, 0xB00 + 4 * (w / 2), 0x8, 16 * (w % 2) + 15, 16 * (w % 2)⟩ := by
  interval_cases w <;> rfl

/-- A word that comes into force is seen at that word alone. -/
theorem State.spActive_setActive {w k : Nat} {v : BitVec 16} (hd : d < s.dies.length) (hw : w < 4) (hk : k < 4) :
    (s.setActive d sl w v).spActive d sl k = if k = w then v else s.spActive d sl k := by
  unfold State.spActive State.setActive
  rw [spaFld_eq hw, spaFld_eq hk]
  split
  · next h =>
    subst h
    rw [State.rd_wr_same _ _ _ _ _ hd (show 16 * (k % 2) + 15 < 32 by omega) (show 16 * (k % 2) ≤ 16 * (k % 2) + 15 by omega),
      show 16 * (k % 2) + 15 + 1 - 16 * (k % 2) = 16 by omega, Nat.mod_eq_of_lt v.isLt, BitVec.ofNat_toNat, BitVec.setWidth_eq]
  · next h =>
    by_cases hh : k / 2 = w / 2
    · rw [State.rd_wr_bits _ _ _ _ _ _ _ _ (by rw [hh]; rfl) (show 16 * (w % 2) + 15 < 32 by omega)
        (show 16 * (w % 2) ≤ 16 * (w % 2) + 15 by omega)
        (show 16 * (k % 2) + 15 < 16 * (w % 2) ∨ 16 * (w % 2) + 15 < 16 * (k % 2) by omega)]
    · rw [State.rd_wr_ne _ _ _ _ _ _ _ _ (.inr (by unfold Fld.key; simp only; omega))]

theorem State.spActive_onSp {w k : Nat} {f : SpWord → SpWord} : (s.onSp d sl w f).spActive d sl k = s.spActive d sl k := by
  unfold State.spActive State.rd
  rw [State.onSp, State.cell_onSlot]

theorem State.spWord_setActive {w k : Nat} {v : BitVec 16} : (s.setActive d sl w v).spWord d sl k = s.spWord d sl k := State.spWord_wr

theorem State.takeWord_frame (s : State) (d sl w : Nat) : State.SlotFrame (spaKeys sl) s (s.takeWord d sl w) d := by
  have h : ∀ v f, State.SlotFrame (spaKeys sl) s ((s.setActive d sl w v).onSp d sl w f) d := fun v f =>
    ((State.SlotFrame.refl _ s d).wr (spaKeys_spaFld w sl)).onSp
  unfold State.takeWord
  dsimp only
  split
  · exact h ..
  · split
    · exact h ..
    · exact .refl ..

theorem State.takeWord_spec {w k : Nat} (hd : d < s.dies.length) (hw : w < 4) (hk : k < 4) :
    (s.takeWord d sl w).spActive d sl k = (if k = w then s.wordTaken d sl w else s.spActive d sl k) ∧
    (k ≠ w → (s.takeWord d sl w).spWord d sl k = s.spWord d sl k) := by
  have h : ∀ v f, ((s.setActive d sl w v).onSp d sl w f).spActive d sl k = (if k = w then v else s.spActive d sl k) ∧
      (k ≠ w → ((s.setActive d sl w v).onSp d sl w f).spWord d sl k = s.spWord d sl k) := fun v f =>
    ⟨State.spActive_onSp.trans (State.spActive_setActive hd hw hk), fun hn => (State.spWord_onSp_ne hn).trans State.spWord_setActive⟩
  unfold State.takeWord State.wordTaken
  dsimp only
  split
  · exact h ..
  · split
    · exact h ..
    · refine ⟨?_, fun _ => rfl⟩
      split
      · next hkw => rw [hkw]
      · rfl

/-- What a word takes is read beside the registers of the words in force. -/
theorem State.wordTaken_congr {P : Nat → Prop} {w : Nat} (h : State.SlotFrame P s t d)
    (hp : ∀ key, P key → key / 0x1000 = 5 ∧ key ≠ Fd.SLOT_SPMODE.W.key sl)
    (hw : t.spWord d sl w = s.spWord d sl w) (ha : t.spActive d sl w = s.spActive d sl w) : t.wordTaken d sl w = s.wordTaken d sl w := by
  have hsrc : t.followSrc d sl w = s.followSrc d sl w := by
    unfold State.followSrc
    rw [h.rd fun hk => (hp _ hk).2 rfl]
  have hval : ∀ src, src < 0x14 → t.followValue d src = s.followValue d src := fun src hlt => by
    unfold State.followValue State.trkSpeed
    split
    · rw [h.rd fun hk => ?_]
      have := (hp _ hk).1
      simp [Fld.key] at this
      omega
    · rw [h.rd fun hk => ?_, h.rd fun hk => ?_]
      all_goals
        have := (hp _ hk).1
        simp [Fld.key] at this
        omega
  unfold State.wordTaken
  rw [h.device, hsrc, hw, ha, h.td0]
  split
  · next src hs =>
    refine hval src ?_
    unfold State.followSrc at hs
    dsimp only at hs
    split at hs
    · split at hs
      · next hlt =>
        cases hs
        simp only [Bool.and_eq_true, decide_eq_true_eq] at hlt
        exact hlt.2
      · cases hs
    · cases hs
  · rfl

theorem spaKeys_page {key : Nat} (hsl : sl < 64) (h : spaKeys sl key) : key / 0x1000 = 5 ∧ key ≠ Fd.SLOT_SPMODE.W.key sl := by
  simp [spaKeys, Fld.key] at h ⊢
  omega

/-- Words taken one after the other are each taken as they stood. -/
theorem State.each_takeWord (hsl : sl < 64) {l : List Nat} (hl : l.Nodup) (h4 : ∀ w ∈ l, w < 4) (hd : d < s.dies.length) :
    State.SlotFrame (spaKeys sl) s (s.each l fun v w => v.takeWord d sl w) d ∧
    ∀ k, k < 4 → (s.each l fun v w => v.takeWord d sl w).spActive d sl k = if k ∈ l then s.wordTaken d sl k else s.spActive d sl k := by
  induction l generalizing s with
  | nil => exact ⟨.refl .., fun k _ => rfl⟩
  | cons a l ih =>
    obtain ⟨ha, hl⟩ := List.nodup_cons.1 hl
    have ha4 := h4 a List.mem_cons_self
    have hf := s.takeWord_frame d sl a
    obtain ⟨hfl, hal⟩ := ih (s := s.takeWord d sl a) hl (fun w hw => h4 w (List.mem_cons_of_mem _ hw)) (by rw [hf.length]; exact hd)
    refine ⟨hf.trans hfl, fun k hk => (hal k hk).trans ?_⟩
    obtain ⟨hact, hword⟩ := State.takeWord_spec (k := k) (sl := sl) hd ha4 hk
    by_cases hka : k = a
    · subst hka
      rw [if_neg ha, hact, if_pos rfl, if_pos List.mem_cons_self]
    · rw [if_neg hka] at hact
      rw [hact, State.wordTaken_congr hf (fun _ => spaKeys_page hsl) (hword hka) hact]
      simp [hka]

theorem State.boundary_spec (hsl : sl < 64) (hd : d < s.dies.length) :
    State.SlotFrame (spaKeys sl) s (s.boundary d sl) d ∧ ∀ k, k < 4 → (s.boundary d sl).spActive d sl k = s.wordTaken d sl k := by
  rw [State.boundary_eq]
  obtain ⟨hf, h⟩ := State.each_takeWord (s := s) hsl (l := [0, 1, 2, 3]) (by decide) (by decide) hd
  refine ⟨hf, fun k hk => (h k hk).trans (if_pos ?_)⟩
  interval_cases k <;> decide

/-! ### The grant of an Inst -/

theorem mem_insertBy {α : Type} {le : α → α → Bool} {a x : α} {l : List α} (h : x ∈ insertBy le a l) : x = a ∨ x ∈ l := by
  induction l with
  | nil => exact .inl (List.mem_singleton.1 h)
  | cons b l ih =>
    unfold insertBy at h
    split at h
    · exact List.mem_cons.1 h
    · rcases List.mem_cons.1 h with rfl | h
      · exact .inr List.mem_cons_self
      · exact (ih h).imp id (List.mem_cons_of_mem _)

theorem mem_sortBy {α : Type} {le : α → α → Bool} {x : α} {l : List α} (h : x ∈ sortBy le l) : x ∈ l := by
  induction l with
  | nil => exact h
  | cons a l ih => exact (mem_insertBy h).elim (fun he => he ▸ List.mem_cons_self) fun h => List.mem_cons_of_mem _ (ih h)

/-- The slot first in order is one of the 64. -/
theorem State.nextSlot_lt {e : Nat} (h : s.nextSlot d e = some sl) : sl < 64 := by
  unfold State.nextSlot at h
  split at h
  · cases h
  · next a l hs =>
    split at h
    · cases h
    · cases h
      have hm : sl ∈ s.waitingOn d e := mem_sortBy (hs ▸ List.mem_cons_self)
      exact List.mem_range.1 (List.mem_of_mem_filter hm)

theorem State.freeInst_lt {e i : Nat} (h : (s.freeInst d e).head? = some i) : i < 8 :=
  List.mem_range.1 (List.mem_of_mem_filter (List.mem_of_head? h))

/-- The registers a grant may change: the condition and the Inst of the slot, and its words in force. -/
def grantKeys (sl key : Nat) : Prop := key = Fd.SLOT_STAT.COND.key sl ∨ spaKeys sl key

theorem grantKeys_page {key : Nat} (hsl : sl < 64) (h : grantKeys sl key) :
    pageKeys 5 key ∧ arriving key = false ∧ key ≠ Fd.SLOT_PROG.PROG_BASE.key sl ∧ key ≠ Fd.SLOT_CTRL.COEF_SEL.key sl ∧
    key / 0x1000 = 5 ∧ key ≠ Fd.SLOT_SPMODE.W.key sl := by
  simp [grantKeys, spaKeys, Fld.key, pageKeys, arriving] at h ⊢
  omega

theorem State.inst_onInst {e i : Nat} {f : Inst → Inst} (hd : d < s.dies.length) (hi : 8 * e + i < (s.die d).le.inst.length) :
    (s.onInst d e i f).inst d e i = f (s.inst d e i) := by
  unfold State.inst State.onInst setAt
  rw [State.die_onDie_same _ _ _ hd]
  simp only [List.getD_eq_getElem?_getD, List.getElem?_modify]
  simp [List.getElem?_eq_getElem hi]

theorem State.inst_onInst_ne {e i k : Nat} {f : Inst → Inst} (hk : k ≠ 8 * e + i) :
    ((s.onInst d e i f).die d).le.inst.getD k Inst.idle = (s.die d).le.inst.getD k Inst.idle := by
  unfold State.onInst setAt
  rw [State.die_onDie]
  split
  · simp only [List.getD_eq_getElem?_getD, List.getElem?_modify]
    simp [Ne.symm hk]
  · rfl

/-- The state of a die in which a slot has been granted an Inst, before that is set going. -/
theorem State.granted_spec {i : Nat} (hsl : sl < 64) (hd : d < s.dies.length) :
    let u := ((s.setCondition d sl 2).wr d Fd.SLOT_STAT.INSTANCE sl i).boundary d sl
    State.SlotFrame (grantKeys sl) s u d ∧ u.cond d sl = 2 ∧ u.rd d Fd.SLOT_STAT.INSTANCE sl = i % 8 ∧
    ∀ w, w < 4 → u.spActive d sl w = s.wordTaken d sl w := by
  dsimp only
  generalize hv : (s.setCondition d sl 2).wr d Fd.SLOT_STAT.INSTANCE sl i = v
  have hc : d < (s.setCondition d sl 2).dies.length := by rwa [State.setCondition, State.wr_length]
  have hvd : d < v.dies.length := by subst hv; rwa [State.wr_length]
  have hsv : State.SlotFrame (fun key => key = Fd.SLOT_STAT.COND.key sl) s v d := by
    subst hv
    exact ((State.SlotFrame.refl (fun key => key = Fd.SLOT_STAT.COND.key sl) s d).wr (f := Fd.SLOT_STAT.COND) rfl).wr
      (f := Fd.SLOT_STAT.INSTANCE) rfl
  obtain ⟨hf, hact⟩ := State.boundary_spec (s := v) hsl hvd
  have hstat : ¬spaKeys sl (Fd.SLOT_STAT.COND.key sl) := by simp [spaKeys, Fld.key]; omega
  refine ⟨(hsv.mono fun _ => .inl).trans (hf.mono fun _ => .inr), ?_, ?_, fun w hw => (hact w hw).trans ?_⟩
  · unfold State.cond
    rw [hf.rd hstat, ← hv]
    refine (State.rd_wr_bits (g := Fd.SLOT_STAT.INSTANCE) (g' := Fd.SLOT_STAT.COND) (hk := rfl) (hi := by decide)
      (hl := by decide) (hb := by decide) ..).trans ?_
    exact State.rd_wr_same _ _ _ _ _ hd (by decide) (by decide)
  · rw [hf.rd (f := Fd.SLOT_STAT.INSTANCE) hstat, ← hv]
    exact State.rd_wr_same _ _ _ _ _ hc (by decide) (by decide)
  · have hne : ∀ key, key = Fd.SLOT_STAT.COND.key sl → key / 0x1000 = 5 ∧ key ≠ Fd.SLOT_SPMODE.W.key sl := fun key h =>
      (grantKeys_page hsl (.inl h)).2.2.2.2
    refine State.wordTaken_congr hsv hne ?_ ?_
    · subst hv
      rw [State.spWord_wr, State.setCondition, State.spWord_wr]
    · unfold State.spActive
      rw [hsv.rd fun h => hstat (h ▸ spaKeys_spaFld w sl)]

/-- The Inst as a grant sets it going. -/
def State.freshInst (s : State) (d sl i : Nat) : Inst :=
  { Inst.idle with
    busy := true, slot := sl, pc := s.rd d Fd.SLOT_PROG.PROG_BASE sl, coefB := s.flag d Fd.SLOT_CTRL.COEF_SEL sl
    first := s.firstIssue d i, snap := (s.die d).cells.filter fun c => arriving c.1
    sp := [0, 1, 2, 3].map fun w => s.spActive d sl w }

theorem State.grant_eq (s : State) (d e i sl : Nat) : s.grant d e i sl =
    (((s.setCondition d sl 2).wr d Fd.SLOT_STAT.INSTANCE sl i).boundary d sl).onInst d e i fun _ =>
      (((s.setCondition d sl 2).wr d Fd.SLOT_STAT.INSTANCE sl i).boundary d sl).freshInst d sl i := rfl

theorem State.cell_onInst {e i k key : Nat} {f : Inst → Inst} : (s.onInst d e i f).cell k key = s.cell k key :=
  State.cell_onDie _ _ _ _ _ fun _ => rfl

theorem State.rd_onInst {e i k j : Nat} {g : Fld} {f : Inst → Inst} : (s.onInst d e i f).rd k g j = s.rd k g j := by
  unfold State.rd
  rw [State.cell_onInst]

/-- What a grant makes of the slot and of the Inst (06 R154, R166; 07 R194-R196). -/
theorem State.grant_spec {e i : Nat} (hsl : sl < 64) (hi : i < 8) (he : e < 6) (hd : d < s.dies.length) (h48 : (s.die d).le.inst.length = 48) :
    (s.grant d e i sl).cond d sl = 2 ∧ (s.grant d e i sl).rd d Fd.SLOT_STAT.INSTANCE sl = i ∧
    (s.grant d e i sl).inst d e i = { Inst.idle with
      busy := true, slot := sl, pc := s.rd d Fd.SLOT_PROG.PROG_BASE sl, coefB := s.flag d Fd.SLOT_CTRL.COEF_SEL sl
      first := s.firstIssue d i, snap := ((s.grant d e i sl).inst d e i).snap
      sp := [0, 1, 2, 3].map fun w => (s.grant d e i sl).spActive d sl w } ∧
    (∀ key, arriving key = true → ((s.grant d e i sl).inst d e i).snap.find key = (s.die d).cells.find key) ∧
    (∀ w, w < 4 → (s.grant d e i sl).spActive d sl w = s.wordTaken d sl w) ∧
    (∀ k, k ≠ 8 * e + i → ((s.grant d e i sl).die d).le.inst.getD k Inst.idle = (s.die d).le.inst.getD k Inst.idle) ∧
    s.OnlyKeys (s.grant d e i sl) d (pageKeys 5) := by
  obtain ⟨hf, hcond, hinst, hact⟩ := State.granted_spec (s := s) (i := i) hsl hd
  rw [State.grant_eq]
  generalize ((s.setCondition d sl 2).wr d Fd.SLOT_STAT.INSTANCE sl i).boundary d sl = u at hf hcond hinst hact ⊢
  have hui : 8 * e + i < (u.die d).le.inst.length := by rw [hf.inst, h48]; omega
  have hpage := fun key => grantKeys_page (key := key) hsl
  have hsp : ∀ w, (u.onInst d e i fun _ => u.freshInst d sl i).spActive d sl w = u.spActive d sl w := fun w => by
    unfold State.spActive
    rw [State.rd_onInst]
  rw [State.inst_onInst (by rw [hf.length]; exact hd) hui]
  refine ⟨State.rd_onInst.trans hcond, State.rd_onInst.trans (hinst.trans (Nat.mod_eq_of_lt hi)), ?_, fun key hk => ?_,
    fun w hw => (hsp w).trans (hact w hw), fun k hk => ?_, ?_⟩
  · have hprog : u.rd d Fd.SLOT_PROG.PROG_BASE sl = s.rd d Fd.SLOT_PROG.PROG_BASE sl := hf.rd fun h => (hpage _ h).2.2.1 rfl
    have hcoef : u.flag d Fd.SLOT_CTRL.COEF_SEL sl = s.flag d Fd.SLOT_CTRL.COEF_SEL sl := by
      rw [State.flag_eq, State.flag_eq, hf.rd fun h => (hpage _ h).2.2.2.1 rfl]
    have hfirst : u.firstIssue d i = s.firstIssue d i := by
      unfold State.firstIssue
      rw [hf.td0, hf.turn0]
    simp only [hsp]
    unfold State.freshInst
    rw [hprog, hcoef, hfirst]
  · refine (Cells.find_filter arriving key _).trans ?_
    rw [if_pos hk]
    refine hf.find key fun h => ?_
    rw [(hpage _ h).2.1] at hk
    cases hk
  · rw [State.inst_onInst_ne hk, hf.inst]
  · exact (hf.only.mono fun key h => (hpage key h).1).onDie _ (fun _ => rfl) (fun _ => rfl)

theorem exec_instanceGrant {e i : Nat} (hs : s.sane = true) (hon : s.on d 5 = true) (he : e < 6) (hi : (s.freeInst d e).head? = some i)
    (hn : s.nextSlot d e = some sl) : exec (.instanceGrant d e) s = .next (s.grant d e i sl) := by
  show execInstanceGrant d e s = _
  unfold execInstanceGrant
  rw [State.guarded_true _ _ _ hs (by rw [hon, decide_eq_true he]; rfl)]
  cases hl : s.freeInst d e with
  | nil => rw [hl] at hi; cases hi
  | cons j l =>
    rw [hl] at hi
    cases hi
    rw [hn]

theorem exec_instanceGrant_none {e : Nat} (hs : s.sane = true) (h : s.nextSlot d e = none ∨ s.freeInst d e = []) :
    exec (.instanceGrant d e) s = .next s := by
  show execInstanceGrant d e s = _
  unfold execInstanceGrant
  cases hc : s.on d 5 && decide (e < 6) with
  | false => exact State.guarded_false _ _ _ hs rfl
  | true =>
    refine (State.guarded_true _ _ _ hs rfl).trans ?_
    rcases h with h | h
    · rw [h]
      split
      · next hx => cases hx
      · rfl
    · rw [h]

/-! ### Misuse of the loop engines -/

/-- A misuse leaves the memories of its block open, and nothing else. -/
theorem State.misused_misuse (s : State) (rule d page : Nat) : s.Misused (s.misuse rule d page) rule d page := by
  unfold State.misuse
  refine State.each_keeps (P := fun v => s.Misused v rule d page) ⟨rfl, rfl, fun _ _ => rfl, fun _ _ => rfl, rfl⟩ fun v b h => ?_
  split
  · next m hm =>
    obtain ⟨h1, h2, h3, h4, h5⟩ := h
    refine ⟨?_, (State.putCell_length ..).trans h2, fun e he => (State.die_onDie_ne _ _ _ _ he).trans (h3 e he),
      fun key hk => (State.cell_putCell_ne _ _ _ _ _ _ (.inr ?_)).trans (h4 key hk), (congrArg Rec.dram
        (State.putCell_recorder' ..)).trans h5⟩
    · rw [h1]
      rfl
    · rintro rfl
      rw [hm] at hk
      cases hk
  · exact h

/-- A write of a bit that a held slot keeps (06 R175). -/
theorem writeSpot_slotFixed {auth : Bool} {w : Nat} {v : Word} {go : Nat → State → Res} (ha : s.alive d = true) (h64 : sl < 64)
    (hw : w < 0x20) (hheld : s.slotHeld d sl = true) (hne : (s.cell d (0x5100 + 0x20 * sl + w) ^^^ v) &&& slotFixed w ≠ 0) :
    writeSpot auth (.page d 5 (0x100 + 0x20 * sl + w)) v go s = .next (s.misuse 175 d 5) := by
  have hg : guardedReg 5 (0x100 + 0x20 * sl + w) = false := by
    unfold guardedReg guardedOff
    rw [if_neg (by omega), if_neg (by omega)]
    rfl
  have hkey : 0x5000 + (0x100 + 0x20 * sl + w) = 0x5100 + 0x20 * sl + w := by omega
  have hsl : (0x100 + 0x20 * sl + w - 0x100) / 0x20 = sl := by omega
  have hoff : (0x100 + 0x20 * sl + w - 0x100) % 0x20 = w := by omega
  have hle : writeLe d (0x100 + 0x20 * sl + w) v s = some (.next (s.misuse 175 d 5)) := by
    unfold writeLe
    rw [if_neg (by omega), if_neg (by omega), if_pos (by simp; omega), hkey, hsl, hoff]
    exact if_pos (by simpa [hheld] using hne)
  rw [writeSpot_page ha, if_neg (by omega), if_neg (by decide), if_neg (by simp [hg]), if_neg (by simp)]
  unfold writeReg
  rw [show writeSpecial d 5 (0x100 + 0x20 * sl + w) v s = some (.next (s.misuse 175 d 5)) from hle]

/-- A result that is that of an issued opcode. -/
def State.Issued (s : State) (d e i : Nat) (op : LoopOp) (r : Res) : Prop := ∃ f, r = s.issue d e i op f

theorem State.Issued.issue {e i : Nat} {op : LoopOp} {f : Inst → Word5 → Res} : s.Issued d e i op (s.issue d e i op f) := ⟨_, rfl⟩
theorem State.Issued.accOp {e i : Nat} {op : LoopOp} {f : Inst → Word5 → Int → Inst} : s.Issued d e i op (s.accOp d e i op f) := ⟨_, rfl⟩

/-- The command of an Inst that issues an opcode; STOP is also issued by INVALID_INSTRUCTION. -/
def loopCommand (d e i : Nat) : LoopOp → Instr
  | .nop => .nop d e i
  | .ld => .ld d e i
  | .ldw => .ldw d e i
  | .st => .st d e i
  | .sts => .sts d e i
  | .movw => .movw d e i
  | .mac => .mac d e i
  | .msu => .msu d e i
  | .mul => .mul d e i
  | .add => .add d e i
  | .sub => .sub d e i
  | .shl => .shl d e i
  | .shr => .shr d e i
  | .neg => .neg d e i
  | .abs => .abs d e i
  | .lim => .lim d e i
  | .intg => .intg d e i
  | .dly => .dly d e i
  | .sel => .sel d e i
  | .tab => .tab d e i
  | .div => .div d e i
  | .sincos => .sincos d e i
  | .inp => .inp d e i
  | .out => .out d e i
  | .spt => .spt d e i
  | .flag => .flag d e i
  | .cmp => .cmp d e i
  | .brf => .brf d e i
  | .stop => .endRun d e i

theorem exec_loopCommand (op : LoopOp) (d e i : Nat) (s : State) : s.Issued d e i op (exec (loopCommand d e i op) s) := by
  cases op with
  | nop => exact (.issue : s.Issued d e i .nop (execNop d e i s))
  | ld => exact (.accOp : s.Issued d e i .ld (execLd d e i s))
  | ldw => exact (.issue : s.Issued d e i .ldw (execLdw d e i s))
  | st => exact (.issue : s.Issued d e i .st (execSt d e i s))
  | sts => exact (.issue : s.Issued d e i .sts (execSts d e i s))
  | movw => exact (.issue : s.Issued d e i .movw (execMovw d e i s))
  | mac => exact (.accOp : s.Issued d e i .mac (execMac d e i s))
  | msu => exact (.accOp : s.Issued d e i .msu (execMsu d e i s))
  | mul => exact (.accOp : s.Issued d e i .mul (execMul d e i s))
  | add => exact (.accOp : s.Issued d e i .add (execAdd d e i s))
  | sub => exact (.accOp : s.Issued d e i .sub (execSub d e i s))
  | shl => exact (.issue : s.Issued d e i .shl (execShl d e i s))
  | shr => exact (.issue : s.Issued d e i .shr (execShr d e i s))
  | neg => exact (.issue : s.Issued d e i .neg (execNeg d e i s))
  | abs => exact (.issue : s.Issued d e i .abs (execAbs d e i s))
  | lim => exact (.issue : s.Issued d e i .lim (execLim d e i s))
  | intg => exact (.issue : s.Issued d e i .intg (execIntg d e i s))
  | dly => exact (.issue : s.Issued d e i .dly (execDly d e i s))
  | sel => exact (.accOp : s.Issued d e i .sel (execSel d e i s))
  | tab => exact (.issue : s.Issued d e i .tab (execTab d e i s))
  | div => exact (.accOp : s.Issued d e i .div (execDiv d e i s))
  | sincos => exact (.issue : s.Issued d e i .sincos (execSincos d e i s))
  | inp => exact (.accOp : s.Issued d e i .inp (execInp d e i s))
  | out => exact (.issue : s.Issued d e i .out (execOut d e i s))
  | spt => exact (.issue : s.Issued d e i .spt (execSpt d e i s))
  | flag => exact (.issue : s.Issued d e i .flag (execFlag d e i s))
  | cmp => exact (.accOp : s.Issued d e i .cmp (execCmp d e i s))
  | brf => exact (.issue : s.Issued d e i .brf (execBrf d e i s))
  | stop => exact (.issue : s.Issued d e i .stop (execEndRun d e i s))

theorem exec_invalidInstruction (d e i : Nat) (s : State) : s.Issued d e i .stop (exec (.invalidInstruction d e i) s) :=
  (.issue : s.Issued d e i .stop (execInvalidInstruction d e i s))

theorem loopCommand_mem (op : LoopOp) (d e i : Nat) : loopCommand d e i op ∈ loopCommands d e i := by
  unfold loopCommands
  cases op
  all_goals simp [loopCommand]

/-- Every command of an Inst issues an opcode. -/
theorem exec_of_mem_loopCommands {e i : Nat} {c : Instr} (h : c ∈ loopCommands d e i) (s : State) : ∃ op, s.Issued d e i op (exec c s) := by
  have hl : loopCommands d e i =
    ([.nop, .ld, .ldw, .st, .sts, .movw, .mac, .msu, .mul, .add, .sub, .shl, .shr, .neg, .abs, .lim, .intg, .dly, .sel, .tab,
    .div, .sincos, .inp, .out, .spt, .flag, .cmp, .brf, .stop] : List LoopOp).map (loopCommand d e i) ++
      [.invalidInstruction d e i] := rfl
  rw [hl, List.mem_append, List.mem_map, List.mem_singleton] at h
  obtain ⟨op, -, rfl⟩ | rfl := h
  · exact ⟨op, exec_loopCommand op d e i s⟩
  · exact ⟨.stop, exec_invalidInstruction d e i s⟩

/-- An instruction outside the program of its slot (07 R190). -/
theorem State.issue_pc {e i : Nat} {op : LoopOp} {f : Inst → Word5 → Res} (hs : s.sane = true) (hr : s.running d e i = true)
    (hp : s.pcOk d e (s.inst d e i) = false) : s.issue d e i op f = .next (s.misuse 190 d 5) := by
  unfold State.issue
  dsimp only
  rw [if_neg (by simp [hs]), if_neg (by simp [hr]), if_pos (by simp [hp])]

/-- An instruction outside the pages of its slot (07 R190). -/
theorem State.issue_pages {e i : Nat} {f : Inst → Word5 → Res} (hs : s.sane = true) (hr : s.running d e i = true)
    (hp : s.pcOk d e (s.inst d e i) = true)
    (hg : s.pagesOk d e (s.inst d e i) (executesAs (s.fetch d e i)) (decodeLoop (s.fetch d e i)) = false) :
    s.issue d e i (executesAs (s.fetch d e i)) f = .next (s.misuse 190 d 5) := by
  unfold State.issue
  dsimp only
  rw [if_neg (by simp [hs]), if_neg (by simp [hr]), if_neg (by simp [hp]), if_neg (by simp), if_pos (by simp [hg])]

theorem State.issue_spoilt {e i : Nat} {op : LoopOp} {f : Inst → Word5 → Res} {m : Nat × Nat × Nat} (hm : s.misused.head? = some m) :
    s.issue d e i op f = .fault (.misuse m.1) := by
  unfold State.issue
  dsimp only
  rw [if_pos ?_]
  · unfold State.spoilt
    rw [hm]
    rfl
  · unfold State.sane
    cases hl : s.misused with
    | nil => rw [hl] at hm; cases hm
    | cons a l => rfl

end Sys2Proof.Machine

/-- Settles O23, command by command. -/
theorem loopSlots : Obligations.loop_slots := by
  unfold Obligations.loop_slots
  refine ⟨fun s d hi value hsh hs ha => ?_, fun s d hsh ha => ?_, fun s d sl hi value hsh hs ha h64 hl h4 => ?_,
    fun s d sl value hsh hs ha h64 hl => ?_, fun s d e sl i hsh hs hon he hi hn h48 => ?_,
    fun s d e hs h => exec_instanceGrant_none hs h, fun s d sl w addr v hsh hs ha h64 hw hx hheld hne => ?_,
    fun s d e i hsh hs hr => ⟨fun hp c hc => ?_, fun hp hg => ?_⟩, fun s d e i m hm c hc => ?_⟩
  · have hd := State.lt_length hsh ha
    refine ⟨opSlotEn d hi value s, State.guarded_true _ _ _ hs ha, ?_, by rw [opSlotEn, State.wr_le'],
      (State.OnlyKeys.refl ..).wr _ _ _ rfl⟩
    cases hi
    · exact State.cell_wr_word hd rfl rfl
    · exact State.cell_wr_word hd rfl rfl
  · rw [State.leStart_eq]
    obtain ⟨hen, hcasc⟩ := State.takeEnables_spec (s := s) (new := s.rd d Fd.SLOT_EN_LO.W + s.rd d Fd.SLOT_EN_HI.W * 2 ^ 32)
      (State.lt_length hsh ha)
    exact ⟨hen, fun sl h64 hl hoff hon => hcasc sl h64 hoff hon hl⟩
  · obtain ⟨hcell, hword, hslot, honly⟩ := opSps_spec (hi := hi) (value := value) (State.lt_length hsh ha) hl h4
    refine ⟨opSps d sl hi value s, State.guarded_true _ _ _ hs (by simp [ha, h64]), hcell, fun w hw => ?_, hslot, honly⟩
    obtain ⟨h1, h2⟩ := hword w hw
    refine ⟨h1, h2, fun hr => ?_⟩
    rw [h1]
    exact SpWord.val_write hr
  · exact ⟨opSlotCasc d sl value s, State.guarded_true _ _ _ hs (by simp [ha, h64]), opSlotCasc_spec (State.lt_length hsh ha) hl⟩
  · exact ⟨_, exec_instanceGrant hs hon he hi hn,
      State.grant_spec (State.nextSlot_lt hn) (State.freeInst_lt hi) he (State.lt_length hsh (State.alive_of_on hon)) h48⟩
  · obtain ⟨go, h⟩ := exec_registerWrite_spot (data := v) hs hx rfl ha
    exact ⟨s.misuse 175 d 5, h.trans (writeSpot_slotFixed ha h64 hw hheld hne), s.misused_misuse 175 d 5⟩
  · obtain ⟨op, f, h⟩ := exec_of_mem_loopCommands hc s
    exact ⟨s.misuse 190 d 5, h.trans (State.issue_pc hs hr hp), s.misused_misuse 190 d 5⟩
  · obtain ⟨f, h⟩ := exec_loopCommand (executesAs (s.fetch d e i)) d e i s
    exact ⟨_, loopCommand_mem .., s.misuse 190 d 5, h.trans (State.issue_pages hs hr hp hg), s.misused_misuse 190 d 5⟩
  · obtain ⟨op, f, h⟩ := exec_of_mem_loopCommands hc s
    exact h.trans (State.issue_spoilt hm)

end

section

open Sys2Proof Sys2Proof.Machine

/-! ## From the reset hold through BOOT to CONFIG -/

namespace Sys2Proof.Machine

variable {s t u : State} {d : Nat}

/-! ### Changes made over a list, one member after another -/

theorem State.each_keeps_mem {α : Type} {l : List α} {f : State → α → State} {P : State → Prop} (h : P s)
    (hP : ∀ v, ∀ b ∈ l, P v → P (f v b)) : P (s.each l f) := by
  unfold State.each
  induction l generalizing s with
  | nil => exact h
  | cons b l ih => exact ih (hP s b List.mem_cons_self h) fun v c hc => hP v c (List.mem_cons_of_mem _ hc)

/-- What one member of a list brings about, and every later one keeps, holds after all. -/
theorem State.each_brings_mem {α : Type} {l : List α} {f : State → α → State} {a : α} {P Q : State → Prop} (ha : a ∈ l)
    (h : P s) (hP : ∀ v, ∀ b ∈ l, P v → P (f v b)) (hb : ∀ v, P v → Q (f v a)) (hQ : ∀ v, ∀ b ∈ l, P v → Q v → Q (f v b)) :
    Q (s.each l f) := by
  obtain ⟨l1, l2, rfl⟩ := List.append_of_mem ha
  have h1 : P (s.each l1 f) := State.each_keeps_mem h fun v b hm => hP v b (by simp [hm])
  have h2 := State.each_keeps_mem (l := l2) (f := f) (P := fun v => P v ∧ Q v) ⟨hP _ a ha h1, hb _ h1⟩
    fun v b hm hv => ⟨hP v b (by simp [hm]) hv.1, hQ v b (by simp [hm]) hv.1 hv.2⟩
  unfold State.each at h2 ⊢
  rw [List.foldl_append, List.foldl_cons]
  exact h2.2

/-- A change of the dies alone, and another after it. -/
theorem State.dies_trans (h : t = { s with dies := t.dies }) (k : u = { t with dies := u.dies }) : u = { s with dies := u.dies } := by
  rw [k, h]

/-! ### The end of the reset hold -/

/-- The keys of a die whose reset values the straps change. -/
def strapKeys : List Nat := [0x1008, 0x1024, 0x1028, 0x7004]

theorem mem_strapKeys {part : Part} {e : Nat × Word} (h : e ∈ strapWords part) : e.1 ∈ strapKeys := by
  unfold strapWords at h
  unfold strapKeys
  split at h <;> simp only [List.mem_cons, List.not_mem_nil, or_false] at h <;> grind

/-- What every store of a word for the straps keeps holds after they are read. -/
theorem State.applyStraps_keeps {p : Nat → Bool} {P : State → Prop} (h : P s)
    (hP : ∀ v key w, key ∈ strapKeys → p key = true → P v → P (v.putCell d key w)) : P (s.applyStraps d p) := by
  unfold State.applyStraps
  split
  · refine State.each_keeps_mem (f := fun s (e : Nat × Word) => s.putCell d e.1 e.2) h fun v b hb hv => ?_
    obtain ⟨hm, hp⟩ := List.mem_filter.1 hb
    exact hP v b.1 b.2 (mem_strapKeys hm) hp hv
  · exact h

/-- From s to t only the dies of l have changed, and of their registers only those of the straps; a hold that has ended has not
begun again. -/
structure State.Released (l : List Nat) (s t : State) : Prop where
  frame : t = { s with dies := t.dies }
  length : t.dies.length = s.dies.length
  hold : ∀ e, (s.die e).hold = false → (t.die e).hold = false
  role : ∀ e, (t.die e).clk.role = (s.die e).clk.role
  refsel : ∀ e, (t.die e).clk.refsel = (s.die e).clk.refsel
  boot0 : ∀ e, (t.die e).clk.boot0 = (s.die e).clk.boot0
  cell : ∀ e key, e ∉ l ∨ key ∉ strapKeys → t.cell e key = s.cell e key

namespace State.Released

variable {l : List Nat}

theorem refl (l : List Nat) (s : State) : State.Released l s s :=
  ⟨rfl, rfl, fun _ h => h, fun _ => rfl, fun _ => rfl, fun _ => rfl, fun _ _ _ => rfl⟩

theorem trans (h : State.Released l s t) (k : State.Released l t u) : State.Released l s u := by
  refine ⟨State.dies_trans h.frame k.frame, k.length.trans h.length, fun e => k.hold e ∘ h.hold e, fun e => (k.role e).trans (h.role e),
    fun e => (k.refsel e).trans (h.refsel e), fun e => (k.boot0 e).trans (h.boot0 e),
    fun e key hk => (k.cell e key hk).trans (h.cell e key hk)⟩

theorem onDie {f : Die → Die} (h : State.Released l s t) (hc : ∀ x, (f x).cells = x.cells) (hh : ∀ x, x.hold = false → (f x).hold = false)
    (hk : ∀ x, (f x).clk.role = x.clk.role ∧ (f x).clk.refsel = x.clk.refsel ∧ (f x).clk.boot0 = x.clk.boot0) :
    State.Released l s (t.onDie d f) := by
  refine h.trans ⟨rfl, State.onDie_length .., fun e he => ?_, fun e => ?_, fun e => ?_, fun e => ?_,
    fun _ _ _ => State.cell_onDie _ _ _ _ _ hc⟩ <;> rw [State.die_onDie] <;> split
  · exact hh _ he
  · exact he
  · exact (hk _).1
  · rfl
  · exact (hk _).2.1
  · rfl
  · exact (hk _).2.2
  · rfl

theorem putCell {k : Nat} {w : Word} (h : State.Released l s t) (hd : d ∈ l) (hk : k ∈ strapKeys) :
    State.Released l s (t.putCell d k w) := by
  refine h.trans ⟨rfl, State.putCell_length .., fun e he => by rw [State.putCell_hold']; exact he,
    fun e => by rw [State.putCell_clk'], fun e => by rw [State.putCell_clk'], fun e => by rw [State.putCell_clk'],
    fun e key hne => State.cell_putCell_ne _ _ _ _ _ _ ?_⟩
  rcases hne with hne | hne
  · exact .inl fun he => hne (he ▸ hd)
  · exact .inr fun he => hne (he ▸ hk)

/-- A die reads its straps. -/
theorem applyStraps {p : Nat → Bool} (h : State.Released l s t) (hd : d ∈ l) : State.Released l s (t.applyStraps d p) :=
  State.applyStraps_keeps h fun _ _ _ hk _ hv => hv.putCell hd hk

end State.Released

theorem State.cell_onClk {e key : Nat} {f : Clk → Clk} : (s.onClk d f).cell e key = s.cell e key :=
  State.cell_onDie _ _ _ _ _ fun _ => rfl

theorem State.hold_onClk {e : Nat} {f : Clk → Clk} : ((s.onClk d f).die e).hold = (s.die e).hold := by
  unfold State.onClk
  rw [State.die_onDie]
  split <;> rfl

/-- The die in which a hold ends. -/
def State.unhold (s : State) (d : Nat) : State := s.onDie d fun x => { x with hold := false }

theorem State.endHold1_eq (s : State) (d : Nat) : s.endHold1 d = ((s.unhold d).applyStraps d fun _ => true).onClk d
    fun c => { c with
      applied := ((s.unhold d).applyStraps d fun _ => true).shadows d
      lfsr := seedOf ((((s.unhold d).applyStraps d fun _ => true).shadows d).getD 4 0).toNat } := rfl

/-- A die that reads the strap REFSEL at 1 holds the reset value that goes with it. -/
theorem State.cell_applyStraps (hd : d < s.dies.length) (hr : (s.die d).clk.refsel = true) :
    (s.applyStraps d fun _ => true).cell d 0x1008 = 0x40100#32 := by
  unfold State.applyStraps strapWords
  rw [if_pos hr]
  cases s.part.isHead <;> simp [hd]

theorem State.unhold_released (s : State) (d : Nat) (l : List Nat) : State.Released l s (s.unhold d) :=
  (State.Released.refl l s).onDie (fun _ => rfl) (fun _ _ => rfl) fun _ => ⟨rfl, rfl, rfl⟩

theorem State.endHold1_released (s : State) {l : List Nat} (hd : d ∈ l) : State.Released l s (s.endHold1 d) := by
  rw [State.endHold1_eq]
  exact ((s.unhold_released d l).applyStraps hd).onDie (fun _ => rfl) (fun _ h => h) fun _ => ⟨rfl, rfl, rfl⟩

theorem State.endHold1_hold (hd : d < s.dies.length) : ((s.endHold1 d).die d).hold = false := by
  rw [State.endHold1_eq, State.hold_onClk]
  refine ((State.Released.refl [d] (s.unhold d)).applyStraps (by simp)).hold d ?_
  unfold State.unhold
  rw [State.die_onDie_same _ _ _ hd]

theorem State.endHold1_cell (hd : d < s.dies.length) (hr : (s.die d).clk.refsel = true) :
    (s.endHold1 d).cell d 0x1008 = 0x40100#32 := by
  rw [State.endHold1_eq, State.cell_onClk]
  have h := s.unhold_released d [d]
  exact State.cell_applyStraps (h.length ▸ hd) ((h.refsel d).trans hr)

/-- The straps as the dies of a list read them. -/
def State.readStraps (s : State) (l : List Nat) (role : BitVec 2) (refsel boot0 : Bool) : State :=
  s.each l fun s d => s.onClk d fun c => { c with role := role, refsel := refsel, boot0 := boot0 }

/-- From s to t the dies of l may have read their straps; nothing else has changed. -/
structure State.StrapsRead (l : List Nat) (s t : State) : Prop where
  frame : t = { s with dies := t.dies }
  length : t.dies.length = s.dies.length
  hold : ∀ e, (t.die e).hold = (s.die e).hold
  cell : ∀ e key, t.cell e key = s.cell e key

theorem State.readStraps_frame (s : State) (l : List Nat) (role : BitVec 2) (refsel boot0 : Bool) :
    State.StrapsRead l s (s.readStraps l role refsel boot0) := by
  refine State.each_keeps (P := State.StrapsRead l s) ⟨rfl, rfl, fun _ => rfl, fun _ _ => rfl⟩ fun v b h => ?_
  refine ⟨by rw [h.frame]; rfl, (State.onDie_length ..).trans h.length, fun e => ?_,
    fun e key => State.cell_onClk.trans (h.cell e key)⟩
  exact State.hold_onClk.trans (h.hold e)

theorem State.readStraps_clk {l : List Nat} {role : BitVec 2} {refsel boot0 : Bool} (hl : d ∈ l) (hd : d < s.dies.length) :
    let c := ((s.readStraps l role refsel boot0).die d).clk
    c.role = role ∧ c.refsel = refsel ∧ c.boot0 = boot0 := by
  refine State.each_brings (P := fun v => v.dies.length = s.dies.length)
    (Q := fun v => (v.die d).clk.role = role ∧ (v.die d).clk.refsel = refsel ∧ (v.die d).clk.boot0 = boot0)
    hl rfl (fun v b h => (State.onDie_length ..).trans h) (fun v b h hq => ?_) fun v h => ?_
  · unfold State.onClk
    rw [State.die_onDie]
    split
    · exact ⟨rfl, rfl, rfl⟩
    · exact hq
  · unfold State.onClk
    rw [State.die_onDie_same _ _ _ (h ▸ hd)]
    exact ⟨rfl, rfl, rfl⟩

/-- The dies of l leave their reset holds. -/
theorem State.endHolds_spec {l : List Nat} (hl : ∀ d ∈ l, d < s.dies.length) :
    let t := s.each l fun s d => s.endHold1 d
    State.Released l s t ∧ (∀ d ∈ l, (t.die d).hold = false) ∧
    ∀ d ∈ l, (s.die d).clk.refsel = true → t.cell d 0x1008 = 0x40100#32 := by
  have hstep : ∀ v, ∀ b ∈ l, State.Released l s v → State.Released l s (v.endHold1 b) :=
    fun v b hb hv => hv.trans (v.endHold1_released hb)
  refine ⟨State.each_keeps_mem (.refl l s) hstep, fun d hd => ?_, fun d hd hr => ?_⟩
  · exact State.each_brings_mem (P := State.Released l s) (Q := fun v => (v.die d).hold = false) hd (.refl l s) hstep
      (fun v hv => State.endHold1_hold (hv.length ▸ hl d hd)) fun v b _ _ hq => (v.endHold1_released (l := [b]) (by simp)).hold d hq
  · refine State.each_brings_mem (P := State.Released l s) (Q := fun v => v.cell d 0x1008 = 0x40100#32) hd (.refl l s) hstep
      (fun v hv => State.endHold1_cell (hv.length ▸ hl d hd) ((hv.refsel d).trans hr)) fun v b _ hv hq => ?_
    by_cases hb : b = d
    · subst hb
      exact State.endHold1_cell (hv.length ▸ hl b hd) ((hv.refsel b).trans hr)
    · rw [(v.endHold1_released (l := [b]) (by simp)).cell d _ (.inl (by simpa using Ne.symm hb))]
      exact hq

/-- The dies that wait in their reset holds. -/
def State.held (s : State) : List Nat := s.dieList.filter fun d => (s.die d).hold

theorem State.mem_held : d ∈ s.held ↔ d < s.part.dies ∧ (s.die d).hold = true := by
  unfold State.held State.dieList
  simp

/-- The dies of a list read the straps and leave their reset holds. -/
def State.leaveHolds (s : State) (l : List Nat) (role : BitVec 2) (refsel boot0 : Bool) : State :=
  (s.readStraps l role refsel boot0).each l fun s d => s.endHold1 d

theorem exec_resetHoldEnd {mv : List Nat} {role : BitVec 2} {refsel boot0 : Bool} (ho : s.device ≠ .off)
    (hp : powerGood s.isHead mv = true) : exec (.resetHoldEnd mv role refsel boot0) s =
      .next (if role = 3 then
        { s.leaveHolds s.held role refsel boot0 with
          misused := (s.leaveHolds s.held role refsel boot0).misused ++ s.held.map fun d => (2, d, 0xFF) }
      else s.leaveHolds s.held role refsel boot0) := by
  have hc : (s.device != .off && powerGood s.isHead mv) = true := by simp [ho, hp]
  show execResetHoldEnd mv role refsel boot0 s = _
  unfold execResetHoldEnd
  rw [hc, State.always_true]
  rfl

/-- What the end of the reset hold makes of the package and of the dies. -/
structure State.HoldEnded (s t : State) (role : BitVec 2) (refsel boot0 : Bool) : Prop where
  frame : t = { s with dies := t.dies }
  hold : ∀ d, d < s.part.dies → (t.die d).hold = false
  straps : ∀ d, d < s.part.dies → (s.die d).hold = true →
    (t.die d).clk.role = role ∧ (t.die d).clk.refsel = refsel ∧ (t.die d).clk.boot0 = boot0 ∧
    (refsel = true → t.cell d 0x1008 = 0x40100#32)
  cell : ∀ d key, (s.die d).hold = false ∨ key ∉ strapKeys → t.cell d key = s.cell d key

theorem State.leaveHolds_spec {role : BitVec 2} {refsel boot0 : Bool} (hsh : s.shaped = true) :
    s.HoldEnded (s.leaveHolds s.held role refsel boot0) role refsel boot0 := by
  have hl : ∀ d, d < s.part.dies → d < s.dies.length := fun d hd => by
    rw [show s.dies.length = s.part.dies by simpa [State.shaped] using hsh]
    exact hd
  have hr := s.readStraps_frame s.held role refsel boot0
  have hc := fun d hd => State.readStraps_clk (s := s) (l := s.held) (role := role) (refsel := refsel) (boot0 := boot0)
    hd (hl d (State.mem_held.1 hd).1)
  obtain ⟨he, hh, hcell⟩ := State.endHolds_spec (s := s.readStraps s.held role refsel boot0) (l := s.held)
    fun d hd => hr.length ▸ hl d (State.mem_held.1 hd).1
  refine ⟨State.dies_trans hr.frame he.frame, fun d hd => ?_, fun d hd hdh => ?_, fun d key hk => ?_⟩
  · by_cases hdh : (s.die d).hold = true
    · exact hh d (State.mem_held.2 ⟨hd, hdh⟩)
    · exact he.hold d ((hr.hold d).trans (by simpa using hdh))
  · have hm := State.mem_held.2 ⟨hd, hdh⟩
    obtain ⟨hrole, hrefsel, hboot⟩ := hc d hm
    exact ⟨(he.role d).trans hrole, (he.refsel d).trans hrefsel, (he.boot0 d).trans hboot,
      fun hs => hcell d hm (hrefsel.trans hs)⟩
  · refine (he.cell d key (hk.imp_left fun h hm => ?_)).trans (hr.cell d key)
    simp [(State.mem_held.1 hm).2] at h

theorem resetHoldEnd_spec {mv : List Nat} {role : BitVec 2} {refsel boot0 : Bool} (hsh : s.shaped = true) (ho : s.device ≠ .off)
    (hp : powerGood s.isHead mv = true) : Completes (.resetHoldEnd mv role refsel boot0) s fun t =>
      (∀ d, d < s.part.dies → (t.die d).hold = false) ∧
      (∀ d, d < s.part.dies → (s.die d).hold = true →
        (t.die d).clk.role = role ∧ (t.die d).clk.refsel = refsel ∧ (t.die d).clk.boot0 = boot0 ∧
        (refsel = true → t.cell d 0x1008 = 0x40100#32)) ∧
      (∀ d key, (s.die d).hold = false ∨ key ∉ [0x1008, 0x1024, 0x1028, 0x7004] → t.cell d key = s.cell d key) ∧
      (role ≠ 3 → t.misused = s.misused) ∧
      (role = 3 → ∀ d, d < s.part.dies → (s.die d).hold = true → (2, d, 0xFF) ∈ t.misused) ∧
      t.device = s.device ∧ t.pins = s.pins ∧ t.pending = s.pending := by
  have h := State.leaveHolds_spec (role := role) (refsel := refsel) (boot0 := boot0) hsh
  have hdev : (s.leaveHolds s.held role refsel boot0).device = s.device := by rw [h.frame]
  have hpins : (s.leaveHolds s.held role refsel boot0).pins = s.pins := by rw [h.frame]
  have hpend : (s.leaveHolds s.held role refsel boot0).pending = s.pending := by rw [h.frame]
  have hmis : (s.leaveHolds s.held role refsel boot0).misused = s.misused := by rw [h.frame]
  refine ⟨_, exec_resetHoldEnd ho hp, ?_⟩
  by_cases hr : role = 3
  · rw [if_pos hr]
    refine ⟨h.hold, h.straps, h.cell, fun hn => absurd hr hn, fun _ d hd hdh => ?_, hdev, hpins, hpend⟩
    exact List.mem_append_right _ (List.mem_map.2 ⟨d, State.mem_held.2 ⟨hd, hdh⟩, rfl⟩)
  · rw [if_neg hr]
    exact ⟨h.hold, h.straps, h.cell, fun _ => hmis, fun he => absurd he hr, hdev, hpins, hpend⟩

end Sys2Proof.Machine

end

section

open Sys2Proof Sys2Proof.Machine

namespace Sys2Proof.Machine

variable {s t u : State} {d : Nat}

/-! ### The loops lock -/

/-- A lock of one of the loops: its bit of CLK_STATUS is set, every field beside that bit stays, and of the registers only those of
the CLK page change. -/
theorem State.lockBand_spec {tab : Fld → Fld} {lo hi : Nat} {cap lock : Fld} (hd : d < s.dies.length) (hb : lock.hi = lock.lo)
    (h32 : lock.hi < 32) (hk : lock.key 0 = 0x1008) (hc : cap.key 0 = 0x104C) :
    s.OnlyKeys (s.lockBand d tab lo hi cap lock) d (pageKeys 1) ∧
    (s.lockBand d tab lo hi cap lock).flag d lock = true ∧
    ∀ g : Fld, g.key 0 = 0x1008 → (g.hi < lock.lo ∨ lock.hi < g.lo) →
      (s.lockBand d tab lo hi cap lock).rd d g = s.rd d g := by
  have key : ∀ v, (s.wrB d lock 0 true).OnlyKeys v d (fun k => k = 0x104C ∨ stickyKeys 1 k) →
      s.OnlyKeys v d (pageKeys 1) ∧ v.flag d lock = true ∧
      ∀ g : Fld, g.key 0 = 0x1008 → (g.hi < lock.lo ∨ lock.hi < g.lo) → v.rd d g = s.rd d g := fun v hv => by
    have hcell : v.cell d 0x1008 = (s.wrB d lock 0 true).cell d 0x1008 :=
      hv.2.2.2.1 _ (by simp [stickyKeys, hdrKey])
    have hrd : ∀ g : Fld, g.key 0 = 0x1008 → v.rd d g = (s.wrB d lock 0 true).rd d g := fun g hg => by
      unfold State.rd
      rw [hg, hcell]
    refine ⟨((State.OnlyKeys.refl s d _).wr lock 0 _ (by rw [hk]; rfl)).trans (hv.mono fun k hp => ?_), ?_, fun g hg hd' => ?_⟩
    · simp only [pageKeys, stickyKeys, hdrKey] at hp ⊢
      omega
    · unfold State.flag
      rw [hrd _ hk, State.wrB_eq, State.rd_wr_same _ _ _ _ _ hd h32 (by omega), hb, Nat.add_sub_cancel_left]
      rfl
    · rw [hrd g hg, State.wrB_eq]
      exact State.rd_wr_bits _ _ _ _ _ _ _ _ (hg.trans hk.symm) h32 (by omega) hd'
  apply key
  have h0 := State.OnlyKeys.refl (s.wrB d lock 0 true) d fun k => k = 0x104C ∨ stickyKeys 1 k
  unfold State.lockBand
  dsimp only
  split
  · exact h0.wr cap 0 _ (.inl hc)
  · exact (h0.freeN.wr cap 0 _ (.inl hc)).when _ _ ((h0.freeN.wr cap 0 _ (.inl hc)).stick _ _ (.inr (.inl rfl)) (.inr (.inr rfl)))

theorem State.OnlyKeys.onClk {P : Nat → Prop} {f : Clk → Clk} (h : s.OnlyKeys t d P) : s.OnlyKeys (t.onClk d f) d P :=
  h.onDie _ (fun _ => rfl) fun _ => rfl

/-- The registers of a die whose TPLL locks on the reference named, before it enters BOOT. -/
def State.lockLoops (s : State) (d : Nat) (second : Bool) : State :=
  ((((s.wr d Fd.CLK_STATUS.REF 0 (s.refCode second)).onClk d fun c => { c with started := true }).lockTpll d).lockFpll d).wrB d
    Fd.CLK_STATUS.DLL_LOCK 0 true

theorem State.refCode_lt (second : Bool) : s.refCode second < 4 := by
  unfold State.refCode
  split <;> cases second <;> decide

theorem State.lockLoops_spec {second : Bool} (hd : d < s.dies.length) :
    s.OnlyKeys (s.lockLoops d second) d (pageKeys 1) ∧
    (s.lockLoops d second).flag d Fd.CLK_STATUS.TPLL_LOCK = true ∧ (s.lockLoops d second).flag d Fd.CLK_STATUS.FPLL_LOCK = true ∧
    (s.lockLoops d second).flag d Fd.CLK_STATUS.DLL_LOCK = true ∧
    (s.lockLoops d second).rd d Fd.CLK_STATUS.REF = s.refCode second := by
  have h1 : s.OnlyKeys ((s.wr d Fd.CLK_STATUS.REF 0 (s.refCode second)).onClk d fun c => { c with started := true }) d (pageKeys 1) :=
    ((State.OnlyKeys.refl s d (pageKeys 1)).wr Fd.CLK_STATUS.REF 0 _ rfl).onClk
  have hr1 : ((s.wr d Fd.CLK_STATUS.REF 0 (s.refCode second)).onClk d fun c => { c with started := true }).rd d Fd.CLK_STATUS.REF
      = s.refCode second := by
    unfold State.rd
    rw [State.cell_onClk]
    exact (State.rd_wr_same _ _ _ _ _ hd (by decide) (by decide)).trans (Nat.mod_eq_of_lt (s.refCode_lt second))
  unfold State.lockLoops
  generalize ((s.wr d Fd.CLK_STATUS.REF 0 (s.refCode second)).onClk d fun c => { c with started := true }) = v1 at h1 hr1 ⊢
  have hd1 : d < v1.dies.length := h1.2.1 ▸ hd
  obtain ⟨h2, ht2, hk2⟩ := State.lockBand_spec (tab := tpllTab) (lo := 6400) (hi := 6400) (cap := Fd.BAND_USE.TPLL_CAP)
    (lock := Fd.CLK_STATUS.TPLL_LOCK) hd1 rfl (by decide) rfl rfl
  unfold State.lockTpll
  generalize v1.lockBand d tpllTab 6400 6400 Fd.BAND_USE.TPLL_CAP Fd.CLK_STATUS.TPLL_LOCK = v2 at h2 ht2 hk2 ⊢
  have hd2 : d < v2.dies.length := h2.2.1 ▸ hd1
  obtain ⟨h3, hf3, hk3⟩ := State.lockBand_spec (tab := fpllTab) (lo := 6272) (hi := 6400) (cap := Fd.BAND_USE.FPLL_CAP)
    (lock := Fd.CLK_STATUS.FPLL_LOCK) hd2 rfl (by decide) rfl rfl
  unfold State.lockFpll
  generalize v2.lockBand d fpllTab 6272 6400 Fd.BAND_USE.FPLL_CAP Fd.CLK_STATUS.FPLL_LOCK = v3 at h3 hf3 hk3 ⊢
  have hd3 : d < v3.dies.length := h3.2.1 ▸ hd2
  have hk4 : ∀ g : Fld, g.key 0 = 0x1008 → (g.hi < 7 ∨ 7 < g.lo) → (v3.wrB d Fd.CLK_STATUS.DLL_LOCK 0 true).rd d g = v3.rd d g :=
    fun g hg hb => State.rd_wr_bits _ _ _ _ _ _ _ _ hg (by decide) (by decide) hb
  refine ⟨((h1.trans h2).trans h3).wr _ 0 _ rfl, ?_, ?_, ?_, ?_⟩
  · unfold State.flag at ht2 ⊢
    rw [hk4 _ rfl (by decide), hk3 _ rfl (by decide)]
    exact ht2
  · unfold State.flag at hf3 ⊢
    rw [hk4 _ rfl (by decide)]
    exact hf3
  · unfold State.flag
    rw [State.wrB_eq, State.rd_wr_same _ _ _ _ _ hd3 (by decide) (by decide)]
    rfl
  · rw [hk4 _ rfl (by decide), hk3 _ rfl (by decide), hk2 _ rfl (by decide)]
    exact hr1

/-- A die enters BOOT: of the registers only its page 0 may show it, and die 0 takes the package along. -/
theorem State.enterBoot_spec (hd : d < s.dies.length) :
    (s.enterBoot d).device = (if d = 0 then .boot else s.device) ∧ (s.enterBoot d).td0 = (if d = 0 then 0 else s.td0) ∧
    s.OnlyOn (s.enterBoot d) fun e key => e = d ∧ stickyKeys 0 key := by
  have key : ∀ v : State, v.part = s.part → v.pending = s.pending → v.dies = s.dies →
      let t := (v.onDie d fun x => { x with bootAt := v.td0 }).when (v.onDie d fun x => { x with bootAt := v.td0 }).roleMismatch
        fun s => s.sticky d Sk.DIE.ROLE_MISMATCH
      t.device = v.device ∧ t.td0 = v.td0 ∧ s.OnlyOn t fun e key => e = d ∧ stickyKeys 0 key := fun v hp hq hdies => by
    have h := ((State.OnlyKeys.refl v d (stickyKeys 0)).onDie (fun x => { x with bootAt := v.td0 }) (fun _ => rfl) fun _ => rfl)
    have h := h.when (v.onDie d fun x => { x with bootAt := v.td0 }).roleMismatch (fun s => s.sticky d Sk.DIE.ROLE_MISMATCH)
      (h.stick _ _ (.inl rfl) (.inr rfl))
    have hcell : ∀ e k, v.cell e k = s.cell e k := fun e k => by
      unfold State.cell State.die State.dflt
      rw [hdies, hp]
    have hdie : ∀ e, v.die e = s.die e := fun e => by
      unfold State.die
      rw [hdies]
    obtain ⟨hf, hlen, hother, hkeys, hdram⟩ := h
    refine ⟨by rw [hf], by rw [hf], by rw [hf]; exact hp, by rw [hf]; exact hq, fun e k hn => ?_, fun e => ?_⟩
    · rw [← hcell]
      by_cases he : e = d
      · subst he
        exact hkeys k fun hk => hn ⟨rfl, hk⟩
      · unfold State.cell State.dflt
        rw [hother e he, hf]
    · by_cases he : e = d
      · subst he
        rw [hdram, hdie]
      · rw [hother e he, hdie]
  unfold State.enterBoot
  by_cases h0 : d = 0
  · subst h0
    exact key _ rfl rfl rfl
  · simp only [if_neg h0]
    exact key s rfl rfl rfl

theorem exec_tpllLocked {second : Bool} (hs : s.sane = true) (hg : s.guardClock d = true) (hgate : (s.die d).gated = false)
    (ho : s.device ≠ .off) (h0 : d = 0 → s.device = .reset) (hst : (s.die d).clk.started = false) (hr : s.startRef d = some second) :
    exec (.tpllLocked d) s = .next ((s.lockLoops d second).enterBoot d) := by
  show execTpllLocked d s = _
  unfold execTpllLocked
  rw [State.guarded_true _ _ _ hs (by simpa [hg, hgate, ho, hst, Decidable.or_iff_not_imp_left] using h0)]
  simp only [hr]
  rfl

theorem tpllLocked_spec {second : Bool} (hsh : s.shaped = true) (hs : s.sane = true) (hg : s.guardClock d = true)
    (hgate : (s.die d).gated = false) (ho : s.device ≠ .off) (h0 : d = 0 → s.device = .reset) (hst : (s.die d).clk.started = false)
    (hr : s.startRef d = some second) : Completes (.tpllLocked d) s fun t =>
      t.flag d Fd.CLK_STATUS.TPLL_LOCK = true ∧ t.flag d Fd.CLK_STATUS.FPLL_LOCK = true ∧ t.flag d Fd.CLK_STATUS.DLL_LOCK = true ∧
      t.rd d Fd.CLK_STATUS.REF = s.refCode second ∧
      t.device = (if d = 0 then .boot else s.device) ∧ t.td0 = (if d = 0 then 0 else s.td0) ∧
      s.OnlyOn t fun e key => e = d ∧ (pageKeys 1 key ∨ stickyKeys 0 key) := by
  have hd : d < s.dies.length := by
    have hl : s.dies.length = s.part.dies := by simpa [State.shaped] using hsh
    have hlt : d < s.part.dies ∧ (s.die d).hold = false := by simpa [State.guardClock] using hg
    exact hl ▸ hlt.1
  obtain ⟨h1, htpll, hfpll, hdll, href⟩ := State.lockLoops_spec (second := second) hd
  obtain ⟨hf, hlen, hother, hkeys, hdram⟩ := h1
  obtain ⟨hdev, htd, hpart, hpend, hcell, hdram2⟩ := State.enterBoot_spec (s := s.lockLoops d second) (hlen ▸ hd)
  have hstat : ∀ g : Fld, g.key 0 = 0x1008 → ((s.lockLoops d second).enterBoot d).rd d g = (s.lockLoops d second).rd d g := fun g hg => by
    unfold State.rd
    rw [hcell d _ (by rw [hg]; simp [stickyKeys, hdrKey])]
  refine ⟨_, exec_tpllLocked hs hg hgate ho h0 hst hr, ?_, ?_, ?_, (hstat _ rfl).trans href, ?_, ?_, ?_, ?_, fun e k hn => ?_, fun e => ?_⟩
  · unfold State.flag at htpll ⊢
    rwa [hstat _ rfl]
  · unfold State.flag at hfpll ⊢
    rwa [hstat _ rfl]
  · unfold State.flag at hdll ⊢
    rwa [hstat _ rfl]
  · rw [hdev, hf]
  · rw [htd, hf]
  · rw [hpart, hf]
  · rw [hpend, hf]
  · rw [hcell e k fun hk => hn ⟨hk.1, .inr hk.2⟩]
    by_cases he : e = d
    · subst he
      exact hkeys k fun hk => hn ⟨rfl, .inl hk⟩
    · unfold State.cell State.dflt
      rw [hother e he, hf]
  · rw [hdram2]
    by_cases he : e = d
    · subst he
      exact hdram
    · rw [hother e he]

end Sys2Proof.Machine

end

section

open Sys2Proof Sys2Proof.Machine

namespace Sys2Proof.Machine

variable {s t u : State} {d b k : Nat}

/-! ### What the steps of BOOT and the entry into CONFIG keep -/

/-- Keys that neither the steps of BOOT nor the blocking of the outputs touch: page 0, every PAGE_CTRL and
PAGE_SCRATCH, and all beside the register pages. -/
abbrev steadyKeys (key : Nat) : Prop := key < 0x1000 ∨ 0x40000 ≤ key ∨ key % 0x1000 = 4 ∨ key % 0x1000 = 0x1C

/-- From s to t the state of the package, its time, its misuses, what boot knows of each die and the registers at the steady keys
stay. -/
structure State.Steady (s t : State) : Prop where
  part : t.part = s.part
  device : t.device = s.device
  last : t.last = s.last
  td0 : t.td0 = s.td0
  misused : t.misused = s.misused
  length : t.dies.length = s.dies.length
  booted : ∀ e, (t.die e).booted = (s.die e).booted
  bootAt : ∀ e, (t.die e).bootAt = (s.die e).bootAt
  boot0 : ∀ e, (t.die e).clk.boot0 = (s.die e).clk.boot0
  cell : ∀ e key, steadyKeys key → t.cell e key = s.cell e key

/-- A change of a die that leaves its registers and what boot knows of it. -/
structure Die.BootFree (f : Die → Die) : Prop where
  cells : ∀ x, (f x).cells = x.cells
  booted : ∀ x, (f x).booted = x.booted
  bootAt : ∀ x, (f x).bootAt = x.bootAt
  boot0 : ∀ x, (f x).clk.boot0 = x.clk.boot0

namespace State.Steady

theorem refl (s : State) : s.Steady s := ⟨rfl, rfl, rfl, rfl, rfl, rfl, fun _ => rfl, fun _ => rfl, fun _ => rfl, fun _ _ _ => rfl⟩

theorem trans (h : s.Steady t) (k : t.Steady u) : s.Steady u :=
  ⟨k.part.trans h.part, k.device.trans h.device, k.last.trans h.last, k.td0.trans h.td0, k.misused.trans h.misused,
    k.length.trans h.length, fun e => (k.booted e).trans (h.booted e), fun e => (k.bootAt e).trans (h.bootAt e),
    fun e => (k.boot0 e).trans (h.boot0 e), fun e key hk => (k.cell e key hk).trans (h.cell e key hk)⟩

theorem onDie {f : Die → Die} (h : s.Steady t) (hf : Die.BootFree f) : s.Steady (t.onDie d f) := by
  refine h.trans ⟨rfl, rfl, rfl, rfl, rfl, State.onDie_length .., fun e => ?_, fun e => ?_, fun e => ?_,
    fun _ _ _ => State.cell_onDie _ _ _ _ _ hf.cells⟩ <;> rw [State.die_onDie] <;> split
  · exact hf.booted _
  · rfl
  · exact hf.bootAt _
  · rfl
  · exact hf.boot0 _
  · rfl

theorem putCell {key : Nat} {w : Word} (h : s.Steady t) (hk : ¬steadyKeys key) : s.Steady (t.putCell d key w) := by
  refine h.trans ⟨rfl, rfl, rfl, rfl, rfl, State.putCell_length .., fun e => State.putCell_booted' .., fun e => ?_,
    fun e => by rw [State.putCell_clk'], fun e j hj => State.cell_putCell_ne _ _ _ _ _ _ (.inr fun he => hk (he ▸ hj))⟩
  unfold State.putCell
  rw [State.die_onDie]
  split <;> rfl

theorem wr {f : Fld} {i v : Nat} (h : s.Steady t) (hk : ¬steadyKeys (f.key i)) : s.Steady (t.wr d f i v) := h.putCell hk

theorem stick {page bit : Nat} (h : s.Steady t) (hp : 1 ≤ page ∧ page < 0x40) : s.Steady (t.stick d page bit) := by
  unfold State.stick
  dsimp only
  split
  · exact h
  · have h1 := (h.putCell (d := d) (key := hdrKey page 0xC) (w := setBits (t.cell d (hdrKey page 0xC)) bit bit 1)
      (by unfold hdrKey; omega)).putCell (d := d) (key := hdrKey page 0x10)
      (w := BitVec.ofNat 32 (((t.cell d (hdrKey page 0x10)).toNat + 1) % 65536)) (by unfold hdrKey; omega)
    exact ⟨h1.part, h1.device, h1.last, h1.td0, h1.misused, h1.length, h1.booted, h1.bootAt, h1.boot0, h1.cell⟩

theorem freeN (h : s.Steady t) : s.Steady t.freeN.2 :=
  ⟨h.part, h.device, h.last, h.td0, h.misused, h.length, h.booted, h.bootAt, h.boot0, h.cell⟩

theorem pins (h : s.Steady t) (p : Pins) : s.Steady { t with pins := p } :=
  ⟨h.part, h.device, h.last, h.td0, h.misused, h.length, h.booted, h.bootAt, h.boot0, h.cell⟩

theorem raise {n : Nat} (h : s.Steady t) : s.Steady (t.raise d n) := by
  unfold State.raise
  split
  · exact h
  · exact h.onDie ⟨fun _ => rfl, fun _ => rfl, fun _ => rfl, fun _ => rfl⟩

theorem source {n : Nat} {on : Bool} (h : s.Steady t) : s.Steady (t.source d n on) := by
  unfold State.source
  split
  · exact h.raise
  · exact h.onDie ⟨fun _ => rfl, fun _ => rfl, fun _ => rfl, fun _ => rfl⟩

theorem when {c : Bool} {f : State → State} (h : s.Steady t) (hf : ∀ v, s.Steady v → s.Steady (f v)) : s.Steady (t.when c f) := by
  unfold State.when
  split
  · exact hf t h
  · exact h

theorem each {α : Type} {l : List α} {f : State → α → State} (h : s.Steady t)
    (hf : ∀ v, ∀ a ∈ l, s.Steady v → s.Steady (f v a)) : s.Steady (t.each l f) := State.each_keeps_mem h hf

/-! #### The bridges and their gates -/

theorem onBg {f : Bg → Bg} (h : s.Steady t) : s.Steady (t.onBg f) := h.onDie ⟨fun _ => rfl, fun _ => rfl, fun _ => rfl, fun _ => rfl⟩

theorem onLeg {f : Leg → Leg} (h : s.Steady t) : s.Steady (t.onLeg k f) := h.onBg

theorem onBridge {f : Bridge → Bridge} (h : s.Steady t) : s.Steady (t.onBridge b f) := h.onBg

theorem endHigh {i : Int} (h : s.Steady t) : s.Steady (t.endHigh k i) := h.when fun _ hv => hv.onLeg

theorem setGh {v : Bool} (h : s.Steady t) : s.Steady (t.setGh k v) := h.pins _

theorem setGl {v : Bool} (h : s.Steady t) : s.Steady (t.setGl k v) := h.pins _

theorem settleFalls {i : Int} (h : s.Steady t) : s.Steady (t.settleFalls k i) :=
  (h.when fun _ hv => hv.setGh.onLeg.endHigh).when fun _ hv => hv.setGl.onLeg.endHigh

theorem rise {up : Bool} {r : Int} (h : s.Steady t) : s.Steady (t.rise k up r) := by
  unfold State.rise
  cases up
  · exact h.setGl.onLeg
  · exact h.setGh.onLeg

theorem settleRise {up : Bool} {i : Int} (h : s.Steady t) : s.Steady (t.settleRise k up i) := by
  unfold State.settleRise
  split
  · split
    · exact h.rise
    · exact h
  · exact h

theorem settle {i : Int} (h : s.Steady t) : s.Steady (t.settle k i) := h.settleFalls.settleRise.settleRise

theorem driveLeg {up lo : Bool} {i : Int} (h : s.Steady t) : s.Steady (t.driveLeg k up lo i) := by
  unfold State.driveLeg
  exact h.settle.onLeg

theorem wrZnext {v : Nat} (h : s.Steady t) : s.Steady (t.wr 0 (znextField b) 0 v) :=
  h.wr (by unfold Fld.key znextField; dsimp only; omega)

theorem wrBstate {v : Nat} (h : s.Steady t) : s.Steady (t.wr 0 (bstateField b) 0 v) :=
  h.wr (by unfold Fld.key bstateField; dsimp only; omega)

theorem takeState {code : Nat} {i : Int} (h : s.Steady t) : s.Steady (t.takeState b code i) := by
  unfold State.takeState
  exact (h.when fun _ hv => hv.wrZnext).onBridge.wrBstate.driveLeg.driveLeg

theorem takeBlock {w : Bool} {i : Int} (h : s.Steady t) : s.Steady (t.takeBlock b w i) := h.onBridge.takeState

theorem makeCurrent {m : Manifest} (h : s.Steady t) : s.Steady (t.makeCurrent b m) := by
  unfold State.makeCurrent
  dsimp only
  split
  · exact h.onBridge
  · split
    · exact h.onBridge.onBridge
    · exact (h.onBridge.stick (by decide)).takeBlock

theorem discardCurrent (h : s.Steady t) : s.Steady (t.discardCurrent b) := by
  unfold State.discardCurrent
  dsimp only
  split
  · exact h.onBridge.makeCurrent
  · exact h.onBridge

theorem guardSources (h : s.Steady t) : s.Steady t.guardSources := h.source.source

theorem undoTick (h : s.Steady t) : s.Steady (t.undoTick b) := by
  unfold State.undoTick
  split
  · exact h
  · next x _ =>
    split
    · exact h
    · exact ((h.wrZnext.when fun _ hv => hv.onBg).onBridge.when fun _ hv => hv.discardCurrent).guardSources

theorem blockBridge (h : s.Steady t) : s.Steady (t.blockBridge b) := by
  exact (h.undoTick.when fun _ hv => hv.each fun _ _ _ hw => hw.onLeg).takeBlock

theorem blockAll (h : s.Steady t) : s.Steady t.blockAll := h.each fun _ _ _ hv => hv.blockBridge

/-! #### The safety channels, the latches and the state a node reports -/

theorem safetyOff (h : s.Steady t) : s.Steady t.safetyOff :=
  (h.pins _).each fun _ _ _ hv => (hv.wr (f := Fd.SAF_STATUS.OUT_ON) (by decide)).onDie
    ⟨fun _ => rfl, fun _ => rfl, fun _ => rfl, fun _ => rfl⟩

theorem safetyTrip (h : s.Steady t) : s.Steady t.safetyTrip := h.each fun _ _ _ hv => hv.source

theorem emptyLatch (h : s.Steady t) : s.Steady ((t.emptyLocal d).emptyPackage d) :=
  (((((h.wr (f := Fd.LOC_SRC.W) (by decide)).wr (f := Fd.LOC_T_LO.W) (by decide)).wr (f := Fd.LOC_T_HI.W) (by decide)).wr
    (f := Fd.FF_SRC.W) (by decide)).wr (f := Fd.FF_T_LO.W) (by decide)).wr (f := Fd.FF_T_HI.W) (by decide)

theorem setNodeField {f : Nat} {v : BitVec 16} (h : s.Steady t) (hf : f < 0x3C0) : s.Steady (t.setNodeField f v) := by
  unfold State.setNodeField
  split
  · exact h
  · exact (h.putCell (d := 0) (key := ctxKey 1 f) (w := v.setWidth 32) (by unfold ctxKey; omega)).onDie
      ⟨fun _ => rfl, fun _ => rfl, fun _ => rfl, fun _ => rfl⟩

theorem reportState (h : s.Steady t) : s.Steady t.reportState := by
  unfold State.reportState
  split
  · exact h
  · exact h.setNodeField (by decide)

end State.Steady

/-! ### The entry into CONFIG -/

/-- The package as it changes to CONFIG, with STATE_CHANGED set and everything else still to do. -/
def State.toConfig (s : State) : State :=
  ({ s with last := s.device, device := .config, changes := s.changes + 1, arming := none, movedAt := some s.td0,
            movedBy := none }).stick 0 0 Sk.DIE.STATE_CHANGED.bit

/-- What the entry into CONFIG does before the pins and the node's report follow. -/
def State.quieted (s : State) : State :=
  let v := s.safetyOff.safetyTrip
  if v.isHead then
    v.each (v.dieList.filter fun d => v.blockEn d 7 && decide (2 ≤ v.rd d Fd.RING_CTRL.MODE)) fun s d =>
      s.onDie d fun x => { x with head := { x.head with stateOut := x.head.stateOut ++ [(DevState.config.code, s.td0)] } }
  else (((v.emptyLocal 0).emptyPackage 0)).blockAll

theorem State.Steady.quieted (h : s.Steady t) : s.Steady t.quieted := by
  unfold State.quieted
  dsimp only
  split
  · exact h.safetyOff.safetyTrip.each fun _ _ _ hv => hv.onDie ⟨fun _ => rfl, fun _ => rfl, fun _ => rfl, fun _ => rfl⟩
  · exact h.safetyOff.safetyTrip.emptyLatch.blockAll

theorem State.enter_config (s : State) : s.enter .config = s.toConfig.quieted.setPermit.reportState := by
  have hc : (!s.device.safetyOn && DevState.config.safetyOn) = false := Bool.and_false _
  unfold State.enter
  dsimp only
  rw [hc]
  rfl

theorem State.cell_toConfig {e key : Nat} (hk : key ≠ 0xC ∧ key ≠ 0x10) : s.toConfig.cell e key = s.cell e key :=
  State.cell_stick_ne _ _ _ _ _ _ (.inr hk)

theorem State.pins_reportState (s : State) : s.reportState.pins = s.pins := by
  unfold State.reportState State.setNodeField
  split
  · rfl
  · split <;> rfl

/-- What is seen after the package has entered CONFIG. -/
theorem State.enter_config_spec (h0 : 0 < s.dies.length) :
    (s.enter .config).device = .config ∧ (s.enter .config).last = s.device ∧ (s.enter .config).pins.permit = false ∧
    (∀ e, ((s.enter .config).die e).booted = (s.die e).booted) ∧
    (s.enter .config).stuckAt 0 Sk.DIE.STATE_CHANGED.page Sk.DIE.STATE_CHANGED.bit = true ∧
    ∀ e key, steadyKeys key → key ≠ 0xC ∧ key ≠ 0x10 → (s.enter .config).cell e key = s.cell e key := by
  rw [State.enter_config]
  have hq : s.toConfig.Steady s.toConfig.quieted := (State.Steady.refl _).quieted
  have hdev : s.toConfig.quieted.device = .config := hq.device.trans (State.stick_device ..)
  have ht : s.toConfig.Steady s.toConfig.quieted.setPermit.reportState := (hq.pins _).reportState
  refine ⟨ht.device.trans (State.stick_device ..), ht.last.trans (State.stick_last ..), ?_,
    fun e => (ht.booted e).trans (State.stick_booted' ..), ?_,
    fun e key hk hne => (ht.cell e key hk).trans (State.cell_toConfig hne)⟩
  · rw [State.pins_reportState]
    show s.toConfig.quieted.permitNow = false
    unfold State.permitNow
    rw [hdev]
    rfl
  · have hst : s.toConfig.stuckAt 0 Sk.DIE.STATE_CHANGED.page Sk.DIE.STATE_CHANGED.bit = true :=
      State.stuckAt_stick_same _ _ _ _ h0 (by decide)
    unfold State.stuckAt at hst ⊢
    rwa [ht.cell 0 _ (by decide)]

/-! ### The steps of BOOT -/

namespace State.Steady

theorem wrMacro {f : Fld} {m v : Nat} (h : s.Steady t) (hf : f.page = 0xD ∧ f.base = 0x100 ∧ f.stride = 4) (hm : m < 256) :
    s.Steady (t.wr d f m v) := by
  obtain ⟨hp, hb, hs⟩ := hf
  exact h.wr (by unfold Fld.key; rw [hp, hb, hs]; omega)

theorem applyFused (h : s.Steady t) : s.Steady (t.applyFused d) := by
  unfold State.applyFused
  refine State.Steady.wr (h.each fun v i _ hv => ?_) (by decide)
  have hm : bitsOf (v.repairEntry d i) 19 12 < 256 := bitsOf_lt ..
  have h1 := hv.when (c := bitsOf (v.repairEntry d i) 11 10 != 0)
    (f := fun s => s.wrB d Fd.MACRO_STAT.FUSED (bitsOf (v.repairEntry d i) 19 12) true)
    fun _ hw => hw.wrMacro ⟨rfl, rfl, rfl⟩ hm
  dsimp only
  split
  · exact (h1.wrMacro ⟨rfl, rfl, rfl⟩ hm).wrMacro ⟨rfl, rfl, rfl⟩ hm
  · exact (h1.wrMacro ⟨rfl, rfl, rfl⟩ hm).wrMacro ⟨rfl, rfl, rfl⟩ hm
  · exact (h1.wrMacro ⟨rfl, rfl, rfl⟩ hm).wrMacro ⟨rfl, rfl, rfl⟩ hm
  · exact h1

theorem drawEpoch (h : s.Steady t) : s.Steady t.drawEpoch := h.freeN.wr (by decide)

theorem trainLinks {links : BitVec 3} (h : s.Steady t) : s.Steady (t.trainLinks d links) := h.each fun v l _ hv => by
  split
  · exact hv
  · split
    · exact hv.wr (by cases l <;> decide)
    · exact (hv.stick (by decide)).raise

end State.Steady

/-- The steps of BOOT on a die before it shows that it is done. -/
def State.bootSteps (s : State) (d : Nat) (links : BitVec 3) : State :=
  let v := (s.applyFused d).when (d != 0) fun s => s.onSec d fun x => { x with copied := BitVec.ofNat 1540 (s.fuse 0 1216 1540) }
  let v := if d = 0 then v.drawEpoch else v
  v.when v.isHead fun s => (s.trainLinks d links).wrB d Fd.REC_STATUS.DRAM_OK 0 true

theorem State.bootSteps_steady (s : State) (d : Nat) (links : BitVec 3) : s.Steady (s.bootSteps d links) := by
  unfold State.bootSteps
  refine State.Steady.when ?_ fun _ hv => hv.trainLinks.wr (by decide)
  have h1 := (State.Steady.refl s).applyFused (d := d) |>.when (c := d != 0)
    (f := fun s => s.onSec d fun x => { x with copied := BitVec.ofNat 1540 (s.fuse 0 1216 1540) })
    fun _ hv => hv.onDie ⟨fun _ => rfl, fun _ => rfl, fun _ => rfl, fun _ => rfl⟩
  split
  · exact h1.drawEpoch
  · exact h1

/-- A die that has reached the last step of BOOT. -/
def State.setBooted (s : State) (d : Nat) : State := s.onDie d fun x => { x with booted := true }

theorem State.cell_setBooted {e key : Nat} : (s.setBooted d).cell e key = s.cell e key := State.cell_onDie _ _ _ _ _ fun _ => rfl

theorem State.booted_setBooted {e : Nat} (hd : d < s.dies.length) :
    ((s.setBooted d).die e).booted = (decide (e = d) || (s.die e).booted) := by
  unfold State.setBooted
  rw [State.die_onDie]
  by_cases he : e = d <;> simp [he, hd]

theorem State.clk_setBooted {e : Nat} : ((s.setBooted d).die e).clk = (s.die e).clk := by
  unfold State.setBooted
  rw [State.die_onDie]
  split <;> rfl

theorem State.bootDie_eq (s : State) (d : Nat) (links : BitVec 3) : s.bootDie d links =
    (((s.bootSteps d links).wr d Fd.BOOT_INFO.BOOT_TIME 0
      (satU 16 (((s.bootSteps d links).td0 - ((s.bootSteps d links).die d).bootAt) / 800))).wrB d Fd.DIE_STATUS.BOOTED 0 true).setBooted
      d := rfl

/-- A die that has gone through BOOT shows it and how long it took. -/
theorem State.bootDie_spec {links : BitVec 3} (hd : d < s.dies.length) :
    let t := s.bootDie d links
    t.part = s.part ∧ t.device = s.device ∧ t.dies.length = s.dies.length ∧
    (∀ e, (t.die e).booted = (decide (e = d) || (s.die e).booted)) ∧ (∀ e, (t.die e).clk.boot0 = (s.die e).clk.boot0) ∧
    t.flag d Fd.DIE_STATUS.BOOTED = true ∧
    t.rd d Fd.BOOT_INFO.BOOT_TIME = min ((s.td0 - (s.die d).bootAt) / 800) 65535 ∧
    ∀ e key, 0x40000 ≤ key → t.cell e key = s.cell e key := by
  rw [State.bootDie_eq]
  have h := s.bootSteps_steady d links
  rw [h.td0, h.bootAt]
  generalize s.bootSteps d links = v at h ⊢
  have hv : d < v.dies.length := h.length ▸ hd
  generalize hx : satU 16 ((s.td0 - (s.die d).bootAt) / 800) = x
  have hv1 : d < (v.wr d Fd.BOOT_INFO.BOOT_TIME 0 x).dies.length := by rwa [State.wr_length]
  have hv2 : d < ((v.wr d Fd.BOOT_INFO.BOOT_TIME 0 x).wrB d Fd.DIE_STATUS.BOOTED 0 true).dies.length := by
    rwa [State.wrB_eq, State.wr_length]
  refine ⟨h.part, h.device, ?_, fun e => ?_, fun e => ?_, ?_, ?_, fun e key hk => ?_⟩
  · exact (State.onDie_length ..).trans ((State.wr_length ..).trans ((State.wr_length ..).trans h.length))
  · rw [State.booted_setBooted hv2, State.wrB_eq, State.wr_booted', State.wr_booted', h.booted]
  · rw [State.clk_setBooted, State.wrB_eq, State.wr_clk', State.wr_clk', h.boot0]
  · unfold State.flag State.rd
    rw [State.cell_setBooted]
    exact congrArg (· != 0) (State.rd_wr_same _ _ _ _ _ hv1 (by decide) (by decide))
  · unfold State.rd
    rw [State.cell_setBooted, State.wrB_eq, State.cell_wr_ne _ _ _ _ _ _ _ (.inr (by decide))]
    refine (State.rd_wr_same _ _ _ _ _ hv (by decide) (by decide)).trans ?_
    rw [← hx]
    exact Nat.mod_eq_of_lt (show min ((s.td0 - (s.die d).bootAt) / 800) 65535 < 65536 by omega)
  · rw [State.cell_setBooted, State.wrB_eq, State.cell_wr_ne _ _ _ _ _ _ _ (.inr (by simp [Fld.key]; omega)),
      State.cell_wr_ne _ _ _ _ _ _ _ (.inr (by simp [Fld.key]; omega))]
    exact h.cell e key (.inr (.inl hk))

/-! ### The end of BOOT -/

/-- From s to t only BOOT_HOLD of the dies may have changed. -/
structure State.HoldWritten (s t : State) : Prop where
  frame : t = { s with dies := t.dies }
  length : t.dies.length = s.dies.length
  booted : ∀ e, (t.die e).booted = (s.die e).booted
  cell : ∀ e key, key ≠ 8 → t.cell e key = s.cell e key
  rd : ∀ e (g : Fld), g.key 0 = 8 → 1 < g.lo ∨ g.hi < 1 → t.rd e g = s.rd e g

theorem State.HoldWritten.wr {on : Bool} (h : s.HoldWritten t) : s.HoldWritten (t.wrB d Fd.DIE_STATUS.BOOT_HOLD 0 on) := by
  refine ⟨?_, (State.wr_length ..).trans h.length, fun e => (State.wr_booted' ..).trans (h.booted e),
    fun e key hk => (State.cell_wr_ne _ _ _ _ _ _ _ (.inr hk)).trans (h.cell e key hk), fun e g hg hb => ?_⟩
  · exact State.dies_trans h.frame rfl
  · exact (State.rd_wr_bits _ _ _ _ _ _ _ _ hg (by decide) (by decide) (by simpa [or_comm] using hb)).trans (h.rd e g hg hb)

theorem State.holdBoot_spec {on : Bool} :
    s.HoldWritten (s.holdBoot on) ∧
    ∀ k, k < s.part.dies → k < s.dies.length → (s.holdBoot on).flag k Fd.DIE_STATUS.BOOT_HOLD = on := by
  have h0 : s.HoldWritten s := ⟨rfl, rfl, fun _ => rfl, fun _ _ _ => rfl, fun _ _ _ _ => rfl⟩
  refine ⟨State.each_keeps h0 fun v b hv => hv.wr, fun k hk hl => ?_⟩
  have hset : ∀ v : State, k < v.dies.length → (v.wrB k Fd.DIE_STATUS.BOOT_HOLD 0 on).flag k Fd.DIE_STATUS.BOOT_HOLD = on := fun v hv => by
    unfold State.flag
    rw [State.wrB_eq, State.rd_wr_same _ _ _ _ _ hv (by decide) (by decide)]
    cases on <;> rfl
  refine State.each_brings (P := s.HoldWritten) (Q := fun v => v.flag k Fd.DIE_STATUS.BOOT_HOLD = on) (List.mem_range.2 hk) h0
    (fun v b hv => hv.wr) (fun v b hv hq => ?_) fun v hv => hset v (hv.length ▸ hl)
  by_cases hb : b = k
  · subst hb
    exact hset v (hv.length ▸ hl)
  · unfold State.flag at hq ⊢
    rw [State.wrB_eq, State.rd_wr_ne _ _ _ _ _ _ _ _ (.inl (Ne.symm hb))]
    exact hq

/-- The end of BOOT of one die and what follows for the package. -/
def State.bootEnd (s : State) (d : Nat) (links : BitVec 3) : State :=
  let v := s.bootDie d links
  if v.device != .boot || !(v.dieList.all fun k => (v.die k).booted) then v
  else if v.isHead && (v.die 0).clk.boot0 then v.holdBoot true
  else v.enter .config

theorem exec_bootComplete {links : BitVec 3} (hs : s.sane = true) (ha : s.alive d = true) (hst : (s.die d).clk.started = true)
    (hb : (s.die d).booted = false) (hr : s.roleMismatch = false) :
    exec (.bootComplete d links) s = .next (s.bootEnd d links) := by
  show execBootComplete d links s = _
  unfold execBootComplete
  rw [State.guarded_true _ _ _ hs (by simp [ha, hst, hb, hr])]
  rfl

theorem bootComplete_spec {links : BitVec 3} (hsh : s.shaped = true) (hs : s.sane = true) (ha : s.alive d = true)
    (hst : (s.die d).clk.started = true) (hb : (s.die d).booted = false) (hr : s.roleMismatch = false) :
    Completes (.bootComplete d links) s fun t =>
      (t.die d).booted = true ∧ t.flag d Fd.DIE_STATUS.BOOTED = true ∧
      t.rd d Fd.BOOT_INFO.BOOT_TIME = min ((s.td0 - (s.die d).bootAt) / 800) 65535 ∧
      (s.device = .boot → (∀ k, k < s.part.dies → k = d ∨ (s.die k).booted = true) →
        if s.isHead = true ∧ (s.die 0).clk.boot0 = true then
          t.device = .boot ∧ ∀ k, k < s.part.dies → t.flag k Fd.DIE_STATUS.BOOT_HOLD = true
        else t.device = .config ∧ t.last = .boot ∧ t.pins.permit = false) ∧
      (s.device ≠ .boot ∨ (∃ k, k < s.part.dies ∧ k ≠ d ∧ (s.die k).booted = false) → t.device = s.device) ∧
      ∀ e key, 0x40000 ≤ key → t.cell e key = s.cell e key := by
  have hd := State.lt_length hsh ha
  have hlen : s.dies.length = s.part.dies := by simpa [State.shaped] using hsh
  obtain ⟨hpart, hdev, hdies, hbooted, hboot0, hflag, htime, hcell⟩ := State.bootDie_spec (links := links) hd
  refine ⟨_, exec_bootComplete hs ha hst hb hr, ?_⟩
  unfold State.bootEnd
  dsimp only
  have hhead : (s.bootDie d links).isHead = s.isHead := by unfold State.isHead; rw [hpart]
  rw [hdev, hhead, hboot0]
  have hall : ((s.bootDie d links).dieList.all fun k => ((s.bootDie d links).die k).booted) = true ↔
      ∀ k, k < s.part.dies → k = d ∨ (s.die k).booted = true := by
    unfold State.dieList
    rw [hpart]
    simp [hbooted]
  generalize s.bootDie d links = v at *
  by_cases hc : s.device = .boot ∧ ∀ k, k < s.part.dies → k = d ∨ (s.die k).booted = true
  · obtain ⟨hbt, hk⟩ := hc
    have hnot : ¬(s.device ≠ .boot ∨ ∃ k, k < s.part.dies ∧ k ≠ d ∧ (s.die k).booted = false) := by
      rintro (h | ⟨k, hlt, hne, hf⟩)
      · exact h hbt
      · simpa [hne, hf] using hk k hlt
    rw [if_neg (by simp [hbt, hall.2 hk])]
    by_cases hh : s.isHead = true ∧ (s.die 0).clk.boot0 = true
    · rw [if_pos (by simpa using hh), if_pos hh]
      obtain ⟨hw, hhold⟩ := State.holdBoot_spec (s := v) (on := true)
      have hdv : (v.holdBoot true).device = s.device := by rw [hw.frame]; exact hdev
      refine ⟨(hw.booted d).trans (by simp [hbooted]), ?_, ?_, fun _ _ => ⟨hdv.trans hbt, fun k hk => ?_⟩, fun h => absurd h hnot,
        fun e key hk => ?_⟩
      · unfold State.flag at hflag ⊢
        rwa [hw.rd d _ rfl (by decide)]
      · rw [← htime]
        unfold State.rd
        rw [hw.cell d _ (by decide)]
      · exact hhold k (hpart ▸ hk) (by omega)
      · rw [hw.cell e key (by omega), hcell e key hk]
    · rw [if_neg (by simpa using hh), if_neg hh]
      obtain ⟨hcdev, hclast, hcpermit, hcboot, -, hccell⟩ := State.enter_config_spec (s := v) (by omega)
      refine ⟨(hcboot d).trans (by simp [hbooted]), ?_, ?_, fun _ _ => ⟨hcdev, hclast.trans (hdev.trans hbt), hcpermit⟩,
        fun h => absurd h hnot, fun e key hk => (hccell e key (.inr (.inl hk)) (by omega)).trans (hcell e key hk)⟩
      · unfold State.flag State.rd at hflag ⊢
        rwa [hccell d _ (by decide) (by decide)]
      · rw [← htime]
        unfold State.rd
        rw [hccell d _ (by decide) (by decide)]
  · rw [if_pos (by
      rw [Bool.or_eq_true, bne_iff_ne, Bool.not_eq_true', ← Bool.not_eq_true, hall]
      exact Decidable.or_iff_not_imp_left.2 fun h h2 => hc ⟨not_not.1 h, h2⟩)]
    exact ⟨by simp [hbooted], hflag, htime, fun h1 h2 => absurd ⟨h1, h2⟩ hc, fun _ => hdev, hcell⟩

theorem exec_bootGo (hs : s.sane = true) (ha : s.alive 0 = true) (hb : s.device = .boot)
    (hf : s.flag 0 Fd.DIE_STATUS.BOOT_HOLD = true) : exec .bootGo s = .next ((s.holdBoot false).enter .config) := by
  refine (State.guarded_true _ _ _ hs ha).trans ?_
  unfold opBootGo
  rw [hb, hf]
  rfl

theorem bootGo_spec (hsh : s.shaped = true) (hs : s.sane = true) (ha : s.alive 0 = true) (hb : s.device = .boot)
    (hf : s.flag 0 Fd.DIE_STATUS.BOOT_HOLD = true) : Completes .bootGo s fun t =>
      t.device = .config ∧ t.last = .boot ∧ t.flag 0 Fd.DIE_STATUS.BOOT_HOLD = false ∧
      t.stuckAt 0 Sk.DIE.STATE_CHANGED.page Sk.DIE.STATE_CHANGED.bit = true := by
  have h0 := State.lt_length hsh ha
  obtain ⟨hw, hhold⟩ := State.holdBoot_spec (s := s) (on := false)
  obtain ⟨hdev, hlast, -, -, hst, hcell⟩ := State.enter_config_spec (s := s.holdBoot false) (hw.length ▸ h0)
  have hdv : (s.holdBoot false).device = s.device := by rw [hw.frame]
  refine ⟨_, exec_bootGo hs ha hb hf, hdev, hlast.trans (hdv.trans hb), ?_, hst⟩
  have h := hhold 0 (State.lt_of_alive ha) h0
  unfold State.flag State.rd at h ⊢
  rwa [hcell 0 _ (by decide) (by decide)]

/-- Settles O9: one lemma for each of the four commands. -/
theorem resetHoldToConfig : Obligations.reset_hold_to_config :=
  ⟨fun _ _ _ _ _ hsh ho hp => resetHoldEnd_spec hsh ho hp,
    fun _ _ _ hsh hs hg hgate ho h0 hst hr => tpllLocked_spec hsh hs hg hgate ho h0 hst hr,
    fun _ _ _ hsh hs ha hst hb hr => bootComplete_spec hsh hs ha hst hb hr,
    fun _ hsh hs ha hb hf => bootGo_spec hsh hs ha hb hf⟩

end Sys2Proof.Machine

end

section

open Sys2Proof Sys2Proof.Machine

/-! ## Page headers -/

namespace Sys2Proof.Machine

variable {s t u : State}

/-! ### What the reset of a block spares

Beside the registers of its own page, the reset of a block changes registers that show its state; these are never a PAGE_CTRL, a
PAGE_SCRATCH or a word of the loop memories. -/

/-- PAGE_CTRL and PAGE_SCRATCH of every page, and the loop memories. -/
abbrev spareKeys (key : Nat) : Prop :=
  key < 0x40000 ∧ (key % 0x1000 = 4 ∨ key % 0x1000 = 0x1C) ∨ 0x80000 ≤ key ∧ key < 0xF0000

/-- From s to t the part, the misuses of the host and the registers at the spared keys stay. -/
structure State.Spares (s t : State) : Prop where
  part : t.part = s.part
  misused : t.misused = s.misused
  length : t.dies.length = s.dies.length
  cell : ∀ e key, spareKeys key → t.cell e key = s.cell e key

/-- A field of a word that is none of the spared ones, whatever bits of it the field takes. -/
theorem not_spareKeys {f : Fld} (page base : Nat) (hp : f.page = page) (hb : f.base = base)
    (hk : ¬spareKeys (page * 0x1000 + base) := by decide) : ¬spareKeys (f.key 0) := by
  unfold Fld.key
  rwa [hp, hb, Nat.mul_zero, Nat.add_zero]

/-- A word of a table whose entries are 0x20 bytes apart, at another place in them than PAGE_CTRL and PAGE_SCRATCH in their page. -/
theorem not_spareKeys_table {f : Fld} {i : Nat} (hs : f.stride % 0x20 = 0) (hb : f.base % 0x20 ≠ 4 ∧ f.base % 0x20 ≠ 0x1C)
    (hk : f.key i < 0x80000) : ¬spareKeys (f.key i) := by
  have hm : f.key i % 0x20 = f.base % 0x20 := by
    obtain ⟨q, hq⟩ := Nat.dvd_of_mod_eq_zero hs
    unfold Fld.key
    rw [hq, Nat.mul_assoc]
    omega
  unfold spareKeys
  omega

/-- A register that is not among those dropped stays. -/
theorem State.cell_dropCells_not {d e key : Nat} {p : Nat → Bool} (hp : p key = false) :
    (s.dropCells d p).cell e key = s.cell e key := by
  by_cases hd : d < s.dies.length
  · rw [State.cell_dropCells _ _ _ _ _ hd, if_neg (by simp [hp])]
  · unfold State.dropCells State.cell State.die State.dflt State.onDie
    rw [List.modify_eq_self (by omega)]

namespace State.Spares

theorem refl (s : State) : s.Spares s := ⟨rfl, rfl, rfl, fun _ _ _ => rfl⟩

theorem trans (h : s.Spares t) (k : t.Spares u) : s.Spares u :=
  ⟨k.part.trans h.part, k.misused.trans h.misused, k.length.trans h.length, fun e key hk => (k.cell e key hk).trans (h.cell e key hk)⟩

/-- A change of the package beside its part, its misuses and its dies. -/
theorem congr (h : s.Spares t) (h1 : u.part = t.part) (h2 : u.misused = t.misused) (h3 : u.dies = t.dies) : s.Spares u :=
  h.trans ⟨h1, h2, congrArg List.length h3, fun _ _ _ => by unfold State.cell State.die State.dflt; rw [h1, h3]⟩

theorem onDie {d : Nat} {f : Die → Die} (h : s.Spares t) (hc : ∀ x, (f x).cells = x.cells) : s.Spares (t.onDie d f) :=
  h.trans ⟨rfl, rfl, State.onDie_length .., fun _ _ _ => State.cell_onDie _ _ _ _ _ hc⟩

theorem putCell {d key : Nat} {w : Word} (h : s.Spares t) (hk : ¬spareKeys key := by decide) : s.Spares (t.putCell d key w) :=
  h.trans ⟨rfl, rfl, State.putCell_length .., fun _ _ hj => State.cell_putCell_ne _ _ _ _ _ _ (.inr fun he => hk (he ▸ hj))⟩

theorem dropCells {d : Nat} {p : Nat → Bool} (h : s.Spares t) (hp : ∀ k, p k = true → ¬spareKeys k) : s.Spares (t.dropCells d p) :=
  h.trans ⟨rfl, rfl, State.dropCells_length .., fun _ key hk => State.cell_dropCells_not (by simpa using fun hc => hp key hc hk)⟩

theorem wr {d : Nat} {f : Fld} {i v : Nat} (h : s.Spares t) (hk : ¬spareKeys (f.key i) := by decide) : s.Spares (t.wr d f i v) :=
  h.putCell hk

theorem wrB {d : Nat} {f : Fld} {i : Nat} {b : Bool} (h : s.Spares t) (hk : ¬spareKeys (f.key i) := by decide) :
    s.Spares (t.wrB d f i b) := h.wr hk

theorem ite {c : Prop} [Decidable c] (h : s.Spares t) (k : s.Spares u) : s.Spares (if c then t else u) := by
  split
  · exact h
  · exact k

theorem when {c : Bool} {f : State → State} (h : s.Spares t) (hf : ∀ v, s.Spares v → s.Spares (f v)) : s.Spares (t.when c f) :=
  .ite (hf t h) h

theorem each {α : Type} {l : List α} {f : State → α → State} (h : s.Spares t) (hf : ∀ v, ∀ a ∈ l, s.Spares v → s.Spares (f v a)) :
    s.Spares (t.each l f) := State.each_keeps_mem h hf

theorem stick {d page bit : Nat} (h : s.Spares t) (hp : page < 0x40 := by decide) : s.Spares (t.stick d page bit) := by
  unfold State.stick
  exact .ite h (.congr ((h.putCell (by unfold hdrKey; omega)).putCell (by unfold hdrKey; omega)) rfl rfl rfl)

theorem sticky {d : Nat} {k : Sticky} {i : Nat} (h : s.Spares t) (hp : k.page < 0x40 := by decide) : s.Spares (t.sticky d k i) :=
  h.stick hp

theorem freeW (h : s.Spares t) : s.Spares t.freeW.2 := h.congr rfl rfl rfl

theorem onRec {d : Nat} {f : Rec → Rec} (h : s.Spares t) : s.Spares (t.onRec d f) := h.onDie fun _ => rfl

/-- What the steps of BOOT keep is kept here too. -/
theorem steady (h : s.Spares t) (k : t.Steady u) : s.Spares u :=
  h.trans ⟨k.part, k.misused, k.length, fun e key hk => k.cell e key (by unfold spareKeys at hk; unfold steadyKeys; omega)⟩

/-! #### What is spared by the operations of Machine/Signals -/

theorem raise {d pi : Nat} (h : s.Spares t) : s.Spares (t.raise d pi) := by
  unfold State.raise
  exact .ite h (h.onDie (fun _ => rfl))

theorem lower {d pi : Nat} (h : s.Spares t) : s.Spares (t.lower d pi) := by
  unfold State.lower
  exact h.onDie (fun _ => rfl)

theorem source {d pi : Nat} {on : Bool} (h : s.Spares t) : s.Spares (t.source d pi on) := by
  unfold State.source
  exact .ite h.raise h.lower

/-! #### What is spared by the operations of Machine/Bridge -/

theorem onBg {f : Bg → Bg} (h : s.Spares t) : s.Spares (t.onBg f) := by
  unfold State.onBg
  exact h.onDie (fun _ => rfl)

theorem takeBlock {b : Nat} {wait : Bool} {inst : Int} (h : s.Spares t) : s.Spares (t.takeBlock b wait inst) :=
  h.steady (State.Steady.refl t).takeBlock

theorem blockAll (h : s.Spares t) : s.Spares t.blockAll := h.steady (State.Steady.refl t).blockAll

theorem dropManifests (h : s.Spares t) : s.Spares t.dropManifests := h.steady ((State.Steady.refl t).each fun _ _ _ hv => hv.onBridge)

theorem unblock (h : s.Spares t) : s.Spares t.unblock := h.steady <| (State.Steady.refl t).each fun _ _ _ hv => by
  split
  · exact hv
  · split
    · split
      · exact hv
      · exact hv.takeState
    · split
      · split
        · exact hv.onBridge.takeState
        · exact hv
      · exact hv

/-! #### What is spared by the operations of Machine/Guard -/

theorem opGuardOff (h : s.Spares t) : s.Spares (opGuardOff t) := h.blockAll

theorem opGuardReset (h : s.Spares t) : s.Spares (opGuardReset t) := by
  unfold Machine.opGuardReset
  exact .onDie (.onBg (h.dropManifests.each fun _ _ _ h => h.takeBlock)) (fun _ => rfl)

/-! #### What is spared by the operations of Machine/Measure -/

theorem onMch {d c : Nat} {f : Mch → Mch} (h : s.Spares t) : s.Spares (t.onMch d c f) := by
  unfold State.onMch
  exact h.onDie (fun _ => rfl)

theorem chSource {d c : Nat} (h : s.Spares t) : s.Spares (t.chSource d c) := h.source

/-- A word of the table of channels. -/
theorem wrChannel {d c v : Nat} {f : Fld} (h : s.Spares t) (hc : c < 16)
    (hf : f.page = 4 ∧ f.stride = 0x20 ∧ (f.base = 0x114 ∨ f.base = 0x118)) : s.Spares (t.wr d f c v) := by
  obtain ⟨hp, hs, hb⟩ := hf
  refine h.wr (not_spareKeys_table (by rw [hs]) (by omega) ?_)
  unfold Fld.key
  rw [hp, hs]
  omega

theorem setLive {d c live : Nat} (h : s.Spares t) (hc : c < 16) : s.Spares (t.setLive d c live) :=
  ((h.wrChannel hc (by decide)).wrB (not_spareKeys 4 8 rfl rfl)).chSource

theorem setCond {d c n : Nat} {v : Bool} (h : s.Spares t) (hc : c < 16) : s.Spares (t.setCond d c n v) := by
  unfold State.setCond
  exact .ite ((h.setLive hc).sticky.wrChannel hc (by decide)) (h.setLive hc)

theorem setSettled {d c : Nat} {v : Bool} (h : s.Spares t) (hc : c < 16) : s.Spares (t.setSettled d c v) :=
  (h.wrChannel hc (by decide)).wrB (not_spareKeys 4 8 rfl rfl)

theorem chStop {d c : Nat} (h : s.Spares t) (hc : c < 16) : s.Spares (t.chStop d c) :=
  ((h.onMch.setSettled hc).wrChannel hc (by decide)).setLive hc

theorem stoppedClock {d c : Nat} (h : s.Spares t) (hc : c < 16) : s.Spares (t.stoppedClock d c) := by
  unfold State.stoppedClock
  exact h.when fun _ h => h.setCond hc

theorem chRestart {d c : Nat} (h : s.Spares t) (hc : c < 16) : s.Spares (t.chRestart d c) := by
  unfold State.chRestart
  exact .ite h (((((h.onMch.setSettled hc).wrChannel hc (by decide)).wrChannel hc (by decide)).setLive hc).stoppedClock hc)

theorem opMfeEn {d : Nat} {on : Bool} (h : s.Spares t) : s.Spares (opMfeEn d on t) := by
  have hc : ∀ c ∈ Machine.channels, c < 16 := fun c hc => List.mem_range.1 hc
  unfold Machine.opMfeEn
  exact .when (h.each fun _ c hm h => .ite (h.chRestart (hc c (List.mem_filter.1 hm).1)) (h.chStop (hc c (List.mem_filter.1 hm).1)))
    fun _ h => h.each fun _ c hm h => .ite (h.stoppedClock (hc c hm)) (h.when fun _ h => h.chRestart (hc c hm))

theorem opMfeReset {d : Nat} (h : s.Spares t) : s.Spares (opMfeReset d t) := by
  unfold Machine.opMfeReset
  exact .when (.each (h.onDie (fun _ => rfl)) fun _ _ _ h => h.lower)
    fun _ h => h.each fun _ c hm h => h.stoppedClock (List.mem_range.1 (hm : c ∈ Machine.channels))

/-! #### What is spared by the operations of Machine/Fabric -/

theorem opFabEn {d : Nat} {on : Bool} (h : s.Spares t) : s.Spares (opFabEn d on t) := by
  unfold Machine.opFabEn
  exact .ite (h.when fun _ h => h.raise) h.lower

theorem opFabReset {d : Nat} (h : s.Spares t) : s.Spares (opFabReset d t) := by
  unfold Machine.opFabReset
  exact h.onDie (fun _ => rfl)

/-! #### What is spared by the operations of Machine/Angle -/

theorem onDom {d i : Nat} {f : Domain → Domain} (h : s.Spares t) : s.Spares (t.onDom d i f) := by
  unfold State.onDom
  exact h.onDie (fun _ => rfl)

theorem applyDom {d i : Nat} {u' : DomUpd} (h : s.Spares t) : s.Spares (t.applyDom d i u') := h.onDom

theorem submitDom {i : Nat} {u' : DomUpd} {ts : Nat} (h : s.Spares t) : s.Spares (t.submitDom i u' ts) := by
  unfold State.submitDom
  exact .ite h.onDom (.congr h.onDom rfl rfl rfl)

theorem changeDom {i : Nat} {u' : DomUpd} {ts : Nat} (h : s.Spares t) : s.Spares (t.changeDom i u' ts) := by
  unfold State.changeDom
  exact .ite h.submitDom (.ite (.congr h rfl rfl rfl) h.applyDom)

theorem opAngReset {d : Nat} (h : s.Spares t) : s.Spares (opAngReset d t) := by
  have h1 : s.Spares (t.dropCells d fun k => decide (0xF0000 ≤ k) && decide (k < 0xF8000)) :=
    h.dropCells fun k hk => by
      simp only [Bool.and_eq_true, decide_eq_true_eq] at hk
      omega
  unfold Machine.opAngReset
  extract_lets +onlyGivenNames _ t2
  have h2 : s.Spares t2 := h1.onDie fun _ => rfl
  exact .ite h2 (h2.each fun _ _ _ h => h.changeDom)

/-! #### What is spared by the operations of Machine/Tracker -/

theorem onTrk {d c : Nat} {f : Trk → Trk} (h : s.Spares t) : s.Spares (t.onTrk d c f) := by
  unfold State.onTrk
  exact h.onDie (fun _ => rfl)

theorem opRestart {d c : Nat} (h : s.Spares t) : s.Spares (opRestart d c t) := h.onTrk

theorem opAtrEn {d : Nat} {on : Bool} (h : s.Spares t) : s.Spares (opAtrEn d on t) := by
  unfold Machine.opAtrEn
  exact h.each fun _ _ _ h => .ite h.opRestart h.onTrk.lower

theorem opAtrReset {d : Nat} (h : s.Spares t) : s.Spares (opAtrReset d t) := by
  unfold Machine.opAtrReset
  exact .each (h.onDie (fun _ => rfl)) fun _ _ _ h => h.lower

/-! #### What is spared by the operations of Machine/Operands -/

theorem onInst {d e i : Nat} {f : Inst → Inst} (h : s.Spares t) : s.Spares (t.onInst d e i f) := by
  unfold State.onInst
  exact h.onDie (fun _ => rfl)

/-! #### What is spared by the operations of Machine/Recorder -/

theorem setL {d v : Nat} (h : s.Spares t) : s.Spares (t.setL d v) := h.wr

theorem opLedgerEn {d : Nat} {on : Bool} (h : s.Spares t) : s.Spares (opLedgerEn d on t) := by
  unfold Machine.opLedgerEn
  extract_lets +onlyGivenNames t1
  have h1 : s.Spares t1 := h.wrB
  exact .ite h1 (.ite (.ite (h1.setL.onRec) h1) (.ite h1.setL h1))

theorem opRecReset {d : Nat} (h : s.Spares t) : s.Spares (opRecReset d t) := by
  unfold Machine.opRecReset
  exact h.onRec

/-! #### What is spared by the operations of Machine/Loop -/

theorem setCondition {d sl c : Nat} (h : s.Spares t) (hs : sl < 64) : s.Spares (t.setCondition d sl c) :=
  h.wr (not_spareKeys_table (by decide) (by decide) (show 0x5 * 0x1000 + 0x118 + 0x20 * sl < 0x80000 by omega))

theorem onBist {d : Nat} {f : Bist → Bist} (h : s.Spares t) : s.Spares (t.onBist d f) := by
  unfold State.onBist
  exact h.onDie (fun _ => rfl)

theorem showTest {d e i issues : Nat} {sig : Word} (h : s.Spares t) : s.Spares (t.showTest d e i issues sig) := by
  unfold State.showTest
  exact h.onInst.wrB.wr.wr.wr.wr.wrB (not_spareKeys 0xD 0x40 rfl rfl)

theorem endTest {d issues : Nat} {sig : Word} (h : s.Spares t) : s.Spares (t.endTest d issues sig) := by
  unfold State.endTest
  split
  · exact h
  · exact .ite h.showTest.onBist.sticky
      (.ite ((h.showTest.onBist.wrB (not_spareKeys 0xD 0x40 rfl rfl)).onBist.when fun _ h => h.lower)
        ((h.showTest.onBist.wrB (not_spareKeys 0xD 0x40 rfl rfl)).sticky.onBist.when fun _ h => h.raise))

theorem cutTest {d : Nat} (h : s.Spares t) : s.Spares (t.cutTest d) := by
  unfold State.cutTest
  exact .ite h h.freeW.endTest

theorem leStop {d : Nat} (h : s.Spares t) : s.Spares (t.leStop d) := by
  unfold State.leStop
  exact .each (h.onDie (fun _ => rfl)) fun _ sl hm h => h.when fun _ h => h.setCondition (List.mem_range.1 (hm : sl ∈ Machine.slots))

theorem opLeReset {d : Nat} (h : s.Spares t) : s.Spares (opLeReset d t) := by
  unfold Machine.opLeReset
  exact h.onDie (fun _ => rfl)

/-! #### What is spared by the operations of Machine/SecImage -/

theorem onSec {d : Nat} {f : Sec → Sec} (h : s.Spares t) : s.Spares (t.onSec d f) := by
  unfold State.onSec
  exact h.onDie (fun _ => rfl)

/-! #### What is spared by the operations of Machine/Device -/

theorem reportState (h : s.Spares t) : s.Spares t.reportState := h.steady (State.Steady.refl t).reportState

theorem nimgEnd {d cause : Nat} (h : s.Spares t) : s.Spares (t.nimgEnd d cause) := by
  unfold State.nimgEnd
  exact .ite h (.wrB (.wr (.onDie (h.each fun _ _ _ h => (h.wrB (not_spareKeys 0 0x40 rfl rfl)).wr.wr) (fun _ => rfl))))

theorem onSaf {ch : Nat} {f : Saf → Saf} (h : s.Spares t) : s.Spares (t.onSaf ch f) := by
  unfold State.onSaf
  exact h.onDie (fun _ => rfl)

theorem safetyStart {ch : Nat} (h : s.Spares t) : s.Spares (t.safetyStart ch) := by
  unfold State.safetyStart
  refine .onSaf (h.wr.wr.each fun v c hm h => ?_)
  have hc := List.mem_range.1 hm
  exact (h.wr (f := Fd.CONN_STAT.W) (by unfold Fld.key; dsimp only; omega)).wr (f := Fd.CONN_SEQ.W) (by unfold Fld.key; dsimp only; omega)

/-! #### What is spared by the operations of Machine/RingBlocks -/

theorem onHead {d : Nat} {f : RingHead → RingHead} (h : s.Spares t) : s.Spares (t.onHead d f) := by
  unfold State.onHead
  exact h.onDie (fun _ => rfl)

theorem onNode {f : RingNode → RingNode} (h : s.Spares t) : s.Spares (t.onNode f) := by
  unfold State.onNode
  exact h.onDie (fun _ => rfl)

theorem judgeRoutes {d : Nat} (h : s.Spares t) : s.Spares (t.judgeRoutes d) := by
  unfold State.judgeRoutes
  exact .source (h.when fun _ h => h.sticky)

theorem setLink {d : Nat} {r : Ring} {k : Nat} {up : Bool} (h : s.Spares t) : s.Spares (t.setLink d r k up) := by
  have hk : ¬spareKeys ((linkFld2 r k).key 0) := by
    unfold linkFld2
    split
    · cases r <;> decide
    · cases r
      · exact not_spareKeys 7 0x28 rfl rfl
      · exact not_spareKeys 7 0x2C rfl rfl
  unfold State.setLink
  exact .ite h (h.wrB hk).sticky.judgeRoutes

theorem queueBc {d n cls kind : Nat} {payload : List Byte} (h : s.Spares t) : s.Spares (t.queueBc d n cls kind payload) := by
  unfold State.queueBc
  exact h.when fun _ h => h.onHead

theorem closeBc {d : Nat} {b : BcBlock} (h : s.Spares t) : s.Spares (t.closeBc d b) := h.onHead

theorem discardBc {d : Nat} (h : s.Spares t) : s.Spares (t.discardBc d) := by
  unfold State.discardBc
  exact .onHead (h.each fun _ _ _ h => h.closeBc)

/-! #### What is spared by the operations of Machine/RingMsg -/

theorem nimgLeave {d ws : Nat} (h : s.Spares t) : s.Spares (t.nimgLeave d ws) := by
  unfold State.nimgLeave
  exact .ite (.wrB (.wr (h.onDie (fun _ => rfl)))) (h.onDie (fun _ => rfl))

theorem nimgFail {d ws cause : Nat} (h : s.Spares t) : s.Spares (t.nimgFail d ws cause) := by
  unfold State.nimgFail
  exact .ite h (h.wrB (not_spareKeys 0x0 0x40 rfl rfl)).wr.wr.onHead.nimgLeave

theorem nimgAnswer {d ws w : Nat} (h : s.Spares t) : s.Spares (t.nimgAnswer d ws w) := by
  unfold State.nimgAnswer
  split
  · exact h
  · exact .ite (h.onDie (fun _ => rfl)) (.ite h.wr.nimgFail
      (.ite (h.wr.wrB (not_spareKeys 0x0 0x3C rfl rfl)).nimgLeave (h.wr.onDie (fun _ => rfl))))

theorem startRemote {d : Nat} (h : s.Spares t) : s.Spares (t.startRemote d) := by
  unfold State.startRemote
  split
  · exact h
  · exact h.queueBc

theorem tellRemote {d : Nat} {r : Remote} {ok : Bool} {data : Nat} (h : s.Spares t) : s.Spares (t.tellRemote d r ok data) := by
  unfold State.tellRemote
  exact .ite (.when (h.wr.when fun _ h => h.sticky) fun _ h => h.wr) (.ite h (.ite h.nimgAnswer h.nimgFail))

theorem endRemote {d : Nat} {ok : Bool} {data : Nat} (h : s.Spares t) : s.Spares (t.endRemote d ok data) := by
  unfold State.endRemote
  split
  · exact h
  · exact h.onHead.tellRemote.startRemote

theorem nodeClose {b : BcBlock} (h : s.Spares t) : s.Spares (t.nodeClose b) := h.onNode

theorem modeChange {d old new : Nat} (h : s.Spares t) : s.Spares (t.modeChange d old new) := by
  unfold State.modeChange
  exact .when (.when (.when (.when (h.nimgEnd.when fun _ h => h.discardBc.onHead.each fun _ _ _ h => h.endRemote)
    fun _ h => h.onHead) fun _ h => h.onHead) fun _ h => h.each fun _ _ _ h => h.setLink.setLink) fun _ h => h.onHead

theorem opMode {d mode : Nat} (h : s.Spares t) : s.Spares (opMode d mode t) := by
  unfold Machine.opMode
  exact .ite h.wr h.wr.modeChange

theorem opRingReset {d : Nat} (h : s.Spares t) : s.Spares (opRingReset d t) := by
  unfold Machine.opRingReset
  exact .ite h.discardBc.onHead.opMode (.onNode (.when (h.each fun _ _ _ h => h.nodeClose) fun _ h => h.onRec))

theorem opRingEn {on : Bool} (h : s.Spares t) : s.Spares (opRingEn on t) := by
  unfold Machine.opRingEn
  exact .ite h (.ite (.ite h.onNode h.onNode.sticky.dropManifests.blockAll.reportState) h.wrB.lower.onNode.unblock.reportState)

/-! #### What is spared by the operations of Machine/Planner -/

theorem onEp {d : Nat} {f : Ep → Ep} (h : s.Spares t) : s.Spares (t.onEp d f) := by
  unfold State.onEp
  exact h.onDie (fun _ => rfl)

theorem opEpReset {d : Nat} (h : s.Spares t) : s.Spares (opEpReset d t) := h.onEp

/-! #### What is spared by the operations of Machine/Net -/

theorem onNet {d : Nat} {f : Net → Net} (h : s.Spares t) : s.Spares (t.onNet d f) := by
  unfold State.onNet
  exact h.onDie (fun _ => rfl)

theorem setPtpState {d st : Nat} (h : s.Spares t) : s.Spares (t.setPtpState d st) :=
  h.wr.wr (by split <;> decide)

theorem netDown {d : Nat} (h : s.Spares t) : s.Spares (t.netDown d) := by
  unfold State.netDown
  exact h.wrB.setPtpState.when fun _ h => h.sticky

theorem onWall {n : Nat} {f : Wall → Wall} (h : s.Spares t) : s.Spares (t.onWall n f) := by
  unfold State.onWall
  exact .congr h rfl rfl rfl

theorem opNetReset {d : Nat} (h : s.Spares t) : s.Spares (opNetReset d t) := by
  unfold Machine.opNetReset
  exact .ite h.setPtpState.onNet (h.setPtpState.onNet.each fun _ _ _ h => h.onWall)

/-! #### What is spared by the operations of Machine/SafetyFn -/

theorem lockOut {ch : Nat} {f : SafFault} (h : s.Spares t) : s.Spares (t.lockOut ch f) := by
  unfold State.lockOut
  exact .ite h h.wrB.wr.wr.sticky

theorem setBall {ch j : Nat} {b : Bool} (h : s.Spares t) : s.Spares (t.setBall ch j b) := by
  unfold State.setBall
  exact .ite h (.onSaf (.congr h rfl rfl rfl))

theorem outputsOff {ch : Nat} (h : s.Spares t) : s.Spares (t.outputsOff ch) := by
  unfold State.outputsOff
  exact .ite (.congr (h.wr.onSaf.each fun _ _ _ h => h.setBall) rfl rfl rfl) (h.wr.onSaf.each fun _ _ _ h => h.setBall)

theorem opSafStop {ch : Nat} {soft : Bool} (h : s.Spares t) : s.Spares (opSafStop ch soft t) := h.outputsOff.lockOut.onSaf

/-! #### What is spared by the operations of Machine/SelfTest -/

theorem showFree {d : Nat} (h : s.Spares t) : s.Spares (t.showFree d) := h.wr

theorem opBistReset {d : Nat} (h : s.Spares t) : s.Spares (opBistReset d t) := h.onBist

/-! #### What is spared by the operations of Machine/Thermal -/

theorem onThm {d : Nat} {f : Thm → Thm} (h : s.Spares t) : s.Spares (t.onThm d f) := by
  unfold State.onThm
  exact h.onDie (fun _ => rfl)

theorem opThmReset {d shut : Nat} (h : s.Spares t) : s.Spares (opThmReset d shut t) := h.onThm.wr.lower

/-! #### What is spared by the operations of Machine/PageCtrl -/

theorem safReset {d : Nat} (h : s.Spares t) : s.Spares (t.safReset d) := by
  unfold State.safReset
  exact .ite h h.safetyStart.outputsOff.lockOut.onSaf

theorem recReset {d : Nat} (h : s.Spares t) : s.Spares (t.recReset d) := by
  unfold State.recReset
  exact h.wr.opRecReset.wr

theorem netReset {d : Nat} (h : s.Spares t) : s.Spares (t.netReset d) := by
  unfold State.netReset
  exact .ite h.wrB.opNetReset (h.wrB.opNetReset.each fun _ _ _ h => .congr h rfl rfl rfl)

theorem blockTurn {d page : Nat} {on : Bool} (h : s.Spares t) : s.Spares (t.blockTurn d page on) := by
  unfold State.blockTurn
  split
  · exact .ite (h.onDie (fun _ => rfl)) h
  · exact h.opAtrEn
  · exact h.opMfeEn
  · exact .ite h h.leStop
  · exact .ite h.opRingEn (.ite h.modeChange h.modeChange)
  · exact .ite h h.opGuardOff
  · exact .ite h h.netDown
  · exact .ite h h.opSafStop
  · exact .ite h.opLedgerEn h
  · exact .ite h.opFabEn h
  · exact h

end State.Spares

end Sys2Proof.Machine

end

section

open Sys2Proof Sys2Proof.Machine

namespace Sys2Proof.Machine

variable {s t u : State} {d page : Nat}

/-! ### SOFT_RESET -/

/-- A page that is there has its number below 0x40. -/
theorem lt_of_pageThere (h : pageThere page = true) : page < 0x40 := by
  simp only [pageThere, Bool.or_eq_true, Bool.and_eq_true, decide_eq_true_eq] at h
  omega

/-- What the reset of a block keeps: PAGE_SCRATCH of every page and, but for SEC, the loop memories. -/
abbrev keepKeys (page key : Nat) : Prop :=
  key < 0x40000 ∧ key % 0x1000 = 0x1C ∨ page ≠ 14 ∧ 0x80000 ≤ key ∧ key < 0xF0000

/-- From s to t the misuses of the host and the registers that the reset of a block keeps stay. -/
structure State.Resets (page : Nat) (s t : State) : Prop where
  misused : t.misused = s.misused
  length : t.dies.length = s.dies.length
  cell : ∀ e key, keepKeys page key → t.cell e key = s.cell e key

/-- The straps reach a register only through its key. -/
theorem State.cell_applyStraps_not {e key : Nat} {p : Nat → Bool} (hp : p key = false ∨ key ∉ strapKeys) :
    (s.applyStraps d p).cell e key = s.cell e key := by
  refine State.applyStraps_keeps (P := fun v => v.cell e key = s.cell e key) rfl fun v k w hk hpk hv =>
    (State.cell_putCell_ne _ _ _ _ _ _ (.inr ?_)).trans hv
  rintro rfl
  exact hp.elim (fun hp => by rw [hp] at hpk; cases hpk) fun hn => hn hk

/-- The registers of a page that its reset returns. -/
def pageBack (head lock : Bool) (page k : Nat) : Bool := k / 0x1000 == page && !softKeeps head lock page (k % 0x1000)

theorem State.dropPage_eq (s : State) (d page : Nat) : s.dropPage d page =
    (s.dropCells d (pageBack s.isHead (s.locked d page) page)).applyStraps d (pageBack s.isHead (s.locked d page) page) := rfl

theorem State.cell_dropPage_not {e key : Nat} (hp : pageBack s.isHead (s.locked d page) page key = false) :
    (s.dropPage d page).cell e key = s.cell e key := by
  rw [State.dropPage_eq, State.cell_applyStraps_not (.inl hp), State.cell_dropCells_not hp]

theorem pageBack_scratch {head lock : Bool} {key : Nat} (hk : key % 0x1000 = 0x1C) : pageBack head lock page key = false := by
  unfold pageBack softKeeps
  simp [hk]

theorem pageBack_other {head lock : Bool} {key : Nat} (hk : key / 0x1000 ≠ page) : pageBack head lock page key = false := by
  unfold pageBack
  simp [hk]

theorem State.dropPage_package (s : State) (d page : Nat) :
    s.dropPage d page = { s with dies := (s.dropPage d page).dies } ∧ (s.dropPage d page).dies.length = s.dies.length := by
  rw [State.dropPage_eq]
  generalize hp : pageBack s.isHead (s.locked d page) page = p
  have h1 : s.dropCells d p = { s with dies := (s.dropCells d p).dies } ∧ (s.dropCells d p).dies.length = s.dies.length :=
    ⟨rfl, State.dropCells_length ..⟩
  exact State.applyStraps_keeps (P := fun v : State => v = { s with dies := v.dies } ∧ v.dies.length = s.dies.length) h1
    fun v _ _ _ _ hv => ⟨State.dies_trans hv.1 rfl, (State.putCell_length ..).trans hv.2⟩

namespace State.Resets

theorem refl (page : Nat) (s : State) : State.Resets page s s := ⟨rfl, rfl, fun _ _ _ => rfl⟩

theorem trans (h : State.Resets page s t) (k : State.Resets page t u) : State.Resets page s u :=
  ⟨k.misused.trans h.misused, k.length.trans h.length, fun e key hk => (k.cell e key hk).trans (h.cell e key hk)⟩

theorem spares (h : State.Resets page s t) (k : t.Spares u) : State.Resets page s u :=
  h.trans ⟨k.misused, k.length, fun e key hk => k.cell e key (by unfold keepKeys at hk; unfold spareKeys; omega)⟩

theorem dropPage {p : Nat} (h : State.Resets page s t) (hp : p < 0x40) : State.Resets page s (t.dropPage d p) := by
  obtain ⟨hf, hl⟩ := t.dropPage_package d p
  refine h.trans ⟨by rw [hf], hl, fun e key hk => State.cell_dropPage_not ?_⟩
  by_cases hs : key % 0x1000 = 0x1C
  · exact pageBack_scratch hs
  · exact pageBack_other (by unfold keepKeys at hk; omega)

/-- The words a load of SEC writes are those of the loop memories and of DRAM. -/
theorem imgZero (h : State.Resets 14 s t) : State.Resets 14 s (t.imgZero d) := by
  have hw : ∀ v type ws i k dead, imgDest type ws i = .cell k dead → State.Resets 14 s v → State.Resets 14 s (v.putCell d k dead) :=
    fun v type ws i k dead hi hv => by
      refine hv.trans ⟨rfl, State.putCell_length .., fun e key hk => State.cell_putCell_ne _ _ _ _ _ _ (.inr ?_)⟩
      have hge : 0x40000 ≤ k := by
        unfold imgDest at hi
        dsimp only at hi
        unfold progKey coefKey stateKey at hi
        split at hi
        · split at hi
          · split at hi
            · injection hi with h1 h2
              omega
            · cases hi
          · split at hi
            · injection hi with h1 h2
              omega
            · split at hi
              · injection hi with h1 h2
                omega
              · cases hi
        · cases hi
        · cases hi
        · cases hi
      unfold keepKeys at hk
      omega
  unfold State.imgZero
  refine State.each_keeps (P := State.Resets 14 s) h fun v i hv => ?_
  split
  · next hi => exact hw _ _ _ _ _ _ hi hv
  · unfold State.when
    split
    · exact hv.trans ⟨rfl, State.onDie_length .., fun _ _ _ => State.cell_onDie _ _ _ _ _ fun _ => rfl⟩
    · exact hv
  · exact hv

theorem imgEnd {result : Nat} (h : State.Resets 14 s t) : State.Resets 14 s (t.imgEnd d result) := by
  have h1 : State.Resets 14 s (t.when (result != 0) (·.imgZero d)) := by
    unfold State.when
    split
    · exact h.imgZero
    · exact h
  refine h1.spares ?_
  unfold State.imgEnd
  generalize t.when (result != 0) (·.imgZero d) = v
  refine .when (.onSec (.sticky (.wr (.wr (.refl v))) ?_)) fun _ h => h.onDie fun _ => rfl
  split <;> decide

theorem opSecReset (h : State.Resets 14 s t) : State.Resets 14 s (opSecReset d t) := by
  unfold Machine.opSecReset
  refine State.Resets.spares (t := t.when (t.imgBusy d) fun s => s.imgEnd d 8) ?_ (.onSec (.refl _))
  unfold State.when
  split
  · exact h.imgEnd
  · exact h

theorem softReset (hp : page < 0x40) : State.Resets page s (s.softReset d page) := by
  have h := State.Resets.refl page s
  have hd := h.dropPage (d := d) hp
  unfold State.softReset
  split
  · exact (h.spares (State.Spares.refl s).nimgEnd).dropPage hp
  · exact hd.spares (State.Spares.refl _).opAngReset
  · exact hd.spares (State.Spares.refl _).opAtrReset
  · exact hd.spares (State.Spares.refl _).opMfeReset
  · exact hd.spares (State.Spares.refl _).opLeReset
  · exact hd.spares (State.Spares.refl _).opEpReset
  · exact ((h.spares (State.Spares.refl s).opRingReset).dropPage hp).spares ((State.Spares.refl _).when fun _ hv => hv.wr)
  · split
    · exact hd
    · exact hd.spares (State.Spares.refl _).opGuardReset
  · exact hd.spares (State.Spares.refl _).netReset
  · exact hd.spares (State.Spares.refl _).safReset
  · exact hd.spares (State.Spares.refl _).opThmReset
  · exact ((h.spares (State.Spares.refl s).cutTest).dropPage hp).spares (State.Spares.refl _).opBistReset.showFree
  · exact h.opSecReset.dropPage hp
  · exact hd.spares (State.Spares.refl _).recReset
  · exact hd.spares (State.Spares.refl _).opFabReset
  · exact hd

end State.Resets

end Sys2Proof.Machine

end

section

open Sys2Proof Sys2Proof.Machine

namespace Sys2Proof.Machine

variable {s t u : State} {d page : Nat}

/-! ### The reset of a block whose page alone shows it -/

/-- The registers of a page after its reset: the reset value, or the value kept. -/
theorem State.dropPage_spec (hd : d < s.dies.length) (hp : page ≠ 1 ∧ page ≠ 7) :
    s.OnlyKeys (s.dropPage d page) d (pageKeys page) ∧
    ∀ off, off < 0x1000 → (s.dropPage d page).cell d (hdrKey page off) =
      if softKeeps s.isHead (s.locked d page) page off then s.cell d (hdrKey page off) else s.dflt d (hdrKey page off) := by
  have hstrap : ∀ k ∈ strapKeys, k / 0x1000 ≠ page := fun k hk => by
    simp only [strapKeys, List.mem_cons, List.not_mem_nil, or_false] at hk
    omega
  have honly : s.OnlyKeys (s.dropCells d (pageBack s.isHead (s.locked d page) page)) d (pageKeys page) := by
    refine ⟨rfl, State.dropCells_length .., fun e he => State.die_onDie_ne _ _ _ _ he, fun k hk => State.cell_dropCells_not ?_,
      by rw [State.dropCells_recorder']⟩
    exact pageBack_other hk
  constructor
  · rw [State.dropPage_eq]
    exact State.applyStraps_keeps (P := fun v => s.OnlyKeys v d (pageKeys page)) honly fun v k w hk hb _ => by
      rw [pageBack_other (hstrap k hk)] at hb
      cases hb
  · intro off ho
    have hdiv : hdrKey page off / 0x1000 = page := by unfold hdrKey; omega
    have hmod : hdrKey page off % 0x1000 = off := by unfold hdrKey; omega
    rw [State.dropPage_eq, State.cell_applyStraps_not (.inr fun hk => hstrap _ hk hdiv), State.cell_dropCells _ _ _ _ _ hd]
    unfold pageBack
    rw [hdiv, hmod]
    cases softKeeps s.isHead (s.locked d page) page off <;> simp

/-- A page without a block of its own has nothing but its registers to reset. -/
theorem State.softReset_eq_dropPage (hp : page = 11 ∨ 0x20 ≤ page) : s.softReset d page = s.dropPage d page := by
  rcases hp with rfl | hp
  · rfl
  · unfold State.softReset
    split
    iterate 15 exact absurd hp (by decide)
    rfl

/-- The reset of a page that only its own registers show. -/
theorem State.softReset_spec (hd : d < s.dies.length) (hp : page = 11 ∨ page = 16 ∨ 0x20 ≤ page) :
    s.OnlyKeys (s.softReset d page) d (pageKeys page) ∧
    ∀ off, off < 0x1000 → (s.softReset d page).cell d (hdrKey page off) =
      if softKeeps s.isHead (s.locked d page) page off then s.cell d (hdrKey page off) else s.dflt d (hdrKey page off) := by
  obtain ⟨hk, hc⟩ := State.dropPage_spec (page := page) hd (by omega)
  by_cases h16 : page = 16
  · subst h16
    refine ⟨hk.onDie _ (fun _ => rfl) fun _ => rfl, fun off ho => ?_⟩
    rw [← hc off ho]
    exact State.cell_onDie (s.dropPage d 16) d d _ (fun x => { x with fab := Fab.zero }) fun _ => rfl
  · rw [State.softReset_eq_dropPage (by omega)]
    exact ⟨hk, hc⟩

end Sys2Proof.Machine

end

section

open Sys2Proof Sys2Proof.Machine

namespace Sys2Proof.Machine

variable {s t u : State} {d page : Nat} {value : Word}

/-! ### A write of PAGE_CTRL -/

/-- LOCK and BLOCK_EN are stored; a locked page, and a BLOCK_EN that is fixed, keep theirs. -/
def State.storeCtrl (s : State) (d page : Nat) (lock : Bool) (value : Word) : State :=
  s.when (!lock) fun s =>
    let w := setBits (s.cell d (hdrKey page 4)) 2 2 (bnat (bitOf value.toNat 2))
    s.putCell d (hdrKey page 4) (if s.blockFixed page then w else setBits w 0 0 (bnat (bitOf value.toNat 0)))

/-- The block stops or runs again where its BLOCK_EN has changed. -/
def State.follow (s : State) (d page : Nat) (was : Bool) : State :=
  if was = s.blockEn d page then s else s.blockTurn d page (s.blockEn d page)

/-- SOFT_RESET, where it is written. -/
def State.resetBit (s : State) (d page : Nat) (value : Word) : State :=
  s.when (bitOf value.toNat 1) fun s => (s.softReset d page).endMisuse d page

theorem opPageCtrl_eq (d page : Nat) (value : Word) (s : State) : opPageCtrl d page value s =
    ((s.resetBit d page value).storeCtrl d page (s.locked d page) value).follow d page (s.blockEn d page) := rfl

theorem State.storeCtrl_locked : s.storeCtrl d page true value = s := rfl

theorem State.storeCtrl_only (s : State) (d page : Nat) (lock : Bool) (value : Word) :
    s.OnlyKeys (s.storeCtrl d page lock value) d (· = hdrKey page 4) := by
  have h := State.OnlyKeys.refl s d (· = hdrKey page 4)
  exact h.when _ _ (h.putCell _ _ rfl)

/-- LOCK and BLOCK_EN after a write to a page that is not locked. -/
theorem State.storeCtrl_spec (hd : d < s.dies.length) :
    (s.storeCtrl d page false value).locked d page = bitOf value.toNat 2 ∧
    (s.storeCtrl d page false value).blockEn d page = if s.blockFixed page then s.blockEn d page else bitOf value.toNat 0 := by
  have hbit : ∀ b : Bool, bitOf (bnat b) 0 = b := fun b => by cases b <;> rfl
  have hc : ∀ w, (s.putCell d (hdrKey page 4) w).cell d (hdrKey page 4) = w := fun w => State.cell_putCell_same _ _ _ _ hd
  unfold State.storeCtrl State.when State.locked State.blockEn
  rw [if_pos (by rfl)]
  dsimp only
  rw [hc]
  generalize s.cell d (hdrKey page 4) = w
  split
  · rw [bitOf_setBits _ _ _ _ _ (by decide) (by decide), bitOf_setBits _ _ _ _ _ (by decide) (by decide)]
    simp [hbit]
  · rw [bitOf_setBits _ _ _ _ _ (by decide) (by decide), bitOf_setBits _ _ _ _ _ (by decide) (by decide),
      bitOf_setBits _ _ _ _ _ (by decide) (by decide)]
    simp [hbit]

theorem State.follow_same {was : Bool} (h : s.blockEn d page = was) : s.follow d page was = s := by
  unfold State.follow
  rw [if_pos h.symm]

theorem State.follow_spares (s : State) (d page : Nat) (was : Bool) : s.Spares (s.follow d page was) := by
  unfold State.follow
  exact .ite (.refl s) (State.Spares.refl s).blockTurn

/-- Blocks that stop and run again without a register of theirs showing it. -/
theorem State.blockTurn_only {on : Bool} (hp : page ∈ [2, 6, 11, 13, 16] ∨ 0x20 ≤ page) (P : Nat → Prop) :
    s.OnlyKeys (s.blockTurn d page on) d P := by
  have h := State.OnlyKeys.refl s d P
  rcases hp with hp | hp
  · simp only [List.mem_cons, List.not_mem_nil, or_false] at hp
    rcases hp with rfl | rfl | rfl | rfl | rfl
    · cases on
      · exact h
      · exact h.onDie (fun x => { x with ang := { x.ang with reexamine := true } }) (fun _ => rfl) fun _ => rfl
    · exact h
    · exact h
    · exact h
    · show s.OnlyKeys (if s.isHead then opFabEn d on s else s) d P
      split
      · cases on
        · exact h.lower _
        · exact h.when _ (·.raise d 0x009) (h.raise _)
      · exact h
  · unfold State.blockTurn
    split
    iterate 10 exact absurd hp (by decide)
    exact h

theorem State.follow_only {was : Bool} (hp : page ∈ [2, 6, 11, 13, 16] ∨ 0x20 ≤ page) (P : Nat → Prop) :
    s.OnlyKeys (s.follow d page was) d P := by
  unfold State.follow
  split
  · exact .refl ..
  · exact State.blockTurn_only hp P

/-- PAGE_CTRL reads as stored, whatever its block does then. -/
theorem State.ctrl_follow (hp : page < 0x40) (was : Bool) :
    (s.follow d page was).locked d page = s.locked d page ∧ (s.follow d page was).blockEn d page = s.blockEn d page := by
  have hc : (s.follow d page was).cell d (hdrKey page 4) = s.cell d (hdrKey page 4) :=
    (s.follow_spares d page was).cell d _ (.inl (by unfold hdrKey; omega))
  unfold State.locked State.blockEn
  rw [hc]
  exact ⟨rfl, rfl⟩

/-! ### PAGE_LOCK and BLOCK_EN -/

theorem exec_pageLock (hs : s.sane = true) (ha : s.alive d = true) (hp : pageThere page = true) :
    exec (.pageLock d page) s = .next (opPageCtrl d page (BitVec.ofNat 32 (4 + bnat (s.blockEn d page))) s) := by
  show execPageLock d page s = _
  unfold execPageLock State.pageAlive
  rw [State.guarded_true _ _ _ hs (by rw [ha, hp]; rfl)]

theorem exec_blockEn {on : Bool} (hs : s.sane = true) (ha : s.alive d = true) (hp : pageThere page = true) :
    exec (.blockEn d page on) s = .next (opPageCtrl d page (BitVec.ofNat 32 (bnat on + 4 * bnat (s.locked d page))) s) := by
  show execBlockEn d page on s = _
  unfold execBlockEn State.pageAlive
  rw [State.guarded_true _ _ _ hs (by rw [ha, hp]; rfl)]

/-- A write that names no reset. -/
theorem State.resetBit_off (h : bitOf value.toNat 1 = false) : s.resetBit d page value = s := by
  unfold State.resetBit State.when
  rw [h]
  rfl

/-- The bits of a value written by PAGE_LOCK or BLOCK_EN. -/
theorem bits_ctrl (en lock : Bool) :
    bitOf (BitVec.ofNat 32 (bnat en + 4 * bnat lock)).toNat 0 = en ∧ bitOf (BitVec.ofNat 32 (bnat en + 4 * bnat lock)).toNat 1 = false ∧
    bitOf (BitVec.ofNat 32 (bnat en + 4 * bnat lock)).toNat 2 = lock := by
  cases en <;> cases lock <;> decide

theorem pageLock_value (en : Bool) : BitVec.ofNat 32 (4 + bnat en) = BitVec.ofNat 32 (bnat en + 4 * bnat true) := by
  cases en <;> rfl

/-- A locked page takes neither. -/
theorem opPageCtrl_locked {en lock : Bool} (hl : s.locked d page = true) :
    opPageCtrl d page (BitVec.ofNat 32 (bnat en + 4 * bnat lock)) s = s := by
  rw [opPageCtrl_eq, State.resetBit_off (bits_ctrl en lock).2.1, hl, State.storeCtrl_locked, State.follow_same rfl]

theorem locked_page_ignores {on : Bool} (hs : s.sane = true) (ha : s.alive d = true) (hp : pageThere page = true)
    (hl : s.locked d page = true) : exec (.pageLock d page) s = .next s ∧ exec (.blockEn d page on) s = .next s := by
  constructor
  · rw [exec_pageLock hs ha hp, pageLock_value, opPageCtrl_locked hl]
  · rw [exec_blockEn hs ha hp, opPageCtrl_locked hl]

/-- A write of LOCK and BLOCK_EN to a page that is not locked. -/
theorem opPageCtrl_unlocked {en lock : Bool} (hd : d < s.dies.length) (hl : s.locked d page = false) :
    let v := s.storeCtrl d page false (BitVec.ofNat 32 (bnat en + 4 * bnat lock))
    opPageCtrl d page (BitVec.ofNat 32 (bnat en + 4 * bnat lock)) s = v.follow d page (s.blockEn d page) ∧
    v.locked d page = lock ∧ v.blockEn d page = (if s.blockFixed page then s.blockEn d page else en) ∧
    s.OnlyKeys v d (· = hdrKey page 4) := by
  obtain ⟨h0, h1, h2⟩ := bits_ctrl en lock
  obtain ⟨hlock, hen⟩ := State.storeCtrl_spec (page := page) (value := BitVec.ofNat 32 (bnat en + 4 * bnat lock)) hd
  rw [h2] at hlock
  rw [h0] at hen
  refine ⟨?_, hlock, hen, State.storeCtrl_only ..⟩
  rw [opPageCtrl_eq, State.resetBit_off h1, hl]

theorem pageLock_spec (hsh : s.shaped = true) (hs : s.sane = true) (ha : s.alive d = true) (hp : pageThere page = true)
    (hl : s.locked d page = false) : Completes (.pageLock d page) s fun t =>
      t.locked d page = true ∧ t.blockEn d page = s.blockEn d page ∧ s.OnlyKeys t d (· = hdrKey page 4) := by
  obtain ⟨he, hlock, hen, honly⟩ := opPageCtrl_unlocked (en := s.blockEn d page) (lock := true) (State.lt_length hsh ha) hl
  rw [ite_self] at hen
  refine ⟨_, exec_pageLock hs ha hp, ?_⟩
  rw [pageLock_value, he, State.follow_same hen]
  exact ⟨hlock, hen, honly⟩

theorem blockEn_spec {on : Bool} (hsh : s.shaped = true) (hs : s.sane = true) (ha : s.alive d = true) (hp : pageThere page = true)
    (hl : s.locked d page = false) :
    (s.blockFixed page = false → Completes (.blockEn d page on) s fun t => t.blockEn d page = on ∧ t.locked d page = false ∧
      (page ∈ [2, 6, 13, 16] ∨ 0x20 ≤ page → s.OnlyKeys t d (· = hdrKey page 4))) ∧
    (s.blockFixed page = true → Completes (.blockEn d page on) s fun t => t.blockEn d page = s.blockEn d page ∧
      s.OnlyKeys t d (· = hdrKey page 4)) := by
  obtain ⟨he, hlock, hen, honly⟩ := opPageCtrl_unlocked (en := on) (lock := false) (State.lt_length hsh ha) hl
  have hx := exec_blockEn (on := on) hs ha hp
  rw [hl, he] at hx
  constructor
  · intro hf
    rw [hf] at hen
    obtain ⟨hl2, hen2⟩ := State.ctrl_follow (s := s.storeCtrl d page false (BitVec.ofNat 32 (bnat on + 4 * bnat false))) (d := d)
      (lt_of_pageThere hp) (s.blockEn d page)
    refine ⟨_, hx, hen2.trans hen, hl2.trans hlock, fun hq => honly.trans (State.follow_only ?_ _)⟩
    exact hq.imp_left fun h => by
      simp only [List.mem_cons, List.not_mem_nil, or_false] at h ⊢
      omega
  · intro hf
    rw [hf, if_pos rfl] at hen
    rw [State.follow_same hen] at hx
    exact ⟨_, hx, hen, honly⟩

/-! ### SOFT_RESET as a command -/

theorem exec_softReset (hs : s.sane = true ∨ ∃ rule, (rule, d, page) ∈ s.misused) (ha : s.alive d = true)
    (hp : pageThere page = true) (hb : bitOf value.toNat 1 = true) :
    exec (.softReset d page value) s = .next (opPageCtrl d page value s) := by
  show execSoftReset d page value s = _
  unfold execSoftReset
  rcases hs with hs | ⟨rule, hm⟩
  · split
    · rfl
    · unfold State.pageAlive
      rw [State.guarded_true _ _ _ hs (by rw [ha, hp, hb]; rfl)]
  · have hmend : s.mends d page value = true := by
      unfold State.mends
      rw [ha, hb, Bool.true_and, Bool.true_and, List.any_eq_true]
      exact ⟨_, hm, by simp⟩
    rw [if_pos hmend]

theorem State.resetBit_on (h : bitOf value.toNat 1 = true) : s.resetBit d page value = (s.softReset d page).endMisuse d page := by
  unfold State.resetBit State.when
  rw [h]
  rfl

/-- After the reset the misuses of the block alone have ended, and what the reset keeps is kept. -/
theorem opPageCtrl_reset (hp : page < 0x40) (hb : bitOf value.toNat 1 = true) :
    (opPageCtrl d page value s).misused = s.misused.filter (fun m => !(m.2.1 == d && m.2.2 == page)) ∧
    ∀ e key, keepKeys page key → (opPageCtrl d page value s).cell e key = s.cell e key := by
  have hr := State.Resets.softReset (s := s) (d := d) hp
  have hk := ((s.softReset d page).endMisuse d page).storeCtrl_only d page (s.locked d page) value
  have hf := (((s.softReset d page).endMisuse d page).storeCtrl d page (s.locked d page) value).follow_spares d page (s.blockEn d page)
  rw [opPageCtrl_eq, State.resetBit_on hb]
  refine ⟨?_, fun e key hkey => ?_⟩
  · rw [hf.misused, hk.1]
    show (s.softReset d page).misused.filter _ = _
    rw [hr.misused]
  · have hs : spareKeys key := by unfold keepKeys at hkey; unfold spareKeys; omega
    rw [hf.cell e key hs]
    refine Eq.trans ?_ (hr.cell e key hkey)
    by_cases he : e = d
    · subst he
      exact hk.2.2.2.1 key (by unfold keepKeys at hkey; unfold hdrKey; omega)
    · unfold State.cell State.dflt
      rw [hk.2.2.1 e he, hk.1]
      rfl

/-- On a page that only its own registers show: what the reset and the write of PAGE_CTRL after it make of them. -/
theorem opPageCtrl_page (hd : d < s.dies.length) (hs : s.sane = true) (hb : bitOf value.toNat 1 = true)
    (hp : page = 11 ∨ page = 16 ∨ 0x20 ≤ page) :
    (∀ off, off < 0x1000 → off ≠ 4 → (opPageCtrl d page value s).cell d (hdrKey page off) =
      if softKeeps s.isHead (s.locked d page) page off then s.cell d (hdrKey page off) else s.dflt d (hdrKey page off)) ∧
    s.OnlyKeys (opPageCtrl d page value s) d (pageKeys page) := by
  obtain ⟨honly, hcell⟩ := State.softReset_spec hd hp
  have hmis : s.misused = [] := by simpa [State.sane] using hs
  have hend : (s.softReset d page).endMisuse d page = s.softReset d page := by
    have hm : (s.softReset d page).misused = [] := by rw [honly.1]; exact hmis
    unfold State.endMisuse
    rw [hm, List.filter_nil, ← hm]
  rw [opPageCtrl_eq, State.resetBit_on hb, hend]
  have hk := (s.softReset d page).storeCtrl_only d page (s.locked d page) value
  have hf := State.follow_only (s := (s.softReset d page).storeCtrl d page (s.locked d page) value) (d := d) (page := page)
    (was := s.blockEn d page) (by simp only [List.mem_cons, List.not_mem_nil, or_false]; omega) (fun k => k = hdrKey page 4)
  have hkf := hk.trans hf
  refine ⟨fun off ho h4 => ?_, honly.trans (hkf.mono fun k hk => ?_)⟩
  · rw [hkf.2.2.2.1 _ (by unfold hdrKey; omega), hcell off ho]
  · rw [hk]
    unfold pageKeys hdrKey
    omega

theorem softReset_spec (hsh : s.shaped = true) (hs : s.sane = true) (ha : s.alive d = true) (hp : pageThere page = true)
    (hb : bitOf value.toNat 1 = true) : Completes (.softReset d page value) s fun t =>
      t.cell d (hdrKey page 0x1C) = s.cell d (hdrKey page 0x1C) ∧
      (page ≠ 14 → ∀ e key, 0x80000 ≤ key → key < 0xF0000 → t.cell e key = s.cell e key) ∧
      (page = 11 ∨ page = 16 ∨ 0x20 ≤ page →
        (∀ off, off < 0x1000 → off ≠ 4 → t.cell d (hdrKey page off) =
          if softKeeps s.isHead (s.locked d page) page off then s.cell d (hdrKey page off) else s.dflt d (hdrKey page off)) ∧
        s.OnlyKeys t d (pageKeys page)) := by
  have hlt := lt_of_pageThere hp
  obtain ⟨-, hcell⟩ := opPageCtrl_reset (s := s) (d := d) hlt hb
  exact ⟨_, exec_softReset (.inl hs) ha hp hb, hcell d _ (.inl (by unfold hdrKey; omega)),
    fun h14 e key hlo hhi => hcell e key (.inr ⟨h14, hlo, hhi⟩), opPageCtrl_page (State.lt_length hsh ha) hs hb⟩

theorem softReset_mends (ha : s.alive d = true) (hp : pageThere page = true) (hb : bitOf value.toNat 1 = true)
    (hm : ∃ rule, (rule, d, page) ∈ s.misused) : Completes (.softReset d page value) s fun t =>
      ∀ m, m ∈ t.misused ↔ m ∈ s.misused ∧ ¬(m.2.1 = d ∧ m.2.2 = page) := by
  refine ⟨_, exec_softReset (.inr hm) ha hp hb, fun m => ?_⟩
  rw [(opPageCtrl_reset (lt_of_pageThere hp) hb).1, List.mem_filter]
  simp [Decidable.imp_iff_not_or]

/-! ### STICKY_CLEAR -/

/-- A sticky bit that was not set is set and counted. -/
theorem State.stick_unset {b : Nat} (hd : d < s.dies.length) (hb : b < 32) (h : s.stuckAt d page b = false) :
    (∀ k, (s.stick d page b).stuckAt d page k = (decide (k = b) || s.stuckAt d page k)) ∧
    ((s.stick d page b).cell d (hdrKey page 0x10)).toNat = ((s.cell d (hdrKey page 0x10)).toNat + 1) % 65536 := by
  have hne : hdrKey page 0xC ≠ hdrKey page 0x10 := by unfold hdrKey; omega
  have hcell : ∀ (v : State) (n : Nat) (j : Nat), ({ v with sumPend := n } : State).cell d j = v.cell d j := fun _ _ _ => rfl
  unfold State.stuckAt at h ⊢
  unfold State.stick
  dsimp only
  rw [h, if_neg (by simp)]
  constructor
  · intro k
    rw [hcell, State.cell_putCell_ne _ _ _ _ _ _ (.inr hne), State.cell_putCell_same _ _ _ _ hd,
      bitOf_setBits _ _ _ _ _ hb (le_refl b)]
    by_cases hk : k = b
    · subst hk
      simp [show bitOf 1 0 = true from rfl]
    · have : ¬(b ≤ k ∧ k ≤ b) := by omega
      simp [hk, this]
  · rw [hcell, State.cell_putCell_same _ _ _ _ (by rw [State.putCell_length]; exact hd), BitVec.toNat_ofNat]
    omega

/-- Sticky bits that were not set are set and counted, one after another. -/
theorem State.each_stick {l : List Nat} (hd : d < s.dies.length) (hn : l.Nodup) (hl : ∀ b ∈ l, b < 32 ∧ s.stuckAt d page b = false) :
    let t := s.each l fun s b => s.stick d page b
    (∀ k, t.stuckAt d page k = (decide (k ∈ l) || s.stuckAt d page k)) ∧
    (l ≠ [] → (t.cell d (hdrKey page 0x10)).toNat = ((s.cell d (hdrKey page 0x10)).toNat + l.length) % 65536) := by
  induction l generalizing s with
  | nil => exact ⟨fun k => by simp [State.each], fun h => absurd rfl h⟩
  | cons b l ih =>
    obtain ⟨hb, hnl⟩ := List.nodup_cons.1 hn
    obtain ⟨h32, hoff⟩ := hl b List.mem_cons_self
    obtain ⟨hset, hcount⟩ := State.stick_unset hd h32 hoff
    have hv : d < (s.stick d page b).dies.length := by rwa [State.stick_length]
    obtain ⟨ihset, ihcount⟩ := ih hv hnl fun k hk => by
      obtain ⟨hk32, hkoff⟩ := hl k (List.mem_cons_of_mem _ hk)
      refine ⟨hk32, ?_⟩
      rw [hset, hkoff, Bool.or_false, decide_eq_false_iff_not]
      rintro rfl
      exact hb hk
    refine ⟨fun k => (ihset k).trans ?_, fun _ => ?_⟩
    · rw [hset]
      by_cases hk : k = b <;> simp [hk]
    · show (((s.stick d page b).each l fun s b => s.stick d page b).cell d (hdrKey page 0x10)).toNat = _
      by_cases hnil : l = []
      · subst hnil
        exact hcount
      · rw [ihcount hnil, hcount, List.length_cons]
        omega

/-- The bits written 1 that stand again at once. -/
def State.standing (s : State) (d page : Nat) (mask : Word) : List Nat :=
  (List.range 32).filter fun b => s.stuckAt d page b && bitOf mask.toNat b && s.causeStands d page b

/-- The bits written 1 cleared, and those whose causes stand set again. -/
def State.unstick (s : State) (d page : Nat) (mask : Word) : State :=
  (s.putCell d (hdrKey page 0xC) (s.cell d (hdrKey page 0xC) &&& ~~~mask)).each (s.standing d page mask) fun s b => s.stick d page b

/-- The causes of the channels named cleared. -/
def State.clearCauses (s : State) (d : Nat) (mask : Word) : State :=
  s.each ((List.range 16).filter fun c => bitOf mask.toNat c) fun s c => s.wr d Fd.CH_STAT.CAUSE c 0

theorem opStickyClear_eq (d page : Nat) (mask : Word) (s : State) :
    opStickyClear d page mask s = (s.unstick d page mask).when (page == 4) fun s => s.clearCauses d mask := rfl

theorem exec_stickyClear {mask : Word} (hs : s.sane = true) (ha : s.alive d = true) (hp : pageThere page = true) :
    exec (.stickyClear d page mask) s = .next (opStickyClear d page mask s) :=
  State.guarded_true _ _ _ hs (by unfold State.pageAlive; rw [ha, hp]; rfl)

/-- The bits left after those written 1 are cleared. -/
theorem bitOf_clear (w mask : Word) {b : Nat} (hb : b < 32) : bitOf (w &&& ~~~mask).toNat b = (bitOf w.toNat b && !bitOf mask.toNat b) := by
  rw [bitOf_eq, bitOf_eq, bitOf_eq, BitVec.testBit_toNat, BitVec.testBit_toNat, BitVec.testBit_toNat, BitVec.getLsbD_and,
    BitVec.getLsbD_not]
  simp [hb]

theorem State.unstick_spec {mask : Word} (hd : d < s.dies.length) :
    (∀ b, b < 32 → (s.unstick d page mask).stuckAt d page b =
      (s.stuckAt d page b && (!bitOf mask.toNat b || s.causeStands d page b))) ∧
    (s.standing d page mask ≠ [] → ((s.unstick d page mask).cell d (hdrKey page 0x10)).toNat =
      ((s.cell d (hdrKey page 0x10)).toNat + (s.standing d page mask).length) % 65536) ∧
    s.OnlyKeys (s.unstick d page mask) d fun key =>
      key = hdrKey page 0xC ∨ (s.standing d page mask ≠ [] ∧ key = hdrKey page 0x10) := by
  have hmem : ∀ b, b ∈ s.standing d page mask ↔
      b < 32 ∧ (s.stuckAt d page b = true ∧ bitOf mask.toNat b = true) ∧ s.causeStands d page b = true := fun b => by
    unfold State.standing
    simp
  have hclear : ∀ b, b < 32 → (s.putCell d (hdrKey page 0xC) (s.cell d (hdrKey page 0xC) &&& ~~~mask)).stuckAt d page b =
      (s.stuckAt d page b && !bitOf mask.toNat b) := fun b hb => by
    unfold State.stuckAt
    rw [State.cell_putCell_same _ _ _ _ hd, bitOf_clear _ _ hb]
  obtain ⟨hset, hcount⟩ := State.each_stick (s := s.putCell d (hdrKey page 0xC) (s.cell d (hdrKey page 0xC) &&& ~~~mask)) (d := d)
    (page := page) (l := s.standing d page mask) (by rwa [State.putCell_length]) (List.nodup_range.filter _) fun b hb => by
      obtain ⟨h32, ⟨-, hm⟩, -⟩ := (hmem b).1 hb
      exact ⟨h32, by rw [hclear b h32, hm]; simp⟩
  refine ⟨fun b hb => ?_, fun hne => ?_, ?_⟩
  · refine (hset b).trans ?_
    rw [hclear b hb, Bool.eq_iff_iff]
    simp only [Bool.or_eq_true, Bool.and_eq_true, decide_eq_true_eq, Bool.not_eq_true', hmem b]
    cases bitOf mask.toNat b <;> simp [hb]
  · refine (hcount hne).trans ?_
    rw [State.cell_putCell_ne _ _ _ _ _ _ (.inr (by unfold hdrKey; omega))]
  · exact ((State.OnlyKeys.refl s d _).putCell _ _ (.inl rfl)).each _ _ fun v b hb hv =>
      hv.stick _ _ (.inl rfl) (.inr ⟨List.ne_nil_of_mem hb, rfl⟩)

theorem State.clearCauses_only {mask : Word} : s.OnlyKeys (s.clearCauses d mask) d fun key =>
    ∃ c, c < 16 ∧ bitOf mask.toNat c = true ∧ key = Fd.CH_STAT.W.key c :=
  (State.OnlyKeys.refl s d _).each _ _ fun v c hc hv => hv.wr _ _ _ <| by
    obtain ⟨hm, hb⟩ := List.mem_filter.1 hc
    exact ⟨c, List.mem_range.1 hm, hb, rfl⟩

theorem stickyClear_spec {mask : Word} (hsh : s.shaped = true) (hs : s.sane = true) (ha : s.alive d = true)
    (hp : pageThere page = true) : Completes (.stickyClear d page mask) s fun t =>
      (∀ b, b < 32 → t.stuckAt d page b = (s.stuckAt d page b && (!bitOf mask.toNat b || s.causeStands d page b))) ∧
      (s.standing d page mask ≠ [] → (t.cell d (hdrKey page 0x10)).toNat =
        ((s.cell d (hdrKey page 0x10)).toNat + (s.standing d page mask).length) % 65536) ∧
      s.OnlyKeys t d fun key => key = hdrKey page 0xC ∨ (s.standing d page mask ≠ [] ∧ key = hdrKey page 0x10) ∨
        (page = 4 ∧ ∃ c, c < 16 ∧ bitOf mask.toNat c = true ∧ key = Fd.CH_STAT.W.key c) := by
  obtain ⟨hset, hcount, honly⟩ := State.unstick_spec (page := page) (mask := mask) (State.lt_length hsh ha)
  refine ⟨_, exec_stickyClear hs ha hp, ?_⟩
  rw [opStickyClear_eq]
  by_cases h4 : page = 4
  · subst h4
    have hc := State.clearCauses_only (s := s.unstick d 4 mask) (d := d) (mask := mask)
    have hhdr : ∀ off, off < 0x20 → ((s.unstick d 4 mask).clearCauses d mask).cell d (hdrKey 4 off) =
        (s.unstick d 4 mask).cell d (hdrKey 4 off) := fun off ho => hc.2.2.2.1 _ fun ⟨c, _, _, hk⟩ => by
      unfold hdrKey Fld.key at hk
      dsimp only at hk
      omega
    show (∀ b, b < 32 → ((s.unstick d 4 mask).clearCauses d mask).stuckAt d 4 b = _) ∧ _
    refine ⟨fun b hb => ?_, fun hne => ?_, ?_⟩
    · rw [← hset b hb]
      unfold State.stuckAt
      rw [hhdr 0xC (by decide)]
    · rw [← hcount hne]
      exact congrArg BitVec.toNat (hhdr 0x10 (by decide))
    · refine (honly.mono fun k hk => ?_).trans (hc.mono fun k hk => .inr (.inr ⟨rfl, hk⟩))
      exact hk.imp_right .inl
  · have hw : (s.unstick d page mask).when (page == 4) (fun s => s.clearCauses d mask) = s.unstick d page mask := by
      unfold State.when
      rw [if_neg (by simpa using h4)]
    rw [hw]
    exact ⟨hset, hcount, honly.mono fun k hk => hk.imp_right .inl⟩

/-! ### SUMMARY_UPDATE -/

theorem summaryUpdate_spec (hs : s.sane = true) (hl : s.device.live = true) : Completes .summaryUpdate s fun t =>
    (t.sumCell 0x24).toNat = ((s.sumCell 0x24).toNat + s.sumPend) % 2 ^ 32 ∧ t.sumPend = 0 ∧ t.dies = s.dies ∧
    t.pins = s.pins ∧ t.device = s.device ∧ ∀ off, off ≠ 0x24 → t.sumCell off = s.sumCell off := by
  have hc : ∀ w off, ({ s.putSum 0x24 w with sumPend := 0 } : State).sumCell off = if off = 0x24 then w else s.sumCell off :=
    fun w off => State.sumCell_putSum 0x24 off w
  have hx : exec .summaryUpdate s =
      .next { s.putSum 0x24 (BitVec.ofNat 32 ((s.sumCell 0x24).toNat + s.sumPend)) with sumPend := 0 } := by
    show execSummaryUpdate s = _
    unfold execSummaryUpdate
    rw [State.guarded_true _ _ _ hs hl]
  refine ⟨_, hx, ?_, rfl, rfl, rfl, rfl, fun off ho => ?_⟩
  · rw [hc, if_pos rfl, BitVec.toNat_ofNat]
  · rw [hc, if_neg ho]

/-- Settles O14: one lemma for each of the commands of the header. -/
theorem pageHeaders : Obligations.page_headers :=
  ⟨fun _ _ _ _ hsh hs ha hp => stickyClear_spec hsh hs ha hp,
    fun _ _ _ hsh hs ha hp hl => pageLock_spec hsh hs ha hp hl,
    fun _ _ _ _ hs ha hp hl => locked_page_ignores hs ha hp hl,
    fun _ _ _ _ hsh hs ha hp hl => blockEn_spec hsh hs ha hp hl,
    fun _ _ _ _ hsh hs ha hp hb => softReset_spec hsh hs ha hp hb,
    fun _ _ _ _ _ ha hp hb hm => softReset_mends ha hp hb hm,
    fun _ hs hl => summaryUpdate_spec hs hl⟩

end Sys2Proof.Machine

end
section
open Sys2Proof Sys2Proof.Machine
/-! ### The course of the package

What a command or a tick may do to the state of the package (01 R31-R37), operation by operation. Most operations do not touch the course;
the few that do say under which condition on it: a change of state, LOCKOUT, a reset, BOOT, and the commands of a host. -/

namespace Sys2Proof.Machine
variable {s t u : State}

/-- Which part it is, in which state, with which state and commands awaited, and its time. -/
structure Course where
  part : Part
  device : DevState
  last : DevState
  changes : BitVec 16
  arming : Option (DevState × Nat)
  movedAt : Option Nat
  movedBy : Option DevState
  cmds : List Nat
  td0 : Nat

/-- The course of the package on a change of its state (01 R33, R37). -/
def Course.enter (c : Course) (new : DevState) : Course :=
  { c with last := c.device, device := new, changes := c.changes + 1, arming := none, movedAt := some c.td0, movedBy := none }

/-- The course of the package as a latched fault takes it to LOCKOUT, whatever its history then shows (01 R34). -/
def Course.lockedOut (c : Course) (last : DevState) (changes : BitVec 16) : Course :=
  { c.enter .lockout with last := last, changes := changes }

/-- The course of a state. -/
def State.course (s : State) : Course := ⟨s.part, s.device, s.last, s.changes, s.arming, s.movedAt, s.movedBy, s.cmds, s.td0⟩

/-- P holds of the course of s. -/
def State.Has (P : Course → Prop) (s : State) : Prop := P s.course

variable {P : Course → Prop}

namespace State.Has

theorem self (t : State) : t.Has (· = t.course) := rfl

theorem congr (h : t.Has P) (k : u.course = t.course) : u.Has P := by
  unfold State.Has
  rw [k]
  exact h

theorem onDie {d : Nat} {f : Die → Die} (h : t.Has P) : (t.onDie d f).Has P := h
theorem putCell {d key : Nat} {w : Word} (h : t.Has P) : (t.putCell d key w).Has P := h
theorem dropCells {d : Nat} {p : Nat → Bool} (h : t.Has P) : (t.dropCells d p).Has P := h
theorem putSum {off : Nat} {w : Word} (h : t.Has P) : (t.putSum off w).Has P := h
theorem dropSum {p : Nat × Word → Bool} (h : t.Has P) : State.Has P { t with sum := t.sum.filter p } := h
theorem dramWrite {d a : Nat} {l : List Byte} (h : t.Has P) : (t.dramWrite d a l).Has P := h

theorem ite {c : Prop} [Decidable c] (h : t.Has P) (k : u.Has P) : (if c then t else u).Has P := by
  split
  · exact h
  · exact k

theorem snd {β : Type} {b : β} (h : t.Has P) : (b, t).2.Has P := h

theorem when {c : Bool} {f : State → State} (h : t.Has P) (hf : ∀ v : State, v.Has P → (f v).Has P) : (t.when c f).Has P :=
  .ite (hf t h) h

theorem each {α : Type} {l : List α} {f : State → α → State} (h : t.Has P) (hf : ∀ (v : State) a, a ∈ l → v.Has P → (f v a).Has P) :
    (t.each l f).Has P := State.each_keeps_mem h hf

theorem iteSnd {β : Type} {c : Prop} [Decidable c] {a b : β × State} (h : a.2.Has P) (k : b.2.Has P) :
    (if c then a else b).2.Has P := by
  split
  · exact h
  · exact k

/-- A fold that carries a state in its result. -/
theorem foldl {α β : Type} {p : β → State} {l : List α} {f : β → α → β} {r : β} (h : (p r).Has P)
    (hf : ∀ x a, (p x).Has P → (p (f x a)).Has P) : (p (l.foldl f r)).Has P := by
  induction l generalizing r with
  | nil => exact h
  | cons a l ih => exact ih (hf r a h)

end State.Has

/-! #### What the operations of Machine/Ops keep -/

theorem State.Has.applyStraps {d : Nat} {p : Nat → Bool} (h : t.Has P) : (t.applyStraps d p).Has P := by
  unfold State.applyStraps
  exact .ite (.each h fun _ _ _ h => h.putCell) h

theorem State.Has.wr {d : Nat} {f : Fld} {i v : Nat} (h : t.Has P) : (t.wr d f i v).Has P := h

theorem State.Has.wrB {d : Nat} {f : Fld} {i : Nat} {b : Bool} (h : t.Has P) : (t.wrB d f i b).Has P := h

theorem State.Has.wrS {d : Nat} {f : Fld} {i : Nat} {v : Int} (h : t.Has P) : (t.wrS d f i v).Has P := h

theorem State.Has.bump {d : Nat} {f : Fld} {i n : Nat} (h : t.Has P) : (t.bump d f i n).Has P := h

theorem State.Has.bumpMod {d : Nat} {f : Fld} {i n : Nat} (h : t.Has P) : (t.bumpMod d f i n).Has P := h

theorem State.Has.stick {d page bit : Nat} (h : t.Has P) : (t.stick d page bit).Has P := by
  unfold State.stick
  exact .ite h h

theorem State.Has.sticky {d : Nat} {k : Sticky} {i : Nat} (h : t.Has P) : (t.sticky d k i).Has P :=
  h.stick

theorem State.Has.sumStick {bit : Nat} (h : t.Has P) : (t.sumStick bit).Has P := by
  unfold State.sumStick
  exact .ite h h

theorem State.Has.freeN (h : t.Has P) : (t.freeN).2.Has P := h

theorem State.Has.freeW (h : t.Has P) : (t.freeW).2.Has P := h

theorem State.Has.misuse {rule d page : Nat} (h : t.Has P) : (t.misuse rule d page).Has P := by
  unfold State.misuse
  dsimp only
  exact .each (.congr h rfl) fun _ _ _ h => by
      split
      · exact h.putCell
      · exact h

theorem State.Has.endMisuse {d page : Nat} (h : t.Has P) : (t.endMisuse d page).Has P := h

/-! #### What the operations of Machine/Signals keep -/

theorem State.Has.raise {d pi : Nat} (h : t.Has P) : (t.raise d pi).Has P := by
  unfold State.raise
  exact .ite h h.onDie

theorem State.Has.lower {d pi : Nat} (h : t.Has P) : (t.lower d pi).Has P := h

theorem State.Has.source {d pi : Nat} {on : Bool} (h : t.Has P) : (t.source d pi on).Has P := by
  unfold State.source
  exact .ite h.raise h.lower

theorem State.Has.arrive {d code ws : Nat} (h : t.Has P) : (t.arrive d code ws).Has P := by
  unfold State.arrive
  exact .ite h.onDie h

theorem State.Has.pulse {d pi : Nat} (h : t.Has P) : (t.pulse d pi).Has P := by
  unfold State.pulse
  exact .when h.onDie fun _ h => h.arrive

theorem State.Has.armCollectors (h : t.Has P) : t.armCollectors.Has P := by
  unfold State.armCollectors
  exact h.each fun _ _ _ h => h.onDie

theorem State.Has.putCtx {d n field : Nat} {v : BitVec 16} (h : t.Has P) : (t.putCtx d n field v).Has P := h

theorem State.Has.setNodeField {field : Nat} {v : BitVec 16} (h : t.Has P) : (t.setNodeField field v).Has P := by
  unfold State.setNodeField
  exact .ite h (h.putCtx.onDie)

/-! #### What the operations of Machine/Bridge keep -/

theorem State.Has.onBg {f : Bg → Bg} (h : t.Has P) : (t.onBg f).Has P := h

theorem State.Has.onBridge {b : Nat} {f : Bridge → Bridge} (h : t.Has P) : (t.onBridge b f).Has P := h

theorem State.Has.onLeg {k : Nat} {f : Leg → Leg} (h : t.Has P) : (t.onLeg k f).Has P := h

theorem State.Has.setGh {k : Nat} {b : Bool} (h : t.Has P) : (t.setGh k b).Has P := h

theorem State.Has.setGl {k : Nat} {b : Bool} (h : t.Has P) : (t.setGl k b).Has P := h

theorem State.Has.guardSources (h : t.Has P) : t.guardSources.Has P := h.source.source

theorem State.Has.endHigh {k : Nat} {inst : Int} (h : t.Has P) : (t.endHigh k inst).Has P := by
  unfold State.endHigh
  exact h.when fun _ h => h.onLeg

theorem State.Has.settleFalls {k : Nat} {i : Int} (h : t.Has P) : (t.settleFalls k i).Has P := by
  unfold State.settleFalls
  exact .when (h.when fun _ h => h.setGh.onLeg.endHigh) fun _ h => h.setGl.onLeg.endHigh

theorem State.Has.rise {k : Nat} {upper : Bool} {r : Int} (h : t.Has P) : (t.rise k upper r).Has P := by
  unfold State.rise
  exact .onLeg (.ite h.setGh h.setGl)

theorem State.Has.settleRise {k : Nat} {upper : Bool} {i : Int} (h : t.Has P) : (t.settleRise k upper i).Has P := by
  unfold State.settleRise
  split
  · exact .ite h.rise h
  · exact h

theorem State.Has.settle {k : Nat} {i : Int} (h : t.Has P) : (t.settle k i).Has P := h.settleFalls.settleRise.settleRise

theorem State.Has.freeRise {k : Nat} {upper : Bool} (h : t.Has P) : (t.freeRise k upper).Has P := by
  unfold State.freeRise
  split
  · exact .ite h.settleRise h
  · exact h

theorem State.Has.gateTick (h : t.Has P) : t.gateTick.Has P := by
  unfold State.gateTick
  extract_lets +onlyGivenNames t1 due t2
  have h1 : t1.Has P := h.each fun _ _ _ h => h.settleFalls.freeRise.freeRise
  have h2 : t2.Has P := h1.onBg
  clear_value t2
  split
  · exact h2.congr rfl
  · exact h2

theorem State.Has.driveLeg {k : Nat} {up lo : Bool} {inst : Int} (h : t.Has P) : (t.driveLeg k up lo inst).Has P := by
  unfold State.driveLeg
  exact h.settle.onLeg

theorem State.Has.takeState {b code : Nat} {inst : Int} (h : t.Has P) : (t.takeState b code inst).Has P := by
  unfold State.takeState
  exact .driveLeg (.driveLeg (.wr (.onBridge (h.when fun _ h => h.wrB))))

theorem State.Has.takeBlock {b : Nat} {wait : Bool} {inst : Int} (h : t.Has P) : (t.takeBlock b wait inst).Has P :=
  h.onBridge.takeState

theorem State.Has.legsWait {b w : Nat} (h : t.Has P) : (t.legsWait b w).Has P := h

theorem State.Has.makeCurrent {b : Nat} {m : Manifest} (h : t.Has P) : (t.makeCurrent b m).Has P := by
  unfold State.makeCurrent
  dsimp only
  split
  · exact h.onBridge
  · exact .ite h.onBridge.onBridge h.onBridge.sticky.takeBlock

theorem State.Has.discardCurrent {b : Nat} (h : t.Has P) : (t.discardCurrent b).Has P := by
  unfold State.discardCurrent
  dsimp only
  split
  · exact h.onBridge.makeCurrent
  · exact h.onBridge

theorem State.Has.undoTick {b : Nat} (h : t.Has P) : (t.undoTick b).Has P := by
  unfold State.undoTick
  split
  · exact h
  · exact .ite h (.guardSources (.when (.onBridge (h.wrB.when fun _ h => h.onBg)) fun _ h => h.discardCurrent))

theorem State.Has.blockBridge {b : Nat} (h : t.Has P) : (t.blockBridge b).Has P := by
  unfold State.blockBridge
  exact .takeBlock (h.undoTick.when fun _ h => h.legsWait)

theorem State.Has.blockAll (h : t.Has P) : t.blockAll.Has P := by
  unfold State.blockAll
  exact h.each fun _ _ _ h => h.blockBridge

theorem State.Has.dropManifests (h : t.Has P) : t.dropManifests.Has P := h

theorem State.Has.noteConflict {b : Nat} {c : Pnz} (h : t.Has P) : (t.noteConflict b c).Has P := by
  unfold State.noteConflict
  exact .guardSources (h.onBridge.when fun _ h => h.sticky.bump)

theorem State.Has.noteShoot {k : Nat} {up lo : Bool} (h : t.Has P) : (t.noteShoot k up lo).Has P := by
  unfold State.noteShoot
  exact .guardSources (h.onLeg.when fun _ h => h.sticky.bump)

theorem State.Has.unblock (h : t.Has P) : t.unblock.Has P := by
  unfold State.unblock
  exact h.each fun _ _ _ h => by
      split
      · exact h
      · split
        · exact .ite h h.takeState
        · split
          · exact .ite h.onBridge.takeState h
          · exact h

theorem State.Has.followPins (h : t.Has P) : t.followPins.Has P := by
  unfold State.followPins
  split
  · exact .ite (h.onBg.each fun _ _ _ h => .ite h.takeState h) h
  · exact h

/-! #### What the operations of Machine/Cell keep -/

theorem State.Has.opBgSrc {value : Word} (h : t.Has P) : (opBgSrc value t).Has P := by
  unfold Machine.opBgSrc
  exact h.putCell.each fun _ _ _ h => .ite h h.onBridge.noteShoot.noteShoot.noteConflict.legsWait.takeBlock

/-! #### What the operations of Machine/Guard keep -/

theorem State.Has.opUnlock {legs : Nat} (h : t.Has P) : (opUnlock legs t).Has P := by
  unfold Machine.opUnlock
  exact .when (h.each fun _ _ _ h => .ite h (.ite h.sticky h.wrB.onLeg)) fun _ h => h.lower

theorem State.Has.opBgLeg {k : Nat} {old : Word} (h : t.Has P) : (opBgLeg k old t).Has P := by
  unfold Machine.opBgLeg
  exact h.onLeg.when fun _ h => h.sticky

theorem State.Has.opBgGcfg {old : Nat} (h : t.Has P) : (opBgGcfg old t).Has P := by
  unfold Machine.opBgGcfg
  exact .guardSources (h.each fun _ _ _ h => h.when fun _ h => h.onLeg)

theorem State.Has.opGuardOff (h : t.Has P) : (opGuardOff t).Has P := h.blockAll

theorem State.Has.opGuardReset (h : t.Has P) : (opGuardReset t).Has P := by
  unfold Machine.opGuardReset
  exact .onDie (.onBg (h.dropManifests.each fun _ _ _ h => h.takeBlock))

/-! #### What the operations of Machine/Measure keep -/

theorem State.Has.onMch {d c : Nat} {f : Mch → Mch} (h : t.Has P) : (t.onMch d c f).Has P := h

theorem State.Has.onSdc {d k : Nat} {f : Sdc → Sdc} (h : t.Has P) : (t.onSdc d k f).Has P := h

theorem State.Has.holdCh {d c : Nat} (h : t.Has P) : (t.holdCh d c).Has P := by
  unfold State.holdCh
  exact .ite h h.onDie

theorem State.Has.chSource {d c : Nat} (h : t.Has P) : (t.chSource d c).Has P := h.source

theorem State.Has.setLive {d c live : Nat} (h : t.Has P) : (t.setLive d c live).Has P := h.wr.wrB.chSource

theorem State.Has.setCond {d c n : Nat} {v : Bool} (h : t.Has P) : (t.setCond d c n v).Has P := by
  unfold State.setCond
  exact .ite h.setLive.sticky.wr h.setLive

theorem State.Has.setSettled {d c : Nat} {v : Bool} (h : t.Has P) : (t.setSettled d c v).Has P := h

theorem State.Has.chStop {d c : Nat} (h : t.Has P) : (t.chStop d c).Has P := h.onMch.setSettled.wr.setLive

theorem State.Has.stoppedClock {d c : Nat} (h : t.Has P) : (t.stoppedClock d c).Has P := by
  unfold State.stoppedClock
  exact h.when fun _ h => h.setCond

theorem State.Has.chRestart {d c : Nat} (h : t.Has P) : (t.chRestart d c).Has P := by
  unfold State.chRestart
  exact .ite h h.onMch.setSettled.wr.wr.setLive.stoppedClock

theorem State.Has.opSdcCfg {d k : Nat} {value : Word} (h : t.Has P) : (opSdcCfg d k value t).Has P := by
  unfold Machine.opSdcCfg
  exact .ite h (.ite h.putCell.onSdc (h.putCell.onSdc.each fun _ _ _ h => h.each fun _ _ _ h => h.stoppedClock))

theorem State.Has.newGrid {d k : Nat} (h : t.Has P) : (t.newGrid d k).Has P := by
  unfold State.newGrid
  split
  · exact h
  · exact .ite h (h.onSdc.each fun _ _ _ h => h.each fun _ _ _ h => h.chRestart)

theorem State.Has.mfeStart {d : Nat} (h : t.Has P) : (t.mfeStart d).Has P := by
  unfold State.mfeStart
  extract_lets +onlyGivenNames _ _ t2
  have h2 : t2.Has P := .each h.onDie fun _ _ _ h => h.chSource
  exact .ite h2 (h2.each fun _ _ _ h => h.newGrid)

theorem State.Has.opChEn {d : Nat} {value : Word} (h : t.Has P) : (opChEn d value t).Has P := by
  unfold Machine.opChEn
  exact .ite h (h.wr.each fun _ _ _ h => .ite h.chRestart (.ite h.chStop h))

theorem State.Has.opChWrite {d c : Nat} {write : State → State} (h : t.Has P) (hw : ∀ v, v.Has P → (write v).Has P) :
    (opChWrite d c write t).Has P := by
  unfold Machine.opChWrite
  exact .when (hw _ h.holdCh) fun _ h => h.chRestart

theorem State.Has.opMfeEn {d : Nat} {on : Bool} (h : t.Has P) : (opMfeEn d on t).Has P := by
  unfold Machine.opMfeEn
  exact .when (h.each fun _ _ _ h => .ite h.chRestart h.chStop) fun _ h => h.each fun _ _ _ h => .ite h.stoppedClock (h.when
    fun _ h => h.chRestart)

theorem State.Has.opMfeReset {d : Nat} (h : t.Has P) : (opMfeReset d t).Has P := by
  unfold Machine.opMfeReset
  exact .when (.each h.onDie fun _ _ _ h => h.lower) fun _ h => h.each fun _ _ _ h => h.stoppedClock

theorem State.Has.fastStep {d c : Nat} (h : t.Has P) : (t.fastStep d c).Has P := by
  unfold State.fastStep
  dsimp only
  exact .ite h (.ite (.when (.ite (h.wrS.onMch.when fun _ h => h.setCond) h.wrS.onMch.setCond) fun _ h => h.setCond) (.setCond
    (.ite (h.wrS.onMch.when fun _ h => h.setCond) h.wrS.onMch.setCond)))

theorem State.Has.takeBit {d c : Nat} {b : Bool} (h : t.Has P) : (t.takeBit d c b).Has P := by
  unfold State.takeBit
  exact .when (.when (.ite h.onMch.setCond (.ite h.onMch.setCond h.onMch)) fun _ h => h.fastStep) fun _ h => h.setSettled

theorem State.Has.opBits {d c edge : Nat} {bits : List Samples} (h : t.Has P) : (opBits d c edge bits t).Has P := by
  unfold Machine.opBits
  exact h.when fun _ h => .onMch (h.each fun _ _ _ h => h.takeBit)

theorem State.Has.latchFields {d c : Nat} {y : BitVec 16} (h : t.Has P) : (t.latchFields d c y).Has P := by
  unfold State.latchFields
  exact .ite h (h.setNodeField.when fun _ h => h.setNodeField)

theorem State.Has.latch {d c : Nat} (h : t.Has P) : (t.latch d c).Has P := by
  unfold State.latch
  dsimp only
  split
  · exact h.wr.wr.latchFields
  · split
    · exact h.wr.wr.latchFields.onMch.wr
    · exact .ite (h.wr.wr.latchFields.onMch.bump.when fun _ h => h.setCond) h.wr.wr.latchFields.onMch.wr.setCond

theorem State.Has.latchGroups {d : Nat} {groups : List Nat} (h : t.Has P) : (t.latchGroups d groups).Has P := by
  unfold State.latchGroups
  exact h.each fun _ _ _ h => h.latch

/-! #### What the operations of Machine/Fabric keep -/

theorem State.Has.opResEntry {d i : Nat} {value : Word} (h : t.Has P) : (opResEntry d i value t).Has P := by
  unfold Machine.opResEntry
  exact .ite h (.ite h.sticky (.ite h.putCell (.ite h.sticky h.putCell)))

theorem State.Has.refuseA {d : Nat} {entry : Option Nat} (h : t.Has P) : (t.refuseA d entry).Has P := by
  unfold State.refuseA
  dsimp only
  split
  · exact h.sticky.bump.wr.wr
  · exact h.sticky.bump.wr

theorem State.Has.tryShare {d : Nat} {entry : Option Nat} (h : t.Has P) : (t.tryShare d entry).2.Has P := by
  unfold State.tryShare
  split
  · exact .snd h.refuseA
  · split
    · exact .snd h.refuseA
    · exact .snd h.onDie

theorem State.Has.launch {d port dst cls : Nat} {what : FabPayload} (h : t.Has P) : (t.launch d port dst cls what).Has P := h

theorem State.Has.submitUnder {d port : Nat} {entry : Option Nat} {what : FabPayload} (h : t.Has P) :
    (t.submitUnder d port entry what).2.Has P := by
  unfold State.submitUnder
  exact .snd (h.tryShare.when fun _ h => h.launch)

theorem State.Has.submitA {d port source : Nat} {what : FabPayload} (h : t.Has P) : (t.submitA d port source what).2.Has P := by
  unfold State.submitA
  exact h.submitUnder

theorem State.Has.submitTo {d port source dest : Nat} {what : FabPayload} (h : t.Has P) :
    (t.submitTo d port source dest what).2.Has P := by
  unfold State.submitTo
  exact h.submitUnder

theorem State.Has.endDown {d : Nat} {l : FabLink} (h : t.Has P) : (t.endDown d l).Has P := by
  unfold State.endDown
  exact h.wrB.sticky.when fun _ h => h.raise

theorem State.Has.opLinkDown {d : Nat} {l : FabLink} (h : t.Has P) : (opLinkDown d l t).Has P := by
  unfold Machine.opLinkDown
  split
  · exact h
  · exact h.endDown.endDown

theorem State.Has.allLinksDown {d : Nat} (h : t.Has P) : (t.allLinksDown d).Has P := by
  unfold State.allLinksDown
  exact h.each fun _ _ _ h => h.opLinkDown

theorem State.Has.noteGrant {d g : Nat} {x : FabXfer} (h : t.Has P) : (t.noteGrant d g x).Has P := h

theorem State.Has.gateSlot {d : Nat} {l : FabLink} (h : t.Has P) : (t.gateSlot d l).Has P := by
  unfold State.gateSlot
  split
  · exact h
  · split
    · exact h
    · dsimp only
      split
      · exact h
      · exact .noteGrant (.congr h rfl)

theorem State.Has.fabricSlot (h : t.Has P) : t.fabricSlot.Has P := by
  unfold State.fabricSlot
  exact .ite h (h.each fun _ _ _ h => h.each fun _ _ _ h => h.gateSlot)

theorem State.Has.resentOver {hop : Nat × Nat} {n : Nat} (h : t.Has P) : (t.resentOver hop n).Has P := by
  unfold State.resentOver
  exact h.when fun _ h => h.each fun _ _ _ h => h.sticky.bump

theorem State.Has.lostA {d : Nat} (h : t.Has P) : (t.lostA d).Has P := h.sticky.pulse

theorem State.Has.outcome {x : FabXfer} {how : FabArrival} (h : t.Has P) : (t.outcome x how).2.Has P := by
  unfold State.outcome
  dsimp only
  split
  · exact .snd (h.when fun _ h => h.each fun _ _ _ h => h.resentOver)
  · exact .snd h.lostA
  · split
    · exact .snd h
    · exact .snd (by
        split
        · exact .opLinkDown (.resentOver (h.when fun _ h => h.each fun _ _ _ h => h.resentOver))
        · exact .resentOver (h.when fun _ h => h.each fun _ _ _ h => h.resentOver))

theorem State.Has.takeArrived {d : Nat} {x : FabXfer} (h : t.Has P) : (t.takeArrived d x).Has P := h

theorem State.Has.loseMirror {d i : Nat} (h : t.Has P) : (t.loseMirror d i).Has P := by
  unfold State.loseMirror
  split
  · exact h
  · exact .lostA (.congr h rfl)

theorem State.Has.opFabEn {d : Nat} {on : Bool} (h : t.Has P) : (opFabEn d on t).Has P := by
  unfold Machine.opFabEn
  exact .ite (h.when fun _ h => h.raise) h.lower

theorem State.Has.opFabReset {d : Nat} (h : t.Has P) : (opFabReset d t).Has P := h

/-! #### What the operations of Machine/Angle keep -/

theorem State.Has.onDom {d i : Nat} {f : Domain → Domain} (h : t.Has P) : (t.onDom d i f).Has P := h

theorem State.Has.applyDom {d i : Nat} {u' : DomUpd} (h : t.Has P) : (t.applyDom d i u').Has P := h

theorem State.Has.submitDom {i : Nat} {u' : DomUpd} {ts : Nat} (h : t.Has P) : (t.submitDom i u' ts).Has P := by
  unfold State.submitDom
  dsimp only
  split
  · exact h
  · exact h

theorem State.Has.changeDom {i : Nat} {u' : DomUpd} {ts : Nat} (h : t.Has P) : (t.changeDom i u' ts).Has P := by
  unfold State.changeDom
  exact .ite h.submitDom (.ite (.congr h rfl) h.applyDom)

theorem State.Has.nodeChanges (h : t.Has P) : t.nodeChanges.Has P := by
  unfold State.nodeChanges
  exact .each (.congr h rfl) fun _ _ _ h => h.applyDom

theorem State.Has.opDomainChange {d i : Nat} {reg : AdReg} {value : Word} (h : t.Has P) : (opDomainChange d i reg value t).Has P := by
  unfold Machine.opDomainChange
  exact .ite h (.when (h.putCell.when fun _ h => h.onDie) fun _ h => h.changeDom)

theorem State.Has.mirrorSkew {k : Nat} (h : t.Has P) : (t.mirrorSkew k).Has P := h.sticky.pulse

theorem State.Has.submitWall {n : Nat} {u' : DomUpd} {ts : Nat} (h : t.Has P) : (t.submitWall n u' ts).Has P := by
  unfold State.submitWall
  exact .ite (.congr h rfl) (.congr h rfl)

theorem State.Has.applyWall {n : Nat} {u' : DomUpd} {lost : List Nat} (h : t.Has P) : (t.applyWall n u' lost).Has P := by
  unfold State.applyWall
  extract_lets +onlyGivenNames _ _ _ t2
  have h2 : t2.Has P := .each (.congr h rfl) fun _ _ _ h => .when h.onDie
    fun _ h => h.mirrorSkew
  split
  · exact h2.submitWall
  · exact h2

theorem State.Has.opMirrorRecord {i : Nat} (h : t.Has P) : (opMirrorRecord i t).Has P := by
  unfold Machine.opMirrorRecord
  split
  · exact h
  · dsimp only
    split
    · exact .applyWall (.congr h rfl)
    · split
      · exact .submitDom (.onDom (.each (.applyDom (.congr h rfl)) fun _ _ _ h => h.onDom.when fun _ h => h.mirrorSkew))
      · exact .each (.applyDom (.congr h rfl)) fun _ _ _ h => h.onDom.when fun _ h => h.mirrorSkew

theorem State.Has.putMs {d i w v : Nat} (h : t.Has P) : (t.putMs d i w v).Has P := h

theorem State.Has.setArmed {d i : Nat} {b : Bool} (h : t.Has P) : (t.setArmed d i b).Has P := h

theorem State.Has.putCompare {d i : Nat} {c : Int} (h : t.Has P) : (t.putCompare d i c).Has P := h

theorem State.Has.setOrigin {d i : Nat} {c : Int} {j : Nat} (h : t.Has P) : (t.setOrigin d i c j).Has P := h

theorem State.Has.strictMiss {d i : Nat} (h : t.Has P) : (t.strictMiss d i).Has P := by
  unfold State.strictMiss
  exact h.when fun _ h => h.sticky.pulse

theorem State.Has.moveOn {d i : Nat} {p : Int} (h : t.Has P) : (t.moveOn d i p).2.Has P := by
  unfold State.moveOn
  exact .snd h.putCompare.setOrigin

theorem State.Has.dropLate {d i : Nat} {p : Int} (h : t.Has P) : (t.dropLate d i p).Has P := by
  unfold State.dropLate
  exact .ite h.sticky.wr.strictMiss.bump.setArmed h.sticky.wr.strictMiss.moveOn.bump

theorem State.Has.fireLate {d i : Nat} {p : Int} (h : t.Has P) : (t.fireLate d i p).Has P := by
  unfold State.fireLate
  exact .when h.onDie fun _ h => h.sticky.wr.bump.strictMiss.setOrigin

theorem State.Has.examine {d i : Nat} (h : t.Has P) : (t.examine d i).Has P := by
  unfold State.examine
  exact .ite h (.ite h (.ite h.fireLate h.dropLate))

theorem State.Has.resolveEntry {d i : Nat} (h : t.Has P) : (t.resolveEntry d i).Has P := by
  unfold State.resolveEntry
  exact h.when fun _ h => h.putCompare.setOrigin

theorem State.Has.armEntry {d i : Nat} (h : t.Has P) : (t.armEntry d i).Has P := by
  unfold State.armEntry
  exact .examine (.setOrigin (h.setArmed.when fun _ h => h.putCompare))

theorem State.Has.msApply {d i : Nat} {o : MsOp} (h : t.Has P) : (t.msApply d i o).Has P := by
  unfold State.msApply
  split
  · exact .armEntry (h.each fun _ _ _ h => h.putCell)
  · exact h.setArmed
  · exact .ite h h.armEntry

theorem State.Has.msStart {d : Nat} (h : t.Has P) : (t.msStart d).Has P := by
  unfold State.msStart
  exact .when (.each h.onDie fun _ _ _ h => h.msApply) fun _ h => h.each
    fun _ _ _ h => h.resolveEntry.examine

theorem State.Has.opMsArm {d i : Nat} {o : MsOp} (h : t.Has P) : (opMsArm d i o t).Has P := h

theorem State.Has.fired {d i : Nat} (h : t.Has P) : (t.fired d i).Has P := by
  unfold State.fired
  extract_lets +onlyGivenNames _ t2
  have h2 : t2.Has P := h.putMs.onDie
  exact .ite h2.setArmed (.ite h2.moveOn h2.moveOn.sticky.wr.bump.strictMiss)

theorem State.Has.msPin {d arg : Nat} (h : t.Has P) : (t.msPin d arg).Has P := by
  unfold State.msPin
  exact .ite h (.congr h rfl)

theorem State.Has.opSnapSel {d domain : Nat} (h : t.Has P) : (opSnapSel d domain t).Has P := by
  unfold Machine.opSnapSel
  exact .ite h.wr.wr.wr.wr.wr.wr.wr (.ite h.wr.wr.wr.wr.wr.wr.wr (.ite h.wr.wr.wr.wr.wr.wr.wr h.wr.wr))

theorem State.Has.opAngReset {d : Nat} (h : t.Has P) : (opAngReset d t).Has P := by
  unfold Machine.opAngReset
  extract_lets +onlyGivenNames _ t2
  have h2 : t2.Has P := h.dropCells.onDie
  exact .ite h2 (h2.each fun _ _ _ h => h.changeDom)

/-! #### What the operations of Machine/Tracker keep -/

theorem State.Has.onTrk {d c : Nat} {f : Trk → Trk} (h : t.Has P) : (t.onTrk d c f).Has P := h

theorem State.Has.standStill {d c : Nat} (h : t.Has P) : (t.standStill d c).Has P := by
  unfold State.standStill
  exact h.onTrk.wrB.wr.wr

theorem State.Has.transition {d c : Nat} {back : Bool} (h : t.Has P) : (t.transition d c back).Has P := by
  unfold State.transition
  exact .wrB (.wrB (.onTrk (h.when fun _ h => h.standStill)))

theorem State.Has.illegalStep {d c : Nat} (h : t.Has P) : (t.illegalStep d c).Has P := h.bump.sticky

theorem State.Has.goodSincos {d c : Nat} (h : t.Has P) : (t.goodSincos d c).Has P := by
  unfold State.goodSincos
  exact .onTrk (h.when fun _ h => h.transition)

theorem State.Has.goodCount {d c m : Nat} (h : t.Has P) : (t.goodCount d c m).Has P := h

theorem State.Has.enterWindow {d c : Nat} {ts : Int} (h : t.Has P) : (t.enterWindow d c ts).Has P := h

theorem State.Has.goodGrid {d c dt : Nat} (h : t.Has P) : (t.goodGrid d c dt).Has P := by
  unfold State.goodGrid
  exact .ite h.onTrk (h.onTrk.when fun _ h => h.wrB)

theorem State.Has.setLoss {d c : Nat} (h : t.Has P) : (t.setLoss d c).Has P := by
  unfold State.setLoss
  exact .ite h h.wrB.sticky

theorem State.Has.lossSource {d c : Nat} (h : t.Has P) : (t.lossSource d c).Has P := h.source

theorem State.Has.trkDue {d c : Nat} (h : t.Has P) : (t.trkDue d c).Has P := by
  unfold State.trkDue
  exact .lossSource (.when (.when (h.when fun _ h => h.setLoss) fun _ h => h.wrB) fun _ h => h.standStill)

theorem State.Has.countUpdate {d c : Nat} {ts : Int} (h : t.Has P) : (t.countUpdate d c ts).Has P := by
  unfold State.countUpdate
  exact .ite h.onTrk (.ite h.onTrk (h.onTrk.each fun _ _ _ h => h.changeDom))

theorem State.Has.trkRestart {d c : Nat} (h : t.Has P) : (t.trkRestart d c).Has P := by
  unfold State.trkRestart
  exact h.onTrk.wr.wr.wr

theorem State.Has.opRestart {d c : Nat} (h : t.Has P) : (opRestart d c t).Has P := h

theorem State.Has.opAtrEn {d : Nat} {on : Bool} (h : t.Has P) : (opAtrEn d on t).Has P := by
  unfold Machine.opAtrEn
  exact h.each fun _ _ _ h => .ite h.opRestart h.onTrk.lower

theorem State.Has.opAtrReset {d : Nat} (h : t.Has P) : (opAtrReset d t).Has P := by
  unfold Machine.opAtrReset
  exact .each h.onDie fun _ _ _ h => h.lower

theorem State.Has.showSample {d c : Nat} {ts speed : Int} {mag : Nat} (h : t.Has P) : (t.showSample d c ts speed mag).Has P := by
  unfold State.showSample
  exact h.wr.wr.wr.wr.wr.wr.wr.wr

theorem State.Has.badSample {d c : Nat} {j : Judged} {dt : Nat} (h : t.Has P) : (t.badSample d c j dt).Has P := by
  unfold State.badSample
  exact .ite (.when (.wrB (.wrB (.onTrk (h.when fun _ h => h.illegalStep)))) fun _ h => h.sticky) (.when (.onTrk (h.when
    fun _ h => h.illegalStep)) fun _ h => h.setLoss)

theorem State.Has.goodSample {d c : Nat} {ts : Int} {dt : Nat} (h : t.Has P) : (t.goodSample d c ts dt).Has P := by
  unfold State.goodSample
  dsimp only
  split
  · exact h.onTrk.goodGrid.onTrk.when fun _ h => h.wrB.wrB
  · exact .onTrk (.enterWindow (.ite h.onTrk.goodSincos h.onTrk.goodCount))

theorem State.Has.takeWords {d c : Nat} (h : t.Has P) : (t.takeWords d c).2.Has P := by
  unfold State.takeWords
  exact .snd (h.onTrk.when fun _ h => h.trkRestart)

theorem State.Has.sampleNow {d c dt : Nat} (h : t.Has P) : (t.sampleNow d c dt).2.Has P := by
  unfold State.sampleNow
  exact .snd (.trkDue (.showSample (.when (.onTrk (.ite h.goodSample h.badSample)) fun _ h => h.standStill)))

theorem State.Has.opTrackerSample {d c : Nat} (h : t.Has P) : (opTrackerSample d c t).Has P := by
  unfold Machine.opTrackerSample
  exact .ite h.takeWords.onTrk.lossSource (.when (h.takeWords.sampleNow.when fun _ h => h.each fun _ _ _ h => h.changeDom)
    fun _ h => h.countUpdate)

/-! #### What the operations of Machine/Operands keep -/

theorem State.Has.onInst {d e i : Nat} {f : Inst → Inst} (h : t.Has P) : (t.onInst d e i f).Has P := h

/-! #### What the operations of Machine/Recorder keep -/

/-- A change of the recorder beside its DRAM. -/
theorem State.Has.onRec {d : Nat} {f : Rec → Rec} (h : t.Has P) : (t.onRec d f).Has P := h

theorem State.Has.lineRead {d line : Nat} {first second : Bool} (h : t.Has P) : (t.lineRead d line first second).2.Has P := by
  unfold State.lineRead
  dsimp only
  split
  · exact .snd h
  · split
    · exact .snd h.bump
    · exact .snd h.bump.wr.sticky

theorem State.Has.opPart {d i : Nat} {value : Word} (h : t.Has P) : (opPart d i value t).Has P := by
  unfold Machine.opPart
  exact .ite h (.ite h.sticky h.putCell)

theorem State.Has.winStep {d i : Nat} (h : t.Has P) : (t.winStep d i).Has P := by
  unfold State.winStep
  exact h.when fun _ h => h.wr

theorem State.Has.opWinRead {d i : Nat} {first second : Bool} (h : t.Has P) : (opWinRead d i first second t).2.Has P := by
  unfold Machine.opWinRead
  dsimp only
  split
  · exact .snd h.sticky
  · split
    · exact .snd h.winStep
    · split
      · exact .snd h.lineRead.winStep
      · exact .snd (.congr h.lineRead.winStep rfl)

theorem State.Has.opWinWrite {d i : Nat} {value : Word} {first second : Bool} (h : t.Has P) :
    (opWinWrite d i value first second t).Has P := by
  unfold Machine.opWinWrite
  exact .ite h.sticky (.winStep (.dramWrite (.ite h.lineRead h.lineRead.dramWrite)))

theorem State.Has.setL {d v : Nat} (h : t.Has P) : (t.setL d v).Has P := h

theorem State.Has.beginPage {d grid : Nat} (h : t.Has P) : (t.beginPage d grid).Has P := h

theorem State.Has.ledgerStore {d type src grid : Nat} {words : List (BitVec 16)} (h : t.Has P) :
    (t.ledgerStore d type src grid words).Has P := by
  unfold State.ledgerStore
  exact .ite h (.onRec (.when (.dramWrite (.ite h.beginPage h)) fun _ h => h.dramWrite))

theorem State.Has.markThrottled {d : Nat} (h : t.Has P) : (t.markThrottled d).Has P := by
  unfold State.markThrottled
  exact h.when fun _ h => h.dramWrite

theorem State.Has.ledgerMark {d : Nat} {code : BitVec 16} (h : t.Has P) : (t.ledgerMark d code).Has P := h.ledgerStore

theorem State.Has.ledgerTrig {d c : Nat} (h : t.Has P) : (t.ledgerTrig d c).Has P := by
  unfold State.ledgerTrig
  exact .ite h.setL.wr.wr.wr.sticky h.sticky

theorem State.Has.rearmDie {d : Nat} (h : t.Has P) : (t.rearmDie d).Has P := by
  unfold State.rearmDie
  exact .ite (h.setL.onRec) h.sticky

theorem State.Has.applyRearm (h : t.Has P) : t.applyRearm.Has P := by
  unfold State.applyRearm
  split
  · exact h
  · exact .ite h (.each (.congr h rfl) fun _ _ _ h => h.when fun _ h => h.rearmDie)

theorem State.Has.reactTrig {d c : Nat} (h : t.Has P) : (t.reactTrig d c).Has P := by
  unfold State.reactTrig
  exact .ite h.wr.sticky h.ledgerTrig

theorem State.Has.opLedgerTrigger (h : t.Has P) : (opLedgerTrigger t).Has P := by
  unfold Machine.opLedgerTrigger
  split
  · exact h
  · exact .ite h (.each (.congr h.applyRearm rfl) fun _ _ _ h => h.when fun _ h => h.ledgerTrig)

theorem State.Has.opTrig {c : Nat} (h : t.Has P) : (opTrig c t).Has P := h

theorem State.Has.opRearm (h : t.Has P) : (opRearm t).Has P := h

theorem State.Has.opLedgerEn {d : Nat} {on : Bool} (h : t.Has P) : (opLedgerEn d on t).Has P := by
  unfold Machine.opLedgerEn
  extract_lets +onlyGivenNames t1
  have h1 : t1.Has P := h.wrB
  exact .ite h1 (.ite (.ite (h1.setL.onRec) h1) (.ite h1.setL h1))

theorem State.Has.opLedgerSeal {d : Nat} (h : t.Has P) : (opLedgerSeal d t).Has P := by
  unfold Machine.opLedgerSeal
  exact .ite h (h.setL.wr.wr.sticky.when fun _ h => h.sticky)

theorem State.Has.endLedger (h : t.Has P) : t.endLedger.Has P := by
  unfold State.endLedger
  exact .ite h (.each (h.each fun _ _ _ h => h.opLedgerTrigger) fun _ _ _ h => h.when fun _ h => h.opLedgerSeal)

theorem State.Has.streamWord {d w : Nat} (h : t.Has P) : (t.streamWord d w).2.Has P := by
  unfold State.streamWord
  dsimp only
  split
  · split
    · exact .snd h
    · exact .snd h.freeW
  · exact .snd h
  · exact .snd h
  · exact .snd h

theorem State.Has.streamWords {d : Nat} (h : t.Has P) : (t.streamWords d).2.Has P :=
  .foldl (p := Prod.snd) h fun _ _ h => h.streamWord

theorem State.Has.closeFill (h : t.Has P) : t.closeFill.Has P := h

theorem State.Has.loseRecord (h : t.Has P) : t.loseRecord.Has P := by
  unfold State.loseRecord
  exact h.bump.sticky.onRec

theorem State.Has.nodeRecord {words : List (BitVec 16)} (h : t.Has P) : (t.nodeRecord words).Has P := by
  unfold State.nodeRecord
  exact .ite h.loseRecord (.ite (.loseRecord (h.when fun _ h => h.closeFill)) (.when (.onRec (h.when fun _ h => h.closeFill))
    fun _ h => h.closeFill))

theorem State.Has.opStreamRecord {d : Nat} (h : t.Has P) : (opStreamRecord d t).Has P := by
  unfold Machine.opStreamRecord
  exact .ite h.bump.sticky (.ite h.streamWords.ledgerStore h.streamWords.nodeRecord)

theorem State.Has.storeCapture {d n : Nat} {p : List Byte} (h : t.Has P) : (t.storeCapture d n p).Has P := by
  unfold State.storeCapture
  exact .each (h.when fun _ h => h.ledgerStore) fun _ _ _ h => .ite h.bump.sticky h.ledgerStore

theorem State.Has.dramLost {d : Nat} (h : t.Has P) : (t.dramLost d).Has P := h.sticky.setL.wrB.onDie

/-! #### What the operations of Machine/Loop keep -/

theorem State.Has.onSlot {d sl : Nat} {f : Slot → Slot} (h : t.Has P) : (t.onSlot d sl f).Has P := h

theorem State.Has.setCondition {d sl c : Nat} (h : t.Has P) : (t.setCondition d sl c).Has P := h

theorem State.Has.missTick {d sl : Nat} (h : t.Has P) : (t.missTick d sl).Has P := by
  unfold State.missTick
  exact h.bump.bump.bump.wr.sticky.when fun _ h => h.wr.sticky.pulse

theorem State.Has.judgeTick {d sl : Nat} (h : t.Has P) : (t.judgeTick d sl).Has P := by
  unfold State.judgeTick
  exact .ite h.setCondition.wr.onSlot h.missTick

theorem State.Has.throttleTick {d sl : Nat} (h : t.Has P) : (t.throttleTick d sl).Has P := by
  unfold State.throttleTick
  exact .ite (.ite h.onSlot.bump h.onSlot.judgeTick) h.onSlot.judgeTick

theorem State.Has.tickSlot {fuel d sl : Nat} (h : t.Has P) : (t.tickSlot fuel d sl).Has P := by
  induction fuel generalizing t d sl with
  | zero => exact h
  | succ fuel ih =>
    unfold State.tickSlot
    exact .ite h (h.onSlot.throttleTick.each fun _ _ _ h => .ite (ih h.onSlot) h.onSlot)

theorem State.Has.spPend {d sl w rank : Nat} {v : BitVec 16} (h : t.Has P) : (t.spPend d sl w rank v).Has P := h

theorem State.Has.setActive {d sl w : Nat} {v : BitVec 16} (h : t.Has P) : (t.setActive d sl w v).Has P := h

theorem State.Has.onSp {d sl w : Nat} {f : SpWord → SpWord} (h : t.Has P) : (t.onSp d sl w f).Has P := h

theorem State.Has.boundary {d sl : Nat} (h : t.Has P) : (t.boundary d sl).Has P := by
  unfold State.boundary
  exact h.each fun _ _ _ h => by
      dsimp only
      split
      · exact h.setActive.onSp
      · exact .ite h.setActive.onSp h

theorem State.Has.swapSet {d sl : Nat} (h : t.Has P) : (t.swapSet d sl).Has P := by
  unfold State.swapSet
  exact h.each fun _ _ _ h => h.setActive.onSp

theorem State.Has.opSps {d sl : Nat} {hi : Bool} {value : Word} (h : t.Has P) : (opSps d sl hi value t).Has P := h

theorem State.Has.opSlotEn {d : Nat} {hi : Bool} {value : Word} (h : t.Has P) : (opSlotEn d hi value t).Has P := h

theorem State.Has.leStart {d : Nat} (h : t.Has P) : (t.leStart d).Has P := by
  unfold State.leStart
  exact .ite h (.each h.onDie fun _ _ _ h => .ite h.onSlot (.ite h.setCondition h))

theorem State.Has.opSlotCasc {d sl : Nat} {value : Word} (h : t.Has P) : (opSlotCasc d sl value t).Has P := h

theorem State.Has.grant {d e i sl : Nat} (h : t.Has P) : (t.grant d e i sl).Has P := by
  unfold State.grant
  exact h.setCondition.wr.boundary.onInst

theorem State.Has.onBist {d : Nat} {f : Bist → Bist} (h : t.Has P) : (t.onBist d f).Has P := h

theorem State.Has.showTest {d e i issues : Nat} {sig : Word} (h : t.Has P) : (t.showTest d e i issues sig).Has P := by
  unfold State.showTest
  exact h.onInst.wrB.wr.wr.wr.wr.wrB

theorem State.Has.endTest {d issues : Nat} {sig : Word} (h : t.Has P) : (t.endTest d issues sig).Has P := by
  unfold State.endTest
  split
  · exact h
  · exact .ite h.showTest.onBist.sticky (.ite (h.showTest.onBist.wrB.onBist.when fun _ h => h.lower)
      (h.showTest.onBist.wrB.sticky.onBist.when fun _ h => h.raise))

theorem State.Has.cutTest {d : Nat} (h : t.Has P) : (t.cutTest d).Has P := by
  unfold State.cutTest
  exact .ite h h.freeW.endTest

theorem State.Has.opEngineYield {d : Nat} (h : t.Has P) : (opEngineYield d t).Has P := by
  unfold Machine.opEngineYield
  exact h.when fun _ h => h.cutTest

theorem State.Has.startSlot {d sl : Nat} (h : t.Has P) : (t.startSlot d sl).Has P := by
  unfold State.startSlot
  exact .ite h (.ite h.tickSlot.opEngineYield h.sticky)

theorem State.Has.leStop {d : Nat} (h : t.Has P) : (t.leStop d).Has P := by
  unfold State.leStop
  exact .each h.onDie fun _ _ _ h => h.when fun _ h => h.setCondition

theorem State.Has.opLeReset {d : Nat} (h : t.Has P) : (opLeReset d t).Has P := h

/-! #### What the operations of Machine/SecImage keep -/

theorem State.Has.onSec {d : Nat} {f : Sec → Sec} (h : t.Has P) : (t.onSec d f).Has P := h

theorem State.Has.imgPut {d : Nat} {x : ImgDest} {w : Word} (h : t.Has P) : (t.imgPut d x w).Has P := by
  unfold State.imgPut
  split
  · exact h.putCell
  · exact h.when fun _ h => h.dramWrite
  · exact h

theorem State.Has.imgZero {d : Nat} (h : t.Has P) : (t.imgZero d).Has P := by
  unfold State.imgZero
  dsimp only
  exact h.each fun _ _ _ h => by
      split
      · exact h.putCell
      · exact h.when fun _ h => h.dramWrite
      · exact h

theorem State.Has.imgEnd {d result : Nat} (h : t.Has P) : (t.imgEnd d result).Has P := by
  unfold State.imgEnd
  exact .when (.onSec (.sticky (.wr (.wr (h.when fun _ h => h.imgZero))))) fun _ h => h.onDie

theorem State.Has.opImgStart {d type : Nat} (h : t.Has P) : (opImgStart d type t).Has P := by
  unfold Machine.opImgStart
  split
  · exact h.sticky
  · extract_lets +onlyGivenNames _ t2
    have h2 : t2.Has P := .onSec (.wr (.wr (h.when fun _ h => h.imgEnd)))
    exact .ite h2.wr h2.imgEnd

theorem State.Has.opImgAbort {d : Nat} (h : t.Has P) : (opImgAbort d t).Has P := by
  unfold Machine.opImgAbort
  exact .ite h.imgEnd h

/-! #### What the operations of Machine/Device keep -/

theorem State.Has.reportState (h : t.Has P) : t.reportState.Has P := by
  unfold State.reportState
  exact .ite h h.setNodeField

theorem State.Has.setPermit (h : t.Has P) : t.setPermit.Has P := h

theorem State.Has.emptyLocal {d : Nat} (h : t.Has P) : (t.emptyLocal d).Has P := h

theorem State.Has.emptyPackage {d : Nat} (h : t.Has P) : (t.emptyPackage d).Has P := h

theorem State.Has.nimgEnd {d cause : Nat} (h : t.Has P) : (t.nimgEnd d cause).Has P := by
  unfold State.nimgEnd
  exact .ite h (.wrB (.wr (.onDie (h.each fun _ _ _ h => h.wrB.wr.wr))))

theorem State.Has.onSaf {ch : Nat} {f : Saf → Saf} (h : t.Has P) : (t.onSaf ch f).Has P := h

theorem State.Has.safetyOff (h : t.Has P) : t.safetyOff.Has P := by
  unfold State.safetyOff
  exact .each (.congr h rfl) fun _ _ _ h => h.wr.onSaf

theorem State.Has.safetyStart {ch : Nat} (h : t.Has P) : (t.safetyStart ch).Has P := by
  unfold State.safetyStart
  exact .onSaf (h.wr.wr.each fun _ _ _ h => h.wr.wr)

theorem State.Has.safetyTrip (h : t.Has P) : t.safetyTrip.Has P := by
  unfold State.safetyTrip
  exact h.each fun _ _ _ h => h.source

/-- A change of the device state: the package takes the state, and nothing of what follows touches its course. -/
theorem State.Has.enter {new : DevState} (h : P (t.course.enter new)) : (t.enter new).Has P := by
  unfold State.enter
  extract_lets +onlyGivenNames _ t1 _ _ _ _ t6 t7 t8
  have h1 : t1.Has P := h
  have h6 : t6.Has P := .when (.safetyTrip (.when (.when h1.sticky fun _ h => h.safetyOff) fun _ h => h.each
    fun _ _ _ h => h.safetyStart)) fun _ h => h.each fun _ _ _ h => h.nimgEnd.when fun _ h => h.imgEnd
  have h7 : t7.Has P := h6.when fun _ h => h.emptyLocal.emptyPackage
  have h8 : t8.Has P := .ite (h6.each fun _ _ _ h => h.onDie) (.ite h7.unblock h7.blockAll)
  exact h8.setPermit.reportState

theorem State.course_enter (s : State) (new : DevState) : (s.enter new).course = s.course.enter new :=
  State.Has.enter (P := (· = s.course.enter new)) rfl

/-- A latched fault leaves the package where it is or takes it to LOCKOUT. -/
theorem State.Has.lockOutDevice (h : t.Has P) (hl : ∀ l n, P (t.course.lockedOut l n)) : t.lockOutDevice.Has P := by
  unfold State.lockOutDevice
  split
  · split
    · exact h.setPermit
    · extract_lets +onlyGivenNames t1
      have h1 : t1.Has (· = t.course) := (State.Has.self t).each fun _ _ _ h => h.onDie
      have h2 := t1.course_enter .lockout
      rw [h1] at h2
      generalize t1.enter .lockout = t2 at h2 ⊢
      show P { t2.course with last := _, changes := _ }
      rw [h2]
      exact hl _ _
  · exact State.Has.enter (hl _ _)

/-! #### What the operations of Machine/Fault keep -/

theorem State.Has.overflow {d n : Nat} (h : t.Has P) : (t.overflow d n).Has P := by
  unfold State.overflow
  exact .ite h h.wrB.bump.sticky

theorem State.Has.writeRecord {d : Nat} {src lo hi : Fld} {r : Record} (h : t.Has P) : (t.writeRecord d src lo hi r).Has P := h

theorem State.Has.nodeLatch {arrived : List (Nat × Nat)} (h : t.Has P) (hl : ∀ l n, P (t.course.lockedOut l n)) :
    (t.nodeLatch arrived).Has P := by
  unfold State.nodeLatch
  extract_lets +onlyGivenNames _ _ t3
  have h3 : t3.reportState.Has (· = t.course) := .reportState (((State.Has.self t).dropManifests.blockAll.when
    fun _ h => h.onDie).when fun _ h => h.onRec)
  have h4 : t3.reportState.Has P := h.congr h3
  exact .ite (h4.lockOutDevice (h3 ▸ hl)) h4.setPermit

theorem State.Has.reportLate {arrived : List (Nat × Nat)} (h : t.Has P) : (t.reportLate arrived).Has P := by
  unfold State.reportLate
  exact h.when fun _ h => h.onDie

/-- A local record has been made, and a node acts on it. -/
theorem State.Has.latched {r : Record} {arr : List (Nat × Nat)} {b : List (Nat × Record)} (hu : u.Has (· = t.course)) (h : t.Has P)
    (hl : t.isHead = false → ∀ l n, P (t.course.lockedOut l n)) :
    (if u.isHead then { u with bus := b } else (u.writeRecord 0 Fd.FF_SRC.W Fd.FF_T_LO.W Fd.FF_T_HI.W r).nodeLatch arr).Has P := by
  have h1 : u.Has P := h.congr hu
  split
  · exact h1
  · next hn =>
    have hp : u.isHead = t.isHead := congrArg (fun c => c.part.isHead) hu
    have hw : (u.writeRecord 0 Fd.FF_SRC.W Fd.FF_T_LO.W Fd.FF_T_HI.W r).Has (· = t.course) := hu.writeRecord
    exact h1.writeRecord.nodeLatch (hw ▸ hl (by simpa [hp] using hn))

/-- What arrived meets the local latch; only on a node may that take the package to LOCKOUT. -/
theorem State.Has.opLocalLatch {d : Nat} (h : t.Has P) (hl : t.isHead = false → ∀ l n, P (t.course.lockedOut l n)) :
    (opLocalLatch d t).Has P := by
  unfold Machine.opLocalLatch
  extract_lets +onlyGivenNames _ t1
  have h1 : t1.Has P := h.onDie
  have hc : t1.Has (· = t.course) := rfl
  split
  · exact h1
  · exact .ite (.ite (.congr h1.writeRecord.overflow rfl) h1.writeRecord.overflow.writeRecord.reportLate)
      (.ite h1.overflow.reportLate (.latched hc.writeRecord.bump.sticky.overflow h hl))

theorem State.Has.wantBlock {d code ticks : Nat} (h : t.Has P) : (t.wantBlock d code ticks).Has P := by
  unfold State.wantBlock
  exact h.when fun _ h => h.onDie

theorem State.Has.react {r : Record} (h : t.Has P) (hl : ∀ l n, P (t.course.lockedOut l n)) : (t.react r).Has P := by
  unfold State.react
  extract_lets +onlyGivenNames _ t2
  have h2 : t2.Has (· = t.course) := ((State.Has.self t).each fun _ _ _ h => h.when fun _ h => h.wantBlock).when
    fun _ h => h.applyRearm.each fun _ _ _ h => h.when fun _ h => h.reactTrig
  have h3 : t2.Has P := h.congr h2
  exact .ite (h3.lockOutDevice (h2 ▸ hl)) h3.setPermit

theorem State.Has.opPackageRecord (h : t.Has P) (hl : ∀ l n, P (t.course.lockedOut l n)) : (opPackageRecord t).Has P := by
  unfold Machine.opPackageRecord
  extract_lets +onlyGivenNames _ t1 _
  have h1 : t1.Has P := h
  have hc : t1.Has (· = t.course) := rfl
  split
  · exact h1
  · extract_lets +onlyGivenNames _ t2
    have h2 : t2.Has (· = t.course) := hc.each fun _ _ _ h => h.writeRecord.sticky.overflow
    exact .ite (h1.each fun _ _ _ h => h.overflow) (.react (h.congr h2) (h2 ▸ hl))

/-- CLEAR leaves the package where it is, or takes it from LOCKOUT to STANDSTILL. -/
theorem State.Has.opClear {d : Nat} (h : t.Has P) (hs : t.device = .lockout → P (t.course.enter .standstill)) :
    (opClear d t).Has P := by
  unfold Machine.opClear
  split
  · exact h
  · split
    · exact h.sticky
    · extract_lets +onlyGivenNames t1
      have h1 : t1.Has (· = t.course) := (State.Has.self t).each
        fun _ _ _ h => h.emptyLocal.emptyPackage.onDie.wrB.wr
      split
      · next hc =>
        simp only [Bool.and_eq_true, decide_eq_true_eq] at hc
        exact .enter (h1 ▸ hs ((congrArg Course.device h1).symm.trans hc.1))
      · exact .setPermit (h.congr h1)

theorem State.Has.opFfReact {d : Nat} {value : Word} (h : t.Has P) : (opFfReact d value t).Has P := by
  unfold Machine.opFfReact
  exact .ite h (.ite h.sticky h.wr.wr)

/-! #### What the operations of Machine/Clock keep -/

theorem State.Has.onClk {d : Nat} {f : Clk → Clk} (h : t.Has P) : (t.onClk d f).Has P := h

theorem State.Has.untrust (h : t.Has P) : t.untrust.Has P := by
  unfold State.untrust
  exact .ite h.wrB.wr.sticky.dropManifests.blockAll.reportState h.wr

theorem State.Has.rephase {d : Nat} {second : Bool} (h : t.Has P) : (t.rephase d second).Has P := by
  unfold State.rephase
  exact h.wr.wrB.wrB.sticky

theorem State.Has.loseRef {k : Nat} {second : Bool} (h : t.Has P) : (t.loseRef k second).Has P := by
  unfold State.loseRef
  exact .ite h (.ite h.rephase.sticky h.onClk.wrB.wrB.sticky)

theorem State.Has.endHold {k : Nat} {second : Bool} (h : t.Has P) : (t.endHold k second).Has P := by
  unfold State.endHold
  exact .when (.when (.when (h.when fun _ h => h.onClk.wrB) fun _ h => h.onClk.wrB) fun _ h => h.rephase) fun _ h => h.untrust

theorem State.Has.opRefReturn {d : Nat} (h : t.Has P) : (opRefReturn d t).Has P := by
  unfold Machine.opRefReturn
  exact .ite (h.each fun _ _ _ h => h.rephase) h

theorem State.Has.lockBand {d : Nat} {tab : Fld → Fld} {lo hi : Nat} {cap lock : Fld} (h : t.Has P) :
    (t.lockBand d tab lo hi cap lock).Has P := by
  unfold State.lockBand
  dsimp only
  split
  · exact h.wrB.wr
  · exact h.wrB.freeN.wr.when fun _ h => h.sticky

theorem State.Has.lockTpll {d : Nat} (h : t.Has P) : (t.lockTpll d).Has P := h.lockBand

theorem State.Has.lockFpll {d : Nat} (h : t.Has P) : (t.lockFpll d).Has P := h.lockBand

theorem State.Has.forceOutputs {d : Nat} (h : t.Has P) : (t.forceOutputs d).Has P := h

theorem State.Has.opGate {d : Nat} {cause : LossCause} {last : Nat} (h : t.Has P) (hl : ∀ l n, P (t.course.lockedOut l n)) :
    (opGate d cause last t).Has P := by
  unfold Machine.opGate
  extract_lets +onlyGivenNames _ _ _ t4 t5
  have h4 : t4.Has (· = t.course) := (State.Has.self t).forceOutputs.wr.wr.wr.onDie.each fun _ _ _ h => h.onDie
  have h5 : t5.Has (· = t.course) := h4.each fun _ _ _ h => h.sticky.wantBlock
  have h6 : t5.Has P := h.congr h5
  exact .ite (h.congr h4) (.ite (.raise (h.congr h4)) (.ite h6 (h6.lockOutDevice (h5 ▸ hl))))

theorem State.Has.opFpllLoss {d : Nat} (h : t.Has P) : (opFpllLoss d t).Has P := by
  unfold Machine.opFpllLoss
  exact .ite (.dramLost (.allLinksDown (.congr h.onClk.wrB.wrB.sticky.raise rfl))) h.onClk.wrB.wrB.sticky.raise

theorem State.Has.opUpdate {d : Nat} (h : t.Has P) : (opUpdate d t).Has P := by
  unfold Machine.opUpdate
  exact .ite h.sticky h.onClk.wrB

theorem State.Has.applyUpdate {d : Nat} (h : t.Has P) : (t.applyUpdate d).Has P := by
  unfold State.applyUpdate
  split
  · exact h
  · exact h.onClk.wrB

theorem State.Has.nextTriangle {d : Nat} (h : t.Has P) : (t.nextTriangle d).Has P := by
  unfold State.nextTriangle
  split
  · exact h
  · exact .ite h h.onClk

theorem State.Has.detect {d : Nat} (h : t.Has P) : (t.detect d).Has P := by
  unfold State.detect
  exact h.nextTriangle.when fun _ h => h.onClk.applyUpdate

/-! #### What the operations of Machine/RingBlocks keep -/

theorem State.Has.onHead {d : Nat} {f : RingHead → RingHead} (h : t.Has P) : (t.onHead d f).Has P := h

theorem State.Has.onNode {f : RingNode → RingNode} (h : t.Has P) : (t.onNode f).Has P := h

theorem State.Has.judgeRoutes {d : Nat} (h : t.Has P) : (t.judgeRoutes d).Has P := by
  unfold State.judgeRoutes
  exact .source (h.when fun _ h => h.sticky)

theorem State.Has.setLink {d : Nat} {r : Ring} {k : Nat} {up : Bool} (h : t.Has P) : (t.setLink d r k up).Has P := by
  unfold State.setLink
  exact .ite h h.wrB.sticky.judgeRoutes

theorem State.Has.headIdle {d : Nat} {r : Ring} (h : t.Has P) : (t.headIdle d r).Has P := by
  unfold State.headIdle
  exact .ite h h.onHead

theorem State.Has.headTx {d : Nat} {r : Ring} {b : RingBlock} (h : t.Has P) : (t.headTx d r b).Has P := by
  unfold State.headTx
  exact h.headIdle.onHead

theorem State.Has.sendA {d kind : Nat} {payload : List Byte} (h : t.Has P) : (t.sendA d kind payload).Has P := by
  unfold State.sendA
  exact h.headTx.headTx.onHead

theorem State.Has.nodeTx {ring : Ring} {b : RingBlock} (h : t.Has P) : (t.nodeTx ring b).Has P := h

theorem State.Has.nodeReplace {ring : Ring} {b : RingBlock} (h : t.Has P) : (t.nodeReplace ring b).Has P := h

theorem State.Has.refuseRing {d : Nat} (h : t.Has P) : (t.refuseRing d).Has P := h.sticky.bump

theorem State.Has.submitRing {d port source kind : Nat} {cid : Byte} {blocks : List (List Byte × List Nat)} (h : t.Has P) :
    (t.submitRing d port source kind cid blocks).2.Has P := by
  unfold State.submitRing
  exact .iteSnd (.snd h.onHead) (.snd h.refuseRing)

theorem State.Has.queueBc {d n cls kind : Nat} {payload : List Byte} (h : t.Has P) : (t.queueBc d n cls kind payload).Has P := by
  unfold State.queueBc
  exact h.when fun _ h => h.onHead

theorem State.Has.onFront {d n cls : Nat} {f : BcBlock → BcBlock} (h : t.Has P) : (t.onFront d n cls f).Has P := h

theorem State.Has.closeBc {d : Nat} {b : BcBlock} (h : t.Has P) : (t.closeBc d b).Has P := h

theorem State.Has.discardBc {d : Nat} (h : t.Has P) : (t.discardBc d).Has P := by
  unfold State.discardBc
  exact .onHead (h.each fun _ _ _ h => h.closeBc)

theorem State.Has.headReceive {d : Nat} {ring : Ring} {b : RingBlock} (h : t.Has P) : (t.headReceive d ring b).2.Has P := h

theorem State.Has.nodeInsert {cls : Nat} (h : t.Has P) : (t.nodeInsert cls).Has P := by
  unfold State.nodeInsert
  split
  · exact .ite h h.nodeReplace.onNode
  · exact h

/-! #### What the operations of Machine/RingLink keep -/

theorem State.Has.insertAlert {r : Ring} {b : RingBlock} (h : t.Has P) : (t.insertAlert r b).2.Has P := by
  unfold State.insertAlert
  dsimp only
  split
  · exact .snd h
  · split
    · exact .snd h
    · exact .snd h.onNode

theorem State.Has.insertAck {r : Ring} {b : RingBlock} (h : t.Has P) : (t.insertAck r b).2.Has P := by
  unfold State.insertAck
  split
  · exact .snd h
  · split
    · exact .snd h
    · exact .snd h.onNode

theorem State.Has.sendBreak {r : Ring} (h : t.Has P) : (t.sendBreak r).Has P := by
  unfold State.sendBreak
  exact .ite h h.insertAlert.insertAck.nodeTx

theorem State.Has.openSlots (h : t.Has P) : t.openSlots.Has P := by
  unfold State.openSlots
  exact .ite h (.ite (h.each fun _ _ _ h => h.headIdle.headIdle) h.sendBreak.sendBreak)

theorem State.Has.opRingLinkUp {d : Nat} {r : Ring} (h : t.Has P) : (opRingLinkUp d r t).Has P := by
  unfold Machine.opRingLinkUp
  exact .ite h.onHead h.onNode

theorem State.Has.opRingLinkDown {d : Nat} {r : Ring} (h : t.Has P) : (opRingLinkDown d r t).Has P := by
  unfold Machine.opRingLinkDown
  exact .ite h.onHead.setLink h.onNode.sendBreak

theorem State.Has.opRingBreak {d : Nat} {r : Ring} {k : Nat} (h : t.Has P) : (opRingBreak d r k t).Has P := by
  unfold Machine.opRingBreak
  exact h.onHead.setLink

theorem State.Has.opRingBreakClear {d : Nat} {r : Ring} {k : Nat} (h : t.Has P) : (opRingBreakClear d r k t).Has P := by
  unfold Machine.opRingBreakClear
  exact h.onHead.setLink

theorem State.Has.opAlert {d : Nat} {b : RingBlock} (h : t.Has P) : (opAlert d b t).Has P := by
  unfold Machine.opAlert
  exact .ite h h.onHead.stick.sticky.arrive

/-! #### What the operations of Machine/RingTime keep -/

theorem State.Has.moveTime {e : Int} (h : ∀ m n, P { t.course with movedAt := m, td0 := n }) : (t.moveTime e).Has P := h _ _

theorem State.Has.applyAdjust (h : ∀ m n, P { t.course with movedAt := m, td0 := n }) : t.applyAdjust.Has P := by
  have h0 : t.Has P := h t.movedAt t.td0
  unfold State.applyAdjust
  split
  · exact h0
  · refine .ite h0 ?_
    extract_lets +onlyGivenNames t1
    have h1 : t1.Has P := .moveTime h
    exact .ite h1.onNode.untrust.wr h1

theorem State.Has.opSyncSend {d : Nat} (h : t.Has P) : (opSyncSend d t).Has P := by
  unfold Machine.opSyncSend
  exact h.onHead.sendA

theorem State.Has.opDelaySend {d : Nat} (h : t.Has P) : (opDelaySend d t).Has P := by
  unfold Machine.opDelaySend
  exact h.onHead.sendA

theorem State.Has.opDelayReturn {d : Nat} {la lb : Option Nat} (h : t.Has P) : (opDelayReturn d la lb t).Has P := by
  unfold Machine.opDelayReturn
  split
  · exact h
  · dsimp only
    split
    · exact h.onHead.wr.wr
    · exact h.onHead

theorem State.Has.opStateSend {d : Nat} (h : t.Has P) : (opStateSend d t).Has P := by
  unfold Machine.opStateSend
  split
  · exact h
  · exact h.onHead.sendA

theorem State.Has.opBlockSend {d : Nat} (h : t.Has P) : (opBlockSend d t).Has P := by
  unfold Machine.opBlockSend
  split
  · exact h
  · exact .sendA (.onHead (h.when fun _ h => h.onHead))

theorem State.Has.opEnumReturn {d : Nat} {ca cb : Option (Nat × Nat)} (h : t.Has P) : (opEnumReturn d ca cb t).Has P := by
  unfold Machine.opEnumReturn
  dsimp only
  split
  · exact .ite h.onHead.wr.judgeRoutes h.onHead.sticky
  · exact h.onHead.sticky

/-! #### What the operations of Machine/RingMsg keep -/

theorem State.Has.opContext {d n field : Nat} {v : BitVec 16} (h : t.Has P) : (opContext d n field v t).Has P := by
  unfold Machine.opContext
  exact .ite (.ite h.putCtx.onHead h) (.ite h.setNodeField h)

theorem State.Has.nimgLeave {d ws : Nat} (h : t.Has P) : (t.nimgLeave d ws).Has P := by
  unfold State.nimgLeave
  exact .ite (.wrB (.wr h.onDie)) h.onDie

theorem State.Has.nimgFail {d ws cause : Nat} (h : t.Has P) : (t.nimgFail d ws cause).Has P := by
  unfold State.nimgFail
  exact .ite h h.wrB.wr.wr.onHead.nimgLeave

theorem State.Has.linesOk {d at_ n : Nat} {fails : List (Nat × Bool)} (h : t.Has P) : (t.linesOk d at_ n fails).2.Has P := by
  unfold State.linesOk
  dsimp only
  split
  · exact h.lineRead
  · exact h.lineRead.lineRead

theorem State.Has.nimgQueue {d ws : Nat} {fails : List (Nat × Bool)} (h : t.Has P) : (t.nimgQueue d ws fails).Has P := by
  unfold State.nimgQueue
  split
  · exact h
  · exact .ite h.linesOk.nimgFail (h.linesOk.wr.queueBc.onDie)

theorem State.Has.opNimgGo {d : Nat} (h : t.Has P) : (opNimgGo d t).Has P := by
  unfold Machine.opNimgGo
  exact .ite h.wr (.ite h.wr.wr.wr.wr (.each (h.wr.wr.wr.wr.wrB.onDie)
    fun _ _ _ h => .ite h.nimgQueue h.nimgFail))

theorem State.Has.nimgAnswer {d ws w : Nat} (h : t.Has P) : (t.nimgAnswer d ws w).Has P := by
  unfold State.nimgAnswer
  split
  · exact h
  · exact .ite h.onDie (.ite h.wr.nimgFail (.ite h.wr.wrB.nimgLeave (h.wr.onDie)))

theorem State.Has.startRemote {d : Nat} (h : t.Has P) : (t.startRemote d).Has P := by
  unfold State.startRemote
  split
  · exact h
  · exact h.queueBc

theorem State.Has.tellRemote {d : Nat} {r : Remote} {ok : Bool} {data : Nat} (h : t.Has P) : (t.tellRemote d r ok data).Has P := by
  unfold State.tellRemote
  exact .ite (.when (h.wr.when fun _ h => h.sticky) fun _ h => h.wr) (.ite h (.ite h.nimgAnswer h.nimgFail))

theorem State.Has.endRemote {d : Nat} {ok : Bool} {data : Nat} (h : t.Has P) : (t.endRemote d ok data).Has P := by
  unfold State.endRemote
  split
  · exact h
  · exact h.onHead.tellRemote.startRemote

theorem State.Has.askRemote {d : Nat} {r : Remote} (h : t.Has P) : (t.askRemote d r).Has P := by
  unfold State.askRemote
  exact .ite h.tellRemote (.when (h.onHead.when fun _ h => h.wr) fun _ h => h.startRemote)

theorem State.Has.opRemote {d n : Nat} {write : Bool} (h : t.Has P) : (opRemote d n write t).Has P := by
  unfold Machine.opRemote
  exact .ite h h.askRemote

theorem State.Has.opRegRsp {d : Nat} {ring : Ring} {b : RingBlock} (h : t.Has P) : (opRegRsp d ring b t).Has P := by
  unfold Machine.opRegRsp
  dsimp only
  split
  · exact h.headReceive
  · split
    · exact .ite h.headReceive.endRemote h.headReceive
    · exact h.headReceive

theorem State.Has.opNimgPoll {d n : Nat} {fails : List (Nat × Bool)} (h : t.Has P) : (opNimgPoll d n fails t).Has P := by
  unfold Machine.opNimgPoll
  split
  · exact h
  · exact .ite h.nimgQueue (.ite (.askRemote h.onDie) h)

theorem State.Has.opNeighbour {d n : Nat} (h : t.Has P) : (opNeighbour d n t).Has P := by
  unfold Machine.opNeighbour
  exact h.askRemote.onHead

theorem State.Has.formCtx {d n : Nat} (h : t.Has P) : (t.formCtx d n).Has P := by
  unfold State.formCtx
  exact .ite h h.onHead.queueBc

theorem State.Has.sendFront {d n cls : Nat} {r : Ring} (h : t.Has P) : (t.sendFront d n cls r).Has P := by
  unfold State.sendFront
  split
  · exact h.onFront.headTx
  · exact h

theorem State.Has.opBcSend {d n : Nat} (h : t.Has P) : (opBcSend d n t).Has P := by
  unfold Machine.opBcSend
  split
  · exact h
  · split
    · exact h
    · exact .ite h.formCtx.sendFront h

theorem State.Has.dropBc {d : Nat} {b : BcBlock} (h : t.Has P) : (t.dropBc d b).Has P := by
  unfold State.dropBc
  exact .ite h.closeBc.sticky.bump.nimgFail (.ite h.closeBc.sticky.bump.stick (.ite h.closeBc.sticky.bump.endRemote h.closeBc.sticky.bump))

theorem State.Has.resend {d : Nat} {b : BcBlock} (h : t.Has P) : (t.resend d b).Has P := by
  unfold State.resend
  exact .ite h.dropBc h.onFront

theorem State.Has.acked {d : Nat} {b : BcBlock} (h : t.Has P) : (t.acked d b).Has P := by
  unfold State.acked
  extract_lets +onlyGivenNames t1
  have h1 : t1.Has P := h.closeBc
  split
  · split
    · exact .ite h1.nimgQueue h1
    · exact h1
  · exact .ite h1.onHead h1

theorem State.Has.opHeadAck {d : Nat} {ack : BitVec 16} (h : t.Has P) : (opHeadAck d ack t).Has P := by
  unfold Machine.opHeadAck
  dsimp only
  split
  · exact h
  · exact .ite h (.ite (.ite h.acked h) (.ite h.resend h))

theorem State.Has.nodeClose {b : BcBlock} (h : t.Has P) : (t.nodeClose b).Has P := h

theorem State.Has.nodeResend {b : BcBlock} (h : t.Has P) : (t.nodeResend b).Has P := by
  unfold State.nodeResend
  exact .ite h.nodeClose.sticky.bump h.onNode

theorem State.Has.opNodeAck {ack : BitVec 16} (h : t.Has P) : (opNodeAck ack t).Has P := by
  unfold Machine.opNodeAck
  dsimp only
  split
  · exact h
  · exact .ite h (.ite (.ite h.nodeClose h) (.ite h.nodeResend h))

theorem State.Has.opCtxData {d : Nat} {ring : Ring} {b : RingBlock} (h : t.Has P) : (opCtxData d ring b t).Has P := by
  unfold Machine.opCtxData
  exact .ite (h.headReceive.each fun _ _ _ h => h.when fun _ h => h.putCtx) h.headReceive

theorem State.Has.opCaravanBlockSend {d : Nat} (h : t.Has P) : (opCaravanBlockSend d t).Has P := by
  unfold Machine.opCaravanBlockSend
  split
  · exact h.onHead.sendA
  · exact h.onHead.sendA

theorem State.Has.opFinalise {d : Nat} {c : Caravan} {results : List Word} (h : t.Has P) : (opFinalise d c results t).Has P := by
  unfold Machine.opFinalise
  exact .ite h.onHead.wr.wr.wr.wr (h.onHead.wr.wr.wr.wr.sticky.each fun _ _ _ h => h.stick)

theorem State.Has.opCapture {d : Nat} {ring : Ring} {b : RingBlock} (h : t.Has P) : (opCapture d ring b t).Has P := by
  unfold Machine.opCapture
  exact .ite h.headReceive.storeCapture h.headReceive

theorem State.Has.modeChange {d old new : Nat} (h : t.Has P) : (t.modeChange d old new).Has P := by
  unfold State.modeChange
  exact .when (.when (.when (.when (h.nimgEnd.when fun _ h => h.discardBc.onHead.each fun _ _ _ h => h.endRemote)
    fun _ h => h.onHead) fun _ h => h.onHead) fun _ h => h.each fun _ _ _ h => h.setLink.setLink) fun _ h => h.onHead

theorem State.Has.opMode {d mode : Nat} (h : t.Has P) : (opMode d mode t).Has P := by
  unfold Machine.opMode
  exact .ite h.wr h.wr.modeChange

theorem State.Has.opRres {d i : Nat} {value : Word} (h : t.Has P) : (opRres d i value t).Has P := by
  unfold Machine.opRres
  exact .ite h.sticky (.ite h.sticky h.putCell)

theorem State.Has.opRingReset {d : Nat} (h : t.Has P) : (opRingReset d t).Has P := by
  unfold Machine.opRingReset
  exact .ite h.discardBc.onHead.opMode (.onNode (.when (h.each fun _ _ _ h => h.nodeClose) fun _ h => h.onRec))

theorem State.Has.opRingEn {on : Bool} (h : t.Has P) : (opRingEn on t).Has P := by
  unfold Machine.opRingEn
  exact .ite h (.ite (.ite h.onNode h.onNode.sticky.dropManifests.blockAll.reportState) h.wrB.lower.onNode.unblock.reportState)

/-! #### What the operations of Machine/LoopEnd keep -/

theorem State.Has.releaseRemote {d slot : Nat} {outs : List (OutDest × BitVec 16)} (h : t.Has P) :
    (t.releaseRemote d slot outs).Has P := by
  unfold State.releaseRemote
  exact h.each fun _ _ _ h => h.submitTo

theorem State.Has.releaseRing {d slot : Nat} {outs : List (OutDest × BitVec 16)} (h : t.Has P) :
    (t.releaseRing d slot outs).Has P := by
  unfold State.releaseRing
  exact .ite h (.ite h.refuseRing (.ite (h.submitRing.each fun _ _ _ h => h.putCtx) h.submitRing))

theorem State.Has.releaseNode {outs : List (OutDest × BitVec 16)} (h : t.Has P) : (t.releaseNode outs).Has P := by
  unfold State.releaseNode
  exact h.each fun _ _ _ h => by
      split
      · exact h.when fun _ h => h.setNodeField
      · exact h

theorem State.Has.releaseLocal {d : Nat} {outs : List (OutDest × BitVec 16)} (h : t.Has P) : (t.releaseLocal d outs).Has P := by
  unfold State.releaseLocal
  exact h.each fun _ _ _ h => by
      split
      · exact h.spPend
      · exact h.wr
      · exact h

theorem State.Has.runEnds {d e i : Nat} {x : Inst} (h : t.Has P) : (t.runEnds d e i x).Has P := by
  unfold State.runEnds
  exact h.wr.wr.setCondition.onInst

theorem State.Has.release {d e i : Nat} (h : t.Has P) : (t.release d e i).Has P := by
  unfold State.release
  exact .runEnds (.ite h.releaseLocal.releaseRemote.releaseRing h.releaseLocal.releaseRemote.releaseNode)

theorem State.Has.commit {d : Nat} {t' : Store} (h : t.Has P) : (t.commit d t').Has P := by
  unfold State.commit
  exact .ite h h.putCell

theorem State.Has.leComplete (h : t.Has P) : t.leComplete.Has P := by
  unfold State.leComplete
  exact .each (h.each fun _ _ _ h => h.misuse) fun _ _ _ h => .each (.onDie (h.each fun _ _ _ h => h.commit)) fun _ _ _ h => h.release

/-! #### What the operations of Machine/Planner keep -/

theorem State.Has.onEp {d : Nat} {f : Ep → Ep} (h : t.Has P) : (t.onEp d f).Has P := h

theorem State.Has.judgeRole {d : Nat} (h : t.Has P) : (t.judgeRole d).Has P := by
  unfold State.judgeRole
  exact h.when fun _ h => h.sticky

theorem State.Has.takeCfg {d : Nat} (h : t.Has P) : (t.takeCfg d).Has P := h

theorem State.Has.copyRefs {d : Nat} (h : t.Has P) : (t.copyRefs d).Has P := by
  unfold State.copyRefs
  exact h.each fun _ _ _ h => h.wr

theorem State.Has.fromBlock {d : Nat} {p : Nat → Bool} (h : t.Has P) : (t.fromBlock d p).Has P := h

theorem State.Has.askPlan {d : Nat} {r : PReq} (h : t.Has P) : (t.askPlan d r).Has P := by
  unfold State.askPlan
  exact .ite (.onEp (h.when fun _ h => h.sticky)) (.onEp (h.when fun _ h => h.sticky))

theorem State.Has.memberSend {d : Nat} (h : t.Has P) : (t.memberSend d).Has P := by
  unfold State.memberSend
  exact .ite h h.submitTo.submitTo

theorem State.Has.opSwapRefs {d : Nat} {cmp : Option (Int × Int)} (h : t.Has P) : (opSwapRefs d cmp t).Has P := by
  unfold Machine.opSwapRefs
  split
  · exact h
  · extract_lets +onlyGivenNames _ t2
    have h2 : t2.Has P := h.copyRefs.judgeRole.when fun _ h => h.takeCfg
    split
    · split
      · exact .fromBlock (h2.each fun _ _ _ h => h.wr)
      · split
        · exact h2.askPlan
        · exact h2
    · exact h2.memberSend
    · exact h2

theorem State.Has.takeMembers {d : Nat} (h : t.Has P) : (t.takeMembers d).Has P := by
  unfold State.takeMembers
  exact h.when fun _ h => h.sticky

theorem State.Has.pattern {d e : Nat} {fails : List (Nat × Bool)} (h : t.Has P) : (t.pattern d e fails).2.Has P := by
  unfold State.pattern
  extract_lets +onlyGivenNames _ _ lines r
  have hr : r.2.Has P := .foldl (p := Prod.snd) h fun _ _ h => h.lineRead
  exact .iteSnd hr hr

theorem State.Has.chooseEntry {d : Nat} {sq sh a : Int} {n : Nat} {fails : List (Nat × Bool)} (h : t.Has P) :
    (t.chooseEntry d sq sh a n fails).Has P := by
  unfold State.chooseEntry
  extract_lets +onlyGivenNames _ cand put
  have hput : ∀ v e p, v.Has P → (put v e p).Has P := fun _ _ _ h => h.wr.wr.onEp
  clear_value put cand
  cases cand with
  | none => exact h
  | some e =>
    refine .ite h ?_
    dsimp only
    split
    · exact h.pattern.sticky
    · exact hput _ _ _ h.pattern
    · exact .ite (hput _ _ _ h.pattern) h.pattern

theorem State.Has.plan {d : Nat} {q : PReq} {fails : List (Nat × Bool)} (h : t.Has P) : (t.plan d q fails).Has P := by
  unfold State.plan
  extract_lets +onlyGivenNames _ _ _ _ _ _ _ _ _ _ _ _ _ _ _ _ _ nls _ s2 _ out outs
  have hout : out.2.2.Has P := by
    unfold out
    split
    · exact h
    · split
      · exact h
      · have h2 : s2.Has P := h.chooseEntry
        split
        · exact h2
        · exact h2
      · exact h
  exact .onEp (hout.each fun _ _ _ h => h.wr.wr)

theorem State.Has.opPlanStart {d : Nat} {fails : List (Nat × Bool)} (h : t.Has P) : (opPlanStart d fails t).Has P := by
  unfold Machine.opPlanStart
  split
  · exact h
  · exact .ite h (.ite h.judgeRole.takeCfg.onEp h.judgeRole.takeCfg.onEp.takeMembers.plan)

theorem State.Has.opPlanEnd {d : Nat} (h : t.Has P) : (opPlanEnd d t).Has P := by
  unfold Machine.opPlanEnd
  split
  · exact h
  · extract_lets +onlyGivenNames _ _ _ t3
    have h3 : t3.Has P := h.wr.wr.bumpMod.wr.each fun _ _ _ h => by
      split
      · exact h.wr.wr
      · exact h.wr
    dsimp only
    exact .onEp (by
        split
        · exact .when (.wr (.sticky (h3.when fun _ h => h.sticky))) fun _ h => h.pulse
        · exact h3.when fun _ h => h.sticky)

theorem State.Has.opManifestTransfer {d r : Nat} (h : t.Has P) : (opManifestTransfer d r t).Has P := by
  unfold Machine.opManifestTransfer
  split
  · exact h
  · exact .ite h h.submitTo.onEp

theorem State.Has.memberTake {d : Nat} {t' : MTransfer} (h : t.Has P) : (t.memberTake d t').Has P := h

theorem State.Has.plannerTake {d src : Nat} {f : Member → Member} (h : t.Has P) : (t.plannerTake d src f).Has P := by
  unfold State.plannerTake
  split
  · exact h
  · exact h.onEp

theorem State.Has.opDeliver {d : Nat} {x : FabXfer} (h : t.Has P) : (opDeliver d x t).Has P := by
  unfold Machine.opDeliver
  split
  · exact h.each fun _ _ _ h => h.when fun _ h => h.spPend
  · exact h.judgeRole.plannerTake
  · exact h.judgeRole.plannerTake
  · exact h.judgeRole.when fun _ h => h.memberTake
  · exact h.onDie
  · exact h.onDie
  · exact h

theorem State.Has.notSent {d : Nat} (h : t.Has P) : (t.notSent d).Has P := h

theorem State.Has.missed {d : Nat} {bit : Sticky} (h : t.Has P) : (t.missed d bit).Has P := by
  unfold State.missed
  exact .notSent (h.sticky.bump.when fun _ h => h.pulse)

theorem State.Has.enterCaravan {d blocks last : Nat} {addr : Word} (h : t.Has P) : (t.enterCaravan d blocks last addr).Has P := h

theorem State.Has.emitPlan {d entry : Nat} {p : Plan} (h : t.Has P) : (t.emitPlan d entry p).Has P := by
  unfold State.emitPlan
  dsimp only
  split
  · exact h.notSent
  · split
    · exact h.missed
    · split
      · exact h.sticky.notSent
      · split
        · exact h.fromBlock.submitRing.enterCaravan
        · exact h.fromBlock.submitRing.notSent

theorem State.Has.emitNewest {d entry : Nat} (h : t.Has P) : (t.emitNewest d entry).Has P := by
  unfold State.emitNewest
  split
  · exact h
  · split
    · exact h.missed
    · exact .emitPlan (h.onEp.when fun _ h => h.sticky.notSent)

theorem State.Has.emitHost {d entry b : Nat} (h : t.Has P) : (t.emitHost d entry b).Has P := by
  unfold State.emitHost
  dsimp only
  split
  · exact h
  · split
    · exact h
    · split
      · exact h.sticky
      · split
        · exact h.submitRing.enterCaravan
        · exact h.submitRing

theorem State.Has.opEmit {d i arg : Nat} (h : t.Has P) : (opEmit d i arg t).Has P := by
  unfold Machine.opEmit
  exact .ite h (.ite h.emitNewest (.ite h.emitHost h.sticky))

theorem State.Has.opEpReset {d : Nat} (h : t.Has P) : (opEpReset d t).Has P := h

/-! #### What the operations of Machine/Milestone keep -/

theorem State.Has.msSwap {d i : Nat} (h : t.Has P) : (t.msSwap d i).Has P := by
  unfold State.msSwap
  exact .ite h.fired.swapSet h.fired.opSwapRefs

theorem State.Has.msMark {d i : Nat} (h : t.Has P) : (t.msMark d i).Has P := by
  unfold State.msMark
  exact h.fired.when fun _ h => h.ledgerMark

theorem State.Has.msFire {d i : Nat} (h : t.Has P) : (t.msFire d i).Has P := by
  unfold State.msFire
  split
  · exact h.fired.startSlot
  · exact h.fired.opEmit
  · exact h.msSwap
  · exact h.msMark
  · exact h.fired.msPin
  · exact h.fired

theorem State.Has.msLatch {d : Nat} {is : List Nat} (h : t.Has P) : (t.msLatch d is).Has P := by
  unfold State.msLatch
  exact .when (h.each fun _ _ _ h => h.fired) fun _ h => h.latchGroups

theorem State.Has.opMilestones {d : Nat} (h : t.Has P) : (opMilestones d t).Has P := by
  unfold Machine.opMilestones
  exact .each (.each (.each (.each (.msLatch (h.each fun _ _ _ h => h.msFire)) fun _ _ _ h => h.msFire)
    fun _ _ _ h => h.msFire) fun _ _ _ h => h.msFire) fun _ _ _ h => h.msFire

/-! #### What the operations of Machine/Net keep -/

theorem State.Has.onNet {d : Nat} {f : Net → Net} (h : t.Has P) : (t.onNet d f).Has P := h

theorem State.Has.txFrame {d : Nat} {t' : NetTx} {tag : Bool} {red : optParam (Option RedTag) none} (h : t.Has P) :
    (t.txFrame d t' tag red).Has P := by
  unfold State.txFrame
  exact h.when fun _ h => h.onNet

theorem State.Has.sendFrame {d : Nat} {t' : NetTx} (h : t.Has P) : (t.sendFrame d t').Has P := by
  unfold State.sendFrame
  exact .ite h.txFrame (.onNet (h.each fun _ _ _ h => h.txFrame))

theorem State.Has.setPtpState {d st : Nat} (h : t.Has P) : (t.setPtpState d st).Has P := h

theorem State.Has.netDown {d : Nat} (h : t.Has P) : (t.netDown d).Has P := by
  unfold State.netDown
  exact h.wrB.setPtpState.when fun _ h => h.sticky

theorem State.Has.opMdio {write : Bool} {phy reg : BitVec 5} {data : BitVec 16} (h : t.Has P) :
    (opMdio write phy reg data t).Has P := by
  unfold Machine.opMdio
  exact .ite h h.wrB.onNet

theorem State.Has.dropCopy {f : EthFrame} (h : t.Has P) : (t.dropCopy f).Has P := h

theorem State.Has.duplicate {d : Nat} {f : EthFrame} (h : t.Has P) : (t.duplicate d f).2.Has P := by
  unfold State.duplicate
  split
  · exact .snd h
  · split
    · exact .snd h.onNet
    · split
      · exact .snd h.onNet.bump.dropCopy
      · exact .snd h.bump

theorem State.Has.keepFrame {d : Nat} {h' : Handler} {f : EthFrame} (h : t.Has P) : (t.keepFrame d h' f).Has P := by
  unfold State.keepFrame
  dsimp only
  exact h.duplicate.when fun _ h => by
      split
      · exact .ite h.onNet (h.when fun _ h => h.launch)
      · exact h.onNet

theorem State.Has.onWall {n : Nat} {f : Wall → Wall} (h : t.Has P) : (t.onWall n f).Has P := h

theorem State.Has.changeTrim {n : Nat} {v : Int} (h : t.Has P) : (t.changeTrim n v).Has P := by
  unfold State.changeTrim
  exact .submitWall (h.when fun _ h => h.sticky)

theorem State.Has.showHold (h : t.Has P) : t.showHold.Has P := by
  unfold State.showHold
  exact h.wr.source

theorem State.Has.openQuot {num den : Int} (h : t.Has P) : (t.openQuot num den).2.Has P := by
  unfold State.openQuot
  split
  · exact .snd h
  · exact .snd h.freeN

theorem State.Has.enterHold {n : Nat} (h : t.Has P) : (t.enterHold n).Has P := h.onWall.sticky.showHold

theorem State.Has.servo {n : Nat} {o : Int} (h : t.Has P) : (t.servo n o).Has P := by
  unfold State.servo
  extract_lets +onlyGivenNames _ _ t3
  have h3 : t3.Has P := .showHold (.onWall (h.when fun _ h => h.enterHold))
  exact .ite h3.openQuot.wrS.onWall (.ite h3.openQuot.wrS.onWall.submitWall.sticky h3.openQuot.wrS.onWall.openQuot.changeTrim)

theorem State.Has.hostStep {n : Nat} {rel : Bool} (h : t.Has P) : (t.hostStep n rel).Has P := by
  unfold State.hostStep
  exact .sticky (.submitWall (.onWall (.ite (.onWall (.congr h rfl)) h)))

theorem State.Has.opTdCtrl {n : Nat} {value : Word} (h : t.Has P) : (opTdCtrl n value t).Has P := by
  unfold Machine.opTdCtrl
  exact .when (h.when fun _ h => h.wr.onWall.showHold) fun _ h => h.hostStep

theorem State.Has.opTdTrim {n : Nat} {value : Word} (h : t.Has P) : (opTdTrim n value t).Has P := by
  unfold Machine.opTdTrim
  exact .ite h.changeTrim h

theorem State.Has.reportGm {a : Announce} (h : t.Has P) : (t.reportGm a).Has P := by
  unfold State.reportGm
  exact h.wr.wr.wr.wr.when fun _ h => h.sticky

theorem State.Has.bmca {timed : Option Nat} (h : t.Has P) : (t.bmca timed).Has P := by
  unfold State.bmca
  dsimp only
  split
  · split
    · exact .reportGm (h.each fun _ _ _ h => h.setPtpState)
    · exact h.each fun _ _ _ h => h.setPtpState
  · exact h.each fun _ _ _ h => h.setPtpState

theorem State.Has.expireAnnounce {d : Nat} (h : t.Has P) : (t.expireAnnounce d).Has P := by
  unfold State.expireAnnounce
  exact .ite h.onNet.bmca h

theorem State.Has.takeSync {d : Nat} {trip : Int} (h : t.Has P) : (t.takeSync d trip).Has P := by
  unfold State.takeSync
  dsimp only
  split
  · exact h.onNet.servo
  · exact h.onNet

theorem State.Has.takeDelay {d : Nat} {twice : Int} (h : t.Has P) : (t.takeDelay d twice).Has P := by
  unfold State.takeDelay
  exact h.onNet.when fun _ h => h.openQuot.wrS

theorem State.Has.opPtp {d fine : Nat} {m : PtpMsg} (h : t.Has P) : (opPtp d fine m t).Has P := by
  unfold Machine.opPtp
  dsimp only
  split
  · exact .ite h (.ite h.onNet h.takeSync)
  · split
    · exact .ite h.takeSync h
    · exact h
  · exact h.onNet.bmca
  · exact h.when fun _ h => h.txFrame
  · split
    · exact .ite h (.ite h.onNet h.takeDelay)
    · exact h
  · split
    · exact .ite h.takeDelay h
    · exact h
  · exact h.when fun _ h => h.txFrame
  · split
    · exact .ite h.takeDelay h
    · exact h
  · exact h

theorem State.Has.ppsTick (h : t.Has P) : t.ppsTick.Has P := by
  unfold State.ppsTick
  split
  · exact h.onNet
  · exact h

theorem State.Has.opPpsCfg (h : t.Has P) : (opPpsCfg t).Has P := by
  unfold Machine.opPpsCfg
  exact .ite (.onNet (.congr h rfl)) h

theorem State.Has.discStep (h : t.Has P) : t.discStep.Has P := by
  unfold State.discStep
  exact .ite (h.when fun _ h => h.sticky) (.each (.congr (.when (.wrB (.wrS (h.when fun _ h => h.sticky)))
    fun _ h => h.sticky) rfl) fun _ _ _ h => h.onDie)

theorem State.Has.opNetReset {d : Nat} (h : t.Has P) : (opNetReset d t).Has P := by
  unfold Machine.opNetReset
  exact .ite h.setPtpState.onNet (h.setPtpState.onNet.each fun _ _ _ h => h.onWall)

/-! #### What the operations of Machine/SafetyFn keep -/

theorem State.Has.safFault {ch : Nat} {k : Sticky} {cause place : Nat} (h : t.Has P) : (t.safFault ch k cause place).Has P :=
  h.sticky.onSaf

theorem State.Has.lockOut {ch : Nat} {f : SafFault} (h : t.Has P) : (t.lockOut ch f).Has P := by
  unfold State.lockOut
  exact .ite h h.wrB.wr.wr.sticky

theorem State.Has.setBall {ch j : Nat} {b : Bool} (h : t.Has P) : (t.setBall ch j b).Has P := by
  unfold State.setBall
  exact .ite h (.onSaf (.congr h rfl))

theorem State.Has.outputsOff {ch : Nat} (h : t.Has P) : (t.outputsOff ch).Has P := by
  unfold State.outputsOff
  exact .ite (.congr (h.wr.onSaf.each fun _ _ _ h => h.setBall) rfl) (h.wr.onSaf.each fun _ _ _ h => h.setBall)

theorem State.Has.noteView {ch : Nat} (h : t.Has P) : (t.noteView ch).Has P := h

theorem State.Has.settlePair {ch f : Nat} {hand2 : Bool} (h : t.Has P) : (t.settlePair ch f hand2).Has P := by
  unfold State.settlePair
  dsimp only
  split
  · exact .ite h.onSaf h
  · exact h

theorem State.Has.judgePair {ch f : Nat} {hand2 : Bool} (h : t.Has P) : (t.judgePair ch f hand2).Has P := by
  unfold State.judgePair
  dsimp only
  split
  · exact .ite h.safFault.onSaf h
  · exact h

theorem State.Has.trackPair {ch f : Nat} {hand2 : Bool} (h : t.Has P) : (t.trackPair ch f hand2).Has P := by
  unfold State.trackPair
  exact .ite h.settlePair.onSaf (.ite h.settlePair.onSaf h.settlePair.judgePair)

theorem State.Has.askReset {ch : Nat} (h : t.Has P) : (t.askReset ch).Has P := by
  unfold State.askReset
  exact .ite h h.onSaf

theorem State.Has.answerReset {ch : Nat} (h : t.Has P) : (t.answerReset ch).Has P := by
  unfold State.answerReset
  exact .ite h.onSaf h.sticky

theorem State.Has.resetPulse {ch f : Nat} {up : Bool} (h : t.Has P) : (t.resetPulse ch f up).Has P := by
  unfold State.resetPulse
  split
  · exact h.onSaf
  · split
    · exact h
    · exact .ite h.onSaf.sticky (.ite (h.onSaf.onSaf.when fun _ h => h.askReset) (h.onSaf.when fun _ h => h.sticky))

theorem State.Has.opInput {ch : Nat} {fb : Bool} {i : Nat} {levels : List (Bool × Nat)} (h : t.Has P) :
    (opInput ch fb i levels t).Has P := by
  unfold Machine.opInput
  extract_lets +onlyGivenNames _ _ _ _ _ _ t3
  have h3 : t3.Has P := .noteView (h.wrB.onSaf.when fun _ h => h.wrB)
  split
  · exact h3
  · extract_lets +onlyGivenNames t4
    have h4 : t4.Has P := h3.each fun _ _ _ h => h.trackPair.trackPair
    exact .ite h4 (h4.each fun _ _ _ h => h.resetPulse)

theorem State.Has.driveTp (h : t.Has P) : t.driveTp.Has P := h

theorem State.Has.endDark {ch : Nat} {now : Bool} (h : t.Has P) : (t.endDark ch now).Has P := by
  unfold State.endDark
  exact h.each fun _ _ _ h => by
      split
      · exact h
      · exact .ite h.onSaf.setBall h

theorem State.Has.judgeReadback {ch j : Nat} {level : Bool} (h : t.Has P) : (t.judgeReadback ch j level).Has P := by
  unfold State.judgeReadback
  exact .ite h (.ite h.onSaf (h.onSaf.when fun _ h => h.safFault))

theorem State.Has.judgeFeedback {ch j : Nat} (h : t.Has P) : (t.judgeFeedback ch j).Has P := by
  unfold State.judgeFeedback
  split
  · exact h
  · exact h.when fun _ h => h.safFault

theorem State.Has.judgeCheck {ch : Nat} {k : SafCheck} (h : t.Has P) : (t.judgeCheck ch k).Has P := by
  unfold State.judgeCheck
  split
  · exact h.judgeReadback
  · exact h.judgeFeedback
  · exact h.when fun _ h => h.safFault
  · exact h.when fun _ h => h.answerReset

theorem State.Has.endSample {ch : Nat} (h : t.Has P) : (t.endSample ch).Has P := by
  unfold State.endSample
  exact .ite h (h.onSaf.when fun _ h => h.each fun _ _ _ h => h.judgeCheck)

theorem State.Has.setFn {ch f st : Nat} (h : t.Has P) : (t.setFn ch f st).Has P := by
  unfold State.setFn
  exact h.wr.wrB.when fun _ h => h.sticky

theorem State.Has.twoHand {ch f t' v : Nat} (h : t.Has P) : (t.twoHand ch f t' v).Has P := by
  unfold State.twoHand
  dsimp only
  split
  · exact .ite h h.onSaf.setFn
  · exact .ite h.onSaf.setFn h
  · split
    · exact h.onSaf
    · split
      · split
        · exact h.onSaf.setFn
        · exact .ite h.onSaf.setFn h.onSaf.sticky.setFn
      · exact .ite h.onSaf (.ite (.ite h.onSaf h.onSaf.setFn) h)

theorem State.Has.advanceFns {ch t' : Nat} (h : t.Has P) : (t.advanceFns ch t').Has P := by
  unfold State.advanceFns
  dsimp only
  exact h.each fun _ _ _ h => by
      split
      · exact h.setFn
      · exact h.setFn
      · exact h.twoHand
      · exact h.setFn
      · exact h.setFn

theorem State.Has.showSig {ch : Nat} (h : t.Has P) : (t.showSig ch).Has P := by
  unfold State.showSig
  dsimp only
  split
  · exact h.wr.wrB
  · exact h.wr

theorem State.Has.endLockout {ch : Nat} (h : t.Has P) : (t.endLockout ch).Has P := by
  unfold State.endLockout
  exact .onSaf (.sticky (.wr (.wr (.wrB (.each (h.each fun _ _ _ h => h.when fun _ h => h.setFn) fun _ _ _ h => h.when
    fun _ h => h.wr.onSaf)))))

theorem State.Has.takeResets {ch : Nat} {entered : Bool} (h : t.Has P) : (t.takeResets ch entered).Has P := by
  unfold State.takeResets
  exact .ite h.endLockout (h.each fun _ _ _ h => h.when fun _ h => h.setFn)

theorem State.Has.command {ch j : Nat} {on : Bool} (h : t.Has P) : (t.command ch j on).Has P := by
  unfold State.command
  split
  · exact h
  · dsimp only
    split
    · exact h.wrB.onSaf.setBall
    · exact .ite h.wrB.onSaf.onSaf.setBall (.ite h.wrB.onSaf h.wrB.onSaf.onSaf)

theorem State.Has.lockAll {ch : Nat} {fs : List SafFault} (h : t.Has P) : (t.lockAll ch fs).Has P := by
  unfold State.lockAll
  split
  · exact h
  · exact h.lockOut

theorem State.Has.evalCycle {ch : Nat} (h : t.Has P) : (t.evalCycle ch).Has P := by
  unfold State.evalCycle
  exact .endDark (.each (.takeResets (h.lockAll.each fun _ _ _ h => h.advanceFns)) fun _ _ _ h => h.command)

theorem State.Has.formImage {ch : Nat} {prod : List (Nat × List Byte)} (h : t.Has P) : (t.formImage ch prod).Has P := h

theorem State.Has.endCycle {ch : Nat} (h : t.Has P) : (t.endCycle ch).Has P := by
  unfold State.endCycle
  exact .safetyTrip (.onSaf (h.bumpMod.when fun _ h => h.sticky))

theorem State.Has.crossFault {ch : Nat} (h : t.Has P) : (t.crossFault ch).Has P := h.sticky.onSaf

theorem State.Has.imageAbsent {ch : Nat} (h : t.Has P) : (t.imageAbsent ch).Has P := by
  unfold State.imageAbsent
  exact .ite h h.wrB.onSaf.crossFault

theorem State.Has.showPeer {ch : Nat} {p : Image} {ok : Bool} (h : t.Has P) : (t.showPeer ch p ok).Has P := by
  unfold State.showPeer
  exact h.wr.wrB.wrB.wrB.wr.wr.when fun _ h => h.sticky

theorem State.Has.compareImages {ch : Nat} {o p : Image} (h : t.Has P) : (t.compareImages ch o p).Has P := by
  unfold State.compareImages
  exact .ite h.onSaf (h.onSaf.when fun _ h => h.crossFault)

theorem State.Has.opSafRst {ch : Nat} {value : Word} (h : t.Has P) : (opSafRst ch value t).Has P := by
  unfold Machine.opSafRst
  exact .ite h (.ite h.sticky h.sticky.askReset)

theorem State.Has.opSafConfig {ch off : Nat} {value : Word} (h : t.Has P) : (opSafConfig ch off value t).Has P := by
  unfold Machine.opSafConfig
  exact .ite h.sticky h.putCell.showSig.onSaf

theorem State.Has.opSafUnauth {ch off : Nat} (h : t.Has P) : (opSafUnauth ch off t).Has P := by
  unfold Machine.opSafUnauth
  exact h.stick.when fun _ h => h.sticky

theorem State.Has.opSafStop {ch : Nat} {soft : Bool} (h : t.Has P) : (opSafStop ch soft t).Has P := h.outputsOff.lockOut.onSaf

/-! #### What the operations of Machine/SafetyLayer keep -/

theorem State.Has.onConn {ch c : Nat} {f : Conn → Conn} (h : t.Has P) : (t.onConn ch c f).Has P := h

theorem State.Has.enterConn {ch c st : Nat} (h : t.Has P) : (t.enterConn ch c st).Has P := h

theorem State.Has.opSafetyCycle {ch : Nat} (h : t.Has P) : (opSafetyCycle ch t).Has P := by
  unfold Machine.opSafetyCycle
  exact .endCycle (.formImage (.evalCycle (h.showSig.when fun _ h => h.imageAbsent)))

theorem State.Has.sentTelegram {c t' : Nat} {b : List Byte} (h : t.Has P) : (t.sentTelegram c t' b).Has P := by
  unfold State.sentTelegram
  exact h.each fun _ _ _ h => h.wr.wr.onConn

theorem State.Has.produce {o p : Image} (h : t.Has P) : (t.produce o p).Has P := by
  unfold State.produce
  exact h.each fun _ _ _ h => by
      dsimp only
      split
      · exact .ite h.sendFrame.sentTelegram h.sticky
      · exact h.sticky

theorem State.Has.opCrossImage {ch : Nat} (h : t.Has P) : (opCrossImage ch t).Has P := by
  unfold Machine.opCrossImage
  split
  · exact h
  · split
    · exact h
    · dsimp only
      split
      · exact .ite h.onSaf.showPeer (.ite (h.onSaf.showPeer.onSaf.compareImages.when fun _ h => h.produce) h.onSaf.showPeer.imageAbsent)
      · exact h.onSaf.showPeer

theorem State.Has.endDegraded {ch c : Nat} (h : t.Has P) : (t.endDegraded ch c).Has P := by
  unfold State.endDegraded
  exact .ite h.enterConn.safFault h

theorem State.Has.watchdog {ch c : Nat} (h : t.Has P) : (t.watchdog ch c).Has P := by
  unfold State.watchdog
  exact .ite (.ite h.enterConn.bump.sticky.onConn.endDegraded h.enterConn.bump.sticky.onConn) h

theorem State.Has.validTelegram {ch c : Nat} {b : List Byte} (h : t.Has P) : (t.validTelegram ch c b).Has P := by
  unfold State.validTelegram
  exact .ite h.wr.onConn.enterConn h.wr.onConn.noteView

theorem State.Has.checkTelegram {ch c : Nat} {b : List Byte} (h : t.Has P) : (t.checkTelegram ch c b).Has P := by
  unfold State.checkTelegram
  exact .ite h.bump.sticky (.ite h.enterConn.safFault (.ite h.validTelegram (.ite h (.ite h.validTelegram h.bump.sticky))))

theorem State.Has.opTelegram {ch : Nat} {b : List Byte} (h : t.Has P) : (opTelegram ch b t).Has P := by
  unfold Machine.opTelegram
  split
  · exact h.sticky
  · exact h.watchdog.endDegraded.checkTelegram

/-! #### What the operations of Machine/SelfTest keep -/

theorem State.Has.burnFuse {d lo v : Nat} (h : t.Has P) : (t.burnFuse d lo v).Has P := h

theorem State.Has.showFree {d : Nat} (h : t.Has P) : (t.showFree d).Has P := h

theorem State.Has.applyFused {d : Nat} (h : t.Has P) : (t.applyFused d).Has P := by
  unfold State.applyFused
  refine .showFree (h.each fun v i _ h => ?_)
  extract_lets e m v1
  have h1 : v1.Has P := h.when fun _ h => h.wrB
  split
  · exact h1.wr.wr
  · exact h1.wr.wr
  · exact h1.wr.wrB
  · exact h1

theorem State.Has.opFuseBurn {d m : Nat} (h : t.Has P) : (opFuseBurn d m t).Has P := by
  unfold Machine.opFuseBurn
  exact .ite h.sticky h.wrB.onBist

theorem State.Has.opFuseDone {d : Nat} (h : t.Has P) : (opFuseDone d t).Has P := by
  unfold Machine.opFuseDone
  split
  · exact h
  · exact .showFree (.sticky (.onBist (.wrB (h.each fun _ _ _ h => h.burnFuse))))

theorem State.Has.lend {d : Nat} {keys : List Nat} (h : t.Has P) : (t.lend d keys).Has P := by
  unfold State.lend
  exact .ite h.onBist h

theorem State.Has.lendEngines {d : Nat} (h : t.Has P) : (t.lendEngines d).Has P := by
  unfold State.lendEngines
  exact .ite h h.lend

theorem State.Has.scramble {d m w : Nat} (h : t.Has P) : (t.scramble d m w).Has P := by
  unfold State.scramble
  exact h.each fun _ _ _ h => h.freeW.putCell

theorem State.Has.openSlice {d m j : Nat} (h : t.Has P) : (t.openSlice d m j).Has P := by
  unfold State.openSlice
  exact h.each fun _ _ _ h => h.scramble

theorem State.Has.failMacro {d m : Nat} (h : t.Has P) : (t.failMacro d m).Has P := by
  unfold State.failMacro
  exact h.wrB.sticky.stick.when fun _ h => h.raise

theorem State.Has.recordFails {d m : Nat} {fails : List FailCell} (h : t.Has P) : (t.recordFails d m fails).Has P := by
  unfold State.recordFails
  dsimp only
  exact .stick (.sticky (.bump (by
      split
      · exact h.bump
      · exact .ite h.bump h.bump.putCell.putCell)))

theorem State.Has.passOn {d m j : Nat} (h : t.Has P) : (t.passOn d m j).Has P := by
  unfold State.passOn
  dsimp only
  split
  · exact h.onBist.onBist
  · exact h.onBist.bump.wr.sticky.onBist

/-- A repair writes its MACRO_STAT. -/
theorem State.Has.repairOf {d m : Nat} {cells : List (Nat × Nat)} (h : t.Has P) (hu : t.repairOf d m cells = some u) : u.Has P := by
  unfold State.repairOf at hu
  dsimp only at hu
  split at hu
  · obtain rfl := Option.some.inj hu
    exact .wr (h.each fun _ _ _ h => h.wr)
  · split at hu
    · split at hu
      · cases hu
      · obtain rfl := Option.some.inj hu
        exact h.wr.wrB
    · cases hu
theorem State.Has.opSliceEnd {d : Nat} {fails : List FailCell} (h : t.Has P) : (opSliceEnd d fails t).Has P := by
  unfold Machine.opSliceEnd
  split
  · exact h
  · dsimp only
    split
    · exact h
    · split
      · exact .passOn (h.wrB.wr.onBist.when fun _ h => h.sticky.stick)
      · have h1 : ∀ l f, (((t.wrB d Fd.BIST_STATUS.SLICE_BUSY 0 false).wr d Fd.SLICE_TIME.LAST_TICKS 0 l).onBist d f).Has P :=
          fun _ _ => h.wrB.wr.onBist
        split
        · rename_i hfix
          split at hfix
          · cases hfix
          · exact .onBist (State.Has.repairOf (h.wrB.wr.onBist.recordFails.each fun _ _ _ h => h.scramble) hfix)
        · exact .passOn (.failMacro (h.wrB.wr.onBist.recordFails.each fun _ _ _ h => h.scramble))

theorem State.Has.opBistCtrl {d : Nat} (h : t.Has P) : (opBistCtrl d t).Has P := by
  unfold Machine.opBistCtrl
  exact .when (h.when fun _ h => h.raise) fun _ h => h.raise

theorem State.Has.opBistReset {d : Nat} (h : t.Has P) : (opBistReset d t).Has P := h

theorem State.Has.endTests {d : Nat} (h : t.Has P) : (t.endTests d).Has P := by
  unfold State.endTests
  exact h.opEngineYield.when fun _ h => h.opFuseDone

/-! #### What the operations of Machine/Security keep -/

theorem State.Has.putBuf {d : Nat} {bytes : List Byte} (h : t.Has P) : (t.putBuf d bytes).Has P := by
  unfold State.putBuf
  exact h.each fun _ _ _ h => h.wr

theorem State.Has.beginOp {d op result : Nat} {out : List Byte} (h : t.Has P) : (t.beginOp d op result out).Has P := h

theorem State.Has.opAttest {d : Nat} (h : t.Has P) : (opAttest d t).Has P := by
  unfold Machine.opAttest
  exact .ite h.wr (.ite h.wr.sticky h.wr.freeN.beginOp)

theorem State.Has.opEstablishKey {d slot : Nat} (h : t.Has P) : (opEstablishKey d slot t).Has P := by
  unfold Machine.opEstablishKey
  exact .ite h.wr.wr (.ite h.wr.wr.sticky h.wr.wr.beginOp)

theorem State.Has.setKey {d : Nat} {k : List Byte} (h : t.Has P) : (t.setKey d k).Has P := by
  unfold State.setKey
  exact h.onSec.wr.wr.sticky

theorem State.Has.cmdJudge {d ctr verdict : Nat} (h : t.Has P) : (t.cmdJudge d ctr verdict).Has P := by
  unfold State.cmdJudge
  split
  · exact h.wr.wr
  · exact h.sticky
  · exact h.sticky

theorem State.Has.beginBurn {d op slot value : Nat} (h : t.Has P) : (t.beginBurn d op slot value).Has P := by
  unfold State.beginBurn
  exact .ite h.sticky h.onSec

theorem State.Has.opFuseProgram {d slot : Nat} {auth : Bool} (h : t.Has P) : (opFuseProgram d slot auth t).Has P := by
  unfold Machine.opFuseProgram
  exact .ite h.stick (.ite h h.beginBurn)

theorem State.Has.opFuseRevoke {d slot : Nat} {auth : Bool} (h : t.Has P) : (opFuseRevoke d slot auth t).Has P := by
  unfold Machine.opFuseRevoke
  exact .ite h.stick (.ite h h.beginBurn)

theorem State.Has.revokeCopies {slot : Nat} (h : t.Has P) : (t.revokeCopies slot).Has P := by
  unfold State.revokeCopies
  exact h.each fun _ _ _ h => h.onSec

theorem State.Has.opFuseOpDone {d : Nat} (h : t.Has P) : (opFuseOpDone d t).Has P := by
  unfold Machine.opFuseOpDone
  split
  · exact h
  · exact .sticky (.onSec (h.burnFuse.when fun _ h => h.revokeCopies))

theorem State.Has.endBurn {d : Nat} (h : t.Has P) : (t.endBurn d).Has P := by
  unfold State.endBurn
  exact h.when fun _ h => h.opFuseOpDone

theorem State.Has.opSecReset {d : Nat} (h : t.Has P) : (opSecReset d t).Has P := by
  unfold Machine.opSecReset
  exact .onSec (h.when fun _ h => h.imgEnd)

/-! #### What the operations of Machine/Startup keep -/

theorem State.Has.openSlices {old : State} {l : List Nat} (h : t.Has P) : (t.openSlices old l).Has P := by
  unfold State.openSlices
  exact h.each fun _ _ _ h => h.openSlice

theorem State.course_resetAll (s : State) (new : DevState) (powerUp : Bool) :
    (s.resetAll new powerUp).course = ⟨s.part, new, s.device, 0, none, none, none, [], 0⟩ := by
  have h : ∀ v : State, v.course = ⟨s.part, new, s.device, 0, none, none, none, [], 0⟩ → (if powerUp then v else
      ({ v with tap := s.tap } : State).openSlices s s.dieList).course = ⟨s.part, new, s.device, 0, none, none, none, [], 0⟩ :=
    fun v hv => State.Has.ite (P := (· = _)) hv (.openSlices hv)
  exact h _ rfl

theorem State.Has.lowerPins {d : Nat} (h : t.Has P) : (t.lowerPins d).Has P := by
  unfold State.lowerPins
  exact .ite (.congr h rfl) (.ite (.congr h rfl) h)

/-- A short pulse on RESET_N leaves the package where it is or resets it. -/
theorem State.Has.shortPulse (h : t.Has P) (hr : P ⟨t.part, .reset, t.device, t.changes, none, none, none, [], 0⟩) :
    t.shortPulse.Has P := by
  unfold State.shortPulse
  extract_lets +onlyGivenNames r hit t1 t2 t3
  have h1 : t1.Has (· = t.course) := (State.Has.self t).freeN.each fun _ _ _ h => h.onDie.lowerPins
  have h2 : t2.Has (· = t.course) := h1
  have h3 : t3.Has P := by
    refine .ite ?_ (h.congr h2)
    have hp : t2.part = t.part := congrArg Course.part h2
    have hn : t2.changes = t.changes := congrArg Course.changes h2
    change P ⟨t2.part, .reset, t.device, t2.changes, none, none, none, [], 0⟩
    rw [hp, hn]
    exact hr
  exact h3.openSlices

theorem State.Has.endHold1 {d : Nat} (h : t.Has P) : (t.endHold1 d).Has P := by
  unfold State.endHold1
  exact .onClk (.applyStraps h.onDie)

theorem State.Has.enterBoot {d : Nat} (h : d ≠ 0 → t.Has P) (h0 : d = 0 → P ⟨t.part, .boot, .reset, 0, t.arming, none, none, [], 0⟩) :
    (t.enterBoot d).Has P := by
  unfold State.enterBoot
  refine .when (.onDie ?_) fun _ h => h.sticky
  split
  · next hd => exact h0 hd
  · next hd => exact h hd

theorem State.Has.trainLinks {d : Nat} {links : BitVec 3} (h : t.Has P) : (t.trainLinks d links).Has P := by
  unfold State.trainLinks
  exact h.each fun _ _ _ h => .ite h (.ite h.wrB h.sticky.raise)

theorem State.Has.drawEpoch (h : t.Has P) : t.drawEpoch.Has P := h

theorem State.Has.bootDie {d : Nat} {links : BitVec 3} (h : t.Has P) : (t.bootDie d links).Has P := by
  unfold State.bootDie
  exact .onDie (.wrB (.wr (.when (.ite (.drawEpoch (h.applyFused.when fun _ h => h.onSec)) (h.applyFused.when
    fun _ h => h.onSec)) fun _ h => h.trainLinks.wrB)))

theorem State.Has.holdBoot {on : Bool} (h : t.Has P) : (t.holdBoot on).Has P := by
  unfold State.holdBoot
  exact h.each fun _ _ _ h => h.wrB

/-- BOOT_GO leaves the package where it is, or takes it from BOOT to CONFIG. -/
theorem State.Has.opBootGo (h : t.Has P) (hb : t.device = .boot → P (t.course.enter .config)) : (opBootGo t).Has P := by
  unfold Machine.opBootGo
  split
  · next hc =>
    simp only [Bool.and_eq_true, beq_iff_eq] at hc
    have h1 : (t.holdBoot false).Has (· = t.course) := (State.Has.self t).holdBoot
    exact .enter (h1 ▸ hb hc.1)
  · exact h

theorem State.Has.refuseState (h : t.Has P) : t.refuseState.Has P := h.sticky

theorem State.Has.opStateCmdWrite {target : Nat} (h : ∀ l, P { t.course with cmds := l }) : (opStateCmdWrite target t).Has P := h _

/-! #### What the operations of Machine/Thermal keep -/

theorem State.Has.onThm {d : Nat} {f : Thm → Thm} (h : t.Has P) : (t.onThm d f).Has P := h

theorem State.Has.showSensor {d : Nat} (h : t.Has P) : (t.showSensor d).Has P := h.source

theorem State.Has.judge {d : Nat} {fails : Bool} (h : t.Has P) : (t.judge d fails).Has P := by
  unfold State.judge
  exact .ite (.showSensor (h.onThm.wrB.when fun _ h => h.sticky.bump)) (.ite (.ite h.onThm.wrB.lower h.onThm) h)

theorem State.Has.throttleFrom {d : Nat} (h : t.Has P) : (t.throttleFrom d).Has P := by
  unfold State.throttleFrom
  exact .markThrottled h.onDie

theorem State.Has.enterLevel {d i : Nat} (h : t.Has P) : (t.enterLevel d i).Has P := by
  unfold State.enterLevel
  extract_lets +onlyGivenNames _ t2
  have h2 : t2.Has P := .stick (.wrB (h.when fun _ h => h.throttleFrom))
  split
  · exact h2.bump
  · exact h2.raise
  · exact h2

theorem State.Has.level {d : Nat} {eff : Int} {i : Nat} (h : t.Has P) : (t.level d eff i).Has P := by
  unfold State.level
  extract_lets +onlyGivenNames _ _ _ _ a b t1 held
  have h1 : t1.Has P := h.onThm
  clear_value t1 a b
  split
  · exact .ite h1.enterLevel h1
  · exact .ite h1.wrB h1
  · exact h1

theorem State.Has.opTempSample {d : Nat} {raws : List Int} (h : t.Has P) : (opTempSample d raws t).Has P := by
  unfold Machine.opTempSample
  extract_lets +onlyGivenNames _ _ _ _ _ _ _ t4
  have h4 : t4.Has P := .level (.level (.level (.judge (h.onThm.when fun _ h => h.sticky))))
  exact .ite h4.onThm.wrS.wrS.wrS.wrS.wrS.wrS h4.onThm.wrS.wrS.wrS.wrS.setNodeField

theorem State.Has.opThmReset {d shut : Nat} (h : t.Has P) : (opThmReset d shut t).Has P := h

/-! #### What the operations of Machine/PageCtrl keep -/

theorem State.Has.dropPage {d page : Nat} (h : t.Has P) : (t.dropPage d page).Has P := by
  unfold State.dropPage
  exact h.dropCells.applyStraps

theorem State.Has.safReset {d : Nat} (h : t.Has P) : (t.safReset d).Has P := by
  unfold State.safReset
  exact .ite h h.safetyStart.outputsOff.lockOut.onSaf

theorem State.Has.recReset {d : Nat} (h : t.Has P) : (t.recReset d).Has P := h

theorem State.Has.netReset {d : Nat} (h : t.Has P) : (t.netReset d).Has P := by
  unfold State.netReset
  exact .ite h.wrB.opNetReset (h.wrB.opNetReset.each fun _ _ _ h => .congr h rfl)

theorem State.Has.bistReset {d : Nat} (h : t.Has P) : (t.bistReset d).Has P := h.cutTest.dropPage.opBistReset.showFree

theorem State.Has.softReset {d page : Nat} (h : t.Has P) : (t.softReset d page).Has P := by
  unfold State.softReset
  split
  · exact h.nimgEnd.dropPage
  · exact h.dropPage.opAngReset
  · exact h.dropPage.opAtrReset
  · exact h.dropPage.opMfeReset
  · exact h.dropPage.opLeReset
  · exact h.dropPage.opEpReset
  · exact h.opRingReset.dropPage.when fun _ h => h.wr
  · exact .ite h.dropPage h.dropPage.opGuardReset
  · exact h.dropPage.netReset
  · exact h.dropPage.safReset
  · exact h.dropPage.opThmReset
  · exact h.bistReset
  · exact h.opSecReset.dropPage
  · exact h.dropPage.recReset
  · exact h.dropPage.opFabReset
  · exact h.dropPage

theorem State.Has.blockTurn {d page : Nat} {on : Bool} (h : t.Has P) : (t.blockTurn d page on).Has P := by
  unfold State.blockTurn
  split
  · exact .ite h.onDie h
  · exact h.opAtrEn
  · exact h.opMfeEn
  · exact .ite h h.leStop
  · exact .ite h.opRingEn (.ite h.modeChange h.modeChange)
  · exact .ite h h.opGuardOff
  · exact .ite h h.netDown
  · exact .ite h h.opSafStop
  · exact .ite h.opLedgerEn h
  · exact .ite h.opFabEn h
  · exact h

theorem State.Has.opPageCtrl {d page : Nat} {value : Word} (h : t.Has P) : (opPageCtrl d page value t).Has P := by
  unfold Machine.opPageCtrl
  extract_lets +onlyGivenNames _ _ _ _ t2
  have h2 : t2.Has P := .when (h.when fun _ h => h.softReset.endMisuse) fun _ h => h.putCell
  exact .ite h2 h2.blockTurn

theorem State.Has.opSumCtrl {value : Word} (h : t.Has P) : (opSumCtrl value t).Has P := by
  unfold Machine.opSumCtrl
  exact .when (h.when fun _ h => h.dropSum) fun _ h => h.putSum

theorem State.Has.opStickyClear {d page : Nat} {mask : Word} (h : t.Has P) : (opStickyClear d page mask t).Has P := by
  unfold Machine.opStickyClear
  exact .when (h.putCell.each fun _ _ _ h => h.stick) fun _ h => h.each fun _ _ _ h => h.wr

theorem State.Has.opSumSticky {mask : Word} (h : t.Has P) : (opSumSticky mask t).Has P := h

/-! #### What the operations of Machine/Bus keep -/

theorem State.Has.guardReject {d page off : Nat} {v : Word} (h : t.Has P) : (t.guardReject d page off v).Has P := by
  unfold State.guardReject
  exact .ite h.opSafUnauth (.ite h.opFuseProgram h.stick)

theorem State.Has.plainWrite {d page off : Nat} {v : Word} (h : t.Has P) : (t.plainWrite d page off v).Has P := by
  unfold State.plainWrite
  split
  · exact h
  · exact h.putCell

theorem State.Has.opMsArmWord {d : Nat} {v : Word} (h : t.Has P) : (opMsArmWord d v t).Has P := by
  unfold Machine.opMsArmWord
  dsimp only
  split
  · exact h.opMsArm
  · exact h.opMsArm
  · exact h.opMsArm
  · exact h

theorem State.Has.writeHeader {d page off : Nat} {v : Word} (h : t.Has P) : (writeHeader d page off v t).Has P := by
  unfold Machine.writeHeader
  split
  · exact h.opPageCtrl
  · exact h.opStickyClear
  · exact h.putCell
  · exact h

theorem State.Has.writeSummary {off : Nat} {v : Word} (h : t.Has P) : (writeSummary off v t).Has P := by
  unfold Machine.writeSummary
  split
  · exact h.opSumCtrl
  · exact h.opSumSticky
  · exact h.putSum
  · exact h.putSum
  · exact h

theorem State.Has.addrErr {x : Spot} (h : t.Has P) : (t.addrErr x).Has P := by
  unfold State.addrErr
  exact h.when fun _ h => h.sumStick

theorem State.Has.lendSpot {a : Spot} (h : t.Has P) : (t.lendSpot a).Has P := by
  unfold State.lendSpot
  split
  · exact h.lend
  · exact h.lend
  · exact h.lend
  · exact h

theorem State.Has.hostData {d key : Nat} {v : Word} (h : t.Has P) : (t.hostData d key v).Has P := by
  unfold State.hostData
  exact h.putCell.when fun _ h => h.onDie

theorem State.Has.readAt {addr : Word} (h : t.Has P) : (readAt addr t).2.Has P := by
  unfold Machine.readAt
  dsimp only
  split
  · exact h.freeW
  · split
    · split
      · exact h.opWinRead
      · exact .snd h
    · exact .snd h

/-! #### What the operations of Machine/Access keep -/

theorem State.Has.answer {data : Word} {marker : BitVec 4} (h : t.Has P) : (t.answer data marker).Has P := h

theorem State.Has.frameErr (h : t.Has P) : t.frameErr.Has P := h.sumStick

/-- What the port agent reads leaves (R44-R47). -/
theorem State.Has.agentRead {addr : Word} (h : t.Has P) : (agentRead addr t).2.2.Has P := by
  unfold Machine.agentRead
  dsimp only
  split
  · exact h.addrErr.lendSpot.readAt
  · exact h
  · exact h.sumStick
theorem State.Has.opReadWord {addr : Word} (h : t.Has P) : (opReadWord addr t).Has P := by
  unfold Machine.opReadWord
  exact .ite h (.ite h.frameErr h.agentRead.answer)

theorem State.Has.unanswered {old : State} (h : t.Has P) : (old.unanswered t).Has P := h

theorem State.Has.mgmtReject {d : Nat} (h : t.Has P) : (t.mgmtReject d).Has P := h.sticky

theorem State.Has.powerPage {d page : Nat} (h : t.Has P) : (t.powerPage d page).Has P := by
  unfold State.powerPage
  exact .ite h.putCell h.freeN.putCell

theorem State.Has.opPower {d : Nat} (h : t.Has P) : (opPower d t).Has P := by
  unfold Machine.opPower
  exact .ite (h.each fun _ _ _ h => h.powerPage) (.setNodeField (h.each fun _ _ _ h => h.powerPage))

/-! #### What the operations of Machine/Tap keep -/

theorem State.Has.padTick (h : t.Has P) : t.padTick.Has P := h

theorem State.Has.captureCells (h : t.Has P) : t.captureCells.2.Has P := by
  refine .foldl (p := Prod.snd) h fun x a h => ?_
  dsimp only
  split
  · exact h
  · exact h.freeN

theorem State.Has.onTap {f : Tap → Tap} (h : t.Has P) : (t.onTap f).Has P := h

theorem State.Has.tapEdge {tms tdi : Bool} (h : t.Has P) : (t.tapEdge tms tdi).Has P := by
  unfold State.tapEdge
  dsimp only
  exact .onTap (by
      split
      · exact .ite h.captureCells.onTap h.onTap
      · exact h.onTap
      · exact h.onTap
      · exact h.onTap
      · exact h)

theorem State.Has.tapTake {i : TapIn} (h : t.Has P) : (t.tapTake i).Has P := by
  unfold State.tapTake
  split
  · exact h.onTap
  · exact h.tapEdge.onTap

theorem State.Has.tapTick (h : t.Has P) : t.tapTick.Has P := by
  unfold State.tapTick
  split
  · exact .ite h.onTap.tapTake h.onTap
  · exact h.onTap

/-! #### What the operations of Machine/Tick keep -/

theorem State.Has.dieStart {d : Nat} (h : t.Has P) : (t.dieStart d).Has P := h.msStart.leStart

theorem State.Has.advanceDie {d : Nat} (h : t.Has P) : (t.advanceDie d).Has P := h

theorem State.Has.endPulses (h : t.Has P) : t.endPulses.Has P := by
  unfold State.endPulses
  exact .driveTp (.when (h.each fun _ _ _ h => h.when fun _ h => h.endDark) fun _ h => h.onSaf)

/-! #### What the operations of Machine/Step keep -/

theorem State.Has.takeKept {d : Nat} {p : Handler} {k : Kept} (h : t.Has P) (hu : t.takeKept d p = some (k, u)) : u.Has P := by
  unfold State.takeKept at hu
  obtain ⟨e, -, he⟩ := Option.map_eq_some_iff.1 hu
  cases he
  exact h.onNet

/-- A result that is a next state with a course of which P holds. -/
def State.Leaves (P : Course → Prop) (r : Res) : Prop := ∃ u, r = .next u ∧ u.Has P

/-- A register's own effect, if it has one, leaves a course of which P holds. -/
def State.MayLeave (P : Course → Prop) (o : Option Res) : Prop := ∀ r, o = some r → State.Leaves P r

/-- What holds of the course of a package whatever a host writes: STATE_CMD adds a command that waits, BOOT_GO takes it from BOOT to
CONFIG (21 R526), CLEAR from LOCKOUT to STANDSTILL (17 R456). -/
structure Course.HostClosed (P : Course → Prop) : Prop where
  cmds : ∀ c l, P c → P { c with cmds := l }
  bootGo : ∀ c, P c → c.device = .boot → P (c.enter .config)
  clear : ∀ c, P c → c.device = .lockout → P (c.enter .standstill)

namespace State.Leaves

variable {r r' : Res}

theorem next (h : t.Has P) : State.Leaves P (.next t) := ⟨t, rfl, h⟩

theorem ite {c : Prop} [Decidable c] (h : State.Leaves P r) (k : State.Leaves P r') : State.Leaves P (if c then r else r') := by
  split
  · exact h
  · exact k

theorem bind {f : State → Res} (h : State.Leaves P r) (hf : ∀ v : State, v.Has P → State.Leaves P (f v)) :
    State.Leaves P (Res.bind r f) := by
  obtain ⟨v, rfl, hv⟩ := h
  exact hf v hv

theorem setInst {d e i n : Nat} {x : Inst} (h : t.Has P) : State.Leaves P (t.setInst d e i n x) := .next h.onInst

theorem storeState {d e i n off : Nat} {x y : Inst} {vals : List (BitVec 16)} (h : t.Has P) :
    State.Leaves P (t.storeState d e i n x y off vals) := setInst h.onDie

theorem opEnd {d e i : Nat} (h : t.Has P) : State.Leaves P (opEnd d e i t) := .next h.onInst

theorem opImgWord {d : Nat} {w : Word} (h : t.Has P) : State.Leaves P (opImgWord d w t) := by
  unfold Machine.opImgWord
  refine .ite (.next h) ?_
  extract_lets _ t1 _ x clash
  have h1 : t1.Has P := h.onSec.bump
  exact .ite (.next h1.misuse) (.next (h1.imgPut.when fun _ h => h.wr))

theorem opEnumGo {d : Nat} (h : t.Has P) : State.Leaves P (opEnumGo d t) :=
  .ite (.next h.misuse) (.ite (.next h.onHead) (.next h.sticky))

theorem opRingCtrl {d : Nat} {v : Word} (h : t.Has P) : State.Leaves P (opRingCtrl d v t) :=
  .ite (.next h) (.ite (opEnumGo h.opMode) (.next h.opMode))

end State.Leaves

namespace State.MayLeave

variable {r : Res} {o o' : Option Res}

theorem none : State.MayLeave P none := fun _ h => nomatch h

theorem some (h : State.Leaves P r) : State.MayLeave P (some r) := by
  rintro _ ⟨⟩
  exact h

theorem next (h : t.Has P) : State.MayLeave P (.some (.next t)) := .some (.next h)

theorem ite {c : Prop} [Decidable c] (h : State.MayLeave P o) (k : State.MayLeave P o') : State.MayLeave P (if c then o else o') := by
  split
  · exact h
  · exact k

variable {d off : Nat} {v : Word}

theorem writeDie (hP : Course.HostClosed P) (h : t.Has P) : State.MayLeave P (writeDie d off v t) := by
  unfold Machine.writeDie
  split
  · exact .next (.ite (.opStateCmdWrite fun l => hP.cmds _ l h) h)
  · exact .next (.ite (h.opBootGo (hP.bootGo _ h)) h)
  · exact .next (.ite ((h.when fun _ h => h.nimgEnd).when fun _ h => h.opNimgGo) h)
  · exact .ite .none (.next h)
  · exact .none

theorem writeClk (h : t.Has P) : State.MayLeave P (writeClk d off v t) :=
  .ite (.next ((h.plainWrite.when fun _ h => h.opUpdate).when fun _ h => h.opRefReturn)) .none

theorem writeAng (h : t.Has P) : State.MayLeave P (writeAng d off v t) := by
  refine .ite (.next h.opSnapSel) (.ite (.next h.opMsArmWord) (.ite ?_ .none))
  split
  · exact .next h.opDomainChange
  · exact .next h

theorem writeAtr (h : t.Has P) : State.MayLeave P (writeAtr d off v t) := by
  unfold Machine.writeAtr
  refine .ite .none ?_
  split
  · exact .next (.ite h.opRestart h)
  · exact .none

theorem writeMfe (h : t.Has P) : State.MayLeave P (writeMfe d off v t) :=
  .ite (.next h.opSdcCfg) (.ite (.next h.opChEn) (.ite (.next (h.opChWrite fun _ h => h.plainWrite)) .none))

theorem writeLe (h : t.Has P) : State.MayLeave P (writeLe d off v t) :=
  .ite (.next h.opSlotEn) (.ite (.next h.opSlotEn)
    (.ite (.ite (.next h.misuse) (.ite (.next h.opSlotCasc) .none)) (.ite (.next h.opSps) .none)))

theorem writeRing (h : t.Has P) : State.MayLeave P (writeRing d off v t) :=
  .ite (.some (.opRingCtrl h)) (.ite (.ite (.next h) (.ite (.next h.misuse) .none))
    (.ite (.next (.ite h.opRemote h)) (.ite (.next h.opRres) .none)))

theorem writeBg (h : t.Has P) : State.MayLeave P (writeBg d off v t) :=
  .ite .none (.ite (.next h.opBgSrc) (.ite (.next h.opUnlock) (.ite (.next h.plainWrite.opBgLeg) (.ite
    (.next h.plainWrite.opBgGcfg) .none))))

theorem writeNet (h : t.Has P) : State.MayLeave P (writeNet d off v t) := by
  refine .ite (.ite (.next h.plainWrite) .none) (.ite (.next (.ite h.opMdio h)) (.ite .none (.ite (.next h)
    (.ite (.next h.plainWrite.opPpsCfg) (.ite (.next h.plainWrite.showHold) (.ite ?_ .none))))))
  split
  · exact .next h.opTdCtrl
  · exact .next h.opTdTrim
  · exact .none

theorem writeSaf (h : t.Has P) : State.MayLeave P (writeSaf d off v t) :=
  .ite (.ite .none (.next h)) (.ite .none (.ite (.next h.opSafRst) (.ite (.next h.opSafConfig) .none)))

theorem writeFlt (hP : Course.HostClosed P) (h : t.Has P) : State.MayLeave P (writeFlt d off v t) := by
  unfold Machine.writeFlt
  split
  · exact .next (.ite (h.opClear (hP.clear _ h)) h)
  · exact .next h.opFfReact
  · exact .none

theorem writeThm (h : t.Has P) : State.MayLeave P (writeThm d off v t) :=
  .ite (.next h.plainWrite.showSensor) (.ite .none (.ite (.next h) (.next h.plainWrite.onThm)))

theorem writeBist (h : t.Has P) : State.MayLeave P (writeBist d off v t) := by
  unfold Machine.writeBist
  split
  · exact .next h.plainWrite.opBistCtrl
  · exact .next (.ite h.opFuseBurn h)
  · exact .ite .none (.next h)
  · exact .ite .none (.next h)
  · exact .none

theorem writeSec (h : t.Has P) : State.MayLeave P (writeSec d off v t) := by
  unfold Machine.writeSec
  split
  · exact .next ((h.plainWrite.when fun _ h => h.opImgAbort).when fun _ h => h.opImgStart)
  · exact .some (.opImgWord h)
  · refine .next (.ite h.plainWrite ?_)
    split
    · exact h.plainWrite.opAttest
    · exact h.plainWrite.opEstablishKey
    · exact h.plainWrite
  · refine .next (.ite h ?_)
    split
    · exact h.opFuseProgram
    · exact h.opFuseRevoke
    · exact h
  · exact .none

theorem writeRec (h : t.Has P) : State.MayLeave P (writeRec d off v t) :=
  .ite (.ite .none (.next h)) (.ite (.next ((h.plainWrite.opLedgerEn.when fun _ h => h.opTrig).when fun _ h => h.opRearm))
    (.ite (.next h.opPart) (.ite (.next h.opWinWrite) .none)))

theorem writeFab (h : t.Has P) : State.MayLeave P (writeFab d off v t) := .ite (.next h.opResEntry) .none

theorem writeSpecial {page : Nat} (hP : Course.HostClosed P) (h : t.Has P) : State.MayLeave P (writeSpecial d page off v t) := by
  unfold Machine.writeSpecial
  split
  · exact writeDie hP h
  · exact writeClk h
  · exact writeAng h
  · exact writeAtr h
  · exact writeMfe h
  · exact writeLe h
  · exact writeRing h
  · exact writeBg h
  · exact writeNet h
  · exact writeSaf h
  · exact writeFlt hP h
  · exact writeThm h
  · exact writeBist h
  · exact writeSec h
  · exact writeRec h
  · exact writeFab h
  · exact .none

end State.MayLeave

/-! ### Writes at the register agent -/

namespace State.Leaves

theorem writeReg {d page off : Nat} {v : Word} (hP : Course.HostClosed P) (h : t.Has P) : State.Leaves P (writeReg d page off v t) := by
  unfold Machine.writeReg
  split
  · next hr => exact State.MayLeave.writeSpecial hP h _ hr
  · exact .next h.plainWrite

theorem writeEntry {d key : Nat} {v : Word} (h : t.Has P) : State.Leaves P (writeEntry d key v t) := by
  unfold Machine.writeEntry
  dsimp only
  split
  · exact .next h
  · exact .ite (.next h) (.ite (.next h.misuse) (.next h.putCell))

theorem throughAgent {write : State → Res} {addr : Word} (h : t.Has P) (hw : ∀ v : State, v.Has P → State.Leaves P (write v)) :
    State.Leaves P (throughAgent write addr t) := by
  unfold Machine.throughAgent
  dsimp only
  split
  · exact hw _ h.addrErr.lendSpot
  · exact (hw _ h.lendSpot).bind fun _ h => .next h.sumStick
  · exact .next h.sumStick
  · exact .next h

theorem writeSpot {auth : Bool} {x : Spot} {v : Word} {go : Nat → State → Res} (hP : Course.HostClosed P) (h : t.Has P)
    (hg : ∀ d, State.Leaves P (go d t)) : State.Leaves P (writeSpot auth x v go t) := by
  refine .ite (.next h) ?_
  split
  · exact .next h
  · exact .next h.writeSummary
  · exact .next h.stick
  · exact .next h.hostData
  · exact writeEntry h
  · exact .ite (.next h.writeHeader) (.ite (.next (.ite h h.opContext))
      (.ite (.next h.guardReject) (.ite (.ite (hg _) (.next h)) (writeReg hP h))))

theorem authGo {write : Word → Word → State → Res} {d : Nat} (h : t.Has P) (hw : ∀ a w (v : State), v.Has P → State.Leaves P (write a w
      v)) :
    State.Leaves P (authGo write d t) := .ite (hw _ _ _ h.cmdJudge.wr) (.next h.cmdJudge.wr)

theorem writeAt {n : Nat} {auth : Bool} {addr v : Word} (hP : Course.HostClosed P) (h : t.Has P) :
    State.Leaves P (writeAt n auth addr v t) := by
  induction n generalizing t auth addr v with
  | zero => exact writeSpot hP h fun _ => .next h
  | succ n ih => exact writeSpot hP h fun _ => authGo h fun _ _ _ h => throughAgent h fun _ h => ih h

theorem agentWrite {auth : Bool} {addr v : Word} (hP : Course.HostClosed P) (h : t.Has P) : State.Leaves P (agentWrite auth addr v t).2 :=
  throughAgent h fun _ h => writeAt hP h

variable {addr data : Word}

theorem opWriteWord (hP : Course.HostClosed P) (h : t.Has P) : State.Leaves P (opWriteWord addr data t) :=
  .ite (.next h) (.ite (.next h.frameErr) ((agentWrite hP h).bind fun _ h => .next h.answer))

theorem opFrameAbort {cmd : Byte} {phase : FramePhase} (hP : Course.HostClosed P) (h : t.Has P) :
    State.Leaves P (opFrameAbort cmd addr data phase t) := by
  refine .ite (.next h) (.ite (.next h.frameErr) ?_)
  split
  · exact .next h
  · exact .ite (.next h.opReadWord.unanswered) ((opWriteWord hP h).bind fun _ h => .next h.unanswered)

theorem opRegTimeout {write : Bool} (hP : Course.HostClosed P) (h : t.Has P) : State.Leaves P (opRegTimeout write addr data t) :=
  .ite (.next h) (.ite ((agentWrite hP h).bind fun _ h => .next h.sumStick.answer) (.next h.agentRead.sumStick.answer))

theorem opRegisterWrite (hP : Course.HostClosed P) (h : t.Has P) : State.Leaves P (opRegisterWrite addr data t) := by
  unfold Machine.opRegisterWrite
  split
  · exact .ite (writeAt hP h) (.next h)
  · exact .ite (writeAt hP h) (.next h)

theorem authWrite (hP : Course.HostClosed P) (h : t.Has P) : State.Leaves P (authWrite addr data t) := agentWrite hP h

theorem applyEntries {d : Nat} {l : List (Nat × Word)} (hP : Course.HostClosed P) (h : t.Has P) : State.Leaves P (applyEntries d l t) := by
  induction l generalizing t with
  | nil => exact .next h
  | cons e l ih => exact (agentWrite hP h).bind fun _ h => ih (h.when fun _ h => h.sticky)

theorem opImageVerified {d : Nat} (hP : Course.HostClosed P) (h : t.Has P) : State.Leaves P (opImageVerified d t) :=
  .ite (.next h) (.ite (applyEntries hP h.imgEnd) (.next h.imgEnd))

/-- The entries of a management frame, executed in order, answer. -/
theorem mgmtRun {l : List MgmtEntry} {done : List Byte} (hP : Course.HostClosed P) (h : t.Has P) :
    ∃ out u, mgmtRun l done t = .next (out, u) ∧ u.Has P := by
  induction l generalizing done t with
  | nil => exact ⟨done, t, rfl, h⟩
  | cons e l ih =>
    unfold Machine.mgmtRun
    split
    · exact ih h.agentRead
    · split
      · obtain ⟨v, hr, hv⟩ := agentWrite hP (auth := true) (addr := e.addr) (v := e.data) h
        dsimp only
        rw [hr]
        exact ih hv
      · exact ih h.freeN

theorem opManagement {d : Nat} {k : Kept} (hP : Course.HostClosed P) (h : t.Has P) : State.Leaves P (opManagement d k t) := by
  refine .ite (.next h.mgmtReject) (.ite (.next h.cmdJudge.mgmtReject) ?_)
  obtain ⟨out, v, hr, hv⟩ := mgmtRun hP (l := mgmtEntries k.payload) (done := []) (h.cmdJudge
    (d := 0) (ctr := beNat (slice k.payload (mgmtEnd k.payload) 8))
    (verdict := t.cmdCheck 0 (beNat (slice k.payload (mgmtEnd k.payload) 8)) (k.payload.take (mgmtEnd k.payload + 8))
      (slice k.payload (mgmtEnd k.payload + 8) 16)))
  rw [hr]
  exact .next hv.sendFrame

end State.Leaves
/-- Where a command completes, it leaves a course of which P holds. -/
def State.Ensures (P : Course → Prop) (r : Res) : Prop := ∀ u, r = .next u → u.Has P

namespace State.Ensures

variable {r r' : Res} {c : Bool} {f : State → State}

theorem of (h : State.Leaves P r) : State.Ensures P r := by
  rintro u rfl
  obtain ⟨v, hv, h⟩ := h
  cases hv
  exact h

theorem next (h : t.Has P) : State.Ensures P (.next t) := .of (.next h)

theorem fault {e : Fault} : State.Ensures P (.fault e) := fun _ h => nomatch h

theorem ite {c : Prop} [Decidable c] (h : State.Ensures P r) (k : State.Ensures P r') : State.Ensures P (if c then r else r') := by
  split
  · exact h
  · exact k

theorem sanely (h : State.Ensures P r) : State.Ensures P (s.sanely r) := .ite h fault

theorem guarded (h : s.Has P) (hf : s.Has P → (f s).Has P) : State.Ensures P (s.guarded c f) := .sanely (.next (.ite (hf h) h))

theorem always (h : s.Has P) (hf : s.Has P → (f s).Has P) : State.Ensures P (s.always c f) := .next (.ite (hf h) h)

/-- A command whose condition does not hold. -/
theorem off (h : s.Has P) (hc : c = false) : State.Ensures P (s.guarded c f) := by
  subst hc
  exact .sanely (.next h)

theorem alwaysOff (h : s.Has P) (hc : c = false) : State.Ensures P (s.always c f) := by
  subst hc
  exact .next h

theorem iteOff (h : s.Has P) (hc : c = false) : State.Ensures P (if c then r else .next s) := by
  subst hc
  exact .next h

/-- A write on the host interface is refused where a misuse stands that it does not end. -/
theorem maySend (h : State.Ensures P r) : State.Ensures P (if c then r else s.spoilt) := .ite h fault

theorem issue {d e i : Nat} {op : LoopOp} {f : Inst → Word5 → Res} (h : s.Has P) (hf : ∀ x w, State.Leaves P (f x w)) :
    State.Ensures P (s.issue d e i op f) :=
  .ite fault (.ite (.next h) (.ite (.next h.misuse) (.ite (.next h) (.ite (.next h.misuse) (.of (hf _ _))))))

theorem accOp {d e i : Nat} {op : LoopOp} {f : Inst → Word5 → Int → Inst} (h : s.Has P) : State.Ensures P (s.accOp d e i op f) :=
  .issue h fun _ _ => .setInst h

/-! #### Commands that do more than one operation, or one of several -/

theorem execResetHoldEnd {mv : List Nat} {role : BitVec 2} {refsel boot0 : Bool} (h : s.Has P) :
    State.Ensures P (execResetHoldEnd mv role refsel boot0 s) := .always h fun h => by
  extract_lets +onlyGivenNames _ _ t2
  have h2 : t2.Has P := .each (h.each fun _ _ _ h => h.onClk) fun _ _ _ h => h.endHold1
  exact .ite (.congr h2 rfl) h2

theorem execFabricSubmission {d port : Nat} {source dst cls : Nat} (h : s.Has P) :
    State.Ensures P (execFabricSubmission d port source dst cls s) := .guarded h fun h => by
  split
  · exact h.submitA
  · exact h.when fun _ h => h.launch
  · exact h.when fun _ h => h.launch
  · exact h

theorem execFabricTransfer {d : Nat} {what : FabWhich} {how : FabArrival} (h : s.Has P) :
    State.Ensures P (execFabricTransfer d what how s) := .guarded h fun h => by
  split
  · exact .ite h.loseMirror h
  · split
    · exact h
    · exact .ite h (h.takeArrived.outcome.when fun _ h => h.opDeliver)

theorem execStuck {d c edge : Nat} {bits : List Samples} (h : s.Has P) : State.Ensures P (execStuck d c edge bits s) := by
  unfold Machine.execStuck
  exact .guarded h fun h => h.opBits.stoppedClock

theorem execInstanceGrant {d e : Nat} (h : s.Has P) : State.Ensures P (execInstanceGrant d e s) := .guarded h fun h => by
  split
  · exact h.grant
  · exact h

theorem execOut {d e i : Nat} (h : s.Has P) : State.Ensures P (execOut d e i s) := by
  refine .issue h fun _ _ => ?_
  extract_lets
  split
  · exact .setInst h
  · exact .setInst h

theorem execResendTimeout {d n : Nat} {cls : BitVec 2} (h : s.Has P) :
    State.Ensures P (execResendTimeout d n cls s) := .guarded h fun h => by
  split
  · exact h
  · split
    · exact h
    · exact .ite h (.ite h.resend h.nodeResend)

theorem execCaravanFinalise {d : Nat} {cid : Byte} {returned : Nat} {results : List Word} (h : s.Has P) :
    State.Ensures P (execCaravanFinalise d cid returned results s) := .guarded h fun h => by
  split
  · exact h
  · exact .ite h h.opFinalise

theorem execRemoteTimeout {d : Nat} (h : s.Has P) : State.Ensures P (execRemoteTimeout d s) := .guarded h fun h => by
  split
  · split
    · exact .ite h.endRemote h
    · exact h
  · exact h

theorem execPllRelock {d : Nat} {pll : Pll} (h : s.Has P) : State.Ensures P (execPllRelock d pll s) := .guarded h fun h => by
  split
  · exact .ite h h.wrB
  · exact .ite h (.ite (h.onClk.lockFpll.sticky.lower.when fun _ h => h.wrB) h.wrB)

theorem execMdioDone {data : BitVec 16} (h : s.Has P) : State.Ensures P (execMdioDone data s) := .guarded h fun h => by
  split
  · exact h
  · exact .ite h (.ite h.wrB.onNet h.wrB.onNet.wr)

theorem execFrameReceive {d : Nat} {f : EthFrame} (h : s.Has P) : State.Ensures P (execFrameReceive d f s) := .guarded h fun h => by
  split
  · exact h.sticky
  · split
    · exact h
    · split
      · exact h.bump
      · exact h
      · exact h
      · exact h.keepFrame
      · exact h.keepFrame
      · exact h.keepFrame

theorem execArpRequest {d : Nat} (h : s.Has P) : State.Ensures P (execArpRequest d s) := .guarded h fun h => by
  split
  · exact h
  · next hk => exact (h.takeKept hk).sendFrame

theorem execSafetyTelegram {d : Nat} (h : s.Has P) : State.Ensures P (execSafetyTelegram d s) := .guarded h fun h => by
  split
  · exact h
  · next hk => exact .when ((h.takeKept hk).onDie) fun _ h => h.launch

theorem execManagementFrame {d : Nat} (hP : Course.HostClosed P) (h : s.Has P) : State.Ensures P (execManagementFrame d s) := by
  refine .sanely ?_
  split
  · exact .ite (.of (.opManagement hP h.onNet)) (.next h)
  · exact .next h

theorem execPpsOutRise (h : s.Has P) : State.Ensures P (execPpsOutRise s) := .guarded h fun h => by
  split
  · exact h
  · exact .ite h (.onNet (.congr h rfl))

theorem execPpsOutFall (h : s.Has P) : State.Ensures P (execPpsOutFall s) := .guarded h fun h => by
  split
  · exact h
  · exact .ite h (.onNet (.congr h rfl))

theorem execResetLong {ch f : Nat} (h : s.Has P) : State.Ensures P (execResetLong ch f s) := .always h fun h => by
  split
  · exact h
  · exact .ite h h.sticky.onSaf

theorem execOutputTestPulse {ch j : Nat} {readback : Bool} (h : s.Has P) :
    State.Ensures P (execOutputTestPulse ch j readback s) := .always h fun h => by
  dsimp only
  split
  · exact .ite h.onSaf.setBall h
  · exact .ite h.wrB.onSaf h

theorem execTelegramTake {ch : Nat} (h : s.Has P) : State.Ensures P (execTelegramTake ch s) := .always h fun h => by
  split
  · exact h
  · exact h.onSaf.opTelegram

theorem execSliceStart {d : Nat} (h : s.Has P) : State.Ensures P (execSliceStart d s) := .guarded h fun h => by
  split
  · exact h
  · exact h.wrB.wr.wr.onBist

theorem execEngineTestStart {d : Nat} (h : s.Has P) : State.Ensures P (execEngineTestStart d s) := .guarded h fun h => by
  split
  · exact h
  · split
    · exact h
    · split
      · exact h
      · exact h.onInst.wrB.onBist

theorem execSecOpDone {d : Nat} (h : s.Has P) : State.Ensures P (execSecOpDone d s) := .guarded h fun h => by
  split
  · exact h
  · exact .ite (.ite h.wr.onSec.wr.sticky.setKey h.wr.onSec.wr.sticky.putBuf) h.wr.onSec.wr.sticky

theorem execPtpSend {d : Nat} {m : PtpSend} {fine : Nat} (h : s.Has P) : State.Ensures P (execPtpSend d m fine s) := by
  unfold Machine.execPtpSend
  exact .guarded h fun h => h.txFrame.onNet

theorem execNodeSelfReset {cycles : Nat} (hh : s.isHead = true) (h : s.Has P) : State.Ensures P (execNodeSelfReset cycles s) :=
  .alwaysOff h (by simp [hh])

theorem execStateCmdConfig (hP : Course.HostClosed P) (h : s.Has P) : State.Ensures P (execStateCmdConfig s) :=
  .guarded h fun h => .opStateCmdWrite fun _ => hP.cmds _ _ h

theorem execStateCmdStandstill (hP : Course.HostClosed P) (h : s.Has P) : State.Ensures P (execStateCmdStandstill s) :=
  .guarded h fun h => .opStateCmdWrite fun _ => hP.cmds _ _ h

theorem execStateCmdStartup (hP : Course.HostClosed P) (h : s.Has P) : State.Ensures P (execStateCmdStartup s) :=
  .guarded h fun h => .opStateCmdWrite fun _ => hP.cmds _ _ h

theorem execStateCmdRun (hP : Course.HostClosed P) (h : s.Has P) : State.Ensures P (execStateCmdRun s) :=
  .guarded h fun h => .opStateCmdWrite fun _ => hP.cmds _ _ h

theorem execStateCmdTest (hP : Course.HostClosed P) (h : s.Has P) : State.Ensures P (execStateCmdTest s) :=
  .guarded h fun h => .opStateCmdWrite fun _ => hP.cmds _ _ h

theorem execStateCmdRecovery (hP : Course.HostClosed P) (h : s.Has P) : State.Ensures P (execStateCmdRecovery s) :=
  .guarded h fun h => .opStateCmdWrite fun _ => hP.cmds _ _ h

theorem execStateCmdOther {target : BitVec 4} (hP : Course.HostClosed P) (h : s.Has P) : State.Ensures P (execStateCmdOther target s) :=
  .guarded h fun h => .opStateCmdWrite fun _ => hP.cmds _ _ h

theorem execReadWord {addr : Word} (h : s.Has P) : State.Ensures P (execReadWord addr s) := .sanely (.of (.next (.opReadWord h)))

theorem execWriteWord {addr data : Word} (hP : Course.HostClosed P) (h : s.Has P) : State.Ensures P (execWriteWord addr data s) :=
  .maySend (.of (.opWriteWord hP h))

theorem execFrameAbort {cmd : Byte} {addr data : Word} {phase : FramePhase} (hP : Course.HostClosed P) (h : s.Has P) :
    State.Ensures P (execFrameAbort cmd addr data phase s) := .maySend (.of (.opFrameAbort hP h))

theorem execRegTimeout {write : Bool} {addr data : Word} (hP : Course.HostClosed P) (h : s.Has P) :
    State.Ensures P (execRegTimeout write addr data s) := .maySend (.of (.opRegTimeout hP h))

theorem execRegisterWrite {addr data : Word} (hP : Course.HostClosed P) (h : s.Has P) : State.Ensures P (execRegisterWrite addr data s) :=
  .maySend (.of (.opRegisterWrite hP h))

theorem execStickyClear {d page : Nat} {mask : Word} (h : s.Has P) : State.Ensures P (execStickyClear d page mask s) :=
  .guarded h fun h => h.opStickyClear

theorem execSoftReset {d page : Nat} {value : Word} (h : s.Has P) : State.Ensures P (execSoftReset d page value s) :=
  .ite (.of (.next (.opPageCtrl h))) (.guarded h fun h => h.opPageCtrl)

theorem execPageLock {d page : Nat} (h : s.Has P) : State.Ensures P (execPageLock d page s) := .guarded h fun h => h.opPageCtrl

theorem execBlockEn {d page : Nat} {on : Bool} (h : s.Has P) : State.Ensures P (execBlockEn d page on s) := .guarded h fun h => h.opPageCtrl

theorem execSummaryUpdate (h : s.Has P) : State.Ensures P (execSummaryUpdate s) := .guarded h fun h => h

theorem execLinkDown {d : Nat} {link : FabLink} (h : s.Has P) : State.Ensures P (execLinkDown d link s) := .guarded h fun h => h.opLinkDown

theorem execResEntryWrite {d i : Nat} {value : Word} (h : s.Has P) : State.Ensures P (execResEntryWrite d i value s) :=
  .guarded h fun h => h.opResEntry

theorem execMilestoneReached {d : Nat} (h : s.Has P) : State.Ensures P (execMilestoneReached d s) := .guarded h fun h => h.opMilestones

theorem execLoad {d i : Nat} (h : s.Has P) : State.Ensures P (execLoad d i s) := .guarded h fun h => h.opMsArm

theorem execDisarm {d i : Nat} (h : s.Has P) : State.Ensures P (execDisarm d i s) := .guarded h fun h => h.opMsArm

theorem execArm {d i : Nat} (h : s.Has P) : State.Ensures P (execArm d i s) := .guarded h fun h => h.opMsArm

theorem execSnapSel {d domain : Nat} (h : s.Has P) : State.Ensures P (execSnapSel d domain s) := .guarded h fun h => h.opSnapSel

theorem execDomainChange {d domain : Nat} {reg : AdReg} {value : Word} (h : s.Has P) :
    State.Ensures P (execDomainChange d domain reg value s) := .guarded h fun h => h.opDomainChange

theorem execMirrorRecord {domain : Nat} (h : s.Has P) : State.Ensures P (execMirrorRecord domain s) := .guarded h fun h => h.opMirrorRecord

theorem execSlewEnd {d domain : Nat} (h : s.Has P) : State.Ensures P (execSlewEnd d domain s) := .guarded h fun h => h.onDom

theorem execTrackerSample {d c : Nat} (h : s.Has P) : State.Ensures P (execTrackerSample d c s) := .guarded h fun h => h.opTrackerSample

theorem execCoastLoss {d c : Nat} (h : s.Has P) : State.Ensures P (execCoastLoss d c s) := .guarded h fun h => h.setLoss.lossSource

theorem execLocked {d c : Nat} (h : s.Has P) : State.Ensures P (execLocked d c s) := .guarded h fun h => h.wrB

theorem execTrackerStandstill {d c : Nat} (h : s.Has P) : State.Ensures P (execTrackerStandstill d c s) := .guarded h fun h => h.standStill

theorem execQuadTransition {d c : Nat} {qa qb : Bool} {stable : Nat} (hh : s.isHead = true) (h : s.Has P) :
    State.Ensures P (execQuadTransition d c qa qb stable s) := .off h (by simp [hh])

theorem execPulseEdge {d c : Nat} {ball : Bool} {stable : Nat} (h : s.Has P) : State.Ensures P (execPulseEdge d c ball stable s) :=
  .guarded h fun h => h.onTrk.transition

theorem execRestart {d c : Nat} (h : s.Has P) : State.Ensures P (execRestart d c s) := .guarded h fun h => h.opRestart

theorem execSdcCfgWrite {d k : Nat} {value : Word} (h : s.Has P) : State.Ensures P (execSdcCfgWrite d k value s) :=
  .guarded h fun h => h.opSdcCfg

theorem execChEnWrite {d : Nat} {value : Word} (h : s.Has P) : State.Ensures P (execChEnWrite d value s) := .guarded h fun h => h.opChEn

theorem execChannelSettled {d c edge : Nat} {bits : List Samples} (h : s.Has P) : State.Ensures P (execChannelSettled d c edge bits s) :=
  .guarded h fun h => h.opBits

theorem execFastResult {d c edge : Nat} {bits : List Samples} (h : s.Has P) : State.Ensures P (execFastResult d c edge bits s) :=
  .guarded h fun h => h.opBits

theorem execSlotEnWrite {d : Nat} {hi : Bool} {value : Word} (h : s.Has P) : State.Ensures P (execSlotEnWrite d hi value s) :=
  .guarded h fun h => h.opSlotEn

theorem execSlotCascWrite {d slot : Nat} {value : Word} (h : s.Has P) : State.Ensures P (execSlotCascWrite d slot value s) :=
  .guarded h fun h => h.opSlotCasc

theorem execSpsWrite {d slot : Nat} {hi : Bool} {value : Word} (h : s.Has P) : State.Ensures P (execSpsWrite d slot hi value s) :=
  .guarded h fun h => h.opSps

theorem execNop {d e i : Nat} (h : s.Has P) : State.Ensures P (execNop d e i s) := .issue h fun _ _ => .setInst h

theorem execLd {d e i : Nat} (h : s.Has P) : State.Ensures P (execLd d e i s) := .accOp h

theorem execLdw {d e i : Nat} (h : s.Has P) : State.Ensures P (execLdw d e i s) := .issue h fun _ _ => .setInst h

theorem execSt {d e i : Nat} (h : s.Has P) : State.Ensures P (execSt d e i s) := .issue h fun _ _ => .storeState h

theorem execSts {d e i : Nat} (h : s.Has P) : State.Ensures P (execSts d e i s) := .issue h fun _ _ => .storeState h

theorem execMovw {d e i : Nat} (h : s.Has P) : State.Ensures P (execMovw d e i s) := .issue h fun _ _ => .setInst h

theorem execMac {d e i : Nat} (h : s.Has P) : State.Ensures P (execMac d e i s) := .accOp h

theorem execMsu {d e i : Nat} (h : s.Has P) : State.Ensures P (execMsu d e i s) := .accOp h

theorem execMul {d e i : Nat} (h : s.Has P) : State.Ensures P (execMul d e i s) := .accOp h

theorem execAdd {d e i : Nat} (h : s.Has P) : State.Ensures P (execAdd d e i s) := .accOp h

theorem execSub {d e i : Nat} (h : s.Has P) : State.Ensures P (execSub d e i s) := .accOp h

theorem execShl {d e i : Nat} (h : s.Has P) : State.Ensures P (execShl d e i s) := .issue h fun _ _ => .setInst h

theorem execShr {d e i : Nat} (h : s.Has P) : State.Ensures P (execShr d e i s) := .issue h fun _ _ => .setInst h

theorem execNeg {d e i : Nat} (h : s.Has P) : State.Ensures P (execNeg d e i s) := .issue h fun _ _ => .setInst h

theorem execAbs {d e i : Nat} (h : s.Has P) : State.Ensures P (execAbs d e i s) := .issue h fun _ _ => .setInst h

theorem execLim {d e i : Nat} (h : s.Has P) : State.Ensures P (execLim d e i s) := .issue h fun _ _ => .setInst h

theorem execIntg {d e i : Nat} (h : s.Has P) : State.Ensures P (execIntg d e i s) := .issue h fun _ _ => .storeState h

theorem execDly {d e i : Nat} (h : s.Has P) : State.Ensures P (execDly d e i s) := .issue h fun _ _ => .storeState h

theorem execSel {d e i : Nat} (h : s.Has P) : State.Ensures P (execSel d e i s) := .accOp h

theorem execTab {d e i : Nat} (h : s.Has P) : State.Ensures P (execTab d e i s) := .issue h fun _ _ => .setInst h

theorem execDiv {d e i : Nat} (h : s.Has P) : State.Ensures P (execDiv d e i s) := .accOp h

theorem execSincos {d e i : Nat} (h : s.Has P) : State.Ensures P (execSincos d e i s) := .issue h fun _ _ => .setInst h

theorem execInp {d e i : Nat} (h : s.Has P) : State.Ensures P (execInp d e i s) := .accOp h

theorem execSpt {d e i : Nat} (h : s.Has P) : State.Ensures P (execSpt d e i s) := .issue h fun _ _ => .storeState h

theorem execFlag {d e i : Nat} (h : s.Has P) : State.Ensures P (execFlag d e i s) := .issue h fun _ _ => .storeState h

theorem execCmp {d e i : Nat} (h : s.Has P) : State.Ensures P (execCmp d e i s) := .accOp h

theorem execBrf {d e i : Nat} (h : s.Has P) : State.Ensures P (execBrf d e i s) := .issue h fun _ _ => .setInst h

theorem execEndRun {d e i : Nat} (h : s.Has P) : State.Ensures P (execEndRun d e i s) := .issue h fun _ _ => .ite (.next h) (.opEnd h)

theorem execInvalidInstruction {d e i : Nat} (h : s.Has P) : State.Ensures P (execInvalidInstruction d e i s) :=
  .issue h fun _ _ => .ite (.opEnd h) (.next h)

theorem execPlanStart {d : Nat} {fails : List (Nat × Bool)} (h : s.Has P) : State.Ensures P (execPlanStart d fails s) :=
  .guarded h fun h => h.opPlanStart

theorem execPlanEnd {d : Nat} (h : s.Has P) : State.Ensures P (execPlanEnd d s) := .guarded h fun h => h.opPlanEnd

theorem execManifestTransfer {d ringSlot : Nat} (h : s.Has P) : State.Ensures P (execManifestTransfer d ringSlot s) :=
  .guarded h fun h => h.opManifestTransfer

theorem execRingLinkUp {d : Nat} {r : Ring} {seen : List Sight} (h : s.Has P) : State.Ensures P (execRingLinkUp d r seen s) :=
  .always h fun h => h.opRingLinkUp

theorem execRingLinkDown {d : Nat} {r : Ring} {seen : List Sight} (h : s.Has P) : State.Ensures P (execRingLinkDown d r seen s) :=
  .always h fun h => h.opRingLinkDown

theorem execRingBreak {d : Nat} {r : Ring} {link : Nat} (h : s.Has P) : State.Ensures P (execRingBreak d r link s) :=
  .always h fun h => h.opRingBreak

theorem execRingBreakClear {d : Nat} {r : Ring} {link : Nat} (h : s.Has P) : State.Ensures P (execRingBreakClear d r link s) :=
  .guarded h fun h => h.opRingBreakClear

theorem execBlockForward {r : Ring} {blk : RingBlock} (hh : s.isHead = true) (h : s.Has P) : State.Ensures P (execBlockForward r blk s) :=
  .off h (by simp [hh])

theorem execSilent (hh : s.isHead = true) (h : s.Has P) : State.Ensures P (execSilent s) := .alwaysOff h (by simp [State.silentDue, hh])

theorem execRingBlockClear (hh : s.isHead = true) (h : s.Has P) : State.Ensures P (execRingBlockClear s) := .off h (by simp [hh])

theorem execAlert {d : Nat} {blk : RingBlock} (h : s.Has P) : State.Ensures P (execAlert d blk s) := .guarded h fun h => h.opAlert

theorem execAckReceived {d : Nat} {ack : BitVec 16} (h : s.Has P) : State.Ensures P (execAckReceived d ack s) :=
  .guarded h fun h => .ite h.opHeadAck h.opNodeAck

theorem execSyncSend {d : Nat} (h : s.Has P) : State.Ensures P (execSyncSend d s) := .guarded h fun h => h.opSyncSend

theorem execSync {r : Ring} {blk : RingBlock} {arr : Nat} (hh : s.isHead = true) (h : s.Has P) : State.Ensures P (execSync r blk arr s) :=
  .off h (by simp [State.hearsA, hh])

theorem execDelaySend {d : Nat} (h : s.Has P) : State.Ensures P (execDelaySend d s) := .guarded h fun h => h.opDelaySend

theorem execDelay {r : Ring} {blk : RingBlock} {arr : Nat} (hh : s.isHead = true) (h : s.Has P) : State.Ensures P (execDelay r blk arr s) :=
  .off h (by simp [State.hearsA, hh])

theorem execDelayReturn {d : Nat} {la lb : Option Nat} (h : s.Has P) : State.Ensures P (execDelayReturn d la lb s) :=
  .guarded h fun h => h.opDelayReturn

theorem execEnumGo {d : Nat} (h : s.Has P) : State.Ensures P (execEnumGo d s) := .sanely (.of (.ite (.opEnumGo h) (.next h)))

theorem execEnumReturn {d : Nat} {ca cb : Option (Nat × Nat)} (h : s.Has P) : State.Ensures P (execEnumReturn d ca cb s) :=
  .guarded h fun h => h.opEnumReturn

theorem execCaravan {r : Ring} {blk : RingBlock} (hh : s.isHead = true) (h : s.Has P) : State.Ensures P (execCaravan r blk s) :=
  .off h (by simp [State.hearsA, hh])

theorem execSetpt {blk : RingBlock} (hh : s.isHead = true) (h : s.Has P) : State.Ensures P (execSetpt blk s) :=
  .off h (by simp [State.hearsA, hh])

theorem execStateSend {d : Nat} (h : s.Has P) : State.Ensures P (execStateSend d s) := .guarded h fun h => h.opStateSend

theorem execState {blk : RingBlock} (hh : s.isHead = true) (h : s.Has P) : State.Ensures P (execState blk s) :=
  .off h (by simp [State.hearsA, hh])

theorem execBlockSend {d : Nat} (h : s.Has P) : State.Ensures P (execBlockSend d s) := .guarded h fun h => h.opBlockSend

theorem execBlock {blk : RingBlock} (hh : s.isHead = true) (h : s.Has P) : State.Ensures P (execBlock blk s) :=
  .alwaysOff h (by simp [State.hearsA, hh])

theorem execContextFieldWrite {d n field : Nat} {value : BitVec 16} (h : s.Has P) :
    State.Ensures P (execContextFieldWrite d n field value s) := .guarded h fun h => h.opContext

theorem execCtxWrite {r : Ring} {blk : RingBlock} (hh : s.isHead = true) (h : s.Has P) : State.Ensures P (execCtxWrite r blk s) :=
  .off h (by simp [State.toNode, hh])

theorem execCtxDataSend (hh : s.isHead = true) (h : s.Has P) : State.Ensures P (execCtxDataSend s) :=
  .off h (by simp [State.nodeMaySend, hh])

theorem execCtxData {d : Nat} {r : Ring} {blk : RingBlock} (h : s.Has P) : State.Ensures P (execCtxData d r blk s) :=
  .guarded h fun h => h.opCtxData

theorem execRemoteRead {d n : Nat} (h : s.Has P) : State.Ensures P (execRemoteRead d n s) := .guarded h fun h => h.opRemote

theorem execRemoteWrite {d n : Nat} (h : s.Has P) : State.Ensures P (execRemoteWrite d n s) := .guarded h fun h => h.opRemote

theorem execRegReq {r : Ring} {blk : RingBlock} (hh : s.isHead = true) (h : s.Has P) : State.Ensures P (execRegReq r blk s) :=
  .sanely (.iteOff h (by simp [State.toNode, hh]))

theorem execRegRsp {d : Nat} {r : Ring} {blk : RingBlock} (h : s.Has P) : State.Ensures P (execRegRsp d r blk s) :=
  .guarded h fun h => h.opRegRsp

theorem execRingModeWrite {d : Nat} {value : Word} (h : s.Has P) : State.Ensures P (execRingModeWrite d value s) :=
  .sanely (.of (.ite (.opRingCtrl h) (.next h)))

theorem execRresWrite {d i : Nat} {value : Word} (h : s.Has P) : State.Ensures P (execRresWrite d i value s) := .guarded h fun h => h.opRres

theorem execEdgeExecute {b : Nat} (hh : s.isHead = true) (h : s.Has P) : State.Ensures P (execEdgeExecute b s) :=
  .alwaysOff h (by simp [State.pathOn, hh])

theorem execManifestExpiry {b : Nat} (hh : s.isHead = true) (h : s.Has P) : State.Ensures P (execManifestExpiry b s) :=
  .alwaysOff h (by simp [State.pathOn, hh])

theorem execDeadTimeEnd {leg : Nat} (hh : s.isHead = true) (h : s.Has P) : State.Ensures P (execDeadTimeEnd leg s) :=
  .alwaysOff h (by simp [State.pathOn, hh])

theorem execDabB1Edge (hh : s.isHead = true) (h : s.Has P) : State.Ensures P (execDabB1Edge s) :=
  .alwaysOff h (by simp [State.dabOn, State.pathOn, hh])

theorem execDabB2Edge (hh : s.isHead = true) (h : s.Has P) : State.Ensures P (execDabB2Edge s) :=
  .alwaysOff h (by simp [State.dabOn, State.pathOn, hh])

theorem execLegCrossing {leg : Nat} (hh : s.isHead = true) (h : s.Has P) : State.Ensures P (execLegCrossing leg s) :=
  .alwaysOff h (by simp [State.legModeOn, State.pathOn, hh])

theorem execCarrierPeak {leg : Nat} (hh : s.isHead = true) (h : s.Has P) : State.Ensures P (execCarrierPeak leg s) :=
  .alwaysOff h (by simp [State.legModeOn, State.pathOn, hh])

theorem execPinCommand {b : Nat} {p n z : Bool × Nat} (hh : s.isHead = true) (h : s.Has P) : State.Ensures P (execPinCommand b p n z s) :=
  .alwaysOff h (by simp [State.pathOn, hh])

theorem execBgSrcWrite {value : Word} (h : s.Has P) : State.Ensures P (execBgSrcWrite value s) := .guarded h fun h => h.opBgSrc

theorem execTrip {leg : Nat} {senses : List Nat} (hh : s.isHead = true) (h : s.Has P) : State.Ensures P (execTrip leg senses s) :=
  .alwaysOff h (by simp [State.guardOn, State.pathOn, hh])

theorem execEndBlank {leg : Nat} {senses : List Nat} (hh : s.isHead = true) (h : s.Has P) : State.Ensures P (execEndBlank leg senses s) :=
  .alwaysOff h (by simp [State.guardOn, State.pathOn, hh])

theorem execDriverTrip {leg : Nat} {low : List Bool} (hh : s.isHead = true) (h : s.Has P) : State.Ensures P (execDriverTrip leg low s) :=
  .alwaysOff h (by simp [State.guardOn, State.pathOn, hh])

theorem execSlowHigh {b : Nat} (hh : s.isHead = true) (h : s.Has P) : State.Ensures P (execSlowHigh b s) :=
  .alwaysOff h (by simp [State.pathOn, hh])

theorem execGatesLow {leg : Nat} (hh : s.isHead = true) (h : s.Has P) : State.Ensures P (execGatesLow leg s) :=
  .alwaysOff h (by simp [State.pathOn, hh])

theorem execSlowHoldEnd {b : Nat} (hh : s.isHead = true) (h : s.Has P) : State.Ensures P (execSlowHoldEnd b s) :=
  .alwaysOff h (by simp [State.pathOn, hh])

theorem execUnlock {legs : BitVec 6} {senses : List Nat} {gflt : BitVec 6} (hh : s.isHead = true) (h : s.Has P) :
    State.Ensures P (execUnlock legs senses gflt s) := .alwaysOff h (by simp [State.pathOn, hh])

theorem execReferenceLost {d : Nat} {second : Bool} {cycles : Nat} (h : s.Has P) : State.Ensures P (execReferenceLost d second cycles s) :=
  .always h fun h => h.each fun _ _ _ h => h.wrB.loseRef

theorem execReferencePresent {d : Nat} {second : Bool} {cycles : Nat} {cdr : Bool} (h : s.Has P) :
    State.Ensures P (execReferencePresent d second cycles cdr s) := .guarded h fun h => h.each fun _ _ _ h => h.wrB.endHold

theorem execRefReturn {d : Nat} (h : s.Has P) : State.Ensures P (execRefReturn d s) := .guarded h fun h => h.opRefReturn

theorem execFpllLoss {d : Nat} {errs : List Int} {still : Nat} (h : s.Has P) : State.Ensures P (execFpllLoss d errs still s) :=
  .always h fun h => h.opFpllLoss

theorem execDllLoss {d : Nat} (h : s.Has P) : State.Ensures P (execDllLoss d s) := .always h fun h => h.wrB.sticky.raise

theorem execDllRelock {d : Nat} (h : s.Has P) : State.Ensures P (execDllRelock d s) := .guarded h fun h => h.wrB.lower

theorem execUpdate {d : Nat} (h : s.Has P) : State.Ensures P (execUpdate d s) := .guarded h fun h => h.opUpdate

theorem execGuardFail {d : Nat} {khz : Nat} (h : s.Has P) : State.Ensures P (execGuardFail d khz s) :=
  .guarded h fun h => .ite h.wr.wrB.lower h.wr.wrB.sticky.raise

theorem execVtEdge {d : Nat} {tvt fvt : Byte} {tFor fFor : Nat} (h : s.Has P) : State.Ensures P (execVtEdge d tvt fvt tFor fFor s) :=
  .guarded h fun h => h.wr.wr.when fun _ h => h.sticky

theorem execNetLinkChange {d : Nat} {pcs an : Bool} {speed : Nat} {full : Bool} (h : s.Has P) :
    State.Ensures P (execNetLinkChange d pcs an speed full s) := .guarded h fun h => .ite (.ite h.wrB h.wrB.wrB.setPtpState.onNet)
      (h.wrB.netDown.when fun _ h => h.sticky)

theorem execMdioRead {phy reg : BitVec 5} (h : s.Has P) : State.Ensures P (execMdioRead phy reg s) := .guarded h fun h => h.opMdio

theorem execMdioWrite {phy reg : BitVec 5} {data : BitVec 16} (h : s.Has P) : State.Ensures P (execMdioWrite phy reg data s) :=
  .guarded h fun h => h.opMdio

theorem execPtpMessage {d : Nat} {domain : Byte} {fine : Nat} {m : PtpMsg} (h : s.Has P) :
    State.Ensures P (execPtpMessage d domain fine m s) := .guarded h fun h => h.expireAnnounce.expireAnnounce.opPtp

theorem execSupervisionSend (h : s.Has P) : State.Ensures P (execSupervisionSend s) := .guarded h fun h => h.txFrame.txFrame.onNet

theorem execHsrForward {d : Nat} {f : EthFrame} {residence : Nat} (h : s.Has P) : State.Ensures P (execHsrForward d f residence s) :=
  .guarded h fun h => h.txFrame

theorem execDuplicateExpiry {d : Nat} (h : s.Has P) : State.Ensures P (execDuplicateExpiry d s) := .guarded h fun h => h.onNet

theorem execTdStep {n : Nat} {value : Word} (h : s.Has P) : State.Ensures P (execTdStep n value s) := .guarded h fun h => h.opTdCtrl

theorem execSyncLoss {n : Nat} (h : s.Has P) : State.Ensures P (execSyncLoss n s) := .guarded h fun h => h.enterHold

theorem execAnnounceTimeout {d : Nat} (h : s.Has P) : State.Ensures P (execAnnounceTimeout d s) := .guarded h fun h => h.expireAnnounce

theorem execPpsInEdge {stable : Nat} (h : s.Has P) : State.Ensures P (execPpsInEdge stable s) :=
  .guarded h fun h => h.wr.wr.onNet.each fun _ _ _ h => h.servo

theorem execInputAccept {ch : Nat} {fb : Bool} {i : Nat} {levels : List (Bool × Nat)} (h : s.Has P) :
    State.Ensures P (execInputAccept ch fb i levels s) := .always h fun h => h.opInput

theorem execSafetyCycle {ch : Nat} (h : s.Has P) : State.Ensures P (execSafetyCycle ch s) := .always h fun h => h.opSafetyCycle

theorem execDiscrepancy {ch f : Nat} {hand2 : Bool} (h : s.Has P) : State.Ensures P (execDiscrepancy ch f hand2 s) :=
  .always h fun h => h.settlePair.judgePair

theorem execTestPulse {n : Nat} (h : s.Has P) : State.Ensures P (execTestPulse n s) := .always h fun h => h.onSaf.driveTp

theorem execInputTest {ch i : Nat} {raw : Bool} (h : s.Has P) : State.Ensures P (execInputTest ch i raw s) :=
  .always h fun h => h.when fun _ h => h.safFault

theorem execReadback {ch j : Nat} {level : Bool} (h : s.Has P) : State.Ensures P (execReadback ch j level s) :=
  .always h fun h => h.wrB.onSaf

theorem execFeedback {ch j : Nat} (h : s.Has P) : State.Ensures P (execFeedback ch j s) := .always h fun h => h.onSaf

theorem execCrossImage {ch : Nat} (h : s.Has P) : State.Ensures P (execCrossImage ch s) := .always h fun h => h.opCrossImage

theorem execCrossImageAbsent {ch : Nat} (h : s.Has P) : State.Ensures P (execCrossImageAbsent ch s) := .always h fun h => h.imageAbsent

theorem execSafRstCmd {ch : Nat} {auth : Bool} {value : Word} (h : s.Has P) : State.Ensures P (execSafRstCmd ch auth value s) :=
  .guarded h fun h => .ite h.opSafRst h.opSafUnauth

theorem execSafConfigWrite {ch : Nat} {offset : Nat} {auth : Bool} {value : Word} (h : s.Has P) :
    State.Ensures P (execSafConfigWrite ch offset auth value s) := .guarded h fun h => .ite h.opSafConfig h.opSafUnauth

theorem execWatchdogExpiry {ch c : Nat} (h : s.Has P) : State.Ensures P (execWatchdogExpiry ch c s) := .always h fun h => h.watchdog

theorem execDegradedEnd {ch c : Nat} (h : s.Has P) : State.Ensures P (execDegradedEnd ch c s) := .always h fun h => h.endDegraded

theorem execFfReactWrite {d : Nat} {value : Word} (h : s.Has P) : State.Ensures P (execFfReactWrite d value s) :=
  .guarded h fun h => h.opFfReact

theorem execTempSample {d : Nat} {raws : List Int} (h : s.Has P) : State.Ensures P (execTempSample d raws s) :=
  .guarded h fun h => h.opTempSample

theorem execNeighbourWrite {d n : Nat} (h : s.Has P) : State.Ensures P (execNeighbourWrite d n s) := .guarded h fun h => h.opNeighbour

theorem execSliceEnd {d : Nat} {fails : List FailCell} (h : s.Has P) : State.Ensures P (execSliceEnd d fails s) :=
  .guarded h fun h => h.opSliceEnd

theorem execFuseBurn {d m : Nat} (h : s.Has P) : State.Ensures P (execFuseBurn d m s) := .guarded h fun h => h.opFuseBurn

theorem execFuseDone {d : Nat} (h : s.Has P) : State.Ensures P (execFuseDone d s) := .guarded h fun h => h.opFuseDone

theorem execEngineTestYield {d : Nat} (h : s.Has P) : State.Ensures P (execEngineTestYield d s) := .guarded h fun h => h.opEngineYield

theorem execEngineTestEnd {d : Nat} {issues : Nat} {sig : Word} (h : s.Has P) : State.Ensures P (execEngineTestEnd d issues sig s) :=
  .guarded h fun h => h.endTest

theorem execPatrolRead {d : Nat} {first second : Bool} (h : s.Has P) : State.Ensures P (execPatrolRead d first second s) :=
  .guarded h fun h => .onBist (.wr (.ite h (.ite h.bump.sticky h.bump.wr.sticky)))

theorem execImageStart {d : Nat} {type : BitVec 3} (h : s.Has P) : State.Ensures P (execImageStart d type s) :=
  .guarded h fun h => h.opImgStart

theorem execImageAbort {d : Nat} (h : s.Has P) : State.Ensures P (execImageAbort d s) := .guarded h fun h => h.opImgAbort

theorem execImageWord {d : Nat} {word : Word} (h : s.Has P) : State.Ensures P (execImageWord d word s) :=
  .sanely (.of (.ite (.opImgWord h) (.next h)))

theorem execImageVerified {d : Nat} (hP : Course.HostClosed P) (h : s.Has P) : State.Ensures P (execImageVerified d s) :=
  .sanely (.of (.ite (.opImageVerified hP h) (.next h)))

theorem execAttest {d : Nat} (h : s.Has P) : State.Ensures P (execAttest d s) := .guarded h fun h => h.opAttest

theorem execEstablishKey {d : Nat} {slot : BitVec 2} (h : s.Has P) : State.Ensures P (execEstablishKey d slot s) :=
  .guarded h fun h => h.opEstablishKey

theorem execAuthGo {d : Nat} (hP : Course.HostClosed P) (h : s.Has P) : State.Ensures P (execAuthGo d s) :=
  .sanely (.of (.ite (.authGo h fun _ _ _ h => .authWrite hP h) (.next h)))

theorem execFuseProgram {d : Nat} {slot : BitVec 2} {auth : Bool} (h : s.Has P) : State.Ensures P (execFuseProgram d slot auth s) :=
  .guarded h fun h => h.opFuseProgram

theorem execFuseRevoke {d : Nat} {slot : BitVec 2} {auth : Bool} (h : s.Has P) : State.Ensures P (execFuseRevoke d slot auth s) :=
  .guarded h fun h => h.opFuseRevoke

theorem execFuseOpDone {d : Nat} (h : s.Has P) : State.Ensures P (execFuseOpDone d s) := .guarded h fun h => h.opFuseOpDone

theorem execStreamRecord {d : Nat} (h : s.Has P) : State.Ensures P (execStreamRecord d s) := .guarded h fun h => .opStreamRecord (h.onRec)

theorem execCaptureSend (hh : s.isHead = true) (h : s.Has P) : State.Ensures P (execCaptureSend s) :=
  .off h (by simp [State.nodeMaySend, hh])

theorem execCapture {d : Nat} {r : Ring} {blk : RingBlock} (h : s.Has P) : State.Ensures P (execCapture d r blk s) :=
  .guarded h fun h => h.opCapture

theorem execLedgerEnable {d : Nat} {on : Bool} (h : s.Has P) : State.Ensures P (execLedgerEnable d on s) := .guarded h fun h => h.opLedgerEn

theorem execTrig {c : BitVec 4} (h : s.Has P) : State.Ensures P (execTrig c s) := .guarded h fun h => h.opTrig

theorem execLedgerTrigger (h : s.Has P) : State.Ensures P (execLedgerTrigger s) := .guarded h fun h => h.opLedgerTrigger

theorem execLedgerSeal {d : Nat} (h : s.Has P) : State.Ensures P (execLedgerSeal d s) := .guarded h fun h => h.opLedgerSeal

theorem execRearm (h : s.Has P) : State.Ensures P (execRearm s) := .guarded h fun h => h.opRearm

theorem execPartWrite {d i : Nat} {value : Word} (h : s.Has P) : State.Ensures P (execPartWrite d i value s) := .guarded h fun h => h.opPart

theorem execWindowRead {d i : Nat} {first second : Bool} (h : s.Has P) : State.Ensures P (execWindowRead d i first second s) :=
  .guarded h fun h => .congr h.opWinRead rfl

theorem execWindowWrite {d i : Nat} {value : Word} {first second : Bool} (h : s.Has P) :
    State.Ensures P (execWindowWrite d i value first second s) := .guarded h fun h => h.opWinWrite

theorem execNimgGo {d : Nat} (h : s.Has P) : State.Ensures P (execNimgGo d s) := .guarded h fun h => h.opNimgGo

theorem execNimgAbort {d : Nat} (h : s.Has P) : State.Ensures P (execNimgAbort d s) := .guarded h fun h => h.nimgEnd

theorem execImage {r : Ring} {blk : RingBlock} (hh : s.isHead = true) (h : s.Has P) : State.Ensures P (execImage r blk s) :=
  .sanely (.iteOff h (by simp [State.toNode, hh]))

theorem execNimgPoll {d n : Nat} {fails : List (Nat × Bool)} (h : s.Has P) : State.Ensures P (execNimgPoll d n fails s) :=
  .guarded h fun h => h.opNimgPoll

theorem execStuckClear {d c edge : Nat} {bit : Samples} (h : s.Has P) : State.Ensures P (execStuckClear d c edge bit s) :=
  .guarded h fun h => h.opBits

theorem execCaravanBlockSend {d : Nat} (h : s.Has P) : State.Ensures P (execCaravanBlockSend d s) :=
  .guarded h fun h => h.opCaravanBlockSend

theorem execBcBlockSend {d n : Nat} (h : s.Has P) : State.Ensures P (execBcBlockSend d n s) :=
  .ite (.guarded h fun h => h.opBcSend) (.guarded h fun h => h.nodeInsert.nodeInsert)

theorem execPagePowerUpdate {d : Nat} (h : s.Has P) : State.Ensures P (execPagePowerUpdate d s) := .guarded h fun h => h.opPower

end State.Ensures

/-! ### A head's course, move by move (01 R33) -/

theorem DevState.within_self (a : DevState) : a.within a = true := by cases a <;> rfl

/-- OFF and RESET are reached from anywhere. -/
theorem DevState.within_dead (a : DevState) {b : DevState} (h : b = .off ∨ b = .reset) : a.within b = true := by
  rcases h with rfl | rfl <;> simp [DevState.within, DevState.movesTo]

/-- LOCKOUT is reached from every live state (01 R33; 13 R361; 17 R447). -/
theorem DevState.within_lockout {a : DevState} (h : a.live = true) : a.within .lockout = true := by
  cases a with
  | off => cases h
  | reset => cases h
  | _ => rfl

/-- What a host may command is a transition of R33: the two tables agree, state by state. -/
theorem DevState.within_of_hostMoves {a b : DevState} (h : (hostMoves a).contains b = true) : a.within b = true := by
  revert h
  cases a <;> cases b <;> decide

/-- A state that waits for its collectors is one a host may command from here (17 R447). -/
def Course.ArmLegal (c : Course) : Prop := ∀ new t, c.arming = some (new, t) → (hostMoves c.device).contains new = true

theorem Course.ArmLegal.none {c : Course} (h : c.arming = none) : c.ArmLegal := by
  intro new t hn
  rw [h] at hn
  cases hn

/-- From b to c the device state stays or moves once along R33, and what waits for its collectors may still be commanded. -/
structure Course.Moves (b c : Course) : Prop where
  part : c.part = b.part
  within : b.device.within c.device = true
  arms : c.ArmLegal

theorem Course.Moves.self {c : Course} (h : c.ArmLegal) : c.Moves c := ⟨rfl, c.device.within_self, h⟩

/-- A move that ends the wait for the collectors. -/
theorem Course.Moves.arrive {b c : Course} (hp : c.part = b.part) (hw : b.device.within c.device = true) (ha : c.arming = none) :
    b.Moves c := ⟨hp, hw, .none ha⟩

theorem Course.Moves.lockedOut {c : Course} (h : c.device.live = true) (l : DevState) (n : BitVec 16) : c.Moves (c.lockedOut l n) :=
  .arrive rfl (DevState.within_lockout h) rfl

/-- From b to c a host has written: the device state stays, or CLEAR or BOOT_GO has moved it. -/
structure Course.Hosted (b c : Course) : Prop where
  part : c.part = b.part
  arms : c.ArmLegal
  device : c.device = b.device ∨ (b.device = .boot ∧ c.device = .config) ∨ (b.device = .lockout ∧ c.device = .standstill)

theorem Course.Hosted.self {c : Course} (h : c.ArmLegal) : c.Hosted c := ⟨rfl, h, .inl rfl⟩

theorem Course.Hosted.moves {b c : Course} (h : b.Hosted c) : b.Moves c := by
  refine ⟨h.part, ?_, h.arms⟩
  rcases h.device with hd | ⟨hb, hc⟩ | ⟨hb, hc⟩
  · rw [hd]
    exact DevState.within_self _
  · rw [hb, hc]
    rfl
  · rw [hb, hc]
    rfl

/-- No write ends a host's reach: after CLEAR or BOOT_GO no second one of them moves the part. -/
theorem Course.Hosted.closed (b : Course) : Course.HostClosed b.Hosted where
  cmds _ _ h := ⟨h.part, h.arms, h.device⟩
  bootGo c h hc := by
    refine ⟨h.part, .none rfl, ?_⟩
    rcases h.device with hd | ⟨_, hd⟩ | ⟨_, hd⟩
    · exact .inr (.inl ⟨hd ▸ hc, rfl⟩)
    · simp [hd] at hc
    · simp [hd] at hc
  clear c h hc := by
    refine ⟨h.part, .none rfl, ?_⟩
    rcases h.device with hd | ⟨_, hd⟩ | ⟨_, hd⟩
    · exact .inr (.inr ⟨hd ▸ hc, rfl⟩)
    · simp [hd] at hc
    · simp [hd] at hc

theorem State.unmoved (ha : s.course.ArmLegal) : s.Has s.course.Moves := Course.Moves.self ha

theorem State.Has.opCollectorArm (h : s.Has P) (he : ∀ new t0, s.arming = some (new, t0) →
    P { s.course.enter new with movedBy := some s.device }) : (opCollectorArm s).Has P := by
  unfold Machine.opCollectorArm
  split
  · exact h
  · next new t0 hs =>
    refine .ite h ?_
    change P { (s.enter new).course with movedBy := _ }
    rw [s.course_enter]
    exact he new t0 hs

theorem State.resetAll_moves {new : DevState} {powerUp : Bool} (hn : new = .off ∨ new = .reset) :
    (s.resetAll new powerUp).Has s.course.Moves := by
  unfold State.Has
  rw [s.course_resetAll]
  exact .arrive rfl (DevState.within_dead _ hn) rfl

theorem State.live_of_alive {d : Nat} (h : s.alive d = true) : s.device.live = true := by
  simp only [State.alive, Bool.and_eq_true] at h
  tauto

namespace State.Ensures

variable {r : Res}

theorem hosted (h : State.Ensures s.course.Hosted r) : State.Ensures s.course.Moves r := fun u hu => (h u hu).moves

/-- A command that takes effect only under its condition. -/
theorem alwaysOn {c : Bool} {f : State → State} (h : s.Has P) (hf : c = true → (f s).Has P) : State.Ensures P (s.always c f) := by
  cases c with
  | true => exact .next (hf rfl)
  | false => exact .next h

theorem guardedOn {c : Bool} {f : State → State} (h : s.Has P) (hf : c = true → (f s).Has P) : State.Ensures P (s.guarded c f) :=
  .sanely (.alwaysOn h hf)

section Moving

variable (hh : s.isHead = true) (ha : s.course.ArmLegal)
include ha

theorem suppliesRise {mv : List Nat} : State.Ensures s.course.Moves (execSuppliesRise mv s) :=
  .always (State.unmoved ha) fun _ => State.resetAll_moves (.inr rfl)

theorem supplyLoss {mv : List Nat} : State.Ensures s.course.Moves (execSupplyLoss mv s) :=
  .always (State.unmoved ha) fun _ => State.resetAll_moves (by split <;> simp)

theorem resetNLow {ns : Nat} : State.Ensures s.course.Moves (execResetNLow ns s) :=
  .always (State.unmoved ha) fun h => .ite (State.resetAll_moves (.inr rfl))
    (h.shortPulse (.arrive rfl (DevState.within_dead _ (.inr rfl)) rfl))

theorem tpllLocked {d : Nat} : State.Ensures s.course.Moves (execTpllLocked d s) := by
  refine .guardedOn (State.unmoved ha) fun hc => ?_
  have hd : d = 0 → s.device = .reset := by
    rintro rfl
    simp only [Bool.and_eq_true, Bool.or_eq_true, beq_iff_eq, bne_self_eq_false, Bool.false_eq_true, false_or] at hc
    exact hc.1.1.1.2
  split
  · exact State.unmoved ha
  · rename_i second _
    extract_lets +onlyGivenNames t1 t2
    have h2 : t2.Has (· = s.course) := .wrB (.lockFpll (.lockTpll (.onClk (.wr rfl))))
    have hm : t2.Has s.course.Moves := (State.unmoved ha).congr h2
    refine .enterBoot (fun _ => hm) fun h0 => ?_
    have hp : t2.part = s.part := congrArg Course.part h2
    have hr : t2.arming = s.arming := congrArg Course.arming h2
    rw [hp, hr]
    have hn : s.arming = none := by
      cases hs : s.arming with
      | none => rfl
      | some x =>
        have := ha x.1 x.2 hs
        simp [State.course, hd h0, hostMoves] at this
    refine .arrive rfl ?_ hn
    change s.device.within .boot = true
    rw [hd h0]
    rfl

theorem bootComplete {d : Nat} {links : BitVec 3} : State.Ensures s.course.Moves (execBootComplete d links s) := by
  refine .guarded (State.unmoved ha) fun h => ?_
  extract_lets +onlyGivenNames t1
  have h1 : t1.Has (· = s.course) := (State.Has.self s).bootDie
  have hm : t1.Has s.course.Moves := h.congr h1
  split
  · exact hm
  · next hc =>
    simp only [Bool.or_eq_true, bne_iff_ne, ne_eq, not_or, not_not] at hc
    have hp : t1.course.part = s.course.part := congrArg Course.part h1
    refine .ite hm.holdBoot (.enter (.arrive hp ?_ rfl))
    have hd : s.course.device = .boot := (congrArg Course.device h1).symm.trans hc.1
    rw [hd]
    rfl

theorem bootGo : State.Ensures s.course.Moves (execBootGo s) := by
  refine .guarded (State.unmoved ha) fun h => h.opBootGo fun hd => .arrive rfl ?_ rfl
  change s.device.within _ = true
  rw [hd]
  rfl

theorem clear {d : Nat} : State.Ensures s.course.Moves (execClear d s) := by
  refine .guarded (State.unmoved ha) fun h => h.opClear fun hd => .arrive rfl ?_ rfl
  change s.device.within _ = true
  rw [hd]
  rfl

theorem clkGated {d : Nat} {errs : List Int} {still ago : Nat} : State.Ensures s.course.Moves (execClkGated d errs still ago s) := by
  refine .alwaysOn (State.unmoved ha) fun hc => ?_
  have hl := Course.Moves.lockedOut (c := s.course) (State.live_of_alive hc)
  split
  · exact (State.unmoved ha).opGate hl
  · exact (State.unmoved ha).opGate hl
  · exact State.unmoved ha

theorem holdoverEnd {d : Nat} {pll : Pll} : State.Ensures s.course.Moves (execHoldoverEnd d pll s) := by
  refine .alwaysOn (State.unmoved ha) fun hc => ?_
  have hm := State.unmoved ha
  dsimp only
  split
  · exact .ite (hm.opGate (Course.Moves.lockedOut (State.live_of_alive hc))) hm
  · exact .ite hm.opFpllLoss hm

theorem packageRecord : State.Ensures s.course.Moves (execPackageRecord s) :=
  .alwaysOn (State.unmoved ha) fun hc => (State.unmoved ha).opPackageRecord
    (Course.Moves.lockedOut (State.live_of_alive (d := 0) (by simp_all)))

theorem collectorArmApply : State.Ensures s.course.Moves (execCollectorArmApply s) :=
  .guarded (State.unmoved ha) fun h => h.opCollectorArm fun new t0 hs => .arrive rfl (DevState.within_of_hostMoves (ha new t0 hs)) rfl

include hh

theorem localLatch {d : Nat} : State.Ensures s.course.Moves (execLocalLatch d s) :=
  .always (State.unmoved ha) fun h => h.opLocalLatch fun hn => by simp [hh] at hn

end Moving

/-- Whatever the command, the part moves once at most. -/
theorem exec_head {c : Instr} (hh : s.isHead = true) (ha : s.course.ArmLegal) : State.Ensures s.course.Moves (exec c s) := by
  have h := State.unmoved ha
  have h0 : s.Has s.course.Hosted := Course.Hosted.self ha
  have hosted := Course.Hosted.closed s.course
  cases c with
  | suppliesRise mv => exact .suppliesRise ha
  | supplyLoss mv => exact .supplyLoss ha
  | resetNLow ns => exact .resetNLow ha
  | resetHoldEnd mv role refsel boot0 => exact .execResetHoldEnd h
  | tpllLocked d => exact .tpllLocked ha
  | bootComplete d links => exact .bootComplete ha
  | bootGo => exact .bootGo ha
  | nodeSelfReset cycles => exact .execNodeSelfReset hh h
  | stateCmdConfig => exact .hosted (.execStateCmdConfig hosted h0)
  | stateCmdStandstill => exact .hosted (.execStateCmdStandstill hosted h0)
  | stateCmdStartup => exact .hosted (.execStateCmdStartup hosted h0)
  | stateCmdRun => exact .hosted (.execStateCmdRun hosted h0)
  | stateCmdTest => exact .hosted (.execStateCmdTest hosted h0)
  | stateCmdRecovery => exact .hosted (.execStateCmdRecovery hosted h0)
  | stateCmdOther target => exact .hosted (.execStateCmdOther hosted h0)
  | collectorArmApply => exact .collectorArmApply ha
  | readWord addr => exact .execReadWord h
  | writeWord addr data => exact .hosted (.execWriteWord hosted h0)
  | frameAbort cmd addr data phase => exact .hosted (.execFrameAbort hosted h0)
  | regTimeout write addr data => exact .hosted (.execRegTimeout hosted h0)
  | registerWrite addr data => exact .hosted (.execRegisterWrite hosted h0)
  | stickyClear d page mask => exact .execStickyClear h
  | softReset d page value => exact .execSoftReset h
  | pageLock d page => exact .execPageLock h
  | blockEn d page on => exact .execBlockEn h
  | summaryUpdate => exact .execSummaryUpdate h
  | fabricSubmission d port source dst cls => exact .execFabricSubmission h
  | fabricTransfer d what how => exact .execFabricTransfer h
  | linkDown d link => exact .execLinkDown h
  | resEntryWrite d ix value => exact .execResEntryWrite h
  | milestoneReached d => exact .execMilestoneReached h
  | load d ix => exact .execLoad h
  | disarm d ix => exact .execDisarm h
  | arm d ix => exact .execArm h
  | snapSel d domain => exact .execSnapSel h
  | domainChange d domain reg value => exact .execDomainChange h
  | mirrorRecord domain => exact .execMirrorRecord h
  | slewEnd d domain => exact .execSlewEnd h
  | trackerSample d c => exact .execTrackerSample h
  | coastLoss d c => exact .execCoastLoss h
  | locked d c => exact .execLocked h
  | trackerStandstill d c => exact .execTrackerStandstill h
  | quadTransition d c qa qb stable => exact .execQuadTransition hh h
  | pulseEdge d c ball stable => exact .execPulseEdge h
  | restart d c => exact .execRestart h
  | sdcCfgWrite d k value => exact .execSdcCfgWrite h
  | chEnWrite d value => exact .execChEnWrite h
  | channelSettled d c edge bits => exact .execChannelSettled h
  | fastResult d c edge bits => exact .execFastResult h
  | stuck d c edge bits => exact .execStuck h
  | instanceGrant d e => exact .execInstanceGrant h
  | slotEnWrite d hi value => exact .execSlotEnWrite h
  | slotCascWrite d slot value => exact .execSlotCascWrite h
  | spsWrite d slot hi value => exact .execSpsWrite h
  | nop d e ix => exact .execNop h
  | ld d e ix => exact .execLd h
  | ldw d e ix => exact .execLdw h
  | st d e ix => exact .execSt h
  | sts d e ix => exact .execSts h
  | movw d e ix => exact .execMovw h
  | mac d e ix => exact .execMac h
  | msu d e ix => exact .execMsu h
  | mul d e ix => exact .execMul h
  | add d e ix => exact .execAdd h
  | sub d e ix => exact .execSub h
  | shl d e ix => exact .execShl h
  | shr d e ix => exact .execShr h
  | neg d e ix => exact .execNeg h
  | abs d e ix => exact .execAbs h
  | lim d e ix => exact .execLim h
  | intg d e ix => exact .execIntg h
  | dly d e ix => exact .execDly h
  | sel d e ix => exact .execSel h
  | tab d e ix => exact .execTab h
  | div d e ix => exact .execDiv h
  | sincos d e ix => exact .execSincos h
  | inp d e ix => exact .execInp h
  | out d e ix => exact .execOut h
  | spt d e ix => exact .execSpt h
  | flag d e ix => exact .execFlag h
  | cmp d e ix => exact .execCmp h
  | brf d e ix => exact .execBrf h
  | endRun d e ix => exact .execEndRun h
  | invalidInstruction d e ix => exact .execInvalidInstruction h
  | planStart d fails => exact .execPlanStart h
  | planEnd d => exact .execPlanEnd h
  | manifestTransfer d ringSlot => exact .execManifestTransfer h
  | ringLinkUp d r seen => exact .execRingLinkUp h
  | ringLinkDown d r seen => exact .execRingLinkDown h
  | ringBreak d r link => exact .execRingBreak h
  | ringBreakClear d r link => exact .execRingBreakClear h
  | blockForward r blk => exact .execBlockForward hh h
  | silent => exact .execSilent hh h
  | ringBlockClear => exact .execRingBlockClear hh h
  | alert d blk => exact .execAlert h
  | ackReceived d ack => exact .execAckReceived h
  | resendTimeout d n cls => exact .execResendTimeout h
  | syncSend d => exact .execSyncSend h
  | sync r blk arr => exact .execSync hh h
  | delaySend d => exact .execDelaySend h
  | delay r blk arr => exact .execDelay hh h
  | delayReturn d la lb => exact .execDelayReturn h
  | enumGo d => exact .execEnumGo h
  | enumReturn d ca cb => exact .execEnumReturn h
  | caravan r blk => exact .execCaravan hh h
  | caravanFinalise d cid returned results => exact .execCaravanFinalise h
  | setpt blk => exact .execSetpt hh h
  | stateSend d => exact .execStateSend h
  | state blk => exact .execState hh h
  | blockSend d => exact .execBlockSend h
  | block blk => exact .execBlock hh h
  | contextFieldWrite d n field value => exact .execContextFieldWrite h
  | ctxWrite r blk => exact .execCtxWrite hh h
  | ctxDataSend => exact .execCtxDataSend hh h
  | ctxData d r blk => exact .execCtxData h
  | remoteRead d n => exact .execRemoteRead h
  | remoteWrite d n => exact .execRemoteWrite h
  | regReq r blk => exact .execRegReq hh h
  | regRsp d r blk => exact .execRegRsp h
  | remoteTimeout d => exact .execRemoteTimeout h
  | ringModeWrite d value => exact .execRingModeWrite h
  | rresWrite d ix value => exact .execRresWrite h
  | edgeExecute b => exact .execEdgeExecute hh h
  | manifestExpiry b => exact .execManifestExpiry hh h
  | deadTimeEnd leg => exact .execDeadTimeEnd hh h
  | dabB1Edge => exact .execDabB1Edge hh h
  | dabB2Edge => exact .execDabB2Edge hh h
  | legCrossing leg => exact .execLegCrossing hh h
  | carrierPeak leg => exact .execCarrierPeak hh h
  | pinCommand b p n z => exact .execPinCommand hh h
  | bgSrcWrite value => exact .execBgSrcWrite h
  | trip leg senses => exact .execTrip hh h
  | endBlank leg senses => exact .execEndBlank hh h
  | driverTrip leg low => exact .execDriverTrip hh h
  | slowHigh b => exact .execSlowHigh hh h
  | gatesLow leg => exact .execGatesLow hh h
  | slowHoldEnd b => exact .execSlowHoldEnd hh h
  | unlock legs senses gflt => exact .execUnlock hh h
  | referenceLost d second cycles => exact .execReferenceLost h
  | referencePresent d second cycles cdr => exact .execReferencePresent h
  | holdoverEnd d pll => exact .holdoverEnd ha
  | refReturn d => exact .execRefReturn h
  | pllRelock d pll => exact .execPllRelock h
  | clkGated d errs still ago => exact .clkGated ha
  | fpllLoss d errs still => exact .execFpllLoss h
  | dllLoss d => exact .execDllLoss h
  | dllRelock d => exact .execDllRelock h
  | update d => exact .execUpdate h
  | guardFail d khz => exact .execGuardFail h
  | vtEdge d tvt fvt tFor fFor => exact .execVtEdge h
  | netLinkChange d pcs an speed full => exact .execNetLinkChange h
  | mdioRead phy reg => exact .execMdioRead h
  | mdioWrite phy reg data => exact .execMdioWrite h
  | mdioDone data => exact .execMdioDone h
  | frameReceive d f => exact .execFrameReceive h
  | ptpMessage d domain fine m => exact .execPtpMessage h
  | arpRequest d => exact .execArpRequest h
  | safetyTelegram d => exact .execSafetyTelegram h
  | managementFrame d => exact .hosted (.execManagementFrame hosted h0)
  | supervisionSend => exact .execSupervisionSend h
  | hsrForward d f residence => exact .execHsrForward h
  | duplicateExpiry d => exact .execDuplicateExpiry h
  | tdStep n value => exact .execTdStep h
  | syncLoss n => exact .execSyncLoss h
  | announceTimeout d => exact .execAnnounceTimeout h
  | ppsInEdge stable => exact .execPpsInEdge h
  | ppsOutRise => exact .execPpsOutRise h
  | ppsOutFall => exact .execPpsOutFall h
  | inputAccept ch fb ix levels => exact .execInputAccept h
  | resetLong ch f => exact .execResetLong h
  | safetyCycle ch => exact .execSafetyCycle h
  | discrepancy ch f hand2 => exact .execDiscrepancy h
  | testPulse n => exact .execTestPulse h
  | inputTest ch ix raw => exact .execInputTest h
  | outputTestPulse ch j readback => exact .execOutputTestPulse h
  | readback ch j level => exact .execReadback h
  | feedback ch j => exact .execFeedback h
  | crossImage ch => exact .execCrossImage h
  | crossImageAbsent ch => exact .execCrossImageAbsent h
  | safRstCmd ch auth value => exact .execSafRstCmd h
  | safConfigWrite ch offset auth value => exact .execSafConfigWrite h
  | telegramTake ch => exact .execTelegramTake h
  | watchdogExpiry ch c => exact .execWatchdogExpiry h
  | degradedEnd ch c => exact .execDegradedEnd h
  | localLatch d => exact .localLatch hh ha
  | packageRecord => exact .packageRecord ha
  | clear d => exact .clear ha
  | ffReactWrite d value => exact .execFfReactWrite h
  | tempSample d raws => exact .execTempSample h
  | neighbourWrite d n => exact .execNeighbourWrite h
  | sliceStart d => exact .execSliceStart h
  | sliceEnd d fails => exact .execSliceEnd h
  | fuseBurn d m => exact .execFuseBurn h
  | fuseDone d => exact .execFuseDone h
  | engineTestStart d => exact .execEngineTestStart h
  | engineTestYield d => exact .execEngineTestYield h
  | engineTestEnd d issues sig => exact .execEngineTestEnd h
  | patrolRead d first second => exact .execPatrolRead h
  | imageStart d type => exact .execImageStart h
  | imageAbort d => exact .execImageAbort h
  | imageWord d word => exact .execImageWord h
  | imageVerified d => exact .hosted (.execImageVerified hosted h0)
  | attest d => exact .execAttest h
  | establishKey d slot => exact .execEstablishKey h
  | secOpDone d => exact .execSecOpDone h
  | authGo d => exact .hosted (.execAuthGo hosted h0)
  | fuseProgram d slot auth => exact .execFuseProgram h
  | fuseRevoke d slot auth => exact .execFuseRevoke h
  | fuseOpDone d => exact .execFuseOpDone h
  | streamRecord d => exact .execStreamRecord h
  | captureSend => exact .execCaptureSend hh h
  | capture d r blk => exact .execCapture h
  | ledgerEnable d on => exact .execLedgerEnable h
  | trig c => exact .execTrig h
  | ledgerTrigger => exact .execLedgerTrigger h
  | ledgerSeal d => exact .execLedgerSeal h
  | rearm => exact .execRearm h
  | partWrite d ix value => exact .execPartWrite h
  | windowRead d ix first second => exact .execWindowRead h
  | windowWrite d ix value first second => exact .execWindowWrite h
  | nimgGo d => exact .execNimgGo h
  | nimgAbort d => exact .execNimgAbort h
  | image r blk => exact .execImage hh h
  | nimgPoll d n fails => exact .execNimgPoll h
  | stuckClear d c edge bit => exact .execStuckClear h
  | ptpSend d m fine => exact .execPtpSend h
  | caravanBlockSend d => exact .execCaravanBlockSend h
  | bcBlockSend d n => exact .execBcBlockSend h
  | pagePowerUpdate d => exact .execPagePowerUpdate h

end State.Ensures

/-! ### Commands that take effect, and the tick -/

/-- What holds of a course holds of the course in LOCKOUT. -/
def Course.LockClosed (P : Course → Prop) : Prop := ∀ c, P c → ∀ l n, P (c.lockedOut l n)

/-- The collectors are armed: a head waits, a node is in the state or, where a source is present, in LOCKOUT. -/
theorem State.Has.armTo {new : DevState} (h : t.Has P) (ha : P { t.course with arming := some (new, t.td0) })
    (he : P (t.course.enter new)) (hl : t.isHead = false → Course.LockClosed P) : (t.armTo new).Has P := by
  unfold State.armTo
  split
  · exact State.Has.armCollectors ha
  · next hn =>
    have hl := hl (by simpa using hn)
    have h1 : (Machine.opLocalLatch 0 t.armCollectors).Has P := h.armCollectors.opLocalLatch fun _ =>
      have hc : t.armCollectors.Has (· = t.course) := .armCollectors rfl
      hc ▸ hl _ h
    exact .ite (h1.lockOutDevice (hl _ h1)) (.enter he)

/-- A STATE_CMD that takes effect: refused or ignored, a transition a host may command, or the wait for the collectors. -/
theorem State.Has.opStateCmd {target : Nat} (h : t.Has P)
    (ha : ∀ new, t.mayMove new = true → P { t.course with arming := some (new, t.td0) })
    (he : ∀ new, t.movedAt ≠ some t.td0 → t.mayMove new = true → P (t.course.enter new))
    (hl : t.isHead = false → Course.LockClosed P) : (opStateCmd target t).Has P := by
  unfold Machine.opStateCmd
  refine .ite h.refuseState ?_
  split
  · exact .ite h h.refuseState
  · next hm =>
    have hm : t.movedAt ≠ some t.td0 := by simpa using hm
    split
    · exact h.refuseState
    · next new _ =>
      split
      · exact h.refuseState
      · next hn =>
        have hn : t.mayMove new = true := by simpa using hn
        exact .ite (h.armTo (ha new hn) (he new hm hn) hl) (.enter (he new hm hn))

/-- From b to c commands have taken effect: the course has moved once at most, and then in this tick. -/
structure Course.Took (b c : Course) : Prop extends b.Moves c where
  once : c.device = b.device ∨ c.movedAt = some c.td0

theorem Course.Took.enter {b c : Course} {new : DevState} (h : b.Took c) (hm : c.movedAt ≠ some c.td0)
    (hn : (hostMoves c.device).contains new = true) : b.Took (c.enter new) := by
  have hd := h.once.resolve_right hm
  exact ⟨.arrive h.part (DevState.within_of_hostMoves (hd ▸ hn)) rfl, .inr rfl⟩

theorem Course.Took.arm {b c : Course} {new : DevState} {n : Nat} (h : b.Took c)
    (hn : (hostMoves c.device).contains new = true) : b.Took { c with arming := some (new, n) } := by
  refine ⟨⟨h.part, h.within, ?_⟩, h.once⟩
  rintro _ _ ⟨⟩
  exact hn

theorem State.contains_of_mayMove {new : DevState} (h : t.mayMove new = true) : (hostMoves t.device).contains new = true := by
  simp only [State.mayMove, Bool.and_eq_true] at h
  exact h.1

/-- The head of a course whose part it keeps. -/
theorem Course.Took.isHead {b : Course} (h : t.Has b.Took) : t.isHead = b.part.isHead := congrArg Part.isHead h.part

theorem State.Has.takeCmd {b : Course} {target : Nat} (hb : b.part.isHead = true) (h : t.Has b.Took) : (t.takeCmd target).Has b.Took := by
  have h1 : (Machine.opStateCmd target t).Has b.Took := h.opStateCmd (fun _ hn => Course.Took.arm h (State.contains_of_mayMove hn))
    (fun _ hm hn => Course.Took.enter h hm (State.contains_of_mayMove hn)) fun hn => by simp [Course.Took.isHead h, hb] at hn
  unfold State.takeCmd
  exact .ite h (.ite h1 ⟨⟨h1.part, h1.within, h1.arms⟩, h1.once⟩)

/-- The commands of a tick move a head once at most. -/
theorem State.Has.takeCmds {b : Course} (hb : b.part.isHead = true) (h : t.Has b.Took) : t.takeCmds.Has b.Took := by
  unfold State.takeCmds
  have h0 : State.Has b.Took { t with cmds := [] } := ⟨⟨h.part, h.within, h.arms⟩, h.once⟩
  exact h0.when fun _ h => h.each fun _ _ _ h => h.takeCmd hb

/-- On a head what was latched keeps the course, and then a package record or the collectors move it, not both. -/
theorem State.Has.endFaults (h : t.Has P) (hh : t.isHead = true) (hl : ∀ l n, P (t.course.lockedOut l n))
    (he : ∀ new n, t.arming = some (new, n) → P { t.course.enter new with movedBy := some t.device }) : t.endFaults.Has P := by
  unfold State.endFaults
  extract_lets +onlyGivenNames t1
  have h1 : t1.Has (· = t.course) := (State.Has.self t).each fun v d _ h => State.Has.opLocalLatch h fun hn => by
    have : v.isHead = t.isHead := congrArg (fun c => c.part.isHead) h
    simp [this, hh] at hn
  refine State.Has.ite ?_ (h.congr h1)
  have h2 : (Machine.opPackageRecord t1).Has fun c => c = t.course ∨ ∃ l n, c = t.course.lockedOut l n :=
    State.Has.opPackageRecord (.inl h1) fun l n => .inr ⟨l, n, by rw [h1]⟩
  rcases h2 with h2 | ⟨l, n, h2⟩
  · refine State.Has.opCollectorArm (h.congr h2) fun new n ha => ?_
    have hd : (Machine.opPackageRecord t1).device = t.device := congrArg Course.device h2
    rw [h2, hd]
    exact he new n ((congrArg Course.arming h2).symm.trans ha)
  · refine State.Has.opCollectorArm (by unfold State.Has; rw [h2]; exact hl l n) fun new n' ha => ?_
    cases (congrArg Course.arming h2).symm.trans ha

theorem State.captureCells_dies (t : State) : (t.captureCells).2.dies = t.dies := by
  unfold State.captureCells
  refine List.foldlRecOn (motive := fun r : List Bool × State => r.2.dies = t.dies) _ _ rfl fun r hr b _ => ?_
  dsimp only
  split
  · exact hr
  · exact hr

theorem State.tapEdge_dies (t : State) (tms tdi : Bool) : (t.tapEdge tms tdi).dies = t.dies := by
  unfold State.tapEdge
  extract_lets +onlyGivenNames _ _ t1
  change State.dies t1 = _
  dsimp only [t1]
  split
  · split
    · exact t.captureCells_dies
    · rfl
  · rfl
  · rfl
  · rfl
  · rfl

theorem State.tapTake_dies (t : State) (i : TapIn) : (t.tapTake i).dies = t.dies := by
  cases i with
  | trst => rfl
  | clock tms tdi => exact t.tapEdge_dies tms tdi

theorem State.tapTick_dies (t : State) : t.tapTick.dies = t.dies := by
  unfold State.tapTick
  split
  · split
    · exact State.tapTake_dies _ _
    · rfl
  · rfl

/-- What a tick does first: the test access port, and the samples of the safety channels. -/
def State.tickSamples (s : State) : State :=
  let s := s.when (s.device != .off) (·.tapTick.padTick)
  s.each s.channels fun s ch => s.endSample ch

theorem State.course_tickSamples (s : State) : s.tickSamples.course = s.course :=
  State.Has.each (P := (· = s.course)) (State.Has.when rfl fun _ h => h.tapTick.padTick) fun _ _ _ h => h.endSample

/-- The test access port and the pads leave the dies, and only a head has safety channels. -/
theorem State.counts_tickSamples (s : State) : s.tickSamples.counts = s.counts := by
  have hc := s.course_tickSamples
  have hd : s.tickSamples.device = s.device := congrArg Course.device hc
  have hp : s.tickSamples.isHead = s.isHead := congrArg (fun c => c.part.isHead) hc
  cases hh : s.isHead with
  | true => simp [State.counts, hd, hp, hh]
  | false =>
    have hdies : (s.when (s.device != .off) (·.tapTick.padTick)).dies = s.dies := by
      unfold State.when
      split
      · exact s.tapTick_dies
      · rfl
    have hall : s.tickSamples.dies = s.dies := by
      unfold State.tickSamples
      extract_lets t
      have ht : t.Has (· = s.course) := State.Has.when rfl fun _ h => h.tapTick.padTick
      have hn : t.isHead = false := (congrArg (fun c => c.part.isHead) ht).trans hh
      simpa [State.channels, hn, State.each] using hdies
    have hdie : s.tickSamples.die 0 = s.die 0 := by simp only [State.die, hall]
    have hl : s.tickSamples.alive 0 = s.alive 0 :=
      State.alive_congr hd (congrArg Course.part hc) (by rw [hdie]) (by rw [hdie])
    simp only [State.counts, hd, hp, hl]

/-- What of a course does not depend on the time. -/
def Course.Timeless (P : Course → Prop) : Prop := ∀ c m n, P c → P { c with movedAt := m, td0 := n }

/-- The course over a tick in which ring time counts: faults, the next tick's time, the commands written before, and at the end what an
adjustment of a node does to the time. -/
theorem State.Has.tick {P Q : Course → Prop} (hQ : Course.Timeless Q) (hP : Course.Timeless P)
    (hs : s.counts = false → s.Has P) (hf : s.counts = true → ∀ t : State, t.course = s.course → t.endFaults.Has Q)
    (hc : ∀ t : State, t.Has Q → t.takeCmds.Has P) : (Machine.tick s).Has P := by
  unfold Machine.tick
  extract_lets +onlyGivenNames _ t2 t3 live t4 t5 t6 t7 t8 t9 t10 t11 t12
  have h2 : t2.course = s.course := s.course_tickSamples
  have hk : t2.counts = s.counts := s.counts_tickSamples
  split
  · next hn => exact (hs (by simpa [hk] using hn)).congr h2
  · next hn =>
    have h5 : t5.Has Q := .each (.each (State.Has.endLedger (hf (by simpa [hk] using hn) t2 h2))
      fun _ _ _ h => h.endTests.endBurn) fun _ _ _ h => h.dieStart
    have h6 : t6.Has Q := hQ _ t5.movedAt _ h5
    have h7 : t7.Has Q := h6.each fun _ _ _ h => h.advanceDie.detect
    have h8 : t8.Has P := .fabricSlot (hc _ h7.leComplete)
    have h11 : t11.Has P := (h8.each fun _ _ _ h => h.mfeStart.lendEngines).applyRearm.endPulses.openSlots.ppsTick.when
      fun _ h => h.gateTick.followPins
    have h12 : t12.Has P := h11.when fun _ h => .applyAdjust fun m n => hP _ m n h.nodeChanges
    exact h12.when fun _ h => h.discStep

/-- Once the commands have taken effect, none waits. -/
theorem State.cmds_takeCmds (s : State) : s.takeCmds.cmds = [] := by
  have h0 : State.Has (fun c => c.cmds = []) { s with cmds := [] } := rfl
  refine h0.when fun _ h => h.each fun v c _ h => ?_
  have h1 : (opStateCmd c v).Has fun c => c.cmds = [] := h.opStateCmd (fun _ _ => h) (fun _ _ _ => h) fun _ _ h _ _ => h
  exact .ite h (.ite h1 h1)

/-- A tick leaves no command waiting (01 R37). -/
theorem cmds_tick (hk : s.counts = true) : (tick s).cmds = [] :=
  State.Has.tick (P := fun c => c.cmds = []) (Q := fun _ => True) (fun _ _ _ _ => trivial) (fun _ _ _ h => h)
    (fun hn => by simp [hk] at hn) (fun _ _ _ => trivial) fun t _ => t.cmds_takeCmds

/-! ### The tick of a head, and its steps -/

theorem State.Has.tick_head (hh : s.isHead = true) (ha : s.ArmLegal) :
    (Machine.tick s).Has fun c => ∃ b, s.course.Moves b ∧ b.Moves c :=
  .tick (Q := s.course.Moves) (fun _ _ _ h => ⟨h.part, h.within, h.arms⟩)
    (fun _ _ _ ⟨b, hb, h⟩ => ⟨b, hb, h.part, h.within, h.arms⟩)
    (fun _ => ⟨s.course, .self ha, .self ha⟩)
    (fun hk t ht => by
      have h : t.Has s.course.Moves := State.Has.congr (t := s) (State.unmoved ha) ht
      have hl : s.device.live = true := by
        simp only [State.counts, Bool.and_eq_true] at hk
        exact hk.1
      have hr : t.arming = s.arming := congrArg Course.arming ht
      refine h.endFaults ((congrArg (fun c => c.part.isHead) ht).trans hh) ?_ fun new n hn => ?_
      · rw [ht]
        exact Course.Moves.lockedOut hl
      · rw [ht]
        exact .arrive rfl (DevState.within_of_hostMoves (ha new n (hr ▸ hn))) rfl)
    fun t ht => ⟨t.course, ht, (State.Has.takeCmds (b := t.course) ((congrArg Part.isHead ht.part).trans hh)
      ⟨.self ht.arms, .inl rfl⟩).toMoves⟩

/-- Settles O6: every command moves the course of a head once at most (`State.Ensures.exec_head`), and a tick at its end and at the next
one's beginning (`State.Has.tick_head`). -/
theorem headMovesAlongTheTransitionTable : Obligations.head_moves_along_the_transition_table := by
  intro s t hh ha hst
  unfold step at hst
  split at hst
  · next hp =>
    cases hst
    obtain ⟨b, hb, h⟩ := State.Has.tick_head hh ha
    exact ⟨h.arms, fun hn => absurd hp hn, b.device, hb.within, h.within⟩
  · next c rest hp =>
    have h := State.Ensures.exec_head (s := { s with pending := rest }) (c := c) hh ha t hst
    exact ⟨h.arms, fun _ => h.within, t.device, h.within, t.device.within_self⟩

end Sys2Proof.Machine

end

section
open Sys2Proof Sys2Proof.Machine

namespace Sys2Proof.Machine
variable {s t u : State} {d b k : Nat}

/-! ### What a change of state leaves of the sticky bits of page 0 and of the latch (01 R31, R37) -/

/-- From s to t the part, its state and time stay, what makes a die alive, and the registers at keys of K. -/
structure State.Calm (K : Nat → Prop) (s t : State) : Prop where
  part : t.part = s.part
  device : t.device = s.device
  length : t.dies.length = s.dies.length
  gated : ∀ e, (t.die e).gated = (s.die e).gated
  hold : ∀ e, (t.die e).hold = (s.die e).hold
  cell : ∀ e key, K key → t.cell e key = s.cell e key

/-- A change of a die that leaves its registers and what makes it alive. -/
structure Die.LifeFree (f : Die → Die) : Prop where
  cells : ∀ x, (f x).cells = x.cells
  gated : ∀ x, (f x).gated = x.gated
  hold : ∀ x, (f x).hold = x.hold

/-- The keys that are followed through a change of state: PAGE_STICKY of page 0, and the source of the package record. -/
abbrev latchKeys (key : Nat) : Prop := key = 0xC ∨ key = Fd.FF_SRC.W.key 0

/-- A word of an image goes to a memory of the loop engines or to DRAM. -/
theorem le_of_imgDest {type i key : Nat} {ws : List Word} {dead : Word} (h : imgDest type ws i = .cell key dead) : 0x80000 ≤ key := by
  unfold imgDest at h
  split at h
  · dsimp only at h
    split_ifs at h <;> cases h <;> simp only [progKey, coefKey, stateKey] <;> omega
  · cases h
  · cases h
  · cases h

namespace State.Calm

variable {K : Nat → Prop}

theorem refl (s : State) : s.Calm K s := ⟨rfl, rfl, rfl, fun _ => rfl, fun _ => rfl, fun _ _ _ => rfl⟩

theorem trans (h : s.Calm K t) (k : t.Calm K u) : s.Calm K u :=
  ⟨k.part.trans h.part, k.device.trans h.device, k.length.trans h.length, fun e => (k.gated e).trans (h.gated e),
    fun e => (k.hold e).trans (h.hold e), fun e key hk => (k.cell e key hk).trans (h.cell e key hk)⟩

theorem mono {L : Nat → Prop} (h : s.Calm K t) (hl : ∀ key, L key → K key) : s.Calm L t :=
  ⟨h.part, h.device, h.length, h.gated, h.hold, fun e key hk => h.cell e key (hl key hk)⟩

theorem alive (h : s.Calm K t) (e : Nat) : t.alive e = s.alive e := State.alive_congr h.device h.part (h.gated e) (h.hold e)

theorem congr (h : s.Calm K t) (h3 : u.dies = t.dies) (h1 : u.part = t.part) (h2 : u.device = t.device) : s.Calm K u := by
  have hd : ∀ e, u.die e = t.die e := fun e => by simp only [State.die, h3]
  exact h.trans ⟨h1, h2, by rw [h3], fun e => by rw [hd], fun e => by rw [hd], fun e key _ => by
    simp only [State.cell, State.dflt, hd, h1]⟩

theorem onDie {f : Die → Die} (h : s.Calm K t) (hf : Die.LifeFree f) : s.Calm K (t.onDie d f) := by
  refine h.trans ⟨rfl, rfl, State.onDie_length .., fun e => ?_, fun e => ?_, fun _ _ _ => State.cell_onDie _ _ _ _ _ hf.cells⟩
  all_goals rw [State.die_onDie]; split
  · exact hf.gated _
  · rfl
  · exact hf.hold _
  · rfl

/-- A change of a die beside its registers that leaves what makes it alive, field by field. -/
theorem keepsDie {f : Die → Die} (h : s.Calm K t) (hc : ∀ x, (f x).cells = x.cells := by exact fun _ => rfl)
    (hg : ∀ x, (f x).gated = x.gated := by exact fun _ => rfl) (hh : ∀ x, (f x).hold = x.hold := by exact fun _ => rfl) :
    s.Calm K (t.onDie d f) := h.onDie ⟨hc, hg, hh⟩

theorem putCell {key : Nat} {w : Word} (h : s.Calm K t) (hk : ¬K key) : s.Calm K (t.putCell d key w) := by
  refine h.trans ⟨rfl, rfl, State.putCell_length .., fun e => ?_, fun e => ?_, fun e j hj =>
    State.cell_putCell_ne _ _ _ _ _ _ (.inr fun he => hk (he ▸ hj))⟩
  all_goals
    unfold State.putCell
    rw [State.die_onDie]
    split <;> rfl

theorem wr {f : Fld} {i v : Nat} (h : s.Calm K t) (hk : ¬K (f.key i)) : s.Calm K (t.wr d f i v) := h.putCell hk

theorem stick {page bit : Nat} (h : s.Calm K t) (h1 : ¬K (hdrKey page 0xC)) (h2 : ¬K (hdrKey page 0x10)) :
    s.Calm K (t.stick d page bit) := by
  unfold State.stick
  dsimp only
  split
  · exact h
  · have h3 := (h.putCell (d := d) (w := setBits (t.cell d (hdrKey page 0xC)) bit bit 1) h1).putCell (d := d)
      (w := BitVec.ofNat 32 (((t.cell d (hdrKey page 0x10)).toNat + 1) % 65536)) h2
    exact ⟨h3.part, h3.device, h3.length, h3.gated, h3.hold, h3.cell⟩

theorem when {c : Bool} {f : State → State} (h : s.Calm K t) (hf : ∀ v, s.Calm K v → s.Calm K (f v)) : s.Calm K (t.when c f) := by
  unfold State.when
  split
  · exact hf t h
  · exact h

theorem each {α : Type} {l : List α} {f : State → α → State} (h : s.Calm K t)
    (hf : ∀ v, ∀ a ∈ l, s.Calm K v → s.Calm K (f v a)) : s.Calm K (t.each l f) := State.each_keeps_mem h hf

theorem raise {n : Nat} (h : s.Calm K t) : s.Calm K (t.raise d n) := by
  unfold State.raise
  split
  · exact h
  · exact h.keepsDie

theorem source {n : Nat} {on : Bool} (h : s.Calm K t) : s.Calm K (t.source d n on) := by
  unfold State.source
  split
  · exact h.raise
  · exact h.keepsDie

/-! #### The bridges and their gates -/

theorem onBg {f : Bg → Bg} (h : s.Calm K t) : s.Calm K (t.onBg f) := h.keepsDie

theorem onLeg {f : Leg → Leg} (h : s.Calm K t) : s.Calm K (t.onLeg k f) := h.onBg

theorem onBridge {f : Bridge → Bridge} (h : s.Calm K t) : s.Calm K (t.onBridge b f) := h.onBg

theorem setGh {v : Bool} (h : s.Calm K t) : s.Calm K (t.setGh k v) := h.congr rfl rfl rfl

theorem setGl {v : Bool} (h : s.Calm K t) : s.Calm K (t.setGl k v) := h.congr rfl rfl rfl

theorem endHigh {i : Int} (h : s.Calm K t) : s.Calm K (t.endHigh k i) := h.when fun _ h => h.onLeg

theorem settleFalls {i : Int} (h : s.Calm K t) : s.Calm K (t.settleFalls k i) :=
  (h.when fun _ h => h.setGh.onLeg.endHigh).when fun _ h => h.setGl.onLeg.endHigh

theorem rise {up : Bool} {r : Int} (h : s.Calm K t) : s.Calm K (t.rise k up r) := by
  unfold State.rise
  cases up with
  | false => exact h.setGl.onLeg
  | true => exact h.setGh.onLeg

theorem settleRise {up : Bool} {i : Int} (h : s.Calm K t) : s.Calm K (t.settleRise k up i) := by
  unfold State.settleRise
  split
  · split
    · exact h.rise
    · exact h
  · exact h

theorem settle {i : Int} (h : s.Calm K t) : s.Calm K (t.settle k i) := h.settleFalls.settleRise.settleRise

theorem driveLeg {up lo : Bool} {i : Int} (h : s.Calm K t) : s.Calm K (t.driveLeg k up lo i) := by
  unfold State.driveLeg
  exact h.settle.onLeg

theorem safetyTrip (h : s.Calm K t) : s.Calm K t.safetyTrip := h.each fun _ _ _ h => h.source

theorem guardSources (h : s.Calm K t) : s.Calm K t.guardSources := h.source.source

section Bridges

variable (hK : ∀ key, K key → latchKeys key)
include hK

theorem wrZnext {v : Nat} (h : s.Calm K t) : s.Calm K (t.wr 0 (znextField b) 0 v) :=
  h.wr fun hc => by
    have := hK _ hc
    simp only [latchKeys, Fld.key, znextField] at this
    omega

theorem wrBstate {v : Nat} (h : s.Calm K t) : s.Calm K (t.wr 0 (bstateField b) 0 v) :=
  h.wr fun hc => by
    have := hK _ hc
    simp only [latchKeys, Fld.key, bstateField] at this
    omega

theorem takeState {code : Nat} {i : Int} (h : s.Calm K t) : s.Calm K (t.takeState b code i) := by
  unfold State.takeState
  exact (wrBstate hK (onBridge (h.when fun _ h => wrZnext hK h))).driveLeg.driveLeg

theorem takeBlock {w : Bool} {i : Int} (h : s.Calm K t) : s.Calm K (t.takeBlock b w i) := takeState hK h.onBridge

theorem makeCurrent {m : Manifest} (h : s.Calm K t) : s.Calm K (t.makeCurrent b m) := by
  unfold State.makeCurrent
  dsimp only
  split
  · exact h.onBridge
  · split
    · exact h.onBridge.onBridge
    · exact takeBlock hK (h.onBridge.stick (fun hc => absurd (hK _ hc) (by decide)) fun hc => absurd (hK _ hc) (by decide))

theorem discardCurrent (h : s.Calm K t) : s.Calm K (t.discardCurrent b) := by
  unfold State.discardCurrent
  dsimp only
  split
  · exact makeCurrent hK h.onBridge
  · exact h.onBridge

theorem undoTick (h : s.Calm K t) : s.Calm K (t.undoTick b) := by
  unfold State.undoTick
  split
  · exact h
  · split
    · exact h
    · exact guardSources ((onBridge ((wrZnext hK h).when fun _ h => h.onBg)).when fun _ h => discardCurrent hK h)

theorem blockAll (h : s.Calm K t) : s.Calm K t.blockAll :=
  h.each fun _ _ _ h => takeBlock hK ((undoTick hK h).when fun _ h => h.each fun _ _ _ h => h.onLeg)

theorem unblock (h : s.Calm K t) : s.Calm K t.unblock := h.each fun _ _ _ h => by
  split
  · exact h
  · split
    · split
      · exact h
      · exact takeState hK h
    · split
      · split
        · exact takeState hK h.onBridge
        · exact h
      · exact h

/-! #### The safety channels, the loads and the state a node reports -/

theorem safetyOff (h : s.Calm K t) : s.Calm K t.safetyOff := by
  unfold State.safetyOff
  exact State.Calm.each (h.congr rfl rfl rfl) fun _ _ _ h => (h.wr fun hc => absurd (hK _ hc) (by decide)).keepsDie

theorem safetyStart {ch : Nat} (h : s.Calm K t) : s.Calm K (t.safetyStart ch) := by
  unfold State.safetyStart
  refine keepsDie (State.Calm.each ((h.wr fun hc => absurd (hK _ hc) (by decide)).wr fun hc => absurd (hK _ hc) (by decide))
    fun v c _ h => (h.wr fun hc => ?_).wr fun hc => ?_)
  all_goals
    have := hK _ hc
    simp only [latchKeys, Fld.key] at this
    omega

theorem nimgEnd {cause : Nat} (h : s.Calm K t) : s.Calm K (t.nimgEnd d cause) := by
  have hk : ∀ {f : Fld} {i : Nat}, ¬latchKeys (f.key i) → ¬K (f.key i) := fun hn hc => hn (hK _ hc)
  unfold State.nimgEnd
  dsimp only
  split
  · exact h
  · have h1 : s.Calm K (t.each (t.die d).nimg.left fun s e => (((s.wrB d ⟨0x0, 0x40, 1, e.ws - 1, e.ws - 1⟩ 0 true).wr d
        Fd.NIMG_STAT.LAST_CAUSE 0 cause).wr d Fd.NIMG_STAT.LAST_WS 0 (e.ws - 1))) :=
      h.each fun _ _ _ h => ((h.wr (hk (by simp [latchKeys, Fld.key]))).wr (hk (by decide))).wr (hk (by decide))
    exact (h1.keepsDie.wr (hk (by decide))).wr (hk (by decide))

/-- What a failed load overwrites are words of the memories of the loop engines and of DRAM. -/
theorem imgZero (h : s.Calm K t) : s.Calm K (t.imgZero d) := by
  refine h.each fun v i _ h => ?_
  split
  · next key dead hx =>
    refine h.putCell fun hc => ?_
    have hlo := le_of_imgDest hx
    have := hK _ hc
    simp only [latchKeys, Fld.key] at this
    omega
  · exact h.when fun _ h => h.keepsDie
  · exact h

theorem imgEnd {result : Nat} (h : s.Calm K t) : s.Calm K (t.imgEnd d result) := by
  have hk : ∀ key, ¬latchKeys key → ¬K key := fun key hn hc => hn (hK _ hc)
  unfold State.imgEnd
  refine State.Calm.when (State.Calm.keepsDie (State.Calm.stick (State.Calm.wr (State.Calm.wr (h.when fun _ h => imgZero hK h)
    (hk _ (by decide))) (hk _ (by decide))) ?_ ?_)) fun _ h => h.keepsDie
  all_goals split <;> exact hk _ (by decide)

theorem reportState (h : s.Calm K t) : s.Calm K t.reportState := by
  unfold State.reportState State.setNodeField
  split
  · exact h
  · split
    · exact h
    · exact State.Calm.keepsDie (h.putCell fun hc => absurd (hK _ hc) (by decide))

theorem emptyLatch (hn : ¬K (Fd.FF_SRC.W.key 0)) (h : s.Calm K t) : s.Calm K ((t.emptyLocal 0).emptyPackage 0) :=
  have hk : ∀ f : Fld, ¬latchKeys (f.key 0) → ¬K (f.key 0) := fun f hl hc => hl (hK _ hc)
  (((((h.wr (hk Fd.LOC_SRC.W (by decide))).wr (hk Fd.LOC_T_LO.W (by decide))).wr (hk Fd.LOC_T_HI.W (by decide))).wr hn).wr
    (hk Fd.FF_T_LO.W (by decide))).wr (hk Fd.FF_T_HI.W (by decide))

end Bridges

end State.Calm

/-! ### A change of state, as far as its registers and its pins tell -/

/-- The package as it changes its state, with everything else still to do. -/
def State.entering (s : State) (new : DevState) : State :=
  { s with last := s.device, device := new, changes := s.changes + 1, arming := none, movedAt := some s.td0, movedBy := none }

/-- What is followed through a change of state: STATE_CHANGED, and into a switching state the package record too. -/
def enteredKeys (new : DevState) (key : Nat) : Prop := key = 0xC ∨ new.switching = true ∧ key = Fd.FF_SRC.W.key 0

/-- A change of state ends with PERMIT and the node's report, and before that keeps STATE_CHANGED and what PERMIT rests on. -/
theorem State.enter_calm (s : State) (new : DevState) :
    ∃ w, State.Calm (enteredKeys new) ((s.entering new).sticky 0 Sk.DIE.STATE_CHANGED) w ∧
      s.enter new = w.setPermit.reportState := by
  have hK : ∀ key, enteredKeys new key → latchKeys key := fun key hk => hk.imp id And.right
  refine ⟨_, ?_, rfl⟩
  have h0 := State.Calm.refl (K := enteredKeys new) ((s.entering new).sticky 0 Sk.DIE.STATE_CHANGED)
  have h1 := ((h0.when (c := !new.safetyOn) fun _ h => h.safetyOff hK).when (c := !s.device.safetyOn && new.safetyOn)
    fun v h => State.Calm.each (l := v.channels) (f := fun s ch => s.safetyStart ch) h fun _ _ _ h => h.safetyStart hK).safetyTrip.when
      (c := new != .config && new != .standstill) fun v h => State.Calm.each (l := v.dieList)
        (f := fun s d => (s.nimgEnd d 5).when (s.imgBusy d) fun s => s.imgEnd d 8) h
          fun _ _ _ h => (h.nimgEnd hK).when fun _ h => h.imgEnd hK
  split
  · exact h1.each fun _ _ _ h => h.keepsDie
  · cases hn : new.switching with
    | true => exact h1.unblock hK
    | false =>
      refine State.Calm.blockAll hK (h1.when fun _ h => h.emptyLatch hK fun hc => ?_)
      rcases hc with hc | ⟨hc, -⟩
      · exact absurd hc (by decide)
      · rw [hn] at hc
        cases hc

theorem State.Calm.reading {K : Nat → Prop} (h : s.Calm K t) {f : Fld} (hk : K (f.key 0)) : t.rd 0 f = s.rd 0 f := by
  unfold State.rd
  rw [h.cell 0 _ hk]

/-- STATE_CHANGED is set by every change of state (01 R37). -/
theorem State.stuckAt_enter (h0 : 0 < s.dies.length) (new : DevState) :
    (s.enter new).stuckAt 0 Sk.DIE.STATE_CHANGED.page Sk.DIE.STATE_CHANGED.bit = true := by
  obtain ⟨w, hw, he⟩ := s.enter_calm new
  have hr : ((s.entering new).sticky 0 Sk.DIE.STATE_CHANGED).Calm (· = 0xC) (s.enter new) :=
    he ▸ State.Calm.reportState (fun _ h => .inl h) ((hw.mono fun _ h => .inl h).congr rfl rfl rfl)
  have hst : ((s.entering new).sticky 0 Sk.DIE.STATE_CHANGED).stuckAt 0 Sk.DIE.STATE_CHANGED.page Sk.DIE.STATE_CHANGED.bit = true :=
    State.stuckAt_stick_same _ _ _ _ h0 (by decide)
  unfold State.stuckAt at hst ⊢
  rwa [hr.cell 0 (hdrKey Sk.DIE.STATE_CHANGED.page 0xC) rfl]

theorem DevState.live_of_switching {a : DevState} (h : a.switching = true) : a.live = true := by
  cases a with
  | off => cases h
  | reset => cases h
  | _ => rfl

/-- PERMIT after a change of state (01 R31). -/
theorem State.permit_enter (ha : s.alive 0 = true) (new : DevState) :
    (s.enter new).pins.permit = (new.switching && s.latchEmpty) := by
  obtain ⟨w, hw, he⟩ := s.enter_calm new
  rw [he, State.pins_reportState]
  change w.permitNow = _
  have hd : w.device = new := hw.device.trans (State.stick_device ..)
  unfold State.permitNow
  rw [hd]
  cases hn : new.switching with
  | false => rfl
  | true =>
    have hlive : new.live = true := DevState.live_of_switching hn
    have hal : w.alive 0 = true := by
      rw [hw.alive]
      refine (State.alive_stick _ _ _ _ _).trans ?_
      simp only [State.alive, Bool.and_eq_true] at ha ⊢
      exact ⟨⟨⟨hlive, ha.1.1.2⟩, ha.1.2⟩, ha.2⟩
    have hempty : w.latchEmpty = s.latchEmpty := by
      unfold State.latchEmpty State.flag
      rw [hw.reading (f := Fd.FF_SRC.VALID) (.inr ⟨hn, rfl⟩)]
      have hc : ((s.entering new).sticky 0 Sk.DIE.STATE_CHANGED).cell 0 (Fd.FF_SRC.VALID.key 0) = s.cell 0 (Fd.FF_SRC.VALID.key 0) :=
        State.cell_stick_ne _ _ _ _ _ _ (.inr (by decide))
      unfold State.rd
      rw [hc]
    rw [hal, hempty, Bool.and_true]

/-! ### Commands for the device state (01 R33-R37) -/

/-- A command that waits alone takes effect as the tick begins. -/
theorem State.takeCmds_single {c : Nat} (ha : s.alive 0 = true) (hc : s.cmds = [c]) :
    s.takeCmds = ({ s with cmds := [] } : State).takeCmd c := by
  unfold State.takeCmds State.when
  rw [hc]
  change (if s.alive 0 = true then _ else _) = _
  rw [if_pos ha]
  rfl

/-- A command that is judged, in a tick in which no fault is latched. -/
theorem State.takeCmd_eq {c : Nat} (hr : s.recordDue = false) :
    s.takeCmd c = if (opStateCmd c s).device = s.device then opStateCmd c s else { opStateCmd c s with movedBy := some s.device } := by
  unfold State.takeCmd
  rw [hr]
  rfl

/-- A command the part may judge against its state: R33 lists it, or it is refused. -/
theorem opStateCmd_judged {c : Nat} {new : DevState} (hf : s.followsHead = false) (ha : s.arming = none)
    (hm : s.movedAt ≠ some s.td0) (hc : DevState.ofCode c = some new) :
    opStateCmd c s = if !s.mayMove new then s.refuseState
      else if new.switching && !s.device.switching then s.armTo new else s.enter new := by
  unfold opStateCmd
  rw [hf, ha, hc]
  simp [hm]

/-- What R33 lists, as the table of commands and as the moves a host may command. -/
theorem contains_hostMoves_iff {a new : DevState} :
    (hostMoves a).contains new = true ↔ ∃ e ∈ moveCommands, e.2.1 = new ∧ a ∈ e.2.2 := by
  cases a <;> cases new <;> decide

theorem ofCode_code (a : DevState) : DevState.ofCode a.code = some a := by cases a <;> rfl

theorem code_of_ofCode {n : Nat} {a : DevState} (h : DevState.ofCode n = some a) : a.code = n := by
  unfold DevState.ofCode at h
  split at h <;> cases h <;> rfl

/-- A move that R33 lists leaves the state it starts from. -/
theorem ne_of_moveCommands {e : Instr × DevState × List DevState} {a : DevState} (he : e ∈ moveCommands) (ha : a ∈ e.2.2) : e.2.1 ≠ a := by
  have : ∀ e ∈ moveCommands, ∀ a ∈ e.2.2, e.2.1 ≠ a := by decide
  exact this e he a ha

/-- What is seen after a command has moved the part. -/
theorem State.enter_spec (hsh : s.shaped = true) (ha : s.alive 0 = true) (new : DevState) (by_ : Option DevState) :
    let t : State := { s.enter new with movedBy := by_ }
    t.cmds = s.cmds ∧ t.device = new ∧ t.last = s.device ∧ t.changes = s.changes + 1 ∧ t.arming = none ∧ t.movedAt = some s.td0 ∧
    t.pins.permit = (new.switching && s.latchEmpty) ∧ t.td0 = s.td0 ∧
    t.stuckAt 0 Sk.DIE.STATE_CHANGED.page Sk.DIE.STATE_CHANGED.bit = true ∧
    ((∀ k, k < s.part.dies → s.imgBusy k = false) → s.OnlyOn t fun _ key => key / 0x1000 ∈ [0, 8, 10, 11, 32]) := by
  have hc := s.course_enter new
  refine ⟨congrArg Course.cmds hc, congrArg Course.device hc, congrArg Course.last hc, congrArg Course.changes hc,
    congrArg Course.arming hc, congrArg Course.movedAt hc, State.permit_enter ha new, congrArg Course.td0 hc,
    State.stuckAt_enter (State.lt_length hsh ha) new, fun hb => ?_⟩
  obtain ⟨hframe, hlen, hcell, hdram⟩ := State.Inner.enter s new hb
  exact ⟨congrArg Course.part hc, by rw [hframe], hcell, hdram⟩

/-- From s to t the collectors of some dies are armed: their sources stay present, and nothing else of the package changes but its dies. -/
structure State.Arms (s t : State) : Prop where
  frame : t = { s with dies := t.dies }
  length : t.dies.length = s.dies.length
  present : ∀ e, (t.die e).flt.present = (s.die e).flt.present
  dram : ∀ e, (t.die e).recorder.dram = (s.die e).recorder.dram
  cell : ∀ e key, t.cell e key = s.cell e key

/-- What arming makes of a die: the present sources arrive. -/
def Die.arm (d : Nat) (x : Die) : Die :=
  { x with
    flt := { x.flt with arriving := x.flt.present.map fun pi => (srcCode d pi, 0) }
    head := { x.head with alerts := [] } }

theorem State.Arms.onDie (h : s.Arms t) : s.Arms (t.onDie d (Die.arm d)) := by
  refine ⟨State.dies_trans h.frame rfl, (State.onDie_length ..).trans h.length, fun e => ?_, fun e => ?_,
    fun e key => (State.cell_onDie _ _ _ _ (Die.arm d) fun _ => rfl).trans (h.cell e key)⟩
  · rw [← h.present, State.die_onDie]
    split <;> rfl
  · rw [← h.dram, State.die_onDie]
    split <;> rfl

theorem State.armCollectors_arms (s : State) : s.Arms s.armCollectors :=
  State.each_keeps (P := s.Arms) ⟨rfl, rfl, fun _ => rfl, fun _ => rfl, fun _ _ => rfl⟩ fun _ _ h => h.onDie

/-- Every present source arrives where collectors are armed (17 R447). -/
theorem State.arriving_armCollectors (hsh : s.shaped = true) (hd : d < s.part.dies) :
    (s.armCollectors.die d).flt.arriving = (s.die d).flt.present.map fun pi => (srcCode d pi, 0) := by
  have hl : d < s.dies.length := by simpa [of_decide_eq_true hsh] using hd
  refine State.each_brings (P := s.Arms) (a := d)
    (Q := fun v => (v.die d).flt.arriving = (s.die d).flt.present.map fun pi => (srcCode d pi, 0))
    (List.mem_range.2 hd) ⟨rfl, rfl, fun _ => rfl, fun _ => rfl, fun _ _ => rfl⟩ (fun v b h => h.onDie) (fun v b h hq => ?_) fun v h => ?_
  · rw [State.die_onDie]
    split
    · next hb =>
      obtain ⟨rfl, -⟩ := hb
      exact congrArg _ (h.present d)
    · exact hq
  · rw [State.die_onDie, if_pos ⟨rfl, h.length ▸ hl⟩]
    exact congrArg _ (h.present d)

/-- A head arms its collectors for a state, and stays in its own for now (17 R447). -/
theorem State.armTo_spec (hsh : s.shaped = true) (hh : s.isHead = true) (new : DevState) :
    let t := s.armTo new
    t.cmds = s.cmds ∧ t.device = s.device ∧ t.arming = some (new, s.td0) ∧ t.armed = true ∧ t.pins = s.pins ∧
    (∀ d, d < s.part.dies → (t.die d).flt.arriving = (s.die d).flt.present.map fun pi => (srcCode d pi, 0)) ∧
    s.OnlyOn t fun _ _ => False := by
  have ht : s.armTo new = ({ s with arming := some (new, s.td0) } : State).armCollectors := if_pos hh
  have h := State.armCollectors_arms { s with arming := some (new, s.td0) }
  have harr := fun d => State.arriving_armCollectors (s := { s with arming := some (new, s.td0) }) (d := d) hsh
  rw [ht]
  generalize ({ s with arming := some (new, s.td0) } : State).armCollectors = t at h harr ⊢
  refine ⟨by rw [h.frame], by rw [h.frame], by rw [h.frame], ?_, by rw [h.frame], harr, by rw [h.frame], by rw [h.frame],
    fun e key _ => h.cell e key, h.dram⟩
  have hhead : t.isHead = true := by rw [h.frame]; exact hh
  have harm : t.arming = some (new, s.td0) := by rw [h.frame]
  simp [State.armed, hhead, harm]

/-- A command R33 lists for the state, on a part that takes its own transitions, is carried out. -/
theorem opStateCmd_listed {e : Instr × DevState × List DevState} (he : e ∈ moveCommands) (hf : s.followsHead = false)
    (ha : s.arming = none) (hm : s.movedAt ≠ some s.td0) (hd : s.device ∈ e.2.2)
    (hl : s.device = .config → ∀ d, d < s.part.dies → s.loadsOk d = true) :
    opStateCmd e.2.1.code s = if e.2.1.switching && !s.device.switching then s.armTo e.2.1 else s.enter e.2.1 := by
  have hmay : s.mayMove e.2.1 = true := by
    have hall : (s.device != .config || s.dieList.all fun d => s.loadsOk d) = true := by
      by_cases hc : s.device = .config
      · simp only [Bool.or_eq_true, List.all_eq_true]
        exact .inr fun d hd => hl hc d (List.mem_range.1 hd)
      · simp [hc]
    rw [State.mayMove, contains_hostMoves_iff.2 ⟨e, he, rfl, hd⟩, hall]
    rfl
  rw [opStateCmd_judged hf ha hm (ofCode_code _), hmay]
  rfl

/-- A state is entered at once where no collector is to be armed, or on a node without a source. -/
theorem State.enters_at_once {new : DevState}
    (h : new.switching = false ∨ s.device.switching = true ∨ s.isHead = false ∧ s.anySource = false) :
    (if new.switching && !s.device.switching then s.armTo new else s.enter new) = s.enter new := by
  split
  · next hc =>
    simp only [Bool.and_eq_true, Bool.not_eq_true'] at hc
    rcases h with h | h | ⟨hh, hs⟩
    · simp [h] at hc
    · simp [h] at hc
    · simp [State.armTo, hh, hs]
  · rfl

/-- A command that is judged and refused, or ignored, changes no state. -/
theorem State.takeCmd_stays {c : Nat} (hr : s.recordDue = false) (hd : (opStateCmd c s).device = s.device) :
    s.takeCmd c = opStateCmd c s := by
  rw [State.takeCmd_eq hr, if_pos hd]

/-- The ways in which a command is refused (01 R34). -/
theorem opStateCmd_refused {c : Nat} (hm : s.movedAt = some s.td0 → s.device ≠ .lockout)
    (h : s.followsHead = true ∨ s.arming ≠ none ∨ s.movedAt = some s.td0 ∨
      (∀ e ∈ moveCommands, e.2.1.code = c → s.device ∉ e.2.2) ∨ (s.device = .config ∧ ∃ d, d < s.part.dies ∧ s.loadsOk d = false)) :
    opStateCmd c s = s.refuseState := by
  unfold opStateCmd
  split
  · rfl
  next hfa =>
  split
  · next hmv => exact if_neg (by simpa using hm (by simpa using hmv))
  next hmv =>
  split
  · rfl
  next new hc =>
  refine if_pos ?_
  simp only [Bool.or_eq_true, not_or, Bool.not_eq_true, Option.isSome_eq_false_iff, Option.isNone_iff_eq_none, beq_iff_eq] at hfa hmv
  rcases h with h | h | h | h | ⟨hd, d, hlt, hl⟩
  · simp [hfa.1] at h
  · exact absurd hfa.2 h
  · exact absurd h hmv
  · have hn : (hostMoves s.device).contains new = false := by
      by_contra hcon
      obtain ⟨e, he, hnew, hin⟩ := contains_hostMoves_iff.1 (by simpa using hcon)
      exact h e he (hnew ▸ code_of_ofCode hc) hin
    rw [State.mayMove, hn]
    rfl
  · have hall : s.dieList.all (fun d => s.loadsOk d) = false := List.all_eq_false.2 ⟨d, List.mem_range.2 hlt, by simp [hl]⟩
    simp [State.mayMove, hd, hall]

/-- A command after a fault of the same tick (01 R34). -/
theorem opStateCmd_ignored {c : Nat} (hf : s.followsHead = false) (ha : s.arming = none) (hm : s.movedAt = some s.td0)
    (hd : s.device = .lockout) : opStateCmd c s = s := by
  unfold opStateCmd
  rw [hf, ha, hm, hd]
  simp

/-- A command R33 lists moves the part where no collector is to be armed. -/
theorem takeCmds_enters {e : Instr × DevState × List DevState} (he : e ∈ moveCommands) (ha : s.alive 0 = true)
    (hf : s.followsHead = false) (harm : s.arming = none) (hm : s.movedAt ≠ some s.td0) (hr : s.recordDue = false)
    (hc : s.cmds = [e.2.1.code]) (hd : s.device ∈ e.2.2) (hl : s.device = .config → ∀ d, d < s.part.dies → s.loadsOk d = true)
    (h : e.2.1.switching = false ∨ s.device.switching = true ∨ s.isHead = false ∧ s.anySource = false) :
    s.takeCmds = { ({ s with cmds := [] } : State).enter e.2.1 with movedBy := some s.device } := by
  have hop : opStateCmd e.2.1.code { s with cmds := [] } = ({ s with cmds := [] } : State).enter e.2.1 :=
    (opStateCmd_listed (s := { s with cmds := [] }) he hf harm hm hd hl).trans (State.enters_at_once (s := { s with cmds := [] }) h)
  have hdev : (({ s with cmds := [] } : State).enter e.2.1).device ≠ s.device := fun hcon =>
    ne_of_moveCommands he hd ((congrArg Course.device (State.course_enter _ _)).symm.trans hcon)
  rw [State.takeCmds_single ha hc, State.takeCmd_eq (s := { s with cmds := [] }) hr, hop]
  exact if_neg hdev

/-- A command R33 lists that arms the collectors of a head. -/
theorem takeCmds_arms {e : Instr × DevState × List DevState} (he : e ∈ moveCommands) (hsh : s.shaped = true) (ha : s.alive 0 = true)
    (harm : s.arming = none) (hm : s.movedAt ≠ some s.td0) (hr : s.recordDue = false)
    (hc : s.cmds = [e.2.1.code]) (hd : s.device ∈ e.2.2) (hl : s.device = .config → ∀ d, d < s.part.dies → s.loadsOk d = true)
    (hs : e.2.1.switching = true) (hn : s.device.switching = false) (hh : s.isHead = true) :
    s.takeCmds = ({ s with cmds := [] } : State).armTo e.2.1 := by
  have hf : s.followsHead = false := by simp [State.followsHead, hh]
  have hop : opStateCmd e.2.1.code { s with cmds := [] } = ({ s with cmds := [] } : State).armTo e.2.1 :=
    (opStateCmd_listed (s := { s with cmds := [] }) he hf harm hm hd hl).trans (if_pos (by simp [hs, hn]))
  have hdev : (({ s with cmds := [] } : State).armTo e.2.1).device = s.device :=
    (State.armTo_spec (s := { s with cmds := [] }) hsh hh e.2.1).2.1
  rw [State.takeCmds_single ha hc, State.takeCmd_stays (s := { s with cmds := [] }) hr (hop ▸ hdev), hop]

/-- A command that is refused sets STATE_REFUSED. -/
theorem takeCmds_refuses {c : Nat} (ha : s.alive 0 = true) (hr : s.recordDue = false) (hc : s.cmds = [c])
    (hm : s.movedAt = some s.td0 → s.device ≠ .lockout)
    (h : s.followsHead = true ∨ s.arming ≠ none ∨ s.movedAt = some s.td0 ∨
      (∀ e ∈ moveCommands, e.2.1.code = c → s.device ∉ e.2.2) ∨ (s.device = .config ∧ ∃ d, d < s.part.dies ∧ s.loadsOk d = false)) :
    s.takeCmds = ({ s with cmds := [] } : State).refuseState := by
  have hop : opStateCmd c { s with cmds := [] } = ({ s with cmds := [] } : State).refuseState := opStateCmd_refused hm h
  have hdev : (opStateCmd c { s with cmds := [] }).device = s.device := hop ▸ State.stick_device ..
  rw [State.takeCmds_single ha hc, State.takeCmd_stays (s := { s with cmds := [] }) hr hdev, hop]

/-- A command in a tick in which a fault is latched is ignored (01 R34). -/
theorem takeCmds_ignores {c : Nat} (ha : s.alive 0 = true) (hc : s.cmds = [c])
    (h : s.recordDue = true ∨ (s.followsHead = false ∧ s.arming = none ∧ s.movedAt = some s.td0 ∧ s.device = .lockout)) :
    s.takeCmds = { s with cmds := [] } := by
  rw [State.takeCmds_single ha hc]
  cases hr : s.recordDue with
  | true => exact if_pos hr
  | false =>
    obtain ⟨hf, harm, hm, hd⟩ := h.resolve_left (by simp [hr])
    have hop := opStateCmd_ignored (s := { s with cmds := [] }) (c := c) hf harm hm hd
    rw [State.takeCmd_stays (s := { s with cmds := [] }) hr (by rw [hop]), hop]

/-- COLLECTOR_ARM_APPLY enters the state that waits, eight ticks after the collectors were armed (17 R447). -/
theorem exec_collectorArmApply {new : DevState} {t0 : Nat} (hs : s.sane = true) (hh : s.isHead = true) (ha : s.alive 0 = true)
    (harm : s.arming = some (new, t0)) : exec .collectorArmApply s =
      .next (if s.td0 < t0 + 8 || s.recordDue then s else { s.enter new with movedBy := some s.device }) := by
  refine (State.guarded_true _ _ _ hs (by simp [hh, ha])).trans ?_
  unfold opCollectorArm
  rw [harm]

/-- Settles O10: what a command in the queue comes to as its tick begins (`takeCmds_enters`, `takeCmds_arms`, `takeCmds_refuses`,
`takeCmds_ignores`), and what a change of state or the arming of a head then leaves (`State.enter_spec`, `State.armTo_spec`). -/
theorem stateCommands : Obligations.state_commands := by
  refine ⟨fun s hs ha => ⟨fun e he => ?_, fun target => State.guarded_true _ _ _ hs ha⟩, fun _ => cmds_tick, ?_, ?_, ?_, ?_⟩
  · simp only [moveCommands, List.mem_cons, List.not_mem_nil, or_false] at he
    rcases he with rfl | rfl | rfl | rfl | rfl | rfl
    all_goals exact State.guarded_true _ _ _ hs ha
  · intro e he s hsh ha hf harm hm hr hc hd hl
    refine ⟨s.cmds_takeCmds, fun h => ?_, fun hs hn hh => ?_⟩
    · rw [takeCmds_enters he ha hf harm hm hr hc hd hl h]
      obtain ⟨-, hdev, hlast, hch, hnone, hmoved, hpermit, htd, hstick, honly⟩ :=
        State.enter_spec (s := { s with cmds := [] }) hsh ha e.2.1 (some s.device)
      exact ⟨hdev, hlast, hch, hnone, hmoved, rfl, hpermit, htd, hstick, honly⟩
    · rw [takeCmds_arms he hsh ha harm hm hr hc hd hl hs hn hh]
      exact (State.armTo_spec (s := { s with cmds := [] }) hsh hh e.2.1).2
  · intro s new t0 hsh hs hh ha harm
    refine ⟨fun ht hr => ⟨_, exec_collectorArmApply hs hh ha harm, ?_⟩, fun ht => ?_⟩
    · rw [if_neg (by simpa [hr] using ht)]
      obtain ⟨-, hdev, hlast, hch, hnone, -, -, -, hstick, -⟩ := State.enter_spec hsh ha new (some s.device)
      exact ⟨hdev, hlast, hch, hnone, hstick⟩
    · rw [exec_collectorArmApply hs hh ha harm, if_pos (by simp [ht])]
  · intro s target hsh ha hr hc hm h
    rw [takeCmds_refuses ha hr hc hm h]
    exact ⟨State.stuckAt_stick_same _ _ _ _ (State.lt_length hsh ha) (by decide),
      (State.OnlyKeys.refl _ _ _).stick _ _ (.inl rfl) (.inr rfl)⟩
  · exact fun s target ha hc h => takeCmds_ignores ha hc h

end Sys2Proof.Machine

end

section
open Sys2Proof Sys2Proof.Machine

namespace Sys2Proof.Machine
variable {s t u : State} {d : Nat}

/-! ### What a reset leaves (21 R521, R524, R525) -/

/-- From s to t the words of memory slices cut by a reset are opened, on dies of L only. -/
structure State.Opens (L : Nat → Prop) (s t : State) : Prop where
  frame : t = { s with dies := t.dies, free := t.free }
  hold : ∀ e, (t.die e).hold = (s.die e).hold
  dram : ∀ e, (t.die e).recorder.dram = (s.die e).recorder.dram
  fuses : ∀ e, (t.die e).sec.fuses = (s.die e).sec.fuses
  other : ∀ e, ¬L e → t.die e = s.die e

namespace State.Opens

variable {L : Nat → Prop}

theorem refl (L : Nat → Prop) (s : State) : s.Opens L s := ⟨rfl, fun _ => rfl, fun _ => rfl, fun _ => rfl, fun _ _ => rfl⟩

theorem mono {M : Nat → Prop} (h : s.Opens L t) (hl : ∀ e, L e → M e) : s.Opens M t :=
  ⟨h.frame, h.hold, h.dram, h.fuses, fun e he => h.other e fun hc => he (hl e hc)⟩

theorem putOpen {key : Nat} {f : Word → Word} (h : s.Opens L t) (hd : L d) :
    s.Opens L (t.freeW.2.putCell d key (f t.freeW.1)) := by
  have hdie : ∀ e, (t.freeW.2.putCell d key (f t.freeW.1)).die e = if e = d ∧ d < t.dies.length
      then { t.die e with cells := (t.die e).cells.put (t.dflt d key) key (f t.freeW.1) } else t.die e := fun e => State.die_onDie ..
  refine ⟨?_, fun e => ?_, fun e => ?_, fun e => ?_, fun e he => ?_⟩
  · rw [h.frame]
    rfl
  · rw [hdie, ← h.hold]
    split <;> rfl
  · rw [hdie, ← h.dram]
    split <;> rfl
  · rw [hdie, ← h.fuses]
    split <;> rfl
  · rw [hdie, if_neg fun hc : e = d ∧ _ => he (hc.1 ▸ hd), h.other e he]

theorem scramble {m w : Nat} (h : s.Opens L t) (hd : L d) : s.Opens L (t.scramble d m w) :=
  State.each_keeps h fun _ _ h => h.putOpen (f := fun x => if 24 ≤ m && m < 40 then x &&& 0xFFFF#32 else x) hd

theorem openSlice {m j : Nat} (h : s.Opens L t) (hd : L d) : s.Opens L (t.openSlice d m j) :=
  State.each_keeps h fun _ _ h => h.scramble hd

end State.Opens

/-- Only the dies whose memory test the reset cut. -/
theorem State.openSlices_opens (s old : State) (l : List Nat) : s.Opens (fun d => (old.bist d).slice ≠ none) (s.openSlices old l) :=
  State.each_keeps_mem (.refl _ s) fun _ d hd h => h.openSlice fun hn => by simp [hn] at hd

theorem Die.toReset_zero (powerUp : Bool) : Die.toReset powerUp Die.zero = Die.zero := by cases powerUp <;> rfl

/-- What a die reset leaves in the registers of the die. -/
theorem State.cell_toReset {powerUp : Bool} (hd : t.die d = Die.toReset powerUp (s.die d)) (hp : t.part = s.part) (key : Nat) :
    t.cell d key = if powerUp = false ∧ keptClk key = true then s.cell d key else s.dflt d key := by
  have hdf : t.dflt d key = s.dflt d key := by simp only [State.dflt, hp]
  unfold State.cell
  rw [hd, hdf]
  cases powerUp with
  | true => simp [Die.toReset, Cells.find]
  | false =>
    simp only [Die.toReset, Bool.false_eq_true, if_false, true_and, Cells.find_filter]
    split <;> rfl

/-- The package after a reset of all its dies, before the slices under test are opened. -/
theorem State.resetAll_opens (s : State) (new : DevState) (powerUp : Bool) :
    ∃ v : State, v.Opens (fun d => powerUp = false ∧ (s.bist d).slice ≠ none) (s.resetAll new powerUp) ∧
      v.device = new ∧ v.last = s.device ∧ v.misused = [] ∧ v.pins = Pins.low ∧ v.td0 = 0 ∧ v.part = s.part ∧ v.pending = s.pending ∧
      ∀ d, v.die d = Die.toReset powerUp (s.die d) := by
  have hdie : ∀ d, (s.dies.map (Die.toReset powerUp)).getD d Die.zero = Die.toReset powerUp (s.die d) := fun d => by
    have := List.getD_map (l := s.dies) (d := Die.zero) (n := d) (Die.toReset powerUp)
    rwa [Die.toReset_zero] at this
  cases powerUp with
  | true => exact ⟨_, .refl _ _, rfl, rfl, rfl, rfl, rfl, rfl, rfl, hdie⟩
  | false =>
    exact ⟨_, (State.openSlices_opens _ s s.dieList).mono fun _ hs => ⟨rfl, hs⟩, rfl, rfl, rfl, rfl, rfl, rfl, rfl, hdie⟩

/-- What a reset of all dies leaves. -/
theorem State.resetAll_spec (s : State) (new : DevState) (powerUp : Bool) :
    let t := s.resetAll new powerUp
    t.device = new ∧ t.last = s.device ∧ t.misused = [] ∧ t.pins = Pins.low ∧ t.td0 = 0 ∧ t.part = s.part ∧ t.pending = s.pending ∧
    (∀ d, (t.die d).hold = true ∧ (t.die d).recorder.dram = [] ∧ (t.die d).sec.fuses = (s.die d).sec.fuses) ∧
    ∀ d key, powerUp = true ∨ (s.bist d).slice = none →
      t.cell d key = if powerUp = false ∧ keptClk key = true then s.cell d key else s.dflt d key := by
  obtain ⟨v, h, hdev, hlast, hmis, hpins, htd, hpart, hpend, hdie⟩ := s.resetAll_opens new powerUp
  generalize s.resetAll new powerUp = t at h ⊢
  refine ⟨by rw [h.frame, hdev], by rw [h.frame, hlast], by rw [h.frame, hmis], by rw [h.frame, hpins], by rw [h.frame, htd],
    by rw [h.frame, hpart], by rw [h.frame, hpend], fun d => ⟨?_, ?_, ?_⟩, fun d key hs => ?_⟩
  · rw [h.hold, hdie]
    rfl
  · rw [h.dram, hdie]
    rfl
  · rw [h.fuses, hdie]
    rfl
  · refine State.cell_toReset ((h.other d ?_).trans (hdie d)) (by rw [h.frame, hpart]) key
    rintro ⟨hp, hsl⟩
    exact hs.elim (fun hs => by simp [hs] at hp) hsl

/-- From s to t some dies have been reset, die 0 among them if `low` says so, and their output balls are low (21 R521, R524). -/
structure State.Pulsed (s : State) (low : Bool) (t : State) : Prop where
  frame : t = { s with dies := t.dies, pins := t.pins, free := t.free }
  sob : t.pins.sob = s.pins.sob ∨ t.pins.sob = 0
  pins : t.pins = { if low then Pins.low else s.pins with sob := t.pins.sob }
  die : ∀ e, t.die e = s.die e ∨ t.die e = Die.toReset false (s.die e)

theorem Die.toReset_toReset (x : Die) : Die.toReset false (Die.toReset false x) = Die.toReset false x := by
  simp [Die.toReset, List.filter_filter]

/-- A die more is reset. -/
theorem State.Pulsed.reset {low : Bool} (h : s.Pulsed low t) (d : Nat) :
    s.Pulsed (low || d == 0) ((t.onDie d (Die.toReset false)).lowerPins d) := by
  have hdie : ∀ e, (t.onDie d (Die.toReset false)).die e = s.die e ∨ (t.onDie d (Die.toReset false)).die e = Die.toReset false (s.die e) :=
    fun e => by
      rw [State.die_onDie]
      split
      · rcases h.die e with he | he
        · exact .inr (by rw [he])
        · exact .inr (by rw [he, Die.toReset_toReset])
      · exact h.die e
  unfold State.lowerPins
  split
  · next h0 =>
    refine ⟨?_, h.sob, ?_, hdie⟩
    · rw [h.frame]
      rfl
    · simp [h0, State.onDie]
  · next h0 =>
    have hl : (low || d == 0) = low := by simp [h0]
    rw [hl]
    split
    · refine ⟨?_, .inr rfl, ?_, hdie⟩
      · rw [h.frame]
        rfl
      · show { t.pins with sob := 0 } = _
        rw [h.pins]
    · refine ⟨?_, h.sob, h.pins, hdie⟩
      rw [h.frame]
      rfl

/-- The dies of a list are reset. -/
theorem State.Pulsed.each (l : List Nat) (h : s.Pulsed false t) :
    s.Pulsed (decide (0 ∈ l)) (t.each l fun s d => (s.onDie d (Die.toReset false)).lowerPins d) := by
  by_cases h0 : 0 ∈ l
  · rw [decide_eq_true h0]
    refine State.each_brings (P := fun v => ∃ low, s.Pulsed low v) h0 ⟨_, h⟩ (fun v d ⟨low, hv⟩ => ⟨_, hv.reset d⟩)
      (fun v d _ hv => by simpa using hv.reset d) fun v ⟨low, hv⟩ => by simpa using hv.reset 0
  · rw [decide_eq_false h0]
    refine State.each_keeps_mem h fun v d hd hv => ?_
    have hne : (d == 0) = false := beq_eq_false_iff_ne.2 fun hc => h0 (hc ▸ hd)
    simpa [hne] using hv.reset d

theorem Part.dies_pos (p : Part) : 0 < p.dies := by cases p <;> decide

/-- What RESET_N does in less than 10 µs, die by die: a die is as it was or as its reset leaves it (21 R524). -/
theorem State.shortPulse_spec (ht : t = s.shortPulse) :
    t.part = s.part ∧ t.pending = s.pending ∧ (t.pins.sob = s.pins.sob ∨ t.pins.sob = 0) ∧
    (t.device = s.device ∧ t.td0 = s.td0 ∧ t.pins = { s.pins with sob := t.pins.sob } ∨
      t.device = .reset ∧ t.td0 = 0 ∧ t.pins = { Pins.low with sob := t.pins.sob }) ∧
    ∀ d, (s.bist d).slice = none → t.die d = s.die d ∨ t.die d = Die.toReset false (s.die d) := by
  unfold State.shortPulse at ht
  extract_lets r hit t1 t2 t3 at ht
  have h1 : s.Pulsed (decide (0 ∈ hit)) t1 := State.Pulsed.each hit ⟨rfl, .inl rfl, rfl, fun _ => .inl rfl⟩
  have hmem : 0 ∈ hit ↔ bitOf r.1 0 = true := by
    have : 0 ∈ r.2.dieList := List.mem_range.2 s.part.dies_pos
    simp [hit, this]
  have h3 := ht ▸ t3.openSlices_opens s hit
  have hkeep : t3.part = t1.part ∧ t3.pending = t1.pending ∧ t3.pins = t1.pins ∧ t3.dies = t1.dies := by
    dsimp only [t3]
    split <;> exact ⟨rfl, rfl, rfl, rfl⟩
  have hstate : t3.device = t1.device ∧ t3.td0 = t1.td0 ∧ decide (0 ∈ hit) = false ∨
      t3.device = .reset ∧ t3.td0 = 0 ∧ decide (0 ∈ hit) = true := by
    dsimp only [t3]
    split
    · next hb => exact .inr ⟨rfl, rfl, decide_eq_true (hmem.2 hb)⟩
    · next hb => exact .inl ⟨rfl, rfl, decide_eq_false (mt hmem.1 hb)⟩
  obtain ⟨hpart, hpend, hpins, hdies⟩ := hkeep
  have htp : t.pins = t1.pins := (congrArg State.pins h3.frame).trans hpins
  refine ⟨?_, ?_, by rw [htp]; exact h1.sob, ?_, fun d hd => ?_⟩
  · rw [h3.frame, hpart, h1.frame]
  · rw [h3.frame, hpend, h1.frame]
  · have hlow := h1.pins
    rw [htp, show t.device = t3.device by rw [h3.frame], show t.td0 = t3.td0 by rw [h3.frame]]
    rcases hstate with ⟨hdev, htd, h0⟩ | ⟨hdev, htd, h0⟩
    · rw [h0] at hlow
      exact .inl ⟨by rw [hdev, h1.frame], by rw [htd, h1.frame], hlow⟩
    · rw [h0] at hlow
      exact .inr ⟨hdev, htd, hlow⟩
  · have hdie : t.die d = t1.die d := (h3.other d fun hs => hs hd).trans (by simp only [State.die, hdies])
    rw [hdie]
    exact h1.die d

/-- Settles O8: SUPPLIES_RISE, SUPPLY_LOSS, a long RESET_N and a node's own reset are resets of all dies (`State.resetAll_spec`), a shorter
RESET_N is one of some dies (`State.shortPulse_spec`). -/
theorem suppliesAndResetN : Obligations.supplies_and_reset_n := by
  refine ⟨fun s mv hd hp => ?_, fun s mv hd hp => ?_, fun s c hc => ?_, fun s ns hd hn => ?_⟩
  · refine ⟨s.resetAll .reset true, congrArg Host.Outcome.next (if_pos (by simp [hd, hp])), ?_⟩
    obtain ⟨hdev, hlast, hmis, hpins, htd, hpart, hpend, hdie, hcell⟩ := s.resetAll_spec .reset true
    exact ⟨hdev, hlast.trans hd, hmis, hpins, htd, hpart, hpend, hdie, fun d key => by simpa using hcell d key (.inl rfl)⟩
  · let absent := (List.range (goodLevels s.isHead).length).any fun i => mv.getD i 0 == 0
    have habsent : absent = true ↔ ∃ i, i < (goodLevels s.isHead).length ∧ mv.getD i 0 = 0 := by simp [absent]
    refine ⟨s.resetAll (if absent then .off else .reset) absent, congrArg Host.Outcome.next (if_pos (by simp [hd, hp])), ?_⟩
    obtain ⟨hdev, hlast, hmis, hpins, htd, hpart, hpend, hdie, hcell⟩ := s.resetAll_spec (if absent then .off else .reset) absent
    refine ⟨fun h => ?_, fun h => ?_, hlast, hmis, hpins, htd, hpart, hpend, hdie, fun d key h => ?_, fun d key h hs => ?_⟩
    · rw [hdev, if_pos (habsent.2 h)]
    · rw [hdev, if_neg (mt habsent.1 h)]
    · rw [hcell d key (.inl (habsent.2 h)), if_neg (by simp [habsent.2 h])]
    · have hf : absent = false := by simpa using mt habsent.1 h
      rw [hcell d key (.inr hs)]
      simp [hf]
  · have he : exec c s = .next (s.resetAll .reset false) := by
      rcases hc with ⟨ns, hns, rfl, hd⟩ | ⟨cycles, hcy, rfl, hh, hg⟩
      · refine congrArg Host.Outcome.next ((if_pos (by simp [hd])).trans (if_pos hns))
      · exact congrArg Host.Outcome.next (if_pos (by simp [hh, hg, hcy]))
    refine ⟨_, he, ?_⟩
    obtain ⟨hdev, hlast, hmis, hpins, htd, hpart, hpend, hdie, hcell⟩ := s.resetAll_spec .reset false
    exact ⟨hdev, hlast, hmis, hpins, htd, hpart, hpend, hdie, fun d key hs => by simpa using hcell d key (.inr hs)⟩
  · exact ⟨s.shortPulse, congrArg Host.Outcome.next ((if_pos (by simp [hd])).trans (if_neg (by omega))), State.shortPulse_spec rfl⟩

end Sys2Proof.Machine

end

section
open Sys2Proof Sys2Proof.Machine

namespace Sys2Proof.Machine
variable {s t u : State} {d e b k : Nat} {x y : FabXfer} {l : List FabXfer}

/-! ### What a tollgate grants (02 R59, R62-R64) -/

/-- A slot goes to class C in slot 15 of a round if one waits, else to the first class that waits (02 R59). -/
theorem slotClass_spec {slot15 : Bool} (h : x ∈ slotClass slot15 l) :
    x ∈ l ∧ (x.cls = 0 ∨ x.cls = 1 ∨ x.cls = 2) ∧
    if slot15 = true ∧ ∃ y ∈ l, y.cls = 2 then x.cls = 2 else ∀ y ∈ l, y.cls ≤ 2 → x.cls ≤ y.cls := by
  have hwait : ∀ c, (!(l.filter fun x => x.cls == c).isEmpty) = true ↔ ∃ y ∈ l, y.cls = c := fun c => by
    simp [List.filter_eq_nil_iff]
  unfold slotClass at h
  dsimp only at h
  simp only [Bool.and_eq_true, hwait] at h
  split at h
  · next hc =>
    rw [if_pos hc]
    simp only [List.mem_filter, beq_iff_eq] at h
    exact ⟨h.1, .inr (.inr h.2), h.2⟩
  · next hc =>
    rw [if_neg hc]
    split at h
    · simp only [List.mem_filter, beq_iff_eq] at h
      exact ⟨h.1, .inl h.2, fun y _ _ => by omega⟩
    · next h0 =>
      split at h
      · simp only [List.mem_filter, beq_iff_eq] at h
        refine ⟨h.1, .inr (.inl h.2), fun y hy _ => ?_⟩
        have : y.cls ≠ 0 := fun hy0 => h0 ⟨y, hy, hy0⟩
        omega
      · next h1 =>
        simp only [List.mem_filter, beq_iff_eq] at h
        refine ⟨h.1, .inr (.inr h.2), fun y hy _ => ?_⟩
        have hy0 : y.cls ≠ 0 := fun hy0 => h0 ⟨y, hy, hy0⟩
        have hy1 : y.cls ≠ 1 := fun hy1 => h1 ⟨y, hy, hy1⟩
        omega

/-- The submission by which a transfer is judged: its own, or that of 2^22 ticks ago (02 R63). -/
def FabXfer.judged (x : FabXfer) (now : Nat) : Nat := max x.born (now - 2 ^ 22)

/-- Stamps of transfers submitted by now compare as their submissions do, since no age counts beyond 2^22 ticks (02 R62, R63). -/
theorem olderStamp_stamp_iff {now : Nat} (hx : x.born ≤ now) (hy : y.born ≤ now) :
    olderStamp (x.stamp now) (y.stamp now) = true ↔ x.judged now < y.judged now := by
  have hxj : x.stamp now = x.judged now % 2 ^ 24 := rfl
  have hyj : y.stamp now = y.judged now % 2 ^ 24 := rfl
  have hxb : now - 2 ^ 22 ≤ x.judged now ∧ x.judged now ≤ now := by unfold FabXfer.judged; omega
  have hyb : now - 2 ^ 22 ≤ y.judged now ∧ y.judged now ≤ now := by unfold FabXfer.judged; omega
  unfold olderStamp
  rw [hxj, hyj]
  simp only [Bool.and_eq_true, decide_eq_true_eq]
  omega

/-- x is not granted after y, within a class (02 R62-R64). -/
def Gate.notAfter (g : Gate) (now : Nat) (x y : FabXfer) : Prop :=
  x.judged now < y.judged now ∨ (x.judged now = y.judged now ∧ g.turn x ≤ g.turn y)

theorem Gate.notAfter_self (g : Gate) (now : Nat) (x : FabXfer) : g.notAfter now x x := .inr ⟨rfl, le_rfl⟩

theorem Gate.notAfter_trans {g : Gate} {now : Nat} {z : FabXfer} (h : g.notAfter now x y) (k : g.notAfter now y z) :
    g.notAfter now x z := by
  unfold Gate.notAfter at *
  omega

theorem Gate.notAfter_of_before {g : Gate} {now : Nat} (hx : x.born ≤ now) (hy : y.born ≤ now) (h : g.before now y x = true) :
    g.notAfter now y x := by
  simp only [Gate.before, Bool.or_eq_true, Bool.and_eq_true, Bool.not_eq_true', ← Bool.not_eq_true, decide_eq_true_eq,
    olderStamp_stamp_iff hx hy, olderStamp_stamp_iff hy hx] at h
  unfold Gate.notAfter
  omega

theorem Gate.notAfter_of_not_before {g : Gate} {now : Nat} (hx : x.born ≤ now) (hy : y.born ≤ now) (h : ¬g.before now y x = true) :
    g.notAfter now x y := by
  simp only [Gate.before, Bool.or_eq_true, Bool.and_eq_true, Bool.not_eq_true', ← Bool.not_eq_true, decide_eq_true_eq,
    olderStamp_stamp_iff hx hy, olderStamp_stamp_iff hy hx] at h
  unfold Gate.notAfter
  omega

theorem Gate.mem_of_first {g : Gate} {now : Nat} (h : g.first now l = some x) : x ∈ l := by
  induction l generalizing x with
  | nil => cases h
  | cons a l ih =>
    unfold Gate.first at h
    split at h
    · next y hy =>
      split at h
      · cases h
        exact List.mem_cons_of_mem _ (ih hy)
      · cases h
        exact List.mem_cons_self
    · cases h
      exact List.mem_cons_self

theorem Gate.first_eq_none {g : Gate} {now : Nat} (h : g.first now l = none) : l = [] := by
  cases l with
  | nil => rfl
  | cons a l =>
    unfold Gate.first at h
    split at h <;> cases h

/-- Within a class the oldest stamp is granted, ties in rotating order (02 R62-R64). -/
theorem Gate.first_notAfter {g : Gate} {now : Nat} (hl : ∀ y ∈ l, y.born ≤ now) (h : g.first now l = some x) :
    ∀ y ∈ l, g.notAfter now x y := by
  induction l generalizing x with
  | nil => cases h
  | cons a l ih =>
    have ha := hl a List.mem_cons_self
    have hlt : ∀ y ∈ l, y.born ≤ now := fun y hy => hl y (List.mem_cons_of_mem _ hy)
    unfold Gate.first at h
    split at h
    · next y hy =>
      have hyb := hlt y (Gate.mem_of_first hy)
      split at h
      · next hb =>
        cases h
        exact List.forall_mem_cons.2 ⟨Gate.notAfter_of_before ha hyb hb, ih hlt hy⟩
      · next hb =>
        cases h
        exact List.forall_mem_cons.2 ⟨g.notAfter_self now _, fun z hz =>
          Gate.notAfter_trans (Gate.notAfter_of_not_before ha hyb hb) (ih hlt hy z hz)⟩
    · next hn =>
      cases h
      rw [Gate.first_eq_none hn]
      exact List.forall_mem_cons.2 ⟨g.notAfter_self now _, fun _ h => nomatch h⟩

/-- What arrives at a die is meant for it. -/
theorem State.dst_of_arrived (h : s.arrived d = some x) : x.dst = d := by
  have hm := (slotClass_spec (Gate.mem_of_first h)).1
  simp only [List.mem_filter, Bool.and_eq_true, beq_iff_eq] at hm
  exact hm.2.1.2

/-- A grant is noted: the tollgate's last die, and of that die its last port (02 R64). -/
theorem State.gate_noteGrant {g : Nat} (hd : d < s.dies.length) (hg : g < (s.die d).fab.gates.length) :
    (s.noteGrant d g x).gate d g = ⟨x.src, setAt (s.gate d g).ports x.src fun _ => x.port⟩ := by
  unfold State.gate State.noteGrant
  rw [State.die_onDie, if_pos ⟨rfl, hd⟩]
  simp only [setAt, List.getD_eq_getElem?_getD, List.getElem?_modify, if_true]
  rw [List.getElem?_eq_getElem hg]
  rfl

theorem gateIndex_lt (l : FabLink) : gateIndex l < 4 := by cases l <;> decide

/-- A slot of a link direction: what is granted moves on, and the tollgate notes it (02 R59, R64, R65). -/
theorem State.gateSlot_spec {l : FabLink} (hsh : s.shaped = true) (hd : d < s.part.dies) (hg : (s.die d).fab.gates.length = 4)
    (hport : x.src < (s.gate d (gateIndex l)).ports.length) (hp : s.peer d l = some e) (hbd : s.blockEn d 0x10 = true)
    (hbe : s.blockEn e 0x10 = true) (hup : s.flag d (linkFld l) = true)
    (hx : (s.gate d (gateIndex l)).first s.td0 (slotClass (s.td0 / 5 % 16 == 15)
      (s.fabric.filter fun y => y.die == d && decide (y.ready ≤ s.td0) && (route d y.dst).head? == some (d, e))) = some x) :
    (s.gateSlot d l).fabric = s.fabric.erase x ++ [{ x with die := e, ready := if x.dst = e then s.td0 + 11 else s.td0 + 4 }] ∧
      ((s.gateSlot d l).gate d (gateIndex l)).die = x.src ∧ ((s.gateSlot d l).gate d (gateIndex l)).ports.getD x.src 7 = x.port := by
  have heq : s.gateSlot d l =
      ({ s with fabric := s.fabric.erase x ++ [x.move s.td0 e] } : State).noteGrant d (gateIndex l) x := by
    unfold State.gateSlot
    rw [hp]
    dsimp only
    rw [hbd, hbe, hup, hx]
    rfl
  have hdl : d < s.dies.length := by simpa [of_decide_eq_true hsh] using hd
  have hgate := State.gate_noteGrant (s := { s with fabric := s.fabric.erase x ++ [x.move s.td0 e] }) (x := x) (g := gateIndex l) hdl
    (hg ▸ gateIndex_lt l)
  rw [heq, hgate]
  refine ⟨rfl, rfl, ?_⟩
  have hport' : x.src < (({ s with fabric := s.fabric.erase x ++ [x.move s.td0 e] } : State).gate d (gateIndex l)).ports.length := hport
  simp only [setAt, List.getD_eq_getElem?_getD, List.getElem?_modify, if_true]
  rw [List.getElem?_eq_getElem hport']
  rfl

/-! ### Admission (02 R60, R61) -/

/-- A die counts a submission under entry i as the n-th of a window (02 R61). -/
def Die.counts (window i n : Nat) (x : Die) : Die :=
  { x with fab := { x.fab with
      window := window
      sent := (i, n) :: (if x.fab.window = window then x.fab.sent.filter (fun e => e.1 != i) else []) } }

/-- What an admitted submission leaves of the shares of its die. -/
theorem State.tryShare_admits {i : Nat} (hb : s.blockEn d 0x10 = true) (hs : s.sentNow d i < s.rd d Fd.RES_ENTRY.SHARE i) :
    s.tryShare d (some i) = (true, s.onDie d (Die.counts (s.td0 / 20) i (s.sentNow d i + 1))) := by
  unfold State.tryShare
  exact if_neg (by simp [hb]; omega)

theorem State.sentNow_counts {i n : Nat} (hd : d < s.dies.length) :
    (s.onDie d (Die.counts (s.td0 / 20) i n)).sentNow d i = n := by
  unfold State.sentNow
  rw [State.die_onDie_same _ _ _ hd]
  simp [Die.counts]

theorem exec_fabricSubmission {port source dst : Nat} (hs : s.sane = true) (hh : s.isHead = true) (ha : s.alive d = true) :
    exec (.fabricSubmission d port source dst 0) s = .next (s.submitA d port source .other).2 := by
  change execFabricSubmission d port source dst 0 s = _
  exact State.guarded_true _ _ _ hs (by simp [hh, ha])

/-- A submission under a reservation with share left is admitted, counted in its window and stamped. -/
theorem fabricSubmission_admits {port source dst i : Nat} (hsh : s.shaped = true) (hs : s.sane = true) (hh : s.isHead = true)
    (ha : s.alive d = true) (hi : s.resOf d port source = some i) (hb : s.blockEn d 0x10 = true)
    (hlt : s.sentNow d i < s.rd d Fd.RES_ENTRY.SHARE i) :
    Completes (.fabricSubmission d port source dst 0) s fun t => t.sentNow d i = s.sentNow d i + 1 ∧
      t.fabric = s.fabric ++ [⟨d, port, s.rd d Fd.RES_ENTRY.DEST i, 0, s.td0, d, s.td0 + 2, .other⟩] ∧
      { s with fabric := t.fabric }.OnlyKeys t d fun _ => False := by
  refine ⟨_, exec_fabricSubmission hs hh ha, ?_⟩
  have ht : (s.submitA d port source .other).2 = (s.onDie d (Die.counts (s.td0 / 20) i (s.sentNow d i + 1))).launch d port
      (s.rd d Fd.RES_ENTRY.DEST i) 0 .other := by
    unfold State.submitA State.submitUnder
    rw [hi, State.tryShare_admits hb hlt]
    rfl
  rw [ht]
  exact ⟨State.sentNow_counts (State.lt_length hsh ha), rfl, State.OnlyKeys.onDie (.refl _ d _) _ (fun _ => rfl) fun _ => rfl⟩

/-- A transfer of class B or C needs no reservation (02 R61), but FAB enabled on its die (02 R69). -/
theorem exec_fabricSubmission_BC {port source dst cls : Nat} (hs : s.sane = true) (hh : s.isHead = true) (ha : s.alive d = true)
    (hc : cls = 1 ∨ cls = 2) : exec (.fabricSubmission d port source dst cls) s = .next (if s.blockEn d 0x10 = true then
      { s with fabric := s.fabric ++ [⟨d, port, dst, cls, s.td0, d, s.td0 + 2, .other⟩] } else s) := by
  rcases hc with rfl | rfl
  · change execFabricSubmission d port source dst 1 s = _
    exact State.guarded_true _ _ _ hs (by simp [hh, ha])
  · change execFabricSubmission d port source dst 2 s = _
    exact State.guarded_true _ _ _ hs (by simp [hh, ha])

/-- A count saturates at the end of its field. -/
theorem State.rd_bump_same {f : Fld} {n : Nat} (hd : d < s.dies.length) (hi : f.hi < 32) (hl : f.lo ≤ f.hi) :
    (s.bump d f 0 n).rd d f = min (s.rd d f + n) f.max := by
  rw [State.bump_eq, State.rd_wr_same _ _ _ _ _ hd hi hl]
  refine Nat.mod_eq_of_lt ?_
  have : 0 < 2 ^ (f.hi + 1 - f.lo) := Nat.two_pow_pos _
  unfold Fld.max
  omega

theorem State.rd_stick_ne {page bit : Nat} {f : Fld} (h : e ≠ d ∨ f.key 0 ≠ hdrKey page 0xC ∧ f.key 0 ≠ hdrKey page 0x10) :
    (s.stick d page bit).rd e f = s.rd e f := by
  unfold State.rd
  rw [State.cell_stick_ne _ _ _ _ _ _ h]

/-- A sticky bit stays set whatever other bits are set. -/
theorem State.stuckAt_stick {page bit p c : Nat} (hd : d < s.dies.length) (hb : bit < 32) (h : s.stuckAt e p c = true) :
    (s.stick d page bit).stuckAt e p c = true := by
  by_cases hk : e = d ∧ p = page
  · obtain ⟨rfl, rfl⟩ := hk
    cases hs : s.stuckAt e p bit with
    | true =>
      have hsame : s.stick e p bit = s := if_pos hs
      rwa [hsame]
    | false =>
      rw [(State.stick_unset hd hb hs).1, h, Bool.or_true]
  · have hc : e ≠ d ∨ hdrKey p 0xC ≠ hdrKey page 0xC ∧ hdrKey p 0xC ≠ hdrKey page 0x10 := by
      unfold hdrKey
      omega
    unfold State.stuckAt at h ⊢
    rwa [State.cell_stick_ne _ _ _ _ _ _ hc]

theorem State.stuckAt_wr {f : Fld} {i v p c : Nat} (h : e ≠ d ∨ hdrKey p 0xC ≠ f.key i) :
    (s.wr d f i v).stuckAt e p c = s.stuckAt e p c := by
  unfold State.stuckAt
  rw [State.cell_wr_ne _ _ _ _ _ _ _ h]

/-- The steps by which a submission is refused (02 R28, R61). -/
theorem State.refuseA_spec (hd : d < s.dies.length) (entry : Option Nat) (hi : ∀ i, entry = some i → i < 32) :
    (s.refuseA d entry).stuckAt d Sk.FAB.CLASS_A_REFUSED.page Sk.FAB.CLASS_A_REFUSED.bit = true ∧
    (s.refuseA d entry).rd d Fd.FAB_COUNTS.REFUSED = min (s.rd d Fd.FAB_COUNTS.REFUSED + 1) Fd.FAB_COUNTS.REFUSED.max ∧
    (entry = none → (s.refuseA d entry).flag d Fd.FAB_LAST_REFUSED.NO_ENTRY = true) ∧
    (∀ i, entry = some i → (s.refuseA d entry).flag d Fd.FAB_LAST_REFUSED.NO_ENTRY = false ∧
      (s.refuseA d entry).rd d Fd.FAB_LAST_REFUSED.ENTRY = i) ∧
    s.OnlyKeys (s.refuseA d entry) d fun key =>
      stickyKeys 16 key ∨ key = Fd.FAB_COUNTS.REFUSED.key 0 ∨ key = Fd.FAB_LAST_REFUSED.ENTRY.key 0 := by
  let v := (s.sticky d Sk.FAB.CLASS_A_REFUSED).bump d Fd.FAB_COUNTS.REFUSED 0 1
  have hstick : v.stuckAt d 16 0 = true := (State.stuckAt_wr (.inr (by decide))).trans (State.stuckAt_stick_same _ _ _ _ hd (by decide))
  have hlen : (s.sticky d Sk.FAB.CLASS_A_REFUSED).dies.length = s.dies.length := State.stick_length ..
  have hvl : d < v.dies.length := (State.wr_length ..).symm ▸ hlen.symm ▸ hd
  have hcount : v.rd d Fd.FAB_COUNTS.REFUSED = min (s.rd d Fd.FAB_COUNTS.REFUSED + 1) Fd.FAB_COUNTS.REFUSED.max := by
    refine (State.rd_bump_same (hlen ▸ hd) (by decide) (by decide)).trans ?_
    rw [show (s.sticky d Sk.FAB.CLASS_A_REFUSED).rd d Fd.FAB_COUNTS.REFUSED = s.rd d Fd.FAB_COUNTS.REFUSED from
      State.rd_stick_ne (.inr (by decide))]
  have hframe : s.OnlyKeys v d fun key =>
      stickyKeys 16 key ∨ key = Fd.FAB_COUNTS.REFUSED.key 0 ∨ key = Fd.FAB_LAST_REFUSED.ENTRY.key 0 :=
    ((State.OnlyKeys.refl s d _).stick _ _ (.inl (.inl rfl)) (.inl (.inr rfl))).wr _ _ _ (.inr (.inl rfl))
  cases entry with
  | none =>
    have ht : s.refuseA d none = v.wr d Fd.FAB_LAST_REFUSED.NO_ENTRY 0 1 := rfl
    rw [ht]
    refine ⟨(State.stuckAt_wr (.inr (by decide))).trans hstick, (State.rd_wr_ne _ _ _ _ _ _ _ _ (.inr (by decide))).trans hcount,
      fun _ => ?_, fun i hi => (nomatch hi), hframe.wr _ _ _ (.inr (.inr rfl))⟩
    exact congrArg (· != 0) (State.rd_wr_same _ _ _ _ _ hvl (by decide) (by decide))
  | some i =>
    have hi := hi i rfl
    have ht : s.refuseA d (some i) = (v.wr d Fd.FAB_LAST_REFUSED.ENTRY 0 i).wr d Fd.FAB_LAST_REFUSED.NO_ENTRY 0 0 := rfl
    have hul : d < (v.wr d Fd.FAB_LAST_REFUSED.ENTRY 0 i).dies.length := by rwa [State.wr_length]
    rw [ht]
    refine ⟨(State.stuckAt_wr (.inr (by decide))).trans ((State.stuckAt_wr (.inr (by decide))).trans hstick),
      (State.rd_wr_ne _ _ _ _ _ _ _ _ (.inr (by decide))).trans ((State.rd_wr_ne _ _ _ _ _ _ _ _ (.inr (by decide))).trans hcount),
      fun h => (nomatch h), ?_, (hframe.wr _ _ _ (.inr (.inr rfl))).wr _ _ _ (.inr (.inr rfl))⟩
    rintro _ ⟨⟩
    refine ⟨congrArg (· != 0) (State.rd_wr_same _ _ _ _ _ hul (by decide) (by decide)), ?_⟩
    refine (State.rd_wr_bits (g := Fd.FAB_LAST_REFUSED.NO_ENTRY) _ _ _ _ _ Fd.FAB_LAST_REFUSED.ENTRY _ rfl (by decide) (by decide)
      (.inl (by decide))).trans ?_
    exact (State.rd_wr_same _ _ _ _ _ hvl (by decide) (by decide)).trans (Nat.mod_eq_of_lt hi)

/-- Without a reservation with share left a submission is refused. -/
theorem State.submitA_refused {port source : Nat} {what : FabPayload}
    (h : s.resOf d port source = none ∨ ∃ i, s.resOf d port source = some i ∧
      (s.blockEn d 0x10 = false ∨ s.rd d Fd.RES_ENTRY.SHARE i ≤ s.sentNow d i)) :
    (s.submitA d port source what).2 = s.refuseA d (s.resOf d port source) := by
  have htry : s.tryShare d (s.resOf d port source) = (false, s.refuseA d (s.resOf d port source)) := by
    rcases h with h | ⟨i, h, hbad⟩
    · rw [h]
      rfl
    · rw [h]
      exact if_pos (by simpa using hbad)
  unfold State.submitA State.submitUnder
  rw [htry]
  rfl

/-! ### Links and what arrives over them (02 R65-R67) -/

section Frames

variable {P : Nat → Nat → Prop}

theorem State.Inner.arrive (h : State.Inner P s t) (d n w : Nat) : State.Inner P s (t.arrive d n w) := by
  unfold State.arrive
  split
  · exact h.onDie _ _ (fun _ => rfl) fun _ => rfl
  · exact h

theorem State.Inner.pulse (h : State.Inner P s t) (d n : Nat) : State.Inner P s (t.pulse d n) := by
  unfold State.pulse
  refine State.Inner.when ?_ _ _ fun _ => State.Inner.arrive ?_ ..
  all_goals exact h.onDie _ _ (fun _ => rfl) fun _ => rfl

theorem State.Inner.mono {Q : Nat → Nat → Prop} (h : State.Inner P s t) (hp : ∀ e key, P e key → Q e key) : State.Inner Q s t :=
  ⟨h.1, h.2.1, fun e key hk => h.2.2.1 e key (mt (hp e key) hk), h.2.2.2⟩

/-- The frame of a change that also takes a transfer out of the fabric. -/
theorem State.onlyOn_of_inner {v : State} (h : State.Inner P v t) (hp : v.part = s.part) (hq : v.pending = s.pending)
    (hd : v.dies = s.dies) : s.OnlyOn t P := by
  obtain ⟨hframe, -, hcell, hdram⟩ := h
  have hdie : ∀ e, v.die e = s.die e := fun e => by simp only [State.die, hd]
  have hvc : ∀ e key, v.cell e key = s.cell e key := fun e key => by simp only [State.cell, State.dflt, hdie, hp]
  refine ⟨by rw [hframe]; exact hp, by rw [hframe]; exact hq, fun e key hk => (hcell e key hk).trans (hvc e key), fun e => ?_⟩
  rw [hdram, hdie]

theorem State.Inner.lostA (h : State.Inner P s t) (h1 : P d (hdrKey 16 0xC)) (h2 : P d (hdrKey 16 0x10)) : State.Inner P s (t.lostA d) :=
  (h.stick _ _ _ h1 h2).pulse _ _

end Frames

theorem State.stuckAt_lostA (hd : d < s.dies.length) : (s.lostA d).stuckAt d Sk.FAB.A_LOST.page Sk.FAB.A_LOST.bit = true := by
  have h : (s.sticky d Sk.FAB.A_LOST).stuckAt d Sk.FAB.A_LOST.page Sk.FAB.A_LOST.bit = true :=
    State.stuckAt_stick_same _ _ _ _ hd (by decide)
  unfold State.stuckAt State.lostA at *
  rwa [State.cell_pulse]

/-! #### A link goes down (02 R67) -/

/-- No link leads back to its own die. -/
theorem State.peer_ne {l : FabLink} (h : s.peer d l = some e) : e ≠ d := by
  unfold State.peer at h
  split at h
  · split at h
    · cases h
      omega
    · cases h
  · split at h
    · cases h
      omega
    · cases h
  · split at h
    · cases h
      intro hc
      have := congrArg (d ^^^ ·) hc
      simp at this
    · cases h

/-- What one end of a link that goes down leaves. -/
structure State.EndsDown (s : State) (d : Nat) (l : FabLink) (t : State) : Prop where
  down : t.flag d (linkFld l) = false
  stuck : t.stuckAt d Sk.FAB.LINK_DOWN.page Sk.FAB.LINK_DOWN.bit = true
  present : s.blockEn d 0x10 = true → (t.die d).flt.present.contains 0x009 = true
  keeps : ∀ e p c, s.stuckAt e p c = true → t.stuckAt e p c = true
  other : ∀ e, e ≠ d → t.die e = s.die e
  inner : State.Inner (fun e key => e = d ∧ (stickyKeys 16 key ∨ key = (linkFld l).key 0)) s t

theorem stuck_ne_linkFld (p : Nat) (l : FabLink) : hdrKey p 0xC ≠ (linkFld l).key 0 ∧ hdrKey p 0x10 ≠ (linkFld l).key 0 := by
  simp only [hdrKey, linkFld, Fld.key]
  omega

theorem linkFld_width (l : FabLink) : (linkFld l).hi < 32 ∧ (linkFld l).lo ≤ (linkFld l).hi := by cases l <;> decide

theorem State.present_raise {n : Nat} (hd : d < s.dies.length) : ((s.raise d n).die d).flt.present.contains n = true := by
  unfold State.raise
  split
  · assumption
  · rw [State.die_onDie_same _ _ _ hd]
    simp

theorem State.endDown_spec (hd : d < s.dies.length) (l : FabLink) : s.EndsDown d l (s.endDown d l) := by
  obtain ⟨hhi, hlo⟩ := linkFld_width l
  let v := s.wrB d (linkFld l) 0 false
  let u := v.sticky d Sk.FAB.LINK_DOWN
  have hvl : d < v.dies.length := (State.wr_length ..).symm ▸ hd
  have hul : d < u.dies.length := (State.stick_length ..).symm ▸ hvl
  have hcell : ∀ e key, (s.endDown d l).cell e key = u.cell e key := fun e key => by
    unfold State.endDown State.when
    split
    · exact State.cell_raise ..
    · rfl
  have hother : ∀ e, e ≠ d → (s.endDown d l).die e = s.die e := fun e he =>
    (((State.OnlyKeys.refl s d fun _ => True).wr (linkFld l) 0 0 trivial).stick 16 4 trivial trivial |>.when _ _
      ((((State.OnlyKeys.refl s d fun _ => True).wr (linkFld l) 0 0 trivial).stick 16 4 trivial trivial).raise 9)).2.2.1 e he
  refine ⟨?_, ?_, fun hb => ?_, fun e p c h => ?_, hother, ?_⟩
  · unfold State.flag State.rd
    rw [hcell]
    have hrd : u.rd d (linkFld l) = 0 :=
      (State.rd_stick_ne (.inr ⟨(stuck_ne_linkFld _ l).1.symm, (stuck_ne_linkFld _ l).2.symm⟩)).trans
        ((State.rd_wr_same _ _ _ _ _ hd hhi hlo).trans (Nat.zero_mod _))
    exact congrArg (· != 0) hrd
  · unfold State.stuckAt
    rw [hcell]
    exact State.stuckAt_stick_same _ _ _ _ hvl (by decide)
  · have ht : s.endDown d l = u.raise d 0x009 := if_pos hb
    rw [ht]
    exact State.present_raise hul
  · have hv : v.stuckAt e p c = true := (State.stuckAt_wr (.inr (stuck_ne_linkFld p l).1)).trans h
    have hu : u.stuckAt e p c = true := State.stuckAt_stick hvl (by decide) hv
    unfold State.stuckAt at hu ⊢
    rwa [hcell]
  · have h1 : State.Inner (fun e key => e = d ∧ (stickyKeys 16 key ∨ key = (linkFld l).key 0)) s u :=
      ((State.Inner.refl _ s).wr _ _ _ _ ⟨rfl, .inr rfl⟩).stick _ _ _ ⟨rfl, .inl (.inl rfl)⟩ ⟨rfl, .inl (.inr rfl)⟩
    exact h1.when _ _ fun _ => h1.raise _ _

/-- A link that goes down does so at both its ends. -/
theorem State.opLinkDown_spec {l : FabLink} (hsh : s.shaped = true) (hd : d < s.part.dies) (he : e < s.part.dies)
    (hp : s.peer d l = some e) :
    let t := opLinkDown d l s
    t.flag d (linkFld l) = false ∧ t.flag e (linkFld (linkBack l)) = false ∧
    t.stuckAt d Sk.FAB.LINK_DOWN.page Sk.FAB.LINK_DOWN.bit = true ∧ t.stuckAt e Sk.FAB.LINK_DOWN.page Sk.FAB.LINK_DOWN.bit = true ∧
    (∀ k, k = d ∨ k = e → s.blockEn k 0x10 = true → (t.die k).flt.present.contains 0x009 = true) ∧
    (∀ k p c, s.stuckAt k p c = true → t.stuckAt k p c = true) ∧
    State.Inner (fun k key => (k = d ∨ k = e) ∧ (stickyKeys 16 key ∨ key = (linkFld l).key 0)) s t := by
  have hne := State.peer_ne hp
  have hlen : s.dies.length = s.part.dies := of_decide_eq_true hsh
  have hu := State.endDown_spec (hlen ▸ hd) l
  have hulen : (s.endDown d l).dies.length = s.dies.length := hu.inner.2.1
  have ht := State.endDown_spec (s := s.endDown d l) (hulen ▸ hlen ▸ he) (linkBack l)
  have heq : opLinkDown d l s = (s.endDown d l).endDown e (linkBack l) := by
    unfold opLinkDown
    rw [hp]
  have hdie := ht.other d hne.symm
  have hpart : ((s.endDown d l).endDown e (linkBack l)).part = (s.endDown d l).part := by rw [ht.inner.1]
  have hcell : ∀ key, ((s.endDown d l).endDown e (linkBack l)).cell d key = (s.endDown d l).cell d key := fun key => by
    simp only [State.cell, State.dflt, hdie, hpart]
  rw [heq]
  refine ⟨?_, ht.down, ht.keeps _ _ _ hu.stuck, ht.stuck, ?_, fun k p c h => ht.keeps _ _ _ (hu.keeps _ _ _ h), ?_⟩
  · have := hu.down
    unfold State.flag State.rd at this ⊢
    rwa [hcell]
  · rintro k (rfl | rfl) hb
    · rw [hdie]
      exact hu.present hb
    · refine ht.present ?_
      unfold State.blockEn at hb ⊢
      rwa [hu.inner.2.2.1 _ _ (fun hc => hne hc.1)]
  · exact (hu.inner.mono fun k key ⟨hk, hkey⟩ => ⟨.inl hk, hkey⟩).trans (ht.inner.mono fun k key ⟨hk, hkey⟩ => ⟨.inr hk, hkey⟩)

/-! #### What arrives (02 R65-R67) -/

/-- A transfer leaves the fabric, and nothing else of the package changes but what its tollgate notes. -/
theorem State.takeArrived_inner (s : State) (d : Nat) (x : FabXfer) :
    State.Inner (fun _ _ => False) { s with fabric := s.fabric.erase x } (s.takeArrived d x) :=
  (State.Inner.refl _ _).onDie _ _ (fun _ => rfl) fun _ => rfl

theorem State.le_noteGrant {g : Nat} : ((s.noteGrant d g x).die e).le = (s.die e).le := by
  unfold State.noteGrant
  rw [State.die_onDie]
  split <;> rfl

theorem State.cell_takeArrived {key : Nat} : (s.takeArrived d x).cell e key = s.cell e key :=
  (s.takeArrived_inner d x).2.2.1 e key id

/-- The outcome of a transfer that arrives, and its delivery if it is delivered. -/
theorem exec_fabricTransfer {how : FabArrival} {good : Bool} (hs : s.sane = true) (hh : s.isHead = true) (ho : s.on d 0x10 = true)
    (hx : s.arrived d = some x) (hf : x.fits how = true) (hu : (s.takeArrived d x).outcome x how = (good, u)) :
    exec (.fabricTransfer d .queued how) s = .next (if good then opDeliver d x u else u) := by
  change execFabricTransfer d .queued how s = _
  unfold execFabricTransfer
  rw [State.guarded_true _ _ _ hs (by simp [hh, ho])]
  simp only [hx, hf, hu]
  rfl

/-- A class A transfer with a bad CRC delivers nothing and is noted as lost. -/
theorem fabricTransfer_badA (hsh : s.shaped = true) (hs : s.sane = true) (hh : s.isHead = true) (ho : s.on d 0x10 = true)
    (hx : s.arrived d = some x) (hc : x.cls = 0) : Completes (.fabricTransfer d .queued .badA) s fun t => t.fabric = s.fabric.erase x ∧
      t.stuckAt d Sk.FAB.A_LOST.page Sk.FAB.A_LOST.bit = true ∧ s.OnlyOn t fun e key => e = d ∧ stickyKeys 16 key := by
  have ht : ((s.takeArrived d x).outcome x .badA) = (false, (s.takeArrived d x).lostA d) := by
    unfold State.outcome
    rw [State.dst_of_arrived hx]
  have hl : d < (s.takeArrived d x).dies.length := by
    rw [(s.takeArrived_inner d x).2.1]
    exact State.lt_length hsh (State.alive_of_on ho)
  have hi := ((s.takeArrived_inner d x).mono fun _ _ h => h.elim).lostA (P := fun e key => e = d ∧ stickyKeys 16 key) ⟨rfl, .inl rfl⟩
    ⟨rfl, .inr rfl⟩
  exact ⟨_, exec_fabricTransfer hs hh ho hx (by simp [FabXfer.fits, hc]) ht, congrArg State.fabric hi.1, State.stuckAt_lostA hl,
    State.onlyOn_of_inner hi rfl rfl rfl⟩

/-- A set-point word that arrives is pending at its slot. -/
theorem fabricTransfer_setPoint {slot w : Nat} {v : BitVec 16} (hsh : s.shaped = true) (hs : s.sane = true) (hh : s.isHead = true)
    (ho : s.on d 0x10 = true) (hx : s.arrived d = some x) (hwhat : x.what = .setPoints slot [(w, v)])
    (hslot : slot < (s.die d).le.slot.length) (hw : w < 4) (hsp : w < (s.slot d slot).sp.length) :
    Completes (.fabricTransfer d .queued (.good [])) s fun t => t.fabric = s.fabric.erase x ∧
        t.spWord d slot w = (s.spWord d slot w).write s.td0 1 v ∧ s.OnlyOn t fun _ _ => False := by
  have hout : (s.takeArrived d x).outcome x (.good []) = (true, s.takeArrived d x) := by
    unfold State.outcome
    simp only [List.zip_nil_right]
    exact congrArg _ (ite_self _)
  have hdel : opDeliver d x (s.takeArrived d x) = (s.takeArrived d x).spPend d slot w 1 v := by
    unfold opDeliver
    rw [hwhat]
    exact if_pos (decide_eq_true hw)
  have hdl : d < s.dies.length := State.lt_length hsh (State.alive_of_on ho)
  have hdie : ((s.takeArrived d x).die d).le = (s.die d).le := State.le_noteGrant
  have hl : d < (s.takeArrived d x).dies.length := by rwa [(s.takeArrived_inner d x).2.1]
  have hword : ∀ k, (s.takeArrived d x).spWord d slot k = s.spWord d slot k := fun k => by simp only [State.spWord, State.slot, hdie]
  refine ⟨_, (exec_fabricTransfer hs hh ho hx rfl hout).trans (congrArg _ hdel), rfl, ?_,
    State.onlyOn_of_inner ((s.takeArrived_inner d x).onDie _ _ (fun _ => rfl) fun _ => rfl) rfl rfl rfl⟩
  have hlast : w < ((s.takeArrived d x).slot d slot).sp.length := by simpa only [State.slot, hdie] using hsp
  exact (State.spWord_onSp hl (hdie ▸ hslot)).trans ((if_pos ⟨rfl, hlast⟩).trans (congrArg (·.write s.td0 1 v) (hword w)))

/-- Re-sends as one end of their link notes them: CRC_RESENT, and RESENT once per re-send (02 R66). -/
def State.noteResent (s : State) (d m : Nat) : State := (s.sticky d Sk.FAB.CRC_RESENT).bump d Fd.FAB_COUNTS.RESENT 0 m

theorem State.resentOver_eq {a n : Nat} (hn : 0 < n) : s.resentOver (a, d) n = (s.noteResent a (min n 3)).noteResent d (min n 3) :=
  if_pos (decide_eq_true hn)

/-- What one end of a link notes. -/
structure State.NotesResent (s : State) (d m : Nat) (t : State) : Prop where
  stuck : t.stuckAt d Sk.FAB.CRC_RESENT.page Sk.FAB.CRC_RESENT.bit = true
  count : t.rd d Fd.FAB_COUNTS.RESENT = min (s.rd d Fd.FAB_COUNTS.RESENT + m) Fd.FAB_COUNTS.RESENT.max
  other : ∀ e key, e ≠ d → t.cell e key = s.cell e key
  inner : State.Inner (fun e key => e = d ∧ (stickyKeys 16 key ∨ key = Fd.FAB_COUNTS.RESENT.key 0)) s t

theorem State.noteResent_spec {m : Nat} (hd : d < s.dies.length) : s.NotesResent d m (s.noteResent d m) := by
  have hl : d < (s.sticky d Sk.FAB.CRC_RESENT).dies.length := (State.stick_length ..).symm ▸ hd
  have hi : State.Inner (fun e key => e = d ∧ (stickyKeys 16 key ∨ key = Fd.FAB_COUNTS.RESENT.key 0)) s (s.noteResent d m) :=
    ((State.Inner.refl _ s).stick _ _ _ ⟨rfl, .inl (.inl rfl)⟩ ⟨rfl, .inl (.inr rfl)⟩).wr _ _ _ _ ⟨rfl, .inr rfl⟩
  refine ⟨(State.stuckAt_wr (.inr (by decide))).trans (State.stuckAt_stick_same _ _ _ _ hd (by decide)), ?_,
    fun e key he => hi.2.2.1 e key fun hc => he hc.1, hi⟩
  refine (State.rd_bump_same hl (by decide) (by decide)).trans ?_
  rw [show (s.sticky d Sk.FAB.CRC_RESENT).rd d Fd.FAB_COUNTS.RESENT = s.rd d Fd.FAB_COUNTS.RESENT from State.rd_stick_ne (.inr (by decide))]

/-- What both ends of a hop note of the re-sends over it. -/
theorem State.resentOver_spec {a n : Nat} (ha : a < s.dies.length) (hd : d < s.dies.length) (hne : a ≠ d) (hn : 0 < n) :
    let t := s.resentOver (a, d) n
    (∀ k, k = a ∨ k = d → t.stuckAt k Sk.FAB.CRC_RESENT.page Sk.FAB.CRC_RESENT.bit = true ∧
      t.rd k Fd.FAB_COUNTS.RESENT = min (s.rd k Fd.FAB_COUNTS.RESENT + min n 3) Fd.FAB_COUNTS.RESENT.max) ∧
    State.Inner (fun k key => (k = a ∨ k = d) ∧ (stickyKeys 16 key ∨ key = Fd.FAB_COUNTS.RESENT.key 0)) s t := by
  have h1 := State.noteResent_spec (m := min n 3) ha
  have h2 := State.noteResent_spec (s := s.noteResent a (min n 3)) (m := min n 3) (h1.inner.2.1.symm ▸ hd)
  rw [State.resentOver_eq hn]
  refine ⟨?_, (h1.inner.mono fun k key ⟨hk, hkey⟩ => ⟨.inl hk, hkey⟩).trans (h2.inner.mono fun k key ⟨hk, hkey⟩ => ⟨.inr hk, hkey⟩)⟩
  rintro k (rfl | rfl)
  · refine ⟨?_, ?_⟩
    · unfold State.stuckAt
      rw [h2.other _ _ hne]
      exact h1.stuck
    · unfold State.rd
      rw [h2.other _ _ hne]
      exact h1.count
  · refine ⟨h2.stuck, h2.count.trans ?_⟩
    unfold State.rd
    rw [h1.other _ _ hne.symm]

/-- No hop of a route leads back to its own die (02 R57). -/
theorem ne_of_mem_route {src dst a : Nat} (h : (a, e) ∈ route src dst) : a ≠ e := by
  have hrow : ∀ n src col, (a, e) ∈ rowHops n src col → a ≠ e := fun n => by
    induction n with
    | zero => intro _ _ h; cases h
    | succ n ih =>
      intro src col h
      unfold rowHops at h
      split at h
      · cases h
      · split at h
        · rcases List.mem_cons.1 h with h | h
          · cases h
            omega
          · exact ih _ _ h
        · rcases List.mem_cons.1 h with h | h
          · cases h
            omega
          · exact ih _ _ h
  rcases List.mem_append.1 h with h | h
  · exact hrow _ _ _ h
  · split at h
    · cases h
    · rw [List.mem_singleton] at h
      cases h
      omega

/-- Re-sends over the one hop of a route are noted at both its ends. -/
theorem fabricTransfer_resent {a n : Nat} (hsh : s.shaped = true) (hs : s.sane = true) (hh : s.isHead = true) (ho : s.on d 0x10 = true)
    (hx : s.arrived d = some x) (hwhat : x.what = .other) (hc : x.cls ≠ 0) (hr : route x.src d = [(a, d)]) (ha : a < s.part.dies)
    (hn : 0 < n) : Completes (.fabricTransfer d .queued (.good [n])) s fun t => t.fabric = s.fabric.erase x ∧
        (∀ k, k = a ∨ k = d → t.stuckAt k Sk.FAB.CRC_RESENT.page Sk.FAB.CRC_RESENT.bit = true ∧
          t.rd k Fd.FAB_COUNTS.RESENT = min (s.rd k Fd.FAB_COUNTS.RESENT + min n 3) Fd.FAB_COUNTS.RESENT.max) ∧
        s.OnlyOn t fun k key => (k = a ∨ k = d) ∧ (stickyKeys 16 key ∨ key = Fd.FAB_COUNTS.RESENT.key 0) := by
  have hlen : (s.takeArrived d x).dies.length = s.part.dies := (s.takeArrived_inner d x).2.1.trans (of_decide_eq_true hsh)
  have hdl : d < s.part.dies := State.lt_of_alive (State.alive_of_on ho)
  have hne : a ≠ d := ne_of_mem_route (hr ▸ List.mem_singleton.2 rfl)
  obtain ⟨hends, hi⟩ := State.resentOver_spec (s := s.takeArrived d x) (hlen ▸ ha) (hlen ▸ hdl) hne hn
  have hout : (s.takeArrived d x).outcome x (.good [n]) = (true, (s.takeArrived d x).resentOver (a, d) n) := by
    unfold State.outcome
    rw [State.dst_of_arrived hx, hr]
    exact congrArg _ (if_pos (by simpa using hc))
  have hdel : opDeliver d x ((s.takeArrived d x).resentOver (a, d) n) = (s.takeArrived d x).resentOver (a, d) n := by
    unfold opDeliver
    rw [hwhat]
  refine ⟨_, (exec_fabricTransfer hs hh ho hx rfl hout).trans (congrArg _ hdel), congrArg State.fabric hi.1, fun k hk => ?_,
    State.onlyOn_of_inner (((s.takeArrived_inner d x).mono fun _ _ h => h.elim).trans hi) rfl rfl rfl⟩
  have hrd : (s.takeArrived d x).rd k Fd.FAB_COUNTS.RESENT = s.rd k Fd.FAB_COUNTS.RESENT := by
    unfold State.rd
    rw [State.cell_takeArrived]
  exact hrd ▸ hends k hk

/-- A link leads where it says. -/
theorem State.peer_of_linkTo {a : Nat} {l : FabLink} (h : s.linkTo a d = some l) : s.peer a l = some d := by
  simpa using List.find?_some h

/-- Links depend on the part alone. -/
theorem State.linkTo_congr {a : Nat} (h : t.part = s.part) : t.linkTo a d = s.linkTo a d := by
  have hp : ∀ l, t.peer a l = s.peer a l := fun l => by
    unfold State.peer State.isHead
    rw [h]
  simp only [State.linkTo, hp]

/-- The third re-send over a hop fails: its link goes down. -/
theorem fabricTransfer_badBC {a : Nat} {l : FabLink} (hsh : s.shaped = true) (hs : s.sane = true) (hh : s.isHead = true)
    (ho : s.on d 0x10 = true) (hx : s.arrived d = some x) (hc : x.cls ≠ 0) (hr : route x.src d = [(a, d)]) (ha : a < s.part.dies)
    (hl : s.linkTo a d = some l) : Completes (.fabricTransfer d .queued (.badBC [])) s fun t => t.fabric = s.fabric.erase x ∧
        t.flag a (linkFld l) = false ∧ t.flag d (linkFld (linkBack l)) = false ∧
        t.stuckAt a Sk.FAB.CRC_RESENT.page Sk.FAB.CRC_RESENT.bit = true ∧
        t.stuckAt d Sk.FAB.LINK_DOWN.page Sk.FAB.LINK_DOWN.bit = true := by
  have hlen : (s.takeArrived d x).dies.length = s.part.dies := (s.takeArrived_inner d x).2.1.trans (of_decide_eq_true hsh)
  have hdl : d < s.part.dies := State.lt_of_alive (State.alive_of_on ho)
  have hne : a ≠ d := ne_of_mem_route (hr ▸ List.mem_singleton.2 rfl)
  obtain ⟨hends, hi⟩ := State.resentOver_spec (s := s.takeArrived d x) (n := 3) (hlen ▸ ha) (hlen ▸ hdl) hne (by decide)
  have hpart : ((s.takeArrived d x).resentOver (a, d) 3).part = s.part := by
    rw [hi.1]
    rfl
  have hshu : ((s.takeArrived d x).resentOver (a, d) 3).shaped = true := by
    unfold State.shaped
    rw [hpart]
    exact decide_eq_true (hi.2.1.trans hlen)
  have hlu : ((s.takeArrived d x).resentOver (a, d) 3).linkTo a d = some l := (State.linkTo_congr hpart).trans hl
  obtain ⟨hdown, hback, -, hstuck, -, hkeeps, hlink⟩ := State.opLinkDown_spec hshu (hpart.symm ▸ ha) (hpart.symm ▸ hdl)
    (State.peer_of_linkTo hlu)
  have hout : (s.takeArrived d x).outcome x (.badBC []) = (false, opLinkDown a l ((s.takeArrived d x).resentOver (a, d) 3)) := by
    unfold State.outcome
    rw [State.dst_of_arrived hx, hr]
    have hnone : (s.takeArrived d x).when (x.cls != 0) (fun s => s.each (([(a, d)] : List (Nat × Nat)).zip []) fun s e =>
        s.resentOver e.1 e.2) = s.takeArrived d x := ite_self _
    simp only [List.length_nil, List.getElem?_cons_zero, hnone, hlu]
  exact ⟨_, exec_fabricTransfer hs hh ho hx (by simp [FabXfer.fits, hc, State.dst_of_arrived hx, hr]) hout,
    (congrArg State.fabric hlink.1).trans (congrArg State.fabric hi.1), hdown, hback, hkeeps _ _ _ (hends a (.inl rfl)).1, hstuck⟩

/-- The mirror record of a domain that arrives with a bad CRC is lost at the die. -/
theorem fabricTransfer_mirror {i : Nat} (hsh : s.shaped = true) (hs : s.sane = true) (hh : s.isHead = true) (ho : s.on d 0x10 = true)
    (hm : ∃ m ∈ s.mirrors, m.domain = i ∧ d ∉ m.lost) : Completes (.fabricTransfer d (.mirror i) .badA) s fun t =>
      t.stuckAt d Sk.FAB.A_LOST.page Sk.FAB.A_LOST.bit = true ∧ (∃ m ∈ t.mirrors, m.domain = i ∧ d ∈ m.lost) ∧
      s.OnlyOn t fun e key => e = d ∧ stickyKeys 16 key := by
  obtain ⟨m, hfind⟩ : ∃ m, s.mirrors.find? (fun m => m.domain == i && !m.lost.contains d) = some m := by
    obtain ⟨m, hmem, hdom, hlost⟩ := hm
    exact Option.isSome_iff_exists.1 (List.find?_isSome.2 ⟨m, hmem, by simp [hdom, hlost]⟩)
  have hmem := List.mem_of_find?_eq_some hfind
  have hdom : m.domain = i := by
    have := List.find?_some hfind
    simp only [Bool.and_eq_true, beq_iff_eq] at this
    exact this.1
  let v : State := { s with mirrors := s.mirrors.map fun x => if x = m then { x with lost := x.lost ++ [d] } else x }
  have hi : State.Inner (fun e key => e = d ∧ stickyKeys 16 key) v (v.lostA d) :=
    (State.Inner.refl _ v).lostA ⟨rfl, .inl rfl⟩ ⟨rfl, .inr rfl⟩
  have hexec : exec (.fabricTransfer d (.mirror i) .badA) s = .next (v.lostA d) := by
    change execFabricTransfer d (.mirror i) .badA s = _
    unfold execFabricTransfer
    rw [State.guarded_true _ _ _ hs (by simp [hh, ho])]
    simp only [if_true]
    unfold State.loseMirror
    rw [hfind]
  refine ⟨_, hexec, State.stuckAt_lostA (State.lt_length hsh (State.alive_of_on ho)), ?_, State.onlyOn_of_inner hi rfl rfl rfl⟩
  have hmirrors : (v.lostA d).mirrors = v.mirrors := by rw [hi.1]
  rw [hmirrors]
  exact ⟨{ m with lost := m.lost ++ [d] }, List.mem_map.2 ⟨m, hmem, if_pos rfl⟩, hdom, by simp⟩

/-- A link goes down at both its ends. -/
theorem linkDown_spec {l : FabLink} (hsh : s.shaped = true) (hs : s.sane = true) (hh : s.isHead = true) (ha : s.alive d = true)
    (hp : s.peer d l = some e) (he : e < s.part.dies) : Completes (.linkDown d l) s fun t =>
      t.flag d (linkFld l) = false ∧ t.flag e (linkFld (linkBack l)) = false ∧
      t.stuckAt d Sk.FAB.LINK_DOWN.page Sk.FAB.LINK_DOWN.bit = true ∧ t.stuckAt e Sk.FAB.LINK_DOWN.page Sk.FAB.LINK_DOWN.bit = true ∧
      (∀ k, k = d ∨ k = e → s.blockEn k 0x10 = true → (t.die k).flt.present.contains 0x009 = true) ∧
      s.OnlyOn t fun k key => (k = d ∨ k = e) ∧ (stickyKeys 16 key ∨ key = (linkFld l).key 0) := by
  obtain ⟨hdown, hback, hstuck, hstuck', hpresent, -, hi⟩ := State.opLinkDown_spec hsh (State.lt_of_alive ha) he hp
  have hexec : exec (.linkDown d l) s = .next (opLinkDown d l s) := by
    change execLinkDown d l s = _
    exact State.guarded_true _ _ _ hs (by simp [hh, ha])
  exact ⟨_, hexec, hdown, hback, hstuck, hstuck', hpresent, State.onlyOn_of_inner hi rfl rfl rfl⟩

/-! #### Reservations (02 R60, R69) -/

theorem exec_resEntryWrite {i : Nat} {value : Word} (hs : s.sane = true) (ha : s.alive d = true) (hi : i < 32) :
    exec (.resEntryWrite d i value) s = .next (opResEntry d i value s) := by
  change execResEntryWrite d i value s = _
  exact State.guarded_true _ _ _ hs (by simp [ha, hi])

/-- A mask that has every bit of a field leaves the field. -/
theorem bitsOf_and_of_mask {n mask hi lo : Nat} (h : bitsOf mask hi lo = 2 ^ (hi + 1 - lo) - 1) :
    bitsOf (n &&& mask) hi lo = bitsOf n hi lo := by
  refine Nat.eq_of_testBit_eq fun i => ?_
  have hm := congrArg (Nat.testBit · i) h
  simp only [bitsOf, Nat.testBit_mod_two_pow, Nat.testBit_div_two_pow, Nat.testBit_two_pow_sub_one, Nat.testBit_and] at hm ⊢
  by_cases hi : i < hi + 1 - lo
  · simp only [hi, decide_true, Bool.true_and] at hm ⊢
    rw [hm, Bool.and_true]
  · simp [hi]

/-- The bits of a word that RES_ENTRY holds (02 R60). -/
theorem resEntry_mask (value : Word) :
    bitOf (value &&& 0x8703FFFF#32).toNat 31 = bitOf value.toNat 31 ∧
    bitsOf (value &&& 0x8703FFFF#32).toNat 17 16 = bitsOf value.toNat 17 16 ∧
    bitsOf (value &&& 0x8703FFFF#32).toNat 26 24 = bitsOf value.toNat 26 24 := by
  rw [BitVec.toNat_and]
  refine ⟨?_, bitsOf_and_of_mask (by decide), bitsOf_and_of_mask (by decide)⟩
  have hbit : ∀ n, bitOf n 31 = (bitsOf n 31 31 == 1) := fun _ => rfl
  rw [hbit, hbit, bitsOf_and_of_mask (by decide)]

/-- A reservation whose word is refused sets RES_REJECTED. -/
theorem resEntryWrite_rejected {i : Nat} {value : Word} (hsh : s.shaped = true) (hs : s.sane = true) (ha : s.alive d = true) (hi : i < 32)
    (h : opResEntry d i value s = s.sticky d Sk.FAB.RES_REJECTED) : Completes (.resEntryWrite d i value) s fun t =>
      t.stuckAt d Sk.FAB.RES_REJECTED.page Sk.FAB.RES_REJECTED.bit = true ∧ s.OnlyKeys t d (stickyKeys 16) :=
  ⟨_, (exec_resEntryWrite hs ha hi).trans (congrArg _ h), State.stuckAt_stick_same _ _ _ _ (State.lt_length hsh ha) (by decide),
    (State.OnlyKeys.refl s d _).stick _ _ (.inl rfl) (.inr rfl)⟩

/-- A reservation that fits takes its word. -/
theorem resEntryWrite_taken {i : Nat} {value : Word} (hsh : s.shaped = true) (hs : s.sane = true) (ha : s.alive d = true) (hi : i < 32)
    (h : opResEntry d i value s = s.putCell d (Fd.RES_ENTRY.W.key i) (value &&& 0x8703FFFF#32)) :
    Completes (.resEntryWrite d i value) s fun t =>
        t.cell d (Fd.RES_ENTRY.W.key i) = value &&& 0x8703FFFF#32 ∧ s.OnlyKeys t d (· = Fd.RES_ENTRY.W.key i) :=
  ⟨_, (exec_resEntryWrite hs ha hi).trans (congrArg _ h), State.cell_putCell_same _ _ _ _ (State.lt_length hsh ha),
    (State.OnlyKeys.refl s d _).putCell _ _ rfl⟩

/-- What a write of RES_ENTRY in CONFIG comes to (02 R60). -/
theorem opResEntry_config {i : Nat} {value : Word} (hl : s.locked d 0x10 = false) (hd : s.device = .config) :
    opResEntry d i value s = if bitOf value.toNat 31 = true ∧ (bitsOf value.toNat 17 16 ∈ [0, 3] ∨
        sharesFit (s.reservations (d, i, value &&& 0x8703FFFF#32)) d (bitsOf value.toNat 26 24) = false)
      then s.sticky d Sk.FAB.RES_REJECTED else s.putCell d (Fd.RES_ENTRY.W.key i) (value &&& 0x8703FFFF#32) := by
  obtain ⟨hvalid, hshare, hdest⟩ := resEntry_mask value
  unfold opResEntry
  dsimp only
  rw [hvalid, hshare, hdest, hl, hd]
  cases bitOf value.toNat 31 <;> simp [or_assoc]

/-- Settles O15: admission (`fabricSubmission_admits`, `State.refuseA_spec`), what a tollgate grants (`slotClass_spec`,
`Gate.first_notAfter`, `State.gateSlot_spec`), what arrives (`fabricTransfer_badA` and those after it), links (`State.opLinkDown_spec`) and
reservations (`opResEntry_config`). -/
theorem fabric : Obligations.fabric := by
  refine ⟨fun s d port source dst i hsh hs hh ha hi hb hlt => fabricSubmission_admits hsh hs hh ha hi hb hlt,
    fun s d port source dst cls hs hh ha hc => exec_fabricSubmission_BC hs hh ha hc,
    fun s d port source dst hsh hs hh ha h => ?_, fun slot15 l x h => slotClass_spec h,
    fun g now l x hl h => ⟨Gate.mem_of_first h, Gate.first_notAfter hl h⟩,
    fun s d e l x hsh hd hg hport hp hbd hbe hup hx => State.gateSlot_spec hsh hd hg hport hp hbd hbe hup hx,
    fun s d x hsh hs hh ho hx => ⟨fabricTransfer_badA hsh hs hh ho hx,
      fun slot w v hwhat hslot hw hsp => fabricTransfer_setPoint hsh hs hh ho hx hwhat hslot hw hsp,
      fun a n hwhat hc hr ha hn => fabricTransfer_resent hsh hs hh ho hx hwhat hc hr ha hn,
      fun a l hc hr ha hl => fabricTransfer_badBC hsh hs hh ho hx hc hr ha hl⟩,
    fun s d i hsh hs hh ho hm => fabricTransfer_mirror hsh hs hh ho hm,
    fun s d l e hsh hs hh ha hp he => linkDown_spec hsh hs hh ha hp he,
    fun s d i value hsh hs ha hi hl => ⟨fun hd => ?_, fun hd h => ?_, fun hd h31 h => ?_⟩⟩
  · refine ⟨_, exec_fabricSubmission hs hh ha, ?_⟩
    have hl := State.lt_length hsh ha
    rw [State.submitA_refused h]
    obtain ⟨hstuck, hcount, hnone, hsome, hframe⟩ := State.refuseA_spec hl (s.resOf d port source) fun i hi =>
      List.mem_range.1 (List.mem_of_find?_eq_some hi)
    exact ⟨hstuck, hcount, hnone, hsome, hframe⟩
  · refine resEntryWrite_rejected hsh hs ha hi ?_
    unfold opResEntry
    simp [hl, hd]
  · refine resEntryWrite_taken hsh hs ha hi ((opResEntry_config hl hd).trans (if_neg ?_))
    rintro ⟨h31, hbad⟩
    rcases h with h | ⟨hshare, hfit⟩
    · simp [h31] at h
    · rcases hbad with hbad | hbad
      · simp only [List.mem_cons, List.not_mem_nil, or_false] at hshare hbad
        omega
      · simp [hfit] at hbad
  · exact resEntryWrite_rejected hsh hs ha hi ((opResEntry_config hl hd).trans (if_pos ⟨h31, h⟩))

end Sys2Proof.Machine

end

section
open Sys2Proof Sys2Proof.Machine

/-! ## Reads of the register port, and addresses that name nothing -/

namespace Sys2Proof.Machine
variable {s t : State} {d : Nat} {addr data : Word}

/-! ### Bits of the summary page -/

/-- A summary bit set shows in SUM_STICKY and its count alone. -/
theorem State.sumCell_sumStick_ne {b off : Nat} (h : off ≠ 0xC) (h' : off ≠ 0x10) : (s.sumStick b).sumCell off = s.sumCell off := by
  unfold State.sumStick
  dsimp only
  split
  · rfl
  · show ((s.putSum 0xC _).putSum 0x10 _).sumCell off = _
    rw [State.sumCell_putSum, if_neg h', State.sumCell_putSum, if_neg h]

/-! ### Addresses that name nothing (02 R43) -/

theorem State.spot_beyond {a : Nat} (h : 0x1000000 + 0x100000 * s.part.dies ≤ a) : s.spot a = .nothing := by
  unfold State.spot
  split
  · rfl
  · rw [if_neg (by omega), if_neg (by omega), if_neg]
    rw [Nat.not_lt, Nat.le_div_iff_mul_le (by decide)]
    omega

/-- What a part of one die answers at: the summary page and die window 0. -/
theorem State.spot_one_die {a : Nat} (h1 : s.part.dies = 1) (h : s.spot a ≠ .nothing) : a < 0x1000 ∨ 0x1000000 ≤ a ∧ a < 0x1100000 := by
  by_contra hc
  rw [not_or, not_and_or, not_lt, not_le, not_lt] at hc
  obtain ⟨hlow, hout | hout⟩ := hc
  · refine h ?_
    unfold State.spot
    split
    · rfl
    · exact if_neg (not_lt.2 hlow)
  · exact h (State.spot_beyond (by omega))

/-- An access to no place is answered, as no die holds it. -/
theorem State.access_nothing (hl : s.device.live = true) (hh : (s.die 0).hold = false) : s.access .nothing = .done := by
  unfold State.access
  rw [if_neg (by simp [hl, hh])]
  rfl

/-- A read at no place gives 0 and sets ADDR_ERR. -/
theorem agentRead_nothing (hl : s.device.live = true) (hh : (s.die 0).hold = false) (hx : s.spot addr.toNat = .nothing) :
    agentRead addr s = (3, 0, s.sumStick 0) := by
  have hx' : (s.sumStick 0).spot addr.toNat = .nothing := (State.spot_congr (State.sumStick_part ..) _).trans hx
  have hread : readAt addr (s.sumStick 0) = (0, s.sumStick 0) := by
    unfold readAt
    dsimp only
    rw [hx']
    rfl
  unfold agentRead
  dsimp only
  rw [hx, State.access_nothing hl hh]
  change (3, (readAt addr (s.sumStick 0)).1, (readAt addr (s.sumStick 0)).2) = _
  rw [hread]

theorem writeAt_nothing {auth : Bool} (hx : s.spot addr.toNat = .nothing) : writeAt authDepth auth addr data s = .next s := by
  unfold authDepth writeAt
  rw [hx]
  rfl

/-- A write at no place sets ADDR_ERR. -/
theorem agentWrite_nothing {auth : Bool} (hl : s.device.live = true) (hh : (s.die 0).hold = false) (hx : s.spot addr.toNat = .nothing) :
    agentWrite auth addr data s = (3, .next (s.sumStick 0)) := by
  have hx' : (s.sumStick 0).spot addr.toNat = .nothing := (State.spot_congr (State.sumStick_part ..) _).trans hx
  unfold agentWrite throughAgent State.writeStatus
  dsimp only
  rw [hx, State.access_nothing hl hh]
  exact congrArg (Prod.mk 3) (writeAt_nothing hx')

theorem exec_registerWrite_nothing (hs : s.sane = true) (hx : s.spot addr.toNat = .nothing) :
    exec (.registerWrite addr data) s = .next s := by
  change (if s.maySend addr data then opRegisterWrite addr data s else s.spoilt) = _
  rw [if_pos (State.maySend_of_sane hs)]
  unfold opRegisterWrite
  rw [hx, show Spot.nothing.die = none from rfl]
  dsimp only
  rw [writeAt_nothing hx, ite_self]

/-- ADDR_ERR leaves all but the summary page. -/
theorem State.addrErr_spec (s : State) : let t := s.sumStick 0
    bitOf (t.sumCell 0xC).toNat 0 = true ∧ t.dies = s.dies ∧ t.device = s.device ∧ t.pins = s.pins ∧ t.td0 = s.td0 ∧
      t.pending = s.pending ∧ ∀ off, off ≠ 0xC → off ≠ 0x10 → t.sumCell off = s.sumCell off :=
  ⟨State.bitOf_sumStick (by decide), State.sumStick_dies .., State.sumStick_device .., State.sumStick_pins .., State.sumStick_td0 ..,
    State.sumStick_pending .., fun _ h h' => State.sumCell_sumStick_ne h h'⟩

/-! ### READ_WORD and REG_TIMEOUT, by how the access is answered -/

theorem exec_readWord (hs : s.sane = true) (hl : s.device.live = true) (hh : (s.die 0).hold = false) (h4 : addr.toNat % 4 = 0) :
    exec (.readWord addr) s =
      .next ((agentRead addr s).2.2.answer (agentRead addr s).2.1 (if (agentRead addr s).1 = 1 then 0xA else 5)) := by
  change s.sanely (.next (opReadWord addr s)) = _
  unfold State.sanely opReadWord
  rw [if_pos hs, if_neg (by simp [hl, hh]), if_neg (by simp [h4])]

theorem exec_regTimeout_read (hs : s.sane = true) (hl : s.device.live = true) (hh : (s.die 0).hold = false)
    (h4 : addr.toNat % 4 = 0) :
    exec (.regTimeout false addr data) s = .next (((agentRead addr s).2.2.sumStick 1).answer 0 0xA) := by
  change (if s.maySend addr data then opRegTimeout false addr data s else s.spoilt) = _
  rw [if_pos (State.maySend_of_sane hs)]
  unfold opRegTimeout
  rw [if_neg (by simp [hl, hh, h4]), if_neg (by decide)]

/-- An access that is not carried out in time is a read of nothing that sets REG_TIMEOUT. -/
theorem agentRead_late_lost (h : s.access (s.spot addr.toNat) = .late ∨ s.access (s.spot addr.toNat) = .lost) :
    agentRead addr s = (1, 0, s.sumStick 1) := by
  unfold agentRead
  dsimp only
  rcases h with h | h <;> rw [h]

/-- What stands in a memory does not depend on the tick lent for it. -/
theorem State.cell_lend (e : Nat) (l : List Nat) (key : Nat) : (s.lend e l).cell d key = s.cell d key := by
  unfold State.lend
  dsimp only
  split
  · exact State.cell_onDie _ _ _ _ _ fun _ => rfl
  · rfl

theorem State.show_lendSpot (x : Spot) : (s.lendSpot x).show_ x = s.show_ x := by
  cases x with
  | program e key => exact State.cell_lend ..
  | data e key => exact State.cell_lend ..
  | entry e key => exact State.cell_lend ..
  | _ => rfl

theorem State.gated_lend (e : Nat) (l : List Nat) : ((s.lend e l).die d).gated = (s.die d).gated := by
  unfold State.lend State.onBist
  dsimp only
  split
  · rw [State.die_onDie]
    split <;> rfl
  · rfl

theorem State.openSpot_lendSpot (x : Spot) : (s.lendSpot x).openSpot x = s.openSpot x := by
  cases x with
  | program e key => exact State.gated_lend ..
  | data e key => exact State.gated_lend ..
  | entry e key => exact State.gated_lend ..
  | _ => rfl

/-- A read of a place whose content stands, other than the recorder's window, has no effect. -/
theorem readAt_show (ho : s.openSpot (s.spot addr.toNat) = false)
    (hw : ∀ d off, s.spot addr.toNat = .page d 15 off → s.isHead = false ∨ off < 0x400 ∨ 0x440 ≤ off) :
    readAt addr s = (s.show_ (s.spot addr.toNat), s) := by
  unfold readAt
  generalize s.spot addr.toNat = x at ho hw ⊢
  dsimp only
  rw [ho, if_neg Bool.false_ne_true]
  split
  · next d off =>
    have := hw d off rfl
    refine if_neg ?_
    simp only [Bool.and_eq_true, decide_eq_true_eq]
    rintro ⟨⟨h1, h2⟩, h3⟩
    rcases this with h | h | h
    · simp [h] at h1
    · omega
    · omega
  · rfl

/-- A read that is carried out in time. -/
theorem agentRead_done (hx : s.spot addr.toNat ≠ .nothing) (h : s.access (s.spot addr.toNat) = .done) :
    agentRead addr s = (0, readAt addr (s.lendSpot (s.spot addr.toNat))) := by
  have hb : (s.spot addr.toNat == .nothing) = false := beq_eq_false_iff_ne.2 hx
  have hn : s.addrErr (s.spot addr.toNat) = s := by
    unfold State.addrErr State.when
    rw [hb]
    rfl
  unfold agentRead
  dsimp only
  rw [h]
  dsimp only
  rw [hn, hb]
  rfl

/-! ### What a read leaves as it is -/

/-- From s to t only the dies, the summary page and the model's two counters may differ. -/
def State.Read (s t : State) : Prop := t = { s with dies := t.dies, sum := t.sum, sumPend := t.sumPend, free := t.free }

theorem State.Read.trans {u : State} (h : s.Read t) (k : t.Read u) : s.Read u := by
  unfold State.Read at *
  rw [k, h]

theorem State.Read.eqs (h : s.Read t) : t.pins = s.pins ∧ t.device = s.device ∧ t.pending = s.pending := by
  rw [show t = _ from h]
  exact ⟨rfl, rfl, rfl⟩

theorem State.Read.of_onlyKeys {P : Nat → Prop} (h : s.OnlyKeys t d P) : s.Read t := by
  unfold State.Read
  rw [h.1]

theorem State.Read.sumStick (s : State) (b : Nat) : s.Read (s.sumStick b) := by
  unfold State.sumStick
  dsimp only
  split <;> rfl

theorem State.Read.lendSpot (s : State) (x : Spot) : s.Read (s.lendSpot x) := by
  obtain h | ⟨e, f, h⟩ := s.lendSpot_eq x <;> rw [h] <;> rfl

/-- A line of DRAM read leaves its outcome on page REC. -/
theorem State.OnlyKeys.lineRead {line : Nat} {first second : Bool} {P : Nat → Prop} (h : s.OnlyKeys t d P)
    (hP : ∀ key, pageKeys 15 key → P key) : s.OnlyKeys (t.lineRead d line first second).2 d P := by
  unfold State.lineRead
  dsimp only
  split
  · exact h
  · split
    · exact h.wr _ _ _ (hP _ rfl)
    · refine .stick (.wr (.wr h _ _ _ ?_) _ _ _ ?_) _ _ ?_ ?_
      all_goals exact hP _ rfl

theorem State.OnlyKeys.winStep {i : Nat} (h : s.OnlyKeys t d (pageKeys 15)) : s.OnlyKeys (t.winStep d i) d (pageKeys 15) :=
  h.when _ _ (h.wr _ _ _ rfl)

theorem opWinRead_frame (s : State) (d i : Nat) (first second : Bool) : s.OnlyKeys (opWinRead d i first second s).2 d (pageKeys 15) := by
  have h := State.OnlyKeys.refl s d (pageKeys 15)
  unfold opWinRead
  dsimp only
  split
  · exact h.stick _ _ rfl rfl
  · split
    · exact h.winStep
    · have hline := h.lineRead (line := lineOf (s.winAddr d i)) (first := first) (second := second) fun _ hk => hk
      split
      · exact hline.winStep
      · exact hline.winStep.trans ⟨rfl, rfl, fun _ _ => rfl, fun _ _ => rfl, rfl⟩

theorem State.Read.readAt (s : State) (addr : Word) : s.Read (readAt addr s).2 := by
  unfold Machine.readAt
  dsimp only
  split
  · rfl
  · split
    · split
      · exact .of_onlyKeys (opWinRead_frame ..)
      · rfl
    · rfl

theorem State.Read.agentRead (s : State) (addr : Word) : s.Read (agentRead addr s).2.2 := by
  unfold Machine.agentRead
  dsimp only
  split
  · refine .trans (.trans (t := s.addrErr (s.spot addr.toNat)) ?_ (.lendSpot ..)) (.readAt ..)
    unfold State.addrErr State.when
    split
    · exact .sumStick ..
    · rfl
  · rfl
  · exact .sumStick ..

/-! ### Frames that are broken off or ill-formed (02 R45) -/

/-- FRAME_ERR leaves all but the summary page. -/
theorem State.frameErr_spec (s : State) : let t := s.frameErr
    bitOf (t.sumCell 0xC).toNat 2 = true ∧ t.dies = s.dies ∧ t.port = s.port ∧ t.pins = s.pins ∧ t.device = s.device ∧
      ∀ off, off ≠ 0xC → off ≠ 0x10 → t.sumCell off = s.sumCell off :=
  ⟨State.bitOf_sumStick (by decide), State.sumStick_dies .., State.sumStick_port .., State.sumStick_pins .., State.sumStick_device ..,
    fun _ h h' => State.sumCell_sumStick_ne h h'⟩

/-- FRAME_ERR leaves what the port last sent. -/
theorem State.unanswered_frameErr (s : State) : s.unanswered s.frameErr = s.frameErr := by
  obtain ⟨-, -, hport, -⟩ := s.frameErr_spec
  unfold State.unanswered
  rw [← hport]

theorem opReadWord_unaligned (hl : s.device.live = true) (hh : (s.die 0).hold = false) (h4 : addr.toNat % 4 ≠ 0) :
    opReadWord addr s = s.frameErr := by
  unfold opReadWord
  rw [if_neg (by simp [hl, hh]), if_pos (by simpa using h4)]

theorem opWriteWord_unaligned (hl : s.device.live = true) (hh : (s.die 0).hold = false) (h4 : addr.toNat % 4 ≠ 0) :
    opWriteWord addr data s = .next s.frameErr := by
  unfold opWriteWord
  rw [if_neg (by simp [hl, hh]), if_pos (by simpa using h4)]

variable {cmd : Byte} {ph : FramePhase}

theorem exec_frameAbort (hs : s.sane = true) : exec (.frameAbort cmd addr data ph) s = opFrameAbort cmd addr data ph s :=
  if_pos (State.maySend_of_sane hs)

theorem opFrameAbort_unknown (hl : s.device.live = true) (hh : (s.die 0).hold = false) (h1 : cmd ≠ 0x0B) (h2 : cmd ≠ 0x02) :
    opFrameAbort cmd addr data ph s = .next s.frameErr := by
  unfold opFrameAbort
  rw [if_neg (by simp [hl, hh]), if_pos (by simpa using And.intro h1 h2)]

theorem opFrameAbort_early (hl : s.device.live = true) (hh : (s.die 0).hold = false) (hc : cmd = 0x0B ∨ cmd = 0x02) :
    opFrameAbort cmd addr data .beforeTurnaround s = .next s := by
  unfold opFrameAbort
  rw [if_neg (by simp [hl, hh]), if_neg (by rcases hc with rfl | rfl <;> decide)]

theorem opFrameAbort_read (hl : s.device.live = true) (hh : (s.die 0).hold = false) :
    opFrameAbort 0x0B addr data .afterTurnaround s = .next (s.unanswered (opReadWord addr s)) := by
  unfold opFrameAbort
  rw [if_neg (by simp [hl, hh])]
  rfl

theorem opFrameAbort_write (hl : s.device.live = true) (hh : (s.die 0).hold = false) :
    opFrameAbort 0x02 addr data .afterTurnaround s = Res.bind (opWriteWord addr data s) fun t => .next (s.unanswered t) := by
  unfold opFrameAbort
  rw [if_neg (by simp [hl, hh])]
  rfl

/-- A frame at an address that is no multiple of 4, carried out or broken off late, sets FRAME_ERR. -/
theorem opFrameAbort_unaligned (hl : s.device.live = true) (hh : (s.die 0).hold = false) (h4 : addr.toNat % 4 ≠ 0) :
    opFrameAbort cmd addr data .afterTurnaround s = .next s.frameErr := by
  by_cases h1 : cmd = 0x0B
  · rw [h1, opFrameAbort_read hl hh, opReadWord_unaligned hl hh h4, State.unanswered_frameErr]
  · by_cases h2 : cmd = 0x02
    · rw [h2, opFrameAbort_write hl hh, opWriteWord_unaligned hl hh h4, Res.bind_next, State.unanswered_frameErr]
    · exact opFrameAbort_unknown hl hh h1 h2

/-- The frames that set FRAME_ERR. -/
theorem exec_illFormed {c : Instr} (hs : s.sane = true) (hl : s.device.live = true) (hh : (s.die 0).hold = false)
    (hc : (addr.toNat % 4 ≠ 0 ∧
        (c = .readWord addr ∨ c = .writeWord addr data ∨ ∃ cmd, c = .frameAbort cmd addr data .afterTurnaround)) ∨
      (∃ cmd ph, c = .frameAbort cmd addr data ph ∧ cmd ≠ 0x0B ∧ cmd ≠ 0x02)) : exec c s = .next s.frameErr := by
  rcases hc with ⟨h4, rfl | rfl | ⟨cmd, rfl⟩⟩ | ⟨cmd, ph, rfl, h1, h2⟩
  · exact (if_pos hs).trans (congrArg _ (opReadWord_unaligned hl hh h4))
  · exact (if_pos (State.maySend_of_sane hs)).trans (opWriteWord_unaligned hl hh h4)
  · exact (exec_frameAbort hs).trans (opFrameAbort_unaligned hl hh h4)
  · exact (exec_frameAbort hs).trans (opFrameAbort_unknown hl hh h1 h2)

end Sys2Proof.Machine

/-- Settles O11: a frame at no place is answered at once (`agentRead_nothing`, `agentWrite_nothing`) and does no more than set
ADDR_ERR, and no die a part does not have has a place (`State.spot_beyond`). -/
theorem unmappedAddresses : Obligations.unmapped_addresses := by
  refine ⟨fun s addr data hs hl hh h4 hx => ⟨?_, ?_, exec_registerWrite_nothing hs hx⟩, fun s a h => State.spot_beyond h,
    fun s a h1 h => State.spot_one_die h1 h⟩
  · have h := exec_readWord hs hl hh h4
    rw [agentRead_nothing hl hh hx] at h
    exact ⟨_, h, rfl, s.addrErr_spec⟩
  · have h := exec_writeWord (data := data) hs hl hh h4
    rw [agentWrite_nothing hl hh hx] at h
    exact ⟨_, h, s.addrErr_spec⟩

/-- Settles O12, frame by frame: one that is carried out reads what the map shows (`readAt_show`), one that is not is a time-out
(`agentRead_late_lost`), and an ill-formed one sets FRAME_ERR (`exec_illFormed`). -/
theorem readFrames : Obligations.read_frames := by
  refine ⟨fun s addr hs hl hh h4 hacc ho hx hw => ?_, fun s addr hs hl hh h4 hacc => ?_, fun s addr data c hs hl hh hc => ?_,
    fun s addr data hs hl hh => ⟨fun cmd hc => ?_, ?_, ?_⟩, fun s addr data hs hl hh h4 => ?_⟩
  · have hspot := State.spot_congr (State.part_lendSpot (s := s) (s.spot addr.toNat)) addr.toNat
    have hread := readAt_show (s := s.lendSpot (s.spot addr.toNat)) (addr := addr)
      (by rw [hspot, State.openSpot_lendSpot]; exact ho)
      (by rw [hspot]; exact fun d off h => by simpa [State.isHead, State.part_lendSpot] using hw d off h)
    rw [hspot, State.show_lendSpot] at hread
    rw [exec_readWord hs hl hh h4, agentRead_done hx hacc, hread]
    rfl
  · refine ⟨_, exec_readWord hs hl hh h4, ?_⟩
    rw [agentRead_late_lost hacc]
    exact ⟨rfl, State.bitOf_sumStick (by decide), State.sumStick_dies .., fun _ h h' => State.sumCell_sumStick_ne h h'⟩
  · exact ⟨_, exec_illFormed hs hl hh hc, s.frameErr_spec⟩
  · exact (exec_frameAbort hs).trans (opFrameAbort_early hl hh hc)
  · exact ⟨_, if_pos hs, (exec_frameAbort hs).trans (opFrameAbort_read hl hh)⟩
  · obtain ⟨u, hu, -⟩ := exec_answers (.writeWord addr data) hs
    have hw : opWriteWord addr data s = .next u := (if_pos (State.maySend_of_sane hs)).symm.trans hu
    refine ⟨u, hu, (exec_frameAbort hs).trans ((opFrameAbort_write hl hh).trans ?_)⟩
    rw [hw, Res.bind_next]
    rfl
  · refine ⟨_, exec_regTimeout_read hs hl hh h4, rfl, State.bitOf_sumStick (by decide), ?_⟩
    exact ((State.Read.agentRead s addr).trans (.sumStick _ 1)).eqs

end

section
open Sys2Proof Sys2Proof.Machine

/-! ## The edge planner: a plan from its start to its members -/

namespace Sys2Proof.Machine
variable {s t u : State} {d : Nat} {P : Nat → Prop}

/-! ### What a frame says of fields and sticky bits -/

theorem State.OnlyKeys.cell_eq {key : Nat} (h : s.OnlyKeys t d P) (hk : ¬P key) : t.cell d key = s.cell d key := h.2.2.2.1 key hk

theorem State.OnlyKeys.rd_eq {f : Fld} {i : Nat} (h : s.OnlyKeys t d P) (hk : ¬P (f.key i)) : t.rd d f i = s.rd d f i := by
  unfold State.rd
  rw [h.cell_eq hk]

theorem State.OnlyKeys.length_eq (h : s.OnlyKeys t d P) : t.dies.length = s.dies.length := h.2.1

theorem State.OnlyKeys.td0_eq (h : s.OnlyKeys t d P) : t.td0 = s.td0 := by rw [h.1]

/-! ### A plan is made (08 R206-R229) -/

theorem State.OnlyKeys.onEp {f : Ep → Ep} (h : s.OnlyKeys t d P) : s.OnlyKeys (t.onEp d f) d P :=
  h.onDie _ (fun _ => rfl) fun _ => rfl

theorem State.ep_onEp {f : Ep → Ep} (hd : d < s.dies.length) : ((s.onEp d f).die d).ep = f (s.die d).ep := by
  unfold State.onEp
  rw [State.die_onDie_same _ _ _ hd]

/-- The registers that a plan writes as it is made: its stickies, the entry in force, keys and voltages of its cells, and the outcome of
its reads of the pattern library. -/
def planKeys (key : Nat) : Prop :=
  stickyKeys 6 key ∨ key = Fd.EP_STATUS.W.key 0 ∨ (∃ k, k < 128 ∧ key = Fd.CELL_V.W.key k) ∨ pageKeys 15 key

theorem planKeys_pages {key : Nat} (h : planKeys key) : pageKeys 6 key ∨ pageKeys 15 key := by
  rcases h with (rfl | rfl) | rfl | ⟨k, hk, rfl⟩ | h
  · exact .inl rfl
  · exact .inl rfl
  · exact .inl rfl
  · refine .inl ?_
    show (0x6 * 0x1000 + 0xA00 + 0x4 * k) / 0x1000 = 6
    omega
  · exact .inr h

theorem planKeys_cellV {f : Fld} {k : Nat} (hp : f.page = 6) (hb : f.base = 0xA00) (hs : f.stride = 4) (hk : k < 128) :
    planKeys (f.key k) := by
  refine .inr (.inr (.inl ⟨k, hk, ?_⟩))
  unfold Fld.key
  rw [hp, hb, hs]

/-- The control registers of the planner are none of them. -/
theorem not_planKeys {key : Nat} (h : 0x6020 ≤ key) (h' : key < 0x6A00) : ¬planKeys key := by
  rintro ((rfl | rfl) | rfl | ⟨k, hk, rfl⟩ | h15)
  · revert h; decide
  · revert h; decide
  · revert h; decide
  · change 0x6 * 0x1000 + 0xA00 + 0x4 * k < 0x6A00 at h'
    omega
  · unfold pageKeys at h15
    omega

/-- From s to t a plan is in the making: the pattern in force may change, and what the planner holds beside it stands. -/
structure State.Planning (s : State) (d : Nat) (t : State) : Prop where
  frame : s.OnlyKeys t d planKeys
  ep : (t.die d).ep = { (s.die d).ep with pat := (t.die d).ep.pat }

namespace State.Planning

theorem refl (s : State) (d : Nat) : s.Planning d s := ⟨.refl .., rfl⟩

theorem ite {c : Prop} [Decidable c] (h : s.Planning d t) (k : s.Planning d u) : s.Planning d (if c then t else u) := by
  split
  · exact h
  · exact k

theorem wr {f : Fld} {i v : Nat} (h : s.Planning d t) (hk : planKeys (f.key i)) : s.Planning d (t.wr d f i v) :=
  ⟨h.frame.wr _ _ _ hk, by rw [State.wr_ep']; exact h.ep⟩

theorem stick {b : Nat} (h : s.Planning d t) : s.Planning d (t.stick d 6 b) :=
  ⟨h.frame.stick _ _ (.inl (.inl rfl)) (.inl (.inr rfl)), by rw [State.stick_ep']; exact h.ep⟩

theorem takePattern {p : Option (Int × List (Int × Int))} (hd : d < s.dies.length) (h : s.Planning d t) :
    s.Planning d (t.onEp d fun x => { x with pat := p }) := by
  refine ⟨h.frame.onEp, ?_⟩
  rw [State.ep_onEp (h.frame.length_eq.symm ▸ hd), h.ep]

theorem lineRead {line : Nat} {first second : Bool} (h : s.Planning d t) : s.Planning d (t.lineRead d line first second).2 := by
  refine ⟨h.frame.lineRead fun _ hk => .inr (.inr (.inr hk)), ?_⟩
  have hep : ((t.lineRead d line first second).2.die d).ep = (t.die d).ep := by
    unfold State.lineRead
    dsimp only
    split
    · rfl
    · split
      · simp
      · simp
  rw [hep]
  exact h.ep

theorem pattern {e : Nat} {fails : List (Nat × Bool)} (h : s.Planning d t) : s.Planning d (t.pattern d e fails).2 := by
  unfold State.pattern
  extract_lets +onlyGivenNames _ _ lines r
  have hr : s.Planning d r.2 := by
    unfold r
    generalize true = ok
    induction lines generalizing t ok with
    | nil => exact h
    | cons l lines ih => exact ih h.lineRead _
  dsimp only
  split <;> exact hr

theorem chooseEntry {sq sh a : Int} {n : Nat} {fails : List (Nat × Bool)} (hd : d < s.dies.length) (h : s.Planning d t) :
    s.Planning d (t.chooseEntry d sq sh a n fails) := by
  unfold State.chooseEntry
  extract_lets +onlyGivenNames _ cand put
  have hput : ∀ v e p, s.Planning d v → s.Planning d (put v e p) := fun _ _ _ h =>
    have hk : planKeys (Fd.EP_STATUS.W.key 0) := .inr (.inl rfl)
    takePattern hd (wr (wr h hk) hk)
  clear_value put cand
  cases cand with
  | none => exact h
  | some e =>
    have hp : s.Planning d (t.pattern d e fails).2 := h.pattern
    dsimp only
    generalize t.pattern d e fails = p at hp ⊢
    refine .ite h ?_
    split
    · exact stick hp
    · exact hput _ _ _ hp
    · exact .ite (hput _ _ _ hp) hp

/-- The plan takes its place as the one in progress. -/
theorem starts {f : Ep → Ep} {x : Running} (hd : d < s.dies.length) (h : s.Planning d t) (hu : u = t.onEp d f)
    (hf : ∀ e, f e = { e with cells := (f e).cells, running := some x }) :
    (u.die d).ep.asked = (s.die d).ep.asked ∧ (u.die d).ep.waiting = (s.die d).ep.waiting ∧ (u.die d).ep.ready = (s.die d).ep.ready ∧
    (u.die d).ep.running = some x ∧ s.OnlyKeys u d planKeys := by
  have hep := State.ep_onEp (f := f) (h.frame.length_eq.symm ▸ hd)
  rw [hf, h.ep] at hep
  rw [hu, hep]
  exact ⟨rfl, rfl, rfl, rfl, h.frame.onEp⟩

end State.Planning

/-- The cells of a plan are cells of the planner. -/
theorem State.lt_of_mem_planCells {c : CellRun} (h : c ∈ s.planCells d) : c.k < 128 := by
  unfold State.planCells at h
  obtain ⟨k, hk, rfl⟩ := List.mem_map.1 h
  exact List.mem_range.1 (List.mem_filter.1 hk).1

/-- What a plan made at its start is known by. -/
theorem State.plan_spec {q : PReq} {fails : List (Nat × Bool)} (hd : d < s.dies.length) :
    let t := s.plan d q fails
    (t.die d).ep.asked = (s.die d).ep.asked ∧ (t.die d).ep.waiting = (s.die d).ep.waiting ∧ (t.die d).ep.ready = (s.die d).ep.ready ∧
    (∃ r, (t.die d).ep.running = some r ∧ r.a = q.c + (s.rd d Fd.EP_WIN.W : Int) ∧
      r.aEnd = q.next + (s.rd d Fd.EP_WIN.W : Int) ∧ r.startAt = s.td0 ∧ r.nAct = (s.planCells d).length ∧
      r.group = s.cell d (Fd.EP_GROUP.W.key 0) ∧ r.dom = s.rd d Fd.EP_CFG.DOMAIN ∧ r.lead = s.rd d Fd.EP_TIMING.LEAD) ∧
    s.OnlyKeys t d planKeys := by
  unfold State.plan
  extract_lets +onlyGivenNames win a e dom dwell ref ph ne pts r cells n by_ iphNeg thr refClip x nls sh s2 car out outs s3
  have hout : s.Planning d out.2.2 := by
    unfold out
    split
    · exact .refl ..
    · split
      · exact .refl ..
      · have h2 : s.Planning d s2 := (State.Planning.refl s d).chooseEntry hd
        split
        · exact h2
        · exact h2
      · exact .refl ..
  have h3 : s.Planning d s3 := State.each_keeps_mem hout fun v c hc hv =>
    have hk := State.lt_of_mem_planCells hc
    (hv.wr (planKeys_cellV rfl rfl rfl hk)).wr (planKeys_cellV rfl rfl rfl hk)
  clear_value s3 outs out
  extract_lets t
  obtain ⟨hasked, hwaiting, hready, hrunning, hframe⟩ := h3.starts (u := t) hd rfl fun _ => rfl
  refine ⟨hasked, hwaiting, hready, ⟨_, hrunning, rfl, rfl, h3.frame.td0_eq, rfl, h3.frame.cell_eq (not_planKeys (by decide) (by decide)), rfl,
    h3.frame.rd_eq (not_planKeys (by decide) (by decide))⟩, hframe⟩

/-! ### PLAN_START (08 R204, R206, R212) -/

theorem not_stickyKeys {page key : Nat} (h : key ≠ hdrKey page 0xC) (h' : key ≠ hdrKey page 0x10) : ¬stickyKeys page key :=
  not_or.2 ⟨h, h'⟩

theorem State.stick_frame' (s : State) (d page b : Nat) : s.OnlyKeys (s.stick d page b) d (stickyKeys page) :=
  (State.OnlyKeys.refl ..).stick _ _ (.inl rfl) (.inr rfl)

/-- The role is judged: where it is bad CFG_ERR is set, and that is all. -/
theorem State.judgeRole_spec (hd : d < s.dies.length) :
    (s.badRole d = true → (s.judgeRole d).stuckAt d Sk.EP.CFG_ERR.page Sk.EP.CFG_ERR.bit = true) ∧
    ((s.judgeRole d).die d).ep = (s.die d).ep ∧ s.OnlyKeys (s.judgeRole d) d (stickyKeys 6) := by
  unfold State.judgeRole State.when
  split
  · exact ⟨fun _ => State.stuckAt_stick_same _ _ _ _ hd (by decide), State.stick_ep' .., s.stick_frame' ..⟩
  · next h => exact ⟨fun hb => absurd hb h, rfl, .refl ..⟩

theorem State.takeMembers_spec (s : State) (d : Nat) :
    ((s.takeMembers d).die d).ep = (s.die d).ep ∧ s.OnlyKeys (s.takeMembers d) d (stickyKeys 6) := by
  unfold State.takeMembers State.when
  dsimp only
  split
  · exact ⟨State.stick_ep' .., s.stick_frame' ..⟩
  · exact ⟨rfl, .refl ..⟩

/-- The request leaves the queue as the plan start judges the role and takes its settings. -/
def State.takeAsked (s : State) (d : Nat) : State := ((s.judgeRole d).takeCfg d).onEp d fun e => { e with asked := none }

theorem State.cell_onEp {e key : Nat} {f : Ep → Ep} : (s.onEp d f).cell e key = s.cell e key := State.cell_onDie _ _ _ _ _ fun _ => rfl

theorem State.takeAsked_spec (hd : d < s.dies.length) :
    (s.badRole d = true → (s.takeAsked d).stuckAt d Sk.EP.CFG_ERR.page Sk.EP.CFG_ERR.bit = true) ∧
    (∃ c, ((s.takeAsked d).die d).ep = { (s.die d).ep with cfg := c, asked := none }) ∧
    s.OnlyKeys (s.takeAsked d) d (stickyKeys 6) := by
  obtain ⟨hstuck, hep, hframe⟩ := s.judgeRole_spec hd
  have hl : d < (s.judgeRole d).dies.length := hframe.length_eq.symm ▸ hd
  unfold State.takeAsked State.takeCfg
  generalize (s.judgeRole d).epWords d = c
  generalize s.judgeRole d = v at *
  refine ⟨fun hb => ?_, ⟨some c, ?_⟩, hframe.onEp.onEp⟩
  · unfold State.stuckAt
    rw [State.cell_onEp, State.cell_onEp]
    exact hstuck hb
  · rw [State.ep_onEp (hframe.onEp.length_eq.symm ▸ hd), State.ep_onEp hl, hep]

theorem State.epRole_eq (h : s.OnlyKeys t d (stickyKeys 6)) : t.epRole d = s.epRole d := by
  unfold State.epRole
  rw [h.rd_eq (not_stickyKeys (by decide) (by decide)), h.rd_eq (not_stickyKeys (by decide) (by decide))]

/-- How many cells a plan has depends on no sticky bit. -/
theorem State.length_planCells (h : s.OnlyKeys t d (stickyKeys 6)) : (t.planCells d).length = (s.planCells d).length := by
  have hmode : ∀ k, t.cellMode d k = s.cellMode d k := fun k => by
    have hk : ¬stickyKeys 6 (Fd.CELL_CFG.MODE.key k) := by
      unfold stickyKeys hdrKey Fld.key
      dsimp only
      omega
    unfold State.cellMode
    rw [h.rd_eq hk]
  have hin : ∀ k, t.cellIn d k = s.cellIn d k := fun k => by
    unfold State.cellIn
    rw [h.rd_eq (not_stickyKeys (by decide) (by decide))]
  unfold State.planCells
  simp only [List.length_map, hmode, hin]

theorem opPlanStart_eq {q : PReq} {fails : List (Nat × Bool)} (hq : (s.die d).ep.asked = some q)
    (hr : (s.die d).ep.running = none) (hm : s.membersIn d = true ∨ q.swapAt + 256 ≤ s.td0) :
    opPlanStart d fails s =
      if (s.takeAsked d).epRole d != 1 then s.takeAsked d else ((s.takeAsked d).takeMembers d).plan d q fails := by
  unfold opPlanStart
  rw [hq]
  refine if_neg ?_
  rw [hr]
  rcases hm with hm | hm <;> simp [hm]

/-- Without a request, with a plan in progress, or with members' data awaited, no plan starts. -/
theorem opPlanStart_idle {fails : List (Nat × Bool)} (h : (s.die d).ep.asked = none ∨ (s.die d).ep.running ≠ none ∨
    (s.membersIn d = false ∧ ∀ q, (s.die d).ep.asked = some q → s.td0 < q.swapAt + 256)) : opPlanStart d fails s = s := by
  unfold opPlanStart
  split
  · rfl
  · next q hq =>
    rw [hq] at h
    refine if_pos ?_
    rcases h with h | h | ⟨hm, hq⟩
    · cases h
    · simp [Option.isSome_iff_ne_none, h]
    · have := hq q rfl
      simp only [hm, Bool.false_or, Bool.or_eq_true, Bool.not_eq_true', decide_eq_false_iff_not]
      omega

theorem exec_planStart {fails : List (Nat × Bool)} (hs : s.sane = true) (hh : s.isHead = true) (ho : s.on d 6 = true) :
    exec (.planStart d fails) s = .next (opPlanStart d fails s) := by
  change s.guarded _ _ = _
  exact State.guarded_true _ _ _ hs (by simp [hh, ho])

theorem State.OnlyKeys.cell_ne {e key : Nat} (h : s.OnlyKeys t d P) (he : e ≠ d) : t.cell e key = s.cell e key := by
  have hp : t.part = s.part := by rw [h.1]
  unfold State.cell State.dflt
  rw [h.2.2.1 e he, hp]

/-- A planner's plan starts. -/
theorem planStart_planner {q : PReq} {fails : List (Nat × Bool)} (hd : d < s.dies.length) (hs : s.sane = true) (hh : s.isHead = true)
    (ho : s.on d 6 = true) (hq : (s.die d).ep.asked = some q) (hr : (s.die d).ep.running = none)
    (hm : s.membersIn d = true ∨ q.swapAt + 256 ≤ s.td0) (hrole : s.epRole d = 1) : Completes (.planStart d fails) s fun t =>
      (t.die d).ep.asked = none ∧ (t.die d).ep.waiting = (s.die d).ep.waiting ∧ (t.die d).ep.ready = (s.die d).ep.ready ∧
      (∃ r, (t.die d).ep.running = some r ∧ r.a = q.c + (s.rd d Fd.EP_WIN.W : Int) ∧
        r.aEnd = q.next + (s.rd d Fd.EP_WIN.W : Int) ∧ r.startAt = s.td0 ∧ r.nAct = (s.planCells d).length ∧
        r.group = s.cell d (Fd.EP_GROUP.W.key 0) ∧ r.dom = s.rd d Fd.EP_CFG.DOMAIN ∧ r.lead = s.rd d Fd.EP_TIMING.LEAD) ∧
      t.device = s.device ∧ t.td0 = s.td0 ∧ t.pins = s.pins ∧ t.pending = s.pending ∧
      ∀ e key, ¬(e = d ∧ (pageKeys 6 key ∨ pageKeys 15 key)) → t.cell e key = s.cell e key := by
  obtain ⟨-, ⟨c, hep⟩, hframe⟩ := s.takeAsked_spec hd
  obtain ⟨hep', hframe'⟩ := (s.takeAsked d).takeMembers_spec d
  have h := hframe.trans hframe'
  have he := (exec_planStart (fails := fails) hs hh ho).trans (congrArg _ (opPlanStart_eq hq hr hm))
  rw [if_neg (by rw [State.epRole_eq hframe, hrole]; decide)] at he
  obtain ⟨hasked, hwaiting, hready, ⟨r, hrun, ha, hend, hstart, hact, hgroup, hdom, hlead⟩, hplan⟩ :=
    State.plan_spec (q := q) (fails := fails) (h.length_eq.symm ▸ hd)
  have hall : s.OnlyKeys _ d planKeys := (h.mono fun _ hk => .inl hk).trans hplan
  rw [h.rd_eq (not_stickyKeys (by decide) (by decide))] at ha hend hdom hlead
  rw [h.cell_eq (not_stickyKeys (by decide) (by decide))] at hgroup
  rw [hep', hep] at hasked hwaiting hready
  refine ⟨_, he, hasked, hwaiting, hready,
    ⟨r, hrun, ha, hend, hstart.trans h.td0_eq, hact.trans (State.length_planCells h), hgroup, hdom, hlead⟩, ?_, ?_, ?_, ?_, fun e key hk => ?_⟩
  · rw [hall.1]
  · rw [hall.1]
  · rw [hall.1]
  · rw [hall.1]
  · by_cases hed : e = d
    · subst hed
      exact hall.cell_eq fun hp => hk ⟨rfl, planKeys_pages hp⟩
    · exact hall.cell_ne hed

/-- On a die that plans for no ring the request ends. -/
theorem planStart_other {q : PReq} {fails : List (Nat × Bool)} (hd : d < s.dies.length) (hs : s.sane = true) (hh : s.isHead = true)
    (ho : s.on d 6 = true) (hq : (s.die d).ep.asked = some q) (hr : (s.die d).ep.running = none)
    (hm : s.membersIn d = true ∨ q.swapAt + 256 ≤ s.td0) (hrole : s.epRole d ≠ 1) : Completes (.planStart d fails) s fun t =>
      (t.die d).ep.asked = none ∧ (t.die d).ep.running = none ∧
      (s.badRole d = true → t.stuckAt d Sk.EP.CFG_ERR.page Sk.EP.CFG_ERR.bit = true) ∧ s.OnlyKeys t d (stickyKeys 6) := by
  obtain ⟨hstuck, ⟨c, hep⟩, hframe⟩ := s.takeAsked_spec hd
  have he := (exec_planStart (fails := fails) hs hh ho).trans (congrArg _ (opPlanStart_eq hq hr hm))
  rw [if_pos (by rw [State.epRole_eq hframe]; simpa using hrole)] at he
  refine ⟨_, he, ?_, ?_, hstuck, hframe⟩
  · rw [hep]
  · rw [hep]
    exact hr

/-! ### PLAN_END (08 R213, R216, R218, R230, R236) -/

/-- The time a plan took, in cycles, as its register holds it (08 R213). -/
def State.planCycles (s : State) (x : Running) : Nat := min ((s.td0 - x.startAt) / 2) 65535

/-- The registers that show a plan's count, cells and time. -/
def State.endCounts (s : State) (d : Nat) (x : Running) : State :=
  let v := (s.wr d Fd.EP_TIME.LAST_CYC 0 (s.planCycles x)).wr d Fd.EP_TIME.MAX_CYC 0 (max (s.planCycles x) (s.rd d Fd.EP_TIME.MAX_CYC))
  (v.bumpMod d Fd.EP_COUNT.PLANS 0 1).wr d Fd.EP_STATUS.N_ACT 0 x.nAct

/-- A cell shows the state and the number of edges that the plan leaves it with. -/
def State.endCell (d : Nat) (x : Running) (s : State) (k : Nat) : State :=
  match x.cells.find? (fun c => c.k == k) with
  | some c => (s.wr d Fd.CELL_CFG.STATE k c.st).wr d Fd.CELL_CFG.EDGES k c.edges.length
  | none => s.wr d Fd.CELL_CFG.STATE k 0

/-- The limits that a plan met. -/
def State.endLimits (s : State) (d : Nat) (x : Running) : State :=
  let v := s.when x.clip (·.sticky d Sk.EP.LEVEL_CLIP)
  match x.cut with
  | some k => ((v.sticky d Sk.EP.EDGE_OVF).wr d Fd.EP_INFO.OVF_CELL 0 k).when x.cutFlt (·.pulse d 0x061)
  | none => v

/-- What shows at the end of a plan. -/
def State.endShows (s : State) (d : Nat) (x : Running) : State :=
  ((s.endCounts d x).each (List.range 128) (State.endCell d x)).endLimits d x

theorem opPlanEnd_eq {x : Running} (hx : (s.die d).ep.running = some x) :
    ∃ f : Ep → Ep, opPlanEnd d s = (s.endShows d x).onEp d f ∧ ∀ e, (f e).running = none ∧ (f e).asked = e.waiting ∧
      (f e).waiting = none ∧ (f e).ready = ⟨x.a, x.aEnd, slotMans x.cells 0, x.dom, x.lead⟩ :: e.ready := by
  unfold opPlanEnd
  rw [hx]
  exact ⟨_, rfl, fun e => ⟨rfl, rfl, rfl, rfl⟩⟩

theorem State.endCounts_spec {x : Running} (hd : d < s.dies.length) (hn : x.nAct ≤ 128) :
    let t := s.endCounts d x
    t.rd d Fd.EP_COUNT.PLANS = (s.rd d Fd.EP_COUNT.PLANS + 1) % (Fd.EP_COUNT.PLANS.max + 1) ∧ t.rd d Fd.EP_STATUS.N_ACT = x.nAct ∧
    t.rd d Fd.EP_TIME.LAST_CYC = s.planCycles x ∧ t.rd d Fd.EP_TIME.MAX_CYC = max (s.planCycles x) (s.rd d Fd.EP_TIME.MAX_CYC) ∧
    (t.die d).ep = (s.die d).ep ∧ s.OnlyKeys t d (pageKeys 6) := by
  have hmax : s.rd d Fd.EP_TIME.MAX_CYC < 65536 := bitsOf_lt ..
  have hcyc : s.planCycles x ≤ 65535 := min_le_right ..
  let v1 := s.wr d Fd.EP_TIME.LAST_CYC 0 (s.planCycles x)
  let v2 := v1.wr d Fd.EP_TIME.MAX_CYC 0 (max (s.planCycles x) (s.rd d Fd.EP_TIME.MAX_CYC))
  let v3 := v2.bumpMod d Fd.EP_COUNT.PLANS 0 1
  have ht : s.endCounts d x = v3.wr d Fd.EP_STATUS.N_ACT 0 x.nAct := rfl
  have hl1 : d < v1.dies.length := (State.wr_length ..).symm ▸ hd
  have hl2 : d < v2.dies.length := (State.wr_length ..).symm ▸ hl1
  have hl3 : d < v3.dies.length := (State.wr_length ..).symm ▸ hl2
  have htime : ∀ f : Fld, f.key 0 = Fd.EP_TIME.W.key 0 → (s.endCounts d x).rd d f = v2.rd d f := fun f hf =>
    (State.rd_wr_ne _ _ _ _ _ _ _ _ (.inr (by rw [hf]; decide))).trans (State.rd_wr_ne _ _ _ _ _ _ _ _ (.inr (by rw [hf]; decide)))
  refine ⟨?_, ?_, ?_, ?_, ?_, ?_⟩
  · rw [ht, State.rd_wr_ne _ _ _ _ _ _ _ _ (.inr (by decide))]
    refine (State.rd_wr_same _ _ _ _ _ hl2 (by decide) (by decide)).trans ?_
    rw [show v2.rd d Fd.EP_COUNT.PLANS = s.rd d Fd.EP_COUNT.PLANS from
      (State.rd_wr_ne _ _ _ _ _ _ _ _ (.inr (by decide))).trans (State.rd_wr_ne _ _ _ _ _ _ _ _ (.inr (by decide)))]
    exact Nat.mod_eq_of_lt (Nat.mod_lt _ (by decide))
  · rw [ht, State.rd_wr_same _ _ _ _ _ hl3 (by decide) (by decide)]
    exact Nat.mod_eq_of_lt (Nat.lt_of_le_of_lt hn (by decide))
  · rw [htime Fd.EP_TIME.LAST_CYC rfl,
      State.rd_wr_bits (g := Fd.EP_TIME.MAX_CYC) _ _ _ _ _ Fd.EP_TIME.LAST_CYC _ rfl (by decide) (by decide) (by decide),
      State.rd_wr_same _ _ _ _ _ hd (by decide) (by decide)]
    exact Nat.mod_eq_of_lt (Nat.lt_of_le_of_lt hcyc (by decide))
  · rw [htime Fd.EP_TIME.MAX_CYC rfl, State.rd_wr_same _ _ _ _ _ hl1 (by decide) (by decide)]
    exact Nat.mod_eq_of_lt (Nat.lt_of_le_of_lt (max_le hcyc (Nat.le_of_lt_succ hmax)) (by decide))
  · unfold State.endCounts
    simp
  · unfold State.endCounts State.bumpMod
    refine State.OnlyKeys.wr (State.OnlyKeys.wr (State.OnlyKeys.wr (State.OnlyKeys.wr (.refl ..) _ _ _ ?_) _ _ _ ?_) _ _ _ ?_) _ _ _ ?_
    all_goals rfl

/-- The word of a cell's configuration. -/
def cellKeys (key : Nat) : Prop := ∃ k, k < 128 ∧ key = Fd.CELL_CFG.W.key k

theorem State.endCell_frame {x : Running} {k : Nat} (h : s.OnlyKeys t d P) (hk : P (Fd.CELL_CFG.W.key k)) :
    s.OnlyKeys (State.endCell d x t k) d P ∧ ((State.endCell d x t k).die d).ep = (t.die d).ep := by
  have hstate : P (Fd.CELL_CFG.STATE.key k) := hk
  have hedges : P (Fd.CELL_CFG.EDGES.key k) := hk
  unfold State.endCell
  split
  · exact ⟨(h.wr _ _ _ hstate).wr _ _ _ hedges, by simp⟩
  · exact ⟨h.wr _ _ _ hstate, by simp⟩

/-- The state that a plan leaves a cell with. -/
def Running.endState (x : Running) (k : Nat) : Nat :=
  match x.cells.find? (fun c => c.k == k) with
  | some c => c.st % 4
  | none => 0

theorem State.rd_endCell_same {x : Running} {k : Nat} (hd : d < s.dies.length) :
    (State.endCell d x s k).rd d Fd.CELL_CFG.STATE k = x.endState k := by
  unfold State.endCell Running.endState
  split
  · rw [State.rd_wr_bits (g := Fd.CELL_CFG.EDGES) _ _ _ _ _ Fd.CELL_CFG.STATE _ rfl (by decide) (by decide) (by decide)]
    exact State.rd_wr_same _ _ _ _ _ hd (by decide) (by decide)
  · exact State.rd_wr_same _ _ _ _ _ hd (by decide) (by decide)

theorem State.rd_endCell_ne {x : Running} {k j : Nat} (h : j ≠ k) :
    (State.endCell d x s k).rd d Fd.CELL_CFG.STATE j = s.rd d Fd.CELL_CFG.STATE j := by
  refine (State.endCell_frame (P := (· = Fd.CELL_CFG.W.key k)) (.refl ..) rfl).1.rd_eq ?_
  change ¬(0x6 * 0x1000 + 0x800 + 0x4 * j = 0x6 * 0x1000 + 0x800 + 0x4 * k)
  omega

theorem State.endCells_spec {x : Running} (hd : d < s.dies.length) :
    let t := s.each (List.range 128) (State.endCell d x)
    (∀ k, k < 128 → t.rd d Fd.CELL_CFG.STATE k = x.endState k) ∧ (t.die d).ep = (s.die d).ep ∧ s.OnlyKeys t d cellKeys := by
  have hkeep : ∀ v, ∀ k ∈ List.range 128, (v.die d).ep = (s.die d).ep ∧ s.OnlyKeys v d cellKeys →
      ((State.endCell d x v k).die d).ep = (s.die d).ep ∧ s.OnlyKeys (State.endCell d x v k) d cellKeys := fun v k hk hv => by
    obtain ⟨hframe, hep⟩ := State.endCell_frame (x := x) hv.2 ⟨k, List.mem_range.1 hk, rfl⟩
    exact ⟨hep.trans hv.1, hframe⟩
  have hstart : (s.die d).ep = (s.die d).ep ∧ s.OnlyKeys s d cellKeys := ⟨rfl, .refl ..⟩
  refine ⟨fun k hk => ?_, State.each_keeps_mem hstart hkeep⟩
  refine State.each_brings_mem (Q := fun v => v.rd d Fd.CELL_CFG.STATE k = x.endState k) (List.mem_range.2 hk) hstart hkeep
    (fun v hv => State.rd_endCell_same (hv.2.length_eq.symm ▸ hd)) fun v b _ hv hq => ?_
  by_cases hb : k = b
  · subst hb
    exact State.rd_endCell_same (hv.2.length_eq.symm ▸ hd)
  · exact (State.rd_endCell_ne hb).trans hq

/-- The registers of the limits. -/
def limitKeys (key : Nat) : Prop := stickyKeys 6 key ∨ key = Fd.EP_INFO.W.key 0

theorem State.endLimits_spec {x : Running} (hd : d < s.dies.length) :
    let t := s.endLimits d x
    (x.clip = true → t.stuckAt d Sk.EP.LEVEL_CLIP.page Sk.EP.LEVEL_CLIP.bit = true) ∧ (t.die d).ep = (s.die d).ep ∧
    s.OnlyKeys t d limitKeys := by
  have hclip : (x.clip = true → (s.when x.clip (·.sticky d Sk.EP.LEVEL_CLIP)).stuckAt d Sk.EP.LEVEL_CLIP.page Sk.EP.LEVEL_CLIP.bit = true) ∧
      ((s.when x.clip (·.sticky d Sk.EP.LEVEL_CLIP)).die d).ep = (s.die d).ep ∧
      s.OnlyKeys (s.when x.clip (·.sticky d Sk.EP.LEVEL_CLIP)) d limitKeys := by
    unfold State.when
    split
    · exact ⟨fun _ => State.stuckAt_stick_same _ _ _ _ hd (by decide), State.stick_ep' ..,
        (s.stick_frame' ..).mono fun _ hk => .inl hk⟩
    · next h => exact ⟨fun hb => absurd hb h, rfl, .refl ..⟩
  unfold State.endLimits
  generalize s.when x.clip (·.sticky d Sk.EP.LEVEL_CLIP) = v at hclip ⊢
  obtain ⟨hset, hep, hframe⟩ := hclip
  dsimp only
  split
  · next k _ =>
    have hw := (hframe.stick 6 3 (.inl (.inl rfl)) (.inl (.inr rfl))).wr Fd.EP_INFO.OVF_CELL 0 k (.inr rfl)
    have hstuck : x.clip = true → ((v.stick d 6 3).wr d Fd.EP_INFO.OVF_CELL 0 k).stuckAt d 6 5 = true := fun hc => by
      rw [State.stuckAt_wr (.inr (by decide))]
      exact State.stuckAt_stick (hframe.length_eq.symm ▸ hd) (by decide) (hset hc)
    have hpulse : ∀ w : State, (w.pulse d 0x061).stuckAt d 6 5 = w.stuckAt d 6 5 := fun w => by
      unfold State.stuckAt
      rw [State.cell_pulse]
    refine ⟨fun hc => ?_, ?_, hw.when _ _ (hw.pulse _)⟩
    · unfold State.when
      split
      · exact (hpulse _).trans (hstuck hc)
      · exact hstuck hc
    · unfold State.when
      split
      · rw [State.pulse_ep', State.wr_ep', State.sticky_eq, State.stick_ep', hep]
      · rw [State.wr_ep', State.sticky_eq, State.stick_ep', hep]
  · exact ⟨hset, hep, hframe⟩

theorem not_cellKeys {key : Nat} (h : key < 0x6800) : ¬cellKeys key := by
  rintro ⟨k, -, rfl⟩
  change 0x6 * 0x1000 + 0x800 + 0x4 * k < 0x6800 at h
  omega

theorem not_limitKeys {key : Nat} (h : key ≠ 0x600C) (h' : key ≠ 0x6010) (h'' : key ≠ 0x604C) : ¬limitKeys key := by
  rintro ((rfl | rfl) | rfl)
  · exact h rfl
  · exact h' rfl
  · exact h'' rfl

/-- What shows once a plan is complete. -/
theorem State.endShows_spec {x : Running} (hd : d < s.dies.length) (hn : x.nAct ≤ 128) :
    let t := s.endShows d x
    t.rd d Fd.EP_COUNT.PLANS = (s.rd d Fd.EP_COUNT.PLANS + 1) % (Fd.EP_COUNT.PLANS.max + 1) ∧ t.rd d Fd.EP_STATUS.N_ACT = x.nAct ∧
    t.rd d Fd.EP_TIME.LAST_CYC = s.planCycles x ∧ t.rd d Fd.EP_TIME.MAX_CYC = max (s.planCycles x) (s.rd d Fd.EP_TIME.MAX_CYC) ∧
    (∀ k, k < 128 → t.rd d Fd.CELL_CFG.STATE k = x.endState k) ∧
    (x.clip = true → t.stuckAt d Sk.EP.LEVEL_CLIP.page Sk.EP.LEVEL_CLIP.bit = true) ∧ (t.die d).ep = (s.die d).ep ∧
    s.OnlyKeys t d (pageKeys 6) := by
  obtain ⟨hplans, hact, hlast, hmax, hep1, h1⟩ := s.endCounts_spec hd hn
  obtain ⟨hstate, hep2, h2⟩ := (s.endCounts d x).endCells_spec (x := x) (h1.length_eq.symm ▸ hd)
  obtain ⟨hclip, hep3, h3⟩ := ((s.endCounts d x).each (List.range 128) (State.endCell d x)).endLimits_spec (x := x)
    (h2.length_eq.symm ▸ h1.length_eq.symm ▸ hd)
  have hctl : ∀ f : Fld, f.key 0 < 0x6800 → f.key 0 ≠ 0x600C → f.key 0 ≠ 0x6010 → f.key 0 ≠ 0x604C →
      (s.endShows d x).rd d f = (s.endCounts d x).rd d f := fun f ha hb hc hd =>
    (h3.rd_eq (not_limitKeys hb hc hd)).trans (h2.rd_eq (not_cellKeys ha))
  refine ⟨?_, ?_, ?_, ?_, fun k hk => ?_, hclip, hep3.trans (hep2.trans hep1), ?_⟩
  · rw [hctl _ (by decide) (by decide) (by decide) (by decide), hplans]
  · rw [hctl _ (by decide) (by decide) (by decide) (by decide), hact]
  · rw [hctl _ (by decide) (by decide) (by decide) (by decide), hlast]
  · rw [hctl _ (by decide) (by decide) (by decide) (by decide), hmax]
  · refine (h3.rd_eq ?_).trans (hstate k hk)
    refine not_limitKeys ?_ ?_ ?_
    all_goals
      change 0x6 * 0x1000 + 0x800 + 0x4 * k ≠ _
      omega
  · refine (h1.trans (h2.mono ?_)).trans (h3.mono ?_)
    · rintro key ⟨k, hk, rfl⟩
      change (0x6 * 0x1000 + 0x800 + 0x4 * k) / 0x1000 = 6
      omega
    · rintro key ((rfl | rfl) | rfl) <;> rfl

theorem planEnd_spec {x : Running} (hsh : s.shaped = true) (hs : s.sane = true) (hh : s.isHead = true) (ho : s.on d 6 = true)
    (hx : (s.die d).ep.running = some x) (hn : x.nAct ≤ 128) : Completes (.planEnd d) s fun t =>
      (t.die d).ep.running = none ∧ (t.die d).ep.asked = (s.die d).ep.waiting ∧ (t.die d).ep.waiting = none ∧
      (t.die d).ep.ready = ⟨x.a, x.aEnd, slotMans x.cells 0, x.dom, x.lead⟩ :: (s.die d).ep.ready ∧
      t.rd d Fd.EP_COUNT.PLANS = (s.rd d Fd.EP_COUNT.PLANS + 1) % (Fd.EP_COUNT.PLANS.max + 1) ∧
      t.rd d Fd.EP_STATUS.N_ACT = x.nAct ∧ t.rd d Fd.EP_TIME.LAST_CYC = s.planCycles x ∧
      t.rd d Fd.EP_TIME.MAX_CYC = max (s.planCycles x) (s.rd d Fd.EP_TIME.MAX_CYC) ∧
      (∀ k, k < 128 → t.rd d Fd.CELL_CFG.STATE k = x.endState k) ∧
      (x.clip = true → t.stuckAt d Sk.EP.LEVEL_CLIP.page Sk.EP.LEVEL_CLIP.bit = true) ∧ s.OnlyKeys t d (pageKeys 6) := by
  have hd := State.lt_length hsh (State.alive_of_on ho)
  have he : exec (.planEnd d) s = .next (opPlanEnd d s) := by
    change s.guarded _ _ = _
    exact State.guarded_true _ _ _ hs (by simp [hh, ho])
  obtain ⟨f, hf, hfields⟩ := opPlanEnd_eq hx
  obtain ⟨hplans, hact, hlast, hmax, hstate, hclip, hep, hframe⟩ := s.endShows_spec hd hn
  rw [hf] at he
  generalize s.endShows d x = v at *
  have hrd : ∀ (g : Fld) (i : Nat), (v.onEp d f).rd d g i = v.rd d g i := fun g i => by
    unfold State.rd
    rw [State.cell_onEp]
  have hend : ((v.onEp d f).die d).ep = f (s.die d).ep := by rw [State.ep_onEp (hframe.length_eq.symm ▸ hd), hep]
  obtain ⟨hrunning, hasked, hwaiting, hready⟩ := hfields (s.die d).ep
  refine ⟨_, he, ?_, ?_, ?_, ?_, (hrd ..).trans hplans, (hrd ..).trans hact, (hrd ..).trans hlast, (hrd ..).trans hmax,
    fun k hk => (hrd ..).trans (hstate k hk), fun hc => ?_, hframe.onEp⟩
  · rw [hend, hrunning]
  · rw [hend, hasked]
  · rw [hend, hwaiting]
  · rw [hend, hready]
  · unfold State.stuckAt
    rw [State.cell_onEp]
    exact hclip hc

/-! ### MANIFEST_TRANSFER (02 R60, 08 R231) -/

theorem exec_manifestTransfer {r : Nat} (hs : s.sane = true) (hh : s.isHead = true) (ho : s.on d 6 = true) :
    exec (.manifestTransfer d r) s = .next (opManifestTransfer d r s) := by
  change s.guarded _ _ = _
  exact State.guarded_true _ _ _ hs (by simp [hh, ho])

/-- The test by which a reservation is found for the member manifests to a die. -/
def State.namesTest (s : State) (d dest i : Nat) : Bool :=
  s.flag d Fd.RES_ENTRY.VALID i && s.rd d Fd.RES_ENTRY.PORT i == 1 && s.rd d Fd.RES_ENTRY.SOURCE i == 1 && s.rd d Fd.RES_ENTRY.DEST i == dest

theorem State.names_iff {dest i : Nat} : s.names d dest i ↔ i ∈ List.range 32 ∧ s.namesTest d dest i = true := by
  unfold State.names State.namesTest
  simp [and_assoc]

/-- The member manifests to a die wait for their reservation. -/
theorem opManifestTransfer_paced {r i : Nat} {m : MTransfer} (hm : (s.die d).ep.out.find? (fun t => t.slot == r) = some m)
    (hb : s.blockEn d 0x10 = true) (hi : s.names d m.die i) (hle : s.rd d Fd.RES_ENTRY.SHARE i ≤ s.sentNow d i) :
    opManifestTransfer d r s = s := by
  obtain ⟨hmem, hnames⟩ := State.names_iff.1 hi
  unfold opManifestTransfer
  rw [hm]
  refine if_pos (List.any_eq_true.2 ⟨i, hmem, ?_⟩)
  unfold State.namesTest at hnames
  simp only [hnames, hb, Bool.true_and, Bool.and_true, decide_eq_true_eq]
  exact hle

theorem opManifestTransfer_sends {r : Nat} {m : MTransfer} (hm : (s.die d).ep.out.find? (fun t => t.slot == r) = some m)
    (hfree : s.blockEn d 0x10 = false ∨ ∀ i, s.names d m.die i → s.sentNow d i < s.rd d Fd.RES_ENTRY.SHARE i) :
    opManifestTransfer d r s = (s.submitTo d 1 1 m.die (.manifests m)).2.onEp d fun e => { e with out := e.out.erase m } := by
  unfold opManifestTransfer
  rw [hm]
  refine if_neg fun hp => ?_
  obtain ⟨i, hmem, hp⟩ := List.any_eq_true.1 hp
  simp only [Bool.and_eq_true, decide_eq_true_eq] at hp
  obtain ⟨⟨hnames, hle⟩, hb⟩ := hp
  rcases hfree with h | h
  · rw [h] at hb
    cases hb
  · have := h i (State.names_iff.2 ⟨hmem, by simpa [State.namesTest, and_assoc] using hnames⟩)
    omega

/-- A transfer for which a reservation of the member manifests to its die has share left enters the fabric. -/
theorem State.submitTo_admits {dest : Nat} {what : FabPayload} (hb : s.blockEn d 0x10 = true) (hn : ∃ i, s.names d dest i)
    (hfree : ∀ i, s.names d dest i → s.sentNow d i < s.rd d Fd.RES_ENTRY.SHARE i) :
    ∃ i, (s.submitTo d 1 1 dest what).2 = (s.onDie d (Die.counts (s.td0 / 20) i (s.sentNow d i + 1))).launch d 1 dest 0 what := by
  obtain ⟨j, hj⟩ := hn
  obtain ⟨hjmem, hjnames⟩ := State.names_iff.1 hj
  obtain ⟨i, hi⟩ : ∃ i, (List.range 32).find? (s.namesTest d dest) = some i :=
    Option.isSome_iff_exists.1 (List.find?_isSome.2 ⟨j, hjmem, hjnames⟩)
  have hnames : s.names d dest i := State.names_iff.2 ⟨List.mem_of_find?_eq_some hi, List.find?_some hi⟩
  obtain ⟨-, -, -, -, hdest⟩ := id hnames
  refine ⟨i, ?_⟩
  change (s.submitUnder d 1 ((List.range 32).find? (s.namesTest d dest)) what).2 = _
  unfold State.submitUnder
  dsimp only
  rw [hi, State.tryShare_admits hb (hfree i hnames), Option.getD_some, hdest]
  rfl

/-- A transfer that no reservation names, or of a die whose FAB page is disabled, is refused. -/
theorem State.submitTo_refuses {dest : Nat} {what : FabPayload} (h : (∀ i, ¬s.names d dest i) ∨ s.blockEn d 0x10 = false) :
    ∃ entry, (∀ i, entry = some i → i < 32) ∧ (s.submitTo d 1 1 dest what).2 = s.refuseA d entry := by
  obtain ⟨entry, hf⟩ : ∃ entry, (List.range 32).find? (s.namesTest d dest) = entry := ⟨_, rfl⟩
  refine ⟨entry, fun i hi => List.mem_range.1 (List.mem_of_find?_eq_some (hf.trans hi)), ?_⟩
  have hrefused : s.tryShare d entry = (false, s.refuseA d entry) := by
    cases entry with
    | none => rfl
    | some i =>
      rcases h with h | h
      · exact absurd (State.names_iff.2 ⟨List.mem_of_find?_eq_some hf, List.find?_some hf⟩) (h i)
      · unfold State.tryShare
        exact if_pos (by simp [h])
  change (s.submitUnder d 1 ((List.range 32).find? (s.namesTest d dest)) what).2 = _
  unfold State.submitUnder
  rw [hf, hrefused]
  rfl

/-- The next transfer to a member leaves. -/
theorem manifestTransfer_admits {r : Nat} {m : MTransfer} (hd : d < s.dies.length) (hs : s.sane = true) (hh : s.isHead = true)
    (ho : s.on d 6 = true) (hm : (s.die d).ep.out.find? (fun t => t.slot == r) = some m) (hb : s.blockEn d 0x10 = true)
    (hn : ∃ i, s.names d m.die i) (hfree : ∀ i, s.names d m.die i → s.sentNow d i < s.rd d Fd.RES_ENTRY.SHARE i) :
    Completes (.manifestTransfer d r) s fun t =>
      (t.die d).ep.out = (s.die d).ep.out.erase m ∧
      t.fabric = s.fabric ++ [⟨d, 1, m.die, 0, s.td0, d, s.td0 + 2, .manifests m⟩] ∧ s.OnlyOn t fun _ _ => False := by
  obtain ⟨i, hi⟩ := State.submitTo_admits (what := .manifests m) hb hn hfree
  have he := (exec_manifestTransfer (r := r) hs hh ho).trans (congrArg _ (opManifestTransfer_sends hm (.inr hfree)))
  rw [hi] at he
  let v := s.onDie d (Die.counts (s.td0 / 20) i (s.sentNow d i + 1))
  have hcounts : s.OnlyKeys v d fun _ => False := (State.OnlyKeys.refl s d _).onDie _ (fun _ => rfl) fun _ => rfl
  have hv : d < (v.launch d 1 m.die 0 (.manifests m)).dies.length := hcounts.length_eq.symm ▸ hd
  have hep : (v.die d).ep = (s.die d).ep := by
    unfold v
    rw [State.die_onDie_same _ _ _ hd]
    rfl
  have hsent : v.OnlyKeys (v.onEp d fun e => { e with out := e.out.erase m }) d fun _ => False :=
    (State.OnlyKeys.refl v d _).onEp
  have hframe := hcounts.trans hsent
  refine ⟨_, he, ?_, rfl, rfl, rfl, fun e key hk => ?_, fun e => ?_⟩
  · rw [State.ep_onEp hv]
    change (v.die d).ep.out.erase m = _
    rw [hep]
  · by_cases hed : e = d
    · subst hed
      exact hframe.cell_eq hk
    · exact hframe.cell_ne hed
  · by_cases hed : e = d
    · subst hed
      exact hframe.2.2.2.2
    · exact congrArg (·.recorder.dram) (hframe.2.2.1 e hed)

theorem State.refuseA_ep {entry : Option Nat} : ((s.refuseA d entry).die d).ep = (s.die d).ep := by
  unfold State.refuseA
  dsimp only
  rw [State.sticky_eq, State.bump_eq]
  split <;> simp only [State.wr_ep', State.stick_ep']

theorem State.refuseA_fabric {entry : Option Nat} : (s.refuseA d entry).fabric = s.fabric := by
  unfold State.refuseA
  dsimp only
  rw [State.sticky_eq, State.bump_eq]
  split <;> simp only [State.wr_fabric, State.stick_fabric]

theorem manifestTransfer_refused {r : Nat} {m : MTransfer} (hd : d < s.dies.length) (hs : s.sane = true) (hh : s.isHead = true)
    (ho : s.on d 6 = true) (hm : (s.die d).ep.out.find? (fun t => t.slot == r) = some m)
    (h : (∀ i, ¬s.names d m.die i) ∨ s.blockEn d 0x10 = false) : Completes (.manifestTransfer d r) s fun t =>
      (t.die d).ep.out = (s.die d).ep.out.erase m ∧ t.fabric = s.fabric ∧
      t.stuckAt d Sk.FAB.CLASS_A_REFUSED.page Sk.FAB.CLASS_A_REFUSED.bit = true ∧ s.OnlyKeys t d (pageKeys 16) := by
  obtain ⟨entry, hentry, he⟩ := State.submitTo_refuses (what := .manifests m) h
  obtain ⟨hstuck, -, -, -, hkeys⟩ := State.refuseA_spec hd entry hentry
  have hframe : s.OnlyKeys (s.refuseA d entry) d (pageKeys 16) := hkeys.mono fun key hk => by
    rcases hk with (rfl | rfl) | rfl | rfl <;> rfl
  refine ⟨_, (exec_manifestTransfer hs hh ho).trans (congrArg _ (opManifestTransfer_sends hm ?_)), ?_⟩
  · exact h.symm.imp_right fun h i hi => absurd hi (h i)
  rw [he]
  refine ⟨?_, State.refuseA_fabric, ?_, hframe.onEp⟩
  · rw [State.ep_onEp (hframe.length_eq.symm ▸ hd), State.refuseA_ep]
  · unfold State.stuckAt
    rw [State.cell_onEp]
    exact hstuck

/-- A command that changes nothing where its conditions hold changes nothing at all while no misuse stands. -/
theorem State.guarded_idle {c : Bool} {f : State → State} (hs : s.sane = true) (hf : f s = s) : s.guarded c f = .next s := by
  cases c with
  | true => rw [State.guarded_true _ _ _ hs rfl, hf]
  | false => exact State.guarded_false _ _ _ hs rfl

end Sys2Proof.Machine

/-- Settles O28: the plan is followed from its request (PLAN_START) over what its end shows (PLAN_END) to the transfers to the members, each
of which the reservations of its die pass, pace or refuse. -/
theorem edgePlanner : Obligations.edge_planner := by
  refine ⟨fun s d q fails hsh hs hh ho hq hr hm => ?_, fun s d fails hs h => State.guarded_idle hs (opPlanStart_idle h),
    fun s d x hsh hs hh ho hx hn => planEnd_spec hsh hs hh ho hx hn, fun s d r m hsh hs hh ho hm => ?_, fun s d r hs h => ?_⟩
  · have hd := State.lt_length hsh (State.alive_of_on ho)
    exact ⟨planStart_planner hd hs hh ho hq hr hm, planStart_other hd hs hh ho hq hr hm⟩
  · have hd := State.lt_length hsh (State.alive_of_on ho)
    refine ⟨manifestTransfer_admits hd hs hh ho hm, fun hb ⟨i, hi, hle⟩ => ?_, manifestTransfer_refused hd hs hh ho hm⟩
    rw [exec_manifestTransfer hs hh ho, opManifestTransfer_paced hm hb hi hle]
  · refine State.guarded_idle hs ?_
    have hnone : (s.die d).ep.out.find? (fun t => t.slot == r) = none := List.find?_eq_none.2 fun m hm => by simpa using h m hm
    unfold opManifestTransfer
    rw [hnone]

end

section
open Sys2Proof Sys2Proof.Machine

/-! ## The thermal sample and the power of the pages -/

namespace Sys2Proof.Machine
variable {s t u v : State} {d i j : Nat} {P : Nat → Prop}

/-! ### Signed fields of 16 bits -/

/-- An integer that a signed field of 16 bits holds. -/
def Fits16 (v : Int) : Prop := -32768 ≤ v ∧ v < 32768

theorem sx_ux16 {v : Int} (h : Fits16 v) : sx 16 (ux 16 v % 2 ^ (15 + 1 - 0)) = v := by
  obtain ⟨hlo, hhi⟩ := h
  unfold sx ux
  norm_num
  split <;> omega

theorem fits16_satS (v : Int) : Fits16 (satS 16 v) := by
  unfold Fits16 satS
  norm_num

theorem fits16_sx (n : Nat) : Fits16 (sx 16 n) := by
  unfold Fits16 sx
  norm_num
  split <;> omega

theorem State.rdS_wrS_same {f : Fld} {x : Int} (hd : d < s.dies.length) (hf : f.hi < 32) (hw : f.hi = f.lo + 15) (hx : Fits16 x) :
    (s.wrS d f 0 x).rdS d f = x := by
  have hwidth : f.hi + 1 - f.lo = 16 := by omega
  unfold State.rdS
  rw [State.wrS_eq, State.rd_wr_same _ _ _ _ _ hd hf (by omega), hwidth]
  exact sx_ux16 hx

theorem State.rdS_eq {f : Fld} (h : t.rd d f = s.rd d f) : t.rdS d f = s.rdS d f := by
  unfold State.rdS
  rw [h]

/-! ### What a step of a sample keeps (17 R459-R466) -/

/-- The registers in which a sample shows its judgement: the stickies of page THM, its status and its counts. -/
def sampleKeys (key : Nat) : Prop := stickyKeys 12 key ∨ key = Fd.THM_STATUS.W.key 0 ∨ key = Fd.THM_COUNT.W.key 0

theorem not_sampleKeys {key : Nat} (h : key < 0xC008 ∨ 0xC010 < key) (h' : key ≠ 0xC03C) : ¬sampleKeys key := by
  rintro ((rfl | rfl) | rfl | rfl)
  · revert h; decide
  · revert h; decide
  · revert h; decide
  · exact h' rfl

/-- Bit b of the thermal status. -/
def statusBit (b : Nat) : Fld := ⟨0xC, 0x8, 1, b, b⟩

theorem statusBit_key (b : Nat) : (statusBit b).key 0 = Fd.THM_STATUS.W.key 0 := rfl

/-- From s to t a sample of die d is judged, and bit b of its status with it: what stays of the package. The sensor's own source may end
with its own bit, 31; the DRAM takes a mark of throttling while the ledger stores. -/
structure State.Judging (s : State) (d b : Nat) (t : State) : Prop where
  frame : t = { s with dies := t.dies, sumPend := t.sumPend, free := t.free }
  length : t.dies.length = s.dies.length
  others : ∀ e, e ≠ d → t.die e = s.die e
  cells : ∀ key, ¬sampleKeys key → t.cell d key = s.cell d key
  dram : s.lstate d = 0 → (t.die d).recorder.dram = (s.die d).recorder.dram
  stuck : ∀ p c, s.stuckAt d p c = true → t.stuckAt d p c = true
  present : ∀ k, k ≠ 0x0C1 ∨ b ≠ 31 → k ∈ (s.die d).flt.present → k ∈ (t.die d).flt.present
  status : ∀ f : Fld, f.key 0 = Fd.THM_STATUS.W.key 0 → f.hi < b ∨ b < f.lo → t.rd d f = s.rd d f
  suspects : b ≠ 31 → t.rd d Fd.THM_COUNT.SUSPECTS = s.rd d Fd.THM_COUNT.SUSPECTS
  runs : ∀ j, 28 + j ≠ b → (t.die d).thm.setAt.getD j none = (s.die d).thm.setAt.getD j none ∧
    (t.die d).thm.relAt.getD j none = (s.die d).thm.relAt.getD j none

namespace State.Judging
variable {b : Nat}

theorem rd_eq {f : Fld} (h : s.Judging d b t) (hf : ¬sampleKeys (f.key 0)) : t.rd d f = s.rd d f := by
  unfold State.rd
  rw [h.cells _ hf]

theorem lstate_eq (h : s.Judging d b t) : t.lstate d = s.lstate d := h.rd_eq (not_sampleKeys (by decide) (by decide))

theorem td0_eq (h : s.Judging d b t) : t.td0 = s.td0 := by rw [h.frame]

theorem refl (s : State) (d b : Nat) : s.Judging d b s :=
  ⟨rfl, rfl, fun _ _ => rfl, fun _ _ => rfl, fun _ => rfl, fun _ _ h => h, fun _ _ h => h, fun _ _ _ => rfl, fun _ => rfl,
    fun _ _ => ⟨rfl, rfl⟩⟩

theorem trans (h : s.Judging d b t) (k : t.Judging d b u) : s.Judging d b u where
  frame := by rw [k.frame, h.frame]
  length := k.length.trans h.length
  others e he := (k.others e he).trans (h.others e he)
  cells key hk := (k.cells key hk).trans (h.cells key hk)
  dram hl := (k.dram (h.lstate_eq.trans hl)).trans (h.dram hl)
  stuck p c hs := k.stuck p c (h.stuck p c hs)
  present n hn hs := k.present n hn (h.present n hn hs)
  status f hf hb := (k.status f hf hb).trans (h.status f hf hb)
  suspects hb := (k.suspects hb).trans (h.suspects hb)
  runs j hj := ⟨(k.runs j hj).1.trans (h.runs j hj).1, (k.runs j hj).2.trans (h.runs j hj).2⟩

theorem onDie {f : Die → Die} (hd : d < s.dies.length) (hc : ∀ x, (f x).cells = x.cells)
    (hm : s.lstate d = 0 → (f (s.die d)).recorder.dram = (s.die d).recorder.dram)
    (hp : ∀ k, k ≠ 0x0C1 ∨ b ≠ 31 → k ∈ (s.die d).flt.present → k ∈ (f (s.die d)).flt.present)
    (hr : ∀ j, 28 + j ≠ b → (f (s.die d)).thm.setAt.getD j none = (s.die d).thm.setAt.getD j none ∧
      (f (s.die d)).thm.relAt.getD j none = (s.die d).thm.relAt.getD j none) : s.Judging d b (s.onDie d f) := by
  have hcell : ∀ key, (s.onDie d f).cell d key = s.cell d key := fun key => State.cell_onDie _ _ _ _ _ hc
  have hrd : ∀ g : Fld, (s.onDie d f).rd d g = s.rd d g := fun g => by
    unfold State.rd
    rw [hcell]
  refine ⟨rfl, State.onDie_length .., fun e he => State.die_onDie_ne _ _ _ _ he, fun key _ => hcell key, ?_, fun p c h => ?_, ?_,
    fun g _ _ => hrd g, fun _ => hrd _, ?_⟩
  · rwa [State.die_onDie_same _ _ _ hd]
  · unfold State.stuckAt
    rwa [hcell]
  · rwa [State.die_onDie_same _ _ _ hd]
  · rwa [State.die_onDie_same _ _ _ hd]

/-- A field of the status or of the counts is written. -/
theorem wr {f : Fld} {x : Nat} (hf : f.key 0 = Fd.THM_STATUS.W.key 0 ∨ f.key 0 = Fd.THM_COUNT.W.key 0) (hi : f.hi < 32)
    (hl : f.lo ≤ f.hi) (hs : f.key 0 = Fd.THM_STATUS.W.key 0 → f.hi = b ∧ f.lo = b)
    (hn : f.key 0 = Fd.THM_COUNT.W.key 0 → b ≠ 31 → 15 < f.lo) : s.Judging d b (s.wr d f 0 x) := by
  have hframe : s.OnlyKeys (s.wr d f 0 x) d sampleKeys := (State.OnlyKeys.refl ..).wr _ _ _ (.inr hf)
  refine ⟨hframe.1, hframe.length_eq, hframe.2.2.1, fun _ => hframe.cell_eq, fun _ => hframe.2.2.2.2, fun p c h => ?_, fun k _ h => ?_,
    fun g hg hb => ?_, fun hb => ?_, fun j _ => ?_⟩
  · rwa [State.stuckAt_wr (.inr ?_)]
    rcases hf with hf | hf <;> rw [hf]
    all_goals
      change p * 0x1000 + 0xC ≠ _
      unfold Fld.key
      dsimp only
      omega
  · rwa [State.wr_flt']
  · by_cases hk : f.key 0 = Fd.THM_STATUS.W.key 0
    · obtain ⟨hhi, hlo⟩ := hs hk
      exact State.rd_wr_bits _ _ _ _ _ _ _ _ (hg.trans hk.symm) hi hl (by omega)
    · exact State.rd_wr_ne _ _ _ _ _ _ _ _ (.inr fun hc => hk (hc.symm.trans hg))
  · by_cases hk : f.key 0 = Fd.THM_COUNT.W.key 0
    · exact State.rd_wr_bits _ _ _ _ _ _ _ _ hk.symm hi hl (.inl (hn hk hb))
    · exact State.rd_wr_ne _ _ _ _ _ _ _ _ (.inr fun hc => hk hc.symm)
  · rw [State.wr_thm']
    exact ⟨rfl, rfl⟩

theorem wrBit {x : Bool} (hb : b < 32) : s.Judging d b (s.wrB d (statusBit b) 0 x) := by
  have hne : (statusBit b).key 0 ≠ Fd.THM_COUNT.W.key 0 := by
    rw [statusBit_key]
    decide
  exact wr (.inl (statusBit_key b)) hb (Nat.le_refl _) (fun _ => ⟨rfl, rfl⟩) fun h => absurd h hne

theorem stick {c : Nat} (hd : d < s.dies.length) (hc : c < 32) : s.Judging d b (s.stick d 12 c) := by
  have hframe := s.stick_frame' d 12 c
  have hrd : ∀ f : Fld, f.key 0 = Fd.THM_STATUS.W.key 0 ∨ f.key 0 = Fd.THM_COUNT.W.key 0 → (s.stick d 12 c).rd d f = s.rd d f :=
    fun f hf => State.rd_stick_ne (.inr (by rcases hf with hf | hf <;> rw [hf] <;> decide))
  refine ⟨hframe.1, hframe.length_eq, hframe.2.2.1, fun key hk => hframe.cell_eq fun h => hk (.inl h), fun _ => hframe.2.2.2.2,
    fun p q h => State.stuckAt_stick hd hc h, fun k _ h => ?_, fun f hf _ => hrd f (.inl hf), fun _ => hrd _ (.inr rfl), fun j _ => ?_⟩
  · rwa [State.stick_flt']
  · rw [State.stick_thm']
    exact ⟨rfl, rfl⟩

theorem raise {n : Nat} (hd : d < s.dies.length) : s.Judging d b (s.raise d n) := by
  unfold State.raise
  split
  · exact refl ..
  · exact onDie hd (fun _ => rfl) (fun _ => rfl) (fun k _ hk => List.mem_append_left _ hk) fun _ _ => ⟨rfl, rfl⟩

/-- The sensor is no longer present as a source. -/
theorem lower (hd : d < s.dies.length) : s.Judging d 31 (s.lower d 0x0C1) :=
  onDie hd (fun _ => rfl) (fun _ => rfl)
    (fun k hk hp => List.mem_filter.2 ⟨hp, by simpa using hk.resolve_right fun h => h rfl⟩) fun _ _ => ⟨rfl, rfl⟩

theorem onThm {f : Thm → Thm} (hd : d < s.dies.length)
    (hf : ∀ j, 28 + j ≠ b → (f (s.die d).thm).setAt.getD j none = (s.die d).thm.setAt.getD j none ∧
      (f (s.die d).thm).relAt.getD j none = (s.die d).thm.relAt.getD j none) : s.Judging d b (s.onThm d f) :=
  onDie hd (fun _ => rfl) (fun _ => rfl) (fun _ _ h => h) hf

/-- Throttling begins on a die: its DRAM takes a mark only while its ledger stores. -/
theorem throttleFrom (hd : d < s.dies.length) : s.Judging d b (s.throttleFrom d) := by
  unfold State.throttleFrom
  have hslot : ∀ f : Die → Die, f = (fun x => { x with le := { x.le with slot := x.le.slot.map fun y => { y with deferNext := false } } }) →
      s.Judging d b ((s.onDie d f).markThrottled d) := fun f hf => by
    have h1 : s.Judging d b (s.onDie d f) :=
      hf ▸ onDie hd (fun _ => rfl) (fun _ => rfl) (fun _ _ h => h) fun _ _ => ⟨rfl, rfl⟩
    unfold State.markThrottled State.when
    dsimp only
    split
    · next hc =>
      refine h1.trans (onDie (h1.length.symm ▸ hd) (fun _ => rfl) (fun hl => ?_) (fun _ _ h => h) fun _ _ => ⟨rfl, rfl⟩)
      rw [hl] at hc
      simp at hc
    · exact h1
  exact hslot _ rfl

end State.Judging

theorem State.flag_wrBit {b : Nat} {x : Bool} (hd : d < s.dies.length) (hb : b < 32) :
    (s.wrB d (statusBit b) 0 x).flag d (statusBit b) = x := by
  rw [State.flag_eq, State.wrB_eq, State.rd_wr_same _ _ _ _ _ hd hb (Nat.le_refl _)]
  simp [statusBit]

theorem State.Judging.flag_eq {b c : Nat} (h : s.Judging d b t) (hc : c ≠ b) : t.flag d (statusBit c) = s.flag d (statusBit c) := by
  rw [State.flag_eq, State.flag_eq, h.status (statusBit c) (statusBit_key c) (Nat.lt_or_gt_of_ne hc)]

theorem State.rd_onThm {f : Thm → Thm} {g : Fld} {k : Nat} : (s.onThm d f).rd d g k = s.rd d g k := by
  unfold State.rd
  rw [show (s.onThm d f).cell d (g.key k) = s.cell d (g.key k) from State.cell_onDie _ _ _ _ _ fun _ => rfl]

/-! ### The sensor is judged (17 R460-R462) -/

theorem State.rd_raise {n k : Nat} {g : Fld} : (s.raise d n).rd d g k = s.rd d g k := by
  unfold State.rd
  rw [State.cell_raise]

theorem State.mem_present_raise {n : Nat} (hd : d < s.dies.length) : n ∈ ((s.raise d n).die d).flt.present := by
  simpa using State.present_raise (n := n) hd

theorem State.showSensor_spec (hd : d < s.dies.length) :
    (∀ f : Fld, (s.showSensor d).rd d f = s.rd d f) ∧ (∀ p c, (s.showSensor d).stuckAt d p c = s.stuckAt d p c) ∧
    (s.flag d Fd.THM_STATUS.SUSPECT = true → s.flag d Fd.THM_XCHK.SENS_FLT = true → 0x0C1 ∈ ((s.showSensor d).die d).flt.present) ∧
    s.Judging d 31 (s.showSensor d) := by
  unfold State.showSensor State.source
  split
  · refine ⟨fun f => State.rd_raise, fun p c => ?_, fun _ _ => State.mem_present_raise hd, .raise hd⟩
    unfold State.stuckAt
    rw [State.cell_raise]
  · next hoff =>
    refine ⟨fun f => ?_, fun p c => ?_, fun h h' => absurd (by rw [h, h']; rfl) hoff, .lower hd⟩
    · unfold State.rd
      rw [State.cell_lower]
    · unfold State.stuckAt
      rw [State.cell_lower]

/-- A change of suspicion is noted: its sticky and its count. -/
theorem State.noteSuspect_spec (hd : d < s.dies.length) :
    let t := (s.sticky d Sk.THM.SUSPECT).bump d Fd.THM_COUNT.SUSPECTS 0 1
    t.stuckAt d Sk.THM.SUSPECT.page Sk.THM.SUSPECT.bit = true ∧
    t.rd d Fd.THM_COUNT.SUSPECTS = min (s.rd d Fd.THM_COUNT.SUSPECTS + 1) 0xFFFF ∧
    t.rd d Fd.THM_STATUS.SUSPECT = s.rd d Fd.THM_STATUS.SUSPECT ∧ s.Judging d 31 t := by
  have hstick : s.Judging d 31 (s.sticky d Sk.THM.SUSPECT) := .stick hd (by decide)
  have hl : d < (s.sticky d Sk.THM.SUSPECT).dies.length := hstick.length.symm ▸ hd
  have hrd : ∀ f : Fld, f.key 0 ≠ hdrKey 12 0xC → f.key 0 ≠ hdrKey 12 0x10 → (s.sticky d Sk.THM.SUSPECT).rd d f = s.rd d f :=
    fun f h h' => State.rd_stick_ne (.inr ⟨h, h'⟩)
  refine ⟨?_, ?_, ?_, hstick.trans (.wr (.inr rfl) (by decide) (by decide) (fun h => absurd h (by decide)) fun _ h => absurd rfl h)⟩
  · rw [State.bump_eq, State.stuckAt_wr (.inr (by decide))]
    exact State.stuckAt_stick_same _ _ _ _ hd (by decide)
  · rw [State.rd_bump_same hl (by decide) (by decide), hrd _ (by decide) (by decide)]
    rfl
  · rw [State.bump_eq, State.rd_wr_ne _ _ _ _ _ _ _ _ (.inr (by decide)), hrd _ (by decide) (by decide)]

/-- A sensor that fails a check is suspect. -/
theorem State.judge_fails (hd : d < s.dies.length) :
    (s.judge d true).flag d Fd.THM_STATUS.SUSPECT = true ∧
    (s.flag d Fd.THM_STATUS.SUSPECT = false → (s.judge d true).stuckAt d Sk.THM.SUSPECT.page Sk.THM.SUSPECT.bit = true ∧
      (s.judge d true).rd d Fd.THM_COUNT.SUSPECTS = min (s.rd d Fd.THM_COUNT.SUSPECTS + 1) 0xFFFF) ∧
    (s.flag d Fd.THM_XCHK.SENS_FLT = true → 0x0C1 ∈ ((s.judge d true).die d).flt.present) ∧ s.Judging d 31 (s.judge d true) := by
  let v := (s.onThm d fun t => { t with agreeAt := none }).wrB d (statusBit 31) 0 true
  let w := v.when (!s.flag d (statusBit 31)) fun s => (s.sticky d Sk.THM.SUSPECT).bump d Fd.THM_COUNT.SUSPECTS 0 1
  have hj : s.judge d true = w.showSensor d := rfl
  have h0 : s.Judging d 31 (s.onThm d fun t => { t with agreeAt := none }) := .onThm hd fun _ _ => ⟨rfl, rfl⟩
  have hl0 := h0.length.symm ▸ hd
  have hv : s.Judging d 31 v := h0.trans (.wrBit (by decide))
  have hvl : d < v.dies.length := hv.length.symm ▸ hd
  have hvf : v.flag d (statusBit 31) = true := State.flag_wrBit hl0 (by decide)
  have hvc : v.rd d Fd.THM_COUNT.SUSPECTS = s.rd d Fd.THM_COUNT.SUSPECTS := by
    refine (State.rd_wr_ne _ _ _ _ _ _ _ _ (.inr (by rw [statusBit_key]; decide))).trans State.rd_onThm
  obtain ⟨hstuck, hcount, hkeep, hnote⟩ := State.noteSuspect_spec hvl
  have hw : w.flag d (statusBit 31) = true ∧ (s.flag d (statusBit 31) = false →
      w.stuckAt d Sk.THM.SUSPECT.page Sk.THM.SUSPECT.bit = true ∧
        w.rd d Fd.THM_COUNT.SUSPECTS = min (s.rd d Fd.THM_COUNT.SUSPECTS + 1) 0xFFFF) ∧ v.Judging d 31 w := by
    unfold w State.when
    split
    · rw [hvc] at hcount
      refine ⟨?_, fun _ => ⟨hstuck, hcount⟩, hnote⟩
      rw [State.flag_eq] at hvf ⊢
      rw [← hvf]
      exact congrArg (· != 0) hkeep
    · next hwas => exact ⟨hvf, fun hf => absurd (by rw [hf]; rfl) hwas, .refl ..⟩
  obtain ⟨hwf, hwn, hwv⟩ := hw
  obtain ⟨hrd, hst, hpres, hshow⟩ := State.showSensor_spec (hwv.length.symm ▸ hvl)
  rw [hj]
  refine ⟨?_, fun hf => ?_, fun hflt => hpres hwf ?_, hv.trans (hwv.trans hshow)⟩
  · rw [State.flag_eq, hrd]
    exact hwf
  · rw [hst, hrd]
    exact hwn hf
  · rw [State.flag_eq, (hv.trans hwv).rd_eq (not_sampleKeys (by decide) (by decide))]
    exact hflt

/-- Agreement for AGREE ms ends the suspicion. -/
theorem State.judge_agrees (hd : d < s.dies.length) :
    (s.flag d Fd.THM_STATUS.SUSPECT = false → (s.judge d false).flag d Fd.THM_STATUS.SUSPECT = false) ∧
    (s.flag d Fd.THM_STATUS.SUSPECT = true → (s.judge d false).flag d Fd.THM_STATUS.SUSPECT =
      !decide ((s.die d).thm.agreeAt.getD s.td0 + max 1 (s.rd d Fd.THM_XCHK.AGREE) * 800000 ≤ s.td0)) ∧
    s.Judging d 31 (s.judge d false) := by
  have honThm : ∀ f : Thm → Thm, (s.onThm d f).flag d Fd.THM_STATUS.SUSPECT = s.flag d Fd.THM_STATUS.SUSPECT := fun f => by
    rw [State.flag_eq, State.rd_onThm]
    rfl
  have hthm : ∀ a, s.Judging d 31 (s.onThm d fun t => { t with agreeAt := a }) := fun _ => .onThm hd fun _ _ => ⟨rfl, rfl⟩
  unfold State.judge
  extract_lets was at_
  simp only [Bool.false_eq_true, if_false]
  split
  · next hwas =>
    split
    · next hdone =>
      have hl := (hthm none).length.symm ▸ hd
      have hbit := Judging.wrBit (s := s.onThm d fun t => { t with agreeAt := none }) (d := d) (b := 31) (x := false) (by decide)
      refine ⟨fun h => absurd (hwas.symm.trans h) (by decide), fun _ => ?_, (hthm none).trans (hbit.trans (.lower (hbit.length.symm ▸ hl)))⟩
      rw [decide_eq_true hdone]
      refine Eq.trans ?_ (State.flag_wrBit (b := 31) (x := false) hl (by decide))
      unfold State.flag State.rd
      rw [State.cell_lower]
      rfl
    · next hwait =>
      refine ⟨fun h => absurd (hwas.symm.trans h) (by decide), fun _ => ?_, hthm _⟩
      rw [decide_eq_false hwait, honThm]
      exact hwas
  · next hwas => exact ⟨id, fun h => absurd h hwas, .refl ..⟩

/-! ### A level is evaluated (17 R463-R466) -/

/-- The reading at which level i is entered, the one below which it is left, and its dwell in ticks. -/
def State.lvlSet (s : State) (d i : Nat) : Int := 8 * (s.rd d (lvl Fd.THM_WARN.SET i) : Int)
def State.lvlLow (s : State) (d i : Nat) : Int := s.lvlSet d i - 8 * (s.rd d (lvl Fd.THM_WARN.HYS i) : Int)
def State.lvlDwell (s : State) (d i : Nat) : Nat := max 1 (s.rd d (lvl Fd.THM_WARN.DWELL i)) * 80000

/-- Since when readings have been at or above SET, and since when below, this sample counted. -/
def State.setRun (s : State) (d i : Nat) : Int := ((s.die d).thm.setAt.getD i none).getD s.td0
def State.relRun (s : State) (d i : Nat) : Int := ((s.die d).thm.relAt.getD i none).getD s.td0

/-- The runs of a level after a reading. -/
def State.countRuns (s : State) (d : Nat) (eff : Int) (i : Nat) : State :=
  let a := if s.lvlSet d i ≤ eff then some (s.setRun d i) else none
  let b := if eff < s.lvlLow d i then some (s.relRun d i) else none
  s.onThm d fun t => { t with setAt := t.setAt.set i a, relAt := t.relAt.set i b }

theorem State.level_eq {eff : Int} : s.level d eff i =
    if s.lvlSet d i ≤ eff then
      if !(s.countRuns d eff i).flag d (lvlBit i) && decide (s.setRun d i + s.lvlDwell d i ≤ s.td0) then (s.countRuns d eff i).enterLevel d i
      else s.countRuns d eff i
    else if eff < s.lvlLow d i then
      if (s.countRuns d eff i).flag d (lvlBit i) && decide (s.relRun d i + s.lvlDwell d i ≤ s.td0) then
        (s.countRuns d eff i).wrB d (lvlBit i) 0 false
      else s.countRuns d eff i
    else s.countRuns d eff i := by
  unfold State.level
  extract_lets set low dwell th a b v held
  have hv : s.countRuns d eff i = v := rfl
  rw [hv]
  by_cases hset : s.lvlSet d i ≤ eff
  · have ha : a = some (s.setRun d i) := if_pos hset
    rw [if_pos hset, ha]
    rfl
  · have ha : a = none := if_neg hset
    rw [if_neg hset, ha]
    by_cases hlow : eff < s.lvlLow d i
    · have hb : b = some (s.relRun d i) := if_pos hlow
      rw [if_pos hlow, hb]
      rfl
    · have hb : b = none := if_neg hlow
      rw [if_neg hlow, hb]

theorem State.Judging.countRuns {eff : Int} (hd : d < s.dies.length) : s.Judging d (28 + i) (s.countRuns d eff i) := by
  unfold State.countRuns
  refine State.Judging.onThm hd fun j hj => ?_
  have hij : i ≠ j := fun h => hj (by rw [h])
  simp [List.getD_eq_getElem?_getD, List.getElem?_set_ne hij]

theorem lvlBit_key (i : Nat) : (lvlBit i).key 0 = Fd.THM_STATUS.W.key 0 := rfl

/-- What the entry of a level does beside its bit and its sticky (17 R465, R466). -/
def State.tellLevel (s : State) (d i : Nat) : State :=
  match i with
  | 1 => s.bump d Fd.THM_COUNT.THROTTLES 0 1
  | 2 => s.raise d 0x0C0
  | _ => s

theorem State.tellLevel_spec (hd : d < s.dies.length) (hi : i < 3) :
    (s.tellLevel d i).flag d (lvlBit i) = s.flag d (lvlBit i) ∧ (i = 2 → 0x0C0 ∈ ((s.tellLevel d i).die d).flt.present) ∧
    s.Judging d (28 + i) (s.tellLevel d i) := by
  obtain rfl | rfl | rfl : i = 0 ∨ i = 1 ∨ i = 2 := by omega
  · exact ⟨rfl, nofun, .refl ..⟩
  · refine ⟨?_, nofun, .wr (.inr rfl) (by decide) (by decide) (fun h => absurd h (by decide)) fun _ _ => by decide⟩
    exact congrArg (· != 0) (State.rd_wr_ne _ _ _ _ _ _ _ _ (.inr (by decide)))
  · exact ⟨congrArg (· != 0) State.rd_raise, fun _ => State.mem_present_raise hd, .raise hd⟩

theorem State.enterLevel_spec (hd : d < s.dies.length) (hi : i < 3) :
    (s.enterLevel d i).flag d (lvlBit i) = true ∧ (s.enterLevel d i).stuckAt d 0xC (1 + i) = true ∧
    (i = 2 → 0x0C0 ∈ ((s.enterLevel d i).die d).flt.present) ∧ s.Judging d (28 + i) (s.enterLevel d i) := by
  let v := s.when (i != 0 && !s.throttled d) (·.throttleFrom d)
  let w := v.wrB d (lvlBit i) 0 true
  let x := w.stick d 0xC (1 + i)
  have hv : s.Judging d (28 + i) v := by
    unfold v State.when
    split
    · exact .throttleFrom hd
    · exact .refl ..
  have hvl : d < v.dies.length := hv.length.symm ▸ hd
  have hw : v.Judging d (28 + i) w := .wrBit (by omega)
  have hwl : d < w.dies.length := hw.length.symm ▸ hvl
  have hx : w.Judging d (28 + i) x := .stick hwl (by omega)
  have hflag : x.flag d (lvlBit i) = true := by
    have hbit : w.flag d (lvlBit i) = true := State.flag_wrBit hvl (by omega)
    rw [← hbit]
    exact congrArg (· != 0) (State.rd_stick_ne (.inr (by rw [lvlBit_key]; decide)))
  obtain ⟨hkeep, hpresent, htell⟩ := State.tellLevel_spec (hx.length.symm ▸ hwl) hi
  have he : s.enterLevel d i = x.tellLevel d i := rfl
  rw [he]
  exact ⟨hkeep.trans hflag, htell.stuck _ _ (State.stuckAt_stick_same _ _ _ _ hwl (by omega)), hpresent, hv.trans (hw.trans (hx.trans htell))⟩

/-- What level i does on an effective reading, from s to t. -/
def State.Decides (s : State) (d : Nat) (eff : Int) (i : Nat) (t : State) : Prop :=
  (s.lvlSet d i ≤ eff → s.setRun d i + s.lvlDwell d i ≤ s.td0 → t.flag d (lvlBit i) = true ∧
    (s.flag d (lvlBit i) = false → t.stuckAt d 0xC (1 + i) = true ∧ (i = 2 → 0x0C0 ∈ (t.die d).flt.present))) ∧
  (s.lvlSet d i ≤ eff → s.td0 < s.setRun d i + s.lvlDwell d i → t.flag d (lvlBit i) = s.flag d (lvlBit i)) ∧
  (s.lvlLow d i ≤ eff → eff < s.lvlSet d i → t.flag d (lvlBit i) = s.flag d (lvlBit i)) ∧
  (eff < s.lvlLow d i → t.flag d (lvlBit i) = (s.flag d (lvlBit i) && decide (s.td0 < s.relRun d i + s.lvlDwell d i)))

theorem State.lvlLow_le : s.lvlLow d i ≤ s.lvlSet d i := by
  unfold State.lvlLow
  omega

theorem State.flag_countRuns {eff : Int} : (s.countRuns d eff i).flag d (lvlBit i) = s.flag d (lvlBit i) := by
  rw [State.flag_eq]
  unfold State.countRuns
  rw [State.rd_onThm]
  rfl

theorem State.level_spec {eff : Int} (hd : d < s.dies.length) (hi : i < 3) :
    s.Decides d eff i (s.level d eff i) ∧ s.Judging d (28 + i) (s.level d eff i) := by
  have hruns := Judging.countRuns (i := i) (eff := eff) hd
  have hrl := hruns.length.symm ▸ hd
  obtain ⟨hflag, hstuck, hpresent, henter⟩ := State.enterLevel_spec hrl hi
  have hlow := s.lvlLow_le (d := d) (i := i)
  rw [State.level_eq, State.flag_countRuns]
  split
  · next hset =>
    split
    · next hgo =>
      simp only [Bool.and_eq_true, decide_eq_true_eq] at hgo
      exact ⟨⟨fun _ _ => ⟨hflag, fun _ => ⟨hstuck, hpresent⟩⟩, fun _ _ => by omega, fun _ _ => by omega, fun _ => by omega⟩,
        hruns.trans henter⟩
    · next hstay =>
      refine ⟨⟨fun _ hrun => ?_, fun _ _ => State.flag_countRuns, fun _ _ => State.flag_countRuns, fun _ => by omega⟩, hruns⟩
      have hon : s.flag d (lvlBit i) = true := by simpa [hrun] using hstay
      exact ⟨State.flag_countRuns.trans hon, fun hoff => by simp [hon] at hoff⟩
  · next hset =>
    split
    · next hbelow =>
      split
      · next hgo =>
        simp only [Bool.and_eq_true, decide_eq_true_eq] at hgo
        obtain ⟨hon, hrun⟩ := hgo
        refine ⟨⟨fun _ => by omega, fun _ => by omega, fun _ => by omega, fun _ => ?_⟩, hruns.trans (.wrBit (by omega))⟩
        rw [decide_eq_false (by omega), Bool.and_false]
        exact State.flag_wrBit hrl (by omega)
      · next hstay =>
        refine ⟨⟨fun _ => by omega, fun _ => by omega, fun _ => by omega, fun _ => ?_⟩, hruns⟩
        rw [State.flag_countRuns]
        cases hon : s.flag d (lvlBit i) with
        | false => rfl
        | true =>
          have hrun : ¬s.relRun d i + s.lvlDwell d i ≤ s.td0 := by simpa [hon] using hstay
          rw [decide_eq_true (by omega), Bool.and_true]
    · exact ⟨⟨fun _ => by omega, fun _ => by omega, fun _ _ => State.flag_countRuns, fun _ => by omega⟩, hruns⟩

/-- What a level decided stands while its bit does and its sticky and its source stay. -/
theorem State.Decides.stands {eff : Int} (h : s.Decides d eff i t) (hflag : u.flag d (lvlBit i) = t.flag d (lvlBit i))
    (hstuck : ∀ p c, t.stuckAt d p c = true → u.stuckAt d p c = true)
    (hpresent : ∀ k ∈ (t.die d).flt.present, k ∈ (u.die d).flt.present) : s.Decides d eff i u := by
  obtain ⟨habove, hearly, hbetween, hbelow⟩ := h
  refine ⟨fun h1 h2 => ?_, ?_, ?_, ?_⟩
  · obtain ⟨hon, hnew⟩ := habove h1 h2
    exact ⟨hflag.trans hon, fun hoff => ⟨hstuck _ _ (hnew hoff).1, fun h2 => hpresent _ ((hnew hoff).2 h2)⟩⟩
  all_goals
    rw [hflag]
    assumption

/-- Where another bit of the status is judged before or after it, level i decides alike. -/
theorem State.Judging.decides_right {eff : Int} {b : Nat} (h : t.Judging d b u) (hb : 28 + i ≠ b) (h31 : b ≠ 31)
    (k : s.Decides d eff i t) : s.Decides d eff i u :=
  k.stands (h.flag_eq hb) h.stuck fun _ => h.present _ (.inr h31)

theorem State.Judging.decides_left {eff : Int} {b : Nat} (h : s.Judging d b t) (hb : 28 + i ≠ b) (hi : i < 3)
    (k : t.Decides d eff i u) : s.Decides d eff i u := by
  have hflag : t.flag d (lvlBit i) = s.flag d (lvlBit i) := h.flag_eq hb
  have hrd : ∀ f : Fld, f.page = 0xC → f.base = 0x20 → f.stride = 1 → t.rd d (lvl f i) = s.rd d (lvl f i) := fun f hp hf hs =>
    h.rd_eq (not_sampleKeys (by unfold lvl Fld.key; dsimp only; omega) (by unfold lvl Fld.key; dsimp only; omega))
  have hset : t.lvlSet d i = s.lvlSet d i := by
    unfold State.lvlSet
    rw [hrd _ rfl rfl rfl]
  have hlow : t.lvlLow d i = s.lvlLow d i := by
    unfold State.lvlLow
    rw [hset, hrd _ rfl rfl rfl]
  have hdwell : t.lvlDwell d i = s.lvlDwell d i := by
    unfold State.lvlDwell
    rw [hrd _ rfl rfl rfl]
  obtain ⟨hsetAt, hrelAt⟩ := h.runs i hb
  have hrun : t.setRun d i = s.setRun d i := by
    unfold State.setRun
    rw [hsetAt, h.td0_eq]
  have hrel : t.relRun d i = s.relRun d i := by
    unfold State.relRun
    rw [hrelAt, h.td0_eq]
  unfold State.Decides at k
  rwa [hflag, hset, hlow, hdwell, hrun, hrel, h.td0_eq] at k

theorem State.Judging.onlyKeys {b : Nat} (h : s.Judging d b t) (hl : s.lstate d = 0) : s.OnlyKeys t d sampleKeys :=
  ⟨h.frame, h.length, h.others, h.cells, h.dram hl⟩

/-- What the three levels leave of what was judged before them, from s to t. -/
structure State.Levels (s : State) (d : Nat) (eff : Int) (t : State) : Prop where
  decides : ∀ i, i < 3 → s.Decides d eff i t
  part : t.part = s.part
  length : t.dies.length = s.dies.length
  stuck : ∀ p c, s.stuckAt d p c = true → t.stuckAt d p c = true
  present : ∀ k ∈ (s.die d).flt.present, k ∈ (t.die d).flt.present
  suspect : t.flag d Fd.THM_STATUS.SUSPECT = s.flag d Fd.THM_STATUS.SUSPECT
  suspects : t.rd d Fd.THM_COUNT.SUSPECTS = s.rd d Fd.THM_COUNT.SUSPECTS
  cells : ∀ key, ¬sampleKeys key → t.cell d key = s.cell d key
  frame : s.lstate d = 0 → s.OnlyKeys t d sampleKeys

theorem State.levels_spec {eff : Int} (hd : d < s.dies.length) :
    s.Levels d eff (((s.level d eff 0).level d eff 1).level d eff 2) := by
  obtain ⟨hdec0, h0⟩ := State.level_spec (eff := eff) (i := 0) hd (by decide)
  generalize s.level d eff 0 = v at *
  have hvl : d < v.dies.length := h0.length.symm ▸ hd
  obtain ⟨hdec1, h1⟩ := State.level_spec (eff := eff) (i := 1) hvl (by decide)
  generalize v.level d eff 1 = w at *
  have hwl : d < w.dies.length := h1.length.symm ▸ hvl
  obtain ⟨hdec2, h2⟩ := State.level_spec (eff := eff) (i := 2) hwl (by decide)
  generalize w.level d eff 2 = x at *
  refine ⟨fun i hi => ?_, by rw [h2.frame, h1.frame, h0.frame], h2.length.trans (h1.length.trans h0.length),
    fun p c h => h2.stuck _ _ (h1.stuck _ _ (h0.stuck _ _ h)),
    fun k hk => h2.present _ (.inr (by decide)) (h1.present _ (.inr (by decide)) (h0.present _ (.inr (by decide)) hk)),
    (h2.flag_eq (c := 31) (by decide)).trans ((h1.flag_eq (by decide)).trans (h0.flag_eq (by decide))),
    (h2.suspects (by decide)).trans ((h1.suspects (by decide)).trans (h0.suspects (by decide))),
    fun key hk => (h2.cells _ hk).trans ((h1.cells _ hk).trans (h0.cells _ hk)), fun hl => ?_⟩
  · obtain rfl | rfl | rfl : i = 0 ∨ i = 1 ∨ i = 2 := by omega
    · exact h2.decides_right (by decide) (by decide) (h1.decides_right (by decide) (by decide) hdec0)
    · exact h2.decides_right (by decide) (by decide) (h0.decides_left (by decide) hi hdec1)
    · exact h0.decides_left (by decide) hi (h1.decides_left (by decide) hi hdec2)
  · have hl1 := h0.lstate_eq.trans hl
    exact (h0.onlyKeys hl).trans ((h1.onlyKeys hl1).trans (h2.onlyKeys (h1.lstate_eq.trans hl1)))

/-! ### The sample (17 R459) -/

/-- A sample begins: what its rate check found is noted. -/
def State.beginSample (s : State) (d : Nat) (rate : Bool) : State :=
  (s.onThm d fun t => { t with sampled := some s.td0, wasSuspect := s.flag d Fd.THM_STATUS.SUSPECT }).when rate (·.sticky d Sk.THM.RATE)

theorem State.beginSample_spec {rate : Bool} (hd : d < s.dies.length) :
    (∀ f : Fld, f.key 0 ≠ hdrKey 12 0xC → f.key 0 ≠ hdrKey 12 0x10 → (s.beginSample d rate).rd d f = s.rd d f) ∧
    ((s.beginSample d rate).die d).thm.agreeAt = (s.die d).thm.agreeAt ∧ s.Judging d 31 (s.beginSample d rate) := by
  unfold State.beginSample
  obtain ⟨f, hf, hruns⟩ : ∃ f : Thm → Thm,
      f = (fun t => { t with sampled := some (s.td0 : Int), wasSuspect := s.flag d Fd.THM_STATUS.SUSPECT }) ∧
      ∀ x, (f x).agreeAt = x.agreeAt ∧ (f x).setAt = x.setAt ∧ (f x).relAt = x.relAt := ⟨_, rfl, fun _ => ⟨rfl, rfl, rfl⟩⟩
  rw [← hf]
  have hv : s.Judging d 31 (s.onThm d f) := .onThm hd fun j _ => by
    obtain ⟨-, hs, hr⟩ := hruns (s.die d).thm
    rw [hs, hr]
    exact ⟨rfl, rfl⟩
  have hagree : ((s.onThm d f).die d).thm.agreeAt = (s.die d).thm.agreeAt := by
    unfold State.onThm
    rw [State.die_onDie_same _ _ _ hd]
    exact (hruns _).1
  unfold State.when
  split
  · refine ⟨fun g h h' => (State.rd_stick_ne (.inr ⟨h, h'⟩)).trans State.rd_onThm, ?_, hv.trans (.stick (hv.length.symm ▸ hd) (by decide))⟩
    change (((s.onThm d f).stick d 12 0).die d).thm.agreeAt = _
    rw [State.stick_thm']
    exact hagree
  · exact ⟨fun g _ _ => State.rd_onThm, hagree, hv⟩

/-- What the sample's judgement of the sensor leaves, from s to t. -/
structure State.Judges (s : State) (d : Nat) (fails : Bool) (t : State) : Prop where
  failed : fails = true → t.flag d Fd.THM_STATUS.SUSPECT = true ∧
    (s.flag d Fd.THM_STATUS.SUSPECT = false → t.stuckAt d Sk.THM.SUSPECT.page Sk.THM.SUSPECT.bit = true ∧
      t.rd d Fd.THM_COUNT.SUSPECTS = min (s.rd d Fd.THM_COUNT.SUSPECTS + 1) 0xFFFF) ∧
    (s.flag d Fd.THM_XCHK.SENS_FLT = true → 0x0C1 ∈ (t.die d).flt.present)
  agreed : fails = false → (s.flag d Fd.THM_STATUS.SUSPECT = false → t.flag d Fd.THM_STATUS.SUSPECT = false) ∧
    (s.flag d Fd.THM_STATUS.SUSPECT = true → t.flag d Fd.THM_STATUS.SUSPECT =
      !decide ((s.die d).thm.agreeAt.getD s.td0 + max 1 (s.rd d Fd.THM_XCHK.AGREE) * 800000 ≤ s.td0))

theorem State.judges {fails rate : Bool} (hd : d < s.dies.length) :
    s.Judges d fails ((s.beginSample d rate).judge d fails) ∧ s.Judging d 31 ((s.beginSample d rate).judge d fails) := by
  obtain ⟨hrd, hagree, hbegin⟩ := State.beginSample_spec (rate := rate) hd
  have hflag : ∀ f : Fld, f.key 0 ≠ hdrKey 12 0xC → f.key 0 ≠ hdrKey 12 0x10 → (s.beginSample d rate).flag d f = s.flag d f :=
    fun f h h' => congrArg (· != 0) (hrd f h h')
  have htd := hbegin.td0_eq
  have hl := hbegin.length.symm ▸ hd
  generalize s.beginSample d rate = v at *
  cases fails with
  | true =>
    obtain ⟨hon, hnew, hflt, hkeeps⟩ := State.judge_fails hl
    rw [hflag _ (by decide) (by decide), hrd _ (by decide) (by decide)] at hnew
    rw [hflag _ (by decide) (by decide)] at hflt
    exact ⟨⟨fun _ => ⟨hon, hnew, hflt⟩, nofun⟩, hbegin.trans hkeeps⟩
  | false =>
    obtain ⟨hoff, hon, hkeeps⟩ := State.judge_agrees hl
    rw [hflag _ (by decide) (by decide)] at hoff
    rw [hflag _ (by decide) (by decide), hrd _ (by decide) (by decide), hagree, htd] at hon
    exact ⟨⟨nofun, fun _ => ⟨hoff, hon⟩⟩, hbegin.trans hkeeps⟩

theorem State.Judges.stands {fails : Bool} (h : s.Judges d fails t) (hflag : u.flag d Fd.THM_STATUS.SUSPECT = t.flag d Fd.THM_STATUS.SUSPECT)
    (hcount : u.rd d Fd.THM_COUNT.SUSPECTS = t.rd d Fd.THM_COUNT.SUSPECTS)
    (hstuck : ∀ p c, t.stuckAt d p c = true → u.stuckAt d p c = true)
    (hpresent : ∀ k ∈ (t.die d).flt.present, k ∈ (u.die d).flt.present) : s.Judges d fails u := by
  obtain ⟨hfailed, hagreed⟩ := h
  refine ⟨fun hf => ?_, fun hf => by rw [hflag]; exact hagreed hf⟩
  obtain ⟨hon, hnew, hflt⟩ := hfailed hf
  rw [hflag, hcount]
  exact ⟨hon, fun hoff => ⟨hstuck _ _ (hnew hoff).1, (hnew hoff).2⟩, fun he => hpresent _ (hflt he)⟩

/-- The effective reading of a sensor once it is judged (17 R462). -/
def State.effReading (s : State) (d : Nat) (warmest : Option Int) (raw : Int) : Int :=
  if s.flag d Fd.THM_STATUS.SUSPECT then
    match warmest with
    | some m => satS 16 (m + 8 * (s.rd d Fd.THM_XCHK.SUBST : Int))
    | none => 8 * (s.rd d Fd.THM_THR.SET : Int)
  else raw

theorem State.fits16_effReading {warmest : Option Int} {raw : Int} (h : Fits16 raw) : Fits16 (s.effReading d warmest raw) := by
  unfold State.effReading
  split
  · split
    · exact fits16_satS _
    · have : s.rd d Fd.THM_THR.SET < 256 := bitsOf_lt ..
      unfold Fits16
      omega
  · exact h

/-- The registers of a reading: READ, STATUS and PEAK. -/
def readingKeys (key : Nat) : Prop := key = Fd.THM_READ.W.key 0 ∨ key = Fd.THM_STATUS.W.key 0 ∨ key = Fd.THM_PEAK.W.key 0

/-- The readings of a sample show. -/
def State.showReadings (s : State) (d : Nat) (raw eff : Int) : State :=
  let s := ((s.wrS d Fd.THM_READ.RAW 0 raw).wrS d Fd.THM_READ.EFF 0 eff).wrS d Fd.THM_STATUS.EFF 0 eff
  s.wrS d Fd.THM_PEAK.PEAK 0 (max (s.rdS d Fd.THM_PEAK.PEAK) eff)

theorem State.showReadings_spec {raw eff : Int} (hd : d < s.dies.length) (hraw : Fits16 raw) (heff : Fits16 eff) :
    let t := s.showReadings d raw eff
    t.rdS d Fd.THM_READ.RAW = raw ∧ t.rdS d Fd.THM_READ.EFF = eff ∧ t.rdS d Fd.THM_STATUS.EFF = eff ∧
    t.rdS d Fd.THM_PEAK.PEAK = max (s.rdS d Fd.THM_PEAK.PEAK) eff ∧
    (∀ f : Fld, f.key 0 = Fd.THM_STATUS.W.key 0 → 15 < f.lo → t.rd d f = s.rd d f) ∧ (t.die d).flt = (s.die d).flt ∧
    s.OnlyKeys t d readingKeys := by
  let s1 := s.wrS d Fd.THM_READ.RAW 0 raw
  let s2 := s1.wrS d Fd.THM_READ.EFF 0 eff
  let s3 := s2.wrS d Fd.THM_STATUS.EFF 0 eff
  have h1 : s.OnlyKeys s1 d readingKeys := (State.OnlyKeys.refl ..).wr _ _ _ (.inl rfl)
  have h2 : s.OnlyKeys s2 d readingKeys := h1.wr _ _ _ (.inl rfl)
  have h3 : s.OnlyKeys s3 d readingKeys := h2.wr _ _ _ (.inr (.inl rfl))
  have hpeak : s3.rdS d Fd.THM_PEAK.PEAK = s.rdS d Fd.THM_PEAK.PEAK :=
    State.rdS_eq ((State.rd_wr_ne _ _ _ _ _ _ _ _ (.inr (by decide))).trans
      ((State.rd_wr_ne _ _ _ _ _ _ _ _ (.inr (by decide))).trans (State.rd_wr_ne _ _ _ _ _ _ _ _ (.inr (by decide)))))
  have hmax : Fits16 (max (s3.rdS d Fd.THM_PEAK.PEAK) eff) := by
    obtain ⟨hlo, hhi⟩ : Fits16 (s3.rdS d Fd.THM_PEAK.PEAK) := fits16_sx _
    obtain ⟨hlo', hhi'⟩ := heff
    exact ⟨le_max_of_le_right hlo', max_lt hhi hhi'⟩
  have ht : s.showReadings d raw eff = s3.wrS d Fd.THM_PEAK.PEAK 0 (max (s3.rdS d Fd.THM_PEAK.PEAK) eff) := rfl
  have hlast : ∀ f : Fld, f.key 0 ≠ Fd.THM_PEAK.W.key 0 → (s.showReadings d raw eff).rd d f = s3.rd d f :=
    fun f hf => State.rd_wr_ne _ _ _ _ _ _ _ _ (.inr hf)
  have hread : ∀ f : Fld, f.key 0 = Fd.THM_READ.W.key 0 → (s.showReadings d raw eff).rd d f = s2.rd d f := fun f hf =>
    (hlast f (by rw [hf]; decide)).trans (State.rd_wr_ne _ _ _ _ _ _ _ _ (.inr (by rw [hf]; decide)))
  refine ⟨?_, ?_, ?_, ?_, fun f hf hlo => ?_, ?_, ?_⟩
  · have hkeep : s2.rd d Fd.THM_READ.RAW = s1.rd d Fd.THM_READ.RAW :=
      State.rd_wr_bits _ _ _ _ _ _ _ _ rfl (by decide) (by decide) (by decide)
    rw [State.rdS_eq ((hread Fd.THM_READ.RAW rfl).trans hkeep)]
    exact State.rdS_wrS_same hd (by decide) rfl hraw
  · rw [State.rdS_eq (hread Fd.THM_READ.EFF rfl)]
    exact State.rdS_wrS_same (h1.length_eq.symm ▸ hd) (by decide) rfl heff
  · rw [State.rdS_eq (hlast Fd.THM_STATUS.EFF (by decide))]
    exact State.rdS_wrS_same (h2.length_eq.symm ▸ hd) (by decide) rfl heff
  · rw [ht, State.rdS_wrS_same (h3.length_eq.symm ▸ hd) (by decide) rfl hmax, hpeak]
  · refine (hlast f (by rw [hf]; decide)).trans ?_
    refine (State.rd_wr_bits (g := Fd.THM_STATUS.EFF) _ _ _ _ _ f _ hf (by decide) (by decide) (.inr hlo)).trans ?_
    exact (State.rd_wr_ne _ _ _ _ _ _ _ _ (.inr (by rw [hf]; decide))).trans (State.rd_wr_ne _ _ _ _ _ _ _ _ (.inr (by rw [hf]; decide)))
  · simp only [ht, s3, s2, s1, State.wrS_eq, State.wr_flt']
  · exact h3.wr _ _ _ (.inr (.inr rfl))

/-- The neighbours' readings show on a head; a node reports its own to its head (10 R289). -/
def State.showNeighbours (s : State) (d : Nat) (nb : Option Int × Option Int) (raw : Int) : State :=
  if s.isHead then
    (s.wrS d Fd.THM_NBR.MED 0 (match nb.1 with | some m => m / 2 | none => -32768)).wrS d Fd.THM_NBR.MAX 0 (nb.2.getD (-32768))
  else s.setNodeField 2 (BitVec.ofInt 16 raw)

theorem State.ctx_onDie {e n f : Nat} {g : Die → Die} (hg : ∀ x, (g x).cells = x.cells) : (s.onDie e g).ctx d n f = s.ctx d n f := by
  unfold State.ctx
  rw [State.cell_onDie _ _ _ _ _ hg]

/-- A field that a node keeps for its head takes a value. -/
theorem State.setNodeField_spec {f : Nat} {x : BitVec 16} (hl : 0 < s.dies.length) :
    (s.setNodeField f x).nodeField f = x ∧ ((s.setNodeField f x).die 0).flt = (s.die 0).flt ∧
    s.OnlyKeys (s.setNodeField f x) 0 (· = ctxKey 1 f) := by
  unfold State.setNodeField
  split
  · next h => exact ⟨h, rfl, .refl ..⟩
  · have hput : s.OnlyKeys (s.putCtx 0 1 f x) 0 (· = ctxKey 1 f) := (State.OnlyKeys.refl ..).putCell _ _ rfl
    refine ⟨?_, ?_, hput.onDie _ (fun _ => rfl) fun _ => rfl⟩
    · have hset : (s.putCtx 0 1 f x).ctx 0 1 f = x := by
        unfold State.ctx State.putCtx
        rw [State.cell_putCell_same _ _ _ _ hl]
        simp
      unfold State.nodeField
      rwa [State.ctx_onDie]
      intro
      rfl
    · rw [State.die_onDie_same _ _ _ (hput.length_eq.symm ▸ hl)]
      exact State.putCell_flt' ..

/-- An alive die of a node is its only one. -/
theorem State.eq_zero_of_alive (ha : s.alive d = true) (hh : s.isHead = false) : d = 0 := by
  have hd := State.lt_of_alive ha
  have hp : s.part = .kld1c := by
    unfold State.isHead at hh
    cases h : s.part
    · rfl
    all_goals
      rw [h] at hh
      cases hh
  rw [hp] at hd
  exact Nat.lt_one_iff.1 hd

/-- The register of the neighbours on a head, the field of the temperature on a node. -/
def neighbourKeys (head : Bool) (key : Nat) : Prop := key = Fd.THM_NBR.W.key 0 ∨ head = false ∧ key = ctxKey 1 2

theorem State.showNeighbours_spec {nb : Option Int × Option Int} {raw : Int} (hd : d < s.dies.length) (hn : s.isHead = false → d = 0) :
    ((s.showNeighbours d nb raw).die d).flt = (s.die d).flt ∧ s.OnlyKeys (s.showNeighbours d nb raw) d (neighbourKeys s.isHead) := by
  unfold State.showNeighbours
  split
  · refine ⟨?_, ((State.OnlyKeys.refl ..).wr _ _ _ (.inl rfl)).wr _ _ _ (.inl rfl)⟩
    simp only [State.wrS_eq, State.wr_flt']
  · next hh =>
    have hnode : s.isHead = false := by simpa using hh
    obtain rfl := hn hnode
    obtain ⟨-, hflt, hframe⟩ := State.setNodeField_spec (f := 2) (x := BitVec.ofInt 16 raw) hd
    exact ⟨hflt, hframe.mono fun key hk => .inr ⟨hnode, hk⟩⟩

theorem opTempSample_eq {raws : List Int} {raw : Int} {nb : Option Int × Option Int} (hraw : raw = satS 16 (raws.getD d 0))
    (hnb : nb = s.neighbours d raws) :
    ∃ f : Thm → Thm, ∀ fails, fails = s.sensorFails d raw nb.1 → ∀ v, v = (s.beginSample d fails.2).judge d fails.1 →
      ∀ eff, eff = v.effReading d nb.2 raw → opTempSample d raws s =
        (((((v.level d eff 0).level d eff 1).level d eff 2).onThm d f).showReadings d raw eff).showNeighbours d nb raw := by
  refine ⟨fun t => { t with raws := (raw :: t.raws).take 10 }, ?_⟩
  rintro _ rfl _ rfl _ rfl
  subst hraw hnb
  rfl

/-- What shows of a sample once it is judged, from s to t. -/
structure State.Shows (s : State) (d : Nat) (raw eff : Int) (t : State) : Prop where
  reading : t.rdS d Fd.THM_READ.RAW = raw
  effective : t.rdS d Fd.THM_READ.EFF = eff
  status : t.rdS d Fd.THM_STATUS.EFF = eff
  peak : t.rdS d Fd.THM_PEAK.PEAK = max (s.rdS d Fd.THM_PEAK.PEAK) eff
  bits : ∀ f : Fld, f.key 0 = Fd.THM_STATUS.W.key 0 → 15 < f.lo → t.rd d f = s.rd d f
  suspects : t.rd d Fd.THM_COUNT.SUSPECTS = s.rd d Fd.THM_COUNT.SUSPECTS
  stuck : ∀ p c, t.stuckAt d p c = s.stuckAt d p c
  flt : (t.die d).flt = (s.die d).flt
  frame : s.OnlyKeys t d fun key => pageKeys 12 key ∨ s.isHead = false ∧ key = ctxKey 1 2

theorem State.shows {f : Thm → Thm} {raw eff : Int} {nb : Option Int × Option Int} (hd : d < s.dies.length) (hn : s.isHead = false → d = 0)
    (hraw : Fits16 raw) (heff : Fits16 eff) : s.Shows d raw eff (((s.onThm d f).showReadings d raw eff).showNeighbours d nb raw) := by
  have hthm : s.OnlyKeys (s.onThm d f) d readingKeys := (State.OnlyKeys.refl ..).onDie _ (fun _ => rfl) fun _ => rfl
  have hflt : ((s.onThm d f).die d).flt = (s.die d).flt := by
    unfold State.onThm
    rw [State.die_onDie_same _ _ _ hd]
  obtain ⟨hr, he, hs, hp, hb, hf, hk⟩ := State.showReadings_spec (s := s.onThm d f) (hthm.length_eq.symm ▸ hd) hraw heff
  have hpeak : (s.onThm d f).rdS d Fd.THM_PEAK.PEAK = s.rdS d Fd.THM_PEAK.PEAK := State.rdS_eq State.rd_onThm
  have hread := hthm.trans hk
  generalize (s.onThm d f).showReadings d raw eff = v at *
  have hhead : v.isHead = s.isHead := by
    unfold State.isHead
    rw [hread.1]
  obtain ⟨hf', hk'⟩ := State.showNeighbours_spec (nb := nb) (raw := raw) (hread.length_eq.symm ▸ hd) (fun h => hn (hhead.symm.trans h))
  rw [hhead] at hk'
  have hother : ∀ key, key ≠ 0xC034 → key ≠ 0x20108 → ¬neighbourKeys s.isHead key := fun key h h' => by
    rintro (rfl | ⟨-, rfl⟩)
    · exact h rfl
    · exact h' rfl
  have hlast : ∀ g : Fld, g.key 0 ≠ 0xC034 → g.key 0 ≠ 0x20108 → (v.showNeighbours d nb raw).rd d g = v.rd d g :=
    fun g h h' => hk'.rd_eq (hother _ h h')
  have hreading : ∀ key, key ≠ 0xC030 → key ≠ 0xC008 → key ≠ 0xC038 → ¬readingKeys key := fun key h h' h'' => by
    rintro (rfl | rfl | rfl)
    · exact h rfl
    · exact h' rfl
    · exact h'' rfl
  refine ⟨?_, ?_, ?_, ?_, fun g hg hlo => ?_, ?_, fun p c => ?_, hf'.trans (hf.trans hflt), ?_⟩
  · rw [State.rdS_eq (hlast _ (by decide) (by decide)), hr]
  · rw [State.rdS_eq (hlast _ (by decide) (by decide)), he]
  · rw [State.rdS_eq (hlast _ (by decide) (by decide)), hs]
  · rw [State.rdS_eq (hlast _ (by decide) (by decide)), hp, hpeak]
  · rw [hlast g (by rw [hg]; decide) (by rw [hg]; decide), hb g hg hlo, State.rd_onThm]
  · rw [hlast _ (by decide) (by decide), hread.rd_eq (hreading _ (by decide) (by decide) (by decide))]
  · unfold State.stuckAt
    rw [hk'.cell_eq, hread.cell_eq]
    · refine hreading _ ?_ ?_ ?_ <;> unfold hdrKey <;> omega
    · refine hother _ ?_ ?_ <;> unfold hdrKey <;> omega
  · have hpage : ∀ key, readingKeys key → pageKeys 12 key := fun key h => by
      rcases h with rfl | rfl | rfl <;> rfl
    have hnbr : ∀ key, neighbourKeys s.isHead key → pageKeys 12 key ∨ s.isHead = false ∧ key = ctxKey 1 2 := fun key h =>
      h.imp_left fun h => by
        rw [h]
        rfl
    exact (hread.mono fun key h => .inl (hpage key h)).trans (hk'.mono hnbr)

theorem exec_tempSample {raws : List Int} (hs : s.sane = true) (ha : s.alive d = true) (ht : s.td0 % 80000 = 0) :
    exec (.tempSample d raws) s = .next (opTempSample d raws s) := by
  change s.guarded _ _ = _
  exact State.guarded_true _ _ _ hs (by simp [ha, ht])

theorem sampleKeys_page {key : Nat} (h : sampleKeys key) : pageKeys 12 key := by
  rcases h with (rfl | rfl) | rfl | rfl <;> rfl

/-- A sample as it is made: the sensor judged (`Judges`), the levels evaluated (`Levels`), the readings shown (`Shows`). -/
theorem tempSample_stages {raws : List Int} {raw : Int} {nb : Option Int × Option Int} (hd : d < s.dies.length) (hs : s.sane = true)
    (ha : s.alive d = true) (ht : s.td0 % 80000 = 0) (hraw : raw = satS 16 (raws.getD d 0)) (hnb : nb = s.neighbours d raws) :
    ∃ v w t, exec (.tempSample d raws) s = .next t ∧ s.Judges d (s.sensorFails d raw nb.1).1 v ∧ s.Judging d 31 v ∧
      v.Levels d (v.effReading d nb.2 raw) w ∧ w.Shows d raw (v.effReading d nb.2 raw) t := by
  obtain ⟨f, hf⟩ := opTempSample_eq (s := s) hraw hnb
  have hfits : Fits16 raw := hraw ▸ fits16_satS _
  obtain ⟨hv, hkeeps⟩ := State.judges (fails := (s.sensorFails d raw nb.1).1) (rate := (s.sensorFails d raw nb.1).2) hd
  have hop := hf _ rfl _ rfl _ rfl
  generalize (s.beginSample d (s.sensorFails d raw nb.1).2).judge d (s.sensorFails d raw nb.1).1 = v at *
  have hw := State.levels_spec (eff := v.effReading d nb.2 raw) (hkeeps.length.symm ▸ hd)
  refine ⟨v, _, _, (exec_tempSample hs ha ht).trans (congrArg _ hop), hv, hkeeps, hw,
    State.shows ?_ (fun hh => ?_) hfits (State.fits16_effReading hfits)⟩
  · exact hw.length.symm ▸ hkeeps.length.symm ▸ hd
  · refine State.eq_zero_of_alive ha ?_
    unfold State.isHead at hh ⊢
    rwa [hw.part, hkeeps.frame] at hh

/-- The registers of a sample: page THM, and on a node the temperature that it reports. -/
def thermalKeys (head : Bool) (key : Nat) : Prop := pageKeys 12 key ∨ head = false ∧ key = ctxKey 1 2

/-- The effective reading is known by the sensor's status after the sample. -/
theorem State.effReading_eq {warmest : Option Int} {raw : Int} (hkeeps : s.Judging d 31 t)
    (hflag : u.flag d Fd.THM_STATUS.SUSPECT = t.flag d Fd.THM_STATUS.SUSPECT) :
    t.effReading d warmest raw = if u.flag d Fd.THM_STATUS.SUSPECT then
      (match warmest with
        | some m => satS 16 (m + 8 * (s.rd d Fd.THM_XCHK.SUBST : Int))
        | none => 8 * (s.rd d Fd.THM_THR.SET : Int))
      else raw := by
  unfold State.effReading
  rw [hflag, hkeeps.rd_eq (not_sampleKeys (by decide) (by decide)), hkeeps.rd_eq (not_sampleKeys (by decide) (by decide))]

/-- A sample, from its stages (17 R459-R466). -/
theorem tempSample_spec {raws : List Int} {raw : Int} {nb : Option Int × Option Int} (hd : d < s.dies.length) (hs : s.sane = true)
    (ha : s.alive d = true) (ht : s.td0 % 80000 = 0) (hraw : raw = satS 16 (raws.getD d 0)) (hnb : nb = s.neighbours d raws) :
    Completes (.tempSample d raws) s fun t =>
      t.rdS d Fd.THM_READ.RAW = raw ∧ t.rdS d Fd.THM_READ.EFF = (if t.flag d Fd.THM_STATUS.SUSPECT then
        (match nb.2 with
          | some m => satS 16 (m + 8 * (s.rd d Fd.THM_XCHK.SUBST : Int))
          | none => 8 * (s.rd d Fd.THM_THR.SET : Int))
        else raw) ∧
      t.rdS d Fd.THM_STATUS.EFF = t.rdS d Fd.THM_READ.EFF ∧
      t.rdS d Fd.THM_PEAK.PEAK = max (s.rdS d Fd.THM_PEAK.PEAK) (t.rdS d Fd.THM_READ.EFF) ∧
      s.Judges d (s.sensorFails d raw nb.1).1 t ∧ (∀ i, i < 3 → s.Decides d (t.rdS d Fd.THM_READ.EFF) i t) ∧
      (0x0C0 ∈ (s.die d).flt.present → 0x0C0 ∈ (t.die d).flt.present) ∧
      (∀ key, ¬thermalKeys s.isHead key → t.cell d key = s.cell d key) ∧ (s.lstate d = 0 → s.OnlyKeys t d (thermalKeys s.isHead)) := by
  obtain ⟨v, w, t, he, hjudges, hkeeps, hlevels, hshows⟩ := tempSample_stages hd hs ha ht hraw hnb
  have hhead : w.isHead = s.isHead := by
    unfold State.isHead
    rw [hlevels.part, hkeeps.frame]
  have hbits : ∀ f : Fld, f.key 0 = Fd.THM_STATUS.W.key 0 → 15 < f.lo → t.flag d f = w.flag d f :=
    fun f hf hlo => congrArg (· != 0) (hshows.bits f hf hlo)
  have hflag : t.flag d Fd.THM_STATUS.SUSPECT = v.flag d Fd.THM_STATUS.SUSPECT :=
    (hbits Fd.THM_STATUS.SUSPECT rfl (by decide)).trans hlevels.suspect
  have hstuck : ∀ p c, w.stuckAt d p c = true → t.stuckAt d p c = true := fun p c h => (hshows.stuck p c).trans h
  have hpresent : ∀ k ∈ (w.die d).flt.present, k ∈ (t.die d).flt.present := fun k hk => hshows.flt.symm ▸ hk
  have hpeak : w.rdS d Fd.THM_PEAK.PEAK = s.rdS d Fd.THM_PEAK.PEAK := by
    have hk : ¬sampleKeys (Fd.THM_PEAK.PEAK.key 0) := not_sampleKeys (by decide) (by decide)
    refine State.rdS_eq ?_
    unfold State.rd
    rw [hlevels.cells _ hk, hkeeps.cells _ hk]
  have hframe : w.OnlyKeys t d (thermalKeys s.isHead) := hhead ▸ hshows.frame
  have hsample : ∀ key, sampleKeys key → thermalKeys s.isHead key := fun _ h => .inl (sampleKeys_page h)
  refine ⟨t, he, hshows.reading, hshows.effective.trans (State.effReading_eq hkeeps hflag), hshows.status.trans hshows.effective.symm, ?_,
    ?_, fun i hi => ?_, fun h => ?_, fun key hk => ?_, fun hl => ?_⟩
  · rw [hshows.peak, hpeak, hshows.effective]
  · exact hjudges.stands hflag (hshows.suspects.trans hlevels.suspects) (fun p c h => hstuck p c (hlevels.stuck p c h))
      fun k hk => hpresent k (hlevels.present k hk)
  · rw [hshows.effective]
    have hbit : t.flag d (lvlBit i) = w.flag d (lvlBit i) := hbits _ (lvlBit_key i) (by unfold lvlBit; dsimp only; omega)
    exact (hkeeps.decides_left (by omega) hi (hlevels.decides i hi)).stands hbit hstuck hpresent
  · exact hpresent _ (hlevels.present _ (hkeeps.present _ (.inl (by decide)) h))
  · have hk' : ¬sampleKeys key := fun h => hk (hsample key h)
    rw [hframe.cell_eq hk, hlevels.cells key hk', hkeeps.cells key hk']
  · exact ((hkeeps.onlyKeys hl).trans (hlevels.frame (hkeeps.lstate_eq.trans hl))).mono hsample |>.trans hframe

/-! ### NEIGHBOUR_WRITE (17 R461) -/

theorem State.OnlyKeys.onHead {f : RingHead → RingHead} (h : s.OnlyKeys t d P) : s.OnlyKeys (t.onHead d f) d P :=
  h.onDie _ (fun _ => rfl) fun _ => rfl

theorem State.head_onHead {f : RingHead → RingHead} (hd : d < s.dies.length) : (s.onHead d f).head d = f (s.head d) := by
  unfold State.onHead State.head
  rw [State.die_onDie_same _ _ _ hd]

theorem State.startRemote_spec (hd : d < s.dies.length) :
    ((s.startRemote d).head d).remotes = (s.head d).remotes ∧ s.OnlyKeys (s.startRemote d) d P := by
  unfold State.startRemote
  split
  · exact ⟨rfl, .refl ..⟩
  · unfold State.queueBc State.when
    split
    · exact ⟨by rw [State.head_onHead hd], (State.OnlyKeys.refl ..).onHead⟩
    · exact ⟨rfl, .refl ..⟩

/-- An access that its ring can make joins the queue. -/
theorem State.askRemote_spec {r : Remote} (hd : d < s.dies.length) (hm : s.ringMode d = 3) (hn : 1 ≤ r.n) (hn' : r.n ≤ s.nodes d)
    (hh : r.host = false) :
    ((s.askRemote d r).head d).remotes = (s.head d).remotes ++ [r] ∧ s.OnlyKeys (s.askRemote d r) d P := by
  have hno : ¬((s.ringMode d != 3 || decide (r.n = 0) || decide (s.nodes d < r.n)) = true) := by
    simp [hm]
    omega
  have happ : s.OnlyKeys (s.onHead d fun h => { h with remotes := h.remotes ++ [r] }) d P := (State.OnlyKeys.refl ..).onHead
  have hq : ((s.onHead d fun h => { h with remotes := h.remotes ++ [r] }).head d).remotes = (s.head d).remotes ++ [r] := by
    rw [State.head_onHead hd]
  unfold State.askRemote
  rw [if_neg hno, hh]
  generalize (s.onHead d fun h => { h with remotes := h.remotes ++ [r] }) = v at *
  change ((v.when _ (·.startRemote d)).head d).remotes = _ ∧ s.OnlyKeys (v.when _ (·.startRemote d)) d P
  unfold State.when
  split
  · obtain ⟨hremotes, hstart⟩ := State.startRemote_spec (P := P) (happ.length_eq.symm ▸ hd)
    exact ⟨hremotes.trans hq, happ.trans hstart⟩
  · exact ⟨hq, happ⟩

/-- The word of THM_NBR made of the neighbours' readings: their median and their maximum. -/
def nbrWord (l : List Int) : Word :=
  match l with
  | [] => 0x80008000#32
  | [a] => BitVec.ofNat 32 (ux 16 a * 65536 + ux 16 a)
  | a :: b :: _ => BitVec.ofNat 32 (ux 16 (max a b) * 65536 + ux 16 ((a + b) / 2))

/-- The neighbours of a waystation whose readings count. -/
def State.ringNeighbours (s : State) (d n : Nat) : List Nat := [n - 1, n + 1].filter fun k => k != n && s.reachable d k

/-- What the head writes to a waystation's THM_NBR. -/
def State.nbrData (s : State) (d n : Nat) : Word := nbrWord ((s.ringNeighbours d n).map fun k => (s.ctx d k 2).toInt)

theorem opNeighbour_eq {n : Nat} : opNeighbour d n s =
    (s.askRemote d ⟨n, true, nodeAddr Fd.THM_NBR.W, s.nbrData d n, false, none⟩).onHead d
      fun h => { h with nbrSent := (n, s.td0) :: h.nbrSent.filter fun e => e.1 != n } := by
  rfl

theorem ux16_toInt (x : BitVec 16) : ux 16 x.toInt = x.toNat := by
  unfold ux
  rw [BitVec.toInt_eq_toNat_bmod]
  have := x.isLt
  simp [Int.bmod]
  split <;> omega

theorem nbrWord_one (x : BitVec 16) : nbrWord [x.toInt] = x ++ x := by
  apply BitVec.eq_of_toNat_eq
  have hx := x.isLt
  change (BitVec.ofNat 32 (ux 16 x.toInt * 65536 + ux 16 x.toInt)).toNat = _
  rw [ux16_toInt, BitVec.toNat_ofNat, BitVec.toNat_append, Nat.shiftLeft_eq, Nat.mod_eq_of_lt (by omega)]
  rw [← Nat.shiftLeft_eq, ← Nat.shiftLeft_add_eq_or_of_lt hx, Nat.shiftLeft_eq]

theorem ux16_lt (v : Int) : ux 16 v < 65536 := by
  unfold ux
  omega

theorem nbrWord_two (a b : Int) : (nbrWord [a, b]).toNat = ux 16 (max a b) * 65536 + ux 16 ((a + b) / 2) := by
  have h1 := ux16_lt (max a b)
  have h2 := ux16_lt ((a + b) / 2)
  refine (BitVec.toNat_ofNat ..).trans (Nat.mod_eq_of_lt ?_)
  omega

theorem State.not_reachable_zero : s.reachable d 0 = false := rfl

theorem State.ringNeighbours_eq {n : Nat} (hn : 1 ≤ n) : s.ringNeighbours d n =
    (if s.reachable d (n - 1) = true then [n - 1] else []) ++ if s.reachable d (n + 1) = true then [n + 1] else [] := by
  have h1 : (n - 1 != n) = true := by simp; omega
  have h2 : (n + 1 != n) = true := by simp
  unfold State.ringNeighbours
  rw [List.filter_cons, List.filter_cons, List.filter_nil, h1, h2, Bool.true_and, Bool.true_and]
  split <;> split <;> rfl

theorem State.nbrData_spec {n : Nat} (hn : 1 ≤ n) :
    (s.reachable d (n - 1) = false → s.reachable d (n + 1) = false → s.nbrData d n = 0x80008000#32) ∧
    (∀ k, (k = n - 1 ∧ k ≠ n ∧ s.reachable d (n + 1) = false) ∨ (k = n + 1 ∧ (n = 1 ∨ s.reachable d (n - 1) = false)) →
      s.reachable d k = true → s.nbrData d n = s.ctx d k 2 ++ s.ctx d k 2) ∧
    (2 ≤ n → s.reachable d (n - 1) = true → s.reachable d (n + 1) = true → (s.nbrData d n).toNat =
      ux 16 (max (s.ctx d (n - 1) 2).toInt (s.ctx d (n + 1) 2).toInt) * 65536 +
        ux 16 (((s.ctx d (n - 1) 2).toInt + (s.ctx d (n + 1) 2).toInt) / 2)) := by
  unfold State.nbrData
  rw [State.ringNeighbours_eq hn]
  refine ⟨fun h1 h2 => ?_, fun k hk hr => ?_, fun _ h1 h2 => ?_⟩
  · rw [h1, h2]
    rfl
  · rcases hk with ⟨rfl, -, h2⟩ | ⟨rfl, h1⟩
    · rw [hr, h2]
      exact nbrWord_one _
    · have h1 : s.reachable d (n - 1) = false := by
        rcases h1 with rfl | h1
        · exact State.not_reachable_zero
        · exact h1
      rw [hr, h1]
      exact nbrWord_one _
  · rw [h1, h2]
    exact nbrWord_two _ _

theorem exec_neighbourWrite {n : Nat} (hs : s.sane = true) (hh : s.isHead = true) (ho : s.on d 7 = true) (hm : s.ringMode d = 3)
    (hn : 1 ≤ n) (hn' : n ≤ s.nodes d) (hdue : s.nbrDue d n = true) : exec (.neighbourWrite d n) s = .next (opNeighbour d n s) := by
  change s.guarded _ _ = _
  exact State.guarded_true _ _ _ hs (by simp [hh, ho, hm, hn, hn', hdue])

theorem neighbourWrite_spec {n : Nat} (hd : d < s.dies.length) (hs : s.sane = true) (hh : s.isHead = true) (ho : s.on d 7 = true)
    (hm : s.ringMode d = 3) (hn : 1 ≤ n) (hn' : n ≤ s.nodes d) (hdue : s.nbrDue d n = true) :
    Completes (.neighbourWrite d n) s fun t =>
      (∃ w, (t.head d).remotes = (s.head d).remotes ++ [⟨n, true, nodeAddr Fd.THM_NBR.W, w, false, none⟩] ∧
        (s.reachable d (n - 1) = false → s.reachable d (n + 1) = false → w = 0x80008000#32) ∧
        (∀ k, (k = n - 1 ∧ k ≠ n ∧ s.reachable d (n + 1) = false) ∨ (k = n + 1 ∧ (n = 1 ∨ s.reachable d (n - 1) = false)) →
          s.reachable d k = true → w = s.ctx d k 2 ++ s.ctx d k 2) ∧
        (2 ≤ n → s.reachable d (n - 1) = true → s.reachable d (n + 1) = true → w.toNat =
          ux 16 (max (s.ctx d (n - 1) 2).toInt (s.ctx d (n + 1) 2).toInt) * 65536 +
            ux 16 (((s.ctx d (n - 1) 2).toInt + (s.ctx d (n + 1) 2).toInt) / 2))) ∧
      t.nbrDue d n = false ∧ s.OnlyKeys t d fun _ => False := by
  refine ⟨_, (exec_neighbourWrite hs hh ho hm hn hn' hdue).trans (congrArg _ opNeighbour_eq), ?_⟩
  obtain ⟨hremotes, hframe⟩ := State.askRemote_spec (P := fun _ => False)
    (r := ⟨n, true, nodeAddr Fd.THM_NBR.W, s.nbrData d n, false, none⟩) hd hm hn hn' rfl
  have hl := hframe.length_eq.symm ▸ hd
  have htd := hframe.td0_eq
  generalize s.askRemote d _ = v at *
  refine ⟨⟨_, ?_, State.nbrData_spec hn⟩, ?_, hframe.onHead⟩
  · rw [State.head_onHead hl]
    exact hremotes
  · unfold State.nbrDue
    rw [State.head_onHead hl]
    simp only [List.find?_cons, beq_self_eq_true]
    rw [decide_eq_false]
    change ¬s.td0 + 8000000 ≤ v.td0
    omega

/-! ### PAGE_POWER_UPDATE (02 R53, 22 R547) -/

/-- PAGE_POWER of each page. -/
def powerKeys (key : Nat) : Prop := ∃ p, p < 17 ∧ key = hdrKey p 0x18

theorem powerKeys_hdr {p : Nat} (hp : p < 17) : powerKeys (hdrKey p 0x18) := ⟨p, hp, rfl⟩

theorem powerRange_le (head : Bool) (d p : Nat) : (powerRange head d p).1 ≤ (powerRange head d p).2 ∧ (powerRange head d p).2 ≤ 630 := by
  unfold powerRange
  dsimp only
  generalize (head && decide (d < 2)) = pair
  split <;> cases head <;> cases pair <;> decide

/-- An estimate shows on a page of s in t. -/
def State.DrawShown (s : State) (d p : Nat) (t : State) : Prop :=
  if s.drawsNothing d p then t.cell d (hdrKey p 0x18) = 0
  else (powerRange s.isHead d p).1 ≤ (t.cell d (hdrKey p 0x18)).toNat ∧ (t.cell d (hdrKey p 0x18)).toNat ≤ (powerRange s.isHead d p).2

/-- What a page draws depends on no estimate. -/
theorem State.drawsNothing_putCell {key p : Nat} {w : Word} (hk : powerKeys key) :
    (s.putCell d key w).drawsNothing d p = s.drawsNothing d p := by
  obtain ⟨q, -, rfl⟩ := hk
  have hcell : ∀ k, k % 0x1000 ≠ 0x18 → (s.putCell d (hdrKey q 0x18) w).cell d k = s.cell d k := fun k h =>
    State.cell_putCell_ne _ _ _ _ _ _ (.inr (by unfold hdrKey; omega))
  have hrd : ∀ f : Fld, f.key 0 % 0x1000 ≠ 0x18 → (s.putCell d (hdrKey q 0x18) w).rd d f = s.rd d f := fun f h => by
    unfold State.rd
    rw [hcell _ h]
  have hen : ∀ page, (s.putCell d (hdrKey q 0x18) w).blockEn d page = s.blockEn d page := fun page => by
    unfold State.blockEn
    rw [hcell _ (by unfold hdrKey; omega)]
  have hhead : (s.putCell d (hdrKey q 0x18) w).isHead = s.isHead := rfl
  unfold State.drawsNothing State.ringMode State.epRole State.on
  rw [hen, hen, hhead, State.alive_putCell, hrd _ (by decide), hrd _ (by decide), hrd _ (by decide)]

theorem State.powerPage_spec {p : Nat} (hd : d < s.dies.length) (hp : p < 17) :
    s.DrawShown d p (s.powerPage d p) ∧ (∀ q, (s.powerPage d p).drawsNothing d q = s.drawsNothing d q) ∧
    s.OnlyKeys (s.powerPage d p) d (· = hdrKey p 0x18) := by
  obtain ⟨hle, hmax⟩ := powerRange_le s.isHead d p
  unfold State.DrawShown State.powerPage
  extract_lets r x
  have hr : r = powerRange s.isHead d p := rfl
  split
  · exact ⟨State.cell_putCell_same _ _ _ _ hd, fun q => State.drawsNothing_putCell (powerKeys_hdr hp), (State.OnlyKeys.refl ..).putCell _ _ rfl⟩
  · rw [← hr] at hle hmax ⊢
    have hx : x.1 % (r.2 - r.1 + 1) < r.2 - r.1 + 1 := Nat.mod_lt _ (by omega)
    refine ⟨?_, fun q => State.drawsNothing_putCell (s := x.2) (powerKeys_hdr hp), (State.OnlyKeys.refl ..).freeN.putCell _ _ rfl⟩
    rw [State.cell_putCell_same x.2 _ _ _ hd, BitVec.toNat_ofNat, Nat.mod_eq_of_lt (by omega)]
    omega

theorem State.powerPages_spec (hd : d < s.dies.length) :
    let t := s.each (List.range 17) fun s p => s.powerPage d p
    (∀ p, p < 17 → s.DrawShown d p t) ∧ s.OnlyKeys t d powerKeys := by
  have hstart : s.OnlyKeys s d powerKeys ∧ ∀ q, s.drawsNothing d q = s.drawsNothing d q := ⟨.refl .., fun _ => rfl⟩
  have hkeep : ∀ v, ∀ p ∈ List.range 17, (s.OnlyKeys v d powerKeys ∧ ∀ q, v.drawsNothing d q = s.drawsNothing d q) →
      s.OnlyKeys (v.powerPage d p) d powerKeys ∧ ∀ q, (v.powerPage d p).drawsNothing d q = s.drawsNothing d q := fun v p hp ⟨hv, hq⟩ => by
    obtain ⟨-, hdraws, hframe⟩ := State.powerPage_spec (hv.length_eq.symm ▸ hd) (List.mem_range.1 hp)
    exact ⟨hv.trans (hframe.mono fun key hk => ⟨p, List.mem_range.1 hp, hk⟩), fun q => (hdraws q).trans (hq q)⟩
  refine ⟨fun p hp => ?_, (State.each_keeps_mem hstart hkeep).1⟩
  have hbring : ∀ v, (s.OnlyKeys v d powerKeys ∧ ∀ q, v.drawsNothing d q = s.drawsNothing d q) → s.DrawShown d p (v.powerPage d p) :=
    fun v ⟨hv, hq⟩ => by
      have hhead : v.isHead = s.isHead := by
        unfold State.isHead
        rw [hv.1]
      have h := (State.powerPage_spec (hv.length_eq.symm ▸ hd) hp).1
      unfold State.DrawShown at h ⊢
      rwa [hq, hhead] at h
  refine State.each_brings_mem (Q := fun v => s.DrawShown d p v) (List.mem_range.2 hp) hstart hkeep hbring fun v q hq hv hshown => ?_
  by_cases hpq : p = q
  · exact hpq ▸ hbring v hv
  · obtain ⟨-, -, hframe⟩ := State.powerPage_spec (hv.1.length_eq.symm ▸ hd) (List.mem_range.1 hq)
    unfold State.DrawShown
    rwa [hframe.cell_eq (by unfold hdrKey; omega)]

theorem exec_pagePowerUpdate (hs : s.sane = true) (ha : s.alive d = true) : exec (.pagePowerUpdate d) s = .next (opPower d s) := by
  change s.guarded _ _ = _
  exact State.guarded_true _ _ _ hs ha

theorem pagePowerUpdate_spec (hd : d < s.dies.length) (hs : s.sane = true) (ha : s.alive d = true) :
    Completes (.pagePowerUpdate d) s fun t => (∀ p, p < 17 → s.DrawShown d p t) ∧
      (s.isHead = false → t.nodeField 1 = BitVec.ofNat 16 (t.powerSum 0)) ∧
      s.OnlyKeys t d fun key => powerKeys key ∨ s.isHead = false ∧ key = ctxKey 1 1 := by
  refine ⟨_, exec_pagePowerUpdate hs ha, ?_⟩
  obtain ⟨hshown, hframe⟩ := State.powerPages_spec hd
  have hall := hframe.mono (Q := fun key => powerKeys key ∨ s.isHead = false ∧ key = ctxKey 1 1) fun _ hk => .inl hk
  unfold opPower
  dsimp only
  generalize (s.each (List.range 17) fun s p => s.powerPage d p) = v at *
  have hhead : v.isHead = s.isHead := by
    unfold State.isHead
    rw [hframe.1]
  rw [hhead]
  split
  · next hh => exact ⟨hshown, fun hn => absurd (hh.symm.trans hn) (by decide), hall⟩
  · next hh =>
    have hnode : s.isHead = false := by simpa using hh
    obtain rfl := State.eq_zero_of_alive ha hnode
    obtain ⟨hfield, -, hk⟩ := State.setNodeField_spec (f := 1) (x := BitVec.ofNat 16 (v.powerSum 0)) (hframe.length_eq.symm ▸ hd)
    have hcell : ∀ p, p < 17 → (v.setNodeField 1 (BitVec.ofNat 16 (v.powerSum 0))).cell 0 (hdrKey p 0x18) = v.cell 0 (hdrKey p 0x18) :=
      fun p hp => hk.cell_eq (by unfold hdrKey ctxKey; omega)
    have hsum : (v.setNodeField 1 (BitVec.ofNat 16 (v.powerSum 0))).powerSum 0 = v.powerSum 0 := by
      unfold State.powerSum
      exact congrArg List.sum (List.map_congr_left fun p hp => congrArg BitVec.toNat (hcell p (List.mem_range.1 hp)))
    refine ⟨fun p hp => ?_, fun _ => ?_, hall.trans (hk.mono fun key h => .inr ⟨hnode, h⟩)⟩
    · have h := hshown p hp
      unfold State.DrawShown at h ⊢
      rwa [hcell p hp]
    · rw [hsum]
      exact hfield

end Sys2Proof.Machine

/-- Settles O53: a sample judges the sensor, evaluates the three levels in turn and shows its readings, each stage known by what it keeps;
THM_NBR is asked for from the neighbours that answer, and every page's estimate is its own. -/
theorem thermalAndPower : Obligations.thermal_and_power := by
  refine ⟨fun s d raws raw nb hz hs ha ht hraw hnb => ?_, fun s d raws hs ht => ?_, fun s d n hsh hs hh ho hm hn hn' hdue => ?_,
    fun s d n hs hdue => ?_, fun s d hsh hs ha => ?_⟩
  · have hsh : s.shaped = true := by
      unfold State.sized at hz
      simp only [Bool.and_eq_true] at hz
      exact hz.1.1
    obtain ⟨t, he, hread, heff, hstatus, hpeak, ⟨hfailed, hagreed⟩, hlevels, hshut, hcells, hframe⟩ :=
      tempSample_spec (State.lt_length hsh ha) hs ha ht hraw hnb
    exact ⟨t, he, hread, heff, hstatus, hpeak, hfailed, hagreed, hlevels, hshut, hcells, hframe⟩
  · change s.guarded _ _ = _
    exact State.guarded_false _ _ _ hs (by simp [ht])
  · exact neighbourWrite_spec (State.lt_length hsh (State.alive_of_on ho)) hs hh ho hm hn hn' hdue
  · change s.guarded _ _ = _
    exact State.guarded_false _ _ _ hs (by simp [hdue])
  · exact pagePowerUpdate_spec (State.lt_length hsh ha) hs ha

end

section
open Sys2Proof Sys2Proof.Machine

/-! ## Angle domains: register changes, mirror records, slews, snapshots -/

namespace Sys2Proof.Machine
variable {s t : State} {d e i k n : Nat}

/-! ### Elements of a table, and the domains of a die -/

/-- An element of a table after one element is changed. -/
theorem getD_setAt {α : Type} (l : List α) (i k : Nat) (f : α → α) (z : α) :
    (setAt l i f).getD k z = if k = i ∧ i < l.length then f (l.getD k z) else l.getD k z := by
  unfold setAt
  simp only [List.getD_eq_getElem?_getD, List.getElem?_modify]
  by_cases hk : i = k
  · subst hk
    by_cases hl : i < l.length
    · simp [hl]
    · simp [hl]
  · simp [hk, Ne.symm hk]

theorem State.dom_onDom_same {f : Domain → Domain} (hd : d < s.dies.length) (hi : i < (s.die d).ang.dom.length) :
    (s.onDom d i f).dom d i = f (s.dom d i) := by
  unfold State.dom State.onDom
  rw [State.die_onDie_same _ _ _ hd]
  exact (getD_setAt ..).trans (if_pos ⟨rfl, hi⟩)

theorem State.dom_onDom_ne {f : Domain → Domain} (h : e ≠ d ∨ k ≠ i) : (s.onDom d i f).dom e k = s.dom e k := by
  unfold State.dom State.onDom
  rw [State.die_onDie]
  split
  · next he => exact (getD_setAt ..).trans (if_neg fun hk => h.elim (· he.1) (· hk.1))
  · rfl

/-- A change of a domain leaves whether a domain is there. -/
theorem State.domLength_onDom {f : Domain → Domain} : ((s.onDom d i f).die e).ang.dom.length = (s.die e).ang.dom.length := by
  unfold State.onDom
  rw [State.die_onDie]
  split
  · exact List.length_modify ..
  · rfl

theorem State.anchors_onDom {f : Domain → Domain} : ((s.onDom d i f).die e).ang.anchors = (s.die e).ang.anchors := by
  unfold State.onDom
  rw [State.die_onDie]
  split <;> rfl

theorem State.cell_onDom {key : Nat} {f : Domain → Domain} : (s.onDom d i f).cell e key = s.cell e key :=
  State.cell_onDie _ _ _ _ _ fun _ => rfl

/-! ### What depends on the registers alone -/

theorem State.rd_congr {f : Fld} {j : Nat} (h : ∀ key, t.cell e key = s.cell e key) : t.rd e f j = s.rd e f j := by
  unfold State.rd
  rw [h]

theorem State.trackOut_congr (h : ∀ key, t.cell d key = s.cell d key) : t.trackOut d i = s.trackOut d i := by
  unfold State.trackOut
  simp only [State.rd_congr h]

theorem State.anchorRegs_congr (h : ∀ key, t.cell d key = s.cell d key) : t.anchorRegs d i = s.anchorRegs d i := by
  unfold State.anchorRegs
  simp only [State.rd_congr h]

theorem State.domConfig_congr (h : ∀ key, t.cell d key = s.cell d key) (ha : (t.die d).ang.anchors = (s.die d).ang.anchors) :
    t.domConfig d i = s.domConfig d i := by
  unfold State.domConfig
  simp only [State.rd_congr h, ha]

/-! ### A change of a domain is submitted, held or left to the next tick (03 R79, R82, R83) -/

variable {u : DomUpd} {ts : Nat}

theorem State.submitDom_held (h : s.inFlight i = true ∨ ts < (s.dom 0 i).nextOk) :
    s.submitDom i u ts = s.onDom 0 i fun x => { x with held := some (DomUpd.over x.held u) } :=
  if_pos (by simpa using h)

theorem State.submitDom_sent (h : ¬(s.inFlight i = true ∨ ts < (s.dom 0 i).nextOk)) :
    s.submitDom i u ts = { s.onDom 0 i fun x => { x with nextOk := ts + 128, held := none } with
      mirrors := s.mirrors ++ [⟨i, ts + 128, u, []⟩] } :=
  if_neg (by simpa using h)

theorem State.changeDom_head (h : s.isHead = true) : s.changeDom i u ts = s.submitDom i u ts := if_pos h

/-- On a node a change due later waits for its tick. -/
theorem State.changeDom_node (h : s.isHead = false) (ht : s.td0 < ts) :
    s.changeDom i u ts = { s with mirrors := s.mirrors ++ [⟨i, ts, u, []⟩] } := by
  unfold State.changeDom
  rw [if_neg (by simp [h]), if_pos ht]

/-- However a change is made, it leaves the registers and the anchors. -/
theorem State.changeDom_leaves : (∀ e key, (s.changeDom i u ts).cell e key = s.cell e key) ∧
    ∀ e, ((s.changeDom i u ts).die e).ang.anchors = (s.die e).ang.anchors := by
  unfold State.changeDom
  split
  · by_cases h : s.inFlight i = true ∨ ts < (s.dom 0 i).nextOk
    · rw [State.submitDom_held h]
      exact ⟨fun _ _ => State.cell_onDom, fun _ => State.anchors_onDom⟩
    · rw [State.submitDom_sent h]
      exact ⟨fun _ _ => State.cell_onDom, fun _ => State.anchors_onDom (s := s)⟩
  · split
    · exact ⟨fun _ _ => rfl, fun _ => rfl⟩
    · exact ⟨fun _ _ => State.cell_onDom, fun _ => State.anchors_onDom⟩

/-- A configuration takes the place of whatever is held (03 R83). -/
theorem DomUpd.over_domConfig (old : Option DomUpd) : DomUpd.over old (s.domConfig d i) = s.domConfig d i := by
  unfold State.domConfig
  cases old with
  | none => rfl
  | some x => cases x <;> rfl

/-! ### DOMAIN_CHANGE (03 R79, R81, R102) -/

/-- A domain of die 0 takes the anchor that its registers hold. -/
def State.takeAnchor (s : State) (i : Nat) : State :=
  s.onDie 0 fun x => { x with ang := { x.ang with anchors := setAt x.ang.anchors i fun _ => s.anchorRegs 0 i } }

theorem State.cell_takeAnchor {key : Nat} : (s.takeAnchor i).cell e key = s.cell e key :=
  State.cell_onDie _ _ _ _ _ fun _ => rfl

theorem State.domains_takeAnchor : ((s.takeAnchor i).die e).ang.dom = (s.die e).ang.dom := by
  unfold State.takeAnchor
  rw [State.die_onDie]
  split <;> rfl

theorem State.anchor_takeAnchor (hd : 0 < s.dies.length) (hi : i < (s.die 0).ang.anchors.length) :
    ((s.takeAnchor i).die 0).ang.anchors.getD i (0, 0) = s.anchorRegs 0 i := by
  unfold State.takeAnchor
  rw [State.die_onDie_same _ _ _ hd]
  exact (getD_setAt ..).trans (if_pos ⟨rfl, hi⟩)

/-- A register of a domain of die 0 takes a word; with the last word of the anchor, the domain takes the anchor. -/
def State.storeDomReg (s : State) (i : Nat) (reg : AdReg) (v : Word) : State :=
  (s.putCell 0 ((adRegFld reg).key i) v).when (reg == .anchorCyc) fun s => s.takeAnchor i

theorem opDomainChange_zero (i : Nat) (reg : AdReg) (value : Word) (s : State) :
    opDomainChange 0 i reg value s = (s.storeDomReg i reg (value &&& adRegMask reg)).when
      (s.changes79 i reg (value &&& adRegMask reg)) fun s => s.changeDom i (s.domConfig 0 i) (s.td0 + 1) := rfl

section StoreDomReg
variable {reg : AdReg} {v : Word}

/-- What the store leaves of the package: all but the dies. -/
theorem State.storeDomReg_frame : s.storeDomReg i reg v = { s with dies := (s.storeDomReg i reg v).dies } := by
  unfold State.storeDomReg State.when
  split <;> rfl

theorem State.length_storeDomReg : (s.storeDomReg i reg v).dies.length = s.dies.length := by
  unfold State.storeDomReg State.when
  split
  · exact (State.onDie_length ..).trans (State.putCell_length ..)
  · exact State.putCell_length ..

theorem State.cell_storeDomReg {key : Nat} (hd : 0 < s.dies.length) :
    (s.storeDomReg i reg v).cell e key = if e = 0 ∧ key = (adRegFld reg).key i then v else s.cell e key := by
  rw [← State.cell_putCell _ _ _ _ _ _ hd]
  unfold State.storeDomReg State.when
  split
  · exact State.cell_takeAnchor
  · rfl

theorem State.domains_storeDomReg : ((s.storeDomReg i reg v).die e).ang.dom = (s.die e).ang.dom := by
  unfold State.storeDomReg State.when
  split
  · rw [State.domains_takeAnchor, State.putCell_ang']
  · rw [State.putCell_ang']

theorem State.dom_storeDomReg : (s.storeDomReg i reg v).dom e k = s.dom e k := by
  unfold State.dom
  rw [State.domains_storeDomReg]

/-- With AD_ANCHOR_CYC the domain takes the anchor, and with no other register. -/
theorem State.anchors_storeDomReg (hd : 0 < s.dies.length) (hi : i < (s.die 0).ang.anchors.length) :
    (reg = .anchorCyc → ((s.storeDomReg i reg v).die 0).ang.anchors.getD i (0, 0) = (s.storeDomReg i reg v).anchorRegs 0 i) ∧
    (reg ≠ .anchorCyc → ((s.storeDomReg i reg v).die 0).ang.anchors = (s.die 0).ang.anchors) := by
  unfold State.storeDomReg State.when
  refine ⟨fun hr => ?_, fun hr => ?_⟩
  · rw [if_pos (by rw [hr]; rfl), State.anchorRegs_congr fun _ => State.cell_takeAnchor]
    exact State.anchor_takeAnchor (by rwa [State.putCell_length]) (by rwa [State.putCell_ang'])
  · rw [if_neg (by simpa using hr), State.putCell_ang']

end StoreDomReg

/-- A write of a domain register on die 0: the word, the anchor, and the change it submits, holds or leaves to the next tick. -/
theorem opDomainChange_spec {reg : AdReg} {value : Word} (hd : 0 < s.dies.length) (hi : i < (s.die 0).ang.dom.length)
    (ha : i < (s.die 0).ang.anchors.length) :
    let t := opDomainChange 0 i reg value s
    (∀ e key, t.cell e key = if e = 0 ∧ key = (adRegFld reg).key i then value &&& adRegMask reg else s.cell e key) ∧
    (reg = .anchorCyc → (t.die 0).ang.anchors.getD i (0, 0) = t.anchorRegs 0 i) ∧
    (reg ≠ .anchorCyc → (t.die 0).ang.anchors = (s.die 0).ang.anchors) ∧
    (s.changes79 i reg (value &&& adRegMask reg) = false → t.mirrors = s.mirrors ∧ t.dom 0 i = s.dom 0 i) ∧
    (s.changes79 i reg (value &&& adRegMask reg) = true → s.isHead = true →
      if s.inFlight i = true ∨ s.td0 + 1 < (s.dom 0 i).nextOk then
        t.mirrors = s.mirrors ∧ (t.dom 0 i).held = some (t.domConfig 0 i) ∧ (t.dom 0 i).pos = (s.dom 0 i).pos
      else t.mirrors = s.mirrors ++ [⟨i, s.td0 + 129, t.domConfig 0 i, []⟩] ∧ (t.dom 0 i).pos = (s.dom 0 i).pos) ∧
    (s.changes79 i reg (value &&& adRegMask reg) = true → s.isHead = false →
      t.dom 0 i = s.dom 0 i ∧ t.mirrors = s.mirrors ++ [⟨i, s.td0 + 1, t.domConfig 0 i, []⟩]) := by
  rw [opDomainChange_zero]
  have hcell := fun e key => State.cell_storeDomReg (s := s) (i := i) (reg := reg) (v := value &&& adRegMask reg) (e := e) (key := key) hd
  have hanchors := State.anchors_storeDomReg (v := value &&& adRegMask reg) (reg := reg) hd ha
  have hframe := State.storeDomReg_frame (s := s) (i := i) (reg := reg) (v := value &&& adRegMask reg)
  have hdom : (s.storeDomReg i reg (value &&& adRegMask reg)).dom 0 i = s.dom 0 i := State.dom_storeDomReg
  have hlen : 0 < (s.storeDomReg i reg (value &&& adRegMask reg)).dies.length := by rwa [State.length_storeDomReg]
  have hlen' : i < ((s.storeDomReg i reg (value &&& adRegMask reg)).die 0).ang.dom.length := by rwa [State.domains_storeDomReg]
  generalize s.storeDomReg i reg (value &&& adRegMask reg) = w at *
  have htd : w.td0 = s.td0 := by rw [hframe]
  have hmir : w.mirrors = s.mirrors := by rw [hframe]
  have hhead : w.isHead = s.isHead := by rw [hframe]; rfl
  have hfly : w.inFlight i = s.inFlight i := by rw [hframe]; rfl
  cases s.changes79 i reg (value &&& adRegMask reg) with
  | false => exact ⟨hcell, hanchors.1, hanchors.2, fun _ => ⟨hmir, hdom⟩, nofun, nofun⟩
  | true =>
    obtain ⟨hc, han⟩ := State.changeDom_leaves (s := w) (i := i) (u := w.domConfig 0 i) (ts := w.td0 + 1)
    have hconf := State.domConfig_congr (i := i) (hc 0) (han 0)
    have hregs := State.anchorRegs_congr (i := i) (hc 0)
    simp only [State.when, if_true]
    rw [hconf, han, hregs]
    refine ⟨fun e key => (hc e key).trans (hcell e key), hanchors.1, hanchors.2, nofun, fun _ hh => ?_, fun _ hn => ?_⟩
    · rw [State.changeDom_head (hhead.trans hh), ← htd, ← hfly, ← hdom, ← hmir]
      split
      · next h =>
        rw [State.submitDom_held h, State.dom_onDom_same hlen hlen']
        exact ⟨rfl, congrArg some (DomUpd.over_domConfig _), rfl⟩
      · next h =>
        rw [State.submitDom_sent h]
        refine ⟨rfl, ?_⟩
        change ((w.onDom 0 i _).dom 0 i).pos = _
        rw [State.dom_onDom_same hlen hlen']
    · rw [State.changeDom_node (hhead.trans hn) (Nat.lt_succ_self _), ← htd, ← hmir]
      exact ⟨hdom, rfl⟩

/-! ### MIRROR_RECORD (03 R82-R84) -/

/-- A change applied to a domain leaves what is held for it. -/
theorem Domain.held_apply (x : Domain) (t slewExp : Nat) (trk : Int × Int) : (x.apply u t slewExp trk).held = x.held := by
  unfold Domain.apply
  cases u with
  | reconfigure src nom ap anchorT => dsimp only; split_ifs <;> rfl
  | track theta ts incs => dsimp only; split_ifs <;> rfl
  | jump theta incs => dsimp only; split_ifs <;> rfl
  | _ => rfl

theorem State.dom_applyDom (hd : d < s.dies.length) (hi : i < (s.die d).ang.dom.length) :
    (s.applyDom d i u).dom d i = (s.dom d i).apply u s.td0 (s.rd d Fd.AD_CFG.SLEW_EXP i) (s.trackOut d i) :=
  State.dom_onDom_same hd hi

theorem State.dom_mirrorSkew : (s.mirrorSkew k).dom e i = s.dom e i := by
  unfold State.dom State.mirrorSkew
  rw [State.pulse_ang', State.sticky_eq, State.stick_ang']

theorem State.length_mirrorSkew : (s.mirrorSkew k).dies.length = s.dies.length := by
  unfold State.mirrorSkew
  simp

theorem State.cell_mirrorSkew {key : Nat} (h : e ≠ k ∨ ¬stickyKeys 2 key) : (s.mirrorSkew k).cell e key = s.cell e key := by
  unfold State.mirrorSkew
  rw [State.cell_pulse]
  exact State.cell_stick_ne _ _ _ _ _ _ (h.imp id fun hk => ⟨fun hc => hk (.inl hc), fun hc => hk (.inr hc)⟩)

/-- Die k takes the domain as die 0's record has it. -/
def State.mirrorTo (s : State) (i : Nat) (old new : Domain) (k : Nat) : State :=
  (s.onDom k i fun x => { new with prev := x.prev, held := none, nextOk := 0 }).when ((s.dom k i).pos != old.pos) (·.mirrorSkew k)

section MirrorTo
variable {old new : Domain} {j : Nat}

theorem State.dom_mirrorTo : (s.mirrorTo i old new k).dom e j =
    (s.onDom k i fun x => { new with prev := x.prev, held := none, nextOk := 0 }).dom e j := by
  unfold State.mirrorTo State.when
  split
  · exact State.dom_mirrorSkew
  · rfl

theorem State.dom_mirrorTo_same (hd : k < s.dies.length) (hi : i < (s.die k).ang.dom.length) :
    (s.mirrorTo i old new k).dom k i = { new with prev := (s.dom k i).prev, held := none, nextOk := 0 } :=
  State.dom_mirrorTo.trans (State.dom_onDom_same hd hi)

theorem State.dom_mirrorTo_ne (h : e ≠ k) : (s.mirrorTo i old new k).dom e j = s.dom e j :=
  State.dom_mirrorTo.trans (State.dom_onDom_ne (.inl h))

theorem State.length_mirrorTo : (s.mirrorTo i old new k).dies.length = s.dies.length := by
  unfold State.mirrorTo State.when
  split
  · exact State.length_mirrorSkew.trans (State.onDie_length ..)
  · exact State.onDie_length ..

theorem State.domLength_mirrorTo : ((s.mirrorTo i old new k).die e).ang.dom.length = (s.die e).ang.dom.length := by
  unfold State.mirrorTo State.when
  split
  · unfold State.mirrorSkew
    rw [State.pulse_ang', State.sticky_eq, State.stick_ang']
    exact State.domLength_onDom
  · exact State.domLength_onDom

theorem State.cell_mirrorTo {key : Nat} (h : e ≠ k ∨ ¬stickyKeys 2 key) : (s.mirrorTo i old new k).cell e key = s.cell e key := by
  unfold State.mirrorTo State.when
  split
  · exact (State.cell_mirrorSkew h).trans State.cell_onDom
  · exact State.cell_onDom

theorem State.mirrors_mirrorTo : (s.mirrorTo i old new k).mirrors = s.mirrors := by
  unfold State.mirrorTo State.when State.mirrorSkew
  split
  · rw [State.pulse_mirrors, State.sticky_eq, State.stick_mirrors]
    rfl
  · rfl

end MirrorTo

/-- From v to w a record is carried to dies of a list, none of them die 0: what stays. -/
structure State.Mirrored (i : Nat) (ks : List Nat) (v w : State) : Prop where
  mirrors : w.mirrors = v.mirrors
  length : w.dies.length = v.dies.length
  domLength : ∀ e, (w.die e).ang.dom.length = (v.die e).ang.dom.length
  others : ∀ e, e ∉ ks → w.dom e i = v.dom e i
  cell : ∀ e key, ¬(e ≠ 0 ∧ stickyKeys 2 key) → w.cell e key = v.cell e key

theorem State.Mirrored.mirrorTo {ks : List Nat} {v w : State} {old new : Domain} (h : State.Mirrored i ks v w) (hk : k ∈ ks) (h0 : k ≠ 0) :
    State.Mirrored i ks v (w.mirrorTo i old new k) where
  mirrors := State.mirrors_mirrorTo.trans h.mirrors
  length := State.length_mirrorTo.trans h.length
  domLength e := State.domLength_mirrorTo.trans (h.domLength e)
  others e he := (State.dom_mirrorTo_ne (by rintro rfl; exact he hk)).trans (h.others e he)
  cell e key hs := (State.cell_mirrorTo (by by_cases he : e = k
                                            · exact .inr fun hc => hs ⟨he ▸ h0, hc⟩
                                            · exact .inl he)).trans (h.cell e key hs)

/-- Every die of the list that has the domain takes it as the record has it. -/
theorem State.mirrorTo_each {ks : List Nat} {v : State} {old new : Domain} (h0 : 0 ∉ ks) :
    let w := v.each ks fun w k => w.mirrorTo i old new k
    State.Mirrored i ks v w ∧ ∀ k ∈ ks, k < v.dies.length → i < (v.die k).ang.dom.length →
      (w.dom k i).src = new.src ∧ (w.dom k i).pos = new.pos ∧ (w.dom k i).inc = new.inc := by
  have hrefl : State.Mirrored i ks v v := ⟨rfl, rfl, fun _ => rfl, fun _ _ => rfl, fun _ _ _ => rfl⟩
  have hstep : ∀ w, ∀ k ∈ ks, State.Mirrored i ks v w → State.Mirrored i ks v (w.mirrorTo i old new k) :=
    fun w k hk h => h.mirrorTo hk (by rintro rfl; exact h0 hk)
  refine ⟨State.each_keeps_mem hrefl hstep, fun k hk hd hi => ?_⟩
  have htaken : ∀ w, State.Mirrored i ks v w → (w.mirrorTo i old new k).dom k i =
      { new with prev := (w.dom k i).prev, held := none, nextOk := 0 } := fun w h =>
    State.dom_mirrorTo_same (by rwa [h.length]) (by rwa [h.domLength])
  refine State.each_brings_mem (P := State.Mirrored i ks v)
    (Q := fun w => (w.dom k i).src = new.src ∧ (w.dom k i).pos = new.pos ∧ (w.dom k i).inc = new.inc)
    hk hrefl hstep (fun w h => ?_) fun w b hb h hq => ?_
  · rw [htaken w h]
    exact ⟨rfl, rfl, rfl⟩
  · by_cases hbk : k = b
    · subst hbk
      rw [htaken w h]
      exact ⟨rfl, rfl, rfl⟩
    · rwa [State.dom_mirrorTo_ne hbk]

/-- The fabric carries a record wherever the registers of FAB let it. -/
theorem State.joins_congr {a b : Nat} (hp : t.part = s.part) (h : ∀ e key, t.cell e key = s.cell e key) :
    t.joins a b = s.joins a b := by
  have hl : ∀ x y, t.linkTo x y = s.linkTo x y := fun x y => by
    unfold State.linkTo State.peer State.isHead
    rw [hp]
  unfold State.joins State.blockEn State.flag
  simp only [State.rd_congr (h _), h, hl]

theorem State.mirrorDies_applyDom {lost : List Nat} : (s.applyDom d i u).mirrorDies lost = s.mirrorDies lost := by
  have hlife : ∀ k, (s.applyDom d i u).alive k = s.alive k := fun k => by
    refine State.alive_congr rfl rfl ?_ ?_
    all_goals
      unfold State.applyDom State.onDom
      rw [State.die_onDie]
      split <;> rfl
  have hjoins : ∀ k, (s.applyDom d i u).joins 0 k = s.joins 0 k := fun k => State.joins_congr rfl fun _ _ => State.cell_onDom
  unfold State.mirrorDies
  simp only [hlife, hjoins]
  rfl

theorem State.mem_mirrorDies {lost : List Nat} : k ∈ s.mirrorDies lost ↔
    k ≠ 0 ∧ s.alive k = true ∧ s.joins 0 k = true ∧ k ∉ lost := by
  unfold State.mirrorDies State.dieList
  simp only [List.mem_filter, List.mem_range, Bool.and_eq_true, bne_iff_ne, Bool.not_eq_true', ne_eq,
    List.contains_eq_mem, decide_eq_false_iff_not]
  exact ⟨fun h => ⟨h.2.1.1.1, h.2.1.1.2, h.2.1.2, h.2.2⟩,
    fun ⟨h0, ha, hj, hl⟩ => ⟨State.lt_of_alive ha, ⟨⟨h0, ha⟩, hj⟩, hl⟩⟩

/-- The one record in flight is due: die 0 applies its change, and the dies it reached take the domain. -/
theorem opMirrorRecord_due {m : Mirror} (hm : s.mirrors = [m]) (ht : m.te ≤ s.td0) (h8 : m.domain < 8) (hd : 0 < s.dies.length)
    (hi : m.domain < (s.die 0).ang.dom.length) (hheld : (s.dom 0 m.domain).held = none) :
    opMirrorRecord m.domain s =
      (({ s with mirrors := [] } : State).applyDom 0 m.domain m.upd).each (s.mirrorDies m.lost) fun v k =>
        v.mirrorTo m.domain (s.dom 0 m.domain)
          ((s.dom 0 m.domain).apply m.upd s.td0 (s.rd 0 Fd.AD_CFG.SLEW_EXP m.domain) (s.trackOut 0 m.domain)) k := by
  have hnew : (({ s with mirrors := [] } : State).applyDom 0 m.domain m.upd).dom 0 m.domain =
      (s.dom 0 m.domain).apply m.upd s.td0 (s.rd 0 Fd.AD_CFG.SLEW_EXP m.domain) (s.trackOut 0 m.domain) :=
    State.dom_applyDom (s := { s with mirrors := [] }) hd hi
  have hfind : s.mirrors.find? (fun x => x.domain == m.domain && decide (x.te ≤ s.td0)) = some m := by
    rw [hm]
    simp [ht]
  have herase : s.mirrors.erase m = [] := by
    rw [hm]
    simp
  unfold opMirrorRecord
  rw [hfind]
  dsimp only
  rw [if_neg (by omega), herase, hnew, Domain.held_apply, hheld, State.mirrorDies_applyDom]
  rfl

/-! ### Snapshots (03 R102) -/

/-- Registers of a die take words, one after another. -/
def State.wrWords (s : State) (d : Nat) (l : List (Fld × Nat)) : State := s.each l fun s e => s.wr d e.1 0 e.2

theorem State.wrWords_frame {P : Nat → Prop} {l : List (Fld × Nat)} (hP : ∀ x ∈ l, P (x.1.key 0)) : s.OnlyKeys (s.wrWords d l) d P :=
  State.OnlyKeys.each _ _ (.refl ..) fun _ x hx h => h.wr _ _ _ (hP x hx)

/-- Each of the registers, no two at one place and each one whole field, reads what was written to it. -/
theorem State.rd_wrWords {l : List (Fld × Nat)} (hd : d < s.dies.length) (hl : (l.map fun x => x.1.key 0).Nodup)
    (hw : ∀ x ∈ l, x.1.hi = 31 ∧ x.1.lo = 0) : ∀ x ∈ l, (s.wrWords d l).rd d x.1 = x.2 % 2 ^ 32 := by
  induction l generalizing s with
  | nil => nofun
  | cons x l ih =>
    obtain ⟨hx, hl⟩ := List.nodup_cons.1 hl
    obtain ⟨hhi, hlo⟩ := hw x List.mem_cons_self
    have hlen : d < (s.wr d x.1 0 x.2).dies.length := by rwa [State.wr_length]
    have hrest := ih hlen hl fun y hy => hw y (List.mem_cons_of_mem _ hy)
    intro y hy
    rcases List.mem_cons.1 hy with rfl | hy
    · have hframe : (s.wr d y.1 0 y.2).OnlyKeys ((s.wr d y.1 0 y.2).wrWords d l) d (· ∈ l.map fun x => x.1.key 0) :=
        State.wrWords_frame fun z hz => List.mem_map_of_mem hz
      refine (hframe.rd_eq hx).trans ?_
      rw [State.rd_wr_same _ _ _ _ _ hd (by omega) (by omega), hhi, hlo]
    · exact hrest y hy

theorem loWord_lt (n : Nat) : loWord n < 2 ^ 32 := Nat.mod_lt _ (Nat.two_pow_pos _)

theorem hiWord_lt (n : Nat) : hiWord n < 2 ^ 32 := Nat.mod_lt _ (Nat.two_pow_pos _)

/-- TD0 as a snapshot shows it. -/
def snapTime (t : Nat) : List (Fld × Nat) := [(Fd.SNAP_T_LO.W, loWord t), (Fd.SNAP_T_HI.W, hiWord t)]

/-- A position and an increment as a snapshot shows them. -/
def snapPos (frac lo hi ilo ihi : Nat) : List (Fld × Nat) :=
  [(Fd.SNAP_POS_FRAC.W, frac), (Fd.SNAP_POS_LO.W, lo), (Fd.SNAP_POS_HI.W, hi), (Fd.SNAP_INC_LO.W, ilo), (Fd.SNAP_INC_HI.W, ihi)]

/-- What a snapshot of an angle domain shows of it. -/
def Domain.snap (x : Domain) : List (Fld × Nat) :=
  let cyc := ux 64 (x.pos / 2 ^ 48)
  snapPos (x.pos / 2 ^ 16 % 2 ^ 32).toNat (loWord cyc) (hiWord cyc) (loWord (ux 48 x.inc))
    (ux 48 x.inc / 2 ^ 32 + (x.pos % 2 ^ 16).toNat * 65536)

theorem State.dom_snapTime : (s.wrWords d (snapTime s.td0)).dom d i = s.dom d i := by
  unfold State.dom
  change ((((s.wr d _ 0 _).wr d _ 0 _).die d).ang.dom.getD i _) = _
  rw [State.wr_ang', State.wr_ang']

theorem opSnapSel_angle (h : i < 8) : opSnapSel d i s = (s.wrWords d (snapTime s.td0)).wrWords d (s.dom d i).snap := by
  rw [← State.dom_snapTime]
  exact if_pos h

theorem opSnapSel_td0 :
    opSnapSel d 8 s = (s.wrWords d (snapTime s.td0)).wrWords d (snapPos 0 (loWord s.td0) (hiWord s.td0) 0 0) := rfl

/-- A snapshot shows TD0 and, of a domain that there is, a position and an increment. -/
theorem opSnapSel_shows (s : State) (d i : Nat) :
    ∃ l, opSnapSel d i s = (s.wrWords d (snapTime s.td0)).wrWords d l ∧ (l = [] ∨ ∃ frac lo hi ilo ihi, l = snapPos frac lo hi ilo ihi) := by
  unfold opSnapSel
  dsimp only
  split_ifs
  · exact ⟨snapPos .., rfl, .inr ⟨_, _, _, _, _, rfl⟩⟩
  · exact ⟨snapPos .., rfl, .inr ⟨_, _, _, _, _, rfl⟩⟩
  · exact ⟨snapPos .., rfl, .inr ⟨_, _, _, _, _, rfl⟩⟩
  · exact ⟨[], rfl, .inl rfl⟩

/-- The registers of a position and an increment. -/
theorem snapPos_keys (frac lo hi ilo ihi : Nat) :
    ((snapPos frac lo hi ilo ihi).map fun x => x.1.key 0) = [0x202C, 0x2030, 0x2034, 0x2038, 0x203C] := by
  simp only [snapPos, List.map_cons, List.map_nil]
  decide

theorem snapTime_keys (t : Nat) : ((snapTime t).map fun x => x.1.key 0) = [0x2024, 0x2028] := by
  simp only [snapTime, List.map_cons, List.map_nil]
  decide

theorem State.rd_snapPos {frac lo hi ilo ihi : Nat} (hd : d < s.dies.length) (hf : frac < 2 ^ 32) (hlo : lo < 2 ^ 32) (hhi : hi < 2 ^ 32) :
    (s.wrWords d (snapPos frac lo hi ilo ihi)).rd d Fd.SNAP_POS_FRAC.W = frac ∧
    (s.wrWords d (snapPos frac lo hi ilo ihi)).rd d Fd.SNAP_POS_LO.W = lo ∧
    (s.wrWords d (snapPos frac lo hi ilo ihi)).rd d Fd.SNAP_POS_HI.W = hi := by
  have h := State.rd_wrWords (s := s) (l := snapPos frac lo hi ilo ihi) hd (by rw [snapPos_keys]; decide) (by simp [snapPos])
  refine ⟨?_, ?_, ?_⟩
  · exact (h (Fd.SNAP_POS_FRAC.W, frac) (by simp [snapPos])).trans (Nat.mod_eq_of_lt hf)
  · exact (h (Fd.SNAP_POS_LO.W, lo) (by simp [snapPos])).trans (Nat.mod_eq_of_lt hlo)
  · exact (h (Fd.SNAP_POS_HI.W, hi) (by simp [snapPos])).trans (Nat.mod_eq_of_lt hhi)

theorem State.rd_snapTime (hd : d < s.dies.length) :
    (s.wrWords d (snapTime s.td0)).rd d Fd.SNAP_T_LO.W = loWord s.td0 ∧ (s.wrWords d (snapTime s.td0)).rd d Fd.SNAP_T_HI.W = hiWord s.td0 := by
  have h := State.rd_wrWords (s := s) (l := snapTime s.td0) hd (by rw [snapTime_keys]; decide) (by simp [snapTime])
  refine ⟨?_, ?_⟩
  · exact (h (Fd.SNAP_T_LO.W, loWord s.td0) (by simp [snapTime])).trans (Nat.mod_eq_of_lt (loWord_lt _))
  · exact (h (Fd.SNAP_T_HI.W, hiWord s.td0) (by simp [snapTime])).trans (Nat.mod_eq_of_lt (hiWord_lt _))

/-- A snapshot of TD0 and a domain (03 R102). -/
theorem opSnapSel_spec (hd : d < s.dies.length) :
    (opSnapSel d i s).rd d Fd.SNAP_T_LO.W = loWord s.td0 ∧ (opSnapSel d i s).rd d Fd.SNAP_T_HI.W = hiWord s.td0 ∧
    (i < 8 → (opSnapSel d i s).rd d Fd.SNAP_POS_FRAC.W = ((s.dom d i).pos / 2 ^ 16 % 2 ^ 32).toNat ∧
      (opSnapSel d i s).rd d Fd.SNAP_POS_LO.W = loWord (ux 64 ((s.dom d i).pos / 2 ^ 48))) ∧
    (i = 8 → (opSnapSel d i s).rd d Fd.SNAP_POS_LO.W = loWord s.td0 ∧ (opSnapSel d i s).rd d Fd.SNAP_POS_HI.W = hiWord s.td0) ∧
    s.OnlyKeys (opSnapSel d i s) d fun key => key ∈ [Fd.SNAP_T_LO.W, Fd.SNAP_T_HI.W, Fd.SNAP_POS_FRAC.W, Fd.SNAP_POS_LO.W,
      Fd.SNAP_POS_HI.W, Fd.SNAP_INC_LO.W, Fd.SNAP_INC_HI.W].map fun f => f.key 0 := by
  obtain ⟨htlo, hthi⟩ := State.rd_snapTime hd
  have hframe : s.OnlyKeys (s.wrWords d (snapTime s.td0)) d (· ∈ [0x2024, 0x2028]) :=
    State.wrWords_frame fun x hx => snapTime_keys s.td0 ▸ List.mem_map_of_mem (f := fun x => x.1.key 0) hx
  have hd' : d < (s.wrWords d (snapTime s.td0)).dies.length := by rwa [hframe.length_eq]
  obtain ⟨l, hshow, hl⟩ := opSnapSel_shows s d i
  have hpos : (s.wrWords d (snapTime s.td0)).OnlyKeys (opSnapSel d i s) d (· ∈ [0x202C, 0x2030, 0x2034, 0x2038, 0x203C]) := by
    rw [hshow]
    refine State.wrWords_frame fun x hx => ?_
    obtain rfl | ⟨_, _, _, _, _, rfl⟩ := hl
    · cases hx
    · exact snapPos_keys .. ▸ List.mem_map_of_mem (f := fun x => x.1.key 0) hx
  refine ⟨(hpos.rd_eq (by decide)).trans htlo, (hpos.rd_eq (by decide)).trans hthi, fun h => ?_, fun h => ?_,
    (hframe.mono fun key hk => ?_).trans (hpos.mono fun key hk => ?_)⟩
  · rw [opSnapSel_angle h]
    obtain ⟨hf, hlo, -⟩ := State.rd_snapPos (ilo := loWord (ux 48 (s.dom d i).inc))
      (ihi := ux 48 (s.dom d i).inc / 2 ^ 32 + ((s.dom d i).pos % 2 ^ 16).toNat * 65536) hd'
      (by omega : ((s.dom d i).pos / 2 ^ 16 % 2 ^ 32).toNat < 2 ^ 32) (loWord_lt (ux 64 ((s.dom d i).pos / 2 ^ 48)))
      (hiWord_lt (ux 64 ((s.dom d i).pos / 2 ^ 48)))
    exact ⟨hf, hlo⟩
  · subst h
    rw [opSnapSel_td0]
    exact (State.rd_snapPos hd' (by decide) (loWord_lt _) (hiWord_lt _)).2
  · simp only [List.mem_cons, List.not_mem_nil, or_false] at hk
    rcases hk with rfl | rfl <;> decide
  · simp only [List.mem_cons, List.not_mem_nil, or_false] at hk
    rcases hk with rfl | rfl | rfl | rfl | rfl <;> decide

/-! ### The commands -/

theorem exec_domainChange {reg : AdReg} {value : Word} (hs : s.sane = true) (ha : s.alive d = true) (hi : i < 8) :
    exec (.domainChange d i reg value) s = .next (opDomainChange d i reg value s) := by
  change s.guarded _ _ = _
  exact State.guarded_true _ _ _ hs (by simp [ha, hi])

/-- A die other than die 0 has no domain of its own to change (03 R81). -/
theorem exec_domainChange_other {reg : AdReg} {value : Word} (hs : s.sane = true) (hd : d ≠ 0) :
    exec (.domainChange d i reg value) s = .next s := by
  change s.guarded _ _ = _
  unfold State.guarded State.sanely opDomainChange
  simp [hs, hd]

theorem domainChange_spec {reg : AdReg} {value : Word} (hsh : s.shaped = true) (hs : s.sane = true) (ha : s.alive 0 = true) (h8 : i < 8)
    (hi : i < (s.die 0).ang.dom.length) (han : i < (s.die 0).ang.anchors.length) : Completes (.domainChange 0 i reg value) s fun t =>
      t.cell 0 ((adRegFld reg).key i) = value &&& adRegMask reg ∧
      (∀ e key, ¬(e = 0 ∧ key = (adRegFld reg).key i) → t.cell e key = s.cell e key) ∧ t.device = s.device ∧ t.pending = s.pending ∧
      (reg = .anchorCyc → (t.die 0).ang.anchors.getD i (0, 0) = t.anchorRegs 0 i) ∧
      (reg ≠ .anchorCyc → (t.die 0).ang.anchors = (s.die 0).ang.anchors) ∧
      (s.changes79 i reg (value &&& adRegMask reg) = false → t.mirrors = s.mirrors ∧ t.dom 0 i = s.dom 0 i) ∧
      (s.changes79 i reg (value &&& adRegMask reg) = true → s.isHead = true →
        if s.inFlight i = true ∨ s.td0 + 1 < (s.dom 0 i).nextOk then
          t.mirrors = s.mirrors ∧ (t.dom 0 i).held = some (t.domConfig 0 i) ∧ (t.dom 0 i).pos = (s.dom 0 i).pos
        else t.mirrors = s.mirrors ++ [⟨i, s.td0 + 129, t.domConfig 0 i, []⟩] ∧ (t.dom 0 i).pos = (s.dom 0 i).pos) ∧
      (s.changes79 i reg (value &&& adRegMask reg) = true → s.isHead = false →
        t.dom 0 i = s.dom 0 i ∧ t.mirrors = s.mirrors ++ [⟨i, s.td0 + 1, t.domConfig 0 i, []⟩]) := by
  obtain ⟨hcell, hanchors⟩ := opDomainChange_spec (reg := reg) (value := value) (State.lt_length hsh ha) hi han
  have hcourse : (opDomainChange 0 i reg value s).course = s.course := State.Has.opDomainChange (State.Has.self s)
  have hkeeps : s.Keeps (opDomainChange 0 i reg value s) := .opDomainChange (.refl s)
  exact ⟨_, exec_domainChange hs ha h8, (hcell _ _).trans (if_pos ⟨rfl, rfl⟩), fun e key hk => (hcell e key).trans (if_neg hk),
    congrArg Course.device hcourse, hkeeps.pending, hanchors⟩

theorem mirrorRecord_spec {m : Mirror} (hsh : s.shaped = true) (hs : s.sane = true) (hh : s.isHead = true) (ha : s.alive 0 = true)
    (h8 : m.domain < 8) (hm : s.mirrors = [m]) (ht : m.te ≤ s.td0) (hheld : (s.dom 0 m.domain).held = none)
    (hdom : ∀ k, k < s.part.dies → m.domain < (s.die k).ang.dom.length) : Completes (.mirrorRecord m.domain) s fun t =>
      t.mirrors = [] ∧
      t.dom 0 m.domain = (s.dom 0 m.domain).apply m.upd s.td0 (s.rd 0 Fd.AD_CFG.SLEW_EXP m.domain) (s.trackOut 0 m.domain) ∧
      (∀ k, k ≠ 0 → s.joins 0 k = false ∨ k ∈ m.lost → t.dom k m.domain = s.dom k m.domain) ∧
      (∀ k, k ≠ 0 → s.alive k = true → s.joins 0 k = true → k ∉ m.lost →
        (t.dom k m.domain).src = (t.dom 0 m.domain).src ∧ (t.dom k m.domain).pos = (t.dom 0 m.domain).pos ∧
        (t.dom k m.domain).inc = (t.dom 0 m.domain).inc) ∧
      ∀ e key, ¬(e ≠ 0 ∧ stickyKeys 2 key) → t.cell e key = s.cell e key := by
  have hd := State.lt_length hsh ha
  have hi := hdom 0 (State.lt_of_alive ha)
  have hexec : exec (.mirrorRecord m.domain) s = .next (opMirrorRecord m.domain s) := by
    change s.guarded _ _ = _
    exact State.guarded_true _ _ _ hs (by simp [hh, ha]; omega)
  refine ⟨_, hexec, ?_⟩
  rw [opMirrorRecord_due hm ht h8 hd hi hheld]
  have hnew : (({ s with mirrors := [] } : State).applyDom 0 m.domain m.upd).dom 0 m.domain = (s.dom 0 m.domain).apply m.upd s.td0
      (s.rd 0 Fd.AD_CFG.SLEW_EXP m.domain) (s.trackOut 0 m.domain) := State.dom_applyDom (s := { s with mirrors := [] }) hd hi
  obtain ⟨hkept, htaken⟩ := State.mirrorTo_each (i := m.domain) (ks := s.mirrorDies m.lost)
    (v := ({ s with mirrors := [] } : State).applyDom 0 m.domain m.upd) (old := s.dom 0 m.domain)
    (new := (s.dom 0 m.domain).apply m.upd s.td0 (s.rd 0 Fd.AD_CFG.SLEW_EXP m.domain) (s.trackOut 0 m.domain))
    fun h0 => (State.mem_mirrorDies.1 h0).1 rfl
  have hzero := (hkept.others 0 fun h0 => (State.mem_mirrorDies.1 h0).1 rfl).trans hnew
  refine ⟨hkept.mirrors, hzero, fun k hk hnot => ?_, fun k hk hal hj hl => ?_,
    fun e key hkey => (hkept.cell e key hkey).trans State.cell_onDom⟩
  · refine (hkept.others k fun hmem => ?_).trans (State.dom_onDom_ne (.inl hk))
    obtain ⟨-, -, hj, hl⟩ := State.mem_mirrorDies.1 hmem
    exact hnot.elim (fun h => by simp [hj] at h) hl
  · rw [hzero]
    refine htaken k (State.mem_mirrorDies.2 ⟨hk, hal, hj, hl⟩) ?_ ?_
    · exact (State.onDie_length ..).symm ▸ State.lt_length hsh hal
    · exact State.domLength_onDom.symm ▸ hdom k (State.lt_of_alive hal)

/-- After the last tick of its slew a domain has its target increment. -/
def Domain.endSlew (x : Domain) (t : Nat) : Domain :=
  match x.slew with
  | some (e, incs) => if e ≤ t then { x with inc := incs, slew := none } else x
  | none => x

theorem exec_slewEnd (hs : s.sane = true) (ha : s.alive d = true) :
    exec (.slewEnd d i) s = .next (s.onDom d i fun x => x.endSlew s.td0) := by
  change execSlewEnd d i s = _
  unfold execSlewEnd
  rw [State.guarded_true _ _ _ hs ha]
  rfl

/-- The end of a slew gives the domain its target increment (03 R78). -/
theorem slewEnd_spec {t0 : Nat} {incs : Int} (hsh : s.shaped = true) (hs : s.sane = true) (ha : s.alive d = true)
    (hi : i < (s.die d).ang.dom.length) (hslew : (s.dom d i).slew = some (t0, incs)) (ht : t0 ≤ s.td0) :
    Completes (.slewEnd d i) s fun t => (t.dom d i).inc = incs ∧ (t.dom d i).slew = none ∧ (t.dom d i).pos = (s.dom d i).pos ∧
      (∀ k, k ≠ i → t.dom d k = s.dom d k) ∧ s.OnlyKeys t d fun _ => False := by
  have hend : (s.dom d i).endSlew s.td0 = { s.dom d i with inc := incs, slew := none } := by
    unfold Domain.endSlew
    rw [hslew]
    exact if_pos ht
  refine ⟨_, exec_slewEnd hs ha, ?_⟩
  dsimp only
  rw [State.dom_onDom_same (State.lt_length hsh ha) hi, hend]
  exact ⟨rfl, rfl, rfl, fun k hk => State.dom_onDom_ne (.inr hk), (State.OnlyKeys.refl ..).onDie _ (fun _ => rfl) fun _ => rfl⟩

/-- A node's change waits for its tick, which applies it (03 R79). -/
theorem nodeChanges_spec {m : Mirror} (hsh : s.shaped = true) (hm : s.mirrors = [m]) (hi : m.domain < (s.die 0).ang.dom.length) :
    (m.te ≤ s.td0 → s.nodeChanges.mirrors = [] ∧ s.nodeChanges.dom 0 m.domain =
      (s.dom 0 m.domain).apply m.upd s.td0 (s.rd 0 Fd.AD_CFG.SLEW_EXP m.domain) (s.trackOut 0 m.domain)) ∧
    (s.td0 < m.te → s.nodeChanges = s) := by
  refine ⟨fun ht => ?_, fun ht => ?_⟩
  · have hd : 0 < s.dies.length := by
      unfold State.shaped at hsh
      rw [of_decide_eq_true hsh]
      cases s.part <;> decide
    have hstep : s.nodeChanges = ({ s with mirrors := [] } : State).applyDom 0 m.domain m.upd := by
      unfold State.nodeChanges
      rw [hm]
      simp [ht, State.each]
    rw [hstep]
    exact ⟨rfl, State.dom_applyDom (s := { s with mirrors := [] }) hd hi⟩
  · have hnow : s.mirrors.filter (fun m => decide (m.te ≤ s.td0)) = [] := by
      rw [hm]
      simpa using ht
    have hlater : s.mirrors.filter (fun m => !decide (m.te ≤ s.td0)) = s.mirrors := by
      rw [hm]
      simpa using ht
    unfold State.nodeChanges
    rw [hnow, hlater]
    rfl

end Sys2Proof.Machine

/-- Settles O18, command by command: the register and its anchor are stored (`State.storeDomReg`) before the change they make is submitted,
held or left to the next tick (`State.submitDom_sent`, `State.submitDom_held`, `State.changeDom_node`); a record is carried die by die
(`State.mirrorTo_each`). -/
theorem angleDomains : Obligations.angle_domains := by
  refine ⟨fun s i reg value hsh hs ha h8 hi han => domainChange_spec hsh hs ha h8 hi han,
    fun s d i reg value hs hd => exec_domainChange_other hs hd,
    fun s m hsh hs hh ha h8 hm ht hheld hdom => mirrorRecord_spec hsh hs hh ha h8 hm ht hheld hdom,
    fun s d i e incs hsh hs ha hi hslew ht => slewEnd_spec hsh hs ha hi hslew ht, fun s d domain hsh hs ha hdom => ?_,
    fun s m hsh hm hi => nodeChanges_spec hsh hm hi⟩
  have hexec : exec (.snapSel d domain) s = .next (opSnapSel d domain s) := by
    change s.guarded _ _ = _
    exact State.guarded_true _ _ _ hs (by simp [ha, hdom])
  exact ⟨_, hexec, opSnapSel_spec (State.lt_length hsh ha)⟩

end

section
open Sys2Proof Sys2Proof.Machine

/-! ## Milestone entries -/

namespace Sys2Proof.Machine
variable {s t u : State} {d c i sl : Nat}

/-! ### What an action leaves of the memory windows

The windows of a die, the milestone table among them, lie at 0x80000 and above; what a milestone starts, latches, swaps or marks shows in
register and context pages, which lie below. -/

/-- The keys of the memory windows. -/
abbrev windowKeys (key : Nat) : Prop := 0x80000 ≤ key

/-- A field of a register page, of a word that stands alone or in a table of up to 64 entries. -/
abbrev Fld.InPage (f : Fld) : Prop := f.page < 0x80 ∧ f.base + f.stride * 63 < 0x1000

theorem Fld.InPage.not_windowKeys {f : Fld} (hf : f.InPage) (hi : i < 64) : ¬windowKeys (f.key i) := by
  obtain ⟨hp, hb⟩ := hf
  have hs : f.stride * i ≤ f.stride * 63 := Nat.mul_le_mul_left _ (by omega)
  unfold windowKeys Fld.key
  omega

theorem inPage_spaFld (w : Nat) : (spaFld w).InPage := by
  unfold spaFld
  split <;> decide

namespace State.Calm

theorem wrPage {f : Fld} {v : Nat} (h : s.Calm windowKeys t) (hi : i < 64 := by decide) (hf : f.InPage := by decide) :
    s.Calm windowKeys (t.wr d f i v) := h.wr (hf.not_windowKeys hi)

theorem stickPage {page bit : Nat} (h : s.Calm windowKeys t) (hp : page < 0x40 := by decide) :
    s.Calm windowKeys (t.stick d page bit) :=
  h.stick (by unfold windowKeys hdrKey; omega) (by unfold windowKeys hdrKey; omega)

theorem lower {K : Nat → Prop} {n : Nat} (h : s.Calm K t) : s.Calm K (t.lower d n) := h.keepsDie

theorem arrive {K : Nat → Prop} {n w : Nat} (h : s.Calm K t) : s.Calm K (t.arrive d n w) := by
  unfold State.arrive
  split
  · exact h.keepsDie
  · exact h

theorem pulse {K : Nat → Prop} {n : Nat} (h : s.Calm K t) : s.Calm K (t.pulse d n) := by
  unfold State.pulse
  exact State.Calm.when h.keepsDie fun _ h => h.arrive

theorem setNodeField {f : Nat} {v : BitVec 16} (h : s.Calm windowKeys t) (hf : f < 0x400) : s.Calm windowKeys (t.setNodeField f v) := by
  unfold State.setNodeField
  split
  · exact h
  · exact State.Calm.keepsDie (h.putCell (by unfold windowKeys ctxKey; omega))

/-! #### Latches -/

theorem setLive {live : Nat} (h : s.Calm windowKeys t) (hc : c < 64) : s.Calm windowKeys (t.setLive d c live) :=
  ((h.wrPage hc).wrPage (hf := ⟨by simp [abnormalBit], by simp [abnormalBit]⟩)).source

theorem setCond {n : Nat} {v : Bool} (h : s.Calm windowKeys t) (hc : c < 64) : s.Calm windowKeys (t.setCond d c n v) := by
  unfold State.setCond
  dsimp only
  split
  · exact (h.setLive hc).stickPage.wrPage hc
  · exact h.setLive hc

theorem latchFields {y : BitVec 16} (h : s.Calm windowKeys t) (hc : c < 64) : s.Calm windowKeys (t.latchFields d c y) := by
  unfold State.latchFields
  split
  · exact h
  · exact (h.setNodeField (by omega)).when fun _ h => h.setNodeField (by decide)

theorem latch (h : s.Calm windowKeys t) (hc : c < 64) : s.Calm windowKeys (t.latch d c) := by
  have hf : ∀ y, s.Calm windowKeys (((t.wr d Fd.CH_LATCH.VALUE c (BitVec.toNat y)).wr d Fd.CH_LSTAMP.W c
      (ux 32 (if (t.mch d c).n = 0 then t.td0 else (t.mch d c).edge))).latchFields d c y) := fun y => ((h.wrPage hc).wrPage hc).latchFields hc
  unfold State.latch
  dsimp only
  split
  · exact hf _
  · split
    · exact (hf _).keepsDie.wrPage hc
    · split
      · exact State.Calm.when ((hf _).keepsDie.wrPage hc) fun _ h => h.setCond hc
      · exact ((hf _).keepsDie.wrPage hc).setCond hc

theorem latchGroups {groups : List Nat} (h : s.Calm windowKeys t) : s.Calm windowKeys (t.latchGroups d groups) :=
  h.each fun _ c hm h => h.latch (by
    have hc : c ∈ Machine.channels := (List.mem_filter.1 hm).1
    have := List.mem_range.1 hc
    omega)

/-! #### Slots -/

theorem onSlot {K : Nat → Prop} {f : Slot → Slot} (h : s.Calm K t) : s.Calm K (t.onSlot d sl f) := h.keepsDie

theorem onBist {K : Nat → Prop} {f : Bist → Bist} (h : s.Calm K t) : s.Calm K (t.onBist d f) := h.keepsDie

theorem swapSet (h : s.Calm windowKeys t) (hsl : sl < 64) : s.Calm windowKeys (t.swapSet d sl) :=
  h.each fun _ w _ h => (h.wrPage hsl (inPage_spaFld w)).onSlot

theorem missTick (h : s.Calm windowKeys t) (hsl : sl < 64) : s.Calm windowKeys (t.missTick d sl) :=
  State.Calm.when (stickPage ((((h.wrPage hsl).wrPage hsl).wrPage).wrPage)) fun _ h => h.wrPage.stickPage.pulse

theorem judgeTick (h : s.Calm windowKeys t) (hsl : sl < 64) : s.Calm windowKeys (t.judgeTick d sl) := by
  unfold State.judgeTick
  split
  · exact ((h.wrPage hsl).wrPage hsl).onSlot
  · exact h.missTick hsl

theorem throttleTick (h : s.Calm windowKeys t) (hsl : sl < 64) : s.Calm windowKeys (t.throttleTick d sl) := by
  unfold State.throttleTick
  split
  · split
    · exact h.onSlot.wrPage hsl
    · exact h.onSlot.judgeTick hsl
  · exact h.onSlot.judgeTick hsl

/-- A tick travels to slots of the die, of which there are 64. -/
theorem tickSlot {fuel : Nat} (h : s.Calm windowKeys t) (hsl : sl < 64) : s.Calm windowKeys (t.tickSlot fuel d sl) := by
  induction fuel generalizing t sl with
  | zero => exact h
  | succ fuel ih =>
    unfold State.tickSlot
    split
    · exact h
    · refine (h.onSlot.throttleTick hsl).each fun _ o hm h => ?_
      have ho : o ∈ slots := (List.mem_filter.1 hm).1
      dsimp only
      split
      · exact ih h.onSlot (List.mem_range.1 ho)
      · exact h.onSlot

theorem showTest {e j issues : Nat} {sig : Word} (h : s.Calm windowKeys t) : s.Calm windowKeys (t.showTest d e j issues sig) :=
  State.Calm.wrPage (hf := ⟨by simp [engBit], by simp [engBit]⟩)
    (State.Calm.wrPage (State.Calm.wrPage (State.Calm.wrPage (State.Calm.wrPage (State.Calm.wrPage h.keepsDie)))))

theorem endTest {issues : Nat} {sig : Word} (h : s.Calm windowKeys t) : s.Calm windowKeys (t.endTest d issues sig) := by
  have hb : ∀ e lo, (engBit lo e).InPage := fun e lo => ⟨by simp [engBit], by simp [engBit]⟩
  unfold State.endTest
  split
  · exact h
  · dsimp only
    split
    · exact h.showTest.onBist.stickPage
    · split
      · exact State.Calm.when (h.showTest.onBist.wrPage (hf := hb ..)).onBist fun _ h => h.lower
      · exact State.Calm.when (h.showTest.onBist.wrPage (hf := hb ..)).stickPage.onBist fun _ h => h.raise

theorem opEngineYield (h : s.Calm windowKeys t) : s.Calm windowKeys (opEngineYield d t) :=
  h.when fun v h => by
    unfold State.cutTest
    split
    · exact h
    · exact State.Calm.endTest (h.congr (u := v.freeW.2) rfl rfl rfl)

theorem startSlot (h : s.Calm windowKeys t) (hsl : sl < 64) : s.Calm windowKeys (t.startSlot d sl) := by
  unfold State.startSlot
  split
  · exact h
  · split
    · exact (h.tickSlot hsl).opEngineYield
    · exact h.stickPage

/-! #### The ledger -/

theorem onRec {K : Nat → Prop} {f : Rec → Rec} (h : s.Calm K t) : s.Calm K (t.onRec d f) := h.keepsDie

theorem ledgerMark {K : Nat → Prop} {code : BitVec 16} (h : s.Calm K t) : s.Calm K (t.ledgerMark d code) := by
  unfold State.ledgerMark State.ledgerStore
  split
  · exact h
  · dsimp only
    refine onRec (State.Calm.when (onRec ?_) fun _ h => h.onRec)
    split
    · unfold State.beginPage
      exact h.onRec.onRec
    · exact h

end State.Calm

/-! ### Words of an entry (03 R88) -/

theorem msKey_inj {w v : Nat} : msKey i w = msKey i v ↔ w = v := by
  unfold msKey
  omega

theorem windowKeys_msKey {w : Nat} : windowKeys (msKey i w) := by
  unfold windowKeys msKey
  omega

theorem State.ms_eq {w : Nat} (h : t.cell d (msKey i w) = s.cell d (msKey i w)) : t.ms d i w = s.ms d i w := congrArg BitVec.toNat h

theorem State.ms_putMs_same {w v : Nat} (hd : d < s.dies.length) (hv : v < 2 ^ 32) : (s.putMs d i w v).ms d i w = v := by
  unfold State.ms State.putMs
  rw [State.cell_putCell_same _ _ _ _ hd, BitVec.toNat_ofNat]
  exact Nat.mod_eq_of_lt hv

/-- ARMED of an entry reads as it is set, and nothing else of its word moves. -/
theorem State.msArmed_setArmed {b : Bool} (hd : d < s.dies.length) : (s.setArmed d i b).msArmed d i = b := by
  unfold State.msArmed State.ms State.setArmed
  rw [State.cell_putCell_same _ _ _ _ hd, bitOf_setBits _ _ _ _ _ (by decide) (le_refl _)]
  cases b <;> simp [bnat, bitOf]

theorem State.bitsOf_setArmed {b : Bool} {hi lo : Nat} (hd : d < s.dies.length) (hhi : hi < 31) :
    bitsOf ((s.setArmed d i b).ms d i 0) hi lo = bitsOf (s.ms d i 0) hi lo := by
  unfold State.ms State.setArmed
  rw [State.cell_putCell_same _ _ _ _ hd]
  exact bitsOf_setBits_other _ _ _ _ _ _ (by decide) (le_refl _) (.inl hhi)

theorem State.bitOf_setArmed {b : Bool} {k : Nat} (hd : d < s.dies.length) (hk : k ≠ 31) :
    bitOf ((s.setArmed d i b).ms d i 0) k = bitOf (s.ms d i 0) k := by
  unfold State.ms State.setArmed
  rw [State.cell_putCell_same _ _ _ _ hd, bitOf_setBits _ _ _ _ _ (by decide) (le_refl _), if_neg (by omega)]

theorem State.setArmed_frame {b : Bool} : s.OnlyKeys (s.setArmed d i b) d (· = msKey i 0) :=
  (State.OnlyKeys.refl ..).putCell _ _ rfl

theorem State.msDom_congr (h0 : t.ms d i 0 = s.ms d i 0) : t.msDom d i = s.msDom d i := by
  unfold State.msDom
  rw [h0]

theorem State.recur_congr (h0 : t.ms d i 0 = s.ms d i 0) (h1 : t.ms d i 1 = s.ms d i 1) : t.recur d i = s.recur d i := by
  unfold State.recur State.msDom
  rw [h0, h1]

/-! ### An entry that fires once (03 R89, R92) -/

/-- The bookkeeping of a firing before the entry is disarmed or moves on. -/
def State.showFired (s : State) (d i : Nat) : State :=
  (s.putMs d i 7 (loWord s.td0)).onDie d fun x => { x with ang := { x.ang with lateFire := x.ang.lateFire.erase i } }

theorem State.showFired_frame : s.OnlyKeys (s.showFired d i) d (· = msKey i 7) := by
  unfold State.showFired
  refine State.OnlyKeys.onDie ?_ _ ?_ ?_
  · exact (State.OnlyKeys.refl ..).putCell _ _ rfl
  · exact fun _ => rfl
  · exact fun _ => rfl

theorem State.ms_showFired (hd : d < s.dies.length) : (s.showFired d i).ms d i 7 = loWord s.td0 := by
  unfold State.showFired
  refine (State.ms_eq (State.cell_onDie _ _ _ _ _ ?_)).trans (State.ms_putMs_same hd (loWord_lt _))
  exact fun _ => rfl

theorem State.fired_once (hr : s.recur d i = .once) : s.fired d i = (s.showFired d i).setArmed d i false := by
  have hms : ∀ w, w ≠ 7 → (s.showFired d i).ms d i w = s.ms d i w := fun w hw =>
    State.ms_eq (State.showFired_frame.cell_eq (by rwa [msKey_inj]))
  exact if_pos ((State.recur_congr (hms 0 (by decide)) (hms 1 (by decide))).trans hr)

/-- A single entry that fires shows TD0 in MS_LAST and is disarmed. -/
theorem State.fired_spec (hd : d < s.dies.length) (hr : s.recur d i = .once) :
    (s.fired d i).msArmed d i = false ∧ (s.fired d i).ms d i 7 = loWord s.td0 ∧
    s.OnlyKeys (s.fired d i) d fun key => key = msKey i 0 ∨ key = msKey i 7 := by
  rw [State.fired_once hr]
  have hd' : d < (s.showFired d i).dies.length := by rwa [State.showFired_frame.length_eq]
  refine ⟨State.msArmed_setArmed hd', ?_, (State.showFired_frame.mono fun _ h => .inr h).trans (State.setArmed_frame.mono fun _ h => .inl h)⟩
  exact (State.ms_eq (State.setArmed_frame.cell_eq (by rw [msKey_inj]; decide))).trans (State.ms_showFired hd)

/-! ### MILESTONE_REACHED (03 R89-R95) -/

/-- With no entry reached nothing happens. -/
theorem opMilestones_none (h : s.reachedList d = []) : opMilestones d s = s := by
  unfold opMilestones
  rw [h]
  rfl

theorem State.msLatch_nil : s.msLatch d [] = s := rfl

/-- Of a single entry that is reached, the action alone takes place. -/
theorem opMilestones_single (h : s.reachedList d = [i]) :
    opMilestones d s = if s.msAction d i = 1 then s.msLatch d [i] else s.msFire d i := by
  unfold opMilestones
  rw [h]
  by_cases ha : s.msAction d i ∈ [1, 2, 3, 4, 5, 6]
  · simp only [List.mem_cons, List.not_mem_nil, or_false] at ha
    rcases ha with ha | ha | ha | ha | ha | ha <;> simp [ha, State.each, State.msLatch_nil]
  · simp only [List.mem_cons, List.not_mem_nil, or_false, not_or] at ha
    obtain ⟨h1, h2, h3, h4, h5, h6⟩ := ha
    simp [h1, h2, h3, h4, h5, h6, State.each, State.msLatch_nil]

/-- What a reached entry does beside its own bookkeeping leaves the memory windows; EMIT and the planner's SWAP are left out. -/
theorem State.Calm.msFire (h3 : s.msAction d i ≠ 3) (h4 : ¬(s.msAction d i = 4 ∧ bitOf (s.msArg d i) 8 = true)) :
    (s.fired d i).Calm windowKeys (s.msFire d i) := by
  have hrefl := State.Calm.refl (K := windowKeys) (s.fired d i)
  unfold State.msFire
  split
  · exact hrefl.startSlot (Nat.mod_lt _ (by decide))
  · next ha => exact absurd ha h3
  · next ha =>
    have hb : bitOf (s.msArg d i) 8 = false := by simpa [ha] using h4
    unfold State.msSwap
    dsimp only
    rw [if_pos (by simp [hb])]
    exact hrefl.swapSet (Nat.mod_lt _ (by decide))
  · exact hrefl.when fun _ h => h.ledgerMark
  · unfold State.msPin
    dsimp only
    split
    · exact hrefl
    · exact hrefl.congr rfl rfl rfl
  · exact hrefl

theorem State.Calm.msLatch_single : (s.fired d i).Calm windowKeys (s.msLatch d [i]) :=
  State.Calm.when (State.Calm.refl (s.fired d i)) fun _ h => h.latchGroups

theorem opMilestones_calm (h : s.reachedList d = [i]) (h3 : s.msAction d i ≠ 3)
    (h4 : ¬(s.msAction d i = 4 ∧ bitOf (s.msArg d i) 8 = true)) : (s.fired d i).Calm windowKeys (opMilestones d s) := by
  rw [opMilestones_single h]
  split
  · exact State.Calm.msLatch_single
  · exact State.Calm.msFire h3 h4

/-- A PIN action drives PPS_OUT where PPS_MS gives the ball to the milestones (03 R95). -/
theorem opMilestones_pin (h : s.reachedList 0 = [i]) (ha : s.msAction 0 i = 6) (hp : s.flag 0 Fd.ANG_PINS.PPS_MS = true)
    (hr : s.recur 0 i = .once) (hd : 0 < s.dies.length) (hn : s.msArg 0 i % 4 ≠ 3) :
    (opMilestones 0 s).pins.ppsOut = if s.msArg 0 i % 4 = 0 then !s.pins.ppsOut else decide (s.msArg 0 i % 4 = 1) := by
  obtain ⟨-, -, hframe⟩ := State.fired_spec hd hr
  have hflag : (s.fired 0 i).flag 0 Fd.ANG_PINS.PPS_MS = true := by
    have hpage : ¬windowKeys (Fd.ANG_PINS.PPS_MS.key 0) := by decide
    rw [State.flag_eq, hframe.rd_eq fun hk => hpage (hk.elim (· ▸ windowKeys_msKey) (· ▸ windowKeys_msKey)), ← State.flag_eq, hp]
  have hpins : (s.fired 0 i).pins = s.pins := by rw [hframe.1]
  have hfire : s.msFire 0 i = (s.fired 0 i).msPin 0 (s.msArg 0 i) := by
    unfold State.msFire
    rw [ha]
    rfl
  rw [opMilestones_single h, if_neg (by omega), hfire]
  unfold State.msPin
  rw [if_neg (by simpa using hflag), ← hpins]
  have hlt : s.msArg 0 i % 4 < 4 := Nat.mod_lt _ (by decide)
  generalize s.msArg 0 i % 4 = b at hlt hn ⊢
  interval_cases b <;> simp_all

theorem exec_milestoneReached (hs : s.sane = true) (ho : s.on d 2 = true) : exec (.milestoneReached d) s = .next (opMilestones d s) := by
  change s.guarded _ _ = _
  exact State.guarded_true _ _ _ hs ho

theorem milestoneReached_spec (hsh : s.shaped = true) (hs : s.sane = true) (ho : s.on d 2 = true) (h : s.reachedList d = [i])
    (hr : s.recur d i = .once) (h3 : s.msAction d i ≠ 3) (h4 : ¬(s.msAction d i = 4 ∧ bitOf (s.msArg d i) 8 = true)) :
    Completes (.milestoneReached d) s fun t =>
      t.msArmed d i = false ∧ t.ms d i 7 = loWord s.td0 ∧ t.device = s.device ∧ t.td0 = s.td0 ∧ t.pending = s.pending ∧
      (s.msAction d i = 6 → d = 0 → s.flag 0 ⟨0x2, 0x6C, 1, 0, 0⟩ = true → s.msArg d i % 4 ≠ 3 →
        t.pins.ppsOut = if s.msArg d i % 4 = 0 then !s.pins.ppsOut else decide (s.msArg d i % 4 = 1)) ∧
      ∀ e key, 0x80000 ≤ key → ¬(e = d ∧ (key = msKey i 0 ∨ key = msKey i 7)) → t.cell e key = s.cell e key := by
  have hd := State.lt_length hsh (State.alive_of_on ho)
  obtain ⟨harmed, hlast, hframe⟩ := State.fired_spec hd hr
  have hcalm := opMilestones_calm h h3 h4
  have hcourse : (opMilestones d s).course = s.course := State.Has.opMilestones (State.Has.self s)
  have hkeeps : s.Keeps (opMilestones d s) := .opMilestones (.refl s)
  have hms : ∀ w, (opMilestones d s).ms d i w = (s.fired d i).ms d i w := fun w => State.ms_eq (hcalm.cell _ _ windowKeys_msKey)
  refine ⟨_, exec_milestoneReached hs ho, ?_, (hms 7).trans hlast, congrArg Course.device hcourse, congrArg Course.td0 hcourse,
    hkeeps.pending, ?_, fun e key hk hn => (hcalm.cell e key hk).trans ?_⟩
  · rw [← harmed]
    exact congrArg (bitOf · 31) (hms 0)
  · rintro ha rfl hp hn
    exact opMilestones_pin h ha hp hr hd hn
  · by_cases he : e = d
    · subst he
      exact hframe.cell_eq fun hc => hn ⟨rfl, hc⟩
    · unfold State.cell State.dflt
      rw [hframe.2.2.1 e he, hframe.1]

/-! ### The start of a tick (03 R97-R100) -/

/-- The operations that wait are taken from the queue. -/
def State.takeOps (s : State) (d : Nat) : State :=
  s.onDie d fun x => { x with ang := { x.ang with pendOps := [], lateFire := [], reexamine := false } }

theorem State.takeOps_frame : s.OnlyKeys (s.takeOps d) d fun _ => False := (State.OnlyKeys.refl ..).onDie _ (fun _ => rfl) fun _ => rfl

/-- A single operation that waits is applied. -/
theorem State.msStart_single {o : MsOp} (ho : (s.die d).ang.pendOps = [(i, o)]) (hre : (s.die d).ang.reexamine = false) :
    s.msStart d = (s.takeOps d).msApply d i o := by
  unfold State.msStart
  rw [ho, hre]
  rfl

theorem State.compare_congr (h0 : t.msDom d i = s.msDom d i) (h : ∀ w, w ≠ 0 → t.ms d i w = s.ms d i w) : t.compare d i = s.compare d i := by
  unfold State.compare
  rw [h0, h 2 (by decide), h 3 (by decide), h 4 (by decide)]

/-- A position is that of a domain, whatever the registers hold. -/
theorem State.position_congr {n : Nat} (h1 : t.td0 = s.td0) (h2 : t.td0Prev = s.td0Prev) (h3 : t.wall = s.wall)
    (h4 : (t.die d).ang.dom = (s.die d).ang.dom) (h5 : (t.die d).ang.wall = (s.die d).ang.wall) : t.position d n = s.position d n := by
  unfold State.position State.dom State.wallTime
  rw [h1, h2, h3, h4, h5]

theorem State.examine_ahead (h : (s.position d (s.msDom d i)).2 < s.compare d i) : s.examine d i = s := by
  unfold State.examine
  dsimp only
  rw [if_pos h, ite_self]

theorem State.resolved_full {p : Int} (h : 8 ≤ s.msDom d i ∨ bitOf (s.ms d i 0) 29 = true) : s.resolved d i p = s.compare d i := by
  refine if_neg ?_
  simp only [Bool.and_eq_true, decide_eq_true_eq, Bool.not_eq_true', not_and, Bool.not_eq_false]
  exact fun hlt => h.resolve_left (by omega)

/-- What is the same of an entry, and of the position it is compared with, once it is armed. -/
theorem State.setArmed_true_reads (hd : d < s.dies.length) :
    (s.setArmed d i true).msDom d i = s.msDom d i ∧ (s.setArmed d i true).compare d i = s.compare d i ∧
    (∀ n, (s.setArmed d i true).position d n = s.position d n) ∧
    bitOf ((s.setArmed d i true).ms d i 0) 29 = bitOf (s.ms d i 0) 29 := by
  have hdom : (s.setArmed d i true).msDom d i = s.msDom d i := State.bitsOf_setArmed hd (by decide)
  have hang : ((s.setArmed d i true).die d).ang = (s.die d).ang := State.putCell_ang' ..
  refine ⟨hdom, State.compare_congr hdom fun w hw => State.ms_eq (State.setArmed_frame.cell_eq (by rwa [msKey_inj])),
    fun n => State.position_congr rfl rfl rfl (congrArg Ang.dom hang) (congrArg Ang.wall hang), State.bitOf_setArmed hd (by decide)⟩

theorem State.setOrigin_frame {c : Int} {j : Nat} : s.OnlyKeys (s.setOrigin d i c j) d fun _ => False := by
  unfold State.setOrigin
  refine State.OnlyKeys.onDie (State.OnlyKeys.refl ..) _ ?_ ?_
  · exact fun _ => rfl
  · exact fun _ => rfl

theorem State.setOrigin_ang {c : Int} {j : Nat} : ((s.setOrigin d i c j).die d).ang.dom = (s.die d).ang.dom ∧
    ((s.setOrigin d i c j).die d).ang.wall = (s.die d).ang.wall := by
  unfold State.setOrigin
  rw [State.die_onDie]
  split <;> exact ⟨rfl, rfl⟩

theorem State.position_setOrigin {c : Int} {j n : Nat} : (s.setOrigin d i c j).position d n = s.position d n := by
  refine State.position_congr ?_ ?_ ?_ State.setOrigin_ang.1 State.setOrigin_ang.2
  · rw [State.setOrigin_frame.1]
  · rw [State.setOrigin_frame.1]
  · rw [State.setOrigin_frame.1]

/-- An entry whose compare lies ahead is armed, and that is all. -/
theorem State.armEntry_ahead (hd : d < s.dies.length) (hfull : 8 ≤ s.msDom d i ∨ bitOf (s.ms d i 0) 29 = true)
    (hahead : (s.position d (s.msDom d i)).2 < s.compare d i) :
    s.armEntry d i = (s.setArmed d i true).setOrigin d i (s.compare d i) 0 := by
  obtain ⟨hdom, hcmp, hpos, hbit⟩ := State.setArmed_true_reads (i := i) hd
  have hres : ∀ p, (s.setArmed d i true).resolved d i p = s.compare d i := fun p =>
    (State.resolved_full (by rwa [hdom, hbit])).trans hcmp
  have hms : ∀ w, ((s.setArmed d i true).setOrigin d i (s.compare d i) 0).ms d i w = (s.setArmed d i true).ms d i w := fun w =>
    State.ms_eq (State.setOrigin_frame.cell_eq id)
  have hdom' : ((s.setArmed d i true).setOrigin d i (s.compare d i) 0).msDom d i = (s.setArmed d i true).msDom d i :=
    State.msDom_congr (hms 0)
  have hpos' : ∀ n, ((s.setArmed d i true).setOrigin d i (s.compare d i) 0).position d n = s.position d n := fun n =>
    State.position_setOrigin.trans (hpos n)
  unfold State.armEntry State.when
  dsimp only
  rw [hres, hcmp, if_neg (by simp)]
  refine State.examine_ahead ?_
  rw [State.compare_congr hdom' fun w _ => hms w, hcmp, hdom', hdom, hpos']
  exact hahead

/-! #### LOAD -/

/-- The words of an entry that arming it leaves as they are: PERIOD, WINDOW and ARG. -/
abbrev loadedKeys (i key : Nat) : Prop := key = msKey i 1 ∨ key = msKey i 5 ∨ key = msKey i 6

theorem windowKeys_of_loadedKeys {key : Nat} (h : loadedKeys i key) : windowKeys key := by
  rcases h with rfl | rfl | rfl <;> exact windowKeys_msKey

theorem not_loadedKeys_msKey {w : Nat} (hw : w ≠ 1 ∧ w ≠ 5 ∧ w ≠ 6) : ¬loadedKeys i (msKey i w) := by
  unfold loadedKeys
  simp only [msKey_inj]
  omega

namespace State.Calm

theorem wrInfo {f : Fld} {v : Nat} (h : s.Calm (loadedKeys i) t) (hf : f.InPage := by decide) : s.Calm (loadedKeys i) (t.wr d f 0 v) :=
  h.wr fun hk => hf.not_windowKeys (by decide) (windowKeys_of_loadedKeys hk)

theorem stickAng {bit : Nat} (h : s.Calm (loadedKeys i) t) : s.Calm (loadedKeys i) (t.stick d 2 bit) :=
  h.stick (fun hk => absurd (windowKeys_of_loadedKeys hk) (by decide)) fun hk => absurd (windowKeys_of_loadedKeys hk) (by decide)

theorem setArmed {b : Bool} (h : s.Calm (loadedKeys i) t) : s.Calm (loadedKeys i) (t.setArmed d i b) :=
  h.putCell (not_loadedKeys_msKey (by decide))

theorem setOrigin {c : Int} {j : Nat} (h : s.Calm (loadedKeys i) t) : s.Calm (loadedKeys i) (t.setOrigin d i c j) := by
  unfold State.setOrigin
  exact h.keepsDie

theorem putCompare {c : Int} (h : s.Calm (loadedKeys i) t) : s.Calm (loadedKeys i) (t.putCompare d i c) :=
  putCell (putCell (h.putCell (not_loadedKeys_msKey (by decide))) (not_loadedKeys_msKey (by decide))) (not_loadedKeys_msKey (by decide))

theorem strictMiss (h : s.Calm (loadedKeys i) t) : s.Calm (loadedKeys i) (t.strictMiss d i) := h.when fun _ h => h.stickAng.pulse

theorem dropLate {p : Int} (h : s.Calm (loadedKeys i) t) : s.Calm (loadedKeys i) (t.dropLate d i p) := by
  unfold State.dropLate
  dsimp only
  split
  · exact h.stickAng.wrInfo.strictMiss.wrInfo.setArmed
  · exact h.stickAng.wrInfo.strictMiss.putCompare.setOrigin.wrInfo

theorem fireLate {p : Int} (h : s.Calm (loadedKeys i) t) : s.Calm (loadedKeys i) (t.fireLate d i p) := by
  unfold State.fireLate
  exact State.Calm.when h.keepsDie fun _ h => h.stickAng.wrInfo.wrInfo.strictMiss.setOrigin

theorem armEntry (h : s.Calm (loadedKeys i) t) : s.Calm (loadedKeys i) (t.armEntry d i) := by
  have hplaced : ∀ c, s.Calm (loadedKeys i) (((t.setArmed d i true).when (c != (t.setArmed d i true).compare d i)
      (·.putCompare d i c)).setOrigin d i c 0) := fun c => (h.setArmed.when fun _ h => h.putCompare).setOrigin
  unfold State.armEntry State.examine
  dsimp only
  split
  · exact hplaced _
  · split
    · exact hplaced _
    · split
      · exact (hplaced _).fireLate
      · exact (hplaced _).dropLate

end State.Calm

/-- The words of an entry are written from the shadow, without its ARMED. -/
def State.loadEntry (s : State) (d i : Nat) (ws : List Word) : State :=
  s.each ((List.range 7).zip ws) fun s x => s.putCell d (msKey i x.1) (if x.1 = 0 then x.2 &&& 0x6FCF0000#32 else x.2)

theorem State.loadEntry_words {ws : List Word} (hd : d < s.dies.length) (h7 : ws.length = 7) :
    (s.loadEntry d i ws).ms d i 1 = (ws.getD 1 0).toNat ∧ (s.loadEntry d i ws).ms d i 5 = (ws.getD 5 0).toNat ∧
    (s.loadEntry d i ws).ms d i 6 = (ws.getD 6 0).toNat := by
  match ws, h7 with
  | [w0, w1, w2, w3, w4, w5, w6], _ =>
    have hz : (List.range 7).zip [w0, w1, w2, w3, w4, w5, w6] =
        [(0, w0), (1, w1), (2, w2), (3, w3), (4, w4), (5, w5), (6, w6)] := rfl
    unfold State.loadEntry State.ms State.each
    rw [hz]
    simp [hd, msKey_inj]

/-! #### LOAD, ARM and DISARM -/

/-- An operation of an entry is queued; nothing shows. -/
theorem opMsArm_spec {o : MsOp} (hd : d < s.dies.length) :
    ((opMsArm d i o s).die d).ang.pendOps = (s.die d).ang.pendOps ++ [(i, o)] ∧ s.OnlyKeys (opMsArm d i o s) d fun _ => False := by
  unfold opMsArm
  refine ⟨by rw [State.die_onDie_same _ _ _ hd], State.OnlyKeys.onDie (State.OnlyKeys.refl ..) _ ?_ ?_⟩
  · exact fun _ => rfl
  · exact fun _ => rfl

theorem exec_load (hs : s.sane = true) (ha : s.alive d = true) (hi : i < 1024) :
    exec (.load d i) s = .next (opMsArm d i (.load (s.msShadow d)) s) := by
  change s.guarded _ _ = _
  exact State.guarded_true _ _ _ hs (by simp [ha, hi])

theorem exec_arm (hs : s.sane = true) (ha : s.alive d = true) (hi : i < 1024) : exec (.arm d i) s = .next (opMsArm d i .arm s) := by
  change s.guarded _ _ = _
  exact State.guarded_true _ _ _ hs (by simp [ha, hi])

theorem exec_disarm (hs : s.sane = true) (ha : s.alive d = true) (hi : i < 1024) :
    exec (.disarm d i) s = .next (opMsArm d i .disarm s) := by
  change s.guarded _ _ = _
  exact State.guarded_true _ _ _ hs (by simp [ha, hi])

/-! #### What each operation does as the tick starts -/

theorem State.takeOps_ms {w : Nat} : (s.takeOps d).ms d i w = s.ms d i w := State.ms_eq (State.takeOps_frame.cell_eq id)

theorem State.takeOps_ang : ((s.takeOps d).die d).ang.dom = (s.die d).ang.dom ∧ ((s.takeOps d).die d).ang.wall = (s.die d).ang.wall := by
  unfold State.takeOps
  rw [State.die_onDie]
  split <;> exact ⟨rfl, rfl⟩

theorem State.position_takeOps {n : Nat} : (s.takeOps d).position d n = s.position d n := by
  refine State.position_congr ?_ ?_ ?_ State.takeOps_ang.1 State.takeOps_ang.2
  · rw [State.takeOps_frame.1]
  · rw [State.takeOps_frame.1]
  · rw [State.takeOps_frame.1]

theorem State.takeOps_length : (s.takeOps d).dies.length = s.dies.length := State.takeOps_frame.length_eq

theorem State.msStart_disarm (hd : d < s.dies.length) (ho : (s.die d).ang.pendOps = [(i, .disarm)]) (hre : (s.die d).ang.reexamine = false) :
    (s.msStart d).msArmed d i = false ∧ s.OnlyKeys (s.msStart d) d (· = msKey i 0) := by
  rw [State.msStart_single ho hre]
  exact ⟨State.msArmed_setArmed (by rwa [State.takeOps_length]), (State.takeOps_frame.mono fun _ => False.elim).trans State.setArmed_frame⟩

theorem State.armEntry_spec (hd : d < s.dies.length) (hfull : 8 ≤ s.msDom d i ∨ bitOf (s.ms d i 0) 29 = true)
    (hahead : (s.position d (s.msDom d i)).2 < s.compare d i) :
    (s.armEntry d i).msArmed d i = true ∧ s.OnlyKeys (s.armEntry d i) d (· = msKey i 0) := by
  rw [State.armEntry_ahead hd hfull hahead]
  refine ⟨?_, State.setArmed_frame.trans (State.setOrigin_frame.mono fun _ => False.elim)⟩
  exact (congrArg (bitOf · 31) (State.ms_eq (State.setOrigin_frame.cell_eq id))).trans (State.msArmed_setArmed hd)

theorem State.msStart_arm (hd : d < s.dies.length) (ho : (s.die d).ang.pendOps = [(i, .arm)]) (hre : (s.die d).ang.reexamine = false)
    (harm : s.msArmed d i = false) (hfull : 8 ≤ s.msDom d i ∨ bitOf (s.ms d i 0) 29 = true)
    (hahead : (s.position d (s.msDom d i)).2 < s.compare d i) :
    (s.msStart d).msArmed d i = true ∧ s.OnlyKeys (s.msStart d) d (· = msKey i 0) := by
  have hdom : (s.takeOps d).msDom d i = s.msDom d i := State.msDom_congr State.takeOps_ms
  have hidle : (s.takeOps d).msArmed d i = false := (congrArg (bitOf · 31) State.takeOps_ms).trans harm
  have happly : (s.takeOps d).msApply d i .arm = (s.takeOps d).armEntry d i := if_neg (by rw [hidle]; exact Bool.false_ne_true)
  obtain ⟨harmed, hframe⟩ := State.armEntry_spec (s := s.takeOps d) (i := i) (by rwa [State.takeOps_length])
    (by rwa [hdom, State.takeOps_ms]) (by rwa [State.position_takeOps, State.compare_congr hdom fun w _ => State.takeOps_ms, hdom])
  rw [State.msStart_single ho hre, happly]
  exact ⟨harmed, (State.takeOps_frame.mono fun _ => False.elim).trans hframe⟩

theorem State.msStart_load {ws : List Word} (hd : d < s.dies.length) (ho : (s.die d).ang.pendOps = [(i, .load ws)])
    (hre : (s.die d).ang.reexamine = false) (h7 : ws.length = 7) :
    (s.msStart d).ms d i 1 = (ws.getD 1 0).toNat ∧ (s.msStart d).ms d i 5 = (ws.getD 5 0).toNat ∧
    (s.msStart d).ms d i 6 = (ws.getD 6 0).toNat := by
  obtain ⟨h1, h5, h6⟩ := State.loadEntry_words (s := s.takeOps d) (i := i) (by rwa [State.takeOps_length]) h7
  have hcalm : ((s.takeOps d).loadEntry d i ws).Calm (loadedKeys i) (((s.takeOps d).loadEntry d i ws).armEntry d i) :=
    State.Calm.armEntry (.refl _)
  have hms : ∀ w, loadedKeys i (msKey i w) →
      (s.msStart d).ms d i w = ((s.takeOps d).loadEntry d i ws).ms d i w := fun w hw => by
    rw [State.msStart_single ho hre]
    exact State.ms_eq (hcalm.cell _ _ hw)
  exact ⟨(hms 1 (.inl rfl)).trans h1, (hms 5 (.inr (.inl rfl))).trans h5, (hms 6 (.inr (.inr rfl))).trans h6⟩

/-! ### A write to an armed entry (03 R101) -/

/-- A misuse of a block other than the engine leaves the windows as they are. -/
theorem State.dies_misuse {rule page : Nat} (hp : page ≠ 5) : (s.misuse rule d page).dies = s.dies ∧
    (s.misuse rule d page).misused = s.misused ++ [(rule, d, page)] := by
  unfold State.misuse
  refine State.each_keeps (P := fun u => u.dies = s.dies ∧ u.misused = s.misused ++ [(rule, d, page)]) ⟨rfl, rfl⟩ fun u e hu => ?_
  rw [show ownWindow page e.1 = none by simp [ownWindow, hp]]
  exact hu

theorem writeEntry_armed {w : Nat} {v : Word} (hw : w < 0x1C) (hr : (findReg regsMilestone w).isSome = true)
    (ha : s.msArmed d i = true) : writeEntry d (0xF0000 + 0x20 * i + w) v s = .next (s.misuse 101 d 2) := by
  have hi : (0xF0000 + 0x20 * i + w - 0xF0000) / 0x20 = i := by omega
  have hk : (0xF0000 + 0x20 * i + w) % 0x20 = w := by omega
  obtain ⟨r, hr⟩ := Option.isSome_iff_exists.1 hr
  unfold writeEntry
  simp only [hi, hk, hr, ha, if_true]
  rw [if_neg (by omega)]

end Sys2Proof.Machine

/-- Settles O17: an operation that waits is applied to the queue's single entry; of a single reached entry, the bookkeeping clears ARMED and
writes MS_LAST, and its action leaves the table. -/
theorem milestoneEntries : Obligations.milestone_entries := by
  unfold Obligations.milestone_entries
  refine ⟨fun s d i hsh hs ha hi => ?_, fun s d i hsh ha hre => ?_, fun s d hs ho h => ?_, fun s d i hsh hs ho h hr h3 h4 => ?_,
    fun s d i w addr v hsh hs ha hx hw hr harm => ?_, fun s d hs => ?_⟩
  · have hd := State.lt_length hsh ha
    exact ⟨⟨_, exec_load hs ha hi, opMsArm_spec hd⟩, ⟨_, exec_arm hs ha hi, opMsArm_spec hd⟩, ⟨_, exec_disarm hs ha hi, opMsArm_spec hd⟩⟩
  · have hd := State.lt_length hsh ha
    exact ⟨fun ho => State.msStart_disarm hd ho hre, fun ho => State.msStart_arm hd ho hre, fun ws ho => State.msStart_load hd ho hre⟩
  · rw [exec_milestoneReached hs ho, opMilestones_none h]
  · exact milestoneReached_spec hsh hs ho h hr h3 h4
  · obtain ⟨go, hgo⟩ := exec_registerWrite_spot (data := v) hs hx rfl ha
    obtain ⟨hdies, hmis⟩ := State.dies_misuse (s := s) (d := d) (rule := 101) (page := 2) (by decide)
    rw [List.isEmpty_iff.1 hs] at hmis
    refine ⟨_, ?_, hmis, hdies⟩
    rw [hgo, writeSpot, if_neg (by simp [State.openSpot_of_alive (x := .entry d _) ha rfl])]
    exact writeEntry_armed hw hr harm
  · obtain ⟨t, ht, hk⟩ := exec_answers (.milestoneReached d) hs
    exact ⟨t, ht, hk.pending⟩

end

section
open Sys2Proof Sys2Proof.Machine

/-! ## Wall time -/

namespace Sys2Proof.Machine
variable {s t u : State} {P Q : Nat → Prop} {m n : Nat}

/-! ### What the changes of the wall-time domains leave

They show in registers of die 0, raise a source, and submit records; the station ports and the rest of the package stay. -/

/-- From s to t only the wall-time domains, their records, and of the dies the registers P of die 0 and what is neither a register, DRAM nor
of the station ports may move. -/
structure State.WallMoves (P : Nat → Prop) (s t : State) : Prop where
  frame : t = { s with dies := t.dies, sumPend := t.sumPend, free := t.free, wall := t.wall, mirrors := t.mirrors }
  length : t.dies.length = s.dies.length
  wallLength : t.wall.length = s.wall.length
  cell : ∀ e key, ¬(e = 0 ∧ P key) → t.cell e key = s.cell e key
  dram : ∀ e, (t.die e).recorder.dram = (s.die e).recorder.dram
  net : ∀ e, (t.die e).net = (s.die e).net

namespace State.WallMoves

theorem refl (P : Nat → Prop) (s : State) : s.WallMoves P s := ⟨rfl, rfl, rfl, fun _ _ _ => rfl, fun _ => rfl, fun _ => rfl⟩

theorem trans (h : s.WallMoves P t) (k : t.WallMoves P u) : s.WallMoves P u := by
  refine ⟨?_, k.length.trans h.length, k.wallLength.trans h.wallLength, fun e key hk => (k.cell e key hk).trans (h.cell e key hk),
    fun e => (k.dram e).trans (h.dram e), fun e => (k.net e).trans (h.net e)⟩
  rw [k.frame, h.frame]

theorem mono (h : s.WallMoves P t) (hp : ∀ key, P key → Q key) : s.WallMoves Q t :=
  ⟨h.frame, h.length, h.wallLength, fun e key hk => h.cell e key fun hc => hk ⟨hc.1, hp key hc.2⟩, h.dram, h.net⟩

/-- A change of the dies that leaves the pins and the station ports. -/
theorem inner (h : s.WallMoves P t) (hi : State.Inner (fun e key => e = 0 ∧ P key) t u) (hw : u.wall = t.wall) (hp : u.pins = t.pins)
    (hn : ∀ e, (u.die e).net = (t.die e).net) : s.WallMoves P u := by
  obtain ⟨hframe, hlength, hcell, hdram⟩ := hi
  rw [hp] at hframe
  refine h.trans ⟨?_, hlength, by rw [hw], hcell, hdram, hn⟩
  rw [hframe]

theorem wr {f : Fld} {i v : Nat} (h : s.WallMoves P t) (hk : P (f.key i)) : s.WallMoves P (t.wr 0 f i v) :=
  h.inner ((State.Inner.refl ..).wr _ _ _ _ ⟨rfl, hk⟩) rfl rfl fun _ => State.wr_net' ..

theorem stick {page bit : Nat} (h : s.WallMoves P t) (hk : ∀ key, stickyKeys page key → P key) : s.WallMoves P (t.stick 0 page bit) :=
  h.inner ((State.Inner.refl ..).stick _ _ _ ⟨rfl, hk _ (.inl rfl)⟩ ⟨rfl, hk _ (.inr rfl)⟩) (State.stick_wall ..) (State.stick_pins ..)
    fun _ => State.stick_net' ..

theorem source {k : Nat} {b : Bool} (h : s.WallMoves P t) : s.WallMoves P (t.source 0 k b) := by
  refine h.inner ((State.Inner.refl ..).source ..) ?_ ?_ fun e => ?_
  all_goals unfold State.source; split
  · exact State.raise_wall ..
  · exact State.lower_wall ..
  · exact State.raise_pins ..
  · exact State.lower_pins ..
  · exact State.raise_net' ..
  · exact State.lower_net' ..

theorem onWall {f : Wall → Wall} (h : s.WallMoves P t) : s.WallMoves P (t.onWall n f) :=
  h.trans ⟨rfl, rfl, List.length_modify .., fun _ _ _ => rfl, fun _ => rfl, fun _ => rfl⟩

theorem submitWall {v : DomUpd} {ts : Nat} (h : s.WallMoves P t) : s.WallMoves P (t.submitWall n v ts) := by
  refine h.trans ?_
  unfold State.submitWall
  dsimp only
  split <;> exact ⟨rfl, rfl, List.length_modify .., fun _ _ _ => rfl, fun _ => rfl, fun _ => rfl⟩

theorem openQuot {a b : Int} (h : s.WallMoves P t) : s.WallMoves P (t.openQuot a b).2 := by
  unfold State.openQuot
  split
  · exact h
  · exact h.trans ⟨rfl, rfl, rfl, fun _ _ _ => rfl, fun _ => rfl, fun _ => rfl⟩

theorem when {c : Bool} {f : State → State} (h : s.WallMoves P t) (hf : ∀ v, s.WallMoves P v → s.WallMoves P (f v)) :
    s.WallMoves P (t.when c f) := by
  unfold State.when
  split
  · exact hf _ h
  · exact h

theorem showHold (h : s.WallMoves P t) (hk : P (Fd.NET_STATUS.W.key 0)) : s.WallMoves P t.showHold :=
  source (h.wr (f := Fd.NET_STATUS.HOLD) hk)

theorem td0 (h : s.WallMoves P t) : t.td0 = s.td0 := by rw [h.frame]

theorem rd {f : Fld} {i : Nat} (h : s.WallMoves P t) (hk : ¬P (f.key i)) : t.rd 0 f i = s.rd 0 f i := by
  unfold State.rd
  rw [h.cell _ _ fun hc => hk hc.2]

theorem onlyOn (h : s.WallMoves P t) : s.OnlyOn t fun e key => e = 0 ∧ P key :=
  ⟨by rw [h.frame], by rw [h.frame], h.cell, h.dram⟩

end State.WallMoves

/-! ### A wall-time domain after a change -/

theorem State.wallOf_congr (h : t.wall = s.wall) : t.wallOf n = s.wallOf n := by
  unfold State.wallOf
  rw [h]

theorem State.wallOf_onWall_same {f : Wall → Wall} (hl : s.wall.length = 3) (h1 : 1 ≤ n) (h3 : n ≤ 3) :
    (s.onWall n f).wallOf n = f (s.wallOf n) := (getD_setAt ..).trans (if_pos ⟨rfl, by omega⟩)

theorem State.wallOf_onWall_ne {f : Wall → Wall} (hm : 1 ≤ m) (h1 : 1 ≤ n) (hne : m ≠ n) : (s.onWall n f).wallOf m = s.wallOf m :=
  (getD_setAt ..).trans (if_neg fun hc => by omega)

/-- What no change of a wall-time domain moves is the same of each. -/
theorem State.wallOf_onWall_field {α : Type} {f : Wall → Wall} {p : Wall → α} (hf : ∀ w, p (f w) = p w) :
    p ((s.onWall n f).wallOf m) = p (s.wallOf m) := by
  refine (congrArg p (getD_setAt ..)).trans ?_
  split
  · exact hf _
  · rfl

theorem State.showHold_wall : s.showHold.wall = s.wall := by
  unfold State.showHold State.source
  dsimp only
  split
  · exact State.raise_wall ..
  · exact State.lower_wall ..

theorem State.showHold_mirrors : s.showHold.mirrors = s.mirrors := by
  unfold State.showHold State.source
  dsimp only
  split
  · exact State.raise_mirrors ..
  · exact State.lower_mirrors ..

theorem State.openQuot_wall {a b : Int} : (s.openQuot a b).2.wall = s.wall := by
  unfold State.openQuot
  split <;> rfl

/-! ### A change of a domain is submitted or held (03 R82, R83) -/

variable {v : DomUpd} {ts : Nat}

theorem State.submitWall_held (h : s.inFlight (n + 7) = true) : s.submitWall n v ts = s.onWall n fun w => { w with held := some v } :=
  if_pos (by simp [h])

theorem State.submitWall_sent (h : s.inFlight (n + 7) = false) (ht : (s.wallOf n).nextOk ≤ ts) : s.submitWall n v ts =
    { s.onWall n fun w => { w with held := none, nextOk := ts + 128 } with mirrors := s.mirrors ++ [⟨n + 7, ts + 128, v, []⟩] } := by
  refine if_neg ?_
  rw [h, Bool.false_or, decide_eq_true_eq, not_lt]
  exact ht

/-- Submitting a change moves nothing of a domain but what waits for it. -/
theorem State.wallOf_submitWall_field {α : Type} {p : Wall → α} (h1 : ∀ w x, p { w with held := x } = p w)
    (h2 : ∀ w x k, p { w with held := x, nextOk := k } = p w) : p ((s.submitWall n v ts).wallOf m) = p (s.wallOf m) := by
  unfold State.submitWall
  dsimp only
  split
  · exact State.wallOf_onWall_field fun w => h1 w _
  · exact State.wallOf_onWall_field fun w => h2 w _ _

/-! ### TD_STEP (14 R377, R378) -/

/-- A domain is given its source: what disciplined it before is forgotten. -/
def State.takeSrc (s : State) (n src : Nat) : State :=
  s.when (s.rd 0 Fd.TD_CTRL.SRC (n - 1) != src) fun s =>
    ((s.wr 0 Fd.TD_CTRL.SRC (n - 1) src).onWall n fun w => { w with integ := 0, hold := false, lastUpd := none }).showHold

theorem opTdCtrl_eq (n : Nat) (value : Word) (s : State) : opTdCtrl n value s =
    (s.takeSrc n (bitsOf value.toNat 1 0)).when (bitOf value.toNat 31) fun s => s.hostStep n (bitOf value.toNat 30) := rfl

/-- The registers that show the source of a domain and the domains in holdover. -/
abbrev srcKeys (n key : Nat) : Prop := key = Fd.TD_CTRL.W.key (n - 1) ∨ key = Fd.NET_STATUS.W.key 0

theorem tdCtrl_key : Fd.TD_CTRL.SRC.key m = Fd.TD_CTRL.W.key m := by
  unfold Fld.key
  rfl

theorem netStatus_key : Fd.NET_STATUS.W.key 0 = 0x9008 := by decide

theorem key_of_page9 {f : Fld} {i b k : Nat} (hp : f.page = 9) (hb : f.base = b) (hs : f.stride = k) :
    f.key i = 0x9000 + b + k * i := by
  unfold Fld.key
  rw [hp, hb, hs]

theorem State.WallMoves.takeSrc {src : Nat} : s.WallMoves (srcKeys n) (s.takeSrc n src) :=
  State.WallMoves.when (.refl ..) fun _ h => (State.WallMoves.onWall (h.wr (.inl tdCtrl_key))).showHold (.inr rfl)

theorem State.rd_showHold {f : Fld} {i : Nat} (hk : f.key i ≠ Fd.NET_STATUS.W.key 0) : s.showHold.rd 0 f i = s.rd 0 f i :=
  (State.WallMoves.showHold (P := (· = Fd.NET_STATUS.W.key 0)) (.refl ..) rfl).rd hk

theorem tdCtrl_key_ne : Fd.TD_CTRL.SRC.key m ≠ Fd.NET_STATUS.W.key 0 := by
  rw [netStatus_key, key_of_page9 (b := 0x100) (k := 0x20) rfl rfl rfl]
  omega

theorem State.rd_takeSrc {src : Nat} (hd : 0 < s.dies.length) (hs : src < 4) : (s.takeSrc n src).rd 0 Fd.TD_CTRL.SRC (n - 1) = src := by
  unfold State.takeSrc State.when
  split
  · rw [State.rd_showHold tdCtrl_key_ne]
    exact (State.rd_wr_same _ _ _ _ _ hd (by decide) (by decide)).trans (Nat.mod_eq_of_lt hs)
  · next h => simpa using h

/-- A new source leaves what is submitted, and of a domain all but what disciplines it. -/
theorem State.takeSrc_leaves {src : Nat} : (s.takeSrc n src).mirrors = s.mirrors ∧
    ((s.takeSrc n src).wallOf n).time = (s.wallOf n).time ∧ ((s.takeSrc n src).wallOf n).nextOk = (s.wallOf n).nextOk := by
  unfold State.takeSrc State.when
  split
  · rw [State.showHold_mirrors, State.wallOf_congr State.showHold_wall]
    exact ⟨rfl, State.wallOf_onWall_field fun _ => rfl, State.wallOf_onWall_field fun _ => rfl⟩
  · exact ⟨rfl, rfl, rfl⟩

theorem State.takeSrc_lastUpd {src t0 : Nat} (hl : s.wall.length = 3) (h1 : 1 ≤ n) (h3 : n ≤ 3) (h : (s.wallOf n).lastUpd ≠ some t0) :
    ((s.takeSrc n src).wallOf n).lastUpd ≠ some t0 := by
  unfold State.takeSrc State.when
  split
  · rw [State.wallOf_congr State.showHold_wall, State.wallOf_onWall_same (s := s.wr 0 _ _ _) hl h1 h3]
    nofun
  · exact h

/-- The other registers of a domain are not among them. -/
theorem not_srcKeys {f : Fld} {b : Nat} (hb : 0x100 < b) (hb' : b < 0x120) (h1 : f.page = 9) (h2 : f.base = b) (h3 : f.stride = 0x20) :
    ¬srcKeys n (f.key (n - 1)) := by
  unfold srcKeys
  rw [netStatus_key, key_of_page9 h1 h2 h3, key_of_page9 (f := Fd.TD_CTRL.W) (b := 0x100) (k := 0x20) rfl rfl rfl]
  omega

theorem State.WallMoves.rd_domReg {f : Fld} {b : Nat} (h : s.WallMoves (srcKeys n) t) (hb : 0x100 < b) (hb' : b < 0x120) (h1 : f.page = 9)
    (h2 : f.base = b) (h3 : f.stride = 0x20) : t.rd 0 f (n - 1) = s.rd 0 f (n - 1) := h.rd (not_srcKeys hb hb' h1 h2 h3)

theorem State.stepAmount_congr {rel : Bool} (h : s.WallMoves (srcKeys n) t) : t.stepAmount n rel = s.stepAmount n rel := by
  unfold State.stepAmount
  rw [h.rd_domReg (f := Fd.TD_SET_SEC_LO.W) (b := 0x104) (by decide) (by decide) rfl rfl rfl,
    h.rd_domReg (f := Fd.TD_SET_SEC_HI.W) (b := 0x108) (by decide) (by decide) rfl rfl rfl,
    h.rd_domReg (f := Fd.TD_SET_NS.W) (b := 0x10C) (by decide) (by decide) rfl rfl rfl]

/-- The step that a host writes. -/
def State.stepOf (s : State) (n : Nat) (rel : Bool) : DomUpd := if rel then .tdRel (s.stepAmount n true) else .tdSet (s.stepAmount n false)

/-- A host step where no servo update came in the tick. -/
theorem State.hostStep_eq {rel : Bool} (h : (s.wallOf n).lastUpd ≠ some s.td0) : s.hostStep n rel =
    ((s.onWall n fun w => { w with stepAt := some s.td0 }).submitWall n (s.stepOf n rel) (s.td0 + 1)).sticky 0 Sk.NET.TD_STEP := by
  unfold State.hostStep
  dsimp only
  rw [if_neg (by simpa using h), State.stepAmount_congr (State.WallMoves.refl (srcKeys n) s).onWall]
  unfold State.stepOf
  cases rel with
  | false =>
    rw [if_neg Bool.false_ne_true, if_neg Bool.false_ne_true]
    rfl
  | true =>
    rw [if_pos rfl, if_pos rfl]
    rfl

theorem State.WallMoves.hostStep {rel : Bool} (h : (s.wallOf n).lastUpd ≠ some s.td0) : s.WallMoves (stickyKeys 9) (s.hostStep n rel) := by
  rw [State.hostStep_eq h]
  exact State.WallMoves.stick (State.WallMoves.refl ..).onWall.submitWall fun _ => id

theorem srcKeys_ne_stickyKeys {key : Nat} (h : srcKeys n key) : ¬stickyKeys 9 key := by
  unfold srcKeys at h
  rw [netStatus_key, key_of_page9 (f := Fd.TD_CTRL.W) (b := 0x100) (k := 0x20) rfl rfl rfl] at h
  unfold stickyKeys hdrKey
  omega

theorem exec_tdStep {value : Word} (hs : s.sane = true) (hh : s.isHead = true) (ha : s.alive 0 = true) (h1 : 1 ≤ n) (h3 : n ≤ 3) :
    exec (.tdStep n value) s = .next (opTdCtrl n value s) := by
  change s.guarded _ _ = _
  exact State.guarded_true _ _ _ hs (by simp [hh, ha, h1, h3])

/-- What a write of a domain's control register without STEP does. -/
theorem opTdCtrl_plain {value : Word} (hb : bitOf value.toNat 31 = false) : opTdCtrl n value s = s.takeSrc n (bitsOf value.toNat 1 0) := by
  rw [opTdCtrl_eq, hb]
  rfl

theorem opTdCtrl_step {value : Word} (hb : bitOf value.toNat 31 = true) :
    opTdCtrl n value s = (s.takeSrc n (bitsOf value.toNat 1 0)).hostStep n (bitOf value.toNat 30) := by
  rw [opTdCtrl_eq, hb]
  rfl

section HostStep
variable {rel : Bool}

/-- A host step that is sent: the record, and what shows of it. -/
theorem State.hostStep_sent (hd : 0 < s.dies.length) (hl : s.wall.length = 3) (h1 : 1 ≤ n) (h3 : n ≤ 3)
    (hu : (s.wallOf n).lastUpd ≠ some s.td0) (hf : s.inFlight (n + 7) = false) (ht : (s.wallOf n).nextOk ≤ s.td0 + 1) :
    ((s.hostStep n rel).wallOf n).stepAt = some s.td0 ∧
    (s.hostStep n rel).mirrors = s.mirrors ++ [⟨n + 7, s.td0 + 129, s.stepOf n rel, []⟩] ∧
    (s.hostStep n rel).stuckAt 0 Sk.NET.TD_STEP.page Sk.NET.TD_STEP.bit = true := by
  have hok : ((s.onWall n fun w => { w with stepAt := some s.td0 }).wallOf n).nextOk = (s.wallOf n).nextOk :=
    State.wallOf_onWall_field fun _ => rfl
  rw [State.hostStep_eq hu, State.sticky_eq]
  refine ⟨?_, ?_, State.stuckAt_stick_same _ _ _ _ ?_ (by decide)⟩
  · rw [State.wallOf_congr (State.stick_wall ..), State.wallOf_submitWall_field (p := Wall.stepAt) (fun _ _ => rfl) fun _ _ _ => rfl,
      State.wallOf_onWall_same hl h1 h3]
  · rw [State.stick_mirrors, State.submitWall_sent (s := s.onWall n _) hf (hok.trans_le ht)]
    rfl
  · rw [(State.WallMoves.submitWall (State.WallMoves.onWall (.refl (stickyKeys 9) _))).length]
    exact hd

/-- A host step while a record of the domain is in flight is held. -/
theorem State.hostStep_held (hl : s.wall.length = 3) (h1 : 1 ≤ n) (h3 : n ≤ 3) (hu : (s.wallOf n).lastUpd ≠ some s.td0)
    (hf : s.inFlight (n + 7) = true) :
    (s.hostStep n rel).mirrors = s.mirrors ∧ ((s.hostStep n rel).wallOf n).held = some (s.stepOf n rel) := by
  rw [State.hostStep_eq hu, State.sticky_eq, State.stick_mirrors, State.wallOf_congr (State.stick_wall ..), State.submitWall_held (s := s.onWall n _) hf,
    State.wallOf_onWall_same (by exact (List.length_modify ..).trans hl) h1 h3]
  exact ⟨rfl, rfl⟩

end HostStep

theorem State.sized_iff : s.sized = true ↔ s.shaped = true ∧ s.dies.all Die.sized = true ∧ s.wall.length = 3 := by
  simp [State.sized, and_assoc]

/-- TD_STEP without STEP, with a step that is sent, and with one that is held. -/
theorem tdStep_spec {value : Word} (hz : s.sized = true) (hs : s.sane = true) (hh : s.isHead = true) (ha : s.alive 0 = true) (h1 : 1 ≤ n)
    (h3 : n ≤ 3) :
    (bitOf value.toNat 31 = false → Completes (.tdStep n value) s fun t =>
      t.rd 0 Fd.TD_CTRL.SRC (n - 1) = bitsOf value.toNat 1 0 ∧ t.mirrors = s.mirrors ∧ (t.wallOf n).time = (s.wallOf n).time ∧
      s.OnlyOn t fun e key => e = 0 ∧ (key = Fd.TD_CTRL.W.key (n - 1) ∨ key = Fd.NET_STATUS.W.key 0)) ∧
    (bitOf value.toNat 31 = true → s.inFlight (n + 7) = false → (s.wallOf n).nextOk ≤ s.td0 + 1 → (s.wallOf n).lastUpd ≠ some s.td0 →
      Completes (.tdStep n value) s fun t =>
        t.rd 0 Fd.TD_CTRL.SRC (n - 1) = bitsOf value.toNat 1 0 ∧ (t.wallOf n).stepAt = some s.td0 ∧
        t.mirrors = s.mirrors ++ [⟨n + 7, s.td0 + 129, s.stepOf n (bitOf value.toNat 30), []⟩] ∧
        t.stuckAt 0 Sk.NET.TD_STEP.page Sk.NET.TD_STEP.bit = true ∧
        s.OnlyOn t fun e key => e = 0 ∧ (key = Fd.TD_CTRL.W.key (n - 1) ∨ key = Fd.NET_STATUS.W.key 0 ∨ stickyKeys 9 key)) ∧
    (bitOf value.toNat 31 = true → s.inFlight (n + 7) = true → (s.wallOf n).lastUpd ≠ some s.td0 → Completes (.tdStep n value) s fun t =>
      t.mirrors = s.mirrors ∧ (t.wallOf n).held = some (s.stepOf n (bitOf value.toNat 30))) := by
  obtain ⟨hsh, -, hl⟩ := State.sized_iff.1 hz
  have hd := State.lt_length hsh ha
  have hmoves := State.WallMoves.takeSrc (s := s) (n := n) (src := bitsOf value.toNat 1 0)
  have hsrc : (s.takeSrc n (bitsOf value.toNat 1 0)).rd 0 Fd.TD_CTRL.SRC (n - 1) = bitsOf value.toNat 1 0 :=
    State.rd_takeSrc hd (Nat.mod_lt _ (by decide))
  obtain ⟨hmir, htime, hok⟩ := State.takeSrc_leaves (s := s) (n := n) (src := bitsOf value.toNat 1 0)
  refine ⟨fun hb => ⟨_, exec_tdStep hs hh ha h1 h3, ?_⟩, fun hb hf ht hu => ⟨_, exec_tdStep hs hh ha h1 h3, ?_⟩,
    fun hb hf hu => ⟨_, exec_tdStep hs hh ha h1 h3, ?_⟩⟩
  · rw [opTdCtrl_plain hb]
    exact ⟨hsrc, hmir, htime, hmoves.onlyOn⟩
  all_goals
    rw [opTdCtrl_step hb]
    have hu' := State.takeSrc_lastUpd (src := bitsOf value.toNat 1 0) hl h1 h3 hu
    rw [← hmoves.td0] at hu'
    have hfly : (s.takeSrc n (bitsOf value.toNat 1 0)).inFlight (n + 7) = s.inFlight (n + 7) := by
      unfold State.inFlight
      rw [hmir]
    have hstep : (s.takeSrc n (bitsOf value.toNat 1 0)).stepOf n (bitOf value.toNat 30) = s.stepOf n (bitOf value.toNat 30) := by
      unfold State.stepOf
      rw [State.stepAmount_congr hmoves, State.stepAmount_congr hmoves]
  · obtain ⟨hat, hsent, hstuck⟩ := State.hostStep_sent (rel := bitOf value.toNat 30) (by rwa [hmoves.length]) (hmoves.wallLength.trans hl)
      h1 h3 hu' (hfly.trans hf) (by rwa [hok, hmoves.td0])
    have hmoves' := State.WallMoves.hostStep (rel := bitOf value.toNat 30) hu'
    have hall : s.WallMoves (fun key => key = Fd.TD_CTRL.W.key (n - 1) ∨ key = Fd.NET_STATUS.W.key 0 ∨ stickyKeys 9 key)
        ((s.takeSrc n (bitsOf value.toNat 1 0)).hostStep n (bitOf value.toNat 30)) :=
      (hmoves.mono fun _ hk => hk.imp id .inl).trans (hmoves'.mono fun _ hk => .inr (.inr hk))
    refine ⟨(hmoves'.rd (srcKeys_ne_stickyKeys (.inl tdCtrl_key))).trans hsrc, by rwa [hmoves.td0] at hat, ?_, hstuck, hall.onlyOn⟩
    rw [hsent, hmir, hmoves.td0, hstep]
  · obtain ⟨hsame, hheld⟩ := State.hostStep_held (rel := bitOf value.toNat 30) (hmoves.wallLength.trans hl) h1 h3 hu' (hfly.trans hf)
    exact ⟨hsame.trans hmir, hheld.trans (congrArg some hstep)⟩

/-! ### SYNC_LOSS (14 R380) -/

theorem ofBits_lt (p : Nat → Bool) (k : Nat) : ofBits p k < 2 ^ k := by
  induction k with
  | zero => exact Nat.one_pos
  | succ k ih =>
    unfold ofBits
    rw [Nat.pow_succ]
    split <;> omega

theorem bitOf_eq_testBit (x b : Nat) : bitOf x b = x.testBit b := by
  rw [Nat.testBit_eq_decide_div_mod_eq]
  rfl

/-- A number made of bits has them. -/
theorem bitOf_ofBits {p : Nat → Bool} {k b : Nat} (hb : b < k) : bitOf (ofBits p k) b = p b := by
  rw [bitOf_eq_testBit]
  induction k with
  | zero => omega
  | succ k ih =>
    unfold ofBits
    rcases Nat.lt_succ_iff_lt_or_eq.1 hb with hlt | rfl
    · split
      · rw [Nat.add_comm, Nat.testBit_two_pow_add_gt hlt, ih hlt]
      · exact ih hlt
    · have hnone : (ofBits p b).testBit b = false := Nat.testBit_lt_two_pow (ofBits_lt p b)
      split
      · next h => rw [Nat.add_comm, Nat.testBit_two_pow_add_eq, hnone, h, Bool.not_false]
      · next h => rw [Nat.add_zero, hnone, Bool.eq_false_iff.2 h]

theorem State.cell_source {d e k key : Nat} {b : Bool} : (s.source d k b).cell e key = s.cell e key := by
  unfold State.source
  split
  · exact State.cell_raise ..
  · exact State.cell_lower ..

/-- HOLD shows which domains are in holdover, and their loss is a source of faults where the part is so configured. -/
theorem State.showHold_spec (hd : 0 < s.dies.length) :
    (∀ k, k < 3 → bitOf (s.showHold.rd 0 Fd.NET_STATUS.HOLD) k = (s.wallOf (k + 1)).hold) ∧
    (s.flag 0 Fd.SERVO2.LOSS_FLT = true → (∃ n, 1 ≤ n ∧ n ≤ 3 ∧ (s.wallOf n).hold = true) → 0x090 ∈ (s.showHold.die 0).flt.present) := by
  refine ⟨fun k hk => ?_, fun hf hn => ?_⟩
  · unfold State.showHold
    dsimp only
    rw [State.rd_congr fun _ => State.cell_source, State.rd_wr_same _ _ _ _ _ hd (by decide) (by decide)]
    exact (congrArg (bitOf · k) (Nat.mod_eq_of_lt (ofBits_lt _ 3))).trans (bitOf_ofBits hk)
  · have hwr : ∀ x, (s.wr 0 Fd.NET_STATUS.HOLD 0 x).flag 0 Fd.SERVO2.LOSS_FLT = true := fun x => by
      rw [State.flag_eq, State.rd_wr_ne _ _ _ _ _ _ _ _ (.inr (by decide)), ← State.flag_eq, hf]
    have hany : ([1, 2, 3].any fun n => (s.wallOf n).hold) = true := by
      obtain ⟨n, h1, h3, hn⟩ := hn
      exact List.any_eq_true.2 ⟨n, by simp; omega, hn⟩
    unfold State.showHold State.source
    dsimp only
    rw [if_pos (by rw [hwr]; exact hany)]
    exact State.mem_present_raise (by rwa [State.wr_length])

/-- The registers that show a holdover. -/
abbrev holdKeys (key : Nat) : Prop := key = Fd.NET_STATUS.W.key 0 ∨ stickyKeys 9 key

theorem State.WallMoves.enterHold (h : s.WallMoves P t) (hk : ∀ key, holdKeys key → P key) : s.WallMoves P (t.enterHold n) :=
  (State.WallMoves.stick h.onWall fun _ hs => hk _ (.inr hs)).showHold (hk _ (.inl rfl))

/-- The domain is in holdover, before HOLD shows it. -/
def State.loseSync (s : State) (n : Nat) : State := (s.onWall n fun w => { w with hold := true }).sticky 0 Sk.NET.SYNC_LOSS

theorem State.enterHold_eq : s.enterHold n = (s.loseSync n).showHold := rfl

theorem State.WallMoves.loseSync : s.WallMoves (stickyKeys 9) (s.loseSync n) :=
  State.WallMoves.stick (State.WallMoves.refl ..).onWall fun _ => id

theorem State.hold_loseSync (hl : s.wall.length = 3) (h1 : 1 ≤ n) (h3 : n ≤ 3) : ((s.loseSync n).wallOf n).hold = true :=
  congrArg Wall.hold ((State.wallOf_congr (State.stick_wall ..)).trans (State.wallOf_onWall_same hl h1 h3))

theorem State.stuckAt_loseSync (hd : 0 < s.dies.length) : (s.loseSync n).stuckAt 0 Sk.NET.SYNC_LOSS.page Sk.NET.SYNC_LOSS.bit = true :=
  State.stuckAt_stick_same _ _ _ _ hd (by decide)

/-- A holdover that begins. -/
theorem State.enterHold_spec (hd : 0 < s.dies.length) (hl : s.wall.length = 3) (h1 : 1 ≤ n) (h3 : n ≤ 3) :
    ((s.enterHold n).wallOf n).hold = true ∧ bitOf ((s.enterHold n).rd 0 Fd.NET_STATUS.HOLD) (n - 1) = true ∧
    (s.enterHold n).stuckAt 0 Sk.NET.SYNC_LOSS.page Sk.NET.SYNC_LOSS.bit = true ∧
    (s.flag 0 Fd.SERVO2.LOSS_FLT = true → 0x090 ∈ ((s.enterHold n).die 0).flt.present) := by
  have hmoves := State.WallMoves.loseSync (s := s) (n := n)
  have hhold := State.hold_loseSync hl h1 h3
  have hshow : (s.loseSync n).WallMoves (· = Fd.NET_STATUS.W.key 0) (s.loseSync n).showHold := State.WallMoves.showHold (.refl ..) rfl
  obtain ⟨hbits, hflt⟩ := State.showHold_spec (s := s.loseSync n) (by rwa [hmoves.length])
  rw [State.enterHold_eq]
  refine ⟨(congrArg Wall.hold (State.wallOf_congr State.showHold_wall)).trans hhold, ?_, ?_, fun hf => hflt ?_ ⟨n, h1, h3, hhold⟩⟩
  · rw [← hhold, ← Nat.sub_add_cancel h1]
    exact hbits (n - 1) (by omega)
  · rw [← State.stuckAt_loseSync (n := n) hd]
    unfold State.stuckAt
    rw [hshow.cell 0 _ fun hc => absurd hc.2 (by decide)]
  · rw [State.flag_eq, hmoves.rd (by unfold stickyKeys; decide), ← State.flag_eq, hf]

theorem State.lossDue_eq {t0 : Nat} (hsrc : s.tdSrc n ≠ 0) (hh : (s.wallOf n).hold = false) (hu : (s.wallOf n).lastUpd = some t0) :
    s.lossDue n = decide (t0 + max 1 (s.rd 0 Fd.SERVO2.SYNC_TO) * 800000000 ≤ s.td0) := by
  unfold State.lossDue
  rw [hh, hu]
  simp [hsrc]

theorem State.alive_of_netOn {d : Nat} (h : s.netOn d = true) : s.alive d = true := by
  unfold State.netOn at h
  exact State.alive_of_on (Bool.and_eq_true_iff.1 h).2

theorem syncLoss_spec {t0 : Nat} (hz : s.sized = true) (hs : s.sane = true) (hn : s.netOn 0 = true) (h1 : 1 ≤ n) (h3 : n ≤ 3)
    (hsrc : s.tdSrc n ≠ 0) (hh : (s.wallOf n).hold = false) (hu : (s.wallOf n).lastUpd = some t0) :
    (s.td0 < t0 + max 1 (s.rd 0 Fd.SERVO2.SYNC_TO) * 800000000 → exec (.syncLoss n) s = .next s) ∧
    (t0 + max 1 (s.rd 0 Fd.SERVO2.SYNC_TO) * 800000000 ≤ s.td0 → Completes (.syncLoss n) s fun t =>
      (t.wallOf n).hold = true ∧ bitOf (t.rd 0 Fd.NET_STATUS.HOLD) (n - 1) = true ∧
      t.stuckAt 0 Sk.NET.SYNC_LOSS.page Sk.NET.SYNC_LOSS.bit = true ∧
      (s.flag 0 Fd.SERVO2.LOSS_FLT = true → 0x090 ∈ (t.die 0).flt.present) ∧
      s.OnlyOn t fun e key => e = 0 ∧ (key = Fd.NET_STATUS.W.key 0 ∨ stickyKeys 9 key)) := by
  obtain ⟨hsh, -, hl⟩ := State.sized_iff.1 hz
  have hdue := State.lossDue_eq hsrc hh hu
  refine ⟨fun ht => ?_, fun ht => ⟨s.enterHold n, ?_, ?_⟩⟩
  · change execSyncLoss n s = _
    unfold execSyncLoss
    exact State.guarded_false _ _ _ hs (by rw [hdue, decide_eq_false (Nat.not_le.2 ht), Bool.and_false])
  · change execSyncLoss n s = _
    unfold execSyncLoss
    exact State.guarded_true _ _ _ hs (by rw [hdue, decide_eq_true ht, hn]; simp [h1, h3])
  · have hd : 0 < s.dies.length := State.lt_length hsh (State.alive_of_netOn hn)
    obtain ⟨hhold, hbit, hstuck, hflt⟩ := State.enterHold_spec hd hl h1 h3
    exact ⟨hhold, hbit, hstuck, hflt, (State.WallMoves.enterHold (.refl holdKeys s) fun _ => id).onlyOn⟩

/-! ### The servo (14 R379, R380) -/

/-- A domain takes an update: a holdover that was due has come and goes. -/
def State.takeUpd (s : State) (n : Nat) : State :=
  let s := s.when (s.lossDue n) (·.enterHold n)
  (s.onWall n fun w => { w with lastUpd := some s.td0, hold := false }).showHold

/-- What holds of a domain that has taken its update, and through each kind of change that disciplines it, holds after the servo. -/
theorem State.servo_induction {C : State → Prop} {o : Int} (h : C (s.takeUpd n)) (hquot : ∀ v a b, C v → C (v.openQuot a b).2)
    (hofm : ∀ v x, C v → C (v.wrS 0 Fd.OFM.W 0 x)) (hint : ∀ v i, C v → C (v.onWall n fun w => { w with integ := i }))
    (hsub : ∀ v x ts, C v → C (v.submitWall n x ts)) (hstick : ∀ v b, C v → C (v.stick 0 9 b)) : C (s.servo n o) := by
  have htrim : ∀ v x, C v → C (v.changeTrim n x) := fun v x hv => by
    unfold State.changeTrim State.when
    dsimp only
    split
    · exact hsub _ _ _ (hstick _ _ hv)
    · exact hsub _ _ _ hv
  have hofm' := hofm _ ((s.takeUpd n).openQuot o (2 ^ 40)).1 (hquot _ o (2 ^ 40) h)
  unfold State.servo
  dsimp only
  split
  · exact hint _ _ hofm'
  · split
    · exact hstick _ _ (hsub _ _ _ (hint _ _ hofm'))
    · exact htrim _ _ (hquot _ _ _ (hint _ _ hofm'))

/-- The registers that a servo update writes. -/
abbrev servoKeys (key : Nat) : Prop := key = Fd.OFM.W.key 0 ∨ holdKeys key

theorem State.WallMoves.takeUpd (h : s.WallMoves servoKeys t) : s.WallMoves servoKeys (t.takeUpd n) :=
  (State.WallMoves.onWall (h.when fun _ h => h.enterHold fun _ => .inr)).showHold (.inr (.inl rfl))

theorem State.WallMoves.servo {o : Int} (h : s.WallMoves servoKeys t) : s.WallMoves servoKeys (t.servo n o) :=
  State.servo_induction h.takeUpd (fun _ _ _ h => h.openQuot) (fun _ _ h => h.wr (.inl rfl)) (fun _ _ h => h.onWall)
    (fun _ _ _ h => h.submitWall) fun _ _ h => h.stick fun _ hk => .inr (.inr hk)

/-- When a domain was last updated, and whether it is in holdover. -/
def Wall.track (w : Wall) : Option Nat × Bool := (w.lastUpd, w.hold)

theorem State.track_integ {i : Int} : ((s.onWall n fun w => { w with integ := i }).wallOf m).track = (s.wallOf m).track := by
  refine State.wallOf_onWall_field (p := Wall.track) ?_
  exact fun _ => rfl

/-- What disciplines a domain leaves when it, and every other, was last updated. -/
theorem State.track_servo {o : Int} : ((s.servo n o).wallOf m).track = ((s.takeUpd n).wallOf m).track := by
  have hstep : ∀ {v w : State}, w.wall = v.wall → (v.wallOf m).track = ((s.takeUpd n).wallOf m).track →
      (w.wallOf m).track = ((s.takeUpd n).wallOf m).track := fun hw hv => (congrArg Wall.track (State.wallOf_congr hw)).trans hv
  refine State.servo_induction (C := fun v => (v.wallOf m).track = ((s.takeUpd n).wallOf m).track) rfl (fun _ _ _ => hstep State.openQuot_wall)
    (fun _ _ => hstep rfl) (fun v i hv => ?_) (fun v x ts hv => ?_) fun _ _ => hstep (State.stick_wall ..)
  · exact State.track_integ.trans hv
  · exact (State.wallOf_submitWall_field (p := Wall.track) (fun _ _ => rfl) fun _ _ _ => rfl).trans hv

theorem State.track_takeUpd_same (hl : s.wall.length = 3) (h1 : 1 ≤ n) (h3 : n ≤ 3) :
    ((s.takeUpd n).wallOf n).track = (some s.td0, false) := by
  have hmoves : s.WallMoves holdKeys (s.when (s.lossDue n) (·.enterHold n)) :=
    State.WallMoves.when (.refl ..) fun _ h => h.enterHold fun _ => id
  unfold State.takeUpd
  rw [State.wallOf_congr State.showHold_wall, State.wallOf_onWall_same (hmoves.wallLength.trans hl) h1 h3, ← hmoves.td0]
  rfl

theorem State.track_takeUpd_ne (hm : 1 ≤ m) (h1 : 1 ≤ n) (hne : m ≠ n) : ((s.takeUpd n).wallOf m).track = (s.wallOf m).track := by
  unfold State.takeUpd State.when
  rw [State.wallOf_congr State.showHold_wall, State.wallOf_onWall_ne hm h1 hne]
  split
  · unfold State.enterHold State.sticky
    rw [State.wallOf_congr State.showHold_wall, State.wallOf_congr (State.stick_wall ..), State.wallOf_onWall_ne hm h1 hne]
  · rfl

/-! ### PPS (14 R386, R387) -/

/-- What PPS_IN shows of an accepted edge. -/
def State.showPps (s : State) (tick : Nat) (ns : Nat) : State :=
  ((s.wr 0 Fd.PPS_IN_T.W 0 (loWord tick)).wr 0 Fd.PPS_IN_NS.W 0 ns).onNet 0 fun x => { x with lastPps := some tick }

/-- A domain's time when the edge began, before its filter. -/
def State.ppsTime (s : State) (n : Nat) : Int := (s.wallOf n).time - (s.ppsFilter : Int) * wallInc (s.wallOf n).trim

/-- The edge comes within half a second of the previous. -/
def State.ppsNear (s : State) (tick : Nat) : Bool :=
  match (s.net 0).lastPps with
  | some t => decide (tick < t + 400000000)
  | none => false

/-- The domains that an edge updates. -/
def State.ppsUsers (s : State) (tick : Nat) : List Nat := [1, 2, 3].filter fun n => !s.ppsNear tick && s.tdSrc n == 2

/-- What an accepted edge does. -/
def State.takePps (s : State) (tick : Nat) : State :=
  (s.showPps tick (s.ppsTime 1 / 2 ^ 48 % 10 ^ 9).toNat).each (s.ppsUsers tick) fun v n => v.servo n (secOffset (s.ppsTime n))

theorem exec_ppsInEdge {stable : Nat} (hs : s.sane = true) (hn : s.netOn 0 = true) (hf : s.ppsFilter ≤ stable) :
    exec (.ppsInEdge stable) s = .next (s.takePps (s.td0 - s.ppsFilter)) := by
  change execPpsInEdge stable s = _
  unfold execPpsInEdge
  rw [State.guarded_true _ _ _ hs (by rw [hn, decide_eq_true hf]; rfl)]
  rfl

theorem State.OnlyOn.trans {P : Nat → Nat → Prop} (h : s.OnlyOn t P) (k : t.OnlyOn u P) : s.OnlyOn u P := by
  obtain ⟨hpart, hpending, hcell, hdram⟩ := h
  obtain ⟨hpart', hpending', hcell', hdram'⟩ := k
  exact ⟨hpart'.trans hpart, hpending'.trans hpending, fun e key hk => (hcell' e key hk).trans (hcell e key hk),
    fun e => (hdram' e).trans (hdram e)⟩

/-- A change of a station port leaves the registers and DRAM. -/
theorem State.onlyOn_onNet {d : Nat} {f : Net → Net} : s.OnlyOn (s.onNet d f) fun _ _ => False := by
  unfold State.onNet
  refine ⟨rfl, rfl, fun e key _ => State.cell_onDie _ _ _ _ _ fun _ => rfl, fun e => ?_⟩
  rw [State.die_onDie]
  split <;> rfl

theorem State.OnlyOn.mono {P Q : Nat → Nat → Prop} (h : s.OnlyOn t P) (hp : ∀ e key, P e key → Q e key) : s.OnlyOn t Q := by
  obtain ⟨hpart, hpending, hcell, hdram⟩ := h
  exact ⟨hpart, hpending, fun e key hk => hcell e key (mt (hp e key) hk), hdram⟩

theorem State.net_onNet {d : Nat} {f : Net → Net} (hd : d < s.dies.length) : (s.onNet d f).net d = f (s.net d) := by
  unfold State.net State.onNet
  rw [State.die_onDie_same _ _ _ hd]

/-- Page 9 holds what an edge and the servo write. -/
theorem pageKeys_of_servoKeys {key : Nat} (h : servoKeys key) : pageKeys 9 key := by
  have hofm : Fd.OFM.W.key 0 = 0x9080 := by decide
  unfold servoKeys holdKeys stickyKeys hdrKey at h
  rw [hofm, netStatus_key] at h
  unfold pageKeys
  omega

section Pps
variable {tick ns : Nat}

theorem State.onlyOn_showPps : s.OnlyOn (s.showPps tick ns) fun e key => e = 0 ∧ pageKeys 9 key :=
  (State.WallMoves.wr (State.WallMoves.wr (.refl (pageKeys 9) s) (by unfold pageKeys; decide)) (by unfold pageKeys; decide)).onlyOn.trans
    (State.onlyOn_onNet.mono fun _ _ => False.elim)

theorem State.rd_showPps (hd : 0 < s.dies.length) (hns : ns < 2 ^ 32) :
    (s.showPps tick ns).rd 0 Fd.PPS_IN_T.W = loWord tick ∧ (s.showPps tick ns).rd 0 Fd.PPS_IN_NS.W = ns := by
  have hnet : ∀ (v : State) (f : Net → Net) (g : Fld), (v.onNet 0 f).rd 0 g = v.rd 0 g := fun v f g =>
    State.rd_congr fun key => State.onlyOn_onNet.2.2.1 0 key id
  unfold State.showPps
  rw [hnet, hnet]
  refine ⟨?_, (State.rd_wr_same _ _ _ _ _ (by rwa [State.wr_length]) (by decide) (by decide)).trans (Nat.mod_eq_of_lt hns)⟩
  rw [State.rd_wr_ne _ _ _ _ _ _ _ _ (.inr (by decide))]
  exact (State.rd_wr_same _ _ _ _ _ hd (by decide) (by decide)).trans (Nat.mod_eq_of_lt (loWord_lt _))

theorem State.lastPps_showPps (hd : 0 < s.dies.length) : ((s.showPps tick ns).net 0).lastPps = some tick := by
  unfold State.showPps
  rw [State.net_onNet (by rwa [State.wr_length, State.wr_length])]

/-- Whichever domains the edge updates, only what the servo writes moves beside what PPS_IN shows. -/
theorem State.WallMoves.takePps :
    (s.showPps tick (s.ppsTime 1 / 2 ^ 48 % 10 ^ 9).toNat).WallMoves servoKeys (s.takePps tick) :=
  State.each_keeps (.refl ..) fun _ _ h => h.servo

theorem State.ppsNear_iff : s.ppsNear tick = true ↔ ∃ t0, (s.net 0).lastPps = some t0 ∧ tick < t0 + 400000000 := by
  unfold State.ppsNear
  split
  · next t ht => simp [ht]
  · next ht => simp [ht]

/-- An edge within half a second of the previous updates no domain. -/
theorem State.wall_takePps_near (h : s.ppsNear tick = true) : (s.takePps tick).wall = s.wall := by
  have hnone : s.ppsUsers tick = [] := by
    unfold State.ppsUsers
    rw [h]
    rfl
  unfold State.takePps
  rw [hnone]
  rfl

theorem State.mem_ppsUsers : n ∈ s.ppsUsers tick ↔ (1 ≤ n ∧ n ≤ 3) ∧ s.ppsNear tick = false ∧ s.tdSrc n = 2 := by
  have h123 : n ∈ [1, 2, 3] ↔ 1 ≤ n ∧ n ≤ 3 := by
    simp only [List.mem_cons, List.not_mem_nil, or_false]
    omega
  unfold State.ppsUsers
  rw [List.mem_filter, h123, Bool.and_eq_true, Bool.not_eq_true', beq_iff_eq]

/-- Every domain of a list takes its update, whatever its offset. -/
theorem State.track_each_servo {l : List Nat} {o : Nat → Int} (hl : s.wall.length = 3) (h13 : ∀ m ∈ l, 1 ≤ m ∧ m ≤ 3) (hn : n ∈ l) :
    ((s.each l fun v n => v.servo n (o n)).wallOf n).track = (some s.td0, false) := by
  obtain ⟨h1, h3⟩ := h13 n hn
  have hsame : ∀ v, s.WallMoves servoKeys v → ((v.servo n (o n)).wallOf n).track = (some s.td0, false) := fun v hv => by
    rw [State.track_servo, State.track_takeUpd_same (hv.wallLength.trans hl) h1 h3, hv.td0]
  refine State.each_brings_mem hn (P := s.WallMoves servoKeys) (Q := fun v => (v.wallOf n).track = (some s.td0, false)) (.refl ..)
    (fun v _ _ hv => hv.servo) hsame fun v m hm hv hq => ?_
  by_cases hne : n = m
  · rw [← hne]
    exact hsame v hv
  · rw [State.track_servo, State.track_takeUpd_ne h1 (h13 m hm).1 hne, hq]

/-- Any other edge updates the domains that follow PPS. -/
theorem State.track_takePps (hl : s.wall.length = 3) (hn : n ∈ s.ppsUsers tick) :
    ((s.takePps tick).wallOf n).track = (some s.td0, false) :=
  State.track_each_servo (s := s.showPps tick _) (o := fun n => secOffset (s.ppsTime n)) hl (fun _ hm => (State.mem_ppsUsers.1 hm).1) hn

end Pps

theorem ppsInEdge_spec {stable tick : Nat} (hz : s.sized = true) (hs : s.sane = true) (hn : s.netOn 0 = true)
    (ht : tick = s.td0 - s.ppsFilter) : (stable < s.ppsFilter → exec (.ppsInEdge stable) s = .next s) ∧
    (s.ppsFilter ≤ stable → Completes (.ppsInEdge stable) s fun t =>
      t.rd 0 Fd.PPS_IN_T.W = loWord tick ∧ (t.net 0).lastPps = some tick ∧
      t.rd 0 Fd.PPS_IN_NS.W = (((s.wallOf 1).time - s.ppsFilter * wallInc (s.wallOf 1).trim) / 2 ^ 48 % 10 ^ 9).toNat ∧
      (∀ t0, (s.net 0).lastPps = some t0 → tick < t0 + 400000000 → t.wall = s.wall) ∧
      (∀ n, 1 ≤ n → n ≤ 3 → s.tdSrc n = 2 → (∀ t0, (s.net 0).lastPps = some t0 → t0 + 400000000 ≤ tick) →
        (t.wallOf n).lastUpd = some s.td0 ∧ (t.wallOf n).hold = false) ∧
      s.OnlyOn t fun e key => e = 0 ∧ pageKeys 9 key) := by
  obtain ⟨hsh, -, hl⟩ := State.sized_iff.1 hz
  have hd : 0 < s.dies.length := State.lt_length hsh (State.alive_of_netOn hn)
  refine ⟨fun hf => ?_, fun hf => ⟨s.takePps tick, ht ▸ exec_ppsInEdge hs hn hf, ?_⟩⟩
  · change execPpsInEdge stable s = _
    unfold execPpsInEdge
    exact State.guarded_false _ _ _ hs (by rw [decide_eq_false (Nat.not_le.2 hf), Bool.and_false])
  · have hmoves := State.WallMoves.takePps (s := s) (tick := tick)
    have hns : (s.ppsTime 1 / 2 ^ 48 % 10 ^ 9).toNat < 2 ^ 32 := by omega
    obtain ⟨hrt, hrns⟩ := State.rd_showPps (tick := tick) hd hns
    have hkeys : ∀ k ∈ [Fd.PPS_IN_T.W.key 0, Fd.PPS_IN_NS.W.key 0], ¬servoKeys k := by
      unfold servoKeys holdKeys stickyKeys
      decide
    refine ⟨(hmoves.rd (hkeys _ (by simp))).trans hrt, ?_, (hmoves.rd (hkeys _ (by simp))).trans hrns,
      fun t0 hp hlt => State.wall_takePps_near (State.ppsNear_iff.2 ⟨t0, hp, hlt⟩), fun n h1 h3 hsrc hfar => ?_,
      State.onlyOn_showPps.trans (hmoves.onlyOn.mono fun _ _ hk => ⟨hk.1, pageKeys_of_servoKeys hk.2⟩)⟩
    · exact (congrArg Net.lastPps (hmoves.net 0)).trans (State.lastPps_showPps hd)
    · have hnear : s.ppsNear tick = false := Bool.eq_false_iff.2 fun h => by
        obtain ⟨t0, hp, hlt⟩ := State.ppsNear_iff.1 h
        have := hfar t0 hp
        omega
      have htrack := State.track_takePps hl (State.mem_ppsUsers.2 ⟨⟨h1, h3⟩, hnear, hsrc⟩)
      exact ⟨congrArg Prod.fst htrack, congrArg Prod.snd htrack⟩

/-! #### PPS_OUT -/

theorem State.netOn_of_ppsOutOn (h : s.ppsOutOn = true) : s.netOn 0 = true := by
  unfold State.ppsOutOn at h
  exact (Bool.and_eq_true_iff.1 h).1

/-- A whole second of the domain of OUT_SEL lets PPS_OUT rise. -/
theorem ppsTick_spec (hz : s.sized = true) (hn : n = s.rd 0 Fd.PPS_CFG.OUT_SEL) (ho : s.ppsOutOn = true) :
    ((s.wallOf n).prev / (10 ^ 9 * 2 ^ 48) < (s.wallOf n).time / (10 ^ 9 * 2 ^ 48) → n ≠ 0 →
      ∃ i, s.ppsSecond = some i ∧ (s.ppsTick.net 0).ppsRise = some (i + 64)) ∧
    ((s.wallOf n).time / (10 ^ 9 * 2 ^ 48) ≤ (s.wallOf n).prev / (10 ^ 9 * 2 ^ 48) ∨ n = 0 → s.ppsTick = s) := by
  have hd : 0 < s.dies.length := State.lt_length (State.sized_iff.1 hz).1 (State.alive_of_netOn (State.netOn_of_ppsOutOn ho))
  refine ⟨fun hlt h0 => ?_, fun h => ?_⟩
  · obtain ⟨i, hi⟩ : ∃ i, s.ppsSecond = some i := by
      unfold State.ppsSecond
      dsimp only
      rw [← hn, if_pos (by rw [ho, decide_eq_true hlt]; simpa using h0)]
      exact ⟨_, rfl⟩
    refine ⟨i, hi, ?_⟩
    unfold State.ppsTick
    rw [hi]
    dsimp only
    rw [State.net_onNet hd]
  · have hnone : s.ppsSecond = none := by
      unfold State.ppsSecond
      dsimp only
      rw [← hn]
      refine if_neg fun hc => ?_
      simp only [Bool.and_eq_true, bne_iff_ne, decide_eq_true_eq] at hc
      obtain ⟨⟨-, h0⟩, hlt⟩ := hc
      exact h.elim (fun hle => not_lt.2 hle hlt) h0
    unfold State.ppsTick
    rw [hnone]

/-- A change of the pins and of a station port. -/
theorem State.onlyOn_pinsNet {p : Pins} {f : Net → Net} : s.OnlyOn (({ s with pins := p } : State).onNet 0 f) fun _ _ => False :=
  State.onlyOn_onNet (s := { s with pins := p })

theorem ppsOutRise_spec {i : Int} (hsh : s.shaped = true) (hs : s.sane = true) (ho : s.ppsOutOn = true) (hi : (s.net 0).ppsRise = some i) :
    (i / 8 ≤ s.td0 → Completes .ppsOutRise s fun t =>
      t.pins = { s.pins with ppsOut := true } ∧ (t.net 0).ppsHigh = some i ∧ (t.net 0).ppsRise = none ∧ s.OnlyOn t fun _ _ => False) ∧
    ((s.td0 : Int) < i / 8 → exec .ppsOutRise s = .next s) := by
  have hd : 0 < s.dies.length := State.lt_length hsh (State.alive_of_netOn (State.netOn_of_ppsOutOn ho))
  refine ⟨fun ht => ⟨({ s with pins := { s.pins with ppsOut := true } } : State).onNet 0 fun x => { x with ppsHigh := some i, ppsRise := none },
    ?_, rfl, ?_, ?_, State.onlyOn_pinsNet⟩, fun ht => ?_⟩
  · change execPpsOutRise s = _
    unfold execPpsOutRise
    rw [State.guarded_true _ _ _ hs ho, hi]
    dsimp only
    rw [if_neg (not_lt.2 ht)]
  · rw [State.net_onNet (by exact hd)]
  · rw [State.net_onNet (by exact hd)]
  · change execPpsOutRise s = _
    unfold execPpsOutRise
    rw [State.guarded_true _ _ _ hs ho, hi]
    dsimp only
    rw [if_pos ht]

theorem ppsOutFall_spec {i : Int} (hsh : s.shaped = true) (hs : s.sane = true) (ho : s.ppsOutOn = true) (hi : (s.net 0).ppsHigh = some i) :
    (i / 8 + max 1 (s.rd 0 Fd.PPS_CFG.WIDTH) * 800000 ≤ s.td0 → Completes .ppsOutFall s fun t =>
      t.pins = { s.pins with ppsOut := false } ∧ (t.net 0).ppsHigh = none ∧ s.OnlyOn t fun _ _ => False) ∧
    ((s.td0 : Int) < i / 8 + max 1 (s.rd 0 Fd.PPS_CFG.WIDTH) * 800000 → exec .ppsOutFall s = .next s) := by
  have hd : 0 < s.dies.length := State.lt_length hsh (State.alive_of_netOn (State.netOn_of_ppsOutOn ho))
  refine ⟨fun ht => ⟨({ s with pins := { s.pins with ppsOut := false } } : State).onNet 0 fun x => { x with ppsHigh := none },
    ?_, rfl, ?_, State.onlyOn_pinsNet⟩, fun ht => ?_⟩
  · change execPpsOutFall s = _
    unfold execPpsOutFall
    rw [State.guarded_true _ _ _ hs ho, hi]
    dsimp only
    rw [if_neg (not_lt.2 ht)]
  · rw [State.net_onNet (by exact hd)]
  · change execPpsOutFall s = _
    unfold execPpsOutFall
    rw [State.guarded_true _ _ _ hs ho, hi]
    dsimp only
    rw [if_pos ht]

end Sys2Proof.Machine

/-- Settles O47, command by command: a write of TD_CTRL gives the source (`State.takeSrc`) before the step it submits or holds
(`State.hostStep_sent`, `State.hostStep_held`); an edge of PPS_IN runs the servo of the domains that follow it (`State.track_takePps`). -/
theorem wallTime : Obligations.wall_time := by
  refine ⟨fun s n value hz hs hh ha h1 h3 => tdStep_spec hz hs hh ha h1 h3,
    fun s n t0 hz hs hn h1 h3 hsrc hh hu => syncLoss_spec hz hs hn h1 h3 hsrc hh hu,
    fun s stable tick hz hs hn ht => ⟨rfl, ppsInEdge_spec hz hs hn ht⟩,
    fun s n hz hn ho => ppsTick_spec hz hn ho, fun s i hsh hs ho hi => ppsOutRise_spec hsh hs ho hi,
    fun s i hsh hs ho hi => ppsOutFall_spec hsh hs ho hi⟩

end

section
open Sys2Proof Sys2Proof.Machine

/-! ## The angle tracker: edges and transitions, samples, loss, lock, standstill -/

namespace Sys2Proof.Machine
variable {s t u : State} {d c e k : Nat} {P : Nat → Prop} {f : Trk → Trk}

/-! ### A channel beside its registers -/

theorem State.trk_onTrk : (s.onTrk d c f).trk e k =
    if (e = d ∧ k = c) ∧ d < s.dies.length ∧ c < (s.die d).trk.length then f (s.trk e k) else s.trk e k := by
  unfold State.trk State.onTrk
  rw [State.die_onDie]
  by_cases h : e = d ∧ d < s.dies.length
  · obtain ⟨rfl, hd⟩ := h
    rw [if_pos ⟨rfl, hd⟩]
    refine (getD_setAt ..).trans ?_
    simp only [hd, true_and]
  · rw [if_neg h, if_neg fun hc => h ⟨hc.1.1, hc.2.1⟩]

theorem State.trk_onTrk_same (hd : d < s.dies.length) (hc : c < (s.die d).trk.length) : (s.onTrk d c f).trk d c = f (s.trk d c) :=
  State.trk_onTrk.trans (if_pos ⟨⟨rfl, rfl⟩, hd, hc⟩)

theorem State.trk_onTrk_ne (h : e ≠ d ∨ k ≠ c) : (s.onTrk d c f).trk e k = s.trk e k :=
  State.trk_onTrk.trans (if_neg fun hc => h.elim (· hc.1.1) (· hc.1.2))

/-- What a change of a channel does not touch of it stays, whether or not the channel is there. -/
theorem State.trkField_onTrk {α : Type} (p : Trk → α) (hp : ∀ x, p (f x) = p x) : p ((s.onTrk d c f).trk e k) = p (s.trk e k) := by
  rw [State.trk_onTrk]
  split
  · exact hp _
  · rfl

theorem State.trkLength_onTrk : ((s.onTrk d c f).die e).trk.length = (s.die e).trk.length := by
  unfold State.onTrk
  rw [State.die_onDie]
  split
  · exact List.length_modify ..
  · rfl

theorem State.onTrk_length : (s.onTrk d c f).dies.length = s.dies.length := State.onDie_length ..

theorem State.cell_onTrk {key : Nat} : (s.onTrk d c f).cell e key = s.cell e key := State.cell_onDie _ _ _ _ _ fun _ => rfl

theorem State.flag_onTrk {g : Fld} : (s.onTrk d c f).flag e g k = s.flag e g k :=
  congrArg (· != 0) (State.rd_congr fun _ => State.cell_onTrk)

theorem State.alive_onTrk : (s.onTrk d c f).alive e = s.alive e := by
  refine State.alive_congr rfl rfl ?_ ?_
  all_goals
    unfold State.onTrk
    rw [State.die_onDie]
    split <;> rfl

theorem State.OnlyKeys.onTrk (h : s.OnlyKeys t d P) : s.OnlyKeys (t.onTrk d c f) d P := h.onDie _ (fun _ => rfl) fun _ => rfl

theorem State.trk_congr (h : (t.die e).trk = (s.die e).trk) : t.trk e k = s.trk e k := by
  unfold State.trk
  rw [h]

theorem State.trk_wr {g : Fld} {i v : Nat} : (s.wr d g i v).trk e k = s.trk e k := State.trk_congr (State.wr_trk' ..)

theorem State.trk_stick {page b : Nat} : (s.stick d page b).trk e k = s.trk e k := State.trk_congr (State.stick_trk' ..)

theorem State.source_trk' {n : Nat} {b : Bool} : ((s.source d n b).die e).trk = (s.die e).trk := by
  unfold State.source
  split
  · exact State.raise_trk' ..
  · exact State.lower_trk' ..

theorem State.alive_source {n : Nat} {b : Bool} : (s.source d n b).alive e = s.alive e := by
  unfold State.source
  split
  · exact State.alive_raise ..
  · exact State.alive_lower ..

/-- A fault source set is present as it was set (17 R445). -/
theorem State.present_source {n : Nat} {b : Bool} (hd : d < s.dies.length) :
    ((s.source d n b).die d).flt.present.contains n = b := by
  cases b with
  | true => exact State.present_raise hd
  | false =>
    change ((s.lower d n).die d).flt.present.contains n = false
    unfold State.lower
    rw [State.die_onDie_same _ _ _ hd]
    simp

/-! ### The settings of the latest sample, and the source they name (04 R103, R125, R127) -/

theorem State.trkRd_congr {g : Fld} (h : (t.trk d c).words = (s.trk d c).words) : t.trkRd d c g = s.trkRd d c g := by
  unfold State.trkRd
  rw [h]

theorem State.trkSrc_congr (hs : t.sourceOn d = s.sourceOn d) (h : (t.trk d c).words = (s.trk d c).words) :
    t.trkSrc d c = s.trkSrc d c := by
  unfold State.trkSrc
  rw [hs, State.trkRd_congr h]

theorem State.sourceOn_congr (hp : t.part = s.part) (ha : t.alive d = s.alive d) (hb : t.cell d (hdrKey 3 4) = s.cell d (hdrKey 3 4)) :
    t.sourceOn d = s.sourceOn d := by
  have hhead : t.isHead = s.isHead := congrArg Part.isHead hp
  have hon : t.on d 3 = s.on d 3 := by
    unfold State.on State.blockEn
    rw [ha, hb]
  have hsdd : t.hasSdd d = s.hasSdd d := by
    unfold State.hasSdd
    rw [hhead]
  funext c n
  unfold State.sourceOn
  rw [hhead, hon, hsdd]

theorem State.sourceOn_onTrk : (s.onTrk d c f).sourceOn e = s.sourceOn e :=
  State.sourceOn_congr rfl State.alive_onTrk State.cell_onTrk

theorem State.sourceOn_eq_or (s : State) (d c n : Nat) : s.sourceOn d c n = n ∨ s.sourceOn d c n = 0 := ite_eq_or_eq ..

/-- A channel with a source stands on a running die. -/
theorem State.alive_of_sourceOn {n : Nat} (h : s.sourceOn d c n ≠ 0) : s.alive d = true ∧ c < 4 := by
  by_cases hon : s.on d 3 = true ∧ c < 4
  · exact ⟨State.alive_of_on hon.1, hon.2⟩
  · have hoff : (s.on d 3 && decide (c < 4)) = false := by simpa using hon
    refine absurd ?_ h
    unfold State.sourceOn
    rw [hoff]
    rfl

theorem State.alive_of_trkSrc (h : s.trkSrc d c ≠ 0) : s.alive d = true ∧ c < 4 := State.alive_of_sourceOn h

/-- Only a node has encoder lines (R103). -/
theorem State.isHead_of_quad (h : s.trkSrc d c = 3) : s.isHead = false := by
  have hrd : s.trkRd d c Fd.TRK_CFG.SRC = 3 :=
    (s.sourceOn_eq_or d c _).elim (fun hn => hn.symm.trans h) fun h0 => absurd (h0.symm.trans h) (by decide)
  unfold State.trkSrc at h
  rw [hrd] at h
  by_contra hhead
  simp [State.sourceOn, hhead] at h

/-- A channel due for a sample has a source, the one it samples or the one its registers name. -/
theorem State.alive_of_sampleDue (h : s.sampleDue d c = true) : s.alive d = true ∧ c < 4 := by
  unfold State.sampleDue at h
  split at h
  · exact State.alive_of_sourceOn (bne_iff_ne.1 h)
  · next hsrc => exact State.alive_of_sourceOn hsrc

theorem State.trkSrc_of_coastOver (h : s.coastOver d c = true) : s.trkSrc d c = 1 := by
  unfold State.coastOver at h
  simp only [Bool.and_eq_true, beq_iff_eq] at h
  exact h.1

theorem State.trkSrc_of_lockDue (h : s.lockDue d c = true) : s.trkSrc d c = 1 := by
  unfold State.lockDue at h
  simp only [Bool.and_eq_true, beq_iff_eq] at h
  exact h.1

theorem State.trkSrc_of_stillDue (h : s.stillDue d c = true) : 2 ≤ s.trkSrc d c := by
  unfold State.stillDue at h
  simp only [Bool.and_eq_true, decide_eq_true_eq] at h
  exact h.1.1

/-! ### The registers a channel shows its state in -/

/-- A field of a register that a channel writes, which holds no bit of LOSS. -/
def Fld.trkOut (g : Fld) : Bool :=
  g.page == 3 && g.stride == 0x40 && decide (0x120 ≤ g.base) && decide (g.base < 0x140) && decide (g.lo ≤ g.hi) && decide (g.hi < 32) &&
    (g.base != 0x130 || decide (g.hi < 3) || decide (3 < g.lo))

/-- The registers that show whether a channel moves: TRK_STAT and its speed. -/
def movingKeys (c key : Nat) : Prop := key ∈ [Fd.TRK_STAT.W.key c, Fd.TRK_SPEED_LO.W.key c, Fd.TRK_SPEED_HI.W.key c]

/-- The registers that a sample of a channel may write: those it shows its state in, and the page's stickies. -/
def sampleKeysOf (c key : Nat) : Prop := 0x3120 + 0x40 * c ≤ key ∧ key < 0x3140 + 0x40 * c ∨ stickyKeys 3 key

theorem Fld.key_trkOut {g : Fld} (h : g.trkOut = true) : 0x3120 + 0x40 * c ≤ g.key c ∧ g.key c < 0x3140 + 0x40 * c := by
  simp only [Fld.trkOut, Bool.and_eq_true, beq_iff_eq, decide_eq_true_eq] at h
  obtain ⟨⟨⟨⟨⟨⟨hp, hst⟩, hlo⟩, hhi⟩, -⟩, -⟩, -⟩ := h
  unfold Fld.key
  rw [hp, hst]
  omega

theorem statKey_bounds (c : Nat) : 0x3120 + 0x40 * c ≤ Fd.TRK_STAT.W.key c ∧ Fd.TRK_STAT.W.key c < 0x3140 + 0x40 * c :=
  Fld.key_trkOut (g := Fd.TRK_STAT.K) (by decide)

theorem not_stickyKeys_stat (c : Nat) : ¬stickyKeys 3 (Fd.TRK_STAT.W.key c) := by
  have := statKey_bounds c
  exact not_stickyKeys (by unfold hdrKey; omega) (by unfold hdrKey; omega)

theorem blockEn_ne_statKey (c : Nat) : hdrKey 3 4 ≠ Fd.TRK_STAT.W.key c := by
  have := statKey_bounds c
  unfold hdrKey
  omega

theorem movingKeys_stat (c : Nat) : movingKeys c (Fd.TRK_STAT.W.key c) := by simp [movingKeys]

theorem movingKeys_speed (c : Nat) : movingKeys c (Fd.TRK_SPEED_LO.W.key c) ∧ movingKeys c (Fd.TRK_SPEED_HI.W.key c) := by
  simp [movingKeys]

theorem movingKeys_sample {key : Nat} (h : movingKeys c key) : sampleKeysOf c key := by
  simp only [movingKeys, List.mem_cons, List.not_mem_nil, or_false] at h
  refine .inl ?_
  rcases h with rfl | rfl | rfl
  · exact statKey_bounds c
  · exact Fld.key_trkOut (by decide)
  · exact Fld.key_trkOut (by decide)

theorem sampleKeysOf_page {key : Nat} (hc : c < 4) (h : sampleKeysOf c key) : pageKeys 3 key := by
  unfold pageKeys
  rcases h with ⟨hlo, hhi⟩ | rfl | rfl
  · omega
  · rfl
  · rfl

/-- Fields of two registers of a channel. -/
theorem State.rd_wr_beside {g g' : Fld} {v : Nat} (h : g'.page = g.page ∧ g'.stride = g.stride ∧ g'.base ≠ g.base) :
    (s.wr d g c v).rd e g' c = s.rd e g' c := by
  obtain ⟨hp, hst, hb⟩ := h
  refine State.rd_wr_ne _ _ _ _ _ _ _ _ (.inr fun hk => hb ?_)
  unfold Fld.key at hk
  rw [hp, hst] at hk
  omega

theorem State.flag_wrB_same {g : Fld} {b : Bool} (hd : d < s.dies.length) (hw : g.hi = g.lo ∧ g.hi < 32) :
    (s.wrB d g c b).flag d g c = b := by
  rw [State.flag_eq, State.wrB_eq, State.rd_wr_same _ _ _ _ _ hd hw.2 (le_of_eq hw.1.symm), hw.1]
  simp

/-- LOSS stands as any other output of the channel is written. -/
theorem State.loss_wr {g : Fld} {v : Nat} (h : g.trkOut = true) :
    (s.wr d g c v).flag e Fd.TRK_STAT.LOSS c = s.flag e Fd.TRK_STAT.LOSS c := by
  simp only [Fld.trkOut, Bool.and_eq_true, Bool.or_eq_true, beq_iff_eq, bne_iff_ne, decide_eq_true_eq] at h
  obtain ⟨⟨⟨⟨⟨⟨hp, hst⟩, -⟩, -⟩, hl⟩, hh⟩, hb⟩ := h
  refine congrArg (· != 0) ?_
  by_cases hbase : g.base = 0x130
  · refine State.rd_wr_bits _ _ _ _ _ _ _ _ ?_ hh hl (show 3 < g.lo ∨ g.hi < 3 by omega)
    unfold Fld.key
    rw [hp, hst, hbase]
  · exact State.rd_wr_beside ⟨hp.symm, hst.symm, Ne.symm hbase⟩

theorem State.loss_stick {b : Nat} : (s.stick d 3 b).flag d Fd.TRK_STAT.LOSS c = s.flag d Fd.TRK_STAT.LOSS c :=
  congrArg (· != 0) ((State.stick_frame' ..).rd_eq (not_stickyKeys_stat c))

/-! ### What the operations of a channel keep -/

/-- Of the package only registers of die d that P names, its tracker channels and its fault sources may change; which sources act stays. -/
structure State.TrkFrame (s t : State) (d : Nat) (P : Nat → Prop) : Prop where
  frame : s.OnlyKeys t d P
  length : (t.die d).trk.length = (s.die d).trk.length
  source : t.sourceOn d = s.sourceOn d

namespace State.TrkFrame

theorem refl (s : State) : s.TrkFrame s d P := ⟨.refl .., rfl, rfl⟩

theorem trans (h : s.TrkFrame t d P) (k : t.TrkFrame u d P) : s.TrkFrame u d P :=
  ⟨h.frame.trans k.frame, k.length.trans h.length, k.source.trans h.source⟩

theorem onTrk (h : s.TrkFrame t d P) : s.TrkFrame (t.onTrk d c f) d P :=
  h.trans ⟨(State.OnlyKeys.refl ..).onTrk, State.trkLength_onTrk, State.sourceOn_onTrk⟩

theorem wr {g : Fld} {v : Nat} (h : s.TrkFrame t d P) (hk : P (g.key c)) (hg : hdrKey 3 4 ≠ g.key c) : s.TrkFrame (t.wr d g c v) d P :=
  h.trans ⟨(State.OnlyKeys.refl ..).wr _ _ _ hk, by rw [State.wr_trk'],
    State.sourceOn_congr rfl (State.alive_wr ..) (State.cell_wr_ne _ _ _ _ _ _ _ (.inr hg))⟩

theorem stick {b : Nat} (h : s.TrkFrame t d P) (hk : ∀ key, stickyKeys 3 key → P key) : s.TrkFrame (t.stick d 3 b) d P :=
  h.trans ⟨(State.OnlyKeys.refl ..).stick _ _ (hk _ (.inl rfl)) (hk _ (.inr rfl)), by rw [State.stick_trk'],
    State.sourceOn_congr (State.stick_part ..) (State.alive_stick ..) (State.cell_stick_ne _ _ _ _ _ _ (.inr (by decide)))⟩

theorem setSource {n : Nat} {b : Bool} (h : s.TrkFrame t d P) : s.TrkFrame (t.source d n b) d P := by
  have hframe : t.OnlyKeys (t.source d n b) d P := (State.OnlyKeys.refl ..).source _ _
  exact h.trans ⟨hframe, by rw [State.source_trk'], State.sourceOn_congr (by rw [hframe.1]) State.alive_source State.cell_source⟩

end State.TrkFrame

/-- Channel c besides goes on under its settings: with its count unless it follows a SINCOS input, and unless it follows the mains,
whose loss ends with a good sample, in a LOSS that stands (R114). -/
structure State.Tracks (s t : State) (d c : Nat) (P : Nat → Prop) : Prop extends s.TrkFrame t d P where
  words : (t.trk d c).words = (s.trk d c).words
  restart : (t.trk d c).pendRestart = (s.trk d c).pendRestart
  count : s.trkSrc d c ≠ 2 → (t.trk d c).n = (s.trk d c).n
  loss : s.trkSrc d c ≠ 1 → s.flag d Fd.TRK_STAT.LOSS c = true → t.flag d Fd.TRK_STAT.LOSS c = true

namespace State.Tracks

theorem refl (s : State) : s.Tracks s d c P := ⟨.refl s, rfl, rfl, fun _ => rfl, fun _ => id⟩

theorem trkSrc (h : s.Tracks t d c P) : t.trkSrc d c = s.trkSrc d c := State.trkSrc_congr h.source h.words

theorem trans (h : s.Tracks t d c P) (k : t.Tracks u d c P) : s.Tracks u d c P where
  toTrkFrame := h.toTrkFrame.trans k.toTrkFrame
  words := k.words.trans h.words
  restart := k.restart.trans h.restart
  count hs := (k.count (h.trkSrc.symm ▸ hs)).trans (h.count hs)
  loss hs hl := k.loss (h.trkSrc.symm ▸ hs) (h.loss hs hl)

/-- An operation that leaves the channel beside its registers. -/
theorem shows (h : s.Tracks t d c P) (hf : t.TrkFrame u d P) (ht : u.trk d c = t.trk d c)
    (hl : t.trkSrc d c ≠ 1 → t.flag d Fd.TRK_STAT.LOSS c = true → u.flag d Fd.TRK_STAT.LOSS c = true) : s.Tracks u d c P :=
  h.trans ⟨hf, by rw [ht], by rw [ht], fun _ => by rw [ht], hl⟩

theorem onTrk (h : s.Tracks t d c P) (hw : ∀ x, (f x).words = x.words := by exact fun _ => rfl)
    (hr : ∀ x, (f x).pendRestart = x.pendRestart := by exact fun _ => rfl)
    (hn : t.trkSrc d c ≠ 2 → ∀ x, (f x).n = x.n := by exact fun _ _ => rfl) : s.Tracks (t.onTrk d c f) d c P :=
  h.trans ⟨(State.TrkFrame.refl t).onTrk, State.trkField_onTrk _ hw, State.trkField_onTrk _ hr,
    fun hs => State.trkField_onTrk _ (hn hs), fun _ hl => State.flag_onTrk.trans hl⟩

theorem wr {g : Fld} {v : Nat} (h : s.Tracks t d c P) (hk : P (g.key c)) (hg : g.trkOut = true := by decide) :
    s.Tracks (t.wr d g c v) d c P := by
  refine h.shows ((State.TrkFrame.refl t).wr hk ?_) State.trk_wr fun _ hl => (State.loss_wr hg).trans hl
  have := Fld.key_trkOut (c := c) hg
  unfold hdrKey
  omega

theorem wrB {g : Fld} {b : Bool} (h : s.Tracks t d c P) (hk : P (g.key c)) (hg : g.trkOut = true := by decide) :
    s.Tracks (t.wrB d g c b) d c P := h.wr hk hg

/-- LOSS is written, set or on a channel that follows the mains. -/
theorem wrLoss {b : Bool} (h : s.Tracks t d c P) (hd : d < s.dies.length) (hk : P (Fd.TRK_STAT.W.key c)) (hb : s.trkSrc d c ≠ 1 → b = true) :
    s.Tracks (t.wrB d Fd.TRK_STAT.LOSS c b) d c P :=
  h.shows ((State.TrkFrame.refl t).wr hk (blockEn_ne_statKey c)) State.trk_wr
    fun hs _ => (State.flag_wrB_same (h.frame.length_eq.symm ▸ hd) (by decide)).trans (hb (h.trkSrc ▸ hs))

theorem stick {b : Nat} (h : s.Tracks t d c P) (hk : ∀ key, stickyKeys 3 key → P key) : s.Tracks (t.stick d 3 b) d c P :=
  h.shows ((State.TrkFrame.refl t).stick hk) State.trk_stick fun _ hl => State.loss_stick.trans hl

theorem setSource {n : Nat} {b : Bool} (h : s.Tracks t d c P) : s.Tracks (t.source d n b) d c P :=
  h.shows (State.TrkFrame.refl t).setSource (State.trk_congr State.source_trk')
    fun _ hl => (congrArg (· != 0) (State.rd_congr fun _ => State.cell_source)).trans hl

theorem ite {p : Prop} [Decidable p] (h : p → s.Tracks t d c P) (k : ¬p → s.Tracks u d c P) : s.Tracks (if p then t else u) d c P := by
  split
  · next hp => exact h hp
  · next hp => exact k hp

theorem when {b : Bool} {g : State → State} (h : s.Tracks t d c P) (hg : ∀ v, s.Tracks v d c P → s.Tracks (g v) d c P) :
    s.Tracks (t.when b g) d c P := .ite (fun _ => hg t h) fun _ => h

end State.Tracks

/-! ### What keeps a channel going on under its settings, operation by operation -/

namespace State.Tracks

theorem standStill (h : s.Tracks t d c P) (hP : ∀ key, movingKeys c key → P key) : s.Tracks (t.standStill d c) d c P := by
  unfold State.standStill
  have hstat : P (Fd.TRK_STAT.STANDSTILL.key c) := hP _ (movingKeys_stat c)
  have hlo : P (Fd.TRK_SPEED_LO.W.key c) := hP _ (movingKeys_speed c).1
  have hhi : P (Fd.TRK_SPEED_HI.W.key c) := hP _ (movingKeys_speed c).2
  exact ((h.onTrk.wrB hstat).wr hlo).wr hhi

theorem transition {back : Bool} (h : s.Tracks t d c P) (hP : ∀ key, movingKeys c key → P key) : s.Tracks (t.transition d c back) d c P := by
  unfold State.transition
  have hstill : P (Fd.TRK_STAT.STANDSTILL.key c) := hP _ (movingKeys_stat c)
  have hback : P (Fd.TRK_STAT.REVERSE.key c) := hP _ (movingKeys_stat c)
  exact ((h.when fun _ h => h.standStill hP).onTrk.wrB hstill).wrB hback

theorem setLoss (h : s.Tracks t d c P) (hd : d < s.dies.length) (hk : P (Fd.TRK_STAT.W.key c)) (hS : ∀ key, stickyKeys 3 key → P key) :
    s.Tracks (t.setLoss d c) d c P := by
  unfold State.setLoss
  exact .ite (fun _ => h) fun _ => (h.wrLoss hd hk fun _ => rfl).stick hS

theorem lossSource (h : s.Tracks t d c P) : s.Tracks (t.lossSource d c) d c P := h.setSource

/-! The operations of a sample write the registers of a sample. -/

theorem wrOut {g : Fld} {v : Nat} (h : s.Tracks t d c (sampleKeysOf c)) (hg : g.trkOut = true := by decide) :
    s.Tracks (t.wr d g c v) d c (sampleKeysOf c) := h.wr (.inl (Fld.key_trkOut hg)) hg

theorem illegalStep (h : s.Tracks t d c (sampleKeysOf c)) : s.Tracks (t.illegalStep d c) d c (sampleKeysOf c) := by
  unfold State.illegalStep
  exact (h.wrOut (g := Fd.TRK_MAG.ILL_COUNT)).stick fun _ => .inr

/-- Of the sources only SINCOS counts its lines at its samples. -/
theorem goodSincos (h : s.Tracks t d c (sampleKeysOf c)) (hsrc : t.trkSrc d c = 2) : s.Tracks (t.goodSincos d c) d c (sampleKeysOf c) := by
  unfold State.goodSincos
  refine State.Tracks.onTrk (h.when fun _ h => h.transition fun _ => movingKeys_sample) (hn := fun hne => absurd ?_ hne)
  refine (State.Tracks.trkSrc (P := sampleKeysOf c) ?_).trans hsrc
  exact (State.Tracks.refl t).when fun _ h => h.transition fun _ => movingKeys_sample

theorem goodCount {m : Nat} (h : s.Tracks t d c P) : s.Tracks (t.goodCount d c m) d c P := by
  unfold State.goodCount
  exact h.onTrk

theorem enterWindow {ts : Int} (h : s.Tracks t d c P) : s.Tracks (t.enterWindow d c ts) d c P := by
  unfold State.enterWindow
  exact h.onTrk

theorem goodGrid {dt : Nat} (h : s.Tracks t d c (sampleKeysOf c)) : s.Tracks (t.goodGrid d c dt) d c (sampleKeysOf c) := by
  unfold State.goodGrid
  exact .ite (fun _ => h.onTrk) fun _ => h.onTrk.when fun _ h => h.wrOut

theorem goodSample {ts : Int} {dt : Nat} (h : s.Tracks t d c (sampleKeysOf c)) (hd : d < s.dies.length) :
    s.Tracks (t.goodSample d c ts dt) d c (sampleKeysOf c) := by
  have hrun : s.Tracks (t.onTrk d c fun x => { x with badRun := 0 }) d c (sampleKeysOf c) := h.onTrk
  unfold State.goodSample
  dsimp only
  split
  · next hsrc =>
    exact hrun.goodGrid.onTrk.when fun _ h => h.wrOut.wrLoss hd (.inl (statKey_bounds c)) fun hne => absurd (hrun.trkSrc.symm.trans hsrc) hne
  · exact State.Tracks.onTrk (State.Tracks.enterWindow (.ite (fun h2 => hrun.goodSincos h2) fun _ => hrun.goodCount))

theorem badSample {j : Judged} {dt : Nat} (h : s.Tracks t d c (sampleKeysOf c)) (hd : d < s.dies.length) :
    s.Tracks (t.badSample d c j dt) d c (sampleKeysOf c) := by
  unfold State.badSample
  refine .ite (fun _ => ?_) fun _ => ?_
  · exact (h.when fun _ h => h.illegalStep).onTrk.wrOut.wrOut.when fun _ h => h.stick fun _ => .inr
  · exact (h.when fun _ h => h.illegalStep).onTrk.when fun _ h => h.setLoss hd (.inl (statKey_bounds c)) fun _ => .inr

theorem showSample {ts speed : Int} {mag : Nat} (h : s.Tracks t d c (sampleKeysOf c)) :
    s.Tracks (t.showSample d c ts speed mag) d c (sampleKeysOf c) := by
  unfold State.showSample
  exact h.wrOut.wrOut.wrOut.wrOut.wrOut.wrOut.wrOut.wrOut

theorem trkDue (h : s.Tracks t d c P) (hd : d < s.dies.length) (hP : ∀ key, movingKeys c key ∨ stickyKeys 3 key → P key) :
    s.Tracks (t.trkDue d c) d c P := by
  have hstat : P (Fd.TRK_STAT.W.key c) := hP _ (.inl (movingKeys_stat c))
  unfold State.trkDue
  exact (((h.when fun _ h => h.setLoss hd hstat fun _ hk => hP _ (.inr hk)).when fun _ h => h.wrB (g := Fd.TRK_STAT.LOCKED) hstat).when
    fun _ h => h.standStill fun _ hk => hP _ (.inl hk)).lossSource

end State.Tracks

/-! ### Standstill, transitions and edges counted (04 R110-R113, R121, R122) -/

theorem State.trk_standStill (hd : d < s.dies.length) (hc : c < (s.die d).trk.length) :
    (s.standStill d c).trk d c = { s.trk d c with frac := s.interp d c } := by
  unfold State.standStill
  rw [State.trk_wr, State.trk_wr, State.wrB_eq, State.trk_wr, State.trk_onTrk_same hd hc]

/-- In standstill STANDSTILL is set and the speed reads 0 (R122). -/
theorem State.standStill_shows (hd : d < s.dies.length) :
    (s.standStill d c).flag d Fd.TRK_STAT.STANDSTILL c = true ∧ (s.standStill d c).trkSpeed d c = 0 := by
  unfold State.standStill
  dsimp only
  have hset : ((s.onTrk d c fun x => { x with frac := s.interp d c }).wrB d Fd.TRK_STAT.STANDSTILL c true).flag d
      Fd.TRK_STAT.STANDSTILL c = true := State.flag_wrB_same (State.onTrk_length.symm ▸ hd) (by decide)
  have hlen : d < ((s.onTrk d c fun x => { x with frac := s.interp d c }).wrB d Fd.TRK_STAT.STANDSTILL c true).dies.length := by
    rwa [State.wrB_eq, State.wr_length, State.onTrk_length]
  generalize (s.onTrk d c _).wrB d Fd.TRK_STAT.STANDSTILL c true = v at *
  have hlo : ((v.wr d Fd.TRK_SPEED_LO.W c 0).wr d Fd.TRK_SPEED_HI.W c 0).rd d Fd.TRK_SPEED_LO.W c = 0 :=
    (State.rd_wr_beside (by decide)).trans (State.rd_wr_same _ _ _ _ _ hlen (by decide) (by decide))
  have hhi : ((v.wr d Fd.TRK_SPEED_LO.W c 0).wr d Fd.TRK_SPEED_HI.W c 0).rd d Fd.TRK_SPEED_HI.W c = 0 :=
    State.rd_wr_same _ _ _ _ _ (by rwa [State.wr_length]) (by decide) (by decide)
  refine ⟨?_, ?_⟩
  · rw [State.flag_eq, State.rd_wr_beside (by decide), State.rd_wr_beside (by decide)]
    exact hset
  · unfold State.trkSpeed
    rw [hlo, hhi]
    decide

/-- Standstill is declared where it is due (R122). -/
theorem State.stillNow_spec (hd : d < s.dies.length) (hc : c < (s.die d).trk.length) :
    let v := s.when (s.stillDue d c) fun s => s.standStill d c
    (∃ i, v.trk d c = { s.trk d c with frac := i }) ∧
      v.flag d Fd.TRK_STAT.STANDSTILL c = (s.flag d Fd.TRK_STAT.STANDSTILL c || s.stillDue d c) := by
  unfold State.when
  cases s.stillDue d c with
  | true => exact ⟨⟨_, State.trk_standStill hd hc⟩, (State.standStill_shows hd).1.trans (Bool.or_true _).symm⟩
  | false => exact ⟨⟨_, rfl⟩, (Bool.or_false _).symm⟩

theorem State.stillDue_onTrk (hw : ∀ x, (f x).words = x.words) (ht : ∀ x, (f x).tLast = x.tLast) :
    (s.onTrk d c f).stillDue d c = s.stillDue d c := by
  have hwords : ((s.onTrk d c f).trk d c).words = (s.trk d c).words := State.trkField_onTrk Trk.words hw
  unfold State.stillDue State.stillTicks
  rw [State.trkSrc_congr State.sourceOn_onTrk hwords, State.trkRd_congr hwords, State.trkField_onTrk Trk.tLast ht, State.flag_onTrk]
  rfl

section Transition
variable {back : Bool}

/-- A channel changes as standstill is no longer shown, and the direction is. -/
theorem State.onTrk_endStill (hd : d < s.dies.length) (hc : c < (s.die d).trk.length) :
    let t := ((s.onTrk d c f).wrB d Fd.TRK_STAT.STANDSTILL c false).wrB d Fd.TRK_STAT.REVERSE c back
    t.trk d c = f (s.trk d c) ∧ t.flag d Fd.TRK_STAT.STANDSTILL c = false := by
  refine ⟨State.trk_wr.trans (State.trk_wr.trans (State.trk_onTrk_same hd hc)), ?_⟩
  have hkey : Fd.TRK_STAT.STANDSTILL.key c = Fd.TRK_STAT.REVERSE.key c := rfl
  rw [State.wrB_eq, State.flag_eq, State.rd_wr_bits _ _ _ _ _ _ _ _ hkey (by decide) (by decide) (by decide)]
  exact State.flag_wrB_same (s := s.onTrk d c f) (State.onTrk_length.symm ▸ hd) (by decide)

/-- A transition takes its tick, ends a standstill and, where it does, clears the window at the next sample (R121, R122). -/
theorem State.transition_spec (hd : d < s.dies.length) (hc : c < (s.die d).trk.length) :
    let t := s.transition d c back
    ((t.trk d c).n = (s.trk d c).n ∧ (t.trk d c).qa = (s.trk d c).qa ∧ (t.trk d c).qb = (s.trk d c).qb) ∧ (t.trk d c).tLast = s.td0 ∧
    (t.trk d c).interval = ((s.td0 : Int) - (s.trk d c).tLast).toNat ∧ t.flag d Fd.TRK_STAT.STANDSTILL c = false ∧
    (s.flag d Fd.TRK_STAT.STANDSTILL c = true ∨ s.stillDue d c = true → (t.trk d c).reversed = true) := by
  obtain ⟨⟨i, htrk⟩, hstill⟩ := State.stillNow_spec hd hc
  have hkeeps : s.Tracks (s.when (s.stillDue d c) fun s => s.standStill d c) d c (movingKeys c) :=
    (State.Tracks.refl s).when fun _ h => h.standStill fun _ => id
  unfold State.transition
  generalize (s.when (s.stillDue d c) fun s => s.standStill d c) = v at *
  have hvd : d < v.dies.length := hkeeps.frame.length_eq.symm ▸ hd
  have hvc : c < (v.die d).trk.length := hkeeps.length.symm ▸ hc
  have htd : v.td0 = s.td0 := hkeeps.frame.td0_eq
  dsimp only
  obtain ⟨hmove, hend⟩ := State.onTrk_endStill (back := back) (f := fun x => { x with
    interval := ((v.td0 : Int) - x.tLast).toNat, tLast := v.td0, ntrans := x.ntrans + 1
    reversed := x.reversed || (decide (0 < (v.trk d c).ntrans) && v.flag d Fd.TRK_STAT.REVERSE c != back) ||
      v.flag d Fd.TRK_STAT.STANDSTILL c }) hvd hvc
  rw [hmove, hend, htrk, hstill, htd]
  refine ⟨⟨rfl, rfl, rfl⟩, rfl, rfl, rfl, fun h => ?_⟩
  rcases h with h | h <;> simp [h]

/-- An edge or a line is counted, and its transition made. -/
def State.countStep (s : State) (d c : Nat) (back : Bool) : State :=
  (s.onTrk d c fun x => { x with n := if back then x.n - 1 else x.n + 1 }).transition d c back

theorem State.countStep_frame : s.OnlyKeys (s.countStep d c back) d (movingKeys c) :=
  (State.OnlyKeys.refl ..).onTrk.trans ((State.Tracks.refl _).transition fun _ => id).frame

theorem State.countStep_spec (hd : d < s.dies.length) (hc : c < (s.die d).trk.length) :
    let t := s.countStep d c back
    ((t.trk d c).n = (if back then (s.trk d c).n - 1 else (s.trk d c).n + 1) ∧ (t.trk d c).qa = (s.trk d c).qa ∧
      (t.trk d c).qb = (s.trk d c).qb) ∧ (t.trk d c).tLast = s.td0 ∧
    (t.trk d c).interval = ((s.td0 : Int) - (s.trk d c).tLast).toNat ∧ t.flag d Fd.TRK_STAT.STANDSTILL c = false ∧
    (s.flag d Fd.TRK_STAT.STANDSTILL c = true ∨ s.stillDue d c = true → (t.trk d c).reversed = true) := by
  have hstep := State.transition_spec (s := s.onTrk d c fun x => { x with n := if back then x.n - 1 else x.n + 1 }) (back := back)
    (State.onTrk_length.symm ▸ hd) (State.trkLength_onTrk.symm ▸ hc)
  have hdue : (s.onTrk d c fun x => { x with n := if back then x.n - 1 else x.n + 1 }).stillDue d c = s.stillDue d c :=
    State.stillDue_onTrk (fun _ => rfl) fun _ => rfl
  rwa [State.trk_onTrk_same hd hc, State.flag_onTrk, hdue] at hstep

end Transition

/-- The levels of a pair of lines are taken. -/
def State.takeLevels (s : State) (d c : Nat) (qa qb : Bool) : State :=
  s.onTrk d c fun x => { x with qa := qa, qb := qb, qAt := some (s.td0 : Int) }

section Quad
variable {qa qb : Bool} {stable : Nat}

theorem State.trkRd_takeLevels {g : Fld} : (s.takeLevels d c qa qb).trkRd d c g = s.trkRd d c g :=
  State.trkRd_congr (State.trkField_onTrk Trk.words fun _ => rfl)

theorem State.takeLevels_quad (h : s.trkSrc d c = 3) : ¬((s.takeLevels d c qa qb).trkSrc d c != 3) = true := by
  have hsrc : (s.takeLevels d c qa qb).trkSrc d c = s.trkSrc d c :=
    State.trkSrc_congr State.sourceOn_onTrk (State.trkField_onTrk Trk.words fun _ => rfl)
  simp [hsrc, h]

/-- One level changed: an edge, backward where the levels follow the other way or INV exchanges the directions (R110). -/
theorem opQuadTransition_one (hsrc : s.trkSrc d c = 3) (h : (s.trk d c).qa = qa ↔ (s.trk d c).qb ≠ qb) :
    opQuadTransition d c qa qb s = (s.takeLevels d c qa qb).countStep d c
      ((quadForward (s.trk d c).qa (s.trk d c).qb != (qa, qb)) != s.trkFlag d c Fd.TRK_CFG.INV) := by
  have hboth : ¬((s.trk d c).qa != qa && (s.trk d c).qb != qb) = true := by
    simp only [Bool.and_eq_true, bne_iff_ne]
    exact fun hc => hc.1 (h.2 hc.2)
  unfold State.trkFlag
  rw [← State.trkRd_takeLevels (qa := qa) (qb := qb)]
  exact (if_neg (State.takeLevels_quad hsrc)).trans (if_neg hboth)

/-- Both levels changed: an illegal transition, which counts nothing (R110). -/
theorem opQuadTransition_both (hsrc : s.trkSrc d c = 3) (ha : (s.trk d c).qa ≠ qa) (hb : (s.trk d c).qb ≠ qb) :
    opQuadTransition d c qa qb s = (s.takeLevels d c qa qb).onTrk d c fun x => { x with illegal := true } :=
  (if_neg (State.takeLevels_quad hsrc)).trans (if_pos (by simp [ha, hb]))

theorem exec_quadTransition (hs : s.sane = true) (hsrc : s.trkSrc d c = 3) (hq : (s.trk d c).qAt ≠ some (s.td0 : Int))
    (hf : s.filterTicks d c ≤ stable) (hne : (s.trk d c).qa ≠ qa ∨ (s.trk d c).qb ≠ qb) :
    exec (.quadTransition d c qa qb stable) s = .next (opQuadTransition d c qa qb s) := by
  obtain ⟨ha, h4⟩ := State.alive_of_trkSrc (hsrc.trans_ne (by decide))
  change s.guarded _ _ = _
  exact State.guarded_true _ _ _ hs (by simp [ha, State.isHead_of_quad hsrc, h4, hq, hf, hne])

theorem quadTransition_one (hsh : s.shaped = true) (hs : s.sane = true) (hsrc : s.trkSrc d c = 3) (hc : c < (s.die d).trk.length)
    (hq : (s.trk d c).qAt ≠ some (s.td0 : Int)) (hf : s.filterTicks d c ≤ stable) (h : (s.trk d c).qa = qa ↔ (s.trk d c).qb ≠ qb) :
    Completes (.quadTransition d c qa qb stable) s fun t =>
      (t.trk d c).n = (if (quadForward (s.trk d c).qa (s.trk d c).qb = (qa, qb)) ↔ s.trkFlag d c Fd.TRK_CFG.INV = false
        then (s.trk d c).n + 1 else (s.trk d c).n - 1) ∧
      (t.trk d c).qa = qa ∧ (t.trk d c).qb = qb ∧ (t.trk d c).tLast = s.td0 ∧
      (t.trk d c).interval = ((s.td0 : Int) - (s.trk d c).tLast).toNat ∧
      t.flag d Fd.TRK_STAT.STANDSTILL c = false ∧
      (s.flag d Fd.TRK_STAT.STANDSTILL c = true ∨ s.stillDue d c = true → (t.trk d c).reversed = true) ∧
      s.OnlyKeys t d (movingKeys c) := by
  have hd := State.lt_length hsh (State.alive_of_trkSrc (hsrc.trans_ne (by decide))).1
  have hne : (s.trk d c).qa ≠ qa ∨ (s.trk d c).qb ≠ qb := by
    by_cases ha : (s.trk d c).qa = qa
    · exact .inr (h.1 ha)
    · exact .inl ha
  have hstep := State.countStep_spec (s := s.takeLevels d c qa qb)
    (back := (quadForward (s.trk d c).qa (s.trk d c).qb != (qa, qb)) != s.trkFlag d c Fd.TRK_CFG.INV)
    (State.onTrk_length.symm ▸ hd) (State.trkLength_onTrk.symm ▸ hc)
  have htrk : (s.takeLevels d c qa qb).trk d c = { s.trk d c with qa := qa, qb := qb, qAt := some (s.td0 : Int) } :=
    State.trk_onTrk_same hd hc
  have hdue : (s.takeLevels d c qa qb).stillDue d c = s.stillDue d c := State.stillDue_onTrk (fun _ => rfl) fun _ => rfl
  have hflag : (s.takeLevels d c qa qb).flag d Fd.TRK_STAT.STANDSTILL c = s.flag d Fd.TRK_STAT.STANDSTILL c := State.flag_onTrk
  rw [htrk, hdue, hflag] at hstep
  obtain ⟨⟨hn, hqa, hqb⟩, htl, hint, hstill, hrev⟩ := hstep
  refine ⟨_, (exec_quadTransition hs hsrc hq hf hne).trans (congrArg _ (opQuadTransition_one hsrc h)), hn.trans ?_, hqa, hqb, htl, hint,
    hstill, hrev, (State.OnlyKeys.refl ..).onTrk.trans State.countStep_frame⟩
  by_cases hfwd : quadForward (s.trk d c).qa (s.trk d c).qb = (qa, qb) <;> cases s.trkFlag d c Fd.TRK_CFG.INV <;> simp [hfwd]

theorem quadTransition_both (hsh : s.shaped = true) (hs : s.sane = true) (hsrc : s.trkSrc d c = 3) (hc : c < (s.die d).trk.length)
    (hq : (s.trk d c).qAt ≠ some (s.td0 : Int)) (hf : s.filterTicks d c ≤ stable) (ha : (s.trk d c).qa ≠ qa) (hb : (s.trk d c).qb ≠ qb) :
    Completes (.quadTransition d c qa qb stable) s fun t =>
      t.trk d c = { s.trk d c with illegal := true, qa := qa, qb := qb, qAt := some (s.td0 : Int) } ∧ s.OnlyKeys t d fun _ => False := by
  have hd := State.lt_length hsh (State.alive_of_trkSrc (hsrc.trans_ne (by decide))).1
  refine ⟨_, (exec_quadTransition hs hsrc hq hf (.inl ha)).trans (congrArg _ (opQuadTransition_both hsrc ha hb)), ?_,
    (State.OnlyKeys.refl ..).onTrk.onTrk⟩
  unfold State.takeLevels
  rw [State.trk_onTrk_same (State.onTrk_length.symm ▸ hd) (State.trkLength_onTrk.symm ▸ hc), State.trk_onTrk_same hd hc]

/-- A change that stood too briefly, or a second one in a tick, does not pass the filter (R112). -/
theorem quadTransition_filtered (hs : s.sane = true) (h : stable < s.filterTicks d c ∨ (s.trk d c).qAt = some (s.td0 : Int)) :
    exec (.quadTransition d c qa qb stable) s = .next s := by
  change s.guarded _ _ = _
  refine State.guarded_false _ _ _ hs ?_
  rcases h with h | h
  · simp [h]
  · simp [h]

/-- A pulse that passes the filter on the selected ball counts one line (R111, R112). -/
theorem pulseEdge_spec {ball : Bool} (hsh : s.shaped = true) (hs : s.sane = true) (hsrc : s.trkSrc d c = 4) (hc : c < (s.die d).trk.length) :
    if s.filterTicks d c ≤ stable ∧ ball = bitOf (s.trkRd d c Fd.TRK_CFG.CH_A) 0 then
      Completes (.pulseEdge d c ball stable) s fun t =>
        (t.trk d c).n = (if s.trkFlag d c Fd.TRK_CFG.INV then (s.trk d c).n - 1 else (s.trk d c).n + 1) ∧
        (t.trk d c).tLast = s.td0 ∧ t.flag d Fd.TRK_STAT.STANDSTILL c = false ∧ s.OnlyKeys t d (movingKeys c)
    else exec (.pulseEdge d c ball stable) s = .next s := by
  have hball : bitOf (s.trkRd d c Fd.TRK_CFG.CH_A) 0 = (s.trkRd d c Fd.TRK_CFG.CH_A % 2 == 1) := by
    unfold bitOf
    rw [Nat.pow_zero, Nat.div_one]
  rw [hball]
  split
  · next h =>
    have hd := State.lt_length hsh (State.alive_of_trkSrc (hsrc.trans_ne (by decide))).1
    obtain ⟨⟨hn, -, -⟩, htl, -, hstill, -⟩ := State.countStep_spec (back := s.trkFlag d c Fd.TRK_CFG.INV) hd hc
    have hexec : exec (.pulseEdge d c ball stable) s = .next (s.countStep d c (s.trkFlag d c Fd.TRK_CFG.INV)) := by
      change execPulseEdge d c ball stable s = _
      unfold execPulseEdge
      exact State.guarded_true _ _ _ hs (by simp [hsrc, h.1, h.2])
    exact ⟨_, hexec, hn, htl, hstill, State.countStep_frame⟩
  · next h =>
    change execPulseEdge d c ball stable s = _
    unfold execPulseEdge
    refine State.guarded_false _ _ _ hs ?_
    rw [Bool.eq_false_iff]
    simp only [ne_eq, Bool.and_eq_true, decide_eq_true_eq]
    exact fun hg => h ⟨hg.2, eq_of_beq hg.1.2⟩

end Quad

/-- RESTART waits for the next sample (R125). -/
theorem restart_spec (hsh : s.shaped = true) (hs : s.sane = true) (ha : s.alive d = true) (h4 : c < 4) (hc : c < (s.die d).trk.length) :
    Completes (.restart d c) s fun t =>
      t.trk d c = { s.trk d c with pendRestart := true } ∧ (∀ k, k ≠ c → t.trk d k = s.trk d k) ∧ s.OnlyKeys t d fun _ => False := by
  have hexec : exec (.restart d c) s = .next (opRestart d c s) := by
    change s.guarded _ _ = _
    exact State.guarded_true _ _ _ hs (by simp [ha, h4])
  exact ⟨_, hexec, State.trk_onTrk_same (State.lt_length hsh ha) hc, fun k hk => State.trk_onTrk_ne (.inr hk), (State.OnlyKeys.refl ..).onTrk⟩

/-! ### Loss, lock and standstill at a sample (04 R114, R118, R119, R122, R124) -/

theorem State.trk_setLoss : (s.setLoss d c).trk e k = s.trk e k := by
  unfold State.setLoss
  split
  · rfl
  · exact State.trk_stick.trans State.trk_wr

theorem State.trk_lossSource : (s.lossSource d c).trk e k = s.trk e k := State.trk_congr State.source_trk'

/-- LOSS is set, and its sticky bit where it was not. -/
theorem State.setLoss_spec (hd : d < s.dies.length) (h4 : c < 4) :
    (s.setLoss d c).flag d Fd.TRK_STAT.LOSS c = true ∧
    (s.flag d Fd.TRK_STAT.LOSS c = false → (s.setLoss d c).stuckAt d Sk.ATR.LOSS.page (Sk.ATR.LOSS.bit + c) = true) := by
  unfold State.setLoss
  split
  · next h => exact ⟨h, fun hn => absurd (h.symm.trans hn) (by decide)⟩
  · exact ⟨State.loss_stick.trans (State.flag_wrB_same hd (by decide)),
      fun _ => State.stuckAt_stick_same _ _ _ _ ((State.wr_length ..).symm ▸ hd) (by change 4 + c < 32; omega)⟩

/-- The loss of a channel that has a source is a fault source where it is so configured (R124). -/
theorem State.lossSource_spec (hd : d < s.dies.length) (hsrc : s.trkSrc d c ≠ 0) (hl : s.flag d Fd.TRK_STAT.LOSS c = true) :
    ((s.lossSource d c).die d).flt.present.contains (0x30 + c) = s.trkFlag d c Fd.TRK_CFG.LOSS_SRC := by
  unfold State.lossSource
  rw [State.present_source hd, hl]
  simp [hsrc]

theorem coastLoss_spec (hsh : s.shaped = true) (hs : s.sane = true) (hover : s.coastOver d c = true) (ht : s.sampleTick d c = true) :
    Completes (.coastLoss d c) s fun t =>
      t.flag d Fd.TRK_STAT.LOSS c = true ∧
      (t.die d).flt.present.contains (0x30 + c) = s.trkFlag d c Fd.TRK_CFG.LOSS_SRC ∧
      (s.flag d Fd.TRK_STAT.LOSS c = false → t.stuckAt d Sk.ATR.LOSS.page (Sk.ATR.LOSS.bit + c) = true) ∧
      s.OnlyKeys t d fun key => key = Fd.TRK_STAT.W.key c ∨ stickyKeys 3 key := by
  have hsrc := State.trkSrc_of_coastOver hover
  obtain ⟨ha, h4⟩ := State.alive_of_trkSrc (hsrc.trans_ne (by decide))
  have hd := State.lt_length hsh ha
  obtain ⟨hloss, hstuck⟩ := State.setLoss_spec hd h4
  have hset : s.Tracks (s.setLoss d c) d c fun key => key = Fd.TRK_STAT.W.key c ∨ stickyKeys 3 key :=
    (State.Tracks.refl s).setLoss hd (.inl rfl) fun _ => .inr
  have hexec : exec (.coastLoss d c) s = .next ((s.setLoss d c).lossSource d c) := by
    change execCoastLoss d c s = _
    unfold execCoastLoss
    exact State.guarded_true _ _ _ hs (by simp [hover, ht])
  refine ⟨_, hexec, (congrArg (· != 0) (State.rd_congr fun _ => State.cell_source)).trans hloss, ?_, fun h => ?_, hset.lossSource.frame⟩
  · rw [State.lossSource_spec (hset.frame.length_eq.symm ▸ hd) (by rw [hset.trkSrc, hsrc]; decide) hloss]
    exact congrArg (· != 0) (State.trkRd_congr hset.words)
  · exact (congrArg (fun w : Word => bitOf w.toNat _) State.cell_source).trans (hstuck h)

theorem locked_spec (hsh : s.shaped = true) (hs : s.sane = true) (hdue : s.lockDue d c = true) :
    Completes (.locked d c) s fun t => t.flag d Fd.TRK_STAT.LOCKED c = true ∧ s.OnlyKeys t d (· = Fd.TRK_STAT.W.key c) := by
  have hsrc := State.trkSrc_of_lockDue hdue
  have ha := (State.alive_of_trkSrc (hsrc.trans_ne (by decide))).1
  have hexec : exec (.locked d c) s = .next (s.wrB d Fd.TRK_STAT.LOCKED c true) := by
    change execLocked d c s = _
    unfold execLocked
    exact State.guarded_true _ _ _ hs hdue
  exact ⟨_, hexec, State.flag_wrB_same (State.lt_length hsh ha) (by decide), (State.OnlyKeys.refl ..).wr _ _ _ rfl⟩

theorem trackerStandstill_spec (hsh : s.shaped = true) (hs : s.sane = true) (hdue : s.stillDue d c = true) (ht : s.sampleTick d c = true)
    (hc : c < (s.die d).trk.length) : Completes (.trackerStandstill d c) s fun t =>
      t.flag d Fd.TRK_STAT.STANDSTILL c = true ∧ t.trkSpeed d c = 0 ∧ (t.trk d c).frac = s.interp d c ∧
      s.OnlyKeys t d fun key => key = Fd.TRK_STAT.W.key c ∨ key = Fd.TRK_SPEED_LO.W.key c ∨ key = Fd.TRK_SPEED_HI.W.key c := by
  have hsrc := State.trkSrc_of_stillDue hdue
  have hd := State.lt_length hsh (State.alive_of_trkSrc (by omega : s.trkSrc d c ≠ 0)).1
  obtain ⟨hstill, hspeed⟩ := State.standStill_shows (c := c) hd
  have hexec : exec (.trackerStandstill d c) s = .next (s.standStill d c) := by
    change execTrackerStandstill d c s = _
    unfold execTrackerStandstill
    exact State.guarded_true _ _ _ hs (by simp [hdue, ht])
  exact ⟨_, hexec, hstill, hspeed, congrArg Trk.frac (State.trk_standStill hd hc),
    ((State.Tracks.refl s).standStill fun key h => by simpa [movingKeys] using h).frame⟩

/-! ### What was written takes effect at a sample (04 R125) -/

theorem modify_of_fixed {α : Type} {l : List α} {i : Nat} {g : α → α} (h : ∀ x, l[i]? = some x → g x = x) : l.modify i g = l := by
  refine List.ext_getElem? fun j => ?_
  rw [List.getElem?_modify]
  split
  · next hj =>
    subst hj
    cases hx : l[i]? with
    | none => rfl
    | some x => exact congrArg some (h x hx)
  · exact id_map _

/-- A change that leaves the channel as it is changes nothing. -/
theorem State.onTrk_of_fixed (h : f (s.trk d c) = s.trk d c) : s.onTrk d c f = s := by
  have hdies : s.dies.modify d (fun x => { x with trk := setAt x.trk c f }) = s.dies := modify_of_fixed fun x hx => by
    have hdie : s.die d = x := by simp [State.die, hx]
    have htrk : setAt x.trk c f = x.trk := modify_of_fixed fun y hy => by
      have hy' : s.trk d c = y := by simp [State.trk, hdie, hy]
      rwa [hy'] at h
    rw [htrk]
  unfold State.onTrk State.onDie
  rw [hdies]

/-- A setting just taken is what its register holds. -/
theorem State.trkRd_of_regs {g : Fld} (h : (t.trk d c).words = s.trkRegs d c)
    (hg : g.page = 3 ∧ g.stride = 0x40 ∧ 0x100 ≤ g.base ∧ g.base < 0x118 ∧ g.base % 4 = 0) : t.trkRd d c g = s.rd d g c := by
  obtain ⟨hp, hst, hlo, hhi, hb⟩ := hg
  have hkey : 0x3100 + 0x40 * c + 4 * ((g.base - 0x100) / 4) = g.key c := by
    unfold Fld.key
    rw [hp, hst]
    omega
  have hword : (s.trkRegs d c).getD ((g.base - 0x100) / 4) 0 = s.cell d (g.key c) := by
    unfold State.trkRegs
    rw [List.getD_eq_getElem?_getD, List.getElem?_map, List.getElem?_range (by omega)]
    exact congrArg (s.cell d) hkey
  unfold State.trkRd State.rd
  rw [h, hword]

theorem State.TrkFrame.trkRestart (h : s.TrkFrame t d (sampleKeysOf c)) : s.TrkFrame (t.trkRestart d c) d (sampleKeysOf c) := by
  have hout : ∀ {g : Fld}, g.trkOut = true → sampleKeysOf c (g.key c) ∧ hdrKey 3 4 ≠ g.key c := fun hg =>
    ⟨.inl (Fld.key_trkOut hg), by have := Fld.key_trkOut (c := c) hg; unfold hdrKey; omega⟩
  have hlo := hout (g := Fd.TRK_SPEED_LO.W) (by decide)
  have hhi := hout (g := Fd.TRK_SPEED_HI.W) (by decide)
  unfold State.trkRestart
  exact ((h.onTrk.wr (.inl (statKey_bounds c)) (blockEn_ne_statKey c)).wr hlo.1 hlo.2).wr hhi.1 hhi.2

theorem State.trk_trkRestart (hd : d < s.dies.length) (hc : c < (s.die d).trk.length) :
    ((s.trkRestart d c).trk d c).words = (s.trk d c).words ∧ ((s.trkRestart d c).trk d c).pendRestart = false ∧
    ((s.trkRestart d c).trk d c).n = 0 := by
  unfold State.trkRestart
  dsimp only
  rw [State.trk_wr, State.trk_wr, State.trk_wr, State.trk_onTrk_same hd hc]
  exact ⟨rfl, rfl, rfl⟩

/-- The registers become the settings, and no restart waits. -/
def State.takeRegs (s : State) (d c : Nat) : State := s.onTrk d c fun x => { x with words := s.trkRegs d c, pendRestart := false }

/-- The registers become the settings, and a restart that waits or that they ask for is made. -/
theorem State.takeWords_spec (hd : d < s.dies.length) (hc : c < (s.die d).trk.length) :
    let v := (s.takeWords d c).2
    s.TrkFrame v d (sampleKeysOf c) ∧ (v.trk d c).words = s.trkRegs d c ∧ (v.trk d c).pendRestart = false ∧
    ((s.trk d c).pendRestart = true → (v.trk d c).n = 0) := by
  have hframe : s.TrkFrame (s.takeRegs d c) d (sampleKeysOf c) := (State.TrkFrame.refl s).onTrk
  have htrk : (s.takeRegs d c).trk d c = { s.trk d c with words := s.trkRegs d c, pendRestart := false } := State.trk_onTrk_same hd hc
  have hrestart := State.trk_trkRestart (hframe.frame.length_eq.symm ▸ hd) (hframe.length.symm ▸ hc)
  unfold State.takeWords State.when
  dsimp only
  split
  · obtain ⟨hwords, hpend, hn⟩ := hrestart
    exact ⟨hframe.trkRestart, hwords.trans (congrArg Trk.words htrk), hpend, fun _ => hn⟩
  · next hno =>
    refine ⟨hframe, congrArg Trk.words htrk, congrArg Trk.pendRestart htrk, fun hp => absurd ?_ hno⟩
    rw [hp]
    rfl

/-- With nothing written since the latest sample, nothing changes. -/
theorem State.takeWords_same (hw : s.trkRegs d c = (s.trk d c).words) (hp : (s.trk d c).pendRestart = false) : (s.takeWords d c).2 = s := by
  have hself : s.takeRegs d c = s := by
    refine State.onTrk_of_fixed ?_
    rw [hw, ← hp]
  have hno : ((s.trk d c).pendRestart || restartsBy (s.trk d c).words (s.trkRegs d c)) = false := by
    rw [hp, hw]
    simp [restartsBy]
  unfold State.takeWords State.when
  dsimp only
  rw [hno]
  exact hself

/-! ### What a sample finds and shows (04 R104, R106, R107, R114) -/

section Sample
variable {dt : Nat} {ts speed : Int} {mag : Nat} {j : Judged}

/-- A second bad sample in a row of a SINCOS or QUAD channel is a loss (R114). -/
theorem State.loss_badSample (hd : d < s.dies.length) (h4 : c < 4) (hsrc : s.trkSrc d c = 2 ∨ s.trkSrc d c = 3)
    (hc : c < (s.die d).trk.length) (hbad : 1 ≤ (s.trk d c).badRun) : (s.badSample d c j dt).flag d Fd.TRK_STAT.LOSS c = true := by
  have hill : s.Tracks (s.when j.illegal fun s => s.illegalStep d c) d c (sampleKeysOf c) :=
    (State.Tracks.refl s).when fun _ h => h.illegalStep
  have htrk : (s.when j.illegal fun s => s.illegalStep d c).trk d c = s.trk d c := by
    unfold State.when
    split
    · exact State.trk_stick.trans State.trk_wr
    · rfl
  unfold State.badSample
  dsimp only
  generalize (s.when j.illegal fun s => s.illegalStep d c) = v at *
  have hvsrc := hill.trkSrc
  have hvd : d < v.dies.length := hill.frame.length_eq.symm ▸ hd
  have hrun : (v.onTrk d c fun x => { x with badRun := x.badRun + 1 }).trk d c = { s.trk d c with badRun := (s.trk d c).badRun + 1 } :=
    (State.trk_onTrk_same hvd (hill.length.symm ▸ hc)).trans (by rw [htrk])
  have hsrc' : (v.onTrk d c fun x => { x with badRun := x.badRun + 1 }).trkSrc d c = s.trkSrc d c :=
    (State.Tracks.refl v : v.Tracks v d c fun _ => False).onTrk.trkSrc.trans hvsrc
  rw [if_neg (by rw [hvsrc]; omega)]
  unfold State.when
  rw [if_pos]
  · exact (State.setLoss_spec (State.onTrk_length.symm ▸ hvd) h4).1
  · rw [hrun, hsrc']
    simp only [Bool.and_eq_true, decide_eq_true_eq, bne_iff_ne]
    omega

/-- A channel has judged its inputs and acts on a good sample or a bad one. -/
def State.heed (s : State) (d c dt : Nat) : State :=
  if (s.judgeSample d c).good then s.goodSample d c ((s.td0 : Int) - s.trkRd d c Fd.TRK_AMP.FILT_DELAY) dt
  else s.badSample d c (s.judgeSample d c) dt

theorem State.heed_spec (hd : d < s.dies.length) (h4 : c < 4) (hc : c < (s.die d).trk.length) :
    s.Tracks (s.heed d c dt) d c (sampleKeysOf c) ∧
    (s.trkSrc d c = 2 ∨ s.trkSrc d c = 3 → 1 ≤ (s.trk d c).badRun → (s.judgeSample d c).good = false →
      (s.heed d c dt).flag d Fd.TRK_STAT.LOSS c = true) := by
  unfold State.heed
  refine ⟨.ite (fun _ => (State.Tracks.refl s).goodSample hd) fun _ => (State.Tracks.refl s).badSample hd, fun hsrc hrun hg => ?_⟩
  rw [hg]
  exact State.loss_badSample hd h4 hsrc hc hrun

/-- The sample stands as taken in its tick, and standstill is declared where that is due. -/
def State.sampled (s : State) (d c : Nat) : State :=
  let w := s.onTrk d c fun x => { x with illegal := false, sampled := some (s.td0 : Int) }
  w.when (w.stillDue d c) fun w => w.standStill d c

theorem State.sampled_spec (hd : d < s.dies.length) (hc : c < (s.die d).trk.length) :
    s.Tracks (s.sampled d c) d c (sampleKeysOf c) ∧ ((s.sampled d c).trk d c).sampled = some (s.td0 : Int) := by
  have htaken : s.Tracks (s.onTrk d c fun x => { x with illegal := false, sampled := some (s.td0 : Int) }) d c (sampleKeysOf c) :=
    (State.Tracks.refl s).onTrk
  obtain ⟨⟨i, htrk⟩, -⟩ := State.stillNow_spec (htaken.frame.length_eq.symm ▸ hd) (htaken.length.symm ▸ hc)
  exact ⟨htaken.when fun _ h => h.standStill fun _ => movingKeys_sample,
    (congrArg Trk.sampled htrk).trans (congrArg Trk.sampled (State.trk_onTrk_same hd hc))⟩

theorem State.sampleNow_eq : ∃ speed, (s.sampleNow d c dt).2 = (((s.heed d c dt).sampled d c).showSample d c
    ((s.td0 : Int) - s.trkRd d c Fd.TRK_AMP.FILT_DELAY) speed (s.judgeSample d c).mag).trkDue d c := ⟨_, rfl⟩

theorem State.trk_showSample : (s.showSample d c ts speed mag).trk e k = s.trk e k := by
  unfold State.showSample
  simp only [State.trk_wr]

theorem ux_lt (n : Nat) (x : Int) : ux n x < 2 ^ n := by
  unfold ux
  have := Int.emod_lt_of_pos x (show (0 : Int) < 2 ^ n by positivity)
  have := Int.emod_nonneg x (show (2 : Int) ^ n ≠ 0 by positivity)
  zify
  omega

/-- The time and the angle of the latest sample stand in their registers. -/
theorem State.showSample_spec (hd : d < s.dies.length) :
    let t := s.showSample d c ts speed mag
    t.rd d Fd.TRK_T.W c = ux 32 ts ∧ t.rd d Fd.TRK_POS_FRAC.W c = ux 32 ((s.trk d c).angle / 2 ^ 16) ∧
    t.rd d Fd.TRK_POS_CYC.W c = ux 32 ((s.trk d c).angle / 2 ^ 48) := by
  unfold State.showSample
  dsimp only
  refine ⟨?_, ?_, ?_⟩
  · rw [State.rd_wr_beside (by decide), State.rd_wr_same _ _ _ _ _ (by simpa using hd) (by decide) (by decide)]
    exact Nat.mod_eq_of_lt (ux_lt 32 _)
  · simp (disch := decide) only [State.rd_wr_beside]
    rw [State.rd_wr_same _ _ _ _ _ hd (by decide) (by decide)]
    exact Nat.mod_eq_of_lt (ux_lt 32 _)
  · simp (disch := decide) only [State.rd_wr_beside]
    rw [State.rd_wr_same _ _ _ _ _ (by simpa using hd) (by decide) (by decide)]
    exact Nat.mod_eq_of_lt (ux_lt 32 _)

/-- What falls due by time leaves the channel but for the fraction held in standstill. -/
theorem State.trk_trkDue (hd : d < s.dies.length) (hc : c < (s.die d).trk.length) :
    ∃ i, (s.trkDue d c).trk d c = { s.trk d c with frac := i } := by
  have hv : s.Tracks ((s.when (s.coastOver d c) fun s => s.setLoss d c)) d c (sampleKeysOf c) :=
    (State.Tracks.refl s).when fun _ h => h.setLoss hd (.inl (statKey_bounds c)) fun _ => .inr
  have hvt : (s.when (s.coastOver d c) fun s => s.setLoss d c).trk d c = s.trk d c := by
    unfold State.when
    split
    · exact State.trk_setLoss
    · rfl
  unfold State.trkDue
  dsimp only
  generalize (s.when (s.coastOver d c) fun s => s.setLoss d c) = v at *
  have hw : s.Tracks (v.when (v.lockDue d c) fun v => v.wrB d Fd.TRK_STAT.LOCKED c true) d c (sampleKeysOf c) :=
    hv.when fun _ h => h.wrOut
  have hwt : (v.when (v.lockDue d c) fun v => v.wrB d Fd.TRK_STAT.LOCKED c true).trk d c = s.trk d c := by
    unfold State.when
    split
    · exact State.trk_wr.trans hvt
    · exact hvt
  generalize (v.when (v.lockDue d c) fun v => v.wrB d Fd.TRK_STAT.LOCKED c true) = w at *
  obtain ⟨⟨i, hi⟩, -⟩ := State.stillNow_spec (hw.frame.length_eq.symm ▸ hd) (hw.length.symm ▸ hc)
  exact ⟨i, State.trk_lossSource.trans (hi.trans (by rw [hwt]))⟩

theorem not_dueKeys {g : Fld} (hg : g.page = 3 ∧ g.stride = 0x40 ∧ g.base ∈ [0x120, 0x124, 0x134]) :
    ¬(movingKeys c (g.key c) ∨ stickyKeys 3 (g.key c)) := by
  obtain ⟨hp, hst, hb⟩ := hg
  simp only [movingKeys, stickyKeys, hdrKey, Fld.key, hp, hst, List.mem_cons, List.not_mem_nil, or_false] at hb ⊢
  omega

/-- A sample of a channel under its settings (R104-R107, R114). -/
theorem State.sampleNow_spec (hd : d < s.dies.length) (h4 : c < 4) (hc : c < (s.die d).trk.length) :
    let t := (s.sampleNow d c dt).2
    s.Tracks t d c (sampleKeysOf c) ∧ (t.trk d c).sampled = some (s.td0 : Int) ∧
    t.rd d Fd.TRK_T.W c = ux 32 ((s.td0 : Int) - s.trkRd d c Fd.TRK_AMP.FILT_DELAY) ∧
    t.rd d Fd.TRK_POS_FRAC.W c = ux 32 ((t.trk d c).angle / 2 ^ 16) ∧
    t.rd d Fd.TRK_POS_CYC.W c = ux 32 ((t.trk d c).angle / 2 ^ 48) ∧
    (s.trkSrc d c = 2 ∨ s.trkSrc d c = 3 → 1 ≤ (s.trk d c).badRun → (s.judgeSample d c).good = false →
      t.flag d Fd.TRK_STAT.LOSS c = true) := by
  obtain ⟨hheed, hloss⟩ := State.heed_spec (dt := dt) hd h4 hc
  obtain ⟨speed, heq⟩ := State.sampleNow_eq (s := s) (d := d) (c := c) (dt := dt)
  rw [heq]
  generalize s.heed d c dt = u at *
  generalize (s.td0 : Int) - s.trkRd d c Fd.TRK_AMP.FILT_DELAY = ts at *
  generalize (s.judgeSample d c).mag = mag at *
  have hud : d < u.dies.length := hheed.frame.length_eq.symm ▸ hd
  have huc : c < (u.die d).trk.length := hheed.length.symm ▸ hc
  obtain ⟨htaken, hsampled⟩ := State.sampled_spec hud huc
  rw [hheed.frame.td0_eq] at hsampled
  generalize u.sampled d c = v at *
  have hvd : d < v.dies.length := htaken.frame.length_eq.symm ▸ hud
  have hshow : v.Tracks (v.showSample d c ts speed mag) d c (sampleKeysOf c) := (State.Tracks.refl v).showSample
  obtain ⟨ht, hfrac, hcyc⟩ := State.showSample_spec (c := c) (ts := ts) (speed := speed) (mag := mag) hvd
  have htrk : (v.showSample d c ts speed mag).trk d c = v.trk d c := State.trk_showSample
  generalize v.showSample d c ts speed mag = w at *
  have hwd : d < w.dies.length := hshow.frame.length_eq.symm ▸ hvd
  obtain ⟨i, hdue⟩ := State.trk_trkDue hwd (hshow.length.symm ▸ htaken.length.symm ▸ huc)
  have hkeys : w.OnlyKeys (w.trkDue d c) d fun key => movingKeys c key ∨ stickyKeys 3 key :=
    ((State.Tracks.refl w).trkDue hwd fun _ => id).frame
  have hrest : u.Tracks (w.trkDue d c) d c (sampleKeysOf c) :=
    (htaken.trans hshow).trkDue hud fun _ hk => hk.elim movingKeys_sample .inr
  dsimp only
  rw [hdue, htrk]
  exact ⟨hheed.trans hrest, hsampled, (hkeys.rd_eq (not_dueKeys (by decide))).trans ht,
    (hkeys.rd_eq (not_dueKeys (by decide))).trans hfrac, (hkeys.rd_eq (not_dueKeys (by decide))).trans hcyc,
    fun hsrc hrun hg => hrest.loss (by rw [hheed.trkSrc]; omega) (hloss hsrc hrun hg)⟩

end Sample

/-! ### What a sample tells its domains (04 R105, R125) -/

/-- The registers stay, and of the channel all but its count of good samples. -/
structure State.Fed (s t : State) (d c : Nat) : Prop where
  cell : ∀ e key, t.cell e key = s.cell e key
  trk : ∃ n, t.trk d c = { s.trk d c with good := n }

theorem State.Fed.onTrk {g : Trk → Nat} (h : s.Fed t d c) : s.Fed (t.onTrk d c fun x => { x with good := g x }) d c where
  cell e key := State.cell_onTrk.trans (h.cell e key)
  trk := by
    obtain ⟨n, hn⟩ := h.trk
    rw [State.trk_onTrk, hn]
    split
    · exact ⟨_, rfl⟩
    · exact ⟨n, rfl⟩

theorem State.trk_onDom {i : Nat} {g : Domain → Domain} : (s.onDom d i g).trk e k = s.trk e k := by
  refine State.trk_congr ?_
  unfold State.onDom
  rw [State.die_onDie]
  split <;> rfl

/-- However a domain is changed, the channels stay. -/
theorem State.trk_changeDom {i n : Nat} {x : DomUpd} : (s.changeDom i x n).trk e k = s.trk e k := by
  unfold State.changeDom
  split
  · by_cases hb : s.inFlight i = true ∨ n < (s.dom 0 i).nextOk
    · rw [State.submitDom_held hb]
      exact State.trk_onDom
    · rw [State.submitDom_sent hb]
      exact State.trk_onDom (s := s)
  · split
    · rfl
    · exact State.trk_onDom

theorem State.Fed.changeDom {i n : Nat} {x : DomUpd} (h : s.Fed t d c) : s.Fed (t.changeDom i x n) d c :=
  ⟨fun e key => (State.changeDom_leaves.1 e key).trans (h.cell e key), by rw [State.trk_changeDom]; exact h.trk⟩

theorem State.Fed.ite {p : Prop} [Decidable p] (h : s.Fed t d c) (k : s.Fed u d c) : s.Fed (if p then t else u) d c := by
  split
  · exact h
  · exact k

theorem State.Fed.each {α : Type} {l : List α} {g : State → α → State} (h : s.Fed t d c) (hg : ∀ v a, s.Fed v d c → s.Fed (g v a) d c) :
    s.Fed (t.each l g) d c := State.each_keeps h hg

theorem State.Fed.countUpdate {ts : Int} (h : s.Fed t d c) : s.Fed (t.countUpdate d c ts) d c := by
  unfold State.countUpdate
  exact .ite h.onTrk (.ite h.onTrk (h.onTrk.each fun _ _ h => h.changeDom))

/-- A restarted channel has its domains jump to its angle, and a sample counts toward their next update. -/
def State.feed (s : State) (d c : Nat) (ts : Int) (jump send : Bool) : State :=
  (s.when jump fun s => s.each (s.fedDomains d c) fun s i => s.changeDom i (.jump (s.trk d c).angle (s.trkSpeed d c)) s.td0).when send
    fun s => s.countUpdate d c ts

theorem State.fed_feed {ts : Int} {jump send : Bool} : s.Fed (s.feed d c ts jump send) d c := by
  have hself : s.Fed s d c := ⟨fun _ _ => rfl, _, rfl⟩
  have hjump : s.Fed (s.when jump fun s => s.each (s.fedDomains d c) fun s i =>
      s.changeDom i (.jump (s.trk d c).angle (s.trkSpeed d c)) s.td0) d c :=
    .ite (hself.each fun _ _ h => h.changeDom) hself
  exact .ite hjump.countUpdate hjump

/-! ### TRACKER_SAMPLE (04 R104, R125) -/

theorem opTrackerSample_off (h : (s.takeWords d c).2.trkSrc d c = 0) :
    opTrackerSample d c s = ((s.takeWords d c).2.onTrk d c fun x => { x with sampled := none }).lossSource d c := if_pos h

theorem opTrackerSample_on (h : (s.takeWords d c).2.trkSrc d c ≠ 0) :
    ∃ dt ts jump send, opTrackerSample d c s = ((s.takeWords d c).2.sampleNow d c dt).2.feed d c ts jump send := ⟨_, _, _, _, if_neg h⟩

/-- What a sample leaves, whatever its source: its settings are the registers', and no restart waits. -/
theorem opTrackerSample_spec (hd : d < s.dies.length) (h4 : c < 4) (hc : c < (s.die d).trk.length) :
    let t := opTrackerSample d c s
    let src := s.sourceOn d c (s.rd d Fd.TRK_CFG.SRC c)
    (t.trk d c).words = s.trkRegs d c ∧ (t.trk d c).pendRestart = false ∧ (src = 0 → (t.trk d c).sampled = none) ∧
    (src ≠ 0 → (t.trk d c).sampled = some (s.td0 : Int) ∧
      t.rd d Fd.TRK_T.W c = ux 32 ((s.td0 : Int) - s.rd d Fd.TRK_AMP.FILT_DELAY c) ∧
      t.rd d Fd.TRK_POS_FRAC.W c = ux 32 ((t.trk d c).angle / 2 ^ 16) ∧
      t.rd d Fd.TRK_POS_CYC.W c = ux 32 ((t.trk d c).angle / 2 ^ 48)) ∧
    ((s.trkSrc d c = 2 ∨ s.trkSrc d c = 3) → s.trkRegs d c = (s.trk d c).words → (s.trk d c).pendRestart = false →
      1 ≤ (s.trk d c).badRun → (s.judgeSample d c).good = false → t.flag d Fd.TRK_STAT.LOSS c = true) ∧
    (src = 3 → (s.trk d c).pendRestart = true → (t.trk d c).n = 0) ∧
    ∀ e key, ¬(e = d ∧ pageKeys 3 key) → t.cell e key = s.cell e key := by
  obtain ⟨hframe, hwords, hpend, hzero⟩ := State.takeWords_spec hd hc
  have hsame := State.takeWords_same (s := s) (d := d) (c := c)
  have hoff := opTrackerSample_off (s := s) (d := d) (c := c)
  have hon := opTrackerSample_on (s := s) (d := d) (c := c)
  generalize (s.takeWords d c).2 = v at *
  have hvd : d < v.dies.length := hframe.frame.length_eq.symm ▸ hd
  have hvc : c < (v.die d).trk.length := hframe.length.symm ▸ hc
  have hsrc : v.trkSrc d c = s.sourceOn d c (s.rd d Fd.TRK_CFG.SRC c) := by
    unfold State.trkSrc
    rw [hframe.source, State.trkRd_of_regs hwords (by decide)]
  have hpage : ∀ {w : State}, s.OnlyKeys w d (sampleKeysOf c) → ∀ e key, ¬(e = d ∧ pageKeys 3 key) → w.cell e key = s.cell e key :=
    fun {w} hw e key hk => by
      by_cases he : e = d
      · subst he
        exact hw.cell_eq fun hs => hk ⟨rfl, sampleKeysOf_page h4 hs⟩
      · exact hw.cell_ne he
  rw [← hsrc]
  by_cases h0 : v.trkSrc d c = 0
  · have hrest : v.Tracks ((v.onTrk d c fun x => { x with sampled := none }).lossSource d c) d c (sampleKeysOf c) :=
      (State.Tracks.refl v).onTrk.lossSource
    have hnone : (((v.onTrk d c fun x => { x with sampled := none }).lossSource d c).trk d c).sampled = none := by
      rw [State.trk_lossSource, State.trk_onTrk_same hvd hvc]
    rw [hoff h0]
    refine ⟨hrest.words.trans hwords, hrest.restart.trans hpend, fun _ => hnone, fun h => absurd h0 h, fun hq hw hp => ?_,
      fun h => absurd (h0.symm.trans h) (by decide), hpage (hframe.frame.trans hrest.frame)⟩
    rw [hsame hw hp] at h0
    omega
  · obtain ⟨dt, ts, jump, send, heq⟩ := hon h0
    obtain ⟨hrest, hsampled, ht, hfrac, hcyc, hloss⟩ := State.sampleNow_spec (dt := dt) hvd h4 hvc
    obtain ⟨hcell, n, htrk⟩ := State.fed_feed (s := (v.sampleNow d c dt).2) (d := d) (c := c) (ts := ts) (jump := jump) (send := send)
    rw [heq]
    generalize (v.sampleNow d c dt).2 = w at *
    have hrd : ∀ g : Fld, (w.feed d c ts jump send).rd d g c = w.rd d g c := fun g => State.rd_congr fun _ => hcell ..
    dsimp only
    rw [htrk, hrd, hrd, hrd, State.flag_eq, hrd, ← State.flag_eq]
    rw [State.trkRd_of_regs hwords (by decide)] at ht
    refine ⟨hrest.words.trans hwords, hrest.restart.trans hpend, fun h => absurd h h0, fun _ => ⟨?_, ?_, hfrac, hcyc⟩,
      fun hq hw hp hrun hg => ?_, fun h3 hp => ?_, fun e key hk => ?_⟩
    · exact hsampled.trans (congrArg (fun n : Nat => some (n : Int)) hframe.frame.td0_eq)
    · exact ht.trans (by rw [hframe.frame.td0_eq])
    · obtain rfl := hsame hw hp
      exact hloss hq hrun hg
    · exact (hrest.count (by omega)).trans (hzero hp)
    · exact (hcell e key).trans (hpage (hframe.frame.trans hrest.frame) e key hk)

theorem trackerSample_spec (hsh : s.shaped = true) (hs : s.sane = true) (hdue : s.sampleDue d c = true) (hc : c < (s.die d).trk.length) :
    Completes (.trackerSample d c) s fun t =>
      (t.trk d c).words = s.trkRegs d c ∧ (t.trk d c).pendRestart = false ∧
      (s.sourceOn d c (s.rd d Fd.TRK_CFG.SRC c) = 0 → (t.trk d c).sampled = none) ∧
      (s.sourceOn d c (s.rd d Fd.TRK_CFG.SRC c) ≠ 0 →
        (t.trk d c).sampled = some (s.td0 : Int) ∧
        t.rd d Fd.TRK_T.W c = ux 32 ((s.td0 : Int) - s.rd d Fd.TRK_AMP.FILT_DELAY c) ∧
        t.rd d Fd.TRK_POS_FRAC.W c = ux 32 ((t.trk d c).angle / 2 ^ 16) ∧
        t.rd d Fd.TRK_POS_CYC.W c = ux 32 ((t.trk d c).angle / 2 ^ 48)) ∧
      ((s.trkSrc d c = 2 ∨ s.trkSrc d c = 3) → s.trkRegs d c = (s.trk d c).words → (s.trk d c).pendRestart = false →
        1 ≤ (s.trk d c).badRun → (s.judgeSample d c).good = false → t.flag d Fd.TRK_STAT.LOSS c = true) ∧
      (s.sourceOn d c (s.rd d Fd.TRK_CFG.SRC c) = 3 → (s.trk d c).pendRestart = true → (t.trk d c).n = 0) ∧
      t.device = s.device ∧ t.td0 = s.td0 ∧ t.pending = s.pending ∧
      ∀ e key, ¬(e = d ∧ pageKeys 3 key) → t.cell e key = s.cell e key := by
  obtain ⟨ha, h4⟩ := State.alive_of_sampleDue hdue
  obtain ⟨hwords, hpend, hoff, hon, hloss, hzero, hcell⟩ := opTrackerSample_spec (State.lt_length hsh ha) h4 hc
  have hexec : exec (.trackerSample d c) s = .next (opTrackerSample d c s) := by
    change s.guarded _ _ = _
    exact State.guarded_true _ _ _ hs hdue
  have hcourse : (opTrackerSample d c s).course = s.course := State.Has.opTrackerSample (State.Has.self s)
  have hkeeps : s.Keeps (opTrackerSample d c s) := .opTrackerSample (.refl s)
  exact ⟨_, hexec, hwords, hpend, hoff, hon, hloss, hzero, congrArg Course.device hcourse, congrArg Course.td0 hcourse, hkeeps.pending, hcell⟩

/-- Out of its turn a channel samples nothing (R104). -/
theorem trackerSample_idle (hs : s.sane = true) (h : s.sampleDue d c = false) : exec (.trackerSample d c) s = .next s := by
  change s.guarded _ _ = _
  exact State.guarded_false _ _ _ hs h

end Sys2Proof.Machine

/-- Settles O19, command by command: a transition of one level and a pulse each count and end a standstill (`State.countStep_spec`), a
change of both levels is illegal, and RESTART waits. -/
theorem trackerEdges : Obligations.tracker_edges :=
  ⟨fun _ _ _ _ _ _ hsh hs hsrc hc hq hf h => quadTransition_one hsh hs hsrc hc hq hf h,
    fun _ _ _ _ _ _ hsh hs hsrc hc hq hf ha hb => quadTransition_both hsh hs hsrc hc hq hf ha hb,
    fun _ _ _ _ _ _ hs h => quadTransition_filtered hs h,
    fun _ _ _ _ _ hsh hs hsrc hc => pulseEdge_spec hsh hs hsrc hc,
    fun _ _ _ hsh hs ha h4 hc => restart_spec hsh hs ha h4 hc⟩

/-- Settles O20, command by command: a sample takes the registers as its settings (`State.takeWords_spec`), judges and shows its inputs
(`State.sampleNow_spec`) and feeds its domains (`State.fed_feed`); loss, lock and standstill are declared as they fall due. -/
theorem trackerSamples : Obligations.tracker_samples :=
  ⟨fun _ _ _ hsh hs hdue hc => trackerSample_spec hsh hs hdue hc,
    fun _ _ _ hs h => trackerSample_idle hs h,
    fun _ _ _ hsh hs hover ht => coastLoss_spec hsh hs hover ht,
    fun _ _ _ hsh hs hdue => locked_spec hsh hs hdue,
    fun _ _ _ hsh hs hdue ht hc => trackerStandstill_spec hsh hs hdue ht hc⟩

end
